-- ==== Sys2Proof/Word.lean ====
section
/-! DEFINITION. The words of the block: the widths of R5 that the device adds, masks or shifts, and the
sparse table every per-unit group of the state is held in. -/

namespace Sys2Proof

/-- One byte (R5, U8). -/
abbrev Byte := BitVec 8

/-- One 64-bit word of a descriptor, record or memory word (R146: 64 data bits a word). -/
abbrev Word := BitVec 64

/-- A table of entries by number, sorted by number; an entry that equals the unit's reset value is not
listed, so equal tables are equal lists. -/
abbrev Store (α : Type) := List (Nat × α)

end Sys2Proof
end

