-- ==== Sys2Proof/Syntax.lean ====
section
/-! DEFINITION. The commands the block takes, one constructor for each row of the table, with the operands that
reach it from outside: what a frame carries, what a measurement or a check found, which unit is meant.
The table gives its rows no bits and no operands; the operands are this model's (log 1). -/

namespace Sys2Proof

/-- The two tracked time domains (R38). -/
inductive Dom where
  | a | b
deriving DecidableEq, Repr

/-- What the header protection of a CSI-2 packet found (R61). -/
inductive HdrEcc where
  | ok | corrected | bad
deriving DecidableEq, Repr

/-- A sensor port (R58): CSI0 to CSI11, SEN0 to SEN3. -/
inductive SPort where
  | csi (n : Fin 12)
  | sen (n : Fin 4)
deriving DecidableEq, Repr

/-- The port a request comes through (R395, R405). -/
inductive ReqPort where
  | spi | host0 | host1
deriving DecidableEq, Repr

/-- What a host port's filters read of a received frame (R395, R398, R399). -/
structure HostFrame where
  /-- TCI of the 802.1Q tag, none without one -/
  tci : Option (BitVec 16)
  /-- bytes of the frame, tag and FCS included -/
  bytes : Nat
  fcsOk : Bool
  /-- an IPv4 packet with options -/
  options : Bool
  /-- a fragment of either IP version -/
  fragment : Bool
  multicast : Bool
  /-- the UDP checksum of an IPv4 datagram is there and right -/
  checksum : Bool
deriving DecidableEq, Repr

/-- An untagged frame that no filter drops. -/
def HostFrame.plain : HostFrame :=
  { tci := none, bytes := 64, fcsOk := true, options := false, fragment := false, multicast := false, checksum := true }

/-- A received service frame's header and sender (R401): the fields that the checks read. -/
structure Req where
  port : ReqPort
  /-- the frame that carries it on a host port -/
  frame : HostFrame
  /-- sender's address as IPv6, IPv4 in the mapped form (R400) -/
  addr : BitVec 128
  /-- sender's UDP port -/
  udp : BitVec 16
  tag : BitVec 16
  magic : BitVec 16
  version : BitVec 8
  /-- the LENGTH field -/
  length : Nat
  /-- the datagram's size in bytes -/
  size : Nat
deriving DecidableEq, Repr

/-- One word that a read found in error (R148, R165): its place as a memory key, and whether the code
corrects it. -/
structure EccEvent where
  word : Nat
  correctable : Bool
deriving DecidableEq, Repr

/-- A physical disturbance of an engine operation (R107); what of it the checks of R103 to R106 see follows from their rules. -/
inductive EngineUpset where
  /-- weight row k, column n is latched as another pattern -/
  | latch (k n v : Nat)
  /-- weight row k, column n changes to another pattern after it was latched -/
  | held (k n v : Nat)
  /-- the product of row m, column n at place k reaches the accumulator with an amount too much -/
  | sum (m n k : Nat) (delta : Int)
  /-- the residue lane of row m, column n gains an amount -/
  | lane (m n delta : Nat)
  /-- bits of the byte or bytes of activation row m, place k flip on their way to the array edge -/
  | act (m k flips : Nat)
  /-- one of the two requantisation units or float paths differs at row m, column n; it is the one whose value is written or not -/
  | path (m n flips : Nat) (written : Bool)
  /-- the sequencer counts passes or drained entries too many or too few -/
  | passes (n : Int)
deriving DecidableEq, Repr

/-- An engine operation (R88, R91, R97, R110). The manual gives the operation no bit layout; these are the
quantities its rules read. Addresses are device addresses (R121). -/
structure OpDesc where
  m : Nat
  k : Nat
  n : Nat
  /-- element type codes of R124 -/
  aType : Nat
  wType : Nat
  outType : Nat
  aDesc : Nat
  wDesc : Nat
  outDesc : Nat
  records : Nat
  cpl : Nat
  /-- index of its entry within its Pod's table (R191) -/
  index : Nat
  /-- its own index within its partition's sections, the WORK of that entry (R201) -/
  work : Nat
  /-- the mixing permission of R126 -/
  mixing : Bool
deriving DecidableEq, Repr

/-- Where one stream's evidence from one sample lies (R229): the tensor descriptors of the sample's levels or voxels, and of the evidence
planes that the program's head made of it, region by region. -/
structure EvidenceRef where
  slot : Fin 16
  levels : List Nat
  planes : List Nat
deriving DecidableEq, Repr

/-- One detection record (R288). Positions are Q15.16 patterns read as integers. -/
structure Detection where
  x : Int
  y : Int
  z : Int
  conf : Nat
  region : Nat
  sx : Nat
  sy : Nat
  sz : Nat
  hx : Nat
  hy : Nat
  hz : Nat
  parentRow : Nat
  told : Int
deriving DecidableEq, Repr

/-- A solver's result as a Pip step reads it (R324, R325): the addresses of the solution buffer, of the completion record and, for a
batch, of the descriptor of the block status tensor (0 none), and the fraction bits of the values. -/
structure SolRef where
  sol : Nat
  cpl : Nat
  aux : Nat
  nX : Nat
deriving DecidableEq, Repr

/-- What the refine-calibration operation names for one stream (R239): where its correspondence count and its residual in µm lie, two
U32, and its six values of a solution: the first unknown and the block. -/
structure CalibStep where
  slot : Fin 16
  stats : Nat
  ref : SolRef
  first : Nat
  block : Nat
deriving DecidableEq, Repr

/-- Bits flipped in the 256 bytes of a track slot as a Pip step reads them (R284). -/
structure SlotUpset where
  slot : Nat
  flips : List Byte
deriving DecidableEq, Repr

/-- One pair entry of the safety summary (R338, R344). -/
structure PairEntry where
  dist : Nat
  vh : Nat
  sigma : Nat
  trackId : Nat
  predOnly : Bool
deriving DecidableEq, Repr

/-- The work of a Pip step. The instruction set is not published (R111); a step whose result the manual fixes
names it, every other step hands over the bytes its cores produced. -/
inductive PipWork where
  /-- program code: only its result streams are seen -/
  | program
  /-- the lift of one sample onto a region (R226 to R229): its levels or voxels, and the tensor of the contribution -/
  | lift (slot : Fin 16) (region : Nat) (levels : List Nat) (dst : Nat)
  /-- the cell-state step (R230 to R233, R246, R247, R549): evidence of the cycle, and the occupancy head's tensors by region -/
  | cellState (ev : List EvidenceRef) (occ : List Nat)
  /-- the three plausibility checks (R235, R236) -/
  | healthChecks (ev : List EvidenceRef)
  /-- bounded calibration steps (R239 to R241) -/
  | calibrate (steps : List CalibStep)
  /-- the encode step of one block of 32 BF16 values (R259): region, token, KV4 or KV8, the addresses of the values, the mantissas and
  the scale -/
  | encode (region token : Nat) (kv4 : Bool) (src dst scale : Nat)
  /-- the widening of stored blocks to B8 or BF16 (R274): form, number of blocks, addresses of mantissas, scales and result -/
  | widen (bf16 kv4 : Bool) (blocks src scale dst : Nat)
  /-- the softmax of rows of scores, each of one query and head (R275): keys of the segment and the first's place in the mask bitmaps,
  addresses of the BF16 scores, the bitmaps, and where m and l go; the p_j are the step's output -/
  | softmax (rows first keys scores masks stats : Nat)
  /-- reading a ring record: its CRC is checked first (R272) -/
  | readRecord (region position : Nat) (stored : BitVec 32)
  /-- masks of one query token and head (R273) -/
  | buildMask (region head query : Nat)
  /-- merge of split segments (R277): of each segment the addresses of its m and l and of its `n` BF16 values of o; output type;
  destination -/
  | merge (segs : List (Nat × Nat)) (n outType dst : Nat)
  /-- prediction of one class to the cycle's instant (R289) -/
  | predict (cls : Fin 8) (upsets : List SlotUpset)
  /-- gating and one block of rows of the cost matrix of one class (R288, R290 to R292): the descriptor of the detection list, the
  block's first row and its number of rows, the address of the matrix -/
  | costs (cls : Fin 8) (dets first rows dst : Nat) (upsets : List SlotUpset)
  /-- the update of one class (R298 to R301): the update job's result, and where the program holds the 72 bytes of APP of each detection
  (R283; 0 none) -/
  | update (cls : Fin 8) (job : SolRef) (app : Nat) (upsets : List SlotUpset)
  /-- the safety summary (R338, R344): zone counts come from the grid; `src` is where the machine model has left the separation and the
  nearest track of each pair, 256 words (log 73) -/
  | summary (src dst : Nat) (upsets : List SlotUpset)
deriving DecidableEq, Repr

/-- A Pip step of a package (R111, R113, R114). -/
structure PipStep where
  /-- first core; a checked step runs on cores 2 * (core / 2) and the next one -/
  core : Fin 4
  checked : Bool
  /-- its index within its partition's sections, the WORK of its entry (R201) -/
  number : Nat
  /-- worst-case clock count (R113) -/
  wcet : Nat
  /-- device addresses of the descriptors of its inputs, its mixing permission, its output's descriptor and bytes -/
  inputs : List Nat
  mixing : Bool
  outDesc : Nat
  outAddr : Nat
  /-- bytes of its output, and where a checked step's cores hold them in their local memories (R114) -/
  outLen : Nat
  localAt : Nat
  work : PipWork
deriving DecidableEq, Repr

/-- A schedule table (R200). -/
inductive TableId where
  | pod (l : Fin 24)
  | solver (e : Fin 4)
  | hub (h : Fin 2)
deriving DecidableEq, Repr

/-- Who issues a fence group (R127, R131): the schedule, by the WORK of its entry, or a Pip core that names a template of the
package's descriptor set for each descriptor. -/
inductive MoveIssuer where
  | schedule (work : Nat)
  | pip (core : Fin 4) (templates : List Nat)
deriving DecidableEq, Repr

/-- Who issues a sync operation (R214, R216): its partition and its own SIG_OBJ. -/
structure SyncIssuer where
  partition : Fin 8
  sigObj : Nat
  number : Nat
deriving DecidableEq, Repr

/-- A memory bank under background test (R158, R160). -/
inductive Bank where
  | scratchpad (pod : Fin 25) (bank : Fin 16)
  | pipLocal (pod : Fin 25) (core : Fin 4)
  | hoard (bank : Fin 48)
  | iod (bank : Fin 8)
deriving DecidableEq, Repr

/-- A received sensor Ethernet frame (R63): its 802.1Q tag if it carries one, and what follows its EtherType up to the FCS. -/
structure EthFrame where
  src : BitVec 48
  tag : Option (BitVec 16)
  etherType : BitVec 16
  payload : List Byte
  fcsOk : Bool
deriving DecidableEq, Repr

/-- A bit that flipped while a FIFO held it (R68, R71): the word, counted over the words the command reads, and its bit, 0 to 63 data,
64 to 71 parity. -/
structure Upset where
  word : Nat
  bit : Nat
deriving DecidableEq, Repr

/-- How a frame came over a pair of lanes (R19, R355). -/
inductive Lanes where
  /-- both lanes, good CRCs, identical content -/
  | agree
  /-- both lanes, different content -/
  | differ
  /-- one lane only, or one good CRC only -/
  | single
deriving DecidableEq, Repr

/-- A Twin link frame (R355). -/
structure TwinFrame where
  lanes : Lanes
  role : Bool
  seq : BitVec 16
  stamp : Word
  payload : List Word
deriving DecidableEq, Repr

/-- What a patrol read or another DDR5 read found (R165, R169). -/
inductive BurstResult where
  | good | corrected | uncorrectable
deriving DecidableEq, Repr

/-- The areas of the NAND (R484). -/
inductive NandArea where
  | boot | firmware | package (slot : Fin 2) | store | control | ring
deriving DecidableEq, Repr

/-- A page of the NAND: its area, copy (0 A, 1 B), physical block and page (R484, R485). -/
structure NandPlace where
  area : NandArea
  copy : Fin 2
  block : Nat
  page : Nat
deriving DecidableEq, Repr

/-- The outcome of reading one codeword (R489). -/
inductive CwOutcome where
  /-- decoded hard with so many bits corrected -/
  | hard (bits : Nat)
  /-- decoded soft -/
  | soft
  /-- neither decode succeeded -/
  | missing
deriving DecidableEq, Repr

/-- The outcome of a NAND operation (R489, R491). -/
inductive NandOutcome where
  /-- a read, by codeword of the page -/
  | read (l : List CwOutcome)
  /-- program done -/
  | done
  /-- erase done -/
  | erased
  /-- program or erase failed -/
  | failed
deriving DecidableEq, Repr

/-- What a start-up step found (R475): the results its branches read. -/
structure StepResult where
  ok : Bool
  /-- step 4: links that failed training; step 5: Pods that failed; step 9: ports that do not answer -/
  units : List Nat
  /-- step 7: stages with one bad copy, stages with two -/
  oneBad : List Nat
  twoBad : List Nat
  /-- step 6: stored training record present and verified -/
  trained : Bool
  /-- step 7: persisted objects no copy of which reads -/
  lostObjects : List Nat
  /-- step 7: an anchor copy passes its CRC (R486) -/
  anchor : Bool
  /-- step 7 of the first start-up: blocks with a factory mark (R486) -/
  factoryBad : List Nat
  /-- step 7: a reservation record reads from a control-area copy -/
  leafReads : Bool
  /-- step 7: the largest FLOOR of the running stages, and their security version -/
  floor : Nat
  secVersion : Nat
  /-- step 7: version of the firmware, and whether the attestation key's traversal state is present -/
  firmware : Nat
  traversalOk : Bool
  /-- step 7: an unsealed segment is found -/
  unsealed : Bool
deriving DecidableEq, Repr

/-- What the sections of a package hold whose layout the manual does not give (R182): placement, schedule, descriptors, intake
configuration, defaults, partition table, stream map. The header, the section table, the window tables, the range records and the loaded
bytes are read from the package's own bytes. -/
structure PkgContent where
  /-- what the security unit finds over the header (R508) and the body -/
  signatureOk : Bool
  bodyOk : Bool
  /-- check 5 -/
  syncObjects : Nat
  streams : Nat
  trackSlots : Nat
  zones : Nat
  pairs : Nat
  floorA : Nat
  /-- check 6: offsets from the instant, µs -/
  intakeUs : Nat
  summaryUs : Nat
  commitUs : Nat
  toUs : Nat
  /-- Hoard and DDR5 ranges of each partition: device address and bytes (R194) -/
  partitionRanges : List (List (Nat × Nat))
  /-- ranges the partition table declares readable by each partition (R195) -/
  readRanges : List (List (Nat × Nat))
  /-- check 9: object key and value of each default -/
  defaults : List (Nat × List Nat)
  /-- section 2: tables, as four words an entry -/
  tables : List (TableId × List (List Word))
  /-- sync objects whose error is a generation fault (R373) -/
  generationObjects : List Nat
  /-- sync objects, then output streams of each partition: lowest and count (R194) -/
  syncRanges : List (Nat × Nat)
  streamRanges : List (Nat × Nat)
  /-- logical Pods of each partition (R194) -/
  partitionPods : List (List Nat)
  /-- the mover descriptors of the descriptor set (R131) -/
  descriptors : List (List Word)
  /-- the job descriptors of the solver sections (R308) -/
  jobs : List (List Word)
  barriers : List (Nat × Nat)
  intakeObj : Nat
  planObj : Nat
  /-- placement: X, Y, Z, C, region columns, region rows, full-rate -/
  grid : List Nat
  monitored : List Nat
  /-- attention geometry of R256: form, page, pool pages, hot pages, W, D_hot, D_ret, A, t, rho, heads, d_h, S,
  P_e, P_r, device addresses of the first hot page and the first pool page -/
  attention : List Nat
  /-- neighbourhood bits, age mask by head -/
  neighbourhood : List Bool
  ageMask : List (List Bool)
  /-- track classes: base, count, capacity, entries per row, safety, parent class -/
  classes : List (List Nat)
  /-- auction: initial ε, final ε, divider, phases, rounds -/
  auction : List Nat
  /-- values by object key of every object whose default is the package's: stream map, time-slice table, intake descriptors -/
  streamMap : List (Nat × List Nat)
  /-- intake tensors: slot and device address of its tensor descriptor (the manual gives no field for it) -/
  intakeDests : List (Nat × Nat)
  /-- retained ranges (R152): logical Pod, Pip core (none the scratchpad), offset, length -/
  retained : List (Nat × Option Nat × Nat × Nat)
  /-- Hoard ranges it declares resident (R444): offset, length -/
  resident : List (Nat × Nat)
  /-- emit operations (R412): number, device address and bytes of the output -/
  emits : List (Nat × Nat × Nat)
  /-- tensor descriptors of the outputs of each table entry (R204) -/
  outputs : List (TableId × Nat × List Nat)
deriving DecidableEq, Repr

/-- The commands, in the table's order. -/
inductive Instr where
  | servoUpdate
  | holdoverExceeded
  | slewSaturated
  | revertHoldOffExpiry
  | ptpSync (port : Fin 2) (dn : Nat) (logInt : Int) (seq : BitVec 16) (twoStep : Bool) (origin : Int)
  | ptpFollowUp (port : Fin 2) (dn : Nat) (logInt : Int) (seq : BitVec 16) (origin : Int)
  | ptpAnnounce (port : Fin 2) (dn : Nat) (logInt : Int) (identity : Nat) (gm : Word) (clockClass : Nat)
  | domainReceiptTimeout (d : Dom)
  | pdelayInterval (port : Fin 6)
  | pdelayResponse (port : Fin 6) (seq : BitVec 16) (t2 t3 : Option Int)
  | pdelayReq (port : Fin 6) (seq : BitVec 16)
  | sensorPortSync (p : Fin 4)
  | sensorPortAnnounce (p : Fin 4)
  | trigEdge (pin : Fin 16)
  | trigPulseEnd (pin : Fin 16)
  | refClockWindow (edges : Nat)
  | cycleInstant
  | acceptanceWindowClose
  | slotLinkUp (p : SPort)
  | slotSilent (n : Fin 16)
  | slotFaultHoldExpiry (n : Fin 16)
  | streamPortConfigRetry (p : SPort) (answers : Bool)
  | csiFrameStart (p : Fin 12) (vc : Fin 16) (h : HdrEcc)
  | csiLongPacket (p : Fin 12) (vc : Fin 16) (dt : Byte) (line : Nat) (lineStart : Option Nat) (data : List Byte) (crcOk cut : Bool) (h : HdrEcc)
  | csiFrameEnd (p : Fin 12) (vc : Fin 16) (h : HdrEcc)
  | csiLaneFault (p : Fin 12) (obs : Fin 3)
  | senFrame (p : Fin 4) (f : EthFrame) (upsets : List Upset)
  | senPhyFault (p : Fin 4)
  | canFrame (c : Fin 4) (id : BitVec 29) (ext : Bool) (data : List Byte) (upsets : List Upset)
  | canBusFault (c : Fin 4)
  | spiPoll (k : Fin 32)
  | spiFrameReceived (k : Fin 32) (data : List Byte) (upsets : List Upset)
  | encoderLatch (e : Fin 8) (steps : Int) (phaseError zEdge : Bool) (upsets : List Upset)
  | fifoReadResume (n : Fin 16)
  | fifoPointerCompare (n : Fin 16) (differ : Bool)
  | timesliceEntry (upsets : List Upset)
  | sampleConversionComplete (n : Fin 16)
  | intakeCompletionDeadline
  | entryRelease (t : TableId) (i : Nat) (word : BurstResult)
  | op (l : Fin 24) (d : OpDesc)
  | opComplete (l : Fin 24) (upsets : List EngineUpset) (ecc : List EccEvent)
  | pipStep (l : Fin 24) (p : PipStep) (forbidden : Bool)
  | pipStepComplete (l : Fin 24) (core : Fin 4) (flips : List Byte) (ecc : List EccEvent)
  | pipOverrun (l : Fin 24) (core : Fin 4)
  | move (m : Fin 27) (issuer : MoveIssuer) (partition : Fin 8) (descs : List (List Word))
  | fenceGroupComplete (m : Fin 27) (tileBad : List Nat) (ecc : List EccEvent)
  | advance (l : Fin 24) (w : Fin 64)
  | solve (e : Fin 4) (job : List Word) (partition : Fin 8) (work : Nat) (trackClass : Option (Fin 8))
  | solverJobComplete (e : Fin 4) (compareLost parity : Bool) (ecc : List EccEvent)
  | solverCut (e : Fin 4) (done rounds : Nat)
  | entryDeadline (t : TableId) (i : Nat)
  | podWakeRequest (l : Fin 24)
  | podWakeComplete (p : Fin 25)
  | idleItemStart (t : TableId) (i : Nat)
  | promotion (t : TableId) (i : Nat)
  | meshAgePromotion (router : Fin 25) (m : Fin 27) (desc : Nat)
  | selftestChunkDue (kind : Fin 8) (unit : Fin 25)
  | memtestRegionComplete (b : Bank) (region : Nat) (fails : Bool) (ecc : List EccEvent)
  | hullCheckerTest (pass : Bool)
  | solverSelftest (e : Fin 4) (digestOk : Bool)
  | syncFabricTest (block : Fin 64) (pass : Bool)
  | coverageLate (kind : Fin 8)
  | diagIntervalExceeded (kind : Fin 8)
  | syncSignal (who : SyncIssuer) (obj inc : Nat) (err : Bool) (cause : BitVec 16)
  | syncWait (who : SyncIssuer) (obj threshold timeout : Nat)
  | syncReset (who : SyncIssuer) (obj : Nat) (value : BitVec 32)
  | syncRead (obj : Nat)
  | barrierArrive (who : SyncIssuer) (group : Nat) (err : Bool)
  | syncTimeout (who : SyncIssuer) (obj : Nat)
  | correctedWriteBack (word : Nat)
  | ddrWriteCrcAlert (m : Fin 27) (desc : Nat) (addr : Nat) (retriesFail : Nat)
  | ddrOscillatorRead (corrections : List Int)
  | zqCalibration
  | ddrTemperatureRead (temps : List Int) (maxOperating : Int)
  | patrolRead (addr : Nat) (r : BurstResult) (writePending : Bool)
  | patrolLate
  | summaryArrival (bytes : List Byte) (faulted : Bool) (clocks : Nat)
  | commitDeadline
  | kvWriteBackComplete (region : Nat) (faulted : Bool)
  | speedSettleExpiry (pair : Fin 256)
  | hullLockstep
  | stopDarkTest (pinB : Bool) (readsLow : Bool)
  | stopPinReadback (pinB : Bool) (high : Bool)
  | offDelayExpiry (q : Fin 4)
  | safetyChannelTimeout
  | statusInterval
  | safetyCommand (port : ReqPort) (frame : HostFrame) (addr : BitVec 128) (pdu : List Byte)
  | twinHeartbeatSend
  | heartbeat (f : TwinFrame)
  | decision (f : TwinFrame)
  | values (f : TwinFrame)
  | identity (f : TwinFrame)
  | bulk (f : TwinFrame)
  | crossCheckWindowExpiry (cycle : BitVec 48)
  | twinLinkLost
  | identitySend
  | twinLaneTraining (byPartner : Bool)
  | partnerDiscovery
  | read (r : Req) (idx : BitVec 16) (sub : Byte) (part : Bool) (offset : BitVec 32)
  | write (r : Req) (idx : BitVec 16) (sub : Byte) (part : Bool) (payload : List Byte)
  | blockStart (r : Req) (idx : BitVec 16) (sub : Byte) (total : Word)
  | blockData (r : Req) (idx : BitVec 16) (sub : Byte) (offset : BitVec 32) (segment : List Byte) (pkg : Option PkgContent)
  | subscribe (r : Req) (idx : BitVec 16) (sub : Byte) (dport : BitVec 16)
  | unsubscribe (r : Req) (idx : BitVec 16) (sub : Byte)
  | event (i : Nat)
  | subscriptionLeaseExpiry (i : Nat)
  | transferAborted (idx : BitVec 16) (sub : Byte)
  | evClear (r : Req) (idx : BitVec 16) (sub : Byte) (sameClock : Bool)
  | configurationLock (r : Req) (value : Byte)
  | addressChangeEffect (port : Fin 2)
  | fragmentTransmit (port : Fin 3)
  | arpRequest (port : Fin 2) (frame : HostFrame) (target : BitVec 32) (sender : BitVec 32)
  | neighbourDiscovery (port : Fin 2) (frame : HostFrame) (target : BitVec 128) (sender : BitVec 128)
  | echoRequest (port : Fin 2) (frame : HostFrame) (v6 : Bool) (sender : BitVec 128) (data : List Byte)
  | hostLinkUp (port : Fin 2)
  | hostLinkDown (port : Fin 2)
  | cableTest (port : Fin 6) (code : Fin 4) (distance : BitVec 16)
  | status
  | writeFrame (bytes : List Byte) (pkg : Option PkgContent) (known : Bool)
  | readFrame
  | readStream (stream : Fin 64)
  | readEvents
  | stateRequestHusk (r : Req)
  | stateRequestStandby (r : Req)
  | stateRequestReady (r : Req)
  | stateRequestRun (r : Req)
  | stateTransitionComplete
  | resetRequest (r : Req) (value : Byte)
  | restoreDefaults (r : Req) (value : Byte)
  | loadSlot (r : Req) (slot : Byte)
  | activate (r : Req) (slot : Byte)
  | activationComplete
  | confirm (r : Req) (value : Byte)
  | minimumSecurityVersion (r : Req) (value : BitVec 32)
  | unmaskRequest (r : Req) (n : Fin 16) (value : Byte)
  | resetCorrection (r : Req) (n : Fin 16) (sub : Byte) (payload : List Byte)
  | gridGeometryWrite (r : Req) (sub : Byte) (payload : List Byte)
  | calibrationPersist
  | supplyEnable (r : Req) (n : Fin 16) (value : Byte)
  | attestationNonce (r : Req) (nonce : List Byte)
  | attestationSignatureComplete (selfVerified : Bool)
  | commissioningAct (signatureOk : Bool)
  | partnerBindingAct (signatureOk : Bool)
  | keyRevocationAct (signatureOk : Bool)
  | debugUnlockToken (signatureOk : Bool)
  | otpProgram (slot : Fin 4) (key : List Byte)
  | otpClose
  | extest (intest : Bool)
  | leafReservationRetry (written : Bool)
  | traversalStateRecompute
  | segmentEnd
  | seal
  | nandOperationComplete (place : NandPlace) (outcome : NandOutcome) (otherCopyOk : Bool)
  | nandTimeout (place : NandPlace) (otherCopyOk : Bool)
  | blockRefresh (block : Nat)
  | readCountJournal
  | retentionScan (aged soft : List Nat)
  | wearLevelling
  | firmwareCopyRepair (stage : Fin 8)
  | rotationDue
  | handover
  | rotationStalled
  | goldenFrame (p : Fin 25) (digestOk detected : Bool)
  | meshTransferCrcFail (router : Fin 25) (dir : Fin 4) (allResendsFail : Bool) (lost : Option (Fin 27 × Nat))
  | coreIoTransferCrcFail (link : Fin 8) (allResendsFail : Bool) (lost : Option (Fin 27 × Nat))
  | budgetEpoch
  | droop (u : Fin 30)
  | droopRecovery (u : Fin 30)
  | temperatureRead (core iod : Int)
  | avsVoltageStep (target : Nat)
  | avsReadback (answers : List Bool)
  | railOutOfRange (rail : Fin 6)
  | pllLossOfLock (pll : Fin 32)
  | huskBrownout
  | crystalStable
  | crystalFault
  | powerOn
  | vhuskRemoved
  | wakeN
  | pwrOkRising
  | pwrOkFalling
  | resetNAssert
  | resetNRelease
  | startMoment
  | startupStepComplete (res : StepResult)
  | watchdogReset
  | supplySwitchOn
  | edgeCommandFrameSend
  | edgeCommandFrame (lanes : Lanes) (sq : BitVec 8) (sp : BitVec 16)
  | edgeStatusFrame (lanes : Lanes)
  | edgeCommandTimeout
  | edgeLinkLost
  | switchOffTurn (fell : List (Fin 8))
  | testFrame
  | darkPulse (ch : Fin 12) (fell : List (Fin 8))
  | darkPulseSample (ch : Fin 12) (high : Bool) (terminals : BitVec 16)
  | sqOffReadbackHigh (ch : Fin 8)
  | sqShort0v (ch : Fin 8)
  | sqOpenLoad (ch : Fin 8)
  | crossShortWatchExpiry (ch : Fin 8) (fell : Bool)
  | terminalStateChange (i : Fin 16) (on : Bool)
  | siDiscrepancy (p : Fin 8)
  | spShort (n : Fin 16)
  | spOpenLoad (n : Fin 16)
  | spReverse (n : Fin 16)
  | edgeSupplyMeasure (vedge vsens : Nat) (temp : Int)
  | vedgeOutOfRange
  | vsensRecovery
  | edgeTemperatureResume
  | slotFaultCauseEnd (n : Fin 16) (lane : Bool)
  | canBusRecovered (c : Fin 4)
  | spOpenLoadEnd (n : Fin 16)
  | spReverseEnd (n : Fin 16)
  | sqFaultGone (ch : Fin 8)
  | debugReset
  | twinLanesUp
deriving DecidableEq, Repr

end Sys2Proof
end

