-- ==== Sys2Proof/Decode.lean ====
section
/-! DEFINITION. The commands that words spell. opcode_table.json gives none of its rows a bit, so no word spells a
command. -/

namespace Sys2Proof

/-- The command that a word of `nbits` bits spells by the table's bits: none, since the table gives no row bits. -/
def decodeTableWord (nbits w : Nat) : Option Instr :=
  match nbits, w with
  | _, _ => none

end Sys2Proof
end

