-- ==== Sys2Proof/Config.lean ====
section
/-! DEFINITION. What an implementation fixes and the free values: constants without a body, so that a claim
about them holds for every value. Each is applied to the free-value counter of the state, or to the operands
the manual makes it depend on. -/

namespace Sys2Proof.Config

/-- The increment the servo asks for before it is held within the slew bound; the control law is not in R35
or R41 to R46 (log 3). Arguments: free-value counter. -/
opaque servoIncrement : Nat → Nat

/-- Where within its error bound a Pip library function's result lies (R112 bounds the error and states no bit pattern; log 6): function,
input. -/
opaque libUlp : Nat → BitVec 32 → Nat

/-- The bytes a Pip step of program code makes (R111 does not publish the code, R118 makes them a function of the input bits and the
package; log 6): package digest, step number, input bytes. -/
opaque pipResult : BitVec 256 → Nat → List (BitVec 8) → List (BitVec 8)

/-- SHAKE256 with 256 bits of output: the manual names the function and gives no algorithm of its own
(R180, R503, R507; log 7). -/
opaque shake256 : List (BitVec 8) → BitVec 256

/-- A signature of the attestation secret over a body at a leaf: RFC 8391 is outside the manual (R507; log 7). -/
opaque sign : BitVec 512 → List (BitVec 8) → Nat → List (BitVec 8)

/-- Fraction bits of the intermediate values of conjugate gradients by job words, which R319, R320 leave open (log 8):
0 scaled residual, 1 product with the matrix, 2 step, 3 β, 4 reciprocal diagonal. -/
opaque cgFrac : List (BitVec 64) → Nat → Nat

/-- Soft row repairs the DDR5 components offer, which R170 leaves to them (log 8). -/
opaque rowRepairs : Nat

/-- LUT index of a camera value (R76 states neither the scaling of a raw value to 4,096 entries nor its rounding; log 61):
PIXFMT, numerator, denominator. -/
opaque lutIndex : Nat → Nat → Nat → Nat

/-- LUT index of an output pixel that needs colour interpolation (R76 names luminance and RGB of a Bayer mosaic and of YUV422 and gives
no method; log 61): PIXFMT, BAYER, channel, position and the pixel values around it. -/
opaque colourIndex : List Nat → Nat

/-- Position of a scanner point given by range, azimuth and elevation (R77 states neither axes nor rounding; log 61): in Q15.16. -/
opaque polar : Int → Int → Int → Int × Int × Int

/-- Rounding of a bilinear feature value, a numerator over a denominator, which R227 does not state (log 8). -/
opaque liftRound : Int → Nat → Int

/-- Code of a mean offset within a voxel (R78 gives its width and not its unit or rounding; log 61): sum of the offsets, over which
denominator, voxel edge in mm. -/
opaque voxelOffset : Int → Nat → Nat → Nat

/-- A value the manual leaves open after a command that goes on, by use and free-value counter (log 8). -/
opaque freeValue : Nat → Nat → Nat

end Sys2Proof.Config
end

