-- ==== Sys2Proof/Machine/Bits.lean ====
section
/-! DEFINITION. Bit fields, two's complement, byte order and the CRC-32C: the helpers every other file reads and
writes words with. -/

namespace Sys2Proof.Machine

/-- Bits [hi:lo] of a number (R7). -/
def fld (w hi lo : Nat) : Nat := w / 2 ^ lo % 2 ^ (hi + 1 - lo)

/-- Bits [hi:lo] of a 64-bit word. -/
def wfld (w : Word) (hi lo : Nat) : Nat := fld w.toNat hi lo

/-- One bit of a word. -/
def wbit (w : Word) (i : Nat) : Bool := w.getLsbD i

/-- A bit pattern of `n` bits read as a two's-complement integer (R6). -/
def sgn (n v : Nat) : Int := if 2 ^ (n - 1) ≤ v % 2 ^ n then (v % 2 ^ n : Nat) - (2 ^ n : Nat) else (v % 2 ^ n : Nat)

/-- The `n`-bit pattern of an integer. -/
def pat (n : Nat) (i : Int) : Nat := (i % (2 ^ n : Nat)).toNat

/-- Holds an integer within the `n`-bit two's-complement range. -/
def satS (n : Nat) (i : Int) : Int := max (-(2 ^ (n - 1) : Nat)) (min i ((2 ^ (n - 1) : Nat) - 1))

/-- Holds a number within `n` unsigned bits. -/
def satU (n : Nat) (v : Nat) : Nat := min v (2 ^ n - 1)

/-- Holds an integer between two bounds. -/
def clampI (lo hi i : Int) : Int := max lo (min i hi)

/-- Quotient rounded up. -/
def ceilDiv (a b : Nat) : Nat := (a + (b - 1)) / b

/-- Quotient rounded to nearest, ties to even. -/
def rne (a : Int) (b : Nat) : Int :=
  let q := a / (b : Int)
  let r := (a % (b : Int)).toNat
  if 2 * r < b then q else if b < 2 * r then q + 1 else if q % 2 = 0 then q else q + 1

/-- Integer part of the square root, by `fuel` steps of bisection between `lo` and `hi`. -/
def isqrtGo : Nat → Nat → Nat → Nat → Nat
  | 0, _, lo, _ => lo
  | f + 1, v, lo, hi =>
    let m := (lo + hi + 1) / 2
    if hi ≤ lo then lo else if m * m ≤ v then isqrtGo f v m hi else isqrtGo f v lo (m - 1)

/-- Integer part of the square root of a number below 2^256. -/
def isqrt (v : Nat) : Nat := isqrtGo 130 v 0 (2 ^ 128)

/-- The square root rounded up. -/
def isqrtUp (v : Nat) : Nat := if isqrt v * isqrt v = v then isqrt v else isqrt v + 1

/-- `n` bytes of a number, least significant first. -/
def leBytes : Nat → Nat → List Byte
  | 0, _ => []
  | n + 1, v => BitVec.ofNat 8 v :: leBytes n (v / 256)

/-- `n` bytes of a number, most significant first (R403). -/
def beBytes (n v : Nat) : List Byte := (leBytes n v).reverse

/-- The number of a list of bytes, least significant first. -/
def leNat : List Byte → Nat
  | [] => 0
  | b :: t => b.toNat + 256 * leNat t

/-- The number of a list of bytes, most significant first. -/
def beNat (l : List Byte) : Nat := leNat l.reverse

/-- The words of a list of bytes, little-endian; a last part word is filled with zeros. -/
def leWords : Nat → List Byte → List Word
  | 0, _ => []
  | n + 1, l => BitVec.ofNat 64 (leNat (l.take 8)) :: leWords n (l.drop 8)

/-- The bytes of a list of words, big-endian (R403, R416). -/
def wordsBe (l : List Word) : List Byte := l.flatMap (fun w => beBytes 8 w.toNat)

/-- The bytes of a list of words, little-endian in memory (R122). -/
def wordsLe (l : List Word) : List Byte := l.flatMap (fun w => leBytes 8 w.toNat)

/-- Eight shifts of the reflected CRC-32C register (R418). -/
def crcByteGo : Nat → BitVec 32 → BitVec 32
  | 0, c => c
  | n + 1, c => crcByteGo n (if c.getLsbD 0 then (c >>> 1) ^^^ 0x82F63B78#32 else c >>> 1)

/-- CRC-32C of R418: polynomial 0x1EDC_6F41 reflected, initial value and final XOR 0xFFFF_FFFF. -/
def crc32c (l : List Byte) : BitVec 32 :=
  l.foldl (fun c b => crcByteGo 8 (c ^^^ b.zeroExtend 32)) 0xFFFFFFFF#32 ^^^ 0xFFFFFFFF#32

/-- Bits [hi:lo] of a word set to a value. -/
def setFld (w : Nat) (hi lo v : Nat) : Nat :=
  w - fld w hi lo * 2 ^ lo + v % 2 ^ (hi + 1 - lo) * 2 ^ lo

/-- Packs fields, each a width and a value, most significant first (the order of R8's field maps). -/
def packN : List (Nat × Nat) → Nat
  | [] => 0
  | (n, v) :: t => v % 2 ^ n * 2 ^ (t.map Prod.fst).sum + packN t

/-- A word packed from fields, most significant first. -/
def packW (l : List (Nat × Nat)) : Word := BitVec.ofNat 64 (packN l)

/-- One bit of a number as 0 or 1. -/
def b2n (b : Bool) : Nat := if b then 1 else 0

/-- Bit `i` of a number. -/
def nbit (v i : Nat) : Bool := v / 2 ^ i % 2 = 1

/-- The mask with the bits of a set of numbers. -/
def maskOf (l : List Nat) : Nat := (l.map (fun i => 2 ^ i)).foldl Nat.lor 0

end Sys2Proof.Machine
end

