-- ==== Sys2Proof/Machine/State.lean ====
section
/-! DEFINITION. The state of the block: every register, FIFO, table, counter, mode and pin the manual gives it, as
plain data, with the queue of waiting commands. Each field's docstring reads: width; rule and file; reset value. -/

namespace Sys2Proof.Machine

/-! ## Time base and network time (02_time_base.md) -/

/-- Codes of [4000.01] Time state (R44): 0 to 3 in this order. -/
inductive TimeState where
  | locked | holdover | unlocked | free
deriving DecidableEq, Repr

/-- Codes of [4010.03] Domain state (R41, R56): 0 to 3 in this order. -/
inductive DomState where
  | absent | acquiring | tracking | disabled
deriving DecidableEq, Repr

/-- One offset estimate of a domain: its local tick, the offset in 2^−32 ns, and the counter's steering sum then. -/
structure Estimate where
  tick : Nat
  offset : Int
  adj : Int
deriving DecidableEq, Repr

/-- What a port's Announce carried, its interval (log2 s), and the local tick at which it came (R38). -/
structure Announced where
  identity : Nat
  gm : Word
  clockClass : Nat
  interval : Int
  tick : Nat
deriving DecidableEq, Repr

/-- A two-step Sync that waits for its Follow_Up: port, sequence number, receive time in 2^−32 ns, and the local tick
and steering sum then. -/
structure SyncWaiting where
  port : Nat
  seq : BitVec 16
  stamp : Int
  tick : Nat
  adj : Int
deriving DecidableEq, Repr

/-- One time domain (R41, R56). -/
structure Domain where
  /-- 2 bits; R41, R56 (02_time_base.md); 0 ABSENT -/
  state : DomState
  /-- port number or none; [4010.04] R56 (02_time_base.md); none (0xFF) -/
  port : Option Nat
  /-- last 8 estimates, newest first; R41 (02_time_base.md); none -/
  ests : List Estimate
  /-- 64-bit offset in ns, [4010.05] saturates it; R36, R56 (02_time_base.md); 0 -/
  offset : Int
  /-- 32 bits, ppb; [4010.06] R56 (02_time_base.md); 0 -/
  rate : Int
  /-- 64 bits; [4010.07] R56 (02_time_base.md); 0 -/
  gm : Word
  /-- 8 bits; clockClass last announced, R49 (02_time_base.md); DESIGN CHOICE 248 (log 2) -/
  clockClass : Nat
  /-- 1 bit, the present grandmaster has announced clockClass 6; R49 (02_time_base.md); 0 -/
  six : Bool
  /-- 32 bits, log2 s; [4010.09] R56 (02_time_base.md); 0 -/
  syncInterval : Int
  /-- Announce of HOST0; R38 (02_time_base.md); none -/
  ann0 : Option Announced
  /-- Announce of HOST1; R38 (02_time_base.md); none -/
  ann1 : Option Announced
  /-- Sync waiting for its Follow_Up; R38, R41 (02_time_base.md); none -/
  waiting : Option SyncWaiting
  /-- 64 bits, local tick of the last valid message; R41 (02_time_base.md); 0 -/
  lastRx : Nat
  /-- local tick since which the domain tracks; R42 rule 3 (02_time_base.md); none -/
  trackingSince : Option Nat
deriving DecidableEq, Repr

def Domain.reset : Domain :=
  { state := .absent, port := none, ests := [], offset := 0, rate := 0, gm := 0, clockClass := 248, six := false, syncInterval := 0,
    ann0 := none, ann1 := none, waiting := none, lastRx := 0, trackingSince := none }

/-- Peer delay of one port (R38, R39). -/
structure PortDelay where
  /-- consecutive intervals without completion; R39 (02_time_base.md); 0 -/
  fails : Nat
  /-- 1 bit, asCapable; R39 (02_time_base.md); DESIGN CHOICE 1 (log 2) -/
  capable : Bool
  /-- mean link delay in 2^−32 ns; [4010.08] R56 (02_time_base.md); 0 -/
  delay : Int
  /-- 16 bits, sequence of the last Pdelay_Req; R38 (02_time_base.md); 0 -/
  seq : BitVec 16
  /-- transmit time of the open request; R38 (02_time_base.md); none -/
  sent : Option Int
  /-- receive time of the response; R38 (02_time_base.md); none -/
  got : Option Int
  /-- partner's receive time of the request; R38 (02_time_base.md); none -/
  t2 : Option Int
deriving DecidableEq, Repr

def PortDelay.reset : PortDelay :=
  { fails := 0, capable := true, delay := 0, seq := 0, sent := none, got := none, t2 := none }

/-- One TRIG pin (R54, R55). -/
structure Trig where
  /-- 1 bit, pin level; R54, R461 (02_time_base.md); low -/
  high : Bool
  /-- scheduled rising edge in ps of the time counter; R54 (02_time_base.md); none -/
  edge : Option Int
  /-- cycle of the scheduled or last pulse; R54, R55 (02_time_base.md); 0 -/
  cycle : Nat
  /-- 96 bits each, stamps of the driven rising edges, newest first, the last 8; R54, R34 (02_time_base.md); none -/
  stamps : List (BitVec 96)
  /-- 96 bits, stamp of the last driven falling edge; R50, R54 (02_time_base.md); none -/
  fall : Option (BitVec 96)
deriving DecidableEq, Repr

def Trig.reset : Trig := { high := false, edge := none, cycle := 0, stamps := [], fall := none }

/-- The time unit. -/
structure TimeUnit where
  /-- 96 bits: 64-bit ns and 32-bit fraction; R31 (02_time_base.md); 0 (R467 step 2) -/
  counter : BitVec 96
  /-- 34 bits, INC of [4000.03]; R32 (02_time_base.md); 0x2_8000_0000 -/
  inc : BitVec 34
  /-- 64 bits, local tick count; R33 (02_time_base.md); 0 -/
  ticks : BitVec 64
  /-- 1 bit, EPOCH of later stamps; R34, R36 (02_time_base.md); 0 -/
  epoch : Bool
  /-- Δ of the first-lock step in 2^−32 ns, either sign; R36, R37 (02_time_base.md); 0 -/
  delta : Int
  /-- 2 bits, [4000.01]; R44 (02_time_base.md); 3 FREE -/
  state : TimeState
  /-- selected domain, [4000.05]; R42 (02_time_base.md); none (0xFF) -/
  selected : Option Dom
  /-- last selected domain; R49 (02_time_base.md); none -/
  lastSelected : Option Dom
  /-- increments of the last 16 servo updates, newest first; R47 (02_time_base.md); none -/
  incs : List Nat
  /-- consecutive updates whose rate-matching increment is out of bound; R46 (02_time_base.md); 0 -/
  satRun : Nat
  /-- 32 bits, ns, [4000.0C]; R47 (02_time_base.md); 0 -/
  uncertainty : Nat
  /-- 8 bits, clockClass to announce in HOLDOVER, settled when the selection ended; R49 (02_time_base.md); DESIGN CHOICE 248 (log 2) -/
  heldClass : Nat
  /-- 1 bit, 0x0105 raised since the selection ended; R47 (02_time_base.md); 0 -/
  exceeded : Bool
  /-- local tick at entry to HOLDOVER; R47 (02_time_base.md); 0 -/
  holdTick : Nat
  /-- uncertainty at entry to HOLDOVER, ns; R47 (02_time_base.md); 0 -/
  holdBase : Nat
  /-- domain A; R41 (02_time_base.md); Domain.reset -/
  domA : Domain
  /-- domain B; R41 (02_time_base.md); Domain.reset -/
  domB : Domain
  /-- peer delay of HOST0, HOST1, SEN0–SEN3 as ports 0–5; R38, R39 (02_time_base.md); PortDelay.reset -/
  delays : Store PortDelay
  /-- TRIG0–TRIG15; R54 (02_time_base.md); Trig.reset -/
  trigs : Store Trig
  /-- 16 bits, sequence of Sync per sensor port; R49 (02_time_base.md); 0 -/
  senSeq : Store Nat
  /-- local tick of the last Sync of a sensor port; R49 (02_time_base.md); 0 -/
  senTick : Store Nat
deriving DecidableEq, Repr

def TimeUnit.reset : TimeUnit :=
  { counter := 0, inc := 0x280000000, ticks := 0, epoch := false, delta := 0, state := .free, selected := none,
    lastSelected := none, incs := [], satRun := 0, uncertainty := 0, heldClass := 248, exceeded := false, holdTick := 0, holdBase := 0,
    domA := .reset, domB := .reset, delays := [], trigs := [], senSeq := [], senTick := [] }

/-! ## Dictionary, events, fault log (00_scope.md, 14_faults_and_diagnostics.md, 16_dictionary_reference.md) -/

/-- One fault-log entry (R391). -/
structure LogEntry where
  time : Nat
  cycle : Nat
  cause : Nat
  inst : Nat
  detail : Nat
  seq : Nat
  repeats : Nat
  effect : Nat
  tstate : TimeState
deriving DecidableEq, Repr

/-- The fault log (R391, R392). -/
structure FaultLog where
  /-- ring of 256 entries of 32 bytes, newest first; R391 (14_faults_and_diagnostics.md); empty -/
  entries : List LogEntry
  /-- 32 bits, SEQ of the newest entry, [B100.01]; R391, R393 (14_faults_and_diagnostics.md); 0 -/
  seq : Nat
  /-- 32 bits, [B100.04]; R392 (14_faults_and_diagnostics.md); 0 -/
  overwritten : Nat
deriving DecidableEq, Repr

/-- One event object (R11, R13, R219). -/
structure Ev where
  pending : Bool
  count : Nat
deriving DecidableEq, Repr

def Ev.reset : Ev := { pending := false, count := 0 }

/-- The object dictionary's stored part. -/
structure Dict where
  /-- written values by 256 * index + subindex, default where unlisted; R12, R429 (16_dictionary_reference.md); defaults -/
  vals : Store (List Nat)
  /-- event objects by the same number; R11, R219 (08_scheduling_and_sync.md); pending 0, count 0 -/
  evs : Store Ev
  /-- RO counters that no block holds, by the same number, 64 bits; R431 (16_dictionary_reference.md); 0 -/
  counters : Store Nat
deriving DecidableEq, Repr

/-- A thing that leaves the device: its kind, the unit it leaves by, its fields. -/
inductive OutKind where
  | ptpSync | ptpFollowUp | ptpAnnounce | pdelayReq | pdelayResp | pdelayRespFollowUp | spiCommand | response | eventFrame | statusPdu
  | fragment | arpReply | ndReply | echoReply | twinFrame | edgeCommand | edgeStatus | readStatus | spiReply
  | syncResult | recorderRecord | avsWrite | journal | busWrite | stopForce
deriving DecidableEq, Repr

/-- One output, newest first in the outbox (the model's own field, log 5). -/
structure Output where
  kind : OutKind
  unit : Nat
  /-- TCI of a host frame's 802.1Q tag (R399), 0 without one -/
  tag : Nat
  data : List Nat
deriving DecidableEq, Repr

/-! ## Cycles (01_architecture.md, 02_time_base.md, 08_scheduling_and_sync.md) -/

/-- What the device keeps of a cycle between its instant and its commit or discard. -/
structure CycleCtx where
  /-- 48 bits; R9 -/
  number : Nat
  /-- instant, ns of the time counter -/
  tv : Int
  /-- local tick of the instant (R33, R202) -/
  tick : Nat
  /-- the acceptance window has closed (R81) -/
  closed : Bool
  /-- intake-complete was signalled (R75) -/
  intakeDone : Bool
  /-- its intake completion deadline has passed (R75) -/
  intakeEnded : Bool
  /-- masked slots at window close (R60) -/
  masked : BitVec 16
  /-- time state at the instant (R45) -/
  tstate : TimeState
  /-- the cycle's time scale is the one before the first-lock step (R37) -/
  epoch : Bool
  /-- RANGE_EXCURSION with ACTION 1 (R193) -/
  excursion : Bool
  /-- saturations of each operation in the cycle by 65,536 * logical Pod + OP (R193) -/
  sats : Store Nat
  /-- the written object values at the instant: a write takes effect from the first instant after its response (R405) -/
  vals : Store (List Nat)
deriving DecidableEq, Repr

/-- The cycle counter and the cycles in flight. -/
structure Cycles where
  /-- 48 bits, [5000.05]; R9, R220 (00_scope.md); 0 -/
  number : BitVec 48
  /-- instant of the last cycle, ns; R9 (00_scope.md); 0 -/
  tv : Int
  /-- next instant, ns; R37, R446 (02_time_base.md); none -/
  next : Option Int
  /-- number of the first cycle of this RUN; R446, R81 (03_sensor_intake.md); 0 -/
  first : Nat
  /-- the stretched cycle of the first-lock step: its number, and what it lasts beyond P, ns; R37 (02_time_base.md); none -/
  stretch : Option (Nat × Int)
  /-- cycles between instant and decision, oldest first, at most 2 (R25); R25 (01_architecture.md); none -/
  flight : List CycleCtx
deriving DecidableEq, Repr

/-! ## Sensor intake (03_sensor_intake.md) -/

/-- Codes of [3000.05] (R59): 0 to 4 in this order. -/
inductive SlotState where
  | disabled | waitLink | syncing | active | fault
deriving DecidableEq, Repr

/-- One FIFO word (R68): 64 data bits and one even parity bit a byte. -/
structure FifoWord where
  data : Word
  parity : Byte
deriving DecidableEq, Repr

/-- One FIFO item (R68, R69): the length word, two words of stamp, the payload. `sample` and `tag` are the model's numbers of the
sample it belongs to and of the item itself, by which what is lost of it is found again. -/
structure Item where
  words : List FifoWord
  sample : Nat
  tag : Nat
deriving DecidableEq, Repr

/-- A point of a scanner packet (R77): x, y, z in Q15.16 (m), intensity, its time in ns; `id` is 65,536 times its item's tag plus
its place in the packet. -/
structure ScanPoint where
  id : Nat
  x : Int
  y : Int
  z : Int
  intensity : Nat
  time : Int
deriving DecidableEq, Repr

/-- The ping-pong FIFO of a slot (R68 to R73). -/
structure Fifo where
  /-- bank 0, 64 KiB, items unread; R68 (03_sensor_intake.md); empty -/
  bank0 : List Item
  /-- bank 1; R68 (03_sensor_intake.md); empty -/
  bank1 : List Item
  /-- bytes written in the writer's bank; R70 (03_sensor_intake.md); 0 -/
  used : Nat
  /-- writer's bank; R70 (03_sensor_intake.md); 0 -/
  wBank : Bool
  /-- reader's bank; R70 (03_sensor_intake.md); 0 -/
  rBank : Bool
  /-- 1 bit, the bank the writer is not in is released; R70 (03_sensor_intake.md); 1 -/
  otherFree : Bool
  /-- 17 bits each, write pointer and its inverted copy; R72 (03_sensor_intake.md); 0 and its inverse -/
  wPtr : BitVec 17
  wInv : BitVec 17
  /-- 17 bits each, read pointer and its inverted copy; R72 (03_sensor_intake.md); 0 and its inverse -/
  rPtr : BitVec 17
  rInv : BitVec 17
  /-- 1 bit, a read context is stalled on the empty FIFO; R73 (03_sensor_intake.md); 0 -/
  stalled : Bool
  /-- 1 bit, a stalled read ended with status RESET; R73 (03_sensor_intake.md); 0 -/
  resetRead : Bool
deriving DecidableEq, Repr

def Fifo.reset : Fifo :=
  { bank0 := [], bank1 := [], used := 0, wBank := false, rBank := false, otherFree := true, wPtr := 0,
    wInv := BitVec.allOnes 17, rPtr := 0, rInv := BitVec.allOnes 17, stalled := false, resetRead := false }

/-- A camera frame in arrival (R62). -/
structure Frame where
  stamp : BitVec 96
  /-- stamp of the TRIG edge that exposed it, for a triggered slot (R51) -/
  edge : Option (BitVec 96)
  /-- line-valid mask so far -/
  valid : List Bool
  /-- clocks of its conversion already spent (R83) -/
  paid : Nat
deriving DecidableEq, Repr

/-- A line the engine has read from the FIFO: the sample, the line and its bytes. -/
structure LineRead where
  sample : Nat
  line : Nat
  data : List Byte
deriving DecidableEq, Repr

/-- A classified sample (R80, R81). -/
structure Sample where
  camera : Bool
  tv : Int
  told : Int
  ref : Int
  target : Int
  openC : Int
  lateness : Int
  lines : List Bool
  points : List ScanPoint
  poison : Nat
  tstate : Nat
  /-- its times lie on the scale after the first-lock step (R37) -/
  epoch : Bool
  /-- the model's number of the sample in its slot -/
  seq : Nat
  /-- clocks of its conversion still to be spent (R74) -/
  left : Nat
deriving DecidableEq, Repr

/-- A voxel (R78): point count, mean offset by axis, largest intensity. -/
structure Voxel where
  count : Nat
  off : List Nat
  intensity : Nat
deriving DecidableEq, Repr

/-- A point after motion compensation (R78), exact: numerators in 2^−16 m over one denominator. -/
structure CompPoint where
  x : Int
  y : Int
  z : Int
  den : Nat
  intensity : Nat
deriving DecidableEq, Repr

/-- The tensor the intake engine made of a sample (R76 to R78, R124): its times, validity and points. -/
structure IntakeTensor where
  cycle : Nat
  tv : Int
  told : Int
  tstate : Nat
  lateness : Nat
  masked : Bool
  noMotion : Bool
  poison : Nat
  lines : List Bool
  points : List CompPoint
  /-- points that lay outside the voxel extent -/
  outside : Nat
deriving DecidableEq, Repr

/-- What the slots have delivered to one cycle (R374, R248). -/
structure Deliv where
  samples : Nat
  slots : List Nat
  /-- the slot of every late sample -/
  lates : List Nat
  poison : Nat
  /-- 0x020E was raised (R75) -/
  late : Bool
deriving DecidableEq, Repr

def Deliv.reset : Deliv := { samples := 0, slots := [], lates := [], poison := 0, late := false }

/-- One stream slot. -/
structure Slot where
  /-- 3 bits, [3000.05]; R59 (03_sensor_intake.md); 0 DISABLED -/
  state : SlotState
  /-- causes of FAULT that stand; R59, R548 (03_sensor_intake.md); none -/
  causes : List Nat
  /-- local tick since which every cause is absent; R548 (03_sensor_intake.md); none -/
  absentSince : Option Nat
  /-- instants since the last complete sample; R59 (03_sensor_intake.md); 0 -/
  silent : Nat
  /-- 3 × 32 bits, [3000.36]; R81 (03_sensor_intake.md); 0 -/
  late : List Nat
  /-- cycle of the last 0x020F; R81 (03_sensor_intake.md); none -/
  beyond : Option Nat
  /-- frame in arrival; R62 (03_sensor_intake.md); none -/
  frame : Option Frame
  /-- FIFO; R68 (03_sensor_intake.md); empty -/
  fifo : Fifo
  /-- classified samples waiting for or in conversion, oldest first; R75, R83 (03_sensor_intake.md); none -/
  samples : List Sample
  /-- lines read and not yet converted; R71, R76 (03_sensor_intake.md); none -/
  reads : List LineRead
  /-- number of the sample in arrival, and of the next item (the model's own count); DESIGN CHOICE 0 (log 60) -/
  seq : Nat
  tag : Nat
  /-- 1 bit, an item of the sample in arrival was discarded; R70 (03_sensor_intake.md); 0 -/
  overflow : Bool
  /-- poisoned points and lines of the sample in arrival; R71 (03_sensor_intake.md); 0 -/
  lost : Nat
  /-- azimuth of the last scanner point, units of 2^−16 turn; R77 (03_sensor_intake.md); none -/
  azimuth : Option Nat
  /-- points outside the voxel extent, discarded and counted; R78 (03_sensor_intake.md); 0 -/
  outside : Nat
  /-- scanner points of the sample in arrival; R77 (03_sensor_intake.md); none -/
  points : List ScanPoint
  /-- scanner packets of the sample in arrival; R77 (03_sensor_intake.md); 0 -/
  packets : Nat
  /-- packets discarded and counted; R61, R77 (03_sensor_intake.md); 0 -/
  discarded : Nat
  /-- last tensor converted; R76 to R78 (03_sensor_intake.md); none -/
  tensor : Option IntakeTensor
deriving DecidableEq, Repr

def Slot.reset : Slot :=
  { state := .disabled, causes := [], absentSince := none, silent := 0, late := [0, 0, 0], beyond := none, frame := none,
    fifo := .reset, samples := [], reads := [], seq := 0, tag := 0, overflow := false, lost := 0, azimuth := none, outside := 0, points := [], packets := 0, discarded := 0,
    tensor := none }

/-- One kinematic sample (R65, R66): values in Q15.16 by field, none where the field is unused. -/
structure KinSample where
  tv : Int
  stamp : BitVec 96
  values : List (Option Int)
  tick : Nat
  phaseError : Bool
  lateness : Int
deriving DecidableEq, Repr

/-- One kinematic channel. -/
structure Kin where
  /-- last 256 samples, newest first; R67 (03_sensor_intake.md); none -/
  ring : List KinSample
  /-- kinematic tensor of each cycle, at most 128 samples; R67 (03_sensor_intake.md); none -/
  tensors : Store (List KinSample)
  /-- 3 × 32 bits, [3100.36]; R81 (03_sensor_intake.md); 0 -/
  late : List Nat
  /-- cycle of the last 0x020F; R81 (03_sensor_intake.md); none -/
  beyond : Option Nat
  /-- chip-select stamp of the open SPI transaction; R50, R65 (03_sensor_intake.md); none -/
  select : Option (BitVec 96)
  /-- local tick of the last poll; R65 (03_sensor_intake.md); none -/
  polled : Option Nat
deriving DecidableEq, Repr

def Kin.reset : Kin := { ring := [], tensors := [], late := [0, 0, 0], beyond := none, select := none, polled := none }

/-- The intake engine and the sensor ports. -/
structure Intake where
  /-- slots; R58 (03_sensor_intake.md); Slot.reset -/
  slots : Store Slot
  /-- kinematic channels; R65 (03_sensor_intake.md); Kin.reset -/
  kins : Store Kin
  /-- CAN FD controllers in error-passive or bus-off; R65 (03_sensor_intake.md); none -/
  canBad : List Nat
  /-- 32-bit signed counts of encoders 0–7; R65 (03_sensor_intake.md); 0 -/
  encoders : Store Int
  /-- ports with link up, CSIn as n, SENn as 16 + n; R59 (03_sensor_intake.md); none -/
  linkUp : List Nat
  /-- ports whose PHY failed configuration; R59, R475 (03_sensor_intake.md); none -/
  cfgFailed : List Nat
  /-- local tick of the last configuration attempt of a failed port; R59 (03_sensor_intake.md); 0 -/
  cfgTick : Store Nat
  /-- time-slice entry being served; R74 (03_sensor_intake.md); 0 -/
  entry : Nat
  /-- 1 bit, engine clock-gated in an idle entry; R74 (03_sensor_intake.md); 0 -/
  gated : Bool
  /-- frames dropped at the MAC and packets of other types; R61, R63 (03_sensor_intake.md); 0 -/
  dropped : Nat
  /-- deliveries by cycle number; R75, R374 (03_sensor_intake.md); none -/
  deliv : Store Deliv
deriving DecidableEq, Repr

/-! ## Pods (04_pods_and_arithmetic.md, 08_scheduling_and_sync.md, 14_faults_and_diagnostics.md) -/

/-- Codes of [2020] Pod state (R115): 0 to 5 in this order. -/
inductive PodState where
  | off | collapsed | gated | active | resting | out
deriving DecidableEq, Repr

/-- One circular-buffer window (R154). -/
structure Window where
  base : Nat
  size : Nat
  en : Bool
  head : Nat
  stp : Nat
deriving DecidableEq, Repr

def Window.reset : Window := { base := 0, size := 0, en := false, head := 0, stp := 0 }

/-- The schedule entry that work runs for (R201, R202): its table and place, and whether its wait was met with the object's error bit
set, with that object's cause. -/
structure Ticket where
  table : Nat
  entry : Nat
  bad : Bool
  cause : Nat
deriving DecidableEq, Repr

/-- One accumulator entry (R89, R103): its pattern of 48 bits, or of FP32, and its 3-bit residue. -/
structure AccEntry where
  value : Nat
  residue : Nat
deriving DecidableEq, Repr

def AccEntry.reset : AccEntry := { value := 0, residue := 0 }

/-- A running engine operation. -/
structure RunOp where
  desc : OpDesc
  ticket : Ticket
deriving DecidableEq, Repr

/-- A running Pip step, with the local tick at which it started (R113). -/
structure RunStep where
  step : PipStep
  ticket : Ticket
  tick : Nat
deriving DecidableEq, Repr

/-- One physical Pod. -/
structure Pod where
  /-- 3 bits, [2020]; R115 (04_pods_and_arithmetic.md); 0 OFF -/
  state : PodState
  /-- logical number; R20 (01_architecture.md); none -/
  logical : Option Nat
  /-- cycles of its faults of R109, newest first; R109 (04_pods_and_arithmetic.md); none -/
  faults : List Nat
  /-- engine; R91 (04_pods_and_arithmetic.md); idle -/
  engine : Option RunOp
  /-- the two accumulator buffers, by 2^18 times the buffer, 512 times the row and the column; R86, R89 (04_pods_and_arithmetic.md); 0 -/
  acc : Store AccEntry
  /-- Pip cores 0–3; R111 (04_pods_and_arithmetic.md); idle -/
  cores : Store (Option RunStep)
  /-- windows 0–63; R154 (06_memory.md); disabled -/
  windows : Store Window
  /-- 1 bit, Pod PLL runs; R206, R451 (08_scheduling_and_sync.md); 0 -/
  pll : Bool
  /-- 1 bit, a gate or collapse request waits for the operation's end; R116 (04_pods_and_arithmetic.md); 0 -/
  gateWaits : Bool
  /-- 1 bit, it was gated in this epoch of the current budget; R116 (04_pods_and_arithmetic.md); 0 -/
  gatedNow : Bool
  /-- 1 bit, a wake request is open; R206 (08_scheduling_and_sync.md); 0 -/
  waking : Bool
  /-- golden frames done of the set of 2,048; R382 (14_faults_and_diagnostics.md); 0 -/
  golden : Nat
  /-- local tick of its last complete golden set; R384 (14_faults_and_diagnostics.md); 0 -/
  goldenTick : Nat
deriving DecidableEq, Repr

def Pod.reset : Pod :=
  { state := .off, logical := none, faults := [], engine := none, acc := [], cores := [], windows := [], pll := false,
    gateWaits := false, gatedNow := false, waking := false, golden := 0, goldenTick := 0 }

/-- Pods and rotation. -/
structure Pods where
  /-- physical Pods 0–24; R86, R87 (04_pods_and_arithmetic.md); Pod.reset -/
  pods : Store Pod
  /-- local tick at which the rotation fell due; R380, R384 (14_faults_and_diagnostics.md); none -/
  due : Option Nat
  /-- local tick of the last rotation time; R380 (14_faults_and_diagnostics.md); 0 -/
  lastDue : Nat
  /-- 1 bit, 0x030E raised for the rotation that is due; R384 (14_faults_and_diagnostics.md); 0 -/
  stalled : Bool
  /-- time of the last handover, [B210.03]; R393 (14_faults_and_diagnostics.md); 0 -/
  lastRotation : Nat
  /-- logical Pods without a host; R386 (14_faults_and_diagnostics.md); none -/
  lost : List Nat
  /-- logical number the resting Pod takes at the next instant; R385 (14_faults_and_diagnostics.md); none -/
  replace : Option Nat
  /-- mesh links disabled, 4 * router + direction; R387 (14_faults_and_diagnostics.md); none -/
  meshDown : List Nat
  /-- core–I/O links removed; R387, R475 (14_faults_and_diagnostics.md); none -/
  coreDown : List Nat
  /-- resends of each link within 1 ms: (link, ticks), mesh 0–99, core–I/O 100–107; R387 (14_faults_and_diagnostics.md); none -/
  resends : Store (List Nat)
deriving DecidableEq, Repr

/-! ## Mover and memory (05_tensors_and_mover.md, 06_memory.md) -/

/-- A descriptor of a fence group after acceptance: its words, its cause (0 accepted), its template check. -/
structure Accepted where
  words : List Word
  cause : Nat
  /-- the Pip core that issued it (R131) -/
  core : Option Nat
  /-- the partition it was checked against (R195, R216) -/
  part : Nat
  /-- DDR5 bursts whose write failed every retry (R166) -/
  bursts : List Nat
  /-- cause of a lost transfer of its data (R387), 0 none -/
  lost : Nat
  /-- its traffic on the mesh while its group is the mover's oldest: the router it waits at, the routers still ahead, and the local tick since
  which it waits (R22, R210) -/
  at_ : Nat
  ahead : List Nat
  since : Nat
deriving DecidableEq, Repr

/-- A closed fence group: its descriptors, and the schedule entry whose work it is. -/
structure FenceGroup where
  descs : List Accepted
  ticket : Option Ticket
deriving DecidableEq, Repr

/-- One mover: the open group, the schedule entry that opened it, and the groups that wait for their end, oldest first (R127, R139). -/
structure Mover where
  opened : List Accepted
  ticket : Option Ticket
  groups : List FenceGroup
deriving DecidableEq, Repr

def Mover.reset : Mover := { opened := [], ticket := none, groups := [] }

/-- The memories (R121, R146). A byte's key is its device address with the physical Pod in place of the logical
one (log 9). -/
structure Memory where
  /-- 8 bits a cell, 48-bit keys; R146 (06_memory.md); every byte 0 (cleared, R162, R167) -/
  bytes : List Host.Cell
  /-- 64-bit words that read as poison, by key div 8; R148, R149 (06_memory.md); none -/
  poisoned : List Nat
  /-- corrected words whose write-back waits; R148 (06_memory.md); none -/
  backs : List Nat
  /-- 64 bits each, [2031]: Pods 0–24, 25 Hoard, 26 I/O die, 27–32 DDR5 channels; R148, R165 (06_memory.md); 0 -/
  corrected : Store Nat
  /-- spares used of each bank, by bank number; R160 (06_memory.md); 0 -/
  spares : Store Nat
  /-- regions moved to a spare, bank number * 4096 + region; R160 (06_memory.md); none -/
  spared : List Nat
  /-- regions marked faulty; R160 (06_memory.md); none -/
  faulty : List Nat
  /-- regions under test, whose bytes are those of their save buffers; R158, R159 (06_memory.md); none -/
  testing : List Nat
  /-- corrected reads of each region since its last test; R161 (06_memory.md); 0 -/
  hits : Store Nat
  /-- 64 bits, [2033.02]; R172 (06_memory.md); 0 -/
  tested : Nat
deriving DecidableEq, Repr

/-- DDR5 (R163 to R171). -/
structure Ddr where
  /-- 1 bit, the components have 16 Gb and not 8 Gb; R163 (06_memory.md); DESIGN CHOICE 1 (log 2) -/
  gb16 : Bool
  /-- data rate of the stored training result, MT/s; R167 (06_memory.md); none -/
  stored : Option Nat
  /-- 1 bit, [2030.03]; R168 (06_memory.md); 0 -/
  doubled : Bool
  /-- 2 bits, [2030.04]; R167 (06_memory.md); 0 -/
  training : Nat
  /-- 16 bits, MT/s in force; R172 (06_memory.md); 6400 -/
  rate : Nat
  /-- next patrol address; R169 (06_memory.md); 0 -/
  patrol : Nat
  /-- local tick at which the pass began; R169 (06_memory.md); 0 -/
  passStart : Nat
  /-- 32 bits, s, [2030.06]; R172 (06_memory.md); 0 -/
  lastPass : Nat
  /-- 1 bit, 0x050B raised for this pass; R169 (06_memory.md); 0 -/
  late : Bool
  /-- rows that delivered an uncorrectable error, as `ddrRow` numbers them; R170 (06_memory.md); none -/
  badRows : List Nat
  /-- rows corrected by the patrol: 3 in this pass only, 1 in one earlier pass, 2 in two passes; R170 (06_memory.md); 0 -/
  weakRows : Store Nat
  /-- 16 bits, [2033.03]; R172 (06_memory.md); 0 -/
  repaired : Nat
  /-- soft repairs made in the five components of each subchannel, by 2 times the channel plus the subchannel; R170 (06_memory.md); 0 -/
  repairs : Store Nat
  /-- 1 bit, a component is above its maximum; R168, R389 (06_memory.md); 0 -/
  hot : Bool
  /-- local tick since which every component is below its maximum; R389 (14_faults_and_diagnostics.md); none -/
  coolSince : Option Nat
  /-- 1 bit, self-refresh; R171 (06_memory.md); 0 -/
  selfRefresh : Bool
  /-- interval-oscillator corrections in force, one a byte lane; R167 (06_memory.md); none -/
  lanes : List Int
  /-- local ticks of the last oscillator read, ZQ calibration and temperature read; R167, R168 (06_memory.md); 0 -/
  oscTick : Nat
  zqTick : Nat
  tempTick : Nat
deriving DecidableEq, Repr

/-! ## Programs (07_griquewa_contract.md) -/

/-- Codes of [C000.02] Slot state (R185): 0 to 6 in this order. -/
inductive PkgState where
  | empty | loading | verified | trial | active | fallback | refused
deriving DecidableEq, Repr

/-- One NAND package slot. -/
structure PkgSlot where
  state : PkgState
  /-- the bytes of the package as they were transferred (R179) -/
  image : List Byte
  /-- what its sections of unpublished layout hold -/
  content : Option PkgContent
  cause : Nat
deriving DecidableEq, Repr

def PkgSlot.reset : PkgSlot := { state := .empty, image := [], content := none, cause := 0 }

/-- The header of a package (R180). -/
structure PkgHeader where
  magic : Nat
  format : Nat
  hdrLen : Nat
  contractMajor : Nat
  contractMinor : Nat
  minStep : Nat
  target : Nat
  keySlot : Nat
  secVersion : Nat
  /-- number of sections -/
  sections : Nat
  bodyLen : Nat
  periodMin : Nat
  periodMax : Nat
  buildId : Word
  digest : BitVec 256
  partitions : Nat
  /-- W10[55:0] and W11 to W31 are 0 -/
  reservedZero : Bool
deriving DecidableEq, Repr

/-- An entry of the section table (R181). -/
structure PkgSection where
  type : Nat
  part : Nat
  dest : Nat
  offset : Nat
  length : Nat
  reservedZero : Bool
deriving DecidableEq, Repr

/-- An entry of a window table (R154), with its logical Pod and number. -/
structure WinEntry where
  pod : Nat
  win : Nat
  base : Nat
  size : Nat
  en : Bool
  stp : Nat
  reservedZero : Bool
deriving DecidableEq, Repr

/-- A range record (R191), with the logical Pod of its operation. -/
structure RangeRec where
  pod : Nat
  op : Nat
  satLimit : Nat
  kind : Nat
  action : Nat
  cls : Nat
  lo : Nat
  hi : Nat
  reservedZero : Bool
deriving DecidableEq, Repr

/-- A package as the device reads it (R179 to R182). -/
structure Package extends PkgContent, PkgHeader where
  /-- bytes in the slot -/
  total : Nat
  sectionTable : List PkgSection
  windows : List WinEntry
  ranges : List RangeRec
  /-- section bytes by destination device address -/
  loads : List (Nat × List Byte)
deriving DecidableEq, Repr

/-- Package handling. -/
structure Programs where
  /-- slot 0 and slot 1; R185 (07_griquewa_contract.md); EMPTY -/
  slots : Store PkgSlot
  /-- [C000.01]; R186, R198 (07_griquewa_contract.md); none (0xFF) -/
  active : Option Nat
  /-- the package in force; R187 (07_griquewa_contract.md); none -/
  prog : Option Package
  /-- selection record: ACTIVE, TRIAL, FALLBACK; R187, R189 (07_griquewa_contract.md); none -/
  selActive : Option Nat
  selTrial : Option Nat
  selFallback : Option Nat
  /-- BODY_DIGEST of the last package activated; R188 (07_griquewa_contract.md); none -/
  lastDigest : Option (BitVec 256)
  /-- slot under activation; R186 (07_griquewa_contract.md); none -/
  activating : Option Nat
  /-- slot of the load in progress or chosen by [C010.01]; R186 (07_griquewa_contract.md); none -/
  loadSlot : Option Nat
  /-- 1 bit, the TRIAL slot has committed a cycle; R186 (07_griquewa_contract.md); 0 -/
  committed : Bool
deriving DecidableEq, Repr

/-! ## Scheduling, sync objects, self-test (08_scheduling_and_sync.md) -/

/-- The pass of one table (R203): cycle, entries started, done, skipped and reported late (R205). -/
structure Pass where
  cycle : Nat
  tick : Nat
  started : List Nat
  done : List Nat
  skipped : List Nat
  late : List Nat
  ended : Bool
deriving DecidableEq, Repr

def Pass.reset : Pass := { cycle := 0, tick := 0, started := [], done := [], skipped := [], late := [], ended := true }

/-- A waiting idle item (R208, R209). -/
structure IdleItem where
  table : Nat
  entry : Nat
  ready : Nat
  promoted : Bool
deriving DecidableEq, Repr

/-- The scheduler. -/
structure Sched where
  /-- schedule tables in the sequencer stores: entries of four 64-bit words, by table number; R200, R201 (08_scheduling_and_sync.md); empty -/
  tables : Store (List (List Word))
  /-- pass of each table; R203 (08_scheduling_and_sync.md); ended -/
  passes : Store Pass
  /-- idle list; R208 (08_scheduling_and_sync.md); empty -/
  idle : List IdleItem
  /-- idle items that have started: table, entry, and whether it was promoted; R208 (08_scheduling_and_sync.md); empty -/
  claims : List (Nat × Nat × Bool)
deriving DecidableEq, Repr

/-- A waiter of the Sync fabric (R214): issuer, threshold, local tick of its timeout. -/
structure Waiter where
  who : Nat
  obj : Nat
  threshold : Nat
  due : Option Nat
deriving DecidableEq, Repr

/-- The Sync fabric. -/
structure SyncFabric where
  /-- 16,384 objects of 64 bits; R213 (08_scheduling_and_sync.md); 0 -/
  objs : Store Word
  /-- waiters in order of issue; R214 (08_scheduling_and_sync.md); none -/
  waiters : List Waiter
deriving DecidableEq, Repr

/-- One self-test kind (R211, R212). -/
structure Coverage where
  /-- next chunk position of a kind and unit (32 * kind + unit); R211 (08_scheduling_and_sync.md); 0 -/
  pos : Nat
  /-- local tick at which the oldest position of the pass was tested; R212 (08_scheduling_and_sync.md); 0 -/
  since : Nat
  /-- 1 bit, 0x0605 raised for this age; R212 (08_scheduling_and_sync.md); 0 -/
  late : Bool
  /-- 1 bit, 0x0606 raised for this age; R212 (08_scheduling_and_sync.md); 0 -/
  exceeded : Bool
  /-- 1 bit, a chunk is deferred; R211 (08_scheduling_and_sync.md); 0 -/
  deferred : Bool
  /-- local tick of the last chunk that fell due; R211 (08_scheduling_and_sync.md); 0 -/
  due : Nat
  /-- 1 bit, a chunk has been admitted and runs; R211 (08_scheduling_and_sync.md); 0 -/
  admitted : Bool
deriving DecidableEq, Repr

def Coverage.reset : Coverage :=
  { pos := 0, since := 0, late := false, exceeded := false, deferred := false, due := 0, admitted := false }

/-! ## Fusion state under the generation (09_fusion_grid.md, 11_tracks.md, 12_solvers.md, 14_faults_and_diagnostics.md) -/

/-- One grid cell: state code of R231, fused confidence of R232, observation time of R246 in ns. -/
structure GridCell where
  state : Nat
  conf : Nat
  tobs : Option Int
  /-- oldest contribution that reached the cell this cycle (R247) -/
  told : Option Int
deriving DecidableEq, Repr

/-- A cell never observed: UNKNOWN (R225). -/
def GridCell.reset : GridCell := { state := 3, conf := 0, tobs := none, told := none }

/-- Sensor health of one stream (R234, R236, R237). -/
structure Health where
  weight : Nat
  temporal : Nat
  cross : Nat
  residual : Nat
  masked : Bool
  unmask : Nat
  /-- commits in no pair at or above the contest area -/
  quiet : Nat
  /-- last ρ, none if none reported -/
  rho : Option Nat
deriving DecidableEq, Repr

def Health.reset : Health :=
  { weight := 255, temporal := 0, cross := 0, residual := 0, masked := false, unmask := 0, quiet := 0, rho := none }

/-- Calibration correction of one slot (R226, R241): δθ in 2^−30 rad, δt in 2^−24 m; envelope flags. -/
structure Calib where
  rot : List Int
  tr : List Int
  rotAt : Bool
  trAt : Bool
deriving DecidableEq, Repr

def Calib.reset : Calib := { rot := [0, 0, 0], tr := [0, 0, 0], rotAt := false, trAt := false }

/-- Codes of a track's STATE (R283): 0 to 4 in this order. -/
inductive TrackState where
  | free | tentative | confirmed | coasting | retired
deriving DecidableEq, Repr

/-- One track slot (R283). Q patterns are held as signed integers. -/
structure Track where
  id : Nat
  state : TrackState
  cls : Nat
  hits : Nat
  misses : Nat
  predOnly : Bool
  lastHit : Nat
  tv : Int
  told : Int
  /-- X, Y, Z, VX, VY, VZ in Q15.16 -/
  st : List Int
  /-- HX, HY, HZ in Q15.16 -/
  ext : List Int
  /-- Q3.28 -/
  yaw : Int
  /-- 21 entries in Q7.24 -/
  cov : List Int
  parent : Nat
  detRow : Nat
  cost : Int
  conf : Nat
  app : List Nat
  born : Bool
deriving DecidableEq, Repr

def Track.reset : Track :=
  { id := 0, state := .free, cls := 0, hits := 0, misses := 0, predOnly := false, lastHit := 0, tv := 0, told := 0,
    st := List.replicate 6 0, ext := List.replicate 3 0, yaw := 0, cov := List.replicate 21 0, parent := 0,
    detRow := 65535, cost := 0, conf := 0, app := [], born := false }

/-- One copy of a solution buffer (R324): the values, its descriptor's times and FAULTED, its solved instant, NO_SOLUTION. -/
structure Solution where
  vals : List Int
  solved : Int
  tv : Int
  told : Int
  cycle : Nat
  faulted : Bool
  none : Bool
deriving DecidableEq, Repr

def Solution.reset : Solution := { vals := [], solved := 0, tv := 0, told := 0, cycle := 0, faulted := false, none := true }

/-- One of the two copies of fusion state (R375). -/
structure Fusion where
  /-- 12,288 slots of 256 bytes; R281 (11_tracks.md); FREE -/
  tracks : Store Track
  /-- 32 bits, [6000.04]; R287 (11_tracks.md); 1 -/
  nextId : Nat
  /-- cells by y * X + x; R231, R246 (09_fusion_grid.md); UNKNOWN, never observed -/
  cells : Store GridCell
  /-- 1 bit, a commit has followed the last reset of the grid; R235 (09_fusion_grid.md); 0 -/
  gridLive : Bool
  /-- slots 0–15; R234, R236 (09_fusion_grid.md); weight 255, counters 0, not masked -/
  health : Store Health
  /-- contest cycle count by 16 * a + b; R234 (09_fusion_grid.md); 0 -/
  contests : Store Nat
  /-- slots 0–15; R241 (09_fusion_grid.md); 0 -/
  calib : Store Calib
  /-- solver value bank, by 2^20 times the Hoard address of BANK0 plus position; R312 (12_solvers.md); the package's initial values (none) -/
  bank : Store (Option Int)
  /-- solution copies by SOL address; R324 (12_solvers.md); zero, NO_SOLUTION -/
  sols : Store Solution
  /-- count of UNKNOWN monitored cells; R233 (09_fusion_grid.md); 0 -/
  unknown : Nat
deriving DecidableEq, Repr

def Fusion.reset : Fusion :=
  { tracks := [], nextId := 1, cells := [], gridLive := false, health := [], contests := [], calib := [], bank := [],
    sols := [], unknown := 0 }

/-- A predicted state (R289): X to VZ in Q15.16, 21 covariance entries in Q7.24; 0 none, 1 plain, 2 saturated, 3 NaN. -/
structure Prediction where
  st : List Int
  cov : List Int
  kind : Nat
deriving DecidableEq, Repr

def Prediction.reset : Prediction := { st := [], cov := [], kind := 0 }

/-- An assignment (R294, R295): status (4 none yet), column and net cost of each row, exited rows. -/
structure Assigned where
  status : Nat
  cols : List (Option (Nat × Int))
  exited : List Nat
deriving DecidableEq, Repr

def Assigned.reset : Assigned := { status := 4, cols := [], exited := [] }

/-- What the computing cycle has produced besides the candidate copy. -/
structure Candidate where
  /-- excluded slots; R236 (09_fusion_grid.md); none -/
  excluded : BitVec 16
  /-- pairs of slots with k_ab at or above the contest area; R234 (09_fusion_grid.md); none -/
  contestPairs : List (Nat × Nat)
  /-- checks evaluated and passed by slot: both passed; residual not failed; R237 (09_fusion_grid.md); none -/
  cleanSlots : List Nat
  /-- T_OLD of each region; R247 (09_fusion_grid.md); none -/
  regionTold : Store Int
  /-- regions a late sample asserted in; R249 (09_fusion_grid.md); none -/
  lateRegions : List Nat
  /-- kept detections of each class with their rows in the detection list; R288 (11_tracks.md); none -/
  dets : Store (List (Nat × Detection))
  /-- rows of the cost matrices built so far, by 2^12 * class + row; R291, R292 (11_tracks.md); none -/
  costRows : Store (List (Nat × Int))
  /-- classes of which a row was pruned; R291 (11_tracks.md); none -/
  gateCut : List Nat
  /-- predicted state of each live slot; R289 (11_tracks.md); none -/
  predicted : Store Prediction
  /-- assignment of each class: status, column and net cost of each row, exited rows; R294, R295 (11_tracks.md); none -/
  assigned : Store Assigned
  /-- class status byte; R302 (11_tracks.md); 0 -/
  classStatus : Store Nat
  /-- births, retired, prediction-only and unresolved counts; R302 (11_tracks.md); 0 -/
  births : Nat
  predOnly : Nat
  unresolved : Nat
  /-- safety summary checked good; R345 (13_safety_functions.md); none -/
  summary : Option (BitVec 64 × Store Nat × Store PairEntry)
  /-- local tick at which the Hull's evaluation of it ends; R345, R346 (13_safety_functions.md); 0 -/
  evalEnd : Nat
  /-- bytes of the safety summary as it arrived; R500 (19_recorder_storage.md); none -/
  arrived : List Byte
  /-- marked for discard by checks 1 to 3; R345 (13_safety_functions.md); 0 -/
  bad : Bool
  /-- RANGE_EXCURSION of the summary header; R348 (13_safety_functions.md); 0 -/
  excursion : Bool
  /-- regions and positions recomputed; R265, R269 (10_temporal_attention.md); none -/
  recomputed : List (Nat × Nat)
  /-- 0x0907 raised in this cycle; R300 (11_tracks.md); 0 -/
  predRaised : Bool
  /-- encode saturation counted in this cycle; R259 (10_temporal_attention.md); 0 -/
  encodeRaised : Bool
deriving DecidableEq, Repr

def PairEntry.reset : PairEntry := { dist := 0xFFFFFFFF, vh := 0, sigma := 0, trackId := 0, predOnly := false }

def Candidate.reset : Candidate :=
  { excluded := 0, contestPairs := [], cleanSlots := [], regionTold := [], lateRegions := [], dets := [], costRows := [], gateCut := [],
    predicted := [], assigned := [], classStatus := [], births := 0, predOnly := 0, unresolved := 0, summary := none, evalEnd := 0,
    arrived := [], bad := false, excursion := false, recomputed := [], predRaised := false, encodeRaised := false }

/-- Fusion: both copies, the candidate's side results, requests that wait for a commit. -/
structure FusionBlock where
  /-- copy 0; R375 (14_faults_and_diagnostics.md); Fusion.reset -/
  copy0 : Fusion
  /-- copy 1; R375 (14_faults_and_diagnostics.md); Fusion.reset -/
  copy1 : Fusion
  /-- the candidate's results; R375 (14_faults_and_diagnostics.md); empty -/
  cand : Candidate
  /-- streams whose unmask is requested; R237 (09_fusion_grid.md); none -/
  unmaskReq : List Nat
  /-- slots whose correction is zeroed at the next commit; R242 (09_fusion_grid.md); none -/
  zeroReq : List Nat
  /-- 1 bit, the geometry was written; R225 (09_fusion_grid.md); 0 -/
  geometry : Bool
  /-- streams masked or unmasked at the last commit; R248 (09_fusion_grid.md); 0 -/
  maskChange : Bool
  /-- calibration persisted in NAND by slot; R242 (09_fusion_grid.md); 0 -/
  savedCalib : Store Calib
  /-- local tick at which they were persisted; R242 (09_fusion_grid.md); 0 -/
  savedAt : Nat
deriving DecidableEq, Repr

/-! ## Attention (10_temporal_attention.md) -/

/-- Codes of a ring record's STATE (R263): 0 to 3 in this order. -/
inductive KvState where
  | empty | present | dropped | lost
deriving DecidableEq, Repr

/-- One slot record or candidate record (R263). -/
structure KvRecord where
  cycle : Nat
  state : KvState
  hot : Bool
  pool : Bool
  retained : Bool
  /-- 0 HOT, 1 POOL, 2 RECOMPUTE, 3 MASK -/
  plan : Nat
  tv : Int
  told : Int
  hotRun : Nat
  poolRun : Nat
  retRun : Nat
  recompRun : Option Nat
  /-- token validity bitmap -/
  tokens : List Bool
  /-- 32 bits -/
  crc : BitVec 32
deriving DecidableEq, Repr

def KvRecord.reset : KvRecord :=
  { cycle := 0, state := .empty, hot := false, pool := false, retained := false, plan := 0, tv := 0, told := 0, hotRun := 0,
    poolRun := 0, retRun := 0, recompRun := none, tokens := [], crc := 0 }

/-- The pager and its tables. -/
structure KvCache where
  /-- records by 128 * region + position, position 64 the candidate; R263 (10_temporal_attention.md); EMPTY -/
  recs : Store KvRecord
  /-- allocated hot runs (first page, pages); R261, R263 (10_temporal_attention.md); none -/
  hotRuns : List (Nat × Nat)
  /-- allocated pool runs; R261, R263 (10_temporal_attention.md); none -/
  poolRuns : List (Nat × Nat)
  /-- retired hot pages; R271 (10_temporal_attention.md); none -/
  hotRetired : List Nat
  /-- retired pool pages; R271 (10_temporal_attention.md); none -/
  poolRetired : List Nat
  /-- write-backs in flight: region, cycle, first pool page; R265 (10_temporal_attention.md); none -/
  backs : List (Nat × Nat × Nat)
  /-- 8 bits each, [5801]; R268 (10_temporal_attention.md); 0 -/
  masked : Store Nat
  /-- 32 bits, [5800.10]; R279 (10_temporal_attention.md); 0 -/
  freePool : Nat
deriving DecidableEq, Repr

/-! ## Solver engines (12_solvers.md) -/

/-- The job an engine runs: descriptor words, its entry, its partition, track class of an auction. -/
structure RunJob where
  words : List Word
  ticket : Ticket
  partition : Nat
  track : Option Nat
deriving DecidableEq, Repr

/-- One solver engine. -/
structure Solver where
  /-- 1 bit, [6801]; R329, R330 (12_solvers.md); 0 in service -/
  out : Bool
  /-- cycles of its compares; R329 (12_solvers.md); none -/
  compares : List Nat
  /-- job in progress; R307 (12_solvers.md); idle -/
  job : Option RunJob
  /-- progress of a segmented job by AUX address: segments and iterations done, saturations of each right-hand side; R328 (12_solvers.md); none -/
  saved : Store (List Nat)
deriving DecidableEq, Repr

def Solver.reset : Solver := { out := false, compares := [], job := none, saved := [] }

/-! ## Hull and safety (13_safety_functions.md) -/

/-- An own decision, kept for the cross-check (R359): cycle, commit tick, T_V, discarded, zones, pair tiers, values. -/
structure Decided where
  cycle : Nat
  tick : Nat
  tv : Int
  discarded : Bool
  zones : BitVec 64
  tiers : Store Nat
  vals : Store PairEntry
  compared : Bool
deriving DecidableEq, Repr

/-- The Hull. -/
structure Hull where
  /-- 32 bits, committed generation number g; R375 (14_faults_and_diagnostics.md); 0 -/
  g : BitVec 32
  /-- 2 bits, output tier, [7000.03]; R332 (13_safety_functions.md); 3 -/
  tier : Nat
  /-- 1 bit, stop latch; R335, R444, R471 (13_safety_functions.md); 1 -/
  latch : Bool
  /-- 1 bit, the latch needs a reset whatever the mode; R335 (13_safety_functions.md); 0 -/
  needReset : Bool
  /-- 16 bits, [7000.11]; R335 (13_safety_functions.md); 0x0000 -/
  stopCause : Nat
  /-- consecutive commits with the demanded tier at or below 0, 1, 2; R334 (13_safety_functions.md); 0 -/
  rel : List Nat
  /-- 64 bits, zones active at the last commit; R337, R346 (13_safety_functions.md); 0 -/
  zones : BitVec 64
  /-- 2 bits each, pair tiers at the last commit; R340, R346 (13_safety_functions.md); 0 -/
  pairTiers : Store Nat
  /-- 2 bits, tier of the active zones at the last commit; R333, R346 (13_safety_functions.md); 0 -/
  zoneTier : Nat
  /-- 32 bits each, [7400.12]; R339 (13_safety_functions.md); 0 -/
  sp : Store Nat
  /-- 8 bits, [7000.12]; R347 (13_safety_functions.md); 0 -/
  discards : Nat
  /-- generation fault register with its cause; R373 (14_faults_and_diagnostics.md); none -/
  genFault : Option Nat
  /-- 1 bit, a Hull fault is latched until device reset; R348 (13_safety_functions.md); 0 -/
  fault : Bool
  /-- standing demands by source number, as tier; R333, R348, R389 (13_safety_functions.md); none -/
  demands : Store Nat
  /-- local tick since which v_r exceeds the speed, and that speed, by pair; R342 (13_safety_functions.md); none -/
  exceeded : Store (Option (Nat × Nat))
  /-- pairs whose speed input is unusable; R341 (13_safety_functions.md); none -/
  stale : List Nat
  /-- 1 bit each, STOP_A_N and STOP_B_N as driven; R332, R350 (13_safety_functions.md); low -/
  pinA : Bool
  pinB : Bool
  /-- 1 bit, the Husk's stop pad overrides are low; R388, R466 (14_faults_and_diagnostics.md); 1 -/
  override : Bool
  /-- end tick of each running off delay by output; R351 (13_safety_functions.md); none -/
  offDelay : Store (Option Nat)
  /-- outputs of function 1 that the stop has switched off; R351 (13_safety_functions.md); all -/
  offDone : List Nat
  /-- 16 bits, SEQ of the last status PDU; R416 (15_palca_host_link.md); 0 -/
  statusSeq : BitVec 16
  /-- local tick of the last status PDU; R416 (15_palca_host_link.md); 0 -/
  statusTick : Nat
  /-- SEQ of the last used command; R419 (15_palca_host_link.md); none -/
  cmdSeq : Option (BitVec 16)
  /-- local tick of the last used command; R420 (15_palca_host_link.md); 0 -/
  cmdTick : Nat
  /-- 1 bit, a used command with RESET clear has been seen; R420 (15_palca_host_link.md); 0 -/
  sawClear : Bool
  /-- 1 bit, watchdog expired; R348 (13_safety_functions.md); 0 -/
  watchdog : Bool
  /-- tick of the press of each reset input pair; R335 (13_safety_functions.md); none -/
  press : Store (Option Nat)
  /-- last committed or discarded cycle, and whether it was discarded; R362, R416 (13_safety_functions.md); 0, no -/
  lastCycle : Nat
  lastDiscarded : Bool
  /-- 64 bits, T_V of that cycle, ns; R356 (13_safety_functions.md); 0 -/
  lastTv : Int
  /-- 1 bit, the first commit in RUN since start-up has happened; R469 (18_startup.md); 0 -/
  firstCommit : Bool
  /-- local ticks of the last dark-test pulses of STOP_A_N and STOP_B_N; R350 (13_safety_functions.md); 0 -/
  darkA : Nat
  darkB : Nat
deriving DecidableEq, Repr

/-- The Twin link and the partner (R353 to R361, R476 to R478). -/
structure Twin where
  /-- 1 bit, lanes trained; R476, R478 (18_startup.md); 0 -/
  up : Bool
  /-- 2 bits, [7100.0B]; R366 (13_safety_functions.md); 0 absent -/
  partner : Nat
  /-- 16 bits, SEQ of the last safety frame sent; R355 (13_safety_functions.md); 0 -/
  txSeq : BitVec 16
  /-- SEQ of the last safety frame used; R355 (13_safety_functions.md); none -/
  rxSeq : Option (BitVec 16)
  /-- local tick of the last safety frame used; R361 (13_safety_functions.md); 0 -/
  lastUsed : Nat
  /-- partner counter minus own, ns; R357 (13_safety_functions.md); 0 -/
  offset : Int
  /-- consecutive partner cycles that pair with none; R357 (13_safety_functions.md); 0 -/
  unpaired : Nat
  /-- discrepant cycles; R359 (13_safety_functions.md); 0 -/
  discrepant : Nat
  /-- consecutive cycles out of tolerance and in tolerance; R360 (13_safety_functions.md); 0 -/
  tolBad : Nat
  tolGood : Nat
  /-- 1 bit, a valid IDENTITY of the partner was used; R476 (18_startup.md); 0 -/
  seen : Bool
  /-- 1 bit, discovery began and has not ended; R476, R478 (18_startup.md); 0 -/
  discovering : Bool
  /-- own decisions not yet compared, newest first; R359 (13_safety_functions.md); none -/
  own : List Decided
  /-- partner decisions used and not yet compared, newest first; R359, R360 (13_safety_functions.md); none -/
  theirs : List Decided
  /-- partner values used before the own commit, newest first; R360 (13_safety_functions.md); none -/
  theirVals : List (Int × Store PairEntry)
  /-- instant of the first own cycle that pairs, ns; R478 (18_startup.md); none -/
  since : Option Int
  /-- 1 bit, a check of step 10 failed; R476 (18_startup.md); 0 -/
  checkFailed : Bool
  /-- local ticks of the last HEARTBEAT, IDENTITY and own lane training; R356 (13_safety_functions.md), R476, R478 (18_startup.md); 0 -/
  beatTick : Nat
  idTick : Nat
  trainTick : Nat
deriving DecidableEq, Repr

/-! ## Palca (15_palca_host_link.md) -/

/-- A kept response (R406). -/
structure Kept where
  port : ReqPort
  addr : BitVec 128
  udp : BitVec 16
  tag : BitVec 16
  /-- the request: opcode, index, subindex, part, offset, payload -/
  content : List Nat
  tick : Nat
  response : List Nat
deriving DecidableEq, Repr

/-- A response that waits until its object's entry is in both copies of the persisted store (R405). -/
structure HeldReply where
  req : Req
  content : List Nat
  bytes : List Nat
  /-- sequence number of the entry -/
  ticket : Nat
deriving DecidableEq, Repr

/-- A block transfer in progress (R409). -/
structure Transfer where
  idx : Nat
  sub : Nat
  port : ReqPort
  total : Nat
  got : List Byte
  tick : Nat
deriving DecidableEq, Repr

/-- An event subscription (R411), with the port its last SUBSCRIBE came through. -/
structure Sub where
  port : ReqPort
  addr : BitVec 128
  dport : BitVec 16
  key : Nat
  renewed : Nat
  sentCount : Nat
  sentTick : Nat
deriving DecidableEq, Repr

/-- A record on its way out on a port (R413, R414): `next` is the fragment to be sent; `stamped` says that T_O is written;
`content` is the stream's content; `old` says that the cycle completes in the time scale before the first-lock step (R37). -/
structure OutRecord where
  stream : Nat
  port : Nat
  seq : Nat
  cycle : Nat
  content : Nat
  discarded : Bool
  next : Nat
  stamped : Bool
  old : Bool
  data : List Byte
deriving DecidableEq, Repr

/-- The Palca engine and the host ports. -/
structure Palca where
  /-- kept responses, newest first, 16 a host; R406 (15_palca_host_link.md); none -/
  kept : List Kept
  /-- responses that wait for NAND, oldest first; R405, R406 (15_palca_host_link.md); none -/
  held : List HeldReply
  /-- transfers in progress; R409 (15_palca_host_link.md); none -/
  transfers : List Transfer
  /-- at most 64; R411 (15_palca_host_link.md); none -/
  subs : List Sub
  /-- host ports with link up; [1011.08] R396 (15_palca_host_link.md); none -/
  up : List Nat
  /-- 16 bits each, SEQ of the next record by stream; R413, R414 (15_palca_host_link.md); 0 -/
  seqs : Store Nat
  /-- records being sent, oldest first; R414 (15_palca_host_link.md); none -/
  sending : List OutRecord
  /-- 4 queues a host port: service frames that wait behind stream frames, oldest first; R399 (15_palca_host_link.md); none -/
  waitingOut : List Output
  /-- addresses in force by dictionary key; R397 (15_palca_host_link.md); defaults -/
  inForce : Store (List Nat)
  /-- address writes that wait 1 s: key and due tick; R397 (15_palca_host_link.md); none -/
  waiting : List (Nat × Nat)
  /-- echoes answered in the running second by port: count and start tick; R398 (15_palca_host_link.md); 0 -/
  echoes : Store (List Nat)
  /-- SPI target: responses that wait, at most 4; R422 (15_palca_host_link.md); none -/
  spiQueue : List (List Nat)
  /-- SPI target: the status PDU that waits; R422 (15_palca_host_link.md); none -/
  spiStatus : Option (List Nat)
  /-- 1 bit, receive overflow; R422 (15_palca_host_link.md); 0 -/
  spiOverflow : Bool
  /-- counts at the last READ_EVENTS by key; R422 (15_palca_host_link.md); 0 -/
  spiCounts : Store Nat
  /-- cycle's T_o, ns; R9, R250 (09_fusion_grid.md); 0 -/
  lastTo : Nat
  /-- entries that [B100.03] reads, frozen at the write of [B100.02]; R393, R431 (14_faults_and_diagnostics.md); none -/
  logRead : List Byte
deriving DecidableEq, Repr

/-! ## Power, start-up (17_power_and_clocks.md, 18_startup.md) -/

/-- Codes of [2000.01] Device state (R443): 0 to 4 in this order. -/
inductive PowerState where
  | off | husk | standby | ready | run
deriving DecidableEq, Repr

/-- Power states, clocks and current. -/
structure Power where
  /-- 3 bits, [2000.01]; R443 (17_power_and_clocks.md); 0 OFF -/
  state : PowerState
  /-- target of the running transition; R445 (17_power_and_clocks.md); none -/
  target : Option PowerState
  /-- 3 bits, [2000.04]; R465 (18_startup.md); 0 -/
  resetKind : Nat
  /-- retained record: causes; R448, R465 (17_power_and_clocks.md); none -/
  retained : List Nat
  /-- retained record: consecutive watchdog resets and the step; R474 (18_startup.md); 0 -/
  wdCount : Nat
  wdStep : Nat
  /-- 1 bit, LDO in normal mode; R447 (17_power_and_clocks.md); 0 -/
  ldoNormal : Bool
  /-- 1 bit, the Husk runs from the crystal; R450 (17_power_and_clocks.md); 0 -/
  crystal : Bool
  /-- 1 bit each, EN_IOD, EN_CORE, EN_DDR; R466, R526 (18_startup.md); 0 -/
  enIod : Bool
  enCore : Bool
  enDdr : Bool
  /-- 1 bit each, pins PWR_OK and RESET_N; R464 (18_startup.md); 0 and 1 -/
  pwrOk : Bool
  resetN : Bool
  /-- 1 bit, VHUSK in range; R446 (17_power_and_clocks.md); 0 -/
  vhusk : Bool
  /-- Q15.16 °C, [8000.04] and [8000.05]; R440 (16_dictionary_reference.md); DESIGN CHOICE 25 °C (log 2) -/
  coreTemp : Int
  iodTemp : Int
  /-- 1 bit each, 0x0E05 may be raised again by the die (below 95 °C since); R457 (17_power_and_clocks.md); 1 -/
  coolCore : Bool
  coolIod : Bool
  /-- 16 bits, mV, [8000.03]; R458 (17_power_and_clocks.md); DESIGN CHOICE 750 (log 2) -/
  setMv : Nat
  /-- failed transactions in a row by rail; R458 (17_power_and_clocks.md); 0 -/
  avsFails : Store Nat
  /-- rails in AVSBus fault; R458 (17_power_and_clocks.md); none -/
  avsFault : List Nat
  /-- local tick since which every rail answers; R458 (17_power_and_clocks.md); none -/
  avsOk : Option Nat
  /-- local ticks of the last AVS read-back, temperature read, epoch and reference count window; R458, R457, R454 (17_power_and_clocks.md),
  R388 (14_faults_and_diagnostics.md); 0 -/
  avsTick : Nat
  tempTick : Nat
  epochTick : Nat
  refTick : Nat
  /-- local tick of the last step of the set voltage; R458 (17_power_and_clocks.md); 0 -/
  stepTick : Nat
  /-- A granted in the epoch by unit (Pods 0–24, solvers 25–28); R454 (17_power_and_clocks.md); 0 -/
  grants : Store Nat
  /-- sixteenths of 1.4 GHz by unit; R455 (17_power_and_clocks.md); 0 -/
  clocks : Store Nat
  /-- unit at which the left-over amperes start; R454 (17_power_and_clocks.md); 0 -/
  turn : Nat
  /-- local tick since which class S is covered; R460 (17_power_and_clocks.md); none -/
  floorOk : Option Nat
  /-- units whose clock a droop monitor halves; R456 (17_power_and_clocks.md); none -/
  droops : List Nat
  /-- 1 bit, a droop was counted in this epoch; R456 (17_power_and_clocks.md); 0 -/
  droopEpoch : Bool
deriving DecidableEq, Repr

/-- Start-up sequencer (R467 to R475). -/
structure Startup where
  /-- step being run; R467 (18_startup.md); none -/
  step : Option Nat
  /-- 8 bits, [2000.03]; R467 (18_startup.md); 0 -/
  last : Nat
  /-- 1 bit, a start moment is awaited; R464 (18_startup.md); 0 -/
  due : Bool
  /-- 32 bits, [100A.00]; R435 (16_dictionary_reference.md); 0 before a firmware runs -/
  firmware : Nat
  /-- 16 bits, silicon stepping, [1009.00]; R1, R435 (16_dictionary_reference.md); DESIGN CHOICE "A1" = 0x4131 (log 2) -/
  stepping : Nat
  /-- 1 bit, boot-ROM Palca; R470 (18_startup.md); 1 -/
  bootRom : Bool
  /-- 1 bit, READY at most; R475 (18_startup.md); 0 -/
  readyAtMost : Bool
  /-- 1 bit, edge die found; R445, R475 (18_startup.md); 0 -/
  edgeFound : Bool
  /-- attempts of steps 1–2; R475 (18_startup.md); 0 -/
  attempts : Nat
  /-- 1 bit, held in STANDBY after three watchdog resets; R474 (18_startup.md); 0 -/
  held : Bool
  /-- supplies still to switch on; R473 (18_startup.md); none -/
  supplies : List Nat
  /-- local tick of the last supply switched on; R473 (18_startup.md); 0 -/
  supplyTick : Nat
  /-- local tick of step 10's start; R476 (18_startup.md); 0 -/
  stepTick : Nat
  /-- firmware stages to repair; R487 (19_recorder_storage.md); none -/
  repair : List Nat
deriving DecidableEq, Repr

/-! ## Recorder and storage (19_recorder_storage.md), security (20_security.md) -/

/-- One NAND block as the controller keeps it. -/
structure NandBlock where
  /-- 1 bit, it holds data (R492, R495) -/
  held : Bool
  bad : Bool
  reads : Nat
  journalled : Nat
  erases : Nat
deriving DecidableEq, Repr

def NandBlock.reset : NandBlock := { held := false, bad := false, reads := 0, journalled := 0, erases := 0 }

/-- One codeword of a programmed page (R488): the metadata, the ring's stream position of its data, and whether it still reads. -/
structure Codeword where
  area : Nat
  lblock : Nat
  page : Nat
  wseq : Nat
  erases : Nat
  pos : Nat
  good : Bool
deriving DecidableEq, Repr

/-- A journal entry (R497): identity, value, sequence number, CRC-32C, and its block and page in each copy that holds it. -/
structure JEntry where
  key : Nat
  value : List Nat
  seq : Nat
  crc : BitVec 32
  a : Option (Nat × Nat)
  b : Option (Nat × Nat)
deriving DecidableEq, Repr

/-- What a NAND operation does: a program, the hard decode that follows it (R485), an erase. -/
inductive NandKind where
  | program | readBack | erase
deriving DecidableEq, Repr

/-- An operation of the NAND controller (R496): its class of service, the journal entry or the ring bytes it carries, and whether it was
retried after a time-out (R483). -/
structure NandWork where
  cls : Nat
  kind : NandKind
  place : NandPlace
  ticket : Nat
  bytes : Nat
  retried : Bool
deriving DecidableEq, Repr

/-- Blocks in use of a copy, the oldest first, and the next page of the last (R495, R497). -/
structure NandHead where
  blocks : List Nat
  page : Nat
deriving DecidableEq, Repr

def NandHead.reset : NandHead := { blocks := [], page := 0 }

/-- The context of one cycle (R500): its instant, its records and whether a capture has written it. -/
structure Context where
  cycle : Nat
  tv : Int
  bytes : List Byte
  written : Bool
deriving DecidableEq, Repr

/-- A capture (R501): oldest instant it takes, its end, and its latest end; all in ns. -/
structure Capture where
  from_ : Int
  until_ : Int
  limit : Int
  overrun : Bool
deriving DecidableEq, Repr

/-- What the recorder has of a cycle whose T_O are still open (R250, R499, R500): the commit time, the 18 words of the
cycle record, the context records by kind, and the T_O of each content that a stream has begun to send. -/
structure HeldCycle where
  cycle : Nat
  tv : Int
  commit : Nat
  words : List Word
  recs : List (Nat × List Byte)
  tos : Store Nat
deriving DecidableEq, Repr

/-- The NAND controller and the recorder. -/
structure Recorder where
  /-- cycles whose T_O are not all known yet, oldest first; R9 (00_scope.md), R250, R499 (19_recorder_storage.md); none -/
  cycles : List HeldCycle
  /-- blocks; R491, R493, R495 (19_recorder_storage.md); good, counts 0 -/
  blocks : Store NandBlock
  /-- refresh queue, soft-decode ones first: block and reason; R489, R492 (19_recorder_storage.md); empty -/
  refresh : List (Nat × Nat)
  /-- [9000.03] bad blocks; R441 (16_dictionary_reference.md); 0 -/
  bad : Nat
  /-- [9000.04] spare blocks; R484 (19_recorder_storage.md); DESIGN CHOICE 32 (log 2) -/
  spares : Nat
  /-- spare blocks at formatting; R484, R491 (19_recorder_storage.md); DESIGN CHOICE 32 (log 2) -/
  sparesAtFormat : Nat
  /-- 1 bit, 0x1004 raised; R491 (19_recorder_storage.md); 0 -/
  lowRaised : Bool
  /-- 32 bits, MiB, [9000.01]; R441, R482 (16_dictionary_reference.md); DESIGN CHOICE 16384 (log 2) -/
  capacity : Nat
  /-- 8 bits, [9000.02]; R441, R482 (16_dictionary_reference.md); DESIGN CHOICE 1 (log 2) -/
  chips : Nat
  /-- size of a block in MiB; R482 (19_recorder_storage.md); DESIGN CHOICE 16 (log 2) -/
  blockMiB : Nat
  /-- blocks of the recorder ring, [9000.09]; R484, R491 (19_recorder_storage.md); DESIGN CHOICE 820 (log 2) -/
  ringBlocks : Nat
  /-- LUNs of a chip enable, 1 to 4; R482 (19_recorder_storage.md); DESIGN CHOICE 1 (log 2) -/
  luns : Nat
  /-- KiB of a page, 8 or 16; R482, R488 (19_recorder_storage.md); DESIGN CHOICE 16 (log 2) -/
  pageKiB : Nat
  /-- 1 bit, the part declares read retry; R482, R489 (19_recorder_storage.md); DESIGN CHOICE 1 (log 2) -/
  readRetry : Bool
  /-- 1 bit, every area has been formatted; R486 (19_recorder_storage.md); DESIGN CHOICE 0 (log 2) -/
  formatted : Bool
  /-- blocks found aged in steps 7 and 8, refreshed after the first commit; R494 (19_recorder_storage.md); none -/
  bootAged : List Nat
  /-- physical block of a block address, itself where unlisted; R484, R492 (19_recorder_storage.md); none -/
  remap : Store (Option Nat)
  /-- codewords of programmed pages, by 65,536 * block + page; R488 (19_recorder_storage.md); none -/
  pages : Store (List Codeword)
  /-- blocks in use by 2 * area number + copy; R485, R495 (19_recorder_storage.md); none -/
  heads : Store NandHead
  /-- work that waits, oldest first; R496 (19_recorder_storage.md); none -/
  work : List NandWork
  /-- operation in progress by LUN; R496 (19_recorder_storage.md); none -/
  running : Store (Option NandWork)
  /-- reads retried after a time-out; R483 (19_recorder_storage.md); none -/
  lateReads : List NandPlace
  /-- blocks whose erase was abandoned; R505 (19_recorder_storage.md); none -/
  again : List Nat
  /-- write sequence number; R488 (19_recorder_storage.md); 0 -/
  wseq : Nat
  /-- 32 bits, sequence number of the newest journal entry; R497 (19_recorder_storage.md); 0 -/
  jseq : Nat
  /-- journal of the persisted store, newest first; R430, R497 (19_recorder_storage.md); none -/
  store : List JEntry
  /-- journal of the control area, newest first; R484, R497 (19_recorder_storage.md); none -/
  control : List JEntry
  /-- bytes of the ring's stream that have been programmed; R502 (19_recorder_storage.md); 0 -/
  ringPos : Nat
  /-- stream position of each segment's first byte; R503 (19_recorder_storage.md); 0 -/
  segStart : Store Nat
  /-- 1 bit, a seal takes the page that is not full; R504 (19_recorder_storage.md); 0 -/
  flush : Bool
  /-- segment being written, from 1; R503 (19_recorder_storage.md); 1 -/
  segment : Nat
  /-- bytes of its records in write order; R503 (19_recorder_storage.md); none -/
  data : List Byte
  /-- records in it; R504 (19_recorder_storage.md); 0 -/
  records : Nat
  /-- PREV_H; R503 (19_recorder_storage.md); DESIGN CHOICE 0 before formatting (log 2) -/
  prevH : BitVec 256
  /-- the ended segment that waits for its seal: number, seal body, record bytes; R503, R504 (19_recorder_storage.md); none -/
  sealing : Option (Nat × List Byte × List Byte)
  /-- local tick at which the segment began; R503 (19_recorder_storage.md); 0 -/
  segTick : Nat
  /-- sealed segments held, by number; R441, R504 (16_dictionary_reference.md); none -/
  sealed : Store (List Byte)
  /-- staged record bytes, at most 4 MiB; R502 (19_recorder_storage.md); 0 -/
  staged : Nat
  /-- context held in the recorder buffer, newest first; R500 (19_recorder_storage.md); none -/
  context : List Context
  /-- running capture; R501 (19_recorder_storage.md); none -/
  capture : Option Capture
  /-- local tick of the last scan, wear move, journal; R493–R495 (19_recorder_storage.md); 0 -/
  lastScan : Nat
  lastWear : Nat
  lastJournal : Nat
deriving DecidableEq, Repr

/-- The security unit. -/
structure Security where
  /-- 64 bits, [1018.04]; R509 (20_security.md); DESIGN CHOICE 0 (log 2) -/
  serial : Word
  /-- 256 bits, [A000.01]; R509 (20_security.md); DESIGN CHOICE 0 (log 2) -/
  fingerprint : BitVec 256
  /-- 512 bits, attestation secret seeds; R509 (20_security.md); DESIGN CHOICE 0 (log 2) -/
  secret : BitVec 512
  /-- 512 bits, voltage table; R458, R509 (20_security.md); DESIGN CHOICE 0 (log 2) -/
  voltages : BitVec 512
  /-- 48 bits each, MAC addresses of HOST0 and HOST1, [1010.01] and [1010.02]; R397, R509 (20_security.md); DESIGN CHOICE 0 (log 2) -/
  macs : Store Nat
  /-- VALID fuses of key slots 0–3; R509 (20_security.md); 0 -/
  valid : List Nat
  /-- REVOKED fuses; R513 (20_security.md); 0 -/
  revoked : List Nat
  /-- public keys by slot; R509 (20_security.md); none -/
  keys : Store (List Byte)
  /-- 1 bit, lifecycle fuse: FIELD; R509, R510 (20_security.md); DESIGN CHOICE 0 BLANK (log 2) -/
  field : Bool
  /-- 0–64 fuses, rollback floor; R512 (20_security.md); 0 -/
  floor : Nat
  /-- largest FLOOR of the running stages; R512 (20_security.md); 0 -/
  stageFloor : Nat
  /-- 32 bits, [A000.0C]; R442 (16_dictionary_reference.md); 0 -/
  fwSec : Nat
  /-- 0–256 epoch fuses burned; R519 (20_security.md); 0 -/
  epochs : Nat
  /-- current leaf block; [A000.05] R518 (20_security.md); none -/
  block : Option Nat
  /-- next leaf; R518 (20_security.md); 0 -/
  leaf : Nat
  /-- next block reserved in both copies; R518 (20_security.md); none -/
  reserved : Option Nat
  /-- block whose reservation is being written; R518 (20_security.md); none -/
  reserving : Option Nat
  /-- local tick of the last attempt at a reservation; R518 (20_security.md); 0 -/
  retryTick : Nat
  /-- 1 bit, a reservation failed and is retried; R518 (20_security.md); 0 -/
  failed : Bool
  /-- 1 bit, the traversal state is missing; R520 (20_security.md); 0 -/
  traversal : Bool
  /-- 256 bits, last nonce written and not consumed; R514 (20_security.md); none -/
  nonce : Option (BitVec 256)
  /-- local tick of the last nonce; R516 (20_security.md); none -/
  nonceTick : Option Nat
  /-- signature in progress: seal or attestation, and the body; R517 (20_security.md); none -/
  signing : Option (Bool × List Byte)
  /-- attestation that waits behind a seal; R517 (20_security.md); none -/
  waiting : Option (List Byte)
  /-- attestation message; [A000.03] R516 (20_security.md); empty -/
  message : List Byte
  /-- 256 bits, [A000.08]; R515 (20_security.md); 0 -/
  commissioned : BitVec 256
  /-- 256 bits, [A000.09]; R515 (20_security.md); 0 -/
  partner : BitVec 256
  /-- 1 bit, [A000.0A]; R522 (20_security.md); 0 -/
  debug : Bool
  /-- 4 bits, scope; R522 (20_security.md); 0 -/
  scope : Nat
deriving DecidableEq, Repr

/-! ## Edge die (21_edge_die_and_electrical.md) -/

/-- One SQ channel (R532 to R537). -/
structure SqChannel where
  /-- 1 bit, switch closed; R531 (21_edge_die_and_electrical.md); 0 -/
  on : Bool
  /-- 1 bit, on commanded; R530 (21_edge_die_and_electrical.md); 0 -/
  cmd : Bool
  /-- cause of the latch, 0 none; R534 (21_edge_die_and_electrical.md); 0 -/
  latched : Nat
  /-- 1 bit, the fault is gone; R537 (21_edge_die_and_electrical.md); 0 -/
  gone : Bool
  /-- 1 bit, in its dark pulse; R533 (21_edge_die_and_electrical.md); 0 -/
  pulse : Bool
  /-- 1 bit, the pulse's sample is not evaluated; R536 (21_edge_die_and_electrical.md); 0 -/
  void : Bool
  /-- local tick until which it is watched for a cross-short; R535 (21_edge_die_and_electrical.md); none -/
  watch : Option Nat
  /-- local tick at which its switch last opened; R535 (21_edge_die_and_electrical.md); none -/
  opened : Option Nat
  /-- local tick at which it was last switched on; R534 (21_edge_die_and_electrical.md); 0 -/
  onTick : Nat
  /-- local tick since which its off-state readback is low; R537 (21_edge_die_and_electrical.md); 0 -/
  lowTick : Nat
deriving DecidableEq, Repr

def SqChannel.reset : SqChannel :=
  { on := false, cmd := false, latched := 0, gone := false, pulse := false, void := false, watch := none, opened := none,
    onTick := 0, lowTick := 0 }

/-- One input pair (R538 to R540). -/
structure InputPair where
  /-- 2 bits, [7300.11]; R439 (16_dictionary_reference.md); 0 OFF -/
  state : Nat
  /-- local tick since which the terminals differ; R540 (21_edge_die_and_electrical.md); none -/
  differ : Option Nat
  /-- 1 bit, both terminals have read OFF since the latch; R540 (21_edge_die_and_electrical.md); 0 -/
  bothOff : Bool
  /-- terminals that passed the running test frame; R539 (21_edge_die_and_electrical.md); none -/
  passed : List Nat
deriving DecidableEq, Repr

def InputPair.reset : InputPair := { state := 0, differ := none, bothOff := false, passed := [] }

/-- The edge die and its link. -/
structure Edge where
  /-- SQ0A, SQ0B, SQ1A … as 0–7; R531 (21_edge_die_and_electrical.md); SqChannel.reset -/
  sq : Store SqChannel
  /-- 16 bits, terminal states, [7300.19]; R439, R539 (16_dictionary_reference.md); 0 -/
  terminals : BitVec 16
  /-- pairs 0–7; R540 (21_edge_die_and_electrical.md); InputPair.reset -/
  pairs : Store InputPair
  /-- pair states the Hull has, from the last used status frame; R352 (13_safety_functions.md); 0 -/
  hullPairs : Store Nat
  /-- 0–4 each, [3301]; R437, R541 (16_dictionary_reference.md); 0 off -/
  supplies : Store Nat
  /-- channels waiting for their turn to switch off, ascending; R531 (21_edge_die_and_electrical.md); none -/
  turns : List Nat
  /-- local tick of the last command frame used; R530 (21_edge_die_and_electrical.md); 0 -/
  cmdTick : Nat
  /-- local tick of the last status frame used; R530 (21_edge_die_and_electrical.md); 0 -/
  statusTick : Nat
  /-- 1 bit, 0x120C stands; R530 (21_edge_die_and_electrical.md); 0 -/
  lost : Bool
  /-- 32 bits, [7201.04]; R439 (16_dictionary_reference.md); 0 -/
  errors : Nat
  /-- 16 bits each, mV, [7201.01] and [7201.02]; R542 (21_edge_die_and_electrical.md); 0 -/
  vedge : Nat
  vsens : Nat
  /-- Q15.16 °C, [7201.03]; R439 (16_dictionary_reference.md); DESIGN CHOICE 25 °C (log 2) -/
  temp : Int
  /-- 1 bit, over-temperature; R542 (21_edge_die_and_electrical.md); 0 -/
  hot : Bool
  /-- local tick since which the sensor is below 110 °C; R542 (21_edge_die_and_electrical.md); none -/
  coolSince : Option Nat
  /-- 1 bit, VSENS above 32 V and not yet recovered; R541 (21_edge_die_and_electrical.md); 0 -/
  vsensOver : Bool
  /-- local tick since which VSENS is in range; R541 (21_edge_die_and_electrical.md); none -/
  vsensOk : Option Nat
  /-- local tick since which VEDGE is in range; R547 (21_edge_die_and_electrical.md); none -/
  vedgeOk : Option Nat
  /-- causes latched since the last status frame: cause, unit, detail; R534 (21_edge_die_and_electrical.md); none -/
  reports : List (Nat × Nat × Nat)
  /-- local tick since which VEDGE is out of range; R542 (21_edge_die_and_electrical.md); none -/
  vedgeBad : Option Nat
  /-- local tick at which the test frame began; R533 (21_edge_die_and_electrical.md); 0 -/
  frameTick : Nat
  /-- dark pulses taken in the test frame: channels 0–7, sources 8–11, and sources sampled 16–19; R533, R539 (21_edge_die_and_electrical.md); none -/
  pulsed : List Nat
  /-- local tick at which a source's last pulse began; R538, R539 (21_edge_die_and_electrical.md); none -/
  sourceTick : Store (Option Nat)
  /-- local ticks of the last periodic command frame, switch-off turn and supply measurement; R530, R531, R542 (21_edge_die_and_electrical.md); 0 -/
  sendTick : Nat
  turnTick : Nat
  measureTick : Nat
deriving DecidableEq, Repr

/-! ## The whole -/

/-- The device. -/
structure Dev where
  /-- ordering code as TARGET of R180 (1 CQ-2480-A); R2 (00_scope.md); DESIGN CHOICE 1 (log 2) -/
  code : Nat
  time : TimeUnit
  log : FaultLog
  dict : Dict
  cyc : Cycles
  intake : Intake
  pods : Pods
  movers : Store Mover
  mem : Memory
  ddr : Ddr
  prog : Programs
  sched : Sched
  sync : SyncFabric
  cover : Store Coverage
  fus : FusionBlock
  kv : KvCache
  solvers : Store Solver
  hull : Hull
  twin : Twin
  palca : Palca
  power : Power
  start : Startup
  recd : Recorder
  sec : Security
  edge : Edge
  /-- outbox, newest first (the model's own field, log 5); empty -/
  out : List Output
  /-- free-value counter (the model's own field, log 8); DESIGN CHOICE 0 -/
  free : Nat
deriving DecidableEq, Repr

/-- The state: the device and the commands that wait, first in first out. -/
structure State where
  dev : Dev
  pending : List Instr
deriving DecidableEq, Repr

/-- Why a step could stop with a fault. No command of this block stops: the manual gives each of them an effect,
so the type has no constructor and no step ends in a fault. -/
inductive Fault where
deriving DecidableEq, Repr

/-- Why a command could have no meaning. -/
inductive Refusal where
  /-- Raised only by an arm of exec that has no meaning yet; safe, since nothing can then be proved of the command. -/
  | notModelled (mnemonic : String)
deriving DecidableEq, Repr

/-- The result of a command. -/
abbrev Out := Host.Outcome State Fault Refusal

/-- The device right after power-on reset, before any command: OFF, everything at its reset value. -/
def Dev.reset : Dev :=
  { code := 1, time := .reset,
    log := { entries := [], seq := 0, overwritten := 0 },
    dict := { vals := [], evs := [], counters := [] },
    cyc := { number := 0, tv := 0, next := none, first := 0, stretch := none, flight := [] },
    intake := { slots := [], kins := [], canBad := [], encoders := [], linkUp := [], cfgFailed := [], cfgTick := [], entry := 0,
                gated := false, dropped := 0, deliv := [] },
    pods := { pods := [], due := none, lastDue := 0, stalled := false, lastRotation := 0, lost := [], replace := none, meshDown := [], coreDown := [],
              resends := [] },
    movers := [],
    mem := { bytes := [], poisoned := [], backs := [], corrected := [], spares := [], spared := [], faulty := [],
             testing := [], hits := [], tested := 0 },
    ddr := { gb16 := true, stored := none, repairs := [], doubled := false, training := 0, rate := 6400, patrol := 0, passStart := 0, lastPass := 0, late := false, badRows := [],
             weakRows := [], repaired := 0, hot := false, coolSince := none, selfRefresh := false, lanes := [], oscTick := 0, zqTick := 0, tempTick := 0 },
    prog := { slots := [], active := none, prog := none, selActive := none, selTrial := none, selFallback := none,
              lastDigest := none, activating := none, loadSlot := none, committed := false },
    sched := { tables := [], passes := [], idle := [], claims := [] },
    sync := { objs := [], waiters := [] },
    cover := [],
    fus := { copy0 := .reset, copy1 := .reset, cand := .reset, unmaskReq := [], zeroReq := [], geometry := false,
             maskChange := false, savedCalib := [], savedAt := 0 },
    kv := { recs := [], hotRuns := [], poolRuns := [], hotRetired := [], poolRetired := [], backs := [], masked := [],
            freePool := 0 },
    solvers := [],
    hull := { g := 0, tier := 3, latch := true, needReset := false, stopCause := 0, rel := [0, 0, 0], zones := 0,
              pairTiers := [], zoneTier := 0, sp := [], discards := 0, genFault := none, fault := false, demands := [], exceeded := [],
              stale := [], pinA := false, pinB := false, override := true, offDelay := [], offDone := [0, 1, 2, 3],
              statusSeq := 0, statusTick := 0, cmdSeq := none, cmdTick := 0, sawClear := false, watchdog := false,
              press := [], lastCycle := 0, lastDiscarded := false, lastTv := 0, firstCommit := false, darkA := 0, darkB := 0 },
    twin := { up := false, partner := 0, txSeq := 0, rxSeq := none, lastUsed := 0, offset := 0, unpaired := 0,
              discrepant := 0, tolBad := 0, tolGood := 0, seen := false, discovering := false, own := [], theirs := [],
              theirVals := [], since := none, checkFailed := false, beatTick := 0, idTick := 0, trainTick := 0 },
    palca := { kept := [], held := [], transfers := [], subs := [], up := [], seqs := [], sending := [], inForce := [],
               waiting := [], waitingOut := [], echoes := [], spiQueue := [], spiStatus := none, spiOverflow := false, spiCounts := [],
               lastTo := 0, logRead := [] },
    power := { state := .off, target := none, resetKind := 0, retained := [], wdCount := 0, wdStep := 0,
               ldoNormal := false, crystal := false, enIod := false, enCore := false, enDdr := false, pwrOk := false,
               resetN := true, vhusk := false, coreTemp := 0x190000, iodTemp := 0x190000, coolCore := true, coolIod := true,
               setMv := 750, avsFails := [], avsFault := [], avsOk := none, avsTick := 0, tempTick := 0, epochTick := 0, stepTick := 0, refTick := 0, grants := [], clocks := [], turn := 0,
               floorOk := none, droops := [], droopEpoch := false },
    start := { step := none, last := 0, due := false, firmware := 0, stepping := 0x4131, bootRom := true, readyAtMost := false, edgeFound := false, attempts := 0,
               held := false, supplies := [], supplyTick := 0, stepTick := 0, repair := [] },
    recd := { cycles := [], blocks := [], refresh := [], bad := 0, spares := 32, sparesAtFormat := 32, lowRaised := false,
              capacity := 16384, chips := 1, blockMiB := 16, ringBlocks := 820,
              luns := 1, pageKiB := 16, readRetry := true, formatted := false, bootAged := [], remap := [], pages := [], heads := [], work := [], running := [], lateReads := [], again := [],
              wseq := 0, jseq := 0, store := [], control := [], ringPos := 0, segStart := [], flush := false, segTick := 0, segment := 1, data := [], records := 0, prevH := 0, sealing := none, sealed := [],
              staged := 0, context := [], capture := none, lastScan := 0, lastWear := 0, lastJournal := 0 },
    sec := { serial := 0, fingerprint := 0, secret := 0, voltages := 0, macs := [], valid := [], revoked := [], keys := [], field := false, floor := 0,
             stageFloor := 0, fwSec := 0, epochs := 0, block := none, leaf := 0, reserved := none, reserving := none, retryTick := 0, failed := false,
             traversal := false, nonce := none, nonceTick := none, signing := none, waiting := none, message := [],
             commissioned := 0, partner := 0, debug := false, scope := 0 },
    edge := { sq := [], terminals := 0, pairs := [], hullPairs := [], supplies := [], turns := [], cmdTick := 0,
              statusTick := 0, lost := false, errors := 0, vedge := 0, vsens := 0, temp := 0x190000, hot := false,
              coolSince := none, vsensOver := false, vsensOk := none, vedgeOk := none, reports := [], vedgeBad := none, frameTick := 0, pulsed := [],
              sourceTick := [], sendTick := 0, turnTick := 0, measureTick := 0 },
    out := [], free := 0 }

/-- The machine right after reset, with no command waiting. -/
def State.reset : State := { dev := .reset, pending := [] }

end Sys2Proof.Machine
end

