-- ==== Sys2Proof/Machine/Store.lean ====
section
/-! DEFINITION. Reading and writing a sparse table (Word.lean, Store): the one place where the canonical
form is kept. `dflt` is what an unlisted number reads as. -/

namespace Sys2Proof.Machine

/-- The entry of number `k`. -/
def kget {α : Type} (dflt : α) : Store α → Nat → α
  | [], _ => dflt
  | (k', v) :: t, k => if k' = k then v else kget dflt t k

/-- Lists number `k` with a value: the list stays sorted. -/
def kput {α : Type} : Store α → Nat → α → Store α
  | [], k, v => [(k, v)]
  | (k', v') :: t, k, v =>
    if k < k' then (k, v) :: (k', v') :: t else if k = k' then (k, v) :: t else (k', v') :: kput t k v

/-- Writes number `k`: the value an unlisted number reads as is not listed. -/
def kset {α : Type} [DecidableEq α] (dflt : α) (m : Store α) (k : Nat) (v : α) : Store α :=
  if v = dflt then m.filter (fun e => decide (e.1 ≠ k)) else kput m k v

/-- Applies `f` to the entry of number `k`. -/
def kmod {α : Type} [DecidableEq α] (dflt : α) (m : Store α) (k : Nat) (f : α → α) : Store α :=
  kset dflt m k (f (kget dflt m k))

/-- Every number of a listed table is at least `lo`, rising, and no entry is the default. -/
def kwfFrom {α : Type} [DecidableEq α] (dflt : α) : Nat → Store α → Bool
  | _, [] => true
  | lo, (k, v) :: t => decide (lo ≤ k) && decide (v ≠ dflt) && kwfFrom dflt (k + 1) t

/-- The canonical form: numbers strictly rising, no entry equal to the default. -/
def kwf {α : Type} [DecidableEq α] (dflt : α) (m : Store α) : Bool := kwfFrom dflt 0 m

/-- A set of numbers: a sorted list without repeats. -/
def sins (k : Nat) : List Nat → List Nat
  | [] => [k]
  | a :: t => if k < a then k :: a :: t else if k = a then a :: t else a :: sins k t

/-- Removes a number from a set. -/
def sdel (k : Nat) (l : List Nat) : List Nat := l.filter (fun a => decide (a ≠ k))

/-- Updates one place of a list; a place past its end changes nothing. -/
def lmod {α : Type} (l : List α) (i : Nat) (f : α → α) : List α :=
  match l, i with
  | [], _ => []
  | a :: t, 0 => f a :: t
  | a :: t, n + 1 => a :: lmod t n f

end Sys2Proof.Machine
end

