-- ==== Sys2Proof/Machine/Dictionary.lean ====
section
/-! DEFINITION. The object dictionary as a table (16_dictionary_reference.md and the object tables of the other
chapters): type, access class, default and range of every object, and the stored values of those that hold one. -/

namespace Sys2Proof.Machine

/-- Object types with the width of one element in bytes (R5, R403, R428). -/
inductive DTy where
  | num (bytes : Nat)
  | str (len : Nat)
  | blob (len : Nat)
  | blobVar
  | arr (count bytes : Nat)
  | ev
deriving DecidableEq, Repr

/-- Access classes (R12). -/
inductive Acc where
  | ro | rw | rwr | rwp | wo | ev
deriving DecidableEq, Repr

/-- Forms of the Default column (R429). -/
inductive DDef where
  | num (v : Nat)
  | list (v : List Nat)
  /-- from the active package; 0 before any activation -/
  | package
  /-- from OTP, or computed by the device -/
  | none
deriving DecidableEq, Repr

/-- The range the table gives. -/
inductive Chk where
  | any
  | upTo (hi : Nat)
  | between (lo hi : Nat)
  | signed (lo hi : Int)
  | oneOf (vals : List Nat)
  | upToOr (hi other : Nat)
  /-- every element of the array lies between the bounds -/
  | each (lo hi : Nat)
deriving DecidableEq, Repr

/-- One row: indices ilo to ihi, subindices slo to shi. -/
structure DRow where
  ilo : Nat
  ihi : Nat
  slo : Nat
  shi : Nat
  ty : DTy
  acc : Acc
  dflt : DDef
  chk : Chk
deriving DecidableEq, Repr

/-- A number object. -/
def dn (ilo ihi slo shi bytes : Nat) (acc : Acc) (v : Nat) (chk : Chk := .any) : DRow :=
  ⟨ilo, ihi, slo, shi, .num bytes, acc, .num v, chk⟩
/-- A number object with no fixed default. -/
def dc (ilo ihi slo shi bytes : Nat) (acc : Acc) : DRow := ⟨ilo, ihi, slo, shi, .num bytes, acc, .none, .any⟩
/-- A number object whose default is the package's. -/
def dp (ilo ihi slo shi bytes : Nat) (acc : Acc) (chk : Chk := .any) : DRow :=
  ⟨ilo, ihi, slo, shi, .num bytes, acc, .package, chk⟩
/-- Event objects. -/
def de (ilo ihi slo shi : Nat) : DRow := ⟨ilo, ihi, slo, shi, .ev, .ev, .none, .any⟩

/-- Identity, host link and streams (R424, R435). -/
def rowsHost : List DRow :=
  [dn 0x1000 0x1000 0 0 4 .ro 0x43512480, ⟨0x1008, 0x1008, 0, 0, .str 16, .ro, .none, .any⟩,
   ⟨0x1009, 0x1009, 0, 0, .str 2, .ro, .none, .any⟩, dc 0x100A 0x100A 0 0 4 .ro,
   dc 0x1010 0x1010 1 2 8 .ro,
   dn 0x1011 0x1012 1 1 1 .rwp 1 (.upTo 1), dn 0x1011 0x1012 2 2 4 .rwp 0, dn 0x1011 0x1012 3 3 1 .rwp 24 (.between 1 30),
   dn 0x1011 0x1012 4 4 4 .rwp 0, ⟨0x1011, 0x1012, 5, 5, .blob 16, .rwp, .list (List.replicate 16 0), .any⟩,
   dn 0x1011 0x1012 6 6 1 .rwp 64 (.between 1 127), dn 0x1011 0x1012 7 7 2 .rwp 0 (.upTo 4094),
   dn 0x1011 0x1012 8 8 1 .ro 0, dn 0x1011 0x1012 9 9 1 .ro 0, dn 0x1011 0x1012 0x0A 0x0A 2 .rwp 850 (.between 100 950),
   de 0x1011 0x1012 0x0B 0x0B, dn 0x1011 0x1012 0x0C 0x0C 8 .ro 0,
   dn 0x1013 0x1013 1 1 1 .rwp 3 (.upTo 7), dn 0x1013 0x1013 2 2 1 .rwp 5 (.upTo 7), dn 0x1013 0x1013 3 3 1 .rwp 6 (.upTo 7),
   dn 0x1018 0x1018 1 1 4 .ro 0x00445752, dc 0x1018 0x1018 2 3 4 .ro, dc 0x1018 0x1018 4 4 8 .ro,
   ⟨0x1020, 0x1020, 1, 4, .blob 20, .rwp, .list (List.replicate 20 0), .any⟩,
   dn 0x1030 0x1030 1 1 1 .ro 0, dn 0x1030 0x1030 2 2 2 .rwp 60 (.between 10 3600),
   ⟨0x1030, 0x1030, 3, 3, .arr 64 4, .rwp, .list (List.replicate 64 0), .any⟩, de 0x1031 0x1031 1 1,
   dp 0x1100 0x113F 1 1 1 .rwr, dp 0x1100 0x113F 2 2 1 .rwr (.upTo 6), dp 0x1100 0x113F 3 3 1 .rwr (.upTo 3),
   ⟨0x1100, 0x113F, 4, 4, .blob 16, .rwr, .package, .any⟩, dp 0x1100 0x113F 5 5 2 .rwr,
   dn 0x1100 0x113F 6 6 1 .rwr 1 (.between 1 255), dp 0x1100 0x113F 7 7 2 .rwr, dn 0x1100 0x113F 8 8 8 .ro 0,
   de 0x1100 0x113F 9 9, dn 0x1100 0x113F 0x0A 0x0A 4 .ro 0]

/-- Device state, Pods, movers, memory, scheduling (R119, R144, R172, R220, R408, R436). -/
def rowsDevice : List DRow :=
  [dc 0x2000 0x2000 1 1 1 .ro, dn 0x2000 0x2000 2 2 1 .wo 0 (.between 1 4), dc 0x2000 0x2000 3 4 1 .ro,
   dn 0x2000 0x2000 5 5 1 .wo 0 (.oneOf [1]), dn 0x2000 0x2000 6 6 1 .wo 0 (.oneOf [1]), dc 0x2000 0x2000 7 7 8 .ro,
   de 0x2000 0x2000 8 8, dn 0x2001 0x2001 1 1 1 .rwp 0 (.upTo 1),
   dn 0x2020 0x2020 1 0x19 1 .ro 0, dc 0x2021 0x2021 1 0x18 1 .ro, de 0x2022 0x2022 1 0x19,
   de 0x2023 0x2024 1 0x1B, dn 0x2025 0x2025 1 0x1B 8 .ro 0,
   dn 0x2030 0x2030 1 1 2 .rwp 6400 (.oneOf [4800, 5600, 6400]), dc 0x2030 0x2030 2 2 4 .ro, dn 0x2030 0x2030 3 4 1 .ro 0,
   dn 0x2030 0x2030 5 5 4 .rwp 3600 (.between 600 3600), dn 0x2030 0x2030 6 6 4 .ro 0,
   dn 0x2030 0x2030 7 7 1 .rwp 4 (.between 1 255), dn 0x2031 0x2031 1 0x21 8 .ro 0, de 0x2032 0x2032 1 4,
   dn 0x2033 0x2033 1 1 2 .ro 0, dn 0x2033 0x2033 2 2 8 .ro 0, dn 0x2033 0x2033 3 3 2 .ro 0,
   dn 0x2040 0x2040 1 1 4 .rwp 20 (.between 1 1000), dn 0x2040 0x2040 2 2 4 .rwp 100 (.between 1 1000),
   dn 0x2040 0x2040 3 3 4 .rwp 4096 (.between 256 65536), de 0x2040 0x2040 4 7]

/-- Slots, channels, intake, supplies, time (R56, R84, R437). -/
def rowsSense : List DRow :=
  [dn 0x3000 0x300F 1 1 1 .rwr 0, dc 0x3000 0x300F 2 2 1 .rwr, dn 0x3000 0x300F 3 3 1 .rwr 0 (.upTo 15),
   dn 0x3000 0x300F 4 4 8 .rwr 0, dn 0x3000 0x300F 5 6 1 .ro 0, dn 0x3000 0x300F 7 7 2 .rwr 16,
   dn 0x3000 0x300F 8 8 1 .rwr 3 (.between 1 255), dn 0x3000 0x300F 9 9 4 .rwr 20000000, dp 0x3000 0x300F 0x10 0x10 8 .rwr,
   dn 0x3000 0x300F 0x20 0x20 1 .rwp 0xFF (.upToOr 15 0xFF), dn 0x3000 0x300F 0x21 0x21 4 .rwp 2000000,
   dn 0x3000 0x300F 0x22 0x23 4 .rwp 0, dn 0x3000 0x300F 0x24 0x24 4 .rwp 100000 (.between 1000 10000000),
   dn 0x3000 0x300F 0x25 0x25 1 .rwp 1 (.between 1 8), dn 0x3000 0x300F 0x26 0x27 4 .rwp 0,
   dn 0x3000 0x300F 0x28 0x28 4 .rwp 5000000, de 0x3000 0x300F 0x31 0x35,
   ⟨0x3000, 0x300F, 0x36, 0x36, .arr 3 4, .ro, .list [0, 0, 0], .any⟩,
   dn 0x3100 0x311F 1 1 1 .rwr 0xFF, dn 0x3100 0x311F 2 2 4 .rwr 0, dn 0x3100 0x311F 3 3 4 .rwr 0x1FFFFFFF,
   dn 0x3100 0x311F 4 4 4 .rwr 1000000 (.between 50000 100000000), dn 0x3100 0x311F 5 5 4 .rwr 0,
   dn 0x3100 0x311F 6 6 4 .rwr 10000 (.upTo 25000), dn 0x3100 0x311F 7 7 8 .rwr 0, dn 0x3100 0x311F 8 0x0F 4 .rwr 0,
   dn 0x3100 0x311F 0x20 0x20 4 .rwp 0, de 0x3100 0x311F 0x31 0x32,
   ⟨0x3100, 0x311F, 0x36, 0x36, .arr 3 4, .ro, .list [0, 0, 0], .any⟩,
   dn 0x3200 0x3200 1 1 1 .rwr 64 (.between 1 64), dn 0x3200 0x3200 8 0x0B 1 .rwr 0, dp 0x3200 0x3200 0x10 0x4F 2 .rwr,
   dn 0x3300 0x3300 1 0x10 1 .rwp 0 (.upTo 1), dn 0x3301 0x3301 1 0x10 1 .ro 0, de 0x3302 0x3302 0 0,
   dn 0x4000 0x4000 1 1 1 .ro 3, dc 0x4000 0x4000 2 2 8 .ro, dn 0x4000 0x4000 3 3 8 .ro 0x280000000,
   dn 0x4000 0x4000 4 4 2 .rwp 50 (.between 1 500), dn 0x4000 0x4000 5 5 1 .ro 0xFF, dn 0x4000 0x4000 6 6 1 .rwp 0 (.upTo 1),
   dn 0x4000 0x4000 7 7 4 .rwp 10, dn 0x4000 0x4000 8 9 4 .rwp 500, dn 0x4000 0x4000 0x0A 0x0B 4 .rwp 10000,
   dn 0x4000 0x4000 0x0C 0x0C 4 .ro 0, de 0x4000 0x4000 0x0D 0x0D, dn 0x4000 0x4000 0x10 0x15 4 .rwp 0,
   dn 0x4000 0x4000 0x18 0x18 1 .rwp 0, dn 0x4000 0x4000 0x19 0x19 4 .rwp 0xFFFFFFFD (.signed (-7) 0),
   dc 0x4000 0x4000 0x1A 0x1A 1 .rwp, dn 0x4010 0x4011 1 1 1 .rwp 1, ⟨0x4010, 0x4011, 2, 2, .num 1, .rwp, .none, .upTo 127⟩,
   dn 0x4010 0x4011 3 3 1 .ro 0, dn 0x4010 0x4011 4 4 1 .ro 0xFF, dn 0x4010 0x4011 5 6 4 .ro 0, dn 0x4010 0x4011 7 7 8 .ro 0,
   dn 0x4010 0x4011 8 9 4 .ro 0, de 0x4010 0x4011 0x0A 0x0A]

/-- Cycle, grid, calibration, health, attention (R251, R252, R253, R279, R438, R220). -/
def rowsFusion : List DRow :=
  [dn 0x5000 0x5000 1 1 4 .rwr 10000 (.between 5000 50000), dn 0x5000 0x5000 2 2 4 .rwr 2500,
   dn 0x5000 0x5000 3 3 1 .rwr 2 (.between 1 3), dn 0x5000 0x5000 4 4 4 .rwp 15000 (.between 5000 100000),
   dn 0x5000 0x5000 5 5 8 .ro 0, dp 0x5000 0x5000 6 7 4 .ro,
   dp 0x5010 0x5010 1 1 2 .ro, dn 0x5010 0x5010 2 2 2 .rwr 25 (.between 10 200), dp 0x5010 0x5010 3 3 2 .ro,
   dp 0x5010 0x5010 4 4 1 .ro, dn 0x5010 0x5010 5 5 2 .rwr 100 (.between 10 500),
   ⟨0x5010, 0x5010, 6, 6, .arr 3 4, .rwr, .list [0, 0, 0], .any⟩, dp 0x5010 0x5010 7 7 2 .ro, dp 0x5010 0x5010 8 0x0A 1 .ro,
   dn 0x5010 0x5010 0x0B 0x0B 1 .rwr 20, dn 0x5010 0x5010 0x0C 0x0D 1 .rwr 128, dn 0x5010 0x5010 0x0E 0x0E 1 .rwr 40 (.between 1 63),
   dn 0x5010 0x5010 0x0F 0x0F 1 .rwr 20 (.between 1 63), dn 0x5010 0x5010 0x10 0x10 4 .rwr 50000,
   ⟨0x5010, 0x5010, 0x11, 0x11, .arr 3 2, .rwr, .list [128, 64, 32], .each 1 256⟩,
   dn 0x5010 0x5010 0x12 0x12 2 .rwr 2000 (.between 500 5000), de 0x5010 0x5010 0x13 0x13,
   ⟨0x5100, 0x510F, 1, 2, .arr 3 4, .rwp, .list [0, 0, 0], .any⟩, ⟨0x5100, 0x510F, 3, 3, .arr 4 4, .rwp, .list [0, 0, 0, 0], .any⟩,
   ⟨0x5100, 0x510F, 4, 5, .arr 3 4, .ro, .list [0, 0, 0], .any⟩, dn 0x5100 0x510F 6 6 1 .rwp 1, dn 0x5100 0x510F 7 7 4 .rwp 20000,
   dn 0x5100 0x510F 8 8 4 .rwp 50, dn 0x5100 0x510F 9 9 4 .rwp 5000, dn 0x5100 0x510F 0x0A 0x0A 4 .rwp 10000,
   dn 0x5100 0x510F 0x0B 0x0B 4 .ro 0, dn 0x5100 0x510F 0x0C 0x0C 4 .rwp 15000, de 0x5100 0x510F 0x0D 0x0D,
   dn 0x5100 0x510F 0x0E 0x0E 1 .wo 0 (.oneOf [1]), dn 0x5100 0x510F 0x0F 0x0F 2 .rwp 200,
   dn 0x5200 0x5200 0x11 0x11 1 .rwp 20, dn 0x5200 0x5200 0x12 0x12 1 .rwp 10, dn 0x5200 0x5200 0x13 0x13 2 .rwp 256,
   dn 0x5200 0x5200 0x14 0x14 1 .rwp 5 (.between 1 255), dn 0x5200 0x5200 0x15 0x15 2 .rwp 100,
   dn 0x5200 0x5200 0x16 0x16 1 .rwp 1 (.upTo 1), dn 0x5200 0x5200 0x17 0x17 2 .rwp 64, dn 0x5200 0x5200 0x18 0x18 1 .rwp 10,
   dn 0x5200 0x5200 0x19 0x19 1 .rwp 96, dn 0x5200 0x5200 0x1A 0x1A 1 .rwp 64, dn 0x5200 0x5200 0x1B 0x1B 2 .rwp 100,
   de 0x5200 0x5200 0x20 0x20, dn 0x5201 0x5201 1 0x10 1 .ro 255, dn 0x5202 0x5202 1 0x10 1 .ro 0,
   dn 0x5203 0x5203 1 0x10 1 .wo 0 (.oneOf [1]),
   dp 0x5800 0x5800 1 1 1 .ro, dp 0x5800 0x5800 2 4 4 .ro, dp 0x5800 0x5800 5 0x0B 1 .ro, dp 0x5800 0x5800 0x0C 0x0C 2 .ro,
   dp 0x5800 0x5800 0x0D 0x0D 1 .ro, dc 0x5800 0x5800 0x10 0x10 4 .ro, dn 0x5800 0x5800 0x11 0x11 4 .ro 0, de 0x5800 0x5800 0x12 0x12,
   dn 0x5800 0x5800 0x13 0x13 8 .ro 0, de 0x5800 0x5800 0x14 0x16, dn 0x5800 0x5800 0x17 0x17 8 .ro 0, de 0x5800 0x5800 0x18 0x18,
   dn 0x5801 0x5801 1 0x18 1 .ro 0]

/-- Tracks, assignment, solvers (R304, R330). -/
def rowsTracks : List DRow :=
  [dn 0x6000 0x6000 1 1 2 .ro 12288, dp 0x6000 0x6000 2 2 1 .ro, dn 0x6000 0x6000 3 3 1 .rwr 0, dn 0x6000 0x6000 4 4 4 .ro 1,
   de 0x6000 0x6000 5 6, dp 0x6001 0x6008 1 3 2 .ro, dp 0x6001 0x6008 4 4 1 .ro, dn 0x6001 0x6008 5 5 1 .rwr 3 (.between 1 255),
   dn 0x6001 0x6008 6 6 1 .rwr 2 (.between 1 255), dn 0x6001 0x6008 7 7 1 .rwr 20 (.between 1 255),
   dn 0x6001 0x6008 8 8 2 .rwr 2500 (.between 100 10000), dn 0x6001 0x6008 9 9 2 .rwr 200 (.upTo 2000),
   dn 0x6001 0x6008 0x0A 0x0A 4 .rwr 743178, dn 0x6001 0x6008 0x0B 0x0C 4 .rwr 524288, dn 0x6001 0x6008 0x0D 0x0D 4 .rwr 131072,
   dn 0x6001 0x6008 0x0E 0x0E 4 .rwr 33554432, dn 0x6001 0x6008 0x0F 0x0F 2 .rwr 500, dn 0x6001 0x6008 0x10 0x10 1 .rwr 160,
   dp 0x6001 0x6008 0x11 0x11 1 .ro, dn 0x6001 0x6008 0x12 0x12 1 .ro 0, dn 0x6001 0x6008 0x13 0x13 2 .ro 0,
   de 0x6001 0x6008 0x14 0x16, dn 0x6001 0x6008 0x17 0x17 2 .ro 0, dp 0x6001 0x6008 0x18 0x18 1 .ro,
   dp 0x6010 0x6010 1 2 4 .ro, dp 0x6010 0x6010 3 4 1 .ro, dp 0x6010 0x6010 5 5 2 .ro, de 0x6010 0x6010 6 6,
   dn 0x6010 0x6010 7 7 8 .ro 0, de 0x6800 0x6800 1 6, dn 0x6801 0x6801 1 4 1 .ro 0, de 0x6802 0x6802 1 4]

/-- Safety (R363 to R366, R416, R439). -/
def rowsSafety : List DRow :=
  [dc 0x7000 0x7000 1 1 4 .ro, dn 0x7000 0x7000 2 2 4 .rwp 0, dn 0x7000 0x7000 3 3 1 .ro 3, dn 0x7000 0x7000 4 4 1 .rwr 1 (.upTo 3),
   dn 0x7000 0x7000 5 5 2 .rwr 10 (.between 1 1000), dn 0x7000 0x7000 6 6 1 .rwr 1 (.upTo 1), dn 0x7000 0x7000 7 7 1 .rwr 2 (.upTo 3),
   dn 0x7000 0x7000 8 8 2 .rwr 1000, dn 0x7000 0x7000 9 9 2 .rwr 250, dn 0x7000 0x7000 0x0A 0x0A 4 .rwr 200000,
   dn 0x7000 0x7000 0x0B 0x0B 2 .rwr 50, dn 0x7000 0x7000 0x0C 0x0C 1 .rwr 3 (.upTo 3), dc 0x7000 0x7000 0x0D 0x0D 4 .ro,
   dn 0x7000 0x7000 0x0E 0x0E 1 .rwr 1, de 0x7000 0x7000 0x0F 0x10, dn 0x7000 0x7000 0x11 0x11 2 .ro 0, dn 0x7000 0x7000 0x12 0x12 1 .ro 0,
   dn 0x7000 0x7000 0x13 0x13 4 .rwr 0, dn 0x7000 0x7000 0x14 0x14 2 .rwr 10 (.between 1 100),
   dn 0x7010 0x704F 1 1 1 .rwr 0 (.upTo 5), dn 0x7010 0x704F 2 2 1 .rwr 0 (.oneOf [0, 3, 4, 5, 6, 7, 8, 9, 10, 11, 12, 13, 14, 15, 16]),
   ⟨0x7010, 0x704F, 3, 3, .arr 32 4, .rwr, .list (List.replicate 32 0), .any⟩, dn 0x7010 0x704F 4 4 2 .rwr 1 (.between 1 1024),
   dn 0x7010 0x704F 5 5 1 .rwr 0xFF (.upToOr 7 0xFF), dn 0x7010 0x704F 6 6 1 .ro 0,
   dn 0x7100 0x7100 1 1 1 .rwr 0, dn 0x7100 0x7100 2 2 1 .rwr 0 (.upTo 1), dn 0x7100 0x7100 4 4 1 .rwr 3 (.between 1 10),
   dn 0x7100 0x7100 5 5 2 .rwr 50, dn 0x7100 0x7100 6 6 1 .rwr 13, dn 0x7100 0x7100 7 7 1 .rwr 5, dn 0x7100 0x7100 8 8 1 .rwr 2 (.upTo 3),
   dn 0x7100 0x7100 9 9 1 .rwr 3 (.upTo 3), dn 0x7100 0x7100 0x0A 0x0A 4 .rwr 2000, dn 0x7100 0x7100 0x0B 0x0B 1 .ro 0,
   de 0x7100 0x7100 0x0C 0x0C,
   dn 0x7200 0x7200 1 4 1 .rwr 1 (.upTo 4), dn 0x7200 0x7200 5 8 2 .rwr 0 (.upTo 10000), dn 0x7200 0x7200 9 0x0C 1 .ro 0,
   dn 0x7200 0x7200 0x0D 0x0D 2 .rwr 300 (.between 50 300), de 0x7200 0x7200 0x0E 0x0E,
   dc 0x7201 0x7201 1 2 2 .ro, dc 0x7201 0x7201 3 3 4 .ro, dn 0x7201 0x7201 4 4 4 .ro 0, de 0x7201 0x7201 5 5,
   dn 0x7300 0x7300 1 8 1 .rwr 0 (.upTo 5), dn 0x7300 0x7300 9 0x10 2 .rwr 100 (.between 5 2000), dn 0x7300 0x7300 0x11 0x18 1 .ro 0,
   dn 0x7300 0x7300 0x19 0x19 2 .ro 0, de 0x7300 0x7300 0x1A 0x1A,
   dn 0x7400 0x74FF 1 1 1 .rwr 0 (.upTo 2), dn 0x7400 0x74FF 2 2 1 .rwr 0 (.upTo 63), dn 0x7400 0x74FF 3 3 1 .rwr 0 (.upTo 7),
   dn 0x7400 0x74FF 4 4 1 .rwr 0 (.upTo 15), dn 0x7400 0x74FF 5 5 1 .rwr 0xFF (.upToOr 31 0xFF), dn 0x7400 0x74FF 6 6 1 .rwr 0 (.upTo 7),
   dn 0x7400 0x74FF 7 7 2 .rwr 2000, dn 0x7400 0x74FF 8 8 4 .rwr 20000, dn 0x7400 0x74FF 9 9 2 .rwr 1600, dn 0x7400 0x74FF 0x0A 0x0B 4 .rwr 0,
   dn 0x7400 0x74FF 0x0C 0x0D 2 .rwr 0, dn 0x7400 0x74FF 0x0E 0x0E 1 .rwr 48, dn 0x7400 0x74FF 0x0F 0x0F 2 .rwr 200,
   dn 0x7400 0x74FF 0x10 0x10 2 .rwr 400, dn 0x7400 0x74FF 0x11 0x11 1 .ro 0, dn 0x7400 0x74FF 0x12 0x12 4 .ro 0]

/-- Power, storage, security, diagnostics, packages (R198, R220, R393, R440 to R442). -/
def rowsSystem : List DRow :=
  [dn 0x8000 0x8000 1 1 2 .rwp 560 (.between 200 560), dp 0x8000 0x8000 2 2 2 .ro, dc 0x8000 0x8000 3 3 2 .ro, dc 0x8000 0x8000 4 5 4 .ro,
   dn 0x8000 0x8000 6 6 8 .ro 0, de 0x8000 0x8000 7 8, dn 0x8010 0x8010 1 1 1 .rwp 1 (.upTo 1),
   dn 0x8010 0x8010 2 2 4 .rwp 500 (.between 100 100000), dn 0x8010 0x8010 3 3 1 .rwp 4 (.oneOf [3, 4]),
   dc 0x9000 0x9000 1 1 4 .ro, dc 0x9000 0x9000 2 2 1 .ro, dc 0x9000 0x9000 3 4 4 .ro, dn 0x9000 0x9000 5 5 1 .rwp 1,
   dn 0x9000 0x9000 6 6 2 .rwp 10 (.between 1 60), dn 0x9000 0x9000 7 7 2 .rwp 5 (.between 1 60), dn 0x9000 0x9000 8 8 2 .ro 60,
   dc 0x9000 0x9000 9 9 4 .ro, de 0x9000 0x9000 0x0A 0x0A, dn 0x9010 0x9010 1 1 4 .rw 0,
   ⟨0x9010, 0x9010, 2, 2, .blobVar, .ro, .none, .any⟩, dc 0x9010 0x9010 3 4 4 .ro,
   ⟨0xA000, 0xA000, 1, 1, .blob 32, .ro, .none, .any⟩, ⟨0xA000, 0xA000, 2, 2, .blob 32, .wo, .none, .any⟩,
   ⟨0xA000, 0xA000, 3, 3, .blobVar, .ro, .none, .any⟩, dc 0xA000 0xA000 4 5 8 .ro, ⟨0xA000, 0xA000, 6, 6, .arr 4 1, .ro, .none, .any⟩,
   ⟨0xA000, 0xA000, 7, 7, .blobVar, .wo, .none, .any⟩, ⟨0xA000, 0xA000, 8, 9, .blob 32, .ro, .none, .any⟩,
   dn 0xA000 0xA000 0x0A 0x0A 1 .ro 0, ⟨0xA000, 0xA000, 0x0B, 0x0B, .blobVar, .wo, .none, .any⟩, dc 0xA000 0xA000 0x0C 0x0C 4 .ro,
   de 0xA000 0xA000 0x0D 0x0D,
   dn 0xB000 0xB000 1 2 8 .ro 0, de 0xB000 0xB000 3 3, dn 0xB000 0xB000 4 5 8 .ro 0, de 0xB000 0xB000 6 6, dn 0xB000 0xB000 7 8 8 .ro 0,
   de 0xB000 0xB000 9 9, dn 0xB100 0xB100 1 1 4 .ro 0, dn 0xB100 0xB100 2 2 4 .rw 0, ⟨0xB100, 0xB100, 3, 3, .blobVar, .ro, .none, .any⟩,
   dn 0xB100 0xB100 4 4 4 .ro 0, dn 0xB120 0xB120 1 2 1 .rwp 3 (.oneOf [2, 3]), dn 0xB120 0xB120 3 3 1 .rwp 2 (.oneOf [0, 2, 3]),
   dn 0xB200 0xB200 1 1 4 .rwp 2000, dn 0xB200 0xB200 2 2 4 .rwp 500, dn 0xB200 0xB200 3 3 4 .rwp 2000, dn 0xB200 0xB200 4 4 4 .rwp 10000,
   dn 0xB200 0xB200 5 5 4 .rwp 20000, dn 0xB200 0xB200 6 7 4 .rwp 10000, dn 0xB200 0xB200 8 8 4 .rwp 2000,
   dn 0xB201 0xB201 1 3 4 .ro 10000, dn 0xB201 0xB201 4 7 4 .ro 1000, dn 0xB201 0xB201 8 8 4 .ro 15000, dn 0xB202 0xB202 1 8 4 .ro 0,
   de 0xB203 0xB203 1 8, dn 0xB210 0xB210 1 1 4 .ro 400, dc 0xB210 0xB210 2 2 1 .ro, dn 0xB210 0xB210 3 3 8 .ro 0,
   dn 0xC000 0xC000 1 1 1 .ro 0xFF, dn 0xC000 0xC000 2 3 1 .ro 0, dn 0xC000 0xC000 4 4 1 .wo 0, dn 0xC000 0xC000 5 5 1 .wo 0,
   de 0xC000 0xC000 6 6, dn 0xC000 0xC000 7 7 4 .rwp 0, dn 0xC000 0xC000 9 9 2 .ro 0,
   ⟨0xC001, 0xC002, 1, 1, .blob 32, .ro, .none, .any⟩, dc 0xC001 0xC002 2 2 4 .ro, dc 0xC001 0xC002 3 3 1 .ro, dc 0xC001 0xC002 4 4 4 .ro,
   dc 0xC001 0xC002 5 5 8 .ro, dc 0xC001 0xC002 6 6 1 .ro, dc 0xC001 0xC002 7 7 4 .ro, dn 0xC001 0xC002 8 8 2 .ro 0,
   dn 0xC010 0xC010 1 1 1 .wo 0, ⟨0xC010, 0xC010, 2, 2, .blobVar, .wo, .none, .any⟩, dn 0xC010 0xC010 3 3 4 .ro 0,
   de 0xC020 0xC020 1 1, dn 0xC020 0xC020 2 2 4 .ro 0, dn 0xC030 0xC030 1 1 1 .ro 0]

/-- The dictionary of the CQ-2480-A (R434). -/
def dictRows : List DRow :=
  rowsHost ++ rowsDevice ++ rowsSense ++ rowsFusion ++ rowsTracks ++ rowsSafety ++ rowsSystem

/-- The number a value is stored under. -/
def okey (idx sub : Nat) : Nat := 256 * idx + sub

/-- Slots of the ordering code, as TARGET of R180 (R2). -/
def slotsOf (code : Nat) : Nat := if code = 3 then 8 else if code = 4 then 4 else 16
/-- Pods in service and resting (R2). -/
def podsOf (code : Nat) : Nat := if code = 3 then 9 else if code = 4 then 5 else 25
/-- CSI-2 ports (R2). -/
def csiOf (code : Nat) : Nat := if code = 3 then 6 else if code = 4 then 4 else 12
/-- Sensor Ethernet ports (R2). -/
def senOf (code : Nat) : Nat := if code = 3 then 2 else if code = 4 then 0 else 4
/-- DDR5 channels (R2). -/
def ddrOf (code : Nat) : Nat := if code = 3 then 3 else if code = 4 then 2 else 6
/-- The edge die is present (R2). -/
def hasEdge (code : Nat) : Bool := decide (code ≠ 2)
/-- The Twin link is present (R2). -/
def hasTwin (code : Nat) : Bool := decide (code ≠ 4)

/-- R3, R427: the object exists on the ordering code. -/
def onCode (code idx sub : Nat) : Bool :=
  if 0x3000 ≤ idx ∧ idx ≤ 0x300F then decide (idx - 0x3000 < slotsOf code)
  else if 0x5100 ≤ idx ∧ idx ≤ 0x510F then decide (idx - 0x5100 < slotsOf code)
  else if 0x5201 ≤ idx ∧ idx ≤ 0x5203 then decide (sub ≤ slotsOf code)
  else if idx = 0x3300 ∨ idx = 0x3301 ∨ idx = 0x3302 ∨ idx = 0x7200 ∨ idx = 0x7201 ∨ idx = 0x7300 then hasEdge code
  else if idx = 0x7100 then hasTwin code
  else if idx = 0x2020 ∨ idx = 0x2022 then decide (sub ≤ podsOf code)
  else if idx = 0x2021 then decide (sub ≤ podsOf code - 1)
  else if 0x2023 ≤ idx ∧ idx ≤ 0x2025 then decide (sub ≤ podsOf code) || decide (0x1A ≤ sub)
  else if idx = 0x2031 then decide (if sub ≤ 0x19 then sub ≤ podsOf code else sub ≤ 0x1B + ddrOf code)
  else if idx = 0x3200 ∧ 8 ≤ sub ∧ sub ≤ 0x0B then decide (sub - 8 < senOf code)
  else if idx = 0x4000 ∧ 0x12 ≤ sub ∧ sub ≤ 0x15 then decide (sub - 0x12 < senOf code)
  else if idx = 0x4000 ∧ 0x18 ≤ sub ∧ sub ≤ 0x1A then decide (0 < senOf code)
  else true

/-- The row of an object that the table lists. -/
def rowOf (idx sub : Nat) : Option DRow :=
  dictRows.find? (fun r => r.ilo ≤ idx && idx ≤ r.ihi && r.slo ≤ sub && sub ≤ r.shi)

/-- Highest subindex in use of an index with a set of objects (R426). -/
def highestSub (code idx : Nat) : Nat :=
  (dictRows.filter (fun r => r.ilo ≤ idx && idx ≤ r.ihi)).foldl
    (fun m r => max m (((List.range (r.shi + 1)).filter (fun s => r.slo ≤ s && onCode code idx s)).foldl max 0)) 0

/-- R426: subindex 00 of an index with a set of objects reads the highest subindex in use. -/
def subZeroRow (code idx : Nat) : Option DRow :=
  if 0 < highestSub code idx then some (dn idx idx 0 0 1 .ro (highestSub code idx)) else none

/-- The object of an index and subindex on an ordering code (R3, R426, R434). -/
def objRow (code idx sub : Nat) : Option DRow :=
  if onCode code idx sub then (if sub = 0 then (rowOf idx 0).or (subZeroRow code idx) else rowOf idx sub) else none

/-- Number of elements of a type. -/
def DTy.count : DTy → Nat
  | .num _ => 1
  | .str n => n
  | .blob n => n
  | .blobVar => 0
  | .arr n _ => n
  | .ev => 1

/-- Bytes of one element on the wire (R403). -/
def DTy.width : DTy → Nat
  | .num b => b
  | .str _ => 1
  | .blob _ => 1
  | .blobVar => 1
  | .arr _ b => b
  | .ev => 1

/-- R58: the default source of slot n. -/
def slotSource (code n : Nat) : Nat := if n < csiOf code then n else 0x10 + (n - csiOf code)

/-- The default value of an object (R429). -/
def dfltVal (code idx sub : Nat) : List Nat :=
  if 0x3000 ≤ idx ∧ idx ≤ 0x300F ∧ sub = 2 then [slotSource code (idx - 0x3000)]
  else if idx = 0x4010 ∧ sub = 2 then [0]
  else if idx = 0x4011 ∧ sub = 2 then [1]
  else if idx = 0x4000 ∧ sub = 0x1A then [2 ^ senOf code - 1]
  else match objRow code idx sub with
    | some r => (match r.dflt with
      | .num v => List.replicate r.ty.count v
      | .list v => v
      | .package => List.replicate r.ty.count 0
      | .none => List.replicate r.ty.count 0)
    | none => [0]

/-- The stored value of an object: what was written, or its default. -/
def Dev.cfgList (d : Dev) (idx sub : Nat) : List Nat :=
  if kget [] d.dict.vals (okey idx sub) = [] then dfltVal d.code idx sub else kget [] d.dict.vals (okey idx sub)

/-- The stored number of an object. -/
def Dev.cfg (d : Dev) (idx sub : Nat) : Nat := (d.cfgList idx sub).headD 0

/-- The stored number of a signed object. -/
def Dev.cfgI (d : Dev) (idx sub : Nat) : Int := sgn 32 (d.cfg idx sub)

/-- Stores a value. -/
def Dev.setObj (d : Dev) (idx sub : Nat) (v : List Nat) : Dev :=
  { d with dict := { d.dict with vals := kset [] d.dict.vals (okey idx sub) v } }

/-- R403: the value lies inside the object's range. -/
def Chk.ok (c : Chk) (v : List Nat) : Bool :=
  match c with
  | .any => true
  | .upTo hi => decide (v.headD 0 ≤ hi)
  | .between lo hi => decide (lo ≤ v.headD 0) && decide (v.headD 0 ≤ hi)
  | .signed lo hi => decide (lo ≤ sgn 32 (v.headD 0)) && decide (sgn 32 (v.headD 0) ≤ hi)
  | .oneOf l => l.contains (v.headD 0)
  | .upToOr hi o => decide (v.headD 0 ≤ hi) || decide (v.headD 0 = o)
  | .each lo hi => v.all (fun a => decide (lo ≤ a) && decide (a ≤ hi))

/-- Elements of a value from its wire form, big-endian (R403). -/
def fromWire : Nat → Nat → List Byte → List Nat
  | 0, _, _ => []
  | n + 1, w, l => beNat (l.take w) :: fromWire n w (l.drop w)

/-- The wire form of a value (R403). -/
def toWire (r : DRow) (v : List Nat) : List Byte := v.flatMap (fun a => beBytes r.ty.width a)

end Sys2Proof.Machine
end

