-- ==== Sys2Proof/Machine/Ops.lean ====
section
/-! DEFINITION. The named operations every command is built from: time, objects and events, raising a cause,
records of the recorder, outputs, and the memories. -/

namespace Sys2Proof.Machine

/-! ## The result of a command -/

/-- The device after a command; the waiting commands stay as they are. -/
def State.next (s : State) (d : Dev) : Out := .next { s with dev := d }

/-! ## Time (R31, R33) -/

/-- Integer part of the time counter, ns. -/
def Dev.now (d : Dev) : Nat := d.time.counter.toNat / 2 ^ 32

/-- Local tick count. -/
def Dev.tick (d : Dev) : Nat := d.time.ticks.toNat

/-- Ticks of 2.5 ns in a number of µs. -/
def usTicks (us : Nat) : Nat := us * 400

/-- Ticks in a number of ms. -/
def msTicks (ms : Nat) : Nat := ms * 400000

/-- Ticks in a number of s. -/
def sTicks (s : Nat) : Nat := s * 400000000

/-- Ticks of a number of ns, rounded up. -/
def nsTicks (ns : Nat) : Nat := ceilDiv (ns * 2) 5

/-- Cycle period P in ns (R438). -/
def Dev.period (d : Dev) : Nat := d.cfg 0x5000 1 * 1000

/-- Acceptance margin m in ns (R79). -/
def Dev.margin (d : Dev) : Nat := d.cfg 0x5000 2 * 1000

/-- A free value of use `u`, below `bound` (log 8). -/
def Dev.freeNat (d : Dev) (u bound : Nat) : Nat := Config.freeValue u d.free % bound

/-- Moves the free-value counter on. -/
def Dev.bumpFree (d : Dev) : Dev := { d with free := d.free + 1 }

/-! ## Device state (R443) -/

/-- Code of a state. -/
def PowerState.code : PowerState → Nat
  | .off => 0 | .husk => 1 | .standby => 2 | .ready => 3 | .run => 4

/-- STANDBY or above: the I/O die is powered and past start-up step 2 (R470). -/
def Dev.up (d : Dev) : Bool := decide (2 ≤ d.power.state.code)

/-- In RUN. -/
def Dev.inRun (d : Dev) : Bool := decide (d.power.state = .run)

/-- In READY. -/
def Dev.inReady (d : Dev) : Bool := decide (d.power.state = .ready)

/-- One tick of 2.5 ns of the time unit (R31 to R33): the local tick count and the time counter advance. Nothing
ticks while the I/O die is off. -/
def Dev.tickOnce (d : Dev) : Dev :=
  if d.up then
    { d with time := { d.time with ticks := d.time.ticks + 1, counter := d.time.counter + d.time.inc.zeroExtend 96 } }
  else d

/-! ## Events and counters (R11, R13, R219, R431) -/

/-- `n` occurrences of an event: pending set, count up and wrapping at 2^32. -/
def Dev.occurN (d : Dev) (idx sub n : Nat) : Dev :=
  { d with dict := { d.dict with
      evs := kmod Ev.reset d.dict.evs (okey idx sub) (fun e => { pending := true, count := (e.count + n) % 2 ^ 32 }) } }

/-- One occurrence. -/
def Dev.occur (d : Dev) (idx sub : Nat) : Dev := d.occurN idx sub 1

/-- An event object. -/
def Dev.ev (d : Dev) (idx sub : Nat) : Ev := kget Ev.reset d.dict.evs (okey idx sub)

/-- Clears a pending bit (R407). -/
def Dev.clearEv (d : Dev) (idx sub : Nat) : Dev :=
  { d with dict := { d.dict with evs := kmod Ev.reset d.dict.evs (okey idx sub) (fun e => { e with pending := false }) } }

/-- Adds to a counter object; a U64 counter stops at its maximum (R431). -/
def Dev.countN (d : Dev) (idx sub n : Nat) : Dev :=
  { d with dict := { d.dict with counters := kmod 0 d.dict.counters (okey idx sub) (fun c => satU 64 (c + n)) } }

/-- Adds one to a counter object. -/
def Dev.count (d : Dev) (idx sub : Nat) : Dev := d.countN idx sub 1

/-- A counter object. -/
def Dev.counter (d : Dev) (idx sub : Nat) : Nat := kget 0 d.dict.counters (okey idx sub)

/-! ## Outputs -/

/-- Puts an output into the outbox (log 5). -/
def Dev.emit (d : Dev) (k : OutKind) (unit : Nat) (data : List Nat) : Dev :=
  { d with out := { kind := k, unit := unit, tag := 0, data := data } :: d.out }

/-- TCI of the tag that a host port puts on a frame (R399): PCP of class 1 service, 2 stream or 3 safety ([1013]) and the VLAN ID; 0 with
VLAN ID 0. -/
def Dev.hostTag (d : Dev) (port cls : Nat) : Nat :=
  let vid := d.cfg (0x1011 + port) 7
  if vid = 0 then 0 else packN [(3, d.cfg 0x1013 cls), (1, 0), (12, vid)]

/-- A host port sends a frame of a class, tagged as R399 says. -/
def Dev.emitHost (d : Dev) (cls : Nat) (k : OutKind) (port : Nat) (data : List Nat) : Dev :=
  { d with out := { kind := k, unit := port, tag := d.hostTag port cls, data := data } :: d.out }

/-- A frame of the service queue: it waits while the port has stream fragments to send (R399). -/
def Dev.sendService (d : Dev) (k : OutKind) (port : Nat) (data : List Nat) : Dev :=
  if d.palca.sending.any (fun x => x.port == port) then
    { d with palca := { d.palca with
        waitingOut := d.palca.waitingOut ++ [{ kind := k, unit := port, tag := d.hostTag port 1, data := data }] } }
  else d.emitHost 1 k port data

/-- The service queue of a port empties once no stream fragment waits (R399). -/
def Dev.flushService (d : Dev) (port : Nat) : Dev :=
  if d.palca.sending.any (fun x => x.port == port) then d
  else { d with out := (d.palca.waitingOut.filter (fun x => x.unit == port)).reverse ++ d.out,
                palca := { d.palca with waitingOut := d.palca.waitingOut.filter (fun x => x.unit != port) } }

/-- What a host port does with a received frame (R395, R397 to R399): 0 takes it, 1 drops and counts it, 2 drops it. -/
def Dev.hostFilter (d : Dev) (port : Nat) (v4 : Bool) (f : HostFrame) : Nat :=
  let vid := d.cfg (0x1011 + port) 7
  let own := match f.tci with
    | some t => decide (fld t.toNat 11 0 = vid)
    | none => decide (vid = 0)
  if f.fcsOk = false ∨ 1522 < f.bytes then 1
  else if own = false then 2
  else if (v4 && (f.options || !f.checksum)) || f.fragment || f.multicast then 1
  else 0

/-- Runs `g` on a frame that the port takes; counts one that it drops in [1011.0C]. -/
def Dev.hostReceive (d : Dev) (port : Nat) (v4 : Bool) (f : HostFrame) (g : Dev → Dev) : Dev :=
  match d.hostFilter port v4 f with
  | 0 => g d
  | 1 => d.count (0x1011 + port) 0x0C
  | _ => d

/-- Bytes as the numbers of an output. -/
def byteNats (l : List Byte) : List Nat := l.map BitVec.toNat

/-- Numbers as bytes. -/
def natBytes (l : List Nat) : List Byte := l.map (fun n => BitVec.ofNat 8 n)

/-! ## Recorder (R498, R502, R503) -/

/-- Code of a time state (R44). -/
def TimeState.code : TimeState → Nat
  | .locked => 0 | .holdover => 1 | .unlocked => 2 | .free => 3

/-- Writes a record with its header word (R498); the record takes staging space (R502). -/
def Dev.record (d : Dev) (kind : Nat) (payload : List Byte) : Dev :=
  { d with recd := { d.recd with
      data := d.recd.data ++ leBytes 8 (packN [(8, kind), (24, 0), (32, payload.length)]) ++ payload,
      records := d.recd.records + 1, staged := d.recd.staged + 8 + payload.length } }

/-- The 32 bytes of a fault-log entry (R391). -/
def LogEntry.words (e : LogEntry) : List Word :=
  [packW [(64, e.time)], packW [(48, e.cycle), (16, e.cause)], packW [(16, e.inst), (48, e.detail)],
   packW [(32, e.seq), (16, e.repeats), (2, e.effect), (2, e.tstate.code), (12, 0)]]

/-! ## Raising a cause (R14, R391, R392, R551) -/

/-- Event objects of each cause's block and of the cause itself, by cause code; those that belong to an instance
are counted where the cause arises. -/
def causeEvents (c : Nat) : List (Nat × Nat) :=
  let block : List (Nat × Nat) := match c / 256 with
    | 0x01 => [(0x4000, 0x0D)]
    | 0x07 => [(0x5010, 0x13)]
    | 0x08 => [(0x5800, 0x18)]
    | 0x09 => [(0x6000, 5)]
    | 0x0A => [(0x6800, 1)]
    | 0x0B => [(0x7000, 0x0F)]
    | 0x0C => [(0x7000, 0x0F), (0x7100, 0x0C)]
    | 0x0D => [(0x1031, 1)]
    | 0x0E => [(0x8000, 8)]
    | 0x0F => if 0x0F40 ≤ c then [(0xC000, 6)] else [(0x2000, 8)]
    | 0x10 => [(0x9000, 0x0A)]
    | 0x11 => [(0xA000, 0x0D)]
    | 0x12 => [(0x7201, 5)]
    | _ => []
  let own : List (Nat × Nat) := match c with
    | 0x030C => [(0xB000, 6)]
    | 0x0501 => [(0x2032, 1)] | 0x0505 => [(0x2032, 2)] | 0x0506 => [(0x2032, 2)] | 0x0503 => [(0x2032, 3)]
    | 0x0507 => [(0x2032, 4)]
    | 0x0601 => [(0x2040, 5)] | 0x0602 => [(0x2040, 5)] | 0x0603 => [(0x2040, 5)] | 0x0604 => [(0x2040, 6)]
    | 0x0607 => [(0x2040, 7)] | 0x0608 => [(0x2040, 7)] | 0x0609 => [(0x2040, 7)]
    | 0x0701 => [(0x5200, 0x20)] | 0x0702 => [(0x5200, 0x20)] | 0x0703 => [(0x5200, 0x20)] | 0x0706 => [(0x5200, 0x20)]
    | 0x0801 => [(0x5800, 0x12)] | 0x0802 => [(0x5800, 0x15)] | 0x0803 => [(0x5800, 0x14)] | 0x0805 => [(0x5800, 0x16)]
    | 0x0904 => [(0x6010, 6)] | 0x0905 => [(0x6010, 6)] | 0x0906 => [(0x6010, 6)]
    | 0x0A01 => [(0x6800, 2)] | 0x0A04 => [(0x6800, 4)] | 0x0A05 => [(0x6800, 5)]
    | 0x0A06 => [(0x6800, 6)] | 0x0A07 => [(0x6800, 6)] | 0x0A0B => [(0x6800, 6)]
    | 0x0E02 => [(0x8000, 7)]
    | 0x0F4A => [(0xC020, 1)]
    | 0x1201 => [(0x7200, 0x0E)] | 0x1202 => [(0x7200, 0x0E)] | 0x1203 => [(0x7200, 0x0E)] | 0x1204 => [(0x7200, 0x0E)]
    | 0x1205 => [(0x7300, 0x1A)] | 0x1206 => [(0x7300, 0x1A)]
    | 0x1207 => [(0x3302, 0)] | 0x1208 => [(0x3302, 0)] | 0x1209 => [(0x3302, 0)]
    | _ => []
  block ++ own

/-- Counts one occurrence in each of a list of event objects. -/
def Dev.occurAll (d : Dev) (l : List (Nat × Nat)) : Dev := l.foldl (fun d k => d.occur k.1 k.2) d

/-- Enters a cause in the fault log (R391, R392): merged into the newest entry where cause, instance and cycle
agree; else a new entry, which the recorder copies (R498) and [B000.03] counts. -/
def Dev.logFault (d : Dev) (cause inst detail : Nat) : Dev :=
  let newE : LogEntry :=
    { time := d.now, cycle := d.cyc.number.toNat, cause := cause, inst := inst, detail := detail,
      seq := (d.log.seq + 1) % 2 ^ 32, repeats := 0, effect := 0, tstate := d.time.state }
  match d.log.entries with
  | e :: t =>
    if e.cause = cause ∧ e.inst = inst ∧ e.cycle = d.cyc.number.toNat then
      { d with log := { d.log with entries := { e with repeats := min 0xFFFF (e.repeats + 1) } :: t } }
    else
      let newL : FaultLog :=
        { entries := (newE :: d.log.entries).take 256, seq := newE.seq,
          overwritten := if 256 ≤ d.log.entries.length then d.log.overwritten + 1 else d.log.overwritten }
      ({ d with log := newL }.record 2 (wordsLe newE.words)).occur 0xB000 3
  | [] => ({ d with log := { entries := [newE], seq := newE.seq, overwritten := d.log.overwritten } }.record 2
        (wordsLe newE.words)).occur 0xB000 3

/-- Raises a cause: the fault log and the event objects; before start-up step 2 has ended, the Husk's retained
record (R448, R475). -/
def Dev.raise (d : Dev) (cause inst detail : Nat) : Dev :=
  if d.up then (d.logFault cause inst detail).occurAll (causeEvents cause)
  else { d with power := { d.power with retained := d.power.retained ++ [cause] } }

/-- Raises a cause where a condition holds. -/
def Dev.raiseIf (d : Dev) (b : Bool) (cause inst detail : Nat) : Dev := if b then d.raise cause inst detail else d

/-- Raises each of a list of causes with their instances. -/
def Dev.raiseAll (d : Dev) (l : List (Nat × Nat × Nat)) : Dev := l.foldl (fun d c => d.raise c.1 c.2.1 c.2.2) d

/-- Settles an effect on the newest entry of a cause; a later effect never lowers an earlier one (R392). -/
def Dev.effect (d : Dev) (cause eff : Nat) : Dev :=
  let rec go : List LogEntry → List LogEntry
    | [] => []
    | e :: t => if e.cause = cause then { e with effect := max e.effect eff } :: t else e :: go t
  { d with log := { d.log with entries := go d.log.entries } }

/-! ## Slots, channels, Pods, movers by number -/

/-- Stream slot n. -/
def Dev.slot (d : Dev) (n : Nat) : Slot := kget Slot.reset d.intake.slots n
/-- Updates stream slot n. -/
def Dev.modSlot (d : Dev) (n : Nat) (f : Slot → Slot) : Dev :=
  { d with intake := { d.intake with slots := kmod Slot.reset d.intake.slots n f } }
/-- Kinematic channel c. -/
def Dev.kin (d : Dev) (c : Nat) : Kin := kget Kin.reset d.intake.kins c
/-- Updates kinematic channel c. -/
def Dev.modKin (d : Dev) (c : Nat) (f : Kin → Kin) : Dev :=
  { d with intake := { d.intake with kins := kmod Kin.reset d.intake.kins c f } }
/-- Physical Pod p. -/
def Dev.pod (d : Dev) (p : Nat) : Pod := kget Pod.reset d.pods.pods p
/-- Updates physical Pod p. -/
def Dev.modPod (d : Dev) (p : Nat) (f : Pod → Pod) : Dev :=
  { d with pods := { d.pods with pods := kmod Pod.reset d.pods.pods p f } }
/-- Mover m. -/
def Dev.mover (d : Dev) (m : Nat) : Mover := kget Mover.reset d.movers m
/-- Updates mover m. -/
def Dev.modMover (d : Dev) (m : Nat) (f : Mover → Mover) : Dev := { d with movers := kmod Mover.reset d.movers m f }
/-- Solver engine e. -/
def Dev.solver (d : Dev) (e : Nat) : Solver := kget Solver.reset d.solvers e
/-- Updates solver engine e. -/
def Dev.modSolver (d : Dev) (e : Nat) (f : Solver → Solver) : Dev := { d with solvers := kmod Solver.reset d.solvers e f }

/-- Physical Pod that carries a logical Pod (R20). -/
def Dev.physOf (d : Dev) (l : Nat) : Option Nat := (d.pods.pods.find? (fun p => p.2.logical = some l)).map Prod.fst

/-! ## Memory (R121, R146, R148, R149, R153, R155) -/

/-- Size of the installed DDR5, bytes: 16 GiB a channel with 16 Gb components, 8 GiB with 8 Gb (R163, R164; log 2). -/
def Dev.ddrSize (d : Dev) : Nat := ddrOf d.code * (if d.ddr.gb16 then 2 ^ 34 else 2 ^ 33)

/-- Channel of a DDR5 offset (R164). -/
def ddrChannel (code off : Nat) : Nat := off / 256 % ddrOf code

/-- Subchannel of a DDR5 offset: the four bursts of a 256-byte unit alternate (R164). -/
def ddrSub (off : Nat) : Nat := off / 64 % 2

/-- Applies the window an offset falls into (R155). -/
def Pod.redirect (p : Pod) (off : Nat) : Nat :=
  match p.windows.find? (fun w => w.2.en && w.2.base ≤ off && off < w.2.base + w.2.size) with
  | some w => w.2.base + (off - w.2.base + w.2.head) % w.2.size
  | none => off

/-- Key of a byte of a Pod's scratchpad. -/
def podKey (p off : Nat) : Nat := 2 ^ 44 + p * 2 ^ 39 + off

/-- Key of a byte of a Pip core's local memory (log 9). -/
def pipKey (p core off : Nat) : Nat := 5 * 2 ^ 44 + (p * 4 + core) * 2 ^ 20 + off

/-- Key of a byte of a physical Pod's sequencer store (R147, R200; log 9). -/
def seqKey (p off : Nat) : Nat := 6 * 2 ^ 44 + p * 2 ^ 20 + off

/-- Key of a byte by its device address, for an access of logical Pod `own` (R121, R153, R155); none where the
address is invalid. -/
def Dev.addrKey (d : Dev) (own : Option Nat) (a : Nat) : Option Nat :=
  let off24 := fld a 23 0
  let pod := fun (l : Nat) => match d.physOf l with
    | some p => if fld a 38 24 = 0 ∧ off24 < 12 * 2 ^ 20 then some (podKey p ((d.pod p).redirect off24)) else none
    | none => none
  match fld a 47 44 with
  | 0 => if fld a 43 39 = 0 then own.bind pod else none
  | 1 => if fld a 43 39 < 24 then pod (fld a 43 39) else none
  | 2 => if fld a 43 0 < 96 * 2 ^ 20 then some (2 * 2 ^ 44 + fld a 43 0) else none
  | 3 => if fld a 43 0 < d.ddrSize then some (3 * 2 ^ 44 + fld a 43 0) else none
  | 4 => if fld a 43 0 < 0x800000 ∨ (0x1000000 ≤ fld a 43 0 ∧ fld a 43 0 < 0x1400000)
         then some (4 * 2 ^ 44 + fld a 43 0) else none
  | _ => none

/-- A byte of memory by key. An unlisted byte is 0: every memory is cleared before it may be read (R162, R167). -/
def Memory.read (m : Memory) (k : Nat) : Byte := kget 0 m.bytes k

/-- `n` bytes from a key on. -/
def Memory.readN (m : Memory) (k : Nat) : Nat → List Byte
  | 0 => []
  | n + 1 => m.read k :: m.readN (k + 1) n

/-- The word lies in DDR5. -/
def inDdr (w : Nat) : Bool := decide (8 * w / 2 ^ 44 = 3)

/-- First word of the unit that one code covers: a word of SRAM, a burst of 64 bytes of DDR5 (R146, R165). -/
def codeWord (w : Nat) : Nat := if inDdr w then w / 8 * 8 else w

/-- Writes one byte; the write-back of a corrected word that waits is cancelled (R148). -/
def Memory.write (m : Memory) (k : Nat) (b : Byte) : Memory :=
  { m with bytes := kset 0 m.bytes k b, backs := sdel (codeWord (k / 8)) m.backs }

/-- Writes bytes from a key on. -/
def Memory.writeN (m : Memory) (k : Nat) : List Byte → Memory
  | [] => m
  | b :: t => (m.write k b).writeN (k + 1) t

/-- R149: words wholly written lose their poison, words partly written keep it. -/
def Memory.unpoison (m : Memory) (k n : Nat) : Memory :=
  { m with poisoned := m.poisoned.filter (fun w => !(decide (k ≤ 8 * w) && decide (8 * w + 8 ≤ k + n))) }

/-- A write of bytes (R149). -/
def Memory.store (m : Memory) (k : Nat) (l : List Byte) : Memory := (m.writeN k l).unpoison k l.length

/-- Bank number and region of a word: Pod scratchpads 16 each from 0, Pip locals from 400, Hoard banks from 500,
I/O-die banks from 548, times 4,096, plus the row div 64 (R150, R151, R158). The split of the I/O-die buffers over
their banks is not stated and follows the scratchpad's (log 9). -/
def regionOf (w : Nat) : Nat :=
  let k := 8 * w
  let off := fld k 43 0
  match k / 2 ^ 44 with
  | 1 => (fld k 43 39 * 16 + fld k 38 0 / 64 % 16) * 4096 + fld k 38 0 / 1024 / 64
  | 2 => (500 + off / 64 % 48) * 4096 + off / 3072 / 64
  | 4 =>
    -- the 4 MiB of NAND staging follow the 8 MiB of output buffers in the banks
    let o := if off < 0x1000000 then off else off - 0x800000
    (548 + o / 64 % 8) * 4096 + o / 512 / 64
  | 5 => (400 + fld k 43 20) * 4096 + fld k 19 0 / 64 / 64
  | _ => 4096 * 4096

/-- The word lies in a region marked faulty, so every later read of it is poisoned (R160). -/
def Memory.faultyWord (m : Memory) (w : Nat) : Bool := m.faulty.contains (regionOf w)

/-- A read of the word delivers poison (R148, R160). -/
def Memory.poisonedWord (m : Memory) (w : Nat) : Bool := m.poisoned.contains w || m.faultyWord w

/-- Some word of a range delivers poison. -/
def Memory.poisonIn (m : Memory) (k n : Nat) : Bool :=
  m.poisoned.any (fun w => k < 8 * w + 8 && 8 * w < k + n) ||
    (!m.faulty.isEmpty && (List.range (n / 8 + 2)).any (fun i => decide (8 * (k / 8 + i) < k + n) && m.faultyWord (k / 8 + i)))

/-- Writes to memory by key. -/
def Dev.store (d : Dev) (k : Nat) (l : List Byte) : Dev := { d with mem := d.mem.store k l }

/-- Reads bytes at a device address; bytes at an invalid address read 0. -/
def Dev.loadA (d : Dev) (own : Option Nat) (a : Nat) : Nat → List Byte
  | 0 => []
  | n + 1 => (match d.addrKey own a with | some k => d.mem.read k | none => 0) :: d.loadA own (a + 1) n

/-- Writes bytes at a device address, byte by byte through the windows; bytes at an invalid address are not written. -/
def Dev.putA (d : Dev) (own : Option Nat) (a : Nat) : List Byte → Dev
  | [] => d
  | b :: t =>
    (match d.addrKey own a with
      | some k => { d with mem := d.mem.write k b }
      | none => d).putA own (a + 1) t

/-- Keys of the bytes at a device address. -/
def Dev.keysA (d : Dev) (own : Option Nat) (a n : Nat) : List Nat := (List.range n).filterMap (fun i => d.addrKey own (a + i))

/-- R149: words that the listed bytes cover wholly lose their poison. -/
def Memory.heal (m : Memory) (keys : List Nat) : Memory :=
  { m with poisoned := m.poisoned.filter (fun w => !((List.range 8).all (fun i => keys.contains (8 * w + i)))) }

/-- A write of bytes at a device address (R149). -/
def Dev.storeA (d : Dev) (own : Option Nat) (a : Nat) (l : List Byte) : Dev :=
  let d := d.putA own a l
  if d.mem.poisoned.isEmpty then d else { d with mem := d.mem.heal (d.keysA own a l.length) }

/-- A 64-bit word at a device address, little-endian (log 9). -/
def Dev.loadW (d : Dev) (own : Option Nat) (a : Nat) : Word := BitVec.ofNat 64 (leNat (d.loadA own a 8))

/-- `n` words from a device address on. -/
def Dev.loadWs (d : Dev) (own : Option Nat) (a : Nat) : Nat → List Word
  | 0 => []
  | n + 1 => d.loadW own a :: d.loadWs own (a + 8) n

/-- Counter of [2031] that a word's memory counts in, by key (R148, R165). -/
def memUnit (code w : Nat) : Nat :=
  let k := 8 * w
  match k / 2 ^ 44 with
  | 1 => fld k 43 39
  | 2 => 25
  | 3 => 27 + ddrChannel code (fld k 43 0)
  | 4 => 26
  | 6 => fld k 43 20
  | _ => fld k 43 20 / 4

/-- Row of a DDR5 key: 16 times the row within its subchannel, 4 KiB each (log 9), plus 2 times the channel and the subchannel. -/
def ddrRow (code k : Nat) : Nat :=
  let off := fld k 43 0
  off / (256 * ddrOf code) / 32 * 16 + 2 * ddrChannel code off + ddrSub off

/-- A row that delivered an uncorrectable error is repaired at the next entry to READY (R170). -/
def Dev.badRow (d : Dev) (k : Nat) : Dev := { d with ddr := { d.ddr with badRows := sins (ddrRow d.code k) d.ddr.badRows } }

/-- Rows that are due for repair: an uncorrectable error, or corrected errors in two patrol passes (R170). -/
def Dev.rowsDue (d : Dev) : List Nat :=
  d.ddr.badRows ++ (d.ddr.weakRows.filter (fun x => x.2 == 2 && !d.ddr.badRows.contains x.1)).map Prod.fst

/-- Soft repair of one row of a subchannel's components: its contents are read first and written back; without resources left in those
components, 0x0509 (R170). -/
def Dev.repairRow (d : Dev) (row : Nat) : Dev :=
  if kget 0 d.ddr.repairs (row % 16) < Config.rowRepairs then
    { d with ddr := { d.ddr with
        repairs := kmod 0 d.ddr.repairs (row % 16) (· + 1), repaired := satU 16 (d.ddr.repaired + 1),
        badRows := sdel row d.ddr.badRows, weakRows := kset 0 d.ddr.weakRows row 0 } }
  else d.raise 0x0509 (row % 16) row

/-- The repairs of an entry to READY. -/
def Dev.repairRows (d : Dev) : Dev := d.rowsDue.foldl Dev.repairRow d

/-- The words of that unit. -/
def codeWords (w : Nat) : List Nat := if inDdr w then (List.range 8).map (fun i => w / 8 * 8 + i) else [w]

/-- R148, R165: the report of a read that delivers poison. -/
def Dev.poisonRead (d : Dev) (w : Nat) : Dev :=
  d.raise (if inDdr w then 0x0505 else 0x0501) (memUnit d.code w) (8 * codeWord w % 2 ^ 48)

/-- R148, R165: a word or burst that a read finds in error. Corrected: counted (towards a retest too, R161), and its write-back
waits. Uncorrectable: poison, with 0x0501 or 0x0505. -/
def Dev.eccRead (d : Dev) (e : EccEvent) : Dev :=
  if e.correctable && !d.mem.poisonedWord e.word then
    { d with mem := { d.mem with
        corrected := kmod 0 d.mem.corrected (memUnit d.code e.word) (fun c => satU 64 (c + 1)),
        hits := if inDdr e.word then d.mem.hits else kmod 0 d.mem.hits (regionOf e.word) (· + 1),
        backs := sins (codeWord e.word) d.mem.backs } }
  else
    let d := { d with mem := { d.mem with poisoned := (codeWords e.word).foldl (fun l w => sins w l) d.mem.poisoned } }
    (if inDdr e.word then d.badRow (8 * e.word) else d).poisonRead e.word

/-- All words a read finds in error. -/
def Dev.eccReads (d : Dev) (l : List EccEvent) : Dev := l.foldl Dev.eccRead d

/-- Poisoned words among ranges of keys [a, b). -/
def Memory.poisonedOf (m : Memory) (rs : List (Nat × Nat)) : List Nat :=
  if m.poisoned.isEmpty && m.faulty.isEmpty then []
  else (rs.flatMap (fun r => (List.range (ceilDiv r.2 8 - r.1 / 8)).map (fun i => r.1 / 8 + i))).filter m.poisonedWord

/-- R148, R165: a block reads ranges of keys. Errors found now are handled, words poisoned before are reported too; answers the cause
the reader takes, 0 without poison. -/
def Dev.readKeys (d : Dev) (rs : List (Nat × Nat)) (ecc : List EccEvent) : Dev × Nat :=
  let d := d.eccReads ecc
  let ws := ((d.mem.poisonedOf rs).map codeWord).eraseDups
  let old := ws.filter (fun w => !ecc.any (fun e => codeWord e.word == w))
  (old.foldl Dev.poisonRead d, match ws with | [] => 0 | w :: _ => if inDdr w then 0x0505 else 0x0501)

/-- Clears a range of keys: power returns to a memory (R162). -/
def Memory.clearRange (m : Memory) (lo hi : Nat) : Memory :=
  { m with bytes := m.bytes.filter (fun c => !(decide (lo ≤ c.1) && decide (c.1 < hi))),
           poisoned := m.poisoned.filter (fun w => !(decide (lo ≤ 8 * w) && decide (8 * w < hi))),
           backs := m.backs.filter (fun w => !(decide (lo ≤ 8 * w) && decide (8 * w < hi))) }

/-- Clears a Pod's scratchpad and Pip local memories. -/
def Memory.clearPod (m : Memory) (p : Nat) : Memory :=
  (m.clearRange (podKey p 0) (podKey p (2 ^ 39))).clearRange (pipKey p 0 0) (pipKey p 4 0)

end Sys2Proof.Machine
end

