-- ==== Sys2Proof/Machine/Operands.lean ====
section
/-! DEFINITION. Operands: tensor descriptors, element addresses and elements in memory, schedule table entries
(R92, R121 to R125, R201). -/

namespace Sys2Proof.Machine

/-- The fields of a tensor descriptor that the package sets (R124). -/
structure TDesc where
  ty : Nat
  rank : Nat
  timeless : Bool
  base : Nat
  /-- D0 to D4 -/
  ext : List Nat
  /-- S1 to S4 -/
  str : List Nat
  vmKind : Nat
  vmAddr : Nat
  auxKind : Nat
  auxCount : Nat
  auxAddr : Nat
deriving DecidableEq, Repr

/-- Word i of a list, 0 past its end. -/
def wat (ws : List Word) (i : Nat) : Word := ws.getD i 0

/-- A tensor descriptor from its ten words (R124); dimensions at or above the rank have extent 1 (R122). -/
def tdesc (ws : List Word) : TDesc :=
  let w0 := wat ws 0
  let w1 := wat ws 1
  let r := wfld w0 59 57
  let ds := [wfld w1 15 0 + 1, wfld w1 31 16 + 1, wfld w1 47 32 + 1, wfld w1 63 48 + 1, wfld (wat ws 4) 63 48 + 1]
  { ty := wfld w0 63 60, rank := r, timeless := wbit w0 56, base := wfld w0 47 0,
    ext := ds.zipIdx.map (fun p => if p.2 < r then p.1 else 1),
    str := [wfld (wat ws 2) 63 32, wfld (wat ws 2) 31 0, wfld (wat ws 3) 63 32, wfld (wat ws 3) 31 0],
    vmKind := wfld (wat ws 7) 9 8, vmAddr := wfld (wat ws 4) 47 0, auxKind := wfld (wat ws 7) 7 6,
    auxCount := wfld (wat ws 9) 63 48, auxAddr := wfld (wat ws 9) 47 0 }

/-- The tensor descriptor at a device address. -/
def Dev.tdescAt (d : Dev) (own : Option Nat) (a : Nat) : TDesc := tdesc (d.loadWs own a 10)

/-- Extent of dimension k. -/
def TDesc.dim (t : TDesc) (k : Nat) : Nat := t.ext.getD k 1

/-- Element size in bytes, 1 for I4 and B8 (R123). -/
def tyBytes (ty : Nat) : Nat := if ty = 3 ∨ ty = 6 then 2 else if ty = 4 ∨ ty = 7 ∨ ty = 8 then 4 else 1

/-- Byte offset of element i of dimension 0 (R122). -/
def off0 (ty i : Nat) : Nat := if ty = 2 then i / 2 else if ty = 5 then i / 32 * 33 + i % 32 else i * tyBytes ty

/-- Bytes of one dimension-0 row (R123). -/
def rowBytes (ty d0 : Nat) : Nat := if ty = 2 then ceilDiv d0 2 else if ty = 5 then ceilDiv d0 32 * 33 else d0 * tyBytes ty

/-- Byte offset of an index in dimensions 1 to 4. -/
def TDesc.outer (t : TDesc) (i : List Nat) : Nat := ((i.drop 1).zip t.str).foldl (fun a p => a + p.1 * p.2) 0

/-- Byte address of an element (R122). -/
def TDesc.addr (t : TDesc) (i : List Nat) : Nat := t.base + off0 t.ty (i.headD 0) + t.outer i

/-- Address of the exponent of the block an element of a B8 tensor lies in (R122). -/
def TDesc.expAddr (t : TDesc) (i : List Nat) : Nat := t.base + i.headD 0 / 32 * 33 + 32 + t.outer i

/-- The element at an index as a bit pattern: a B8 element as mantissa in [7:0] and exponent in [15:8]. -/
def Dev.eltGet (d : Dev) (own : Option Nat) (t : TDesc) (i : List Nat) : Nat :=
  let v := leNat (d.loadA own (t.addr i) (tyBytes t.ty))
  if t.ty = 2 then (if i.headD 0 % 2 = 0 then v % 16 else v / 16)
  else if t.ty = 5 then v + 256 * leNat (d.loadA own (t.expAddr i) 1)
  else v

/-- A 32-bit element as an integer. -/
def Dev.eltInt (d : Dev) (own : Option Nat) (t : TDesc) (i : List Nat) : Int := sgn 32 (d.eltGet own t i)

/-- Writes the element at an index from its bit pattern. -/
def Dev.eltPut (d : Dev) (own : Option Nat) (t : TDesc) (i : List Nat) (v : Nat) : Dev :=
  if t.ty = 2 then
    let b := leNat (d.loadA own (t.addr i) 1)
    let b' := if i.headD 0 % 2 = 0 then b / 16 * 16 + v % 16 else b % 16 + v % 16 * 16
    d.storeA own (t.addr i) (leBytes 1 b')
  else if t.ty = 5 then (d.storeA own (t.addr i) (leBytes 1 v)).storeA own (t.expAddr i) (leBytes 1 (v / 256))
  else d.storeA own (t.addr i) (leBytes (tyBytes t.ty) v)

/-- R149: words that the written elements cover wholly lose their poison; of a byte of I4 the odd element completes it. -/
def Dev.healElts (d : Dev) (own : Option Nat) (t : TDesc) (l : List (List Nat)) : Dev :=
  let keys := fun (i : List Nat) =>
    if t.ty = 2 then (if i.headD 0 % 2 = 1 then d.keysA own (t.addr i) 1 else [])
    else d.keysA own (t.addr i) (tyBytes t.ty) ++ (if t.ty = 5 then d.keysA own (t.expAddr i) 1 else [])
  if d.mem.poisoned.isEmpty then d else { d with mem := d.mem.heal (l.flatMap keys) }

/-- Number of the dimension-0 row an index lies in, dimension 1 fastest (R125). -/
def TDesc.row (t : TDesc) (i : List Nat) : Nat :=
  i.getD 1 0 + t.dim 1 * (i.getD 2 0 + t.dim 2 * (i.getD 3 0 + t.dim 3 * i.getD 4 0))

/-- Number of an element, dimension 0 fastest (R125). -/
def TDesc.lin (t : TDesc) (i : List Nat) : Nat := i.headD 0 + t.dim 0 * t.row i

/-- The validity mask bit of an index; true without a mask (R125). -/
def Dev.validAt (d : Dev) (own : Option Nat) (t : TDesc) (i : List Nat) : Bool :=
  if t.vmKind = 1 ∨ t.vmKind = 2 then
    let b := if t.vmKind = 1 then t.row i else t.lin i
    nbit (leNat (d.loadA own (t.vmAddr + b / 8) 1)) (b % 8)
  else true

/-- Writes the validity mask bit of an index. -/
def Dev.setValid (d : Dev) (own : Option Nat) (t : TDesc) (i : List Nat) (v : Bool) : Dev :=
  if t.vmKind = 1 ∨ t.vmKind = 2 then
    let b := if t.vmKind = 1 then t.row i else t.lin i
    let old := leNat (d.loadA own (t.vmAddr + b / 8) 1)
    d.storeA own (t.vmAddr + b / 8) (leBytes 1 (setFld old (b % 8) (b % 8) (b2n v)))
  else d

/-- All indices of five extents, dimension 0 fastest. -/
def indices (e : List Nat) : List (List Nat) :=
  match e with
  | [] => [[]]
  | n :: t => (indices t).flatMap (fun r => (List.range n).map (fun i => i :: r))

/-! ## Schedule table entries (R201) -/

/-- Number of a table: logical Pods 0–23, solvers 24–27, hub movers 28 and 29. -/
def tableNo : TableId → Nat
  | .pod l => l.val
  | .solver e => 24 + e.val
  | .hub h => 28 + h.val

/-- KIND. -/
def entryKind (e : List Word) : Nat := wfld (wat e 0) 63 60
/-- CLASS. -/
def entryClass (e : List Word) : Nat := wfld (wat e 0) 59 58
/-- WORK. -/
def entryWork (e : List Word) : Nat := wfld (wat e 0) 47 24
/-- WCET. -/
def entryWcet (e : List Word) : Nat := wfld (wat e 0) 23 0
/-- RELEASE. -/
def entryRelease (e : List Word) : Nat := wfld (wat e 1) 63 32
/-- DEADLINE. -/
def entryDeadline (e : List Word) : Nat := wfld (wat e 1) 31 0
/-- An idle item. -/
def entryIdle (e : List Word) : Bool := decide (entryRelease e = 0xFFFFFFFF)
/-- WAIT_OBJ where WAIT_EN is set, with THRESHOLD. -/
def entryWait (e : List Word) : Option (Nat × Nat) :=
  if wbit (wat e 2) 49 then some (wfld (wat e 2) 63 50, wfld (wat e 2) 31 0) else none
/-- THRESHOLD. -/
def entryThreshold (e : List Word) : Nat := wfld (wat e 2) 31 0
/-- SIG_OBJ where SIG_EN is set, with INC. -/
def entrySignal (e : List Word) : Option (Nat × Nat) :=
  if wbit (wat e 3) 49 then some (wfld (wat e 3) 63 50, wfld (wat e 3) 15 0) else none
/-- An entry of class S or F with a release. -/
def entryTimed (e : List Word) : Bool := decide (entryClass e ≤ 1) && !entryIdle e && decide (entryKind e ≠ 0)

end Sys2Proof.Machine
end

