-- ==== Sys2Proof/Machine/Flags.lean ====
section
/-! DEFINITION. Propagation of times and validity: the fields of a tensor descriptor that its producer writes
(R10, R45, R124, R126). -/

namespace Sys2Proof.Machine

/-- The producer's fields of a tensor descriptor (R124). -/
structure Times where
  tv : Nat
  told : Nat
  cycle : Nat
  tstate : Nat
  faulted : Bool
  noMotion : Bool
  late : Nat
  slots : Nat
  masked : Nat
  lateCount : Nat
  poison : Nat
deriving DecidableEq, Repr

/-- The producer's fields from the ten words. -/
def timesOf (ws : List Word) : Times :=
  let w7 := wat ws 7
  let w8 := wat ws 8
  { tv := (wat ws 5).toNat, told := (wat ws 6).toNat, cycle := wfld w7 63 16, tstate := wfld w7 15 14, faulted := wbit w7 13,
    noMotion := wbit w7 12, late := wfld w7 11 10, slots := wfld w8 63 48, masked := wfld w8 47 32,
    lateCount := wfld w8 31 16, poison := wfld w8 15 0 }

/-- The producer's fields at a device address. -/
def Dev.timesAt (d : Dev) (own : Option Nat) (a : Nat) : Times := timesOf (d.loadWs own a 10)

/-- Words 5 to 8 of a descriptor; W7[9:6] is the package's and stays. -/
def Times.words (t : Times) (w7 : Word) : List Word :=
  [BitVec.ofNat 64 t.tv, BitVec.ofNat 64 t.told,
   packW [(48, t.cycle), (2, t.tstate), (1, b2n t.faulted), (1, b2n t.noMotion), (2, t.late), (4, wfld w7 9 6), (6, 0)],
   packW [(16, t.slots), (16, t.masked), (16, t.lateCount), (16, t.poison)]]

/-- The combination of two inputs (R126). -/
def Times.join (a b : Times) : Times :=
  { tv := max a.tv b.tv, told := min a.told b.told, cycle := max a.cycle b.cycle, tstate := max a.tstate b.tstate,
    faulted := a.faulted || b.faulted, noMotion := a.noMotion || b.noMotion, late := max a.late b.late,
    slots := a.slots ||| b.slots, masked := a.masked ||| b.masked, lateCount := satU 16 (a.lateCount + b.lateCount),
    poison := satU 16 (a.poison + b.poison) }

/-- R126 over all inputs that are not TIMELESS; none where there is none. -/
def joinAll (l : List Times) : Option Times :=
  match l with
  | [] => none
  | t :: r => some (r.foldl Times.join t)

/-- R126: inputs with different T_V, without the mixing permission. -/
def timesMismatch (mix : Bool) (l : List Times) : Bool :=
  !mix && (match l with
    | [] => false
    | t :: r => r.any (fun u => decide (u.tv ≠ t.tv)))

/-- The inputs at a list of descriptor addresses that are not TIMELESS. -/
def Dev.inputTimes (d : Dev) (own : Option Nat) (l : List Nat) : List Times :=
  (l.filter (fun a => !(d.tdescAt own a).timeless)).map (d.timesAt own)

/-- Writes the producer's fields of a descriptor; none makes it TIMELESS (R126). FAULTED is added where asked. -/
def Dev.putTimes (d : Dev) (own : Option Nat) (a : Nat) (t : Option Times) (faulted : Bool) : Dev :=
  let w0 := d.loadW own a
  let w7 := d.loadW own (a + 56)
  match t with
  | some t =>
    let d := d.storeA own a (leBytes 8 (setFld w0.toNat 56 56 0))
    d.storeA own (a + 40) (wordsLe ({ t with faulted := t.faulted || faulted }.words w7))
  | none =>
    let d := d.storeA own a (leBytes 8 (setFld w0.toNat 56 56 1))
    d.storeA own (a + 56) (leBytes 8 (setFld w7.toNat 13 13 (b2n faulted)))

/-- Sets FAULTED in a descriptor. -/
def Dev.markFaulted (d : Dev) (own : Option Nat) (a : Nat) : Dev :=
  d.storeA own (a + 56) (leBytes 8 (setFld (d.loadW own (a + 56)).toNat 13 13 1))

/-- A completion word of an engine operation (R110). -/
def opCompletion (cause : Nat) (faulted : Bool) (sats nfs : Nat) : Word :=
  packW [(16, cause), (1, b2n faulted), (1, b2n (decide (0 < sats))), (1, b2n (decide (0 < nfs))), (13, 0), (16, satU 16 sats),
         (16, satU 16 nfs)]

/-- A completion word of a mover descriptor (R142). -/
def moveCompletion (cause : Nat) (faulted rejected oobRead : Bool) (dropped : Nat) : Word :=
  packW [(16, cause), (1, b2n faulted), (1, b2n rejected), (1, b2n oobRead), (1, b2n (decide (0 < dropped))), (12, 0),
         (32, satU 32 dropped)]

end Sys2Proof.Machine
end

