-- ==== Sys2Proof/Machine/Protect.lean ====
section
/-! DEFINITION. The Hull's decision: demands, the output tier, the stop latch, and what leaves the device when the
tier changes (R332 to R335, R347, R348, R351, R356, R362, R389, R416, R501). -/

namespace Sys2Proof.Machine

/-! ## Demands (R333) -/

/-- Numbers of the standing demands. -/
def srcHost : Nat := 1
def srcWatchdog : Nat := 2
def srcExcursion : Nat := 3
def srcDiscard : Nat := 4
def srcLockstep : Nat := 5
def srcReadback : Nat := 6
def srcPartner : Nat := 7
def srcMismatch : Nat := 8
def srcTolerance : Nat := 9
def srcLinkLoss : Nat := 10
def srcAlign : Nat := 11
def srcConfig : Nat := 12
def srcDiag (kind : Nat) : Nat := 20 + kind
def srcRefClock : Nat := 30
def srcShortage : Nat := 31
def srcDdrHot : Nat := 32
def srcSpare : Nat := 33
def srcRail : Nat := 34
def srcFloor : Nat := 35
def srcVedge : Nat := 36
def srcEdgeLost : Nat := 37
def srcEdgeHot : Nat := 38
def srcSqShort (ch : Nat) : Nat := 40 + ch
def srcSpeed (pair : Nat) : Nat := 100 + pair

/-- The tier a zone of a kind demands while active (R337). -/
def kindTier (k : Nat) : Nat := if k = 1 then 3 else if k = 2 then 2 else if k = 3 then 1 else 0

/-- State the Hull has of an input pair (R352). -/
def Dev.pairIn (d : Dev) (p : Nat) : Nat := kget 0 d.edge.hullPairs p

/-- R337: the tier of the active zones; a muted zone demands nothing. It enters the decision latches at a commit (R333, R346). -/
def Dev.zonesTier (d : Dev) (active : BitVec 64) : Nat :=
  (List.range 64).foldl (fun t z =>
    if active.getLsbD z = true ∧ ¬ (d.cfg (0x7010 + z) 5 < 8 ∧ d.pairIn (d.cfg (0x7010 + z) 5) = 1)
    then max t (kindTier (d.cfg (0x7010 + z) 1)) else t) 0

/-- R340: the largest pair tier. -/
def Dev.pairTier (d : Dev) : Nat := d.hull.pairTiers.foldl (fun t p => max t p.2) 0

/-- R352, R540: the demand of one input pair. -/
def Dev.inputDemand (d : Dev) (p : Nat) : Nat :=
  let f := d.cfg 0x7300 (p + 1)
  if d.pairIn p = 1 then 0 else if f = 1 ∨ f = 2 then 3 else if f = 5 then 2 else 0

/-- The demands of the safety inputs. -/
def Dev.inputTier (d : Dev) : Nat :=
  if hasEdge d.code then (List.range 8).foldl (fun t p => max t (d.inputDemand p)) 0 else 0

/-- The largest standing demand. -/
def Dev.standing (d : Dev) : Nat := d.hull.demands.foldl (fun t p => max t p.2) 0

/-- The demanded tier (R333); tiers are 0 to 3 (R332). -/
def Dev.demanded (d : Dev) : Nat := min 3 (max (max d.hull.zoneTier d.pairTier) (max d.inputTier d.standing))

/-! ## The machine speed (R341, R342) -/

/-- A pair is enabled (R340). -/
def Dev.pairOn (d : Dev) (p : Nat) : Bool := decide (d.cfg (0x7400 + p) 1 = 1) || decide (d.cfg (0x7400 + p) 1 = 2)

/-- Enabled pairs. -/
def Dev.pairsOn (d : Dev) : List Nat := (List.range 256).filter d.pairOn

/-- R341: the channel is in fault. -/
def Dev.channelFault (d : Dev) (c f : Nat) : Bool :=
  let src := d.cfg (0x3100 + c) 1
  src == 0xFF || (decide (src < 4) && d.intake.canBad.contains src) || (match (d.kin c).ring with
    | x :: _ => x.phaseError || (x.values.getD f none).isNone
    | [] => false)

/-- R341: the machine speed in mm/s from the newest sample, none in a case where [7400.07] takes its place. -/
def Dev.speedInput (d : Dev) (p : Nat) : Option Nat :=
  let c := d.cfg (0x7400 + p) 5
  let f := d.cfg (0x7400 + p) 6
  if c = 0xFF ∨ fld (d.cfg (0x3100 + c) (8 + f)) 31 30 = 0 ∨ d.channelFault c f = true then none
  else match (d.kin c).ring with
    | x :: _ =>
      if x.tick + usTicks (d.cfg (0x7400 + p) 8) < d.tick then none
      else (x.values.getD f none).map (fun v => ceilDiv (v.natAbs * 1000) 65536)
    | [] => none

/-- v_r of a pair (R341). -/
def Dev.speedOf (d : Dev) (p : Nat) : Nat := (d.speedInput p).getD (d.cfg (0x7400 + p) 7)

/-- Speed of the output tier (R342); none at tier 0. -/
def Dev.tierSpeed (d : Dev) : Option Nat :=
  if d.hull.tier = 0 then none else if d.hull.tier = 1 then some (d.cfg 0x7000 8) else if d.hull.tier = 2 then some (d.cfg 0x7000 9) else some 0

/-- R342: since when a pair's v_r has been above the speed of the output tier, and that speed; a standing demand keeps its own. -/
def Dev.speedTimer (d : Dev) (m : Store (Option (Nat × Nat))) (p : Nat) : Store (Option (Nat × Nat)) :=
  if kget 0 d.hull.demands (srcSpeed p) ≠ 0 then m
  else kset none m p (match d.tierSpeed with
    | some l => if l < d.speedOf p then some (match kget none m p with | some (t, _) => t | none => d.tick, l) else none
    | none => none)

/-- The same for every enabled pair. -/
def Dev.speedTimers (d : Dev) : Store (Option (Nat × Nat)) := d.pairsOn.foldl d.speedTimer d.hull.exceeded

/-! ## What leaves the device -/

/-- Rights of a host entry (R400): bit 0 read, 1 write, 2 safety. -/
def hostRights (e : List Nat) : Nat := e.getD 16 0

/-- The two words of pair tiers of R416 and R356, pair 0 in the low bits of the first. -/
def tierWords (m : Store Nat) : List Word :=
  (List.range 8).map (fun w => BitVec.ofNat 64 ((List.range 32).foldl (fun a i => a + kget 0 m (32 * w + i) % 4 * 4 ^ i) 0))

/-- The status PDU of R416 without its CRC word. -/
def Dev.statusWords (d : Dev) : List Word :=
  [packW [(16, 0x5346), (8, 1), (8, 1), (16, d.hull.statusSeq.toNat), (16, 112)],
   packW [(32, d.cfg 0x7000 0x13), (16, (d.hull.cmdSeq.getD 0).toNat), (16, 0)],
   packW [(48, d.hull.lastCycle), (8, d.hull.tier), (1, b2n d.hull.latch), (1, b2n d.hull.lastDiscarded), (1, b2n d.hull.watchdog), (5, 0)],
   packW [(16, d.hull.stopCause), (48, 0)], d.hull.zones] ++ tierWords d.hull.pairTiers

/-- A PDU closed by a word with its CRC-32C in [31:0] over every preceding byte (R416 to R418). -/
def pduBytes (ws : List Word) : List Byte :=
  let b := wordsBe ws ++ beBytes 4 0
  b ++ beBytes 4 (crc32c b).toNat

/-- Sends a status PDU (R416) to every host entry with the safety right on each port whose link is up, and on the
SPI target port; nothing before the first commit (R471) or with connection ID 0. -/
def Dev.sendStatus (d : Dev) : Dev :=
  if d.cfg 0x7000 0x13 = 0 ∨ d.hull.firstCommit = false then d
  else
    let d := { d with hull := { d.hull with statusSeq := d.hull.statusSeq + 1, statusTick := d.tick } }
    let bytes := byteNats (pduBytes d.statusWords)
    let hosts := (List.range 4).map (fun i => d.cfgList 0x1020 (i + 1)) |>.filter (fun e => nbit (hostRights e) 2)
    let d := hosts.foldl (fun d e => d.palca.up.foldl (fun d p => d.emitHost 3 .statusPdu p (e.take 16 ++ bytes)) d) d
    { d with palca := { d.palca with spiStatus := some bytes } }

/-- A Twin frame (R355): header words, payload and trailer with the CRC over both; TYPE 1 to 4 take the next SEQ. -/
def Dev.sendTwin (d : Dev) (type : Nat) (payload : List Word) : Dev :=
  let d := if type < 5 then { d with twin := { d.twin with txSeq := d.twin.txSeq + 1 } } else d
  let hd : List Word :=
    [packW [(4, type), (1, d.cfg 0x7100 2), (3, 0), (16, if type < 5 then d.twin.txSeq.toNat else 0),
            (16, 8 * payload.length), (24, 0)], BitVec.ofNat 64 d.now]
  let body := hd ++ payload
  d.emit .twinFrame type (body.map BitVec.toNat ++ [(crc32c (wordsBe body)).toNat])

/-- The partner is paired (R366). -/
def Dev.paired (d : Dev) : Bool := decide (d.twin.partner = 1)

/-- The DECISION payload (R356). -/
def Dev.decisionWords (d : Dev) : List Word :=
  [BitVec.ofInt 64 d.hull.lastTv,
   packW [(48, d.hull.lastCycle), (8, d.hull.tier), (6, 0), (1, b2n d.hull.latch), (1, b2n d.hull.lastDiscarded)],
   d.hull.zones] ++ tierWords d.hull.pairTiers

/-- Sends a DECISION frame while a partner is paired (R356). -/
def Dev.sendDecision (d : Dev) : Dev := if d.paired then d.sendTwin 2 d.decisionWords else d

/-- R351: a running off delay of output q. -/
def Dev.offRunning (d : Dev) (q : Nat) : Bool := (kget none d.hull.offDelay q).isSome

/-- R351: output SQq is to be on. -/
def Dev.sqOn (d : Dev) (q : Nat) : Bool :=
  let t := d.hull.tier
  if !d.inRun then false
  else match d.cfg 0x7200 (q + 1) with
    | 1 => !d.hull.offDone.contains q
    | 2 => decide (t < 1)
    | 3 => decide (t < 2)
    | 4 => decide (t < 3)
    | _ => false

/-- The SQ channel bits of a command frame: both channels of an output carry its value. -/
def Dev.sqMask (d : Dev) : Nat := maskOf ((List.range 8).filter (fun c => d.sqOn (c / 2)))

/-- The supply bits of a command frame (R530, R437): enabled supplies that have been switched on in their turn. -/
def Dev.spMask (d : Dev) : Nat :=
  maskOf ((List.range 16).filter (fun n => d.cfg 0x3300 (n + 1) = 1 && !d.start.supplies.contains n && d.up))

/-- Sends a command frame on both lanes (R530). -/
def Dev.sendCommand (d : Dev) : Dev :=
  if hasEdge d.code then d.emit .edgeCommand 0 [d.sqMask, d.spMask] else d

/-- The Husk's all-off on both lanes and the stop pad overrides low (R388, R466). -/
def Dev.huskStop (d : Dev) : Dev :=
  let d := { d with hull := { d.hull with override := true } }
  let d := d.emit .stopForce 0 []
  if hasEdge d.code then d.emit .edgeCommand 0 [0, 0] else d

/-! ## Recorder events (R501) -/

/-- Appends the context records that a capture takes and that are not written yet. -/
def Dev.writeContext (d : Dev) (c : Capture) : Dev :=
  let takes := fun (x : Context) => !x.written && decide (c.from_ ≤ x.tv) && decide (x.tv ≤ c.until_)
  let bytes := (d.recd.context.reverse.filter takes).flatMap Context.bytes
  let n := (d.recd.context.filter takes).length
  { d with recd := { d.recd with
      data := d.recd.data ++ bytes, records := d.recd.records + 4 * n, staged := d.recd.staged + bytes.length,
      context := d.recd.context.map (fun x => if takes x then { x with written := true } else x) } }

/-- A recorder event: the event marker (kind 7), and the start or the extension of a capture. -/
def Dev.recEvent (d : Dev) (cause : Nat) : Dev :=
  if d.cfg 0x9000 5 = 0 ∨ d.up = false then d
  else
    let t : Int := d.now
    let first := match d.recd.context.getLast? with | some c => c.cycle | none => d.cyc.number.toNat
    let d := d.record 7 (wordsLe [packW [(16, cause), (48, 0)], BitVec.ofInt 64 t, packW [(48, d.cyc.number.toNat), (16, 0)],
      packW [(48, first), (16, 0)]])
    let pre : Int := d.cfg 0x9000 6 * 1000000000
    let post : Int := d.cfg 0x9000 7 * 1000000000
    let c : Capture := match d.recd.capture with
      | some c => if t ≤ c.until_ then { c with until_ := max c.until_ (min c.limit (t + post)) }
                  else { from_ := t - pre, until_ := t + post, limit := t + 60000000000, overrun := false }
      | none => { from_ := t - pre, until_ := t + post, limit := t + 60000000000, overrun := false }
    { d with recd := { d.recd with capture := some c } }.writeContext c

/-! ## The output tier (R334, R335) -/

/-- Entry to tier 3 (R335, R351): the stop latch with its cause, the count, the off delays of function 1; with
category 0 every output of function 1 goes off at once (R352). -/
def Dev.enterStop (d : Dev) (cause : Nat) (cat0 : Bool) : Dev :=
  let d := { d with hull := { d.hull with latch := true, stopCause := cause } }.occur 0x7000 0x10
  let d := (List.range 4).foldl (fun d q =>
    if d.cfg 0x7200 (q + 1) = 1 ∧ d.hull.offDone.contains q = false then
      (if cat0 = true ∨ d.cfg 0x7200 (q + 5) = 0 then
        { d with hull := { d.hull with offDone := sins q d.hull.offDone, offDelay := kset none d.hull.offDelay q none } }
      else if d.offRunning q then d
      else { d with hull := { d.hull with offDelay := kset none d.hull.offDelay q (some (d.tick + msTicks (d.cfg 0x7200 (q + 5)))) } })
    else d) d
  let d := d.effect cause 3
  -- the tier enters 3 in RUN, or an entry has EFFECT 3 (R501)
  if d.inRun || d.log.entries.any (fun e => e.cause == cause && e.effect == 3) then d.recEvent cause else d

/-- The pins, the edge-die outputs, the Twin link and the safety channel follow a changed output tier (R332, R356,
R362, R530). -/
def Dev.showTier (d : Dev) : Dev :=
  let d := { d with hull := { d.hull with pinA := decide (d.hull.tier < 3) && d.inRun, pinB := decide (d.hull.tier < 3) && d.inRun,
                                             exceeded := d.speedTimers } }
  d.sendCommand.sendDecision.sendStatus

/-- R334: a demanded tier above the output tier becomes the output tier on the clock in which it is demanded; a tier that it
does not stay at or below starts its release count again. -/
def Dev.retier (d : Dev) (cause : Nat) (cat0 : Bool := false) : Dev :=
  let dem := d.demanded
  let d := { d with hull := { d.hull with rel := (List.range 3).map (fun t => if t < dem then 0 else d.hull.rel.getD t 0) } }
  if d.hull.tier < dem then
    let d := { d with hull := { d.hull with tier := dem } }
    (if dem = 3 then d.enterStop cause cat0 else d).showTier
  else if cat0 = true ∧ dem = 3 then
    -- an emergency stop during an off delay: category 0 (R352)
    { d with hull := { d.hull with
        offDone := (List.range 4).foldl (fun l q => if d.cfg 0x7200 (q + 1) = 1 then sins q l else l) d.hull.offDone,
        offDelay := [] } }.sendCommand
  else d

/-- Sets or ends a standing demand (tier 0 ends it) and applies it. -/
def Dev.demand (d : Dev) (src tier cause : Nat) : Dev :=
  ({ d with hull := { d.hull with demands := kset 0 d.hull.demands src tier } }).retier cause

/-- A demand that stands for one clock only: the output tier takes it at once (R547). -/
def Dev.demandOnce (d : Dev) (tier cause : Nat) : Dev :=
  (d.demand 99 tier cause).demand 99 0 cause

/-- A protective request of the fault policy (R389): counted in [B000.09], a recorder event, and a demand. -/
def Dev.protect (d : Dev) (src tier cause : Nat) : Dev :=
  let d := (d.occur 0xB000 9).effect cause 2
  let d := d.recEvent cause
  d.demand src tier cause

/-- The smallest tier below the output tier that `rel` allows (R334): the demanded tier has stayed at or below it for
[7000.05] commits. -/
def Dev.releaseTarget (d : Dev) : Nat :=
  let n := d.cfg 0x7000 5
  let ok := fun t => decide (n ≤ d.hull.rel.getD t 0) && decide (d.demanded ≤ t)
  if ok 0 then 0 else if ok 1 then 1 else if ok 2 then 2 else 3

/-- Lowers the output tier as far as the release count and the restart condition allow (R334, R335). -/
def Dev.lower (d : Dev) : Dev :=
  let t := d.releaseTarget
  if t < d.hull.tier then
    let auto := d.cfg 0x7000 6 = 0 ∧ d.hull.needReset = false ∧ d.hull.fault = false
    let d := if d.hull.tier = 3 ∧ auto then { d with hull := { d.hull with latch := false } } else d
    if d.hull.tier = 3 ∧ d.hull.latch = true then d
    else { d with hull := { d.hull with tier := t } }.showTier
  else d

/-- R335: the output tier could leave 3 by its release count. -/
def Dev.releaseDone (d : Dev) : Bool := decide (d.releaseTarget < 3)

/-- Outputs of function 1 come back when the output tier is below 3 and the latch is clear, once no delay runs
(R351). -/
def Dev.restoreOutputs (d : Dev) : Dev :=
  if d.hull.tier < 3 ∧ d.hull.latch = false then
    { d with hull := { d.hull with offDone := d.hull.offDone.filter (fun q => d.offRunning q) } }
  else d

end Sys2Proof.Machine
end

