-- ==== Sys2Proof/Machine/Sync.lean ====
section
/-! DEFINITION. The Sync fabric (08_scheduling_and_sync.md, R213 to R218) and the generation fault register (R373). -/

namespace Sys2Proof.Machine

/-- A sync object's word (R213). -/
def Dev.syncObj (d : Dev) (o : Nat) : Word := kget 0 d.sync.objs o

/-- COUNT of a sync object. -/
def syncCount (w : Word) : Nat := wfld w 31 0

/-- ERR of a sync object. -/
def syncErr (w : Word) : Bool := wbit w 47

/-- CAUSE of a sync object. -/
def syncCause (w : Word) : Nat := wfld w 63 48

/-- The word of a sync object from its fields. -/
def syncWord (cause : Nat) (err : Bool) (count : Nat) : Word := packW [(16, cause), (1, b2n err), (15, 0), (32, count)]

/-- Writes a sync object. -/
def Dev.setSync (d : Dev) (o : Nat) (w : Word) : Dev := { d with sync := { d.sync with objs := kset 0 d.sync.objs o w } }

/-- Results of a WAIT (R214). -/
def waitOk : Nat := 0
def waitError : Nat := 1
def waitTimeout : Nat := 2

/-- The result a wait has now, if its threshold is met (R214). -/
def waitResult (w : Word) (threshold : Nat) : Option Nat :=
  if threshold ≤ syncCount w then some (if syncErr w then waitError else waitOk) else none

/-- A WAIT returns to its issuer. -/
def Dev.waitReturn (d : Dev) (who obj res : Nat) : Dev := d.emit .syncResult who [obj, res]

/-- R215 step 3: every waiter of an object whose threshold is met is released. -/
def Dev.releaseWaiters (d : Dev) (o : Nat) : Dev :=
  let w := d.syncObj o
  let met := fun (x : Waiter) => decide (x.obj = o) && (waitResult w x.threshold).isSome
  let d' := (d.sync.waiters.filter met).foldl (fun d x => d.waitReturn x.who o ((waitResult w x.threshold).getD waitOk)) d
  { d' with sync := { d'.sync with waiters := d'.sync.waiters.filter (fun x => !met x) } }

/-- R373: sets the generation fault register with its cause; the first cause stands. -/
def Dev.genFault (d : Dev) (cause : Nat) : Dev :=
  { d with hull := { d.hull with genFault := some (d.hull.genFault.getD cause) } }

/-- The sync object is one of the package's generation objects (R373). -/
def Dev.isGeneration (d : Dev) (o : Nat) : Bool :=
  match d.prog.prog with | some p => p.generationObjects.contains o | none => false

/-- SIGNAL(obj, inc, err, cause) of R214 on an object the issuer may name, with the report of R373 and the release of
waiters. -/
def Dev.signal (d : Dev) (o inc : Nat) (err : Bool) (cause : Nat) : Dev :=
  let w := d.syncObj o
  let sum := syncCount w + inc
  let c := if err = true ∧ syncCause w = 0 then cause else syncCause w
  let d := d.setSync o (syncWord c (syncErr w || err) (satU 32 sum))
  let d := d.raiseIf (decide (2 ^ 32 ≤ sum)) 0x0607 0 o
  let d := if err = true ∧ d.isGeneration o = true then d.genFault cause else d
  d.releaseWaiters o

/-- Objects a partition owns (R195, R216). -/
def Dev.syncOwned (d : Dev) (part o : Nat) : Bool :=
  decide (o < 16384) && (match d.prog.prog with
    | some p => (match p.syncRanges[part]? with
      | some r => decide (r.1 ≤ o) && decide (o < r.1 + r.2)
      | none => false)
    | none => false)

def syncSignal (who : SyncIssuer) (obj inc : Nat) (err : Bool) (cause : Nat) (d : Dev) : Dev :=
  if d.syncOwned who.partition obj then d.signal obj inc err cause
  else (d.raise 0x0609 who.number obj).signal who.sigObj inc true 0x0609

/-- SYNC_SIGNAL (R214 to R217, R373). -/
def execSyncSignal (who : SyncIssuer) (obj inc : Nat) (err : Bool) (cause : BitVec 16) (s : State) : Out :=
  s.next (syncSignal who obj inc err cause.toNat s.dev)

def syncWait (who : SyncIssuer) (obj threshold timeout : Nat) (d : Dev) : Dev :=
  if d.syncOwned who.partition obj then
    match waitResult (d.syncObj obj) threshold with
    | some r => d.waitReturn who.number obj r
    | none =>
      let w : Waiter := { who := who.number, obj := obj, threshold := threshold,
                          due := if timeout = 0 then none else some (d.tick + timeout) }
      { d with sync := { d.sync with waiters := d.sync.waiters ++ [w] } }
  else (d.raise 0x0609 who.number obj).waitReturn who.number obj waitError

/-- SYNC_WAIT (R214, R216): a satisfied wait returns at once. -/
def execSyncWait (who : SyncIssuer) (obj threshold timeout : Nat) (s : State) : Out :=
  s.next (syncWait who obj threshold timeout s.dev)

/-- RESET(obj, value) of R214, with the evaluation of the waiters (R215). -/
def Dev.syncResetTo (d : Dev) (o v : Nat) : Dev := (d.setSync o (syncWord 0 false v)).releaseWaiters o

def syncReset (who : SyncIssuer) (obj v : Nat) (d : Dev) : Dev :=
  if d.syncOwned who.partition obj then d.syncResetTo obj v else d.raise 0x0609 who.number obj

/-- SYNC_RESET (R214 to R216). -/
def execSyncReset (who : SyncIssuer) (obj : Nat) (value : BitVec 32) (s : State) : Out :=
  s.next (syncReset who obj value.toNat s.dev)

def syncRead (obj : Nat) (d : Dev) : Dev := d.emit .syncResult 0xFFFF [obj, (d.syncObj obj).toNat]

/-- SYNC_READ (R214): returns the word without changing it. -/
def execSyncRead (obj : Nat) (s : State) : Out := s.next (syncRead obj s.dev)

def barrierArrive (who : SyncIssuer) (group : Nat) (err : Bool) (d : Dev) : Dev :=
  match d.prog.prog.bind (fun p => p.barriers[group]?) with
  | some (o, n) =>
    let d := d.signal o 1 err 0x0602
    let c := syncCount (d.syncObj o)
    let t := ceilDiv c (max 1 n) * n
    match waitResult (d.syncObj o) t with
    | some r => d.waitReturn who.number o r
    | none => { d with sync := { d.sync with
        waiters := d.sync.waiters ++ [{ who := who.number, obj := o, threshold := t, due := none }] } }
  | none => (d.raise 0x0609 who.number 0).waitReturn who.number 0 waitError

/-- BARRIER_ARRIVE (R218): signals the group's object by 1 and waits for the round's end. -/
def execBarrierArrive (who : SyncIssuer) (group : Nat) (err : Bool) (s : State) : Out :=
  s.next (barrierArrive who group err s.dev)

def syncTimeout (who : SyncIssuer) (obj : Nat) (d : Dev) : Dev :=
  let due := fun (x : Waiter) => decide (x.who = who.number) && decide (x.obj = obj) &&
    (match x.due with | some t => decide (t ≤ d.tick) | none => false) && (waitResult (d.syncObj obj) x.threshold).isNone
  match d.sync.waiters.find? due with
  | some _ =>
    let d' := { d with sync := { d.sync with waiters := d.sync.waiters.filter (fun x => !due x) } }
    (d'.raise 0x0608 who.number obj).waitReturn who.number obj waitTimeout
  | none => d

/-- SYNC_TIMEOUT (R214, R215): a wait whose threshold is not met at its timeout. -/
def execSyncTimeout (who : SyncIssuer) (obj : Nat) (s : State) : Out := s.next (syncTimeout who obj s.dev)

end Sys2Proof.Machine
end

