-- ==== Sys2Proof/Machine/Passes.lean ====
section
/-! DEFINITION. Passes of the schedule tables: which entry of a table starts, ends or is skipped, what its end signals, and when the
next pass begins (R200 to R204). -/

namespace Sys2Proof.Machine

/-- The entries of a table (R200). -/
def Dev.table (d : Dev) (t : Nat) : List (List Word) := kget [] d.sched.tables t

/-- One entry. -/
def Dev.entry (d : Dev) (t i : Nat) : List Word := (d.table t).getD i []

/-- The pass of a table. -/
def Dev.pass (d : Dev) (t : Nat) : Pass := kget Pass.reset d.sched.passes t

/-- Updates the pass of a table. -/
def Dev.modPass (d : Dev) (t : Nat) (f : Pass → Pass) : Dev :=
  { d with sched := { d.sched with passes := kmod Pass.reset d.sched.passes t f } }

/-- The entries before END, with their places (R201, R203). -/
def Dev.beforeEnd (d : Dev) (t : Nat) : List (List Word × Nat) := (d.table t).zipIdx.takeWhile (fun e => entryKind e.1 != 0)

/-- Entries that a pass runs: all before END but idle items. -/
def Dev.passEntries (d : Dev) (t : Nat) : List Nat := ((d.beforeEnd t).filter (fun e => !entryIdle e.1)).map Prod.snd

/-- Entries with the earliest of the releases of class S and F first: the place of that entry (R203). -/
def Dev.firstTimed (d : Dev) (t : Nat) : Option Nat :=
  let l := (d.beforeEnd t).filter (fun e => entryTimed e.1)
  (l.find? (fun e => l.all (fun x => decide (entryRelease e.1 ≤ entryRelease x.1)))).map Prod.snd

/-- Idle items of a table join the idle list (R208). -/
def Dev.readyIdle (d : Dev) (t : Nat) : Dev :=
  let items := ((d.beforeEnd t).filter (fun e => entryIdle e.1)).map Prod.snd
  let new := items.filter (fun i => !d.sched.idle.any (fun x => x.table == t && x.entry == i))
  { d with sched := { d.sched with idle := d.sched.idle ++ new.map (fun i => { table := t, entry := i, ready := d.tick, promoted := false }) } }

/-- R203: once a pass has ended, the pass of the oldest later cycle in flight begins, anchored at its instant. -/
def Dev.armPass (d : Dev) (t : Nat) : Dev :=
  let p := d.pass t
  if p.ended then
    match d.cyc.flight.find? (fun c => decide (p.cycle < c.number)) with
    | some c =>
      (d.modPass t (fun _ => { cycle := c.number, tick := c.tick, started := [], done := [], skipped := [], late := [],
                               ended := (d.passEntries t).isEmpty })).readyIdle t
    | none => d
  else d

/-- R203: the pass ends when every entry has ended or was skipped. -/
def Dev.checkPass (d : Dev) (t : Nat) : Dev :=
  let p := d.pass t
  if p.ended = false ∧ (d.passEntries t).all (fun i => p.done.contains i || p.skipped.contains i) = true then
    (d.modPass t (fun p => { p with ended := true })).armPass t
  else d

/-- Executor of a kind: engine, cores, mover, solver, or the sequencer. -/
def unitKind (kind : Nat) : Nat := if kind = 1 then 1 else if kind = 2 then 2 else if kind = 3 then 3 else if kind = 6 then 6 else 0

/-- The next entry that the executor of a kind takes, in table order (R202). -/
def Dev.nextOf (d : Dev) (t kind : Nat) : Option Nat :=
  let p := d.pass t
  if p.ended then none
  else (d.passEntries t).find? (fun i => unitKind (entryKind (d.entry t i)) == kind && !p.started.contains i && !p.skipped.contains i)

/-- A wait of an entry is met (R202); with the error bit it is met too. -/
def Dev.waitMet (d : Dev) (e : List Word) : Bool :=
  match entryWait e with
  | some (o, n) => (waitResult (d.syncObj o) n).isSome
  | none => true

/-- What an entry takes from its wait (R202): the error bit of the object, with its cause. -/
def Dev.ticket (d : Dev) (t i : Nat) : Ticket :=
  match entryWait (d.entry t i) with
  | some (o, _) => { table := t, entry := i, bad := syncErr (d.syncObj o), cause := if syncErr (d.syncObj o) then syncCause (d.syncObj o) else 0 }
  | none => { table := t, entry := i, bad := false, cause := 0 }

/-- The release of an entry of the pass has passed and its wait is met (R202). -/
def Dev.entryReady (d : Dev) (t i : Nat) : Bool :=
  decide ((d.pass t).tick + entryRelease (d.entry t i) ≤ d.tick) && d.waitMet (d.entry t i)

/-- The entry whose work of a kind and number starts now (R201, R202, R208): an idle item that has been admitted, or the executor's next
entry in table order once it is ready. -/
def Dev.starts (d : Dev) (t kind work : Nat) : Option Nat :=
  match d.sched.claims.find? (fun c => c.1 == t && entryKind (d.entry t c.2.1) == kind && entryWork (d.entry t c.2.1) == work) with
  | some c => some c.2.1
  | none => (d.nextOf t kind).bind (fun i => if entryWork (d.entry t i) = work ∧ d.entryReady t i = true then some i else none)

/-- An entry starts. -/
def Dev.startEntry (d : Dev) (t i : Nat) : Dev :=
  let d := { d with sched := { d.sched with claims := d.sched.claims.filter (fun c => !(c.1 == t && c.2.1 == i)) } }
  d.modPass t (fun p => { p with started := sins i p.started })

/-- An entry ends. -/
def Dev.endEntry (d : Dev) (t i : Nat) : Dev := (d.modPass t (fun p => { p with done := sins i p.done })).checkPass t

/-- Partition that a table's work belongs to: the owner of the logical Pod (R194); a solver's or hub mover's table is shared. -/
def Dev.tablePart (d : Dev) (t : Nat) : Option Nat :=
  if t < 24 then d.prog.prog.bind (fun p => p.partitionPods.findIdx? (fun l => l.contains t)) else none

/-- A signal that the work of an entry makes, under R196 and R216: an object outside the partition is refused with 0x0609, which counts as
a signal with error on the entry's own SIG_OBJ. A shared table's work is held to no partition here. -/
def Dev.entrySignals (d : Dev) (t i : Nat) (part : Option Nat) (o inc : Nat) (err : Bool) (cause : Nat) : Dev :=
  let owned := fun (o : Nat) => match part with | some p => d.syncOwned p o | none => decide (o < 16384)
  if owned o then d.signal o inc err cause
  else
    let d := d.raise 0x0609 t o
    match entrySignal (d.entry t i) with
    | some (s, _) => if owned s then d.signal s inc true 0x0609 else d
    | none => d

/-- The completion signal of an entry (R201). -/
def Dev.signalEntry (d : Dev) (t i : Nat) (part : Option Nat) (err : Bool) (cause : Nat) : Dev :=
  match entrySignal (d.entry t i) with
  | some (o, n) => d.entrySignals t i part o n err cause
  | none => d

/-- The work of an entry ends: SIG_OBJ, then the entry (R201 to R203). -/
def Dev.finish (d : Dev) (k : Ticket) (part : Option Nat) (err : Bool) (cause : Nat) : Dev :=
  (d.signalEntry k.table k.entry part err cause).endEntry k.table k.entry

/-- Descriptors of an entry's outputs (R204). -/
def Dev.entryOutputs (d : Dev) (t i : Nat) : List Nat :=
  match d.prog.prog with
  | some p => ((p.outputs.find? (fun o => tableNo o.1 == t && o.2.1 == i)).map (fun o => o.2.2)).getD []
  | none => []

/-- Every output of an entry is marked FAULTED. -/
def Dev.faultOutputs (d : Dev) (own : Option Nat) (t i : Nat) : Dev := (d.entryOutputs t i).foldl (fun d a => d.markFaulted own a) d

/-- R204: an entry is skipped: outputs FAULTED, SIG_OBJ with error, the cause; every skip counts in [2040.05]. -/
def Dev.skipEntry (d : Dev) (t i cause : Nat) : Dev :=
  let d := (d.faultOutputs (if t < 24 then some t else none) t i).raise cause t i
  let d := if cause = 0x0602 then d else d.occur 0x2040 5
  let d := d.signalEntry t i (d.tablePart t) true cause
  (d.modPass t (fun p => { p with skipped := sins i p.skipped })).checkPass t

/-- Every entry of a pass that has not started is skipped (R203). -/
def Dev.skipUnstarted (d : Dev) (t : Nat) : Dev :=
  let p := d.pass t
  ((d.passEntries t).filter (fun i => !p.started.contains i && !p.skipped.contains i)).foldl (fun d i => d.skipEntry t i 0x0602) d

end Sys2Proof.Machine
end

