-- ==== Sys2Proof/Machine/Pods.lean ====
section
/-! DEFINITION. Pods as units of service: loss of a Pod, self-test coverage, golden frames, rotation, links
(R20, R86, R87, R109, R115, R116, R158 to R161, R211, R212, R380 to R389, R551). -/

namespace Sys2Proof.Machine

/-! ## Loss of a Pod (R109, R116, R385, R386) -/

/-- Enabled physical Pods in mesh order (R87). -/
def Dev.enabledPods (d : Dev) : List Nat := List.range (podsOf d.code)

/-- The resting Pod. -/
def Dev.resting (d : Dev) : Option Nat := d.enabledPods.find? (fun p => (d.pod p).state == .resting)

/-- The cycle in progress cannot commit (R108, R385). -/
def Dev.spoil (d : Dev) (cause : Nat) : Dev := if d.cyc.flight = [] then d else d.genFault cause

/-- What runs on a Pod that goes OUT ends with an error and 0x030A (R116): outputs FAULTED, entries signalled and ended; its mover's
descriptors are lost (R143). -/
def Dev.cutPod (d : Dev) (p : Nat) : Dev :=
  let own := (d.pod p).logical
  let part := own.bind d.tablePart
  let lose := fun (d : Dev) (k : Ticket) => (d.faultOutputs own k.table k.entry).finish k part true 0x030A
  let d := match (d.pod p).engine with
    | some r => lose ((d.raise 0x030A p 0).markFaulted own r.desc.outDesc) r.ticket
    | none => d
  let steps := ((d.pod p).cores.filterMap Prod.snd).eraseDups
  let d := steps.foldl (fun d r => lose (d.markFaulted own r.step.outDesc) r.ticket) d
  let m := d.mover p
  let lost := (m.groups.map (fun g => g.descs)).flatten ++ m.opened
  let d := lost.foldl (fun d a => (d.markFaulted own (wfld (wat a.words 1) 47 0)).signal (wfld (wat a.words 1) 63 50) 1 true 0x030A) d
  let d := (m.groups.filterMap (fun g => g.ticket) ++ m.ticket.toList).foldl lose d
  d.modMover p (fun _ => Mover.reset)

/-- A Pod goes OUT (R385, R386): the resting Pod takes its logical number at the next instant, or the number is
without a host. -/
def Dev.takeOut (d : Dev) (p : Nat) : Dev :=
  if (d.pod p).state = .out ∨ podsOf d.code ≤ p then d
  else
    let wasResting := decide ((d.pod p).state = .resting)
    let log := (d.pod p).logical
    let wins := (d.pod p).windows
    let d := d.cutPod p
    let d := d.modPod p (fun x => { x with state := .out, logical := none, engine := none, acc := [], cores := [], pll := false,
                                           gateWaits := false, gatedNow := false, waking := false })
    let d := { d with mem := d.mem.clearPod p }
    let d := { d with pods := { d.pods with due := none } }
    let short := fun (d : Dev) (l : Nat) =>
      let d := { d with pods := { d.pods with lost := sins l d.pods.lost } }
      (d.raise 0x030F p 0).protect srcShortage 3 0x030F
    if wasResting then
      let d := d.raise 0x030D p 0
      match d.pods.replace with
      | some l => short { d with pods := { d.pods with replace := none } } l
      | none => d
    else match log with
      | none => d
      | some l =>
        let d := d.spoil 0x030A
        match d.resting, d.pods.replace with
        | some r, none =>
          let d := d.modPod r (fun x => { x with windows := wins })
          { d with pods := { d.pods with replace := some l } }.raise 0x030D p 0
        | _, _ => short d l

/-- R109: a fault of 0x0301, 0x0302, 0x0305, 0x0308 or 0x0309 on a Pod in service; the second within 64 consecutive
cycles takes it OUT. -/
def Dev.arithFault (d : Dev) (p : Nat) : Dev :=
  let c := d.cyc.number.toNat
  let d := d.occur 0x2022 (p + 1)
  let again := (d.pod p).faults.any (fun f => decide (c < f + 64))
  let d := d.modPod p (fun x => { x with faults := (c :: x.faults.filter (fun f => decide (c < f + 64))) })
  if again then (d.raise 0x030A p 0).takeOut p else d

/-- The instant at which the resting Pod takes a lost logical number (R385). -/
def Dev.takeReplacement (d : Dev) : Dev :=
  match d.pods.replace, d.resting with
  | some l, some r =>
    let d := d.modPod r (fun x => { x with state := .active, logical := some l, golden := 0, pll := true })
    { d with pods := { d.pods with replace := none } }
  | _, _ => d

/-! ## Self-test coverage (R211, R212) -/

/-- Coverage record of a kind and unit. -/
def Dev.coverOf (d : Dev) (kind unit : Nat) : Coverage := kget Coverage.reset d.cover (32 * kind + unit)

/-- Updates a coverage record. -/
def Dev.modCover (d : Dev) (kind unit : Nat) (f : Coverage → Coverage) : Dev :=
  { d with cover := kmod Coverage.reset d.cover (32 * kind + unit) f }

/-- Chunk positions of a pass (R211, R385). -/
def passChunks (kind : Nat) : Nat :=
  [3328, 12288, 3072, 16, 40, 64, 64, 2048].getD kind 1

/-- Units that a kind tests: Pods not OUT, strips, engines in service; kinds 2, 3, 4 and 6 have one. -/
def Dev.testUnits (d : Dev) (kind : Nat) : List Nat :=
  if kind = 0 ∨ kind = 7 then d.enabledPods.filter (fun p => (d.pod p).state != .out && (d.pod p).state != .off)
  else if kind = 1 then [0, 1]
  else if kind = 5 then (List.range 4).filter (fun e => !(d.solver e).out)
  else [0]

/-- Tick from which the coverage age of a kind and unit counts. -/
def Dev.coverSince (d : Dev) (kind unit : Nat) : Nat := if kind = 7 then (d.pod unit).goldenTick else (d.coverOf kind unit).since

/-- Coverage age of a kind in ticks: the largest over its units. -/
def Dev.coverAge (d : Dev) (kind : Nat) : Nat :=
  (d.testUnits kind).foldl (fun m u => max m (d.tick - d.coverSince kind u)) 0

/-- Diagnostic interval of a kind in ticks ([B201]). -/
def Dev.diagTicks (d : Dev) (kind : Nat) : Nat := msTicks (d.cfg 0xB201 (kind + 1))

/-- R389: the request of a diagnostic interval ends once the age is below the interval. -/
def Dev.endDiag (d : Dev) (kind : Nat) : Dev :=
  let d := if d.coverAge kind * 4 < d.diagTicks kind * 3 then d.modCover kind 31 (fun c => { c with late := false }) else d
  if d.coverAge kind < d.diagTicks kind then
    let d := d.modCover kind 31 (fun c => { c with exceeded := false })
    if kget 0 d.hull.demands (srcDiag kind) = 0 then d else d.demand (srcDiag kind) 0 0x0606
  else d

/-- A chunk of a kind on a unit is done: the pass moves on; its first chunk starts a new age (log 14). -/
def Dev.tested (d : Dev) (kind unit : Nat) : Dev :=
  let t := d.tick
  (d.modCover kind unit (fun c =>
    { c with since := if c.pos = 0 then t else c.since, pos := (c.pos + 1) % passChunks kind, admitted := false })).endDiag kind

/-- A chunk of a kind runs on a unit (R211). -/
def Dev.chunkRuns (d : Dev) (kind unit : Nat) : Bool := (d.coverOf kind unit).admitted

/-- The chunk that runs ends without moving the pass on. -/
def Dev.dropChunk (d : Dev) (kind unit : Nat) : Dev := d.modCover kind unit (fun c => { c with admitted := false })

def coverageLate (kind : Nat) (d : Dev) : Dev :=
  if d.diagTicks kind * 3 ≤ d.coverAge kind * 4 ∧ (d.coverOf kind 31).late = false then
    (d.modCover kind 31 (fun c => { c with late := true })).raise 0x0605 kind 0
  else d

/-- COVERAGE_LATE (R212): once for an age that has reached 75 % of the diagnostic interval. -/
def execCoverageLate (kind : Fin 8) (s : State) : Out := s.next (coverageLate kind s.dev)

def diagIntervalExceeded (kind : Nat) (d : Dev) : Dev :=
  if d.diagTicks kind ≤ d.coverAge kind ∧ (d.coverOf kind 31).exceeded = false then
    ((d.modCover kind 31 (fun c => { c with exceeded := true })).raise 0x0606 kind 0).protect (srcDiag kind)
      (d.cfg 0xB120 1) 0x0606
  else d

/-- DIAG_INTERVAL_EXCEEDED (R212, R384, R389). -/
def execDiagIntervalExceeded (kind : Fin 8) (s : State) : Out := s.next (diagIntervalExceeded kind s.dev)

/-- Releases of entries of a table that `f` picks, still ahead in the running pass, as local ticks (R202). -/
def Dev.releasesOf (d : Dev) (t : Nat) (f : List Word → Bool) : List Nat :=
  let p := d.pass t
  if p.ended then []
  else ((d.beforeEnd t).filter (fun e => f e.1 && !p.started.contains e.2 && !p.skipped.contains e.2)).map (fun e => p.tick + entryRelease e.1)

/-- Ticks from now to the next instant. -/
def Dev.toInstant (d : Dev) : Option Nat := d.cyc.next.map (fun (n : Int) => nsTicks (n - d.now).toNat)

/-- The earliest of the releases that `f` picks, in ticks from now: of the running pass, or of the pass of the next instant. -/
def Dev.nextRelease (d : Dev) (t : Nat) (f : List Word → Bool) : Option Nat :=
  match d.releasesOf t f with
  | r :: rs => some (rs.foldl min r - d.tick)
  | [] =>
    match d.toInstant, ((d.beforeEnd t).filter (fun e => f e.1)).map (fun e => entryRelease e.1) with
    | some n, r :: rs => some (n + rs.foldl min r)
    | _, _ => none

/-- Worst case of a chunk in ticks (R211; a golden frame, R382). -/
def chunkTicks (kind : Nat) : Nat := [1536, 1316, 1844, 400, 800, 8000, 2000, 16000].getD kind 0

/-- Ticks from now to the next Hull commit deadline (R27, R211). -/
def Dev.commitAhead (d : Dev) : Option Nat :=
  match d.prog.prog with
  | some p =>
    let due := (d.cyc.flight.map (fun c => c.tick + usTicks p.commitUs)).filter (fun t => decide (d.tick ≤ t))
    (match due, d.toInstant with
      | t :: ts, _ => some (ts.foldl min t - d.tick)
      | [], some n => some (n + usTicks p.commitUs)
      | [], none => none)
  | none => none

/-- Ticks a chunk has on the resources it occupies (R211): the Pod's executors (kinds 0 and 7), the engine (5), the Hull (4); the others
occupy nothing that an S entry is released on (log 63). -/
def Dev.chunkRoom (d : Dev) (kind unit : Nat) : Option Nat :=
  let s := fun (e : List Word) => entryTimed e && entryClass e == 0
  if kind = 0 ∨ kind = 7 then (d.pod unit).logical.bind (fun l => d.nextRelease l s)
  else if kind = 4 then d.commitAhead
  else if kind = 5 then d.nextRelease (24 + unit) s
  else none

/-- A chunk may start now: its worst case fits, and a Pod chunk finds no engine operation (R161) or the resting Pod. -/
def Dev.chunkFits (d : Dev) (kind unit : Nat) : Bool :=
  (match d.chunkRoom kind unit with | some r => decide (chunkTicks kind ≤ r) | none => true) &&
    (kind != 0 || (d.pod unit).engine.isNone)

def selftestChunkDue (kind unit : Nat) (d : Dev) : Dev :=
  let c := d.coverOf kind unit
  let due := decide (c.due + usTicks (d.cfg 0xB200 (kind + 1)) ≤ d.tick)
  if d.up = false ∨ (d.testUnits kind).contains unit = false ∨ c.admitted = true ∨ (due || c.deferred) = false then d
  else if d.chunkFits kind unit then
    d.modCover kind unit (fun x => { x with deferred := false, admitted := true, due := if due then d.tick else x.due })
  else if due then
    (d.modCover kind unit (fun x => { x with deferred := true, due := d.tick })).occur 0xB203 (kind + 1)
  else d

/-- SELFTEST_CHUNK_DUE (R161, R211): at its interval a chunk that fits starts, and its result is the command of its test; one that does not
fit is deferred, counted in [B203], and starts at the next such command at which it fits. -/
def execSelftestChunkDue (kind : Fin 8) (unit : Fin 25) (s : State) : Out := s.next (selftestChunkDue kind unit s.dev)

/-! ## Background memory test (R158 to R161, R389) -/

/-- Bank number (as `regionOf` counts), regions of the bank, its spares, its self-test kind and unit. -/
def bankInfo (b : Bank) : Nat × Nat × Nat × Nat × Nat :=
  match b with
  | .scratchpad p k => (p.val * 16 + k.val, 192, 2, 0, p.val)
  | .pipLocal p c => (400 + p.val * 4 + c.val, 64, 1, 0, p.val)
  | .hoard k => (500 + k.val, 512, 4, 1, k.val / 24)
  | .iod k => (548 + k.val, 384, 2, 2, 0)

/-- Instance of a bank's causes: physical Pod, 25 the Hoard, 26 the I/O die. -/
def bankInst (b : Bank) : Nat :=
  match b with
  | .scratchpad p _ => p.val
  | .pipLocal p _ => p.val
  | .hoard _ => 25
  | .iod _ => 26

/-- Counts a tested region (R158). -/
def Dev.countRegion (d : Dev) : Dev := { d with mem := { d.mem with tested := satU 64 (d.mem.tested + 1) } }

/-- A failing region takes the bank's next spare (R160). -/
def Dev.useSpare (d : Dev) (bank key : Nat) : Dev :=
  { d with mem := { d.mem with spares := kmod 0 d.mem.spares bank (· + 1), spared := sins key d.mem.spared } }

/-- A failing region without a spare is faulty, and the fault policy applies (R160, R389). -/
def Dev.loseRegion (d : Dev) (key : Nat) : Dev :=
  let d := { d with mem := { d.mem with faulty := sins key d.mem.faulty } }
  if d.cfg 0xB120 3 = 0 then d else d.protect srcSpare (d.cfg 0xB120 3) 0x0504

/-- Region, as bank number times 4,096 plus region, at a place of the pass of a memory kind and unit (R161, R211; the order is log 63's). -/
def passRegion (kind unit pos : Nat) : Nat :=
  if kind = 0 then
    if pos < 3072 then (unit * 16 + pos / 192) * 4096 + pos % 192 else (400 + unit * 4 + (pos - 3072) / 64) * 4096 + (pos - 3072) % 64
  else if kind = 1 then (500 + unit * 24 + pos / 512) * 4096 + pos % 512
  else (548 + pos / 384) * 4096 + pos % 384

/-- A region belongs to a memory kind and unit. -/
def regionUnit (key : Nat) : Nat × Nat :=
  let b := key / 4096
  if b < 400 then (0, b / 16) else if b < 500 then (0, (b - 400) / 4) else if b < 548 then (1, (b - 500) / 24) else (2, 0)

/-- R161: the region that is tested next: one whose reads have been corrected [2030.07] times, ahead of its turn, or the next of the pass. -/
def Dev.nextRegion (d : Dev) (kind unit : Nat) : Nat × Bool :=
  match (d.mem.hits.find? (fun h => regionUnit h.1 == (kind, unit) && decide (d.cfg 0x2030 7 ≤ h.2) && !d.mem.faulty.contains h.1)) with
  | some h => (h.1, true)
  | none => (passRegion kind unit (d.coverOf kind unit).pos, false)

/-- A region's test ends: what Save read in error is handled as any read (R158); the region's corrected reads count anew; a region ahead of
its turn leaves the pass where it is. -/
def Dev.endTest (d : Dev) (kind unit key : Nat) (early : Bool) (ecc : List EccEvent) : Dev :=
  let d := (d.eccReads (ecc.filter (fun e => regionOf e.word == key))).countRegion
  let d := { d with mem := { d.mem with hits := kset 0 d.mem.hits key 0 } }
  if early then d.dropChunk kind unit else d.tested kind unit

/-- A tested region of a bank with `spares` spares and a coverage kind and unit. -/
def Dev.testRegion (d : Dev) (bank spares kind unit inst region : Nat) (fails : Bool) (ecc : List EccEvent) : Dev :=
  let key := bank * 4096 + region
  let nx := d.nextRegion kind unit
  if d.chunkRuns kind unit = false ∨ nx.1 ≠ key then d
  else
    let d := d.endTest kind unit key nx.2 ecc
    if !fails then d
    else if kget 0 d.mem.spares bank < spares then (d.useSpare bank key).raise 0x0503 inst key
    else
      let d := d.raise 0x0504 inst key
      if kind = 0 then (d.raise 0x030A unit 0).takeOut unit else d.loseRegion key

def memtestRegionComplete (b : Bank) (region : Nat) (fails : Bool) (ecc : List EccEvent) (d : Dev) : Dev :=
  let i := bankInfo b
  d.testRegion i.1 i.2.2.1 i.2.2.2.1 i.2.2.2.2 (bankInst b) region fails ecc

/-- MEMTEST_REGION_COMPLETE (R158 to R161, R389): Save, March and Restore of the region whose turn it is have run; programs see nothing
of it (R159): the bytes of the model are those of the save buffer while the test runs. -/
def execMemtestRegionComplete (b : Bank) (region : Nat) (fails : Bool) (ecc : List EccEvent) (s : State) : Out :=
  s.next (memtestRegionComplete b region fails ecc s.dev)

def syncFabricTest (block : Nat) (pass : Bool) (d : Dev) : Dev :=
  if d.chunkRuns 6 0 = true ∧ (d.coverOf 6 0).pos = block then (if pass then d.tested 6 0 else d.dropChunk 6 0) else d

/-- SYNC_FABRIC_TEST (R211, kind 6): a good block in its turn moves the pass on. The manual names no cause for a bad
block; its pass does not move on, so its age grows (log 15). -/
def execSyncFabricTest (block : Fin 64) (pass : Bool) (s : State) : Out := s.next (syncFabricTest block pass s.dev)

/-! ## Golden frames and rotation (R380 to R385) -/

/-- Golden frames run on the resting Pod, or, with none resting, on a Pod in service (R382, R385). -/
def Dev.goldenRuns (d : Dev) (p : Nat) : Bool :=
  if d.resting.isSome then d.resting == some p && decide ((d.pod p).golden < 2048)
  else (d.pod p).logical.isSome && decide ((d.pod p).state ≠ .out) && d.chunkRuns 7 p

def goldenFrame (p : Nat) (digestOk detected : Bool) (d : Dev) : Dev :=
  if d.goldenRuns p then
    if digestOk && detected then
      let d := (d.modPod p (fun x => { x with golden := x.golden + 1 })).dropChunk 7 p
      if (d.pod p).golden = 2048 then
        let t := d.tick
        let d := d.modPod p (fun x => { x with goldenTick := t, golden := if x.state = .resting then 2048 else 0 })
        (d.count 0xB000 5).endDiag 7
      else d
    else (d.raise 0x030C p 0).takeOut p
  else d

/-- GOLDEN_FRAME (R382, R385). -/
def execGoldenFrame (p : Fin 25) (digestOk detected : Bool) (s : State) : Out := s.next (goldenFrame p digestOk detected s.dev)

/-- The next Pod in mesh order that takes up the resting role (R380). -/
def Dev.outgoing (d : Dev) : Option Nat :=
  match d.resting with
  | some r => ((List.range (podsOf d.code)).map (fun i => (r + 1 + i) % podsOf d.code)).find?
      (fun p => (d.pod p).logical.isSome && (d.pod p).state != .out)
  | none => none

def rotationDue (d : Dev) : Dev :=
  if d.resting.isSome && d.pods.due.isNone && d.up && decide (d.pods.lastDue + msTicks (d.cfg 0xB210 1) ≤ d.tick) then
    { d with pods := { d.pods with due := some d.tick, lastDue := d.tick, stalled := false } }
  else d

/-- ROTATION_DUE (R380): the rotation period has passed; the handover waits for its moment. -/
def execRotationDue (s : State) : Out := s.next (rotationDue s.dev)

/-- Releases of S and F entries of a table still ahead in the running pass, as ticks (R202). -/
def Dev.releasesAhead (d : Dev) (t : Nat) : List Nat := d.releasesOf t entryTimed

/-- First release of a table after the next instant, in ticks from now (R203). -/
def Dev.firstRelease (d : Dev) (t : Nat) : Option Nat :=
  match d.toInstant, d.firstTimed t with
  | some n, some i => some (n + entryRelease (d.entry t i))
  | _, _ => none

/-- R380: the pass of the outgoing Pod has ended and its next release lies more than 2 µs ahead. -/
def Dev.handoverFits (d : Dev) (l : Nat) : Bool :=
  (kget Pass.reset d.sched.passes l).ended && (d.releasesAhead l).all (fun r => decide (d.tick + usTicks 2 < r)) &&
    (match d.firstRelease l with | some r => decide (usTicks 2 < r) | none => true)

def handover (d : Dev) : Dev :=
  match d.pods.due, d.resting, d.outgoing with
  | some _, some r, some o =>
    match (d.pod o).logical with
    | some l =>
      if d.handoverFits l && (d.pod o).engine.isNone && (d.pod o).cores.all (fun c => c.2.isNone) && d.mover o = Mover.reset &&
          d.pods.replace.isNone then
        let wins := (d.pod o).windows
        let pll := (d.pod o).pll
        let d := d.modPod r (fun x => { x with state := .active, logical := some l, windows := wins, golden := 0, pll := pll })
        let d := d.modPod o (fun x => { x with state := .resting, logical := none, windows := [], golden := 0, acc := [], cores := [],
                                               gateWaits := false, gatedNow := false, waking := false })
        let d := { d with mem := d.mem.clearPod o }
        let d := { d with pods := { d.pods with due := none, lastRotation := d.now } }
        d.count 0xB000 4
      else d
    | none => d
  | _, _, _ => d

/-- HANDOVER (R20, R380, R382): once nothing runs on the outgoing Pod, the resting Pod takes the outgoing Pod's logical number and window table with every
HEAD; the outgoing Pod rests, its memories cleared. -/
def execHandover (s : State) : Out := s.next (handover s.dev)

def rotationStalled (d : Dev) : Dev :=
  match d.pods.due with
  | some t =>
    if t + 2 * msTicks (d.cfg 0xB210 1) ≤ d.tick ∧ d.pods.stalled = false then
      ({ d with pods := { d.pods with stalled := true } } : Dev).raise 0x030E 0 0
    else d
  | none => d

/-- ROTATION_STALLED (R384): a rotation not done two periods after it was due, once for each rotation. -/
def execRotationStalled (s : State) : Out := s.next (rotationStalled s.dev)

/-! ## Links (R18, R387) -/

/-- Resends of a link within the last 1 ms, with `n` more. -/
def Dev.resend (d : Dev) (link n : Nat) : Dev :=
  let t := d.tick
  { d with pods := { d.pods with resends := kmod [] d.pods.resends link (fun l =>
      List.replicate n t ++ l.filter (fun x => decide (t < x + msTicks 1))) } }

/-- The link has failed persistently. -/
def Dev.linkFailed (d : Dev) (link : Nat) (all : Bool) : Bool := all || decide (64 ≤ (kget [] d.pods.resends link).length)

/-- Updates one descriptor of a mover's oldest group. -/
def Dev.modDesc (d : Dev) (mv i : Nat) (f : Accepted → Accepted) : Dev :=
  d.modMover mv (fun x => { x with groups := match x.groups with
    | [] => []
    | g :: t => { g with descs := g.descs.zipIdx.map (fun a => if a.2 = i then f a.1 else a.1) } :: t })

/-- A transfer that is lost makes its descriptor FAULTED (R143, R387). -/
def Dev.loseMove (d : Dev) (lost : Option (Nat × Nat)) (cause : Nat) : Dev :=
  match lost with
  | some (mv, i) => d.modDesc mv i (fun a => if a.lost = 0 then { a with lost := cause } else a)
  | none => d

def meshTransferCrcFail (router dir : Nat) (all : Bool) (lost : Option (Nat × Nat)) (d : Dev) : Dev :=
  let link := 4 * router + dir
  if d.pods.meshDown.contains link then d
  else
    let n := if all then 4 else 1
    let d := (d.countN 0xB000 7 n).resend link n
    let d := if all then d.loseMove lost 0x0310 else d
    if d.linkFailed link all then
      let d := { d with pods := { d.pods with meshDown := sins link d.pods.meshDown } }.raise 0x0310 router link
      if (d.pod router).state = .off then d else d.takeOut router
    else d

/-- MESH_TRANSFER_CRC_FAIL (R387): resends are counted; a persistently failed link is disabled and the Pod whose
router drives it goes OUT; the descriptor whose transfer is lost ends FAULTED. -/
def execMeshTransferCrcFail (router : Fin 25) (dir : Fin 4) (allResendsFail : Bool) (lost : Option (Fin 27 × Nat)) (s : State) : Out :=
  s.next (meshTransferCrcFail router dir allResendsFail (lost.map (fun x => (x.1.val, x.2))) s.dev)

def coreIoTransferCrcFail (link : Nat) (all : Bool) (lost : Option (Nat × Nat)) (d : Dev) : Dev :=
  if d.pods.coreDown.contains link then d
  else
    let n := if all then 4 else 1
    let d := (d.countN 0xB000 8 n).resend (100 + link) n
    let d := if all then d.loseMove lost 0x040A else d
    if d.linkFailed (100 + link) all then
      { d with pods := { d.pods with coreDown := sins link d.pods.coreDown } }.raise 0x040A link 0
    else d

/-- CORE_IO_TRANSFER_CRC_FAIL (R387): a persistently failed core–I/O link is removed; the descriptor whose transfer is lost ends
FAULTED. -/
def execCoreIoTransferCrcFail (link : Fin 8) (allResendsFail : Bool) (lost : Option (Fin 27 × Nat)) (s : State) : Out :=
  s.next (coreIoTransferCrcFail link allResendsFail (lost.map (fun x => (x.1.val, x.2))) s.dev)

/-! ## Memory upkeep without a reader (R148, R166, R167) -/

def correctedWriteBack (word : Nat) (d : Dev) : Dev := { d with mem := { d.mem with backs := sdel word d.mem.backs } }

/-- CORRECTED_WRITE_BACK (R148): the bank writes a corrected word back; it has nothing left to write where a
functional write cancelled it. -/
def execCorrectedWriteBack (word : Nat) (s : State) : Out := s.next (correctedWriteBack word s.dev)

/-- DDR5 answers: powered and not in self-refresh (R171). -/
def Dev.ddrLive (d : Dev) : Bool := d.power.enDdr && !d.ddr.selfRefresh

def ddrOscillatorRead (corrections : List Int) (d : Dev) : Dev :=
  if d.ddrLive && decide (d.ddr.oscTick + msTicks 16 ≤ d.tick) then { d with ddr := { d.ddr with lanes := corrections, oscTick := d.tick } } else d

/-- DDR_OSCILLATOR_READ (R167): the corrections of the DQS interval oscillators are applied. -/
def execDdrOscillatorRead (corrections : List Int) (s : State) : Out := s.next (ddrOscillatorRead corrections s.dev)

def zqCalibration (d : Dev) : Dev :=
  if d.ddrLive && decide (d.ddr.zqTick + msTicks 128 ≤ d.tick) then { d with ddr := { d.ddr with zqTick := d.tick } } else d

/-- ZQ_CALIBRATION (R167): the impedance calibration changes nothing that a program or the host can see. -/
def execZqCalibration (s : State) : Out := s.next (zqCalibration s.dev)

def ddrTemperatureRead (temps : List Int) (maxOp : Int) (d : Dev) : Dev :=
  if d.power.enDdr = true ∧ d.ddr.tempTick + msTicks 16 ≤ d.tick then
    let d := { d with ddr := { d.ddr with tempTick := d.tick, doubled := temps.any (fun t => decide (85 ≤ t)) } }
    if temps.any (fun t => decide (maxOp < t)) then
      let d := if d.ddr.hot then d else (d.raise 0x050A 0 0).protect srcDdrHot (d.cfg 0xB120 2) 0x050A
      { d with ddr := { d.ddr with hot := true, coolSince := none } }
    else if d.ddr.hot && temps.all (fun t => decide (t < maxOp)) then
      match d.ddr.coolSince with
      | some t =>
        if t + sTicks 10 ≤ d.tick then
          { d with ddr := { d.ddr with hot := false, coolSince := none } }.demand srcDdrHot 0 0x050A
        else d
      | none => { d with ddr := { d.ddr with coolSince := some d.tick } }
    else { d with ddr := { d.ddr with coolSince := none } }
  else d

/-- DDR_TEMPERATURE_READ (R168, R389): refresh mode, over-temperature and its protective request. -/
def execDdrTemperatureRead (temps : List Int) (maxOperating : Int) (s : State) : Out :=
  s.next (ddrTemperatureRead temps maxOperating s.dev)

def patrolLate (d : Dev) : Dev :=
  if d.ddrLive ∧ d.ddr.late = false ∧ d.ddr.passStart + sTicks (d.cfg 0x2030 5) ≤ d.tick then
    { d with ddr := { d.ddr with late := true } }.raise 0x050B 0 0
  else d

/-- PATROL_LATE (R169): the pass overruns its time, once for the pass. -/
def execPatrolLate (s : State) : Out := s.next (patrolLate s.dev)

/-! ## The Hull's checkers and mesh age (R210, R211, R348) -/

/-- A Hull fault (R348): tier 3, latched until device reset. -/
def Dev.hullFault (d : Dev) (src cause inst : Nat) : Dev :=
  { d with hull := { d.hull with fault := true } }.raise cause inst 0 |>.demand src 3 cause

def hullCheckerTest (pass : Bool) (d : Dev) : Dev :=
  if d.chunkRuns 4 0 = false then d
  else if pass then d.tested 4 0 else (d.dropChunk 4 0).hullFault srcLockstep 0x0B01 0

/-- HULL_CHECKER_TEST (R211, kind 4; R372): a failed checker latches tier 3; the manual names no cause of its own
for it, and 0x0B01 is taken (log 15). -/
def execHullCheckerTest (pass : Bool) (s : State) : Out := s.next (hullCheckerTest pass s.dev)

/-- Scheduling class of a group's traffic (R177): its entry's; golden traffic, which no entry issues, is class B (R210, R383). -/
def Dev.groupClass (d : Dev) (g : FenceGroup) : Nat :=
  match g.ticket with
  | some k => entryClass (d.entry k.table k.entry)
  | none => 3

/-- A packet of class S waits at the router for the same next router. -/
def Dev.safetyWaits (d : Dev) (router : Nat) (nx : Option Nat) : Bool :=
  (List.range 27).any (fun m => match (d.mover m).groups with
    | g :: _ => d.groupClass g == 0 && g.descs.any (fun a => a.cause == 0 && a.at_ == router && a.ahead.head? == nx)
    | [] => false)

def meshAgePromotion (router mv i : Nat) (d : Dev) : Dev :=
  match (d.mover mv).groups with
  | g :: _ =>
    (match g.descs[i]? with
    | some a =>
      if a.cause = 0 ∧ a.at_ = router ∧ 2 ≤ d.groupClass g ∧ 2 * d.cfg 0x2040 3 < 7 * (d.tick - a.since) ∧
          d.safetyWaits router a.ahead.head? = false then
        (d.modDesc mv i (fun a => { a with at_ := a.ahead.headD a.at_, ahead := a.ahead.drop 1, since := d.tick })).occur 0x2040 4
      else d
    | none => d)
  | [] => d

/-- MESH_AGE_PROMOTION (R22, R210): the traffic of a descriptor in class M or B that has waited at a router longer than the mesh age limit
goes one hop in class F, counted; it does not overtake class S. -/
def execMeshAgePromotion (router : Fin 25) (m : Fin 27) (desc : Nat) (s : State) : Out := s.next (meshAgePromotion router m desc s.dev)

/-! ## Idle states (R115, R116, R152, R451) -/

/-- Ticks of a WCET of 16 clocks at 1.4 GHz a unit (R201), rounded up. -/
def wcetTicks (w : Nat) : Nat := ceilDiv (w * 32) 7

/-- Ticks from now to the next S or F release of a table; none where no release is known. -/
def Dev.gapOf (d : Dev) (t : Nat) : Option Nat := d.nextRelease t entryTimed

/-- Key of a byte of a physical Pod's save area (R152). -/
def saveKey (p off : Nat) : Nat := 2 * 2 ^ 44 + 0x59C0000 + p * 0x40000 + off

/-- Keys of the retained ranges of a logical Pod on its physical Pod, one after another with their places in the save area (R152; the order
within the area is log 9's): scratchpad by offset, Pip local memory by core and offset. -/
def Dev.retainedOf (d : Dev) (p l : Nat) : List (Nat × Nat × Nat) :=
  match d.prog.prog with
  | some g =>
    let rs := (g.retained.filter (fun r => r.1 == l)).map (fun r =>
      (match r.2.1 with | none => podKey p r.2.2.1 | some c => pipKey p c r.2.2.1, r.2.2.2))
    (rs.foldl (fun (a : List (Nat × Nat × Nat) × Nat) r => (a.1 ++ [(r.1, a.2, r.2)], a.2 + r.2)) ([], 0)).1
  | none => []

/-- Copies ranges of memory with their poison: (from, to, bytes). -/
def Dev.copyKeys (d : Dev) (l : List (Nat × Nat × Nat)) : Dev :=
  l.foldl (fun d x =>
    let bad := (List.range (ceilDiv x.2.2 8)).filter (fun i => d.mem.poisonedWord (x.1 / 8 + i))
    let d := d.store x.2.1 (d.mem.readN x.1 x.2.2)
    { d with mem := { d.mem with poisoned := bad.foldl (fun s i => sins (x.2.1 / 8 + i) s) d.mem.poisoned } }) d

/-- COLLAPSED: the retained ranges go to the save area, then power leaves engine, cores and scratchpad (R115, R152, R162). The other state
that R152 names stays where the model holds it. -/
def Dev.collapse (d : Dev) (p l : Nat) : Dev :=
  let d := d.copyKeys ((d.retainedOf p l).map (fun r => (r.1, saveKey p r.2.1, r.2.2)))
  let d := { d with mem := d.mem.clearPod p }
  d.modPod p (fun x => { x with state := .collapsed, acc := [], pll := false })

/-- The wake from COLLAPSED restores the retained ranges from the save area (R152). -/
def Dev.restorePod (d : Dev) (p l : Nat) : Dev := d.copyKeys ((d.retainedOf p l).map (fun r => (saveKey p r.2.1, r.1, r.2.2)))

/-- A Pod runs work: an operation, a Pip step or a fence group. -/
def Dev.podBusy (d : Dev) (p : Nat) : Bool :=
  (d.pod p).engine.isSome || (d.pod p).cores.any (fun c => c.2.isSome) || d.mover p != Mover.reset

/-- Some Pod runs work (R91, R116). -/
def Dev.anyBusy (d : Dev) : Bool := d.enabledPods.any d.podBusy

/-- R451: a Pod with nothing to do takes the idle state that its idle gap selects. -/
def Dev.idleEntry (d : Dev) (p : Nat) : Dev :=
  let x := d.pod p
  match x.logical with
  | some l =>
    let busy := d.podBusy p
    let late := (d.releasesAhead l).any (fun r => decide (r ≤ d.tick))
    let gap := d.gapOf l
    let fits := d.sched.idle.any (fun i => i.table == l && (match (kget [] d.sched.tables l)[i.entry]? with
      | some e => (match gap with | some g => decide (wcetTicks (entryWcet e) ≤ g) | none => true)
      | none => false))
    -- a wake that is due beats the gate (R116, R206)
    let lead := max (nsTicks (d.cfg 0x5000 4)) (usTicks 4)
    let wake := match gap with | some g => decide (g ≤ lead) | none => false
    if x.state ≠ .active ∨ late = true ∨ fits = true ∨ wake = true then d.modPod p (fun x => { x with gateWaits := false })
    else if busy then d.modPod p (fun x => { x with gateWaits := true })
    else
      let d := d.modPod p (fun x => { x with gateWaits := false, gatedNow := true })
      let atLeast : Nat → Bool := fun n => match gap with | some g => decide (n ≤ g) | none => true
      if !atLeast (usTicks 100) then d.modPod p (fun x => { x with state := .gated })
      else if d.cfg 0x8010 1 = 1 ∧ atLeast (usTicks (d.cfg 0x8010 2)) = true ∧ atLeast (2 * (usTicks 46 + nsTicks (d.cfg 0x5000 4))) = true then
        d.collapse p l
      else d.modPod p (fun x => { x with state := .gated, pll := false })
  | none => d

end Sys2Proof.Machine
end

