-- ==== Sys2Proof/Machine/Scan.lean ====
section
/-! DEFINITION. What is read out of a received packet: field descriptors (R66), the UDP payload of a frame (R63), and the scanner
decoder (R77). -/

namespace Sys2Proof.Machine

/-! ## Field descriptors (R66) -/

/-- The bits of a field in a packet, first bit at OFFSET (R66): little-endian counts bits from the least significant of
the first byte, big-endian from the most significant (log 12). -/
def fieldRaw (data : List Byte) (big : Bool) (off width : Nat) : Nat :=
  if big then beNat data / 2 ^ (8 * data.length - off - width) % 2 ^ width else leNat data / 2 ^ off % 2 ^ width

/-- KIND of a field descriptor. -/
def fieldKind (desc : Nat) : Nat := fld desc 31 30

/-- Width of a field in bits. -/
def fieldWidth (desc : Nat) : Nat := if fieldKind desc = 3 then 64 else fld desc 28 23 + 1

/-- A field's raw value as an integer. -/
def fieldInt (desc : Nat) (data : List Byte) : Int :=
  let raw := fieldRaw data (nbit desc 29) (fld desc 22 6) (fieldWidth desc)
  if fieldKind desc = 1 then sgn (fieldWidth desc) raw else raw

/-- A field reaches past the end of its packet (R66). -/
def fieldPast (desc : Nat) (data : List Byte) : Bool :=
  decide (fieldKind desc ≠ 0) && decide (8 * data.length < fld desc 22 6 + fieldWidth desc)

/-- One field: none for an unused field; a device time as it is; any other value in Q15.16 with saturation. A value that falls
between two patterns takes one of the two (free, log 8). -/
def fieldQ (seed use desc : Nat) (data : List Byte) : Option Int :=
  let v := fieldInt desc data
  let sh := sgn 6 (fld desc 5 0) + 16
  let q : Int := if 0 ≤ sh then v * 2 ^ sh.toNat
    else if v % 2 ^ (-sh).toNat = 0 then v / 2 ^ (-sh).toNat else v / 2 ^ (-sh).toNat + (Config.freeValue use seed % 2 : Nat)
  if fieldKind desc = 0 then none else if fieldKind desc = 3 then some v else some (satS 32 q)

/-- A field as a whole number: raw × 2^SHIFT, rounded down (DESIGN CHOICE, log 60); a device time as it is; 0 for an unused one. -/
def fieldWhole (desc : Nat) (data : List Byte) : Int :=
  let v := fieldInt desc data
  let sh := sgn 6 (fld desc 5 0)
  if fieldKind desc = 0 then 0 else if fieldKind desc = 3 then v else if 0 ≤ sh then v * 2 ^ sh.toNat else v / 2 ^ (-sh).toNat

/-! ## Frames (R63) -/

/-- UDP destination port and payload of a frame, if it is IPv4 or IPv6 UDP (R63; the header layouts are those of the Internet
protocols, PRESUMED, log 60). -/
def ethUdp (f : EthFrame) : Option (Nat × List Byte) :=
  let ihl := (f.payload.headD 0).toNat % 16 * 4
  let cut := fun (h : Nat) =>
    let u := f.payload.drop h
    if u.length < 8 then none else some (beNat ((u.drop 2).take 2), (u.take (max 8 (beNat ((u.drop 4).take 2)))).drop 8)
  if f.etherType = 0x0800 then
    (if (f.payload.headD 0).toNat / 16 = 4 ∧ 5 ≤ ihl / 4 ∧ (f.payload.getD 9 0).toNat = 17 then cut ihl else none)
  else if f.etherType = 0x86DD then
    (if (f.payload.headD 0).toNat / 16 = 6 ∧ (f.payload.getD 6 0).toNat = 17 then cut 40 else none)
  else none

/-- Bytes of a frame on the wire: addresses, tag, EtherType, payload and FCS. -/
def ethSize (f : EthFrame) : Nat := 18 + (if f.tag.isSome then 4 else 0) + f.payload.length

/-- What the decoder and the channels read: the UDP payload of a UDP frame, else what follows the EtherType (R66). -/
def ethContent (f : EthFrame) : List Byte := match ethUdp f with | some u => u.2 | none => f.payload

/-! ## The scanner decoder (R77) -/

/-- R77: the MATCH terms of a decoder descriptor; a term reads its 16 bits in network byte order (log 12). -/
def packetMatches (w : List Word) (payload : List Byte) : Bool :=
  (w.take 4).all (fun m => m.toNat == 0 || Nat.land (beNat ((payload.drop (wfld m 63 52)).take 2)) (wfld m 47 32) == wfld m 15 0)

/-- Descriptor of PF0 to PF7, the first of each pair in the upper half as BASETIME and PTIME stand (DESIGN CHOICE, log 60). -/
def pfDesc (w : List Word) (j : Nat) : Nat := let x := w.getD (6 + j / 2) 0; if j % 2 = 0 then wfld x 63 32 else wfld x 31 0

/-- Meaning of PF0 to PF7. -/
def pfUse (w : List Word) (j : Nat) : Nat := wfld (w.getD 10 0) (35 + 4 * j) (32 + 4 * j)

/-- The value of the first point field of a meaning, Q15.16. -/
def pfValue (w : List Word) (seed : Nat) (use : Nat) (rec_ : List Byte) : Option Int :=
  (List.range 8).findSome? (fun j => if pfUse w j = use then fieldQ seed (100 + j) (pfDesc w j) rec_ else none)

/-- Azimuth of a point in units of 2^−16 turn: the Q15.16 value is taken as turns, as START_AZ is (DESIGN CHOICE, log 60). -/
def pointAzimuth (w : List Word) (seed : Nat) (rec_ : List Byte) : Option Nat := (pfValue w seed 2 rec_).map (pat 16)

/-- A point record is valid: none of its fields reaches past its end, and its valid flag, if it has one, is not 0 (R66, R77). -/
def recordValid (w : List Word) (seed : Nat) (rec_ : List Byte) : Bool :=
  !rec_.isEmpty && !fieldPast (wfld (w.getD 5 0) 31 0) rec_ && (List.range 8).all (fun j => !fieldPast (pfDesc w j) rec_) &&
    decide (pfValue w seed 8 rec_ ≠ some 0)

/-- One point: its place from x, y and z, or from range, azimuth and elevation where a range is given; its intensity held to 0 to
255; its time from BASETIME and PTIME. -/
def decodePoint (w : List Word) (seed id : Nat) (base : Int) (rec_ : List Byte) : ScanPoint :=
  let v := fun (u : Nat) => (pfValue w seed u rec_).getD 0
  let p := match pfValue w seed 1 rec_ with
    | some r => Config.polar r (v 2) (v 3)
    | none => (v 4, v 5, v 6)
  { id := id, x := p.1, y := p.2.1, z := p.2.2, intensity := (clampI 0 255 (v 7 / 65536)).toNat,
    time := base + fieldWhole (wfld (w.getD 5 0) 31 0) rec_ }

/-- Point records of a packet: COUNT of them, or with KIND 0 as many as fill the payload. -/
def recordCount (w : List Word) (payload : List Byte) : Nat :=
  let c := wfld (w.getD 4 0) 31 0
  if fieldKind c = 0 then (payload.length - wfld (w.getD 4 0) 63 48) / wfld (w.getD 4 0) 47 32 else (fieldWhole c payload).toNat

/-- The i-th point record. -/
def record (w : List Word) (payload : List Byte) (i : Nat) : List Byte :=
  (payload.drop (wfld (w.getD 4 0) 63 48 + i * wfld (w.getD 4 0) 47 32)).take (wfld (w.getD 4 0) 47 32)

/-- Records that begin within the payload. -/
def recordsThere (w : List Word) (payload : List Byte) : Nat :=
  min (recordCount w payload) (ceilDiv (payload.length - wfld (w.getD 4 0) 63 48) (max 1 (wfld (w.getD 4 0) 47 32)))

/-- The header of a packet is whole: COUNT and BASETIME lie within it (R66). -/
def headerWhole (w : List Word) (payload : List Byte) : Bool :=
  !fieldPast (wfld (w.getD 4 0) 31 0) payload && !fieldPast (wfld (w.getD 5 0) 63 32) payload

/-- The packet's device time, ns. -/
def baseTime (w : List Word) (payload : List Byte) : Int := fieldWhole (wfld (w.getD 5 0) 63 32) payload

/-- The valid points of a packet with their azimuths, in order. -/
def decodePacket (w : List Word) (seed tag : Nat) (payload : List Byte) : List (ScanPoint × Option Nat) :=
  ((List.range (recordsThere w payload)).filter (fun i => recordValid w seed (record w payload i))).map (fun i =>
    (decodePoint w seed (65536 * tag + i) (baseTime w payload) (record w payload i), pointAzimuth w seed (record w payload i)))

/-- Points of a packet that are discarded and counted (R66). -/
def invalidPoints (w : List Word) (seed : Nat) (payload : List Byte) : Nat :=
  recordCount w payload - (decodePacket w seed 0 payload).length

/-- R77, SAMPLE_END 0: the azimuth wraps past START_AZ between two points. -/
def azWraps (w : List Word) (before now : Nat) : Bool :=
  let s := wfld (w.getD 12 0) 47 32
  decide ((now + 65536 - s) % 65536 < (before + 65536 - s) % 65536)

/-- R77, SAMPLE_END 2: the header flag at FLAGBIT, bit 0 the least significant of the first byte (log 60). -/
def endFlag (w : List Word) (payload : List Byte) : Bool := nbit (leNat payload) (wfld (w.getD 12 0) 15 0)

end Sys2Proof.Machine
end

