-- ==== Sys2Proof/Machine/TimeBase.lean ====
section
/-! DEFINITION. The time unit and network time (02_time_base.md): domains, servo, selection, holdover, peer delay,
served time, triggers, the reference check. -/

namespace Sys2Proof.Machine

/-- The nominal increment (R31). -/
def nominalInc : Nat := 0x280000000

/-- The time counter in units of 2^−32 ns. -/
def Dev.counterI (d : Dev) : Int := (d.time.counter.toNat : Int)

/-- What the servo's own steering, and the step, have added to the counter over its nominal count (R41). -/
def Dev.steered (d : Dev) : Int := d.counterI - (d.time.ticks.toNat * nominalInc : Nat)

/-- A stamp (R34): the counter's ns and the high half of its fraction, with EPOCH, TSTATE, DOM, SRC and PORT. While no domain
is selected DOM is 0 (DESIGN CHOICE, log 59: the field has no code for none). -/
def Dev.stampOf (d : Dev) (src port : Nat) : BitVec 96 :=
  let c := d.time.counter.toNat
  BitVec.ofNat 96 (packN [(64, c / 2 ^ 32), (16, c / 2 ^ 16), (1, b2n d.time.epoch), (2, d.time.state.code),
    (1, match d.time.selected with | some .b => 1 | _ => 0), (4, src), (8, port)])

/-- The ns of a stamp. -/
def stampNs (s : BitVec 96) : Nat := s.toNat / 2 ^ 32

/-- The EPOCH of a stamp. -/
def stampEpoch (s : BitVec 96) : Bool := s.getLsbD 15

/-- The TSTATE of a stamp. -/
def stampTState (s : BitVec 96) : Nat := fld s.toNat 14 13

/-- The time of a stamp in ps, from its ns and its 16-bit fraction. -/
def stampPs (s : BitVec 96) : Int := ((s.toNat / 2 ^ 16) * 1000 / 2 ^ 16 : Nat)

/-- A stamp of a frame on an Ethernet port, HOST0, HOST1, SEN0 to SEN3 as 0 to 5: PORT counts within SRC (R34, R50). -/
def Dev.portStamp (d : Dev) (port : Nat) : BitVec 96 := if port < 2 then d.stampOf 0 port else d.stampOf 1 (port - 2)

/-- Δ of the first-lock step in whole ns, rounded down (log 10). -/
def Dev.deltaNs (d : Dev) : Int := d.time.delta / 2 ^ 32

/-- R37: a time in ns moved from one scale to another; true is the scale after the first-lock step. -/
def Dev.toScale (d : Dev) (old new : Bool) (t : Int) : Int :=
  if old = new then t else if new then t + d.deltaNs else t - d.deltaNs

/-- R37: a time taken before the first-lock step, on the present scale. -/
def Dev.onScale (d : Dev) (epoch : Bool) (t : Int) : Int := if d.time.epoch = true ∧ epoch = false then t + d.deltaNs else t

/-- The time of a stamp in ps on the present scale (R37). -/
def Dev.stampPsNow (d : Dev) (s : BitVec 96) : Int :=
  stampPs s + (if d.time.epoch = true ∧ stampEpoch s = false then d.time.delta * 1000 / 2 ^ 32 else 0)

/-! ## Domains -/

/-- A time domain by name. -/
def Dev.dom (d : Dev) : Dom → Domain
  | .a => d.time.domA
  | .b => d.time.domB

/-- Updates a time domain. -/
def Dev.setDom (d : Dev) (x : Dom) (v : Domain) : Dev :=
  match x with
  | .a => { d with time := { d.time with domA := v } }
  | .b => { d with time := { d.time with domB := v } }

/-- Index of a domain's objects. -/
def domIdx : Dom → Nat
  | .a => 0x4010
  | .b => 0x4011

/-- The other domain. -/
def domOther : Dom → Dom
  | .a => .b
  | .b => .a

/-- Lock threshold in 2^−32 ns. -/
def Dev.lockThr (d : Dev) : Int := (d.cfg 0x4000 8 * 2 ^ 32 : Nat)

/-- R41: the estimates freed of the counter's own steering since they were taken, as (tick, offset). -/
def Dev.corrected (d : Dev) (v : Domain) : List (Int × Int) :=
  v.ests.map (fun e => ((e.tick : Int), e.offset - (d.steered - e.adj)))

/-- Sums of the least-squares line: n, Σx, Σy, A = nΣxy − ΣxΣy, B = nΣx² − (Σx)². -/
def lineSums (l : List (Int × Int)) : Int × Int × Int × Int × Int :=
  let n : Int := l.length
  let x0 := (l.headD (0, 0)).1
  let sx := l.foldl (fun a p => a + (p.1 - x0)) 0
  let sy := l.foldl (fun a p => a + p.2) 0
  let sxy := l.foldl (fun a p => a + (p.1 - x0) * p.2) 0
  let sxx := l.foldl (fun a p => a + (p.1 - x0) * (p.1 - x0)) 0
  (n, sx, sy, n * sxy - sx * sy, n * sxx - sx * sx)

/-- The residuals of the line, each times n·B; with no extent in time, the offsets' own differences times n. -/
def residuals (l : List (Int × Int)) : List Int × Int :=
  let (n, sx, sy, a, b) := lineSums l
  let x0 := (l.headD (0, 0)).1
  if b = 0 then (l.map (fun p => n * p.2 - sy), n)
  else (l.map (fun p => b * (n * p.2 - sy) - a * (n * (p.1 - x0) - sx)), n * b)

/-- Largest of a list less its smallest. -/
def spanI (l : List Int) : Int := l.foldl max (l.headD 0) - l.foldl min (l.headD 0)

/-- R41: the spread of the last 8 estimates is at most `bound` 2^−32 ns. -/
def Dev.spreadWithin (d : Dev) (v : Domain) (bound : Int) : Bool :=
  let (r, s) := residuals (d.corrected v)
  decide (spanI r ≤ bound * s)

/-- [4010.06]: domain rate less counter rate, ppb, from the fitted line, rounded down (log 10). -/
def Dev.rateOf (d : Dev) (v : Domain) : Int :=
  let (_, _, _, a, b) := lineSums (d.corrected v)
  let line : Int := if b = 0 then 0 else a * 1000000000 / (b * (nominalInc : Int))
  line - ((d.time.inc.toNat : Int) - nominalInc) * 1000000000 / nominalInc

/-- R38: the port whose Announce carries the better (smaller) system identity; a tie goes to HOST0. -/
def betterPort (a0 a1 : Option Announced) : Option Nat :=
  match a0, a1 with
  | none, none => none
  | some _, none => some 0
  | none, some _ => some 1
  | some x, some y => if y.identity < x.identity then some 1 else some 0

/-- Ticks of an interval of 2^i s. -/
def intervalTicks (i : Int) : Nat := if 0 ≤ i then sTicks (2 ^ i.toNat) else sTicks 1 / 2 ^ (-i).toNat

/-- R38: an Announce still counts: fewer than announceReceiptTimeout = 3 of its intervals have passed. -/
def Announced.live (tick : Nat) (a : Announced) : Bool := decide (tick < a.tick + 3 * intervalTicks a.interval)

/-- The Announce of the receiving port. -/
def Domain.ofPort (v : Domain) : Option Announced := if v.port = some 1 then v.ann1 else if v.port = some 0 then v.ann0 else none

/-- R38: port selection over the Announces that are held, with the grandmaster of the port selected. A change of port starts the
estimates anew (log 11). -/
def Domain.pickPort (v : Domain) : Domain :=
  let p := betterPort v.ann0 v.ann1
  let v := if p = v.port then v else { v with port := p, ests := [], waiting := none }
  match v.ofPort with
  | some b => { v with gm := b.gm, clockClass := b.clockClass, six := decide (b.clockClass = 6) || (v.six && decide (v.gm = b.gm)) }
  | none => v

/-- R38: Announces past their receipt timeout no longer count. -/
def Domain.aged (v : Domain) (tick : Nat) : Domain :=
  let a0 := v.ann0.filter (Announced.live tick)
  let a1 := v.ann1.filter (Announced.live tick)
  if a0 = v.ann0 ∧ a1 = v.ann1 then v else { v with ann0 := a0, ann1 := a1 }.pickPort

/-- Announces past their receipt timeout leave a domain. -/
def Dev.ageDom (d : Dev) (x : Dom) : Dev := d.setDom x ((d.dom x).aged d.tick)

/-- R41 at a servo update: offset, rate and state of a domain. -/
def Dev.evalDom (d : Dev) (x : Dom) : Dev :=
  let v := (d.dom x).aged d.tick
  match v.state with
  | .absent | .disabled => d
  | st =>
    let off := match d.corrected v with | p :: _ => p.2 | [] => v.offset
    let full := decide (8 ≤ v.ests.length)
    let v := { v with offset := off, rate := if 2 ≤ v.ests.length then d.rateOf v else v.rate }
    let v := if st = .acquiring ∧ full = true ∧ d.spreadWithin v d.lockThr = true then
        { v with state := .tracking, trackingSince := some d.tick }
      else if st = .tracking ∧ full = true ∧ d.spreadWithin v (4 * d.lockThr) = false then
        { v with state := .acquiring, trackingSince := none }
      else v
    d.setDom x v

/-- The domain tracks. -/
def Dev.tracks (d : Dev) (x : Dom) : Bool := decide ((d.dom x).state = .tracking)

/-- The preferred domain [4000.06]. -/
def Dev.preferred (d : Dev) : Dom := if d.cfg 0x4000 6 = 1 then .b else .a

/-- R42 rule 3: the preferred domain has tracked without interruption for the hold-off, which is not 0. -/
def Dev.revertDue (d : Dev) : Bool :=
  match (d.dom d.preferred).trackingSince with
  | some t => decide (d.cfg 0x4000 7 ≠ 0) && decide (t + sTicks (d.cfg 0x4000 7) ≤ d.tick)
  | none => false

/-- R42, R48: the domain that rules 1 to 4 select. -/
def Dev.choose (d : Dev) : Option Dom :=
  let p := d.preferred
  match d.time.selected with
  | some x =>
    if d.tracks x then
      if x ≠ p ∧ d.tracks p ∧ d.revertDue then some p else some x
    else if d.tracks (domOther x) then some (domOther x) else none
  | none => if d.tracks p then some p else if d.tracks (domOther p) then some (domOther p) else none

/-- Magnitude of an offset in ns, rounded up. -/
def offsetNs (o : Int) : Nat := ceilDiv o.natAbs (2 ^ 32)

/-- R44: the time state. -/
def Dev.timeState (d : Dev) : TimeState :=
  if d.time.epoch = false then .free
  else match d.time.selected with
    | some x => if ((d.dom x).offset.natAbs : Int) ≤ d.lockThr then .locked else .unlocked
    | none => if d.time.uncertainty ≤ d.cfg 0x4000 0x0A then .holdover else .unlocked

/-- Sets the time state of R44. -/
def Dev.setTimeState (d : Dev) : Dev := { d with time := { d.time with state := d.timeState } }

/-- R47: the mean of the last 16 servo updates, or the increment in force before any. -/
def Dev.meanInc (d : Dev) : Nat :=
  if d.time.incs = [] then d.time.inc.toNat else d.time.incs.sum / d.time.incs.length

/-- R49: the clockClass that holdover serves once a domain's selection ends (log 59: as it was last announced before that end). -/
def Domain.holdClass (v : Domain) : Nat := if v.six then 7 else v.clockClass

/-- R42, R47, R48: makes a selection. A change that ends with a domain selected raises 0x0103; a deselection after the
first step enters holdover with 0x0104. The increment is frozen at the mean of R47 as it is, also where a slew bound lowered since
those updates would exclude it (DESIGN CHOICE, log 59). -/
def Dev.select (d : Dev) (new : Option Dom) : Dev :=
  if new = d.time.selected then d
  else match new with
    | some x =>
      { d with time := { d.time with selected := some x, lastSelected := some x, satRun := 0 } }.raise 0x0103
        (match x with | .a => 0 | .b => 1) 0
    | none =>
      let u := match d.time.selected with | some x => offsetNs (d.dom x).offset | none => 0
      let cc := match d.time.selected with | some x => (d.dom x).holdClass | none => d.time.heldClass
      let d := { d with time := { d.time with selected := none, satRun := 0, exceeded := false, heldClass := cc } }
      if d.time.epoch then
        { d with time := { d.time with
            inc := BitVec.ofNat 34 d.meanInc, uncertainty := satU 32 u, holdBase := u, holdTick := d.tick } }.raise 0x0104 0 0
      else d

/-- R47: the uncertainty now, ns: its start plus the drift rate for every elapsed second. -/
def Dev.uncertaintyNow (d : Dev) : Nat :=
  satU 32 (d.time.holdBase + (d.tick - d.time.holdTick) * 5 * d.cfg 0x4000 9 / 2000000000)

/-- The first step is done and no domain is selected (R44). -/
def Dev.holding (d : Dev) : Bool := d.time.epoch && d.time.selected.isNone

/-- [4000.0C]: the uncertainty now while no domain is selected, else as the last holdover left it. -/
def Dev.uncertaintyRead (d : Dev) : Nat := if d.holding then d.uncertaintyNow else d.time.uncertainty

/-- The holdover uncertainty grows while no domain is selected after the first step. -/
def Dev.growUncertainty (d : Dev) : Dev := { d with time := { d.time with uncertainty := d.uncertaintyRead } }

/-- R47: the uncertainty grows; once it exceeds the bound 0x0105 is raised, once for each holdover. -/
def Dev.checkHoldover (d : Dev) : Dev :=
  let d := d.growUncertainty
  if d.holding && !d.time.exceeded && decide (d.cfg 0x4000 0x0A < d.time.uncertainty) then
    { d with time := { d.time with exceeded := true } }.raise 0x0105 0 0
  else d

/-- R35: the slew bound in units of the increment. -/
def Dev.slewUnits (d : Dev) : Nat := nominalInc * d.cfg 0x4000 4 / 1000000

/-- Holds an increment within the slew bound (R35). -/
def Dev.clampInc (d : Dev) (i : Nat) : Nat := max (nominalInc - d.slewUnits) (min (nominalInc + d.slewUnits) i)

/-- R46: the increment that would match the selected domain's rate. -/
def Dev.matchInc (d : Dev) (x : Dom) : Int :=
  (d.time.inc.toNat : Int) + (d.time.inc.toNat : Int) * (d.dom x).rate / 1000000000

/-- R46: that increment lies outside the slew bound. -/
def Dev.rateOut (d : Dev) (x : Dom) : Bool := decide ((d.slewUnits : Int) < ((d.matchInc x - nominalInc).natAbs : Int))

/-- The servo of the selected domain sets the increment: a free value within the slew bound (log 3). -/
def Dev.steer (d : Dev) : Dev :=
  match d.time.selected with
  | some x =>
    let i := d.clampInc (Config.servoIncrement d.free)
    { d with time := { d.time with
        inc := BitVec.ofNat 34 i, incs := (i :: d.time.incs).take 16, satRun := if d.rateOut x then d.time.satRun + 1 else 0 } }.bumpFree
  | none => d

/-- R43: two tracking domains disagree. -/
def Dev.disagree (d : Dev) : Bool :=
  d.tracks .a && d.tracks .b && decide (d.cfg 0x4000 0x0B * 2 ^ 32 < ((d.dom .a).offset - (d.dom .b).offset).natAbs)

def servoUpdate (d : Dev) : Dev :=
  if d.up then
    let d := (d.evalDom .a).evalDom .b
    let d := d.select d.choose
    let d := d.raiseIf d.disagree 0x0106 0 0
    (d.checkHoldover.steer).setTimeState
  else d

/-- SERVO_UPDATE (R41 to R44, R46 to R48). -/
def execServoUpdate (s : State) : Out := s.next (servoUpdate s.dev)

def holdoverExceeded (d : Dev) : Dev := d.checkHoldover.setTimeState

/-- HOLDOVER_EXCEEDED (R47): the uncertainty passes the bound; UNLOCKED and 0x0105. -/
def execHoldoverExceeded (s : State) : Out := s.next (holdoverExceeded s.dev)

def slewSaturated (d : Dev) : Dev :=
  if 8 ≤ d.time.satRun then { d with time := { d.time with satRun := 0 } }.raise 0x0107 0 0 else d

/-- SLEW_SATURATED (R46): 8 consecutive servo updates out of bound. -/
def execSlewSaturated (s : State) : Out := s.next (slewSaturated s.dev)

def revertHoldOffExpiry (d : Dev) : Dev :=
  match d.time.selected with
  | some x => if x ≠ d.preferred ∧ d.tracks d.preferred ∧ d.revertDue then (d.select (some d.preferred)).setTimeState else d
  | none => d

/-- REVERT_HOLD_OFF_EXPIRY (R42 rule 3). -/
def execRevertHoldOffExpiry (s : State) : Out := s.next (revertHoldOffExpiry s.dev)

/-! ## 802.1AS messages (R38, R40, R41) -/

/-- The enabled domain of a domainNumber. -/
def Dev.domOf (d : Dev) (dn : Nat) : Option Dom :=
  if d.cfg 0x4010 1 ≠ 0 ∧ d.cfg 0x4010 2 = dn then some .a
  else if d.cfg 0x4011 1 ≠ 0 ∧ d.cfg 0x4011 2 = dn then some .b else none

/-- Peer delay of a port. -/
def Dev.delay (d : Dev) (port : Nat) : PortDelay := kget PortDelay.reset d.time.delays port

/-- Updates the peer delay of a port. -/
def Dev.modDelay (d : Dev) (port : Nat) (f : PortDelay → PortDelay) : Dev :=
  { d with time := { d.time with delays := kmod PortDelay.reset d.time.delays port f } }

/-- logSyncInterval accepted (R38). -/
def logOk (i : Int) : Bool := decide (-7 ≤ i) && decide (i ≤ 0)

/-- A valid message of a domain arrives (R41): it leaves ABSENT for ACQUIRING. -/
def Domain.heard (v : Domain) (tick : Nat) : Domain :=
  { v with lastRx := tick, state := if v.state = .absent then .acquiring else v.state,
           ests := if v.state = .absent then [] else v.ests }

/-- R40: half the asymmetry constant in 2^−32 ns (log 10). -/
def Dev.asymmetry (d : Dev) (port : Nat) : Int := d.cfgI 0x4000 (0x10 + port) * 2 ^ 32 / 2000

/-- Adds an offset estimate (R41): origin in 2^−16 ns plus the path toward the device, less the receive stamp. -/
def Dev.addEstimate (d : Dev) (v : Domain) (port : Nat) (origin stamp : Int) (tick : Nat) (adj : Int) : Domain :=
  let o := origin * 2 ^ 16 + (d.delay port).delay + d.asymmetry port - stamp
  { v with ests := ({ tick := tick, offset := o, adj := adj } :: v.ests).take 8 }

/-- A message that the domain takes: its port is the receiving port and asCapable, its interval is accepted. -/
def Dev.takes (d : Dev) (x : Dom) (port : Nat) (logInt : Int) : Bool :=
  d.up && decide (((d.dom x).aged d.tick).port = some port) && (d.delay port).capable && logOk logInt && decide ((d.dom x).state ≠ .disabled)

def ptpSync (port dn : Nat) (logInt : Int) (seq : BitVec 16) (twoStep : Bool) (origin : Int) (d : Dev) : Dev :=
  match d.domOf dn with
  | none => d
  | some x =>
    if d.takes x port logInt then
      let v := { ((d.dom x).aged d.tick).heard d.tick with syncInterval := logInt }
      d.setDom x (if twoStep then
          { v with waiting := some { port := port, seq := seq, stamp := d.counterI, tick := d.tick, adj := d.steered } }
        else { d.addEstimate v port origin d.counterI d.tick d.steered with waiting := none })
    else d

/-- PTP_SYNC (R38, R40, R41): a one-step Sync gives an estimate, a two-step Sync waits for its Follow_Up. -/
def execPtpSync (port : Fin 2) (dn : Nat) (logInt : Int) (seq : BitVec 16) (twoStep : Bool) (origin : Int) (s : State) : Out :=
  s.next (ptpSync port dn logInt seq twoStep origin s.dev)

def ptpFollowUp (port dn : Nat) (logInt : Int) (seq : BitVec 16) (origin : Int) (d : Dev) : Dev :=
  match d.domOf dn with
  | none => d
  | some x =>
    if d.takes x port logInt then
      let v := ((d.dom x).aged d.tick).heard d.tick
      d.setDom x (match v.waiting with
        | some w => if w.port = port ∧ w.seq = seq then
            { d.addEstimate v port origin w.stamp w.tick w.adj with waiting := none } else v
        | none => v)
    else d

/-- PTP_FOLLOW_UP (R38, R41). -/
def execPtpFollowUp (port : Fin 2) (dn : Nat) (logInt : Int) (seq : BitVec 16) (origin : Int) (s : State) : Out :=
  s.next (ptpFollowUp port dn logInt seq origin s.dev)

def ptpAnnounce (port dn : Nat) (logInt : Int) (identity : Nat) (gm : Word) (clockClass : Nat) (d : Dev) : Dev :=
  match d.domOf dn with
  | none => d
  | some x =>
    let v := d.dom x
    if d.up && (d.delay port).capable && decide (v.state ≠ .disabled) then
      let a : Announced := { identity := identity, gm := gm, clockClass := clockClass, interval := logInt, tick := d.tick }
      let v := (v.aged d.tick).heard d.tick
      let v := if port = 0 then { v with ann0 := some a } else { v with ann1 := some a }
      d.setDom x v.pickPort
    else d

/-- PTP_ANNOUNCE (R38): the receiving port, the grandmaster and its clockClass. -/
def execPtpAnnounce (port : Fin 2) (dn : Nat) (logInt : Int) (identity : Nat) (gm : Word) (clockClass : Nat) (s : State) : Out :=
  s.next (ptpAnnounce port dn logInt identity gm clockClass s.dev)

/-- Entry to ABSENT (R41, R56, R57). -/
def Dev.enterAbsent (d : Dev) (x : Dom) : Dev :=
  ((d.setDom x { d.dom x with
      state := .absent, port := none, ests := [], ann0 := none, ann1 := none, waiting := none,
      trackingSince := none }).occur (domIdx x) 0x0A).raise (match x with | .a => 0x0101 | .b => 0x0102) 0 0

/-- A domain follows its Enable object (R41, R56): 0 makes it DISABLED; any other value lets a DISABLED domain enter ABSENT. -/
def Dev.syncDomain (d : Dev) (x : Dom) : Dev :=
  if d.cfg (domIdx x) 1 = 0 then
    d.setDom x { d.dom x with
      state := .disabled, port := none, ests := [], ann0 := none, ann1 := none, waiting := none, trackingSince := none }
  else if (d.dom x).state = .disabled then d.enterAbsent x else d

def domainReceiptTimeout (x : Dom) (d : Dev) : Dev :=
  let v := d.dom x
  if (v.state = .acquiring ∨ v.state = .tracking) ∧ v.lastRx + 3 * intervalTicks v.syncInterval ≤ d.tick then d.enterAbsent x
  else d.ageDom x

/-- DOMAIN_RECEIPT_TIMEOUT (R38, R41): 3 sync intervals without a valid message: ABSENT with 0x0101 or 0x0102. Before them, an
Announce past its own receipt timeout leaves the domain. -/
def execDomainReceiptTimeout (x : Dom) (s : State) : Out := s.next (domainReceiptTimeout x s.dev)

/-! ## Peer delay (R38, R39) -/

/-- The port is measured: a host port, or a sensor port enabled in [4000.1A] (R49). -/
def Dev.pdelayOn (d : Dev) (port : Nat) : Bool :=
  d.up && (decide (port < 2) || (decide (port - 2 < senOf d.code) && nbit (d.cfg 0x4000 0x1A) (port - 2)))

def pdelayInterval (port : Nat) (d : Dev) : Dev :=
  if d.pdelayOn port then
    let q := d.delay port
    let fails := if q.sent.isSome then q.fails + 1 else 0
    let lost := decide (3 ≤ fails) && q.capable
    let d := d.modDelay port (fun q =>
      { q with fails := fails, capable := q.capable && !lost, seq := q.seq + 1, sent := some d.counterI, got := none, t2 := none })
    (d.raiseIf lost 0x010A port 0).emit .pdelayReq port [(q.seq + 1).toNat]
  else d

/-- PDELAY_INTERVAL (R39): sends Pdelay_Req; the third interval in a row without completion costs asCapable. -/
def execPdelayInterval (port : Fin 6) (s : State) : Out := s.next (pdelayInterval port s.dev)

def pdelayResponse (port : Nat) (seq : BitVec 16) (t2 t3 : Option Int) (d : Dev) : Dev :=
  let q := d.delay port
  match q.sent with
  | none => d
  | some t1 =>
    if q.seq = seq ∧ d.pdelayOn port then
      let got := if t2.isSome then some d.counterI else q.got
      let r2 := if t2.isSome then t2.map (· * 2 ^ 16) else q.t2
      match got, r2, t3 with
      | some t4, some b, some c =>
        d.modDelay port (fun q =>
          { q with fails := 0, capable := true, delay := ((t4 - t1) - (c * 2 ^ 16 - b)) / 2, sent := none, got := none, t2 := none })
      | _, _, _ => d.modDelay port (fun q => { q with got := got, t2 := r2 })
    else d

/-- PDELAY_RESPONSE (R38, R40): the response carries the partner's receive time, its follow-up the transmit time;
with both, the mean link delay is half the round trip. -/
def execPdelayResponse (port : Fin 6) (seq : BitVec 16) (t2 t3 : Option Int) (s : State) : Out :=
  s.next (pdelayResponse port seq t2 t3 s.dev)

def pdelayReq (port : Nat) (seq : BitVec 16) (d : Dev) : Dev :=
  if d.pdelayOn port then
    (d.emit .pdelayResp port [seq.toNat, (d.portStamp port).toNat]).emit .pdelayRespFollowUp port [seq.toNat, (d.portStamp port).toNat]
  else d

/-- PDELAY_REQ (R38): the device answers a partner's request in two steps: Pdelay_Resp with the request's receive stamp, then
Pdelay_Resp_Follow_Up with the response's transmit stamp (log 59: both at the command's tick). -/
def execPdelayReq (port : Fin 6) (seq : BitVec 16) (s : State) : Out := s.next (pdelayReq port seq s.dev)

/-! ## Served time (R49) -/

/-- The sensor port serves time. -/
def Dev.serves (d : Dev) (p : Nat) : Bool := d.up && decide (p < senOf d.code) && nbit (d.cfg 0x4000 0x1A) p

def sensorPortSync (p : Nat) (d : Dev) : Dev :=
  if d.serves p = true ∧ kget 0 d.time.senTick p + intervalTicks (sgn 32 (d.cfg 0x4000 0x19)) ≤ d.tick then
    let q := kget 0 d.time.senSeq p
    let d := { d with time := { d.time with
      senSeq := kset 0 d.time.senSeq p ((q + 1) % 65536), senTick := kset 0 d.time.senTick p d.tick } }
    (d.emit .ptpSync p [d.cfg 0x4000 0x18, q, d.cfg 0x4000 0x19]).emit .ptpFollowUp p [d.cfg 0x4000 0x18, q, d.time.counter.toNat]
  else d

/-- SENSOR_PORT_SYNC (R49): at each interval a two-step Sync with the time counter. -/
def execSensorPortSync (p : Fin 4) (s : State) : Out := s.next (sensorPortSync p s.dev)

/-- R49: the clockClass the sensor ports announce. -/
def Dev.servedClass (d : Dev) : Nat :=
  match d.time.state with
  | .free | .unlocked => 248
  | .locked => (match d.time.selected with | some x => (d.dom x).clockClass | none => 248)
  | .holdover => d.time.heldClass

def sensorPortAnnounce (p : Nat) (d : Dev) : Dev :=
  if d.serves p then d.emit .ptpAnnounce p [d.cfg 0x4000 0x18, d.servedClass] else d

/-- SENSOR_PORT_ANNOUNCE (R49). -/
def execSensorPortAnnounce (p : Fin 4) (s : State) : Out := s.next (sensorPortAnnounce p s.dev)

/-! ## Triggers (R54, R55) -/

/-- A TRIG pin. -/
def Dev.trig (d : Dev) (pin : Nat) : Trig := kget Trig.reset d.time.trigs pin

/-- Updates a TRIG pin. -/
def Dev.modTrig (d : Dev) (pin : Nat) (f : Trig → Trig) : Dev :=
  { d with time := { d.time with trigs := kmod Trig.reset d.time.trigs pin f } }

/-- R54: the slot that drives a pin: the lowest that names it. -/
def Dev.trigSlot (d : Dev) (pin : Nat) : Option Nat :=
  (List.range (slotsOf d.code)).find? (fun n => d.cfg (0x3000 + n) 0x20 == pin)

/-- Rows H of a slot's camera image, from IN_HEIGHT, W0[47:32], of the descriptor [3000.10] names (R76). -/
def Dev.slotRows (d : Dev) (n : Nat) : Nat := wfld (d.loadW none (d.cfg (0x3000 + n) 0x10)) 47 32

/-- R54: the rising edge of slot n for an instant in ns, in ps. -/
def Dev.edgePs (d : Dev) (n : Nat) (tv : Int) : Int :=
  let i := 0x3000 + n
  tv * 1000 - (d.cfg i 0x22 : Int) * 1000 - (d.cfg i 0x21 : Int) * 500
    - ((d.slotRows n : Int) - 1) * (d.cfg i 0x27 : Int) / 2 + d.cfgI i 0x23 * 1000

/-- The counter in ps. -/
def Dev.nowPs (d : Dev) : Int := (d.time.counter.toNat * 1000 / 2 ^ 32 : Nat)

/-- The first multiple of `q` that is at least `n`. -/
def nextMultiple (n q : Nat) : Nat := ceilDiv n q * q

/-- Schedules the pin's pulse for the first cycle from `from` on that the divider selects. A computed edge in the past
is skipped with 0x0108, and the next selected cycle's edge that is not past is taken. -/
def Dev.scheduleTrig (d : Dev) (pin start : Nat) : Dev :=
  match d.trigSlot pin, d.cyc.next with
  | some n, some tv =>
    let q := max 1 (d.cfg (0x3000 + n) 0x25)
    let c := nextMultiple start q
    let at_ := fun (c : Nat) => d.edgePs n (tv + ((c : Int) - (d.cyc.number.toNat + 1 : Nat)) * d.period)
    let step : Int := q * d.period * 1000
    if at_ c < d.nowPs then
      let k := ((d.nowPs - at_ c + step - 1) / step).toNat
      (d.raise 0x0108 pin 0).modTrig pin (fun t => { t with edge := some (at_ (c + k * q)), cycle := c + k * q })
    else d.modTrig pin (fun t => { t with edge := some (at_ c), cycle := c })
  | _, _ => d.modTrig pin (fun t => { t with edge := none })

/-- R37: cancels the edges that are not yet driven and schedules them anew. -/
def Dev.rescheduleTrigs (d : Dev) : Dev :=
  (List.range 16).foldl (fun d pin =>
    if (d.trigSlot pin).isSome && !(d.trig pin).high then d.scheduleTrig pin (d.cyc.number.toNat + 1) else d) d

/-- A write of [3000.20] in RUN: a pin that a slot now names and that has neither a pulse nor an edge to come gets its next edge;
a pin that no slot names any more loses its edge (R54, log 59). -/
def Dev.adoptTrigs (d : Dev) : Dev :=
  if d.inRun then
    (List.range 16).foldl (fun d pin =>
      if (d.trigSlot pin).isNone then d.modTrig pin (fun t => { t with edge := none })
      else if (d.trig pin).edge.isNone && !(d.trig pin).high then d.scheduleTrig pin (d.cyc.number.toNat + 1) else d) d
  else d

def trigEdge (pin : Nat) (d : Dev) : Dev :=
  match (d.trig pin).edge with
  | some e => if e ≤ d.nowPs ∧ d.up then
      d.modTrig pin (fun t => { t with high := true, edge := none, stamps := (d.stampOf 7 pin :: t.stamps).take 8 }) else d
  | none => d

/-- TRIG_EDGE (R54): the scheduled rising edge is driven and stamped. -/
def execTrigEdge (pin : Fin 16) (s : State) : Out := s.next (trigEdge pin s.dev)

def trigPulseEnd (pin : Nat) (d : Dev) : Dev :=
  match (d.trig pin).high, (d.trig pin).stamps.head?, d.trigSlot pin with
  | true, some st, some n =>
    if d.stampPsNow st + (d.cfg (0x3000 + n) 0x24 : Int) * 1000 ≤ d.nowPs then
      let c := (d.trig pin).cycle
      let d := d.modTrig pin (fun t => { t with high := false, fall := some (d.stampOf 7 pin) })
      if d.inRun then d.scheduleTrig pin (c + 1) else d
    else d
  | true, _, none => d.modTrig pin (fun t => { t with high := false, fall := some (d.stampOf 7 pin) })
  | _, _, _ => d

/-- TRIG_PULSE_END (R50, R54, R55): the pin falls, the falling edge is stamped, and the device computes the next edge. -/
def execTrigPulseEnd (pin : Fin 16) (s : State) : Out := s.next (trigPulseEnd pin s.dev)

/-! ## The reference (R388) -/

/-- The Husk's answer to a bad clock: stop pins and edge die off, 0x0109 or another cause, a request for tier 3. -/
def Dev.refFault (d : Dev) (cause src : Nat) : Dev :=
  ((d.raise cause 0 0).huskStop).protect src 3 cause

/-- R388: a count lies within ±1,000 ppm of 6,103.5 edges. -/
def edgesOk (n : Nat) : Bool := decide (((2 * n : Int) - 12207).natAbs * 1000 ≤ 12207)

def refClockWindow (edges : Nat) (d : Dev) : Dev :=
  if d.up && decide (d.power.refTick + 97656 ≤ d.tick) then
    let d := { d with power := { d.power with refTick := d.tick } }
    if edgesOk edges then d else d.refFault 0x0109 srcRefClock
  else d

/-- REF_CLOCK_WINDOW (R388): a window of 8 crystal periods, 97,656 ticks, ends. -/
def execRefClockWindow (edges : Nat) (s : State) : Out := s.next (refClockWindow edges s.dev)

end Sys2Proof.Machine
end

