-- ==== Sys2Proof/Machine/Intake.lean ====
section
/-! DEFINITION. Sensor intake (03_sensor_intake.md): slots, ports, FIFOs, classification, kinematic channels. -/

namespace Sys2Proof.Machine

/-! ## Slots and ports (R58, R59, R548) -/

/-- Number of a port as [3000.02] codes it (R58). -/
def sportCode : SPort → Nat
  | .csi n => n
  | .sen n => 0x10 + n

/-- The slot is enabled. -/
def Dev.slotOn (d : Dev) (n : Nat) : Bool := decide (d.cfg (0x3000 + n) 1 ≠ 0)

/-- Enabled slots whose source is a port. -/
def Dev.slotsAt (d : Dev) (code : Nat) : List Nat :=
  (List.range (slotsOf d.code)).filter (fun n => d.slotOn n && d.cfg (0x3000 + n) 2 == code)

/-- The sample in arrival is dropped with what has been read of it. -/
def Slot.dropArrival (s : Slot) : Slot :=
  { s with frame := none, points := [], packets := 0, overflow := false, lost := 0, azimuth := none,
           reads := s.reads.filter (fun r => r.sample != s.seq) }

/-- A cause puts a slot into FAULT (R59): it stands until it ends; 0x020A has ended as it is raised, and starts the wait of a slot
with no other cause (R548). -/
def Slot.enterFault (s : Slot) (cause tick : Nat) : Slot :=
  let causes := if cause = 0x020A then s.causes else sins cause s.causes
  { s with state := .fault, causes := causes, absentSince := if causes = [] then some tick else none }.dropArrival

/-- Enters FAULT with a cause (R59), counted in [3000.34]; a slot in FAULT starts its wait again (R548). -/
def Dev.slotFault (d : Dev) (n cause : Nat) : Dev :=
  if (d.slot n).state = .disabled then d
  else
    let d := if (d.slot n).state = .fault then d else d.occur (0x3000 + n) 0x34
    d.modSlot n (fun s => s.enterFault cause d.tick)

/-- A cause of a slot's FAULT ends; with the last one the wait of 100 ms begins (R548). -/
def Slot.causeEnds (s : Slot) (cause tick : Nat) : Slot :=
  if s.state = .fault ∧ s.causes.contains cause = true then
    { s with causes := sdel cause s.causes, absentSince := if sdel cause s.causes = [] then some tick else none }
  else s

/-- Every enabled slot of a port enters FAULT. -/
def Dev.portFault (d : Dev) (code cause : Nat) : Dev := (d.slotsAt code).foldl (fun d n => d.slotFault n cause) d

def slotLinkUp (p : SPort) (d : Dev) : Dev :=
  let d := { d with intake := { d.intake with linkUp := sins (sportCode p) d.intake.linkUp } }
  (d.slotsAt (sportCode p)).foldl
    (fun d n => d.modSlot n (fun s => if s.state = .waitLink then { s with state := .syncing } else s)) d

/-- SLOT_LINK_UP (R59): the port's slots in WAIT_LINK go to SYNCING. -/
def execSlotLinkUp (p : SPort) (s : State) : Out := s.next (slotLinkUp p s.dev)

def slotSilent (n : Nat) (d : Dev) : Dev :=
  let s := d.slot n
  if s.state = .active ∧ d.cfg (0x3000 + n) 8 < s.silent then
    (d.modSlot n (fun s => { s with state := .syncing, silent := 0 })).raise 0x0205 n 0
  else d

/-- SLOT_SILENT (R59): ACTIVE without a complete sample for the silence limit. -/
def execSlotSilent (n : Fin 16) (s : State) : Out := s.next (slotSilent n s.dev)

def slotFaultCauseEnd (n : Nat) (lane : Bool) (d : Dev) : Dev :=
  d.modSlot n (fun s => s.causeEnds (if lane then 0x0202 else 0x0204) d.tick)

/-- SLOT_FAULT_CAUSE_END (R548): the lane's observation no longer holds (0x0202), or the PHY has lock and SNR again (0x0204). -/
def execSlotFaultCauseEnd (n : Fin 16) (lane : Bool) (s : State) : Out := s.next (slotFaultCauseEnd n lane s.dev)

def slotFaultHoldExpiry (n : Nat) (d : Dev) : Dev :=
  match (d.slot n).state, (d.slot n).causes, (d.slot n).absentSince with
  | .fault, [], some t =>
    if t + msTicks 100 ≤ d.tick then d.modSlot n (fun s => { s with state := .waitLink, absentSince := none }) else d
  | _, _, _ => d

/-- SLOT_FAULT_HOLD_EXPIRY (R59, R548): the cause has stayed absent for 100 ms. -/
def execSlotFaultHoldExpiry (n : Fin 16) (s : State) : Out := s.next (slotFaultHoldExpiry n s.dev)

def streamPortConfigRetry (p : SPort) (answers : Bool) (d : Dev) : Dev :=
  let c := sportCode p
  if d.intake.cfgFailed.contains c = true ∧ kget 0 d.intake.cfgTick c + sTicks 1 ≤ d.tick then
    if answers then
      let d := { d with intake := { d.intake with cfgFailed := sdel c d.intake.cfgFailed, cfgTick := kset 0 d.intake.cfgTick c 0 } }
      (d.slotsAt c).foldl (fun d n => d.modSlot n (fun s => s.causeEnds 0x0F09 d.tick)) d
    else { d with intake := { d.intake with cfgTick := kset 0 d.intake.cfgTick c d.tick } }
  else d

/-- STREAM_PORT_CONFIG_RETRY (R59, R548): 1 s after the last attempt; a successful retry ends the cause 0x0F09. -/
def execStreamPortConfigRetry (p : SPort) (answers : Bool) (s : State) : Out := s.next (streamPortConfigRetry p answers s.dev)

/-! ## The ping-pong FIFO (R68 to R73) -/

/-- Bytes of a bank. -/
def bankBytes : Nat := 65536

/-- Bytes an item takes: length word, two stamp words, payload in whole words. -/
def itemBytes (i : Item) : Nat := 8 * i.words.length

/-- The length word (R69). -/
def lengthWord (kind : Nat) (crcErr hdrCorr trunc : Bool) (dt vc line len : Nat) : Word :=
  packW [(4, kind), (1, b2n crcErr), (1, b2n hdrCorr), (1, b2n trunc), (1, 0), (8, dt), (4, vc), (12, 0), (16, line), (16, len)]

/-- Even parity of the bytes of a word, bit k for byte k (R68). -/
def parityByte (w : Word) : Byte :=
  BitVec.ofNat 8 (maskOf ((List.range 8).filter (fun k => ((List.range 8).filter (fun b => wbit w (8 * k + b))).length % 2 == 1)))

/-- A word as the FIFO stores it. -/
def fifoWord (w : Word) : FifoWord := { data := w, parity := parityByte w }

/-- A word whose parity fails in some byte (R71). -/
def FifoWord.bad (w : FifoWord) : Bool := decide (w.parity ≠ parityByte w.data)

/-- Flips one bit of a stored word. -/
def FifoWord.flip (w : FifoWord) (b : Nat) : FifoWord :=
  if b < 64 then { w with data := w.data ^^^ BitVec.ofNat 64 (2 ^ b) } else { w with parity := w.parity ^^^ BitVec.ofNat 8 (2 ^ (b - 64)) }

/-- An item (R68, R69): the length word, the stamp with its low word first, and the payload, whose last word is filled with zeros. -/
def makeItem (sample tag : Nat) (len : Word) (stamp : BitVec 96) (payload : List Byte) : Item :=
  { words := (len :: BitVec.ofNat 64 stamp.toNat :: BitVec.ofNat 64 (stamp.toNat / 2 ^ 64) ::
      leWords (ceilDiv payload.length 8) payload).map fifoWord, sample := sample, tag := tag }

/-- Data of a word of an item. -/
def Item.word (i : Item) (k : Nat) : Word := (i.words.getD k (fifoWord 0)).data

/-- The length word. -/
def Item.len (i : Item) : Word := i.word 0

/-- The payload bytes, as many as LENGTH says. -/
def Item.payload (i : Item) : List Byte := (wordsLe ((i.words.drop 3).map FifoWord.data)).take (wfld i.len 15 0)

/-- The item after the upsets that fell on its words, the first of which has number `base`. -/
def Item.upset (i : Item) (base : Nat) (l : List Upset) : Item :=
  { i with words := l.foldl (fun ws u => if base ≤ u.word then lmod ws (u.word - base) (fun w => w.flip u.bit) else ws) i.words }

/-- Places of the words of an item whose parity fails. -/
def Item.badWords (i : Item) : List Nat := (List.range i.words.length).filter (fun k => (i.words.getD k (fifoWord 0)).bad)

/-- Most payload bytes an item of a slot may hold (R68, R70). -/
def maxPayload (maxItem : Nat) : Nat := min 65512 (maxItem - 24)

/-- Bits of a pixel by the camera descriptor's PIXFMT (R76). -/
def pixBits (f : Nat) : Nat := match f with | 0 => 8 | 1 => 10 | 2 => 12 | 3 => 14 | _ => 16

/-- A word of the slot's descriptor (R76, R77). -/
def Dev.slotDesc (d : Dev) (n w : Nat) : Word := d.loadW none (d.cfg (0x3000 + n) 0x10 + 8 * w)

/-- Maximum item size of a slot (R70). -/
def Dev.maxItem (d : Dev) (n : Nat) : Nat :=
  if d.cfg (0x3000 + n) 2 < 0x10 then
    ceilDiv (wfld (d.slotDesc n 0) 63 48 * pixBits (wfld (d.slotDesc n 1) 63 60)) 8 + 24
  else 9240

/-- Moves the 17-bit write pointer and its inverted copy on by words (R72). -/
def Fifo.advanceW (f : Fifo) (words : Nat) : Fifo :=
  { f with wPtr := f.wPtr + BitVec.ofNat 17 words, wInv := ~~~(f.wPtr + BitVec.ofNat 17 words) }

/-- Moves the read pointer and its inverted copy. -/
def Fifo.advanceR (f : Fifo) (words : Nat) : Fifo :=
  { f with rPtr := f.rPtr + BitVec.ofNat 17 words, rInv := ~~~(f.rPtr + BitVec.ofNat 17 words) }

/-- Items of a bank. -/
def Fifo.bank (f : Fifo) (b : Bool) : List Item := if b then f.bank1 else f.bank0

/-- Sets the items of a bank. -/
def Fifo.setBank (f : Fifo) (b : Bool) (l : List Item) : Fifo := if b then { f with bank1 := l } else { f with bank0 := l }

/-- R70: the writer needs the other bank. -/
def Fifo.mustSwitch (f : Fifo) (maxItem : Nat) : Bool := decide (bankBytes - f.used < maxItem)

/-- R70: the bank the writer needs is not released. -/
def Fifo.blocked (f : Fifo) (maxItem : Nat) : Bool := f.mustSwitch maxItem && !f.otherFree

/-- Writes a whole item (R69), after the switch to the other bank where it is due (R70). -/
def Fifo.put (f : Fifo) (maxItem : Nat) (i : Item) : Fifo :=
  let f := if f.mustSwitch maxItem then { f with wBank := !f.wBank, used := 0, otherFree := false } else f
  { f.setBank f.wBank (f.bank f.wBank ++ [i]) with used := f.used + itemBytes i }.advanceW (itemBytes i / 8)

/-- Writes an item to a slot's FIFO, or discards it with [3000.32]; the answer says whether it was written. -/
def Dev.fifoWrite (d : Dev) (n : Nat) (i : Item) : Dev × Bool :=
  if (d.slot n).fifo.blocked (d.maxItem n) then (d.occur (0x3000 + n) 0x32, false)
  else (d.modSlot n (fun s => { s with fifo := s.fifo.put (d.maxItem n) i }), true)

/-- R72: resets the queue: both banks empty, all pointers zero, the sample in progress dropped; a stalled read ends
with status RESET (R73). -/
def Slot.resetQueue (s : Slot) : Slot := { s with fifo := { Fifo.reset with resetRead := s.fifo.stalled } }.dropArrival

/-- R72: the pointer copies of a slot differ: queue reset, 0x020A, FAULT. -/
def Dev.pointerMismatch (d : Dev) (n : Nat) : Dev :=
  ((d.modSlot n Slot.resetQueue).raise 0x020A n 0).slotFault n 0x020A

/-- The copies that State holds differ. -/
def Fifo.differ (f : Fifo) : Bool := decide (f.wInv ≠ ~~~f.wPtr) || decide (f.rInv ≠ ~~~f.rPtr)

/-- R72: the comparison of every slot's pointers, at the stream-port step of start-up and in the recovery after a discard. -/
def Dev.comparePointers (d : Dev) : Dev :=
  (List.range (slotsOf d.code)).foldl (fun (d : Dev) n => if (d.slot n).fifo.differ then d.pointerMismatch n else d) d

def fifoPointerCompare (n : Nat) (differ : Bool) (d : Dev) : Dev :=
  if d.chunkRuns 3 0 = true ∧ (d.coverOf 3 0).pos = n then
    (if differ || (d.slot n).fifo.differ then d.pointerMismatch n else d).tested 3 0
  else d

/-- FIFO_POINTER_COMPARE (R72, R211 kind 3): the command is the admitted intake self-test chunk, which takes the slots in turn; `differ`
is what it finds on the wires. -/
def execFifoPointerCompare (n : Fin 16) (differ : Bool) (s : State) : Out := s.next (fifoPointerCompare n differ s.dev)

def fifoReadResume (n : Nat) (d : Dev) : Dev :=
  d.modSlot n (fun s =>
    if s.fifo.resetRead || (s.fifo.stalled && !(s.fifo.bank s.fifo.rBank).isEmpty) then
      { s with fifo := { s.fifo with stalled := false, resetRead := false } } else s)

/-- FIFO_READ_RESUME (R73): a stalled read ends when an item becomes visible, or with status RESET. -/
def execFifoReadResume (n : Fin 16) (s : State) : Out := s.next (fifoReadResume n s.dev)

/-! ## Classification (R80, R81) -/

/-! Cycle N is the last one opened, with instant `cyc.tv`; N + 1 comes at `cyc.next`; further cycles lie P apart, but for the cycle
that the first-lock step stretched (R37). No cycle before the first of RUN exists. -/

/-- Length beyond P of the cycles from `c` on to the last one opened (R37). -/
def Dev.stretchFrom (d : Dev) (c : Int) : Int :=
  match d.cyc.stretch with
  | some (k, e) => if c ≤ k ∧ k < d.cyc.number.toNat then e else 0
  | none => 0

/-- Instant of a cycle; `next` is that of cycle N + 1. -/
def Dev.instantOf (d : Dev) (next : Int) (c : Int) : Int :=
  let n : Int := d.cyc.number.toNat
  if n < c then next + (c - n - 1) * d.period else d.cyc.tv - (n - c) * d.period - d.stretchFrom c

/-- Multiples of the period to the instant nearest a distance; midway takes the later one. -/
def Dev.nearest (d : Dev) (t : Int) : Int := (2 * t + d.period) / (2 * d.period)

/-- R81: the cycle whose instant is nearest a time; midway targets the later one. -/
def Dev.targetCycle (d : Dev) (next t : Int) : Int :=
  let n : Int := d.cyc.number.toNat
  let c :=
    if d.cyc.tv + next ≤ 2 * t then max (n + 1) (n + 1 + d.nearest (t - next))
    else match d.cyc.stretch with
      | some (k, _) =>
        if (k : Int) < n ∧ 2 * t < d.instantOf next k + d.instantOf next (k + 1) then min k (k + d.nearest (t - d.instantOf next k))
        else min n (n + d.nearest (t - d.cyc.tv))
      | none => min n (n + d.nearest (t - d.cyc.tv))
  max d.cyc.first c

/-- R81: the earliest cycle whose window closes at or after a time. -/
def Dev.openCycle (d : Dev) (next t : Int) : Int :=
  let n : Int := d.cyc.number.toNat
  max d.cyc.first (if t ≤ d.cyc.tv + d.margin then n - (d.cyc.tv + d.margin - t) / d.period
    else n + 1 + max 0 (-(-(t - next - d.margin) / d.period)))

/-- The late horizon H. -/
def Dev.horizon (d : Dev) : Int := d.cfg 0x5000 3

/-- The cycle a classified sample is delivered to: its target when in time, else the open cycle. -/
def Sample.sink (s : Sample) : Int := if s.lateness ≤ 0 then s.target else s.openC

/-- Counts a late sample by its lateness (R81). -/
def bumpLate (l : List Nat) (late : Int) : List Nat := lmod l (late - 1).toNat (fun c => (c + 1) % 2 ^ 32)

/-- A sample beyond the horizon (R81): [3000.31] and, once per slot and cycle, 0x020F. -/
def Dev.beyondSlot (d : Dev) (n : Nat) : Dev :=
  let d := d.occur (0x3000 + n) 0x31
  let c := d.cyc.number.toNat
  if (d.slot n).beyond = some c then d
  else (d.modSlot n (fun s => { s with beyond := some c })).raise 0x020F n 0

/-- A complete sample (R59) ends a silence, dropped or not. -/
def Slot.heard (s : Slot) : Slot := { s with silent := 0 }

/-- A complete sample that is not dropped (R59). -/
def Slot.sampled (s : Slot) : Slot := { s with silent := 0, state := if s.state = .syncing then .active else s.state }

/-- The lines read of a sample that is not converted are let go. -/
def Slot.forget (s : Slot) (seq : Nat) : Slot := { s with reads := s.reads.filter (fun r => r.sample != seq) }

/-- R80, R81: classifies a complete sample of a slot by its reference time against the arrival, which is now. A sample
that arrives while no cycle is to come is dropped (log 11). -/
def Dev.classify (d : Dev) (n : Nat) (x : Sample) : Dev :=
  let d := d.modSlot n Slot.heard
  let arrival : Int := d.now
  if arrival < x.ref then (d.modSlot n (fun s => s.forget x.seq)).raise 0x0206 n 0
  else match d.cyc.next with
    | none => d.modSlot n (fun s => s.forget x.seq)
    | some a =>
      let t := d.targetCycle a x.ref
      let o := d.openCycle a arrival
      let l := o - t
      if d.horizon < l then (d.modSlot n (fun s => s.forget x.seq)).beyondSlot n
      else
        let x := { x with target := t, openC := o, lateness := l, tv := if x.camera then x.tv else d.instantOf a t }
        d.modSlot n (fun s => { s.sampled with
          samples := s.samples ++ [x], late := if 1 ≤ l then bumpLate s.late l else s.late })

/-! ## CSI-2 (R51, R61, R62) -/

/-- The TRIG edge that exposed a frame (R51): of the edges on the slot's pin whose exposure had ended by the frame start, the one
whose d_trig, E and d_lat lead nearest to the frame start (DEDUCED, log 60); the newest of two that are as near. -/
def Dev.exposedBy (d : Dev) (n : Nat) (fs : BitVec 96) : Option (BitVec 96) :=
  let i := 0x3000 + n
  let t := d.stampPsNow fs
  let off := fun (e : BitVec 96) => t - d.stampPsNow e - ((d.cfg i 0x22 : Int) + d.cfg i 0x21) * 1000
  let far := fun (e : BitVec 96) => (off e - (d.cfg i 0x26 : Int) * 1000).natAbs
  (((d.trig (d.cfg i 0x20)).stamps.filter (fun e => decide (0 ≤ off e))).foldl
    (fun (b : Option (BitVec 96)) e => match b with | some x => if far e < far x then some e else b | none => some e) none)

/-- Centre of exposure of row 0, in ps (R51). -/
def Dev.row0Ps (d : Dev) (n : Nat) (f : Frame) : Option Int :=
  let i := 0x3000 + n
  if d.cfg i 0x20 = 0xFF then some (d.stampPsNow f.stamp - (d.cfg i 0x26 : Int) * 1000 - (d.cfg i 0x21 : Int) * 500)
  else f.edge.map (fun e => d.stampPsNow e + (d.cfg i 0x22 : Int) * 1000 + (d.cfg i 0x21 : Int) * 500)

/-- Row k's centre of exposure less T_v, in half ps (R51): (2k − (H − 1)) × t_line. -/
def Dev.rowOffset (d : Dev) (n : Nat) (k : Int) : Int := (2 * k - ((d.slotRows n : Int) - 1)) * (d.cfg (0x3000 + n) 0x27 : Int)

/-- Times of a camera frame in ns, T_v and T_old (R51). A time between two whole ns is rounded down (DESIGN CHOICE, log 59). -/
def Dev.cameraTimes (d : Dev) (n : Nat) (f : Frame) : Option (Int × Int) :=
  (d.row0Ps n f).map (fun t => ((2 * t - d.rowOffset n 0) / 2000, t / 1000))

/-- The stamp that gives a frame its T_v, and with it the time state (R45). -/
def Frame.source (f : Frame) : BitVec 96 := f.edge.getD f.stamp

/-- Output pixels of a camera slot over all pyramid levels (R76). -/
def Dev.outPixels (d : Dev) (n : Nat) : Nat :=
  let w0 := d.slotDesc n 0
  ((List.range (wfld (d.slotDesc n 1) 55 53)).map (fun l => (wfld w0 31 16 / 2 ^ l) * (wfld w0 15 0 / 2 ^ l))).sum

/-- Clocks of a camera sample's conversion: 8 output pixels a clock (R74). -/
def Dev.frameClocks (d : Dev) (n : Nat) : Nat := ceilDiv (d.outPixels n) 8

/-- Lines that are not valid, of H. -/
def invalidLines (h : Nat) (valid : List Bool) : Nat := h - ((valid.take h).filter id).length

/-- A defective frame (R62). -/
def Dev.defective (d : Dev) (n : Nat) : Dev := (d.occur (0x3000 + n) 0x35).raise 0x0207 n 0

/-- R62: a frame ends: judged by its invalid lines, then classified. A triggered frame that no stamped edge exposed is
dropped (log 11). -/
def Dev.closeFrame (d : Dev) (n : Nat) : Dev :=
  match (d.slot n).frame with
  | none => d
  | some f =>
    let q := (d.slot n).seq
    let lost := (d.slot n).lost
    let d := d.modSlot n (fun s => { s.heard with frame := none, overflow := false, lost := 0 })
    if d.cfg (0x3000 + n) 7 < invalidLines (d.slotRows n) f.valid then (d.modSlot n (fun s => s.forget q)).defective n
    else match d.cameraTimes n f with
      | none => d.modSlot n (fun s => s.forget q)
      | some (tv, told) =>
        d.classify n
          { camera := true, tv := tv, told := told, ref := tv, target := 0, openC := 0, lateness := 0, lines := f.valid, points := [],
            poison := lost, tstate := stampTState f.source, epoch := d.time.epoch, seq := q, left := d.frameClocks n - f.paid }

/-- Slots that take a virtual channel of a CSI-2 port and are receiving. -/
def Dev.csiSlots (d : Dev) (p vc : Nat) : List Nat :=
  (d.slotsAt p).filter (fun n => d.cfg (0x3000 + n) 3 == vc && ((d.slot n).state == .syncing || (d.slot n).state == .active))

/-- Writes an item of a slot's sample in arrival: a payload beyond the slot's maximum is cut and TRUNC set (R69). What the FIFO cannot
take raises 0x0208 once per sample (R70). -/
def Dev.putItem (d : Dev) (n : Nat) (len : Bool → Nat → Word) (cut : Bool) (stamp : BitVec 96) (data : List Byte) : Dev × Bool :=
  let max := maxPayload (d.maxItem n)
  let body := data.take max
  let s := d.slot n
  let (d, ok) := d.fifoWrite n (makeItem s.seq s.tag (len (cut || decide (max < data.length)) body.length) stamp body)
  let d := d.modSlot n (fun s => { s with tag := s.tag + 1 })
  if ok then (d, true)
  else if s.overflow then (d, false)
  else ((d.modSlot n (fun s => { s with overflow := true })).raise 0x0208 n 0, false)

/-- A short packet or line as an item (R69). -/
def Dev.csiItem (d : Dev) (n kind : Nat) (crcErr corr cut : Bool) (dt vc line : Nat) (stamp : BitVec 96) (data : List Byte) : Dev × Bool :=
  d.putItem n (fun t l => lengthWord kind crcErr corr t dt vc line l) cut stamp data

def csiFrameStart (p vc : Nat) (h : HdrEcc) (d : Dev) : Dev :=
  if h = .bad then d.raise 0x0203 p 0
  else (d.csiSlots p vc).foldl (fun d n =>
    let d := d.closeFrame n
    let st := d.stampOf 2 p
    let d := d.modSlot n (fun s => { s.dropArrival with
      seq := s.seq + 1, frame := some { stamp := st, edge := d.exposedBy n st, valid := [], paid := 0 } })
    (d.csiItem n 1 false (decide (h = .corrected)) false 0 vc 0 st []).1) d

/-- CSI_FRAME_START (R50, R62): stamps the frame; a frame still open closes at this moment. -/
def execCsiFrameStart (p : Fin 12) (vc : Fin 16) (h : HdrEcc) (s : State) : Out := s.next (csiFrameStart p vc h s.dev)

/-- Data types that carry pixels (R61). -/
def pixelType (dt : Nat) : Bool := [0x2A, 0x2B, 0x2C, 0x2D, 0x1E].contains dt

/-- Sets line `l` of a mask valid, filling earlier lines as invalid. -/
def setLine (v : List Bool) (l : Nat) (b : Bool) : List Bool :=
  lmod (v ++ List.replicate (l + 1 - v.length) false) l (fun _ => b)

/-- A stamp of an event some ticks ago, at the present increment. -/
def Dev.stampBack (d : Dev) (src port ticks : Nat) : BitVec 96 :=
  { d with time := { d.time with counter := d.time.counter - BitVec.ofNat 96 (ticks * d.time.inc.toNat) } }.stampOf src port

def csiLongPacket (p vc dt line : Nat) (lineStart : Option Nat) (data : List Byte) (crcOk cut : Bool) (h : HdrEcc) (d : Dev) : Dev :=
  if h = .bad then d.raise 0x0203 p 0
  else if pixelType dt = false then { d with intake := { d.intake with dropped := d.intake.dropped + 1 } }
  else (d.csiSlots p vc).foldl (fun d n =>
    match (d.slot n).frame with
    | none => d
    | some _ =>
      if d.slotRows n ≤ line then d
      else
        let (d, ok) := d.csiItem n 0 (!crcOk) (decide (h = .corrected)) cut dt vc line (d.stampBack 3 p (lineStart.getD 0)) data
        d.modSlot n (fun s => { s with frame := s.frame.map (fun f => { f with valid := setLine f.valid line (ok && crcOk && !cut) }) })) d

/-- CSI_LONG_PACKET (R50, R61, R62, R69, R70): one line; a line beyond the height is discarded. `lineStart` gives the ticks since the
line-start packet of a camera that sends them, whose header is then what is stamped; `cut` says that the link was lost within it. -/
def execCsiLongPacket (p : Fin 12) (vc : Fin 16) (dt : Byte) (line : Nat) (lineStart : Option Nat) (data : List Byte) (crcOk cut : Bool)
    (h : HdrEcc) (s : State) : Out := s.next (csiLongPacket p vc dt.toNat line lineStart data crcOk cut h s.dev)

def csiFrameEnd (p vc : Nat) (h : HdrEcc) (d : Dev) : Dev :=
  if h = .bad then d.raise 0x0203 p 0
  else (d.csiSlots p vc).foldl (fun d n =>
    (d.csiItem n 1 false (decide (h = .corrected)) false 1 vc 0 (d.stampOf 2 p) []).1.closeFrame n) d

/-- CSI_FRAME_END (R62, R80, R81): completes the sample. -/
def execCsiFrameEnd (p : Fin 12) (vc : Fin 16) (h : HdrEcc) (s : State) : Out := s.next (csiFrameEnd p vc h s.dev)

def csiLaneFault (p obs : Nat) (d : Dev) : Dev :=
  let d := d.raise 0x0202 p (obs + 1)
  let d := { d with intake := { d.intake with linkUp := sdel p d.intake.linkUp } }
  d.portFault p 0x0202

/-- CSI_LANE_FAULT (R62, R543): the port's slots enter FAULT; a frame in arrival has no frame end and is dropped. -/
def execCsiLaneFault (p : Fin 12) (obs : Fin 3) (s : State) : Out := s.next (csiLaneFault p obs s.dev)

/-! ## Kinematic channels (R53, R65 to R67) -/

/-- The value of field j of a channel (R66). -/
def Dev.fieldValue (d : Dev) (k desc : Nat) (data : List Byte) : Option Int := fieldQ d.free (100 + k) desc data

/-- Inserts a sample in stamp order, oldest first. -/
def insertKin (x : KinSample) : List KinSample → List KinSample
  | [] => [x]
  | a :: t => if x.stamp.toNat < a.stamp.toNat then x :: a :: t else a :: insertKin x t

/-- One kinematic record as an item of KIND 3 through the kinematic controller's buffer (R68, R69, R71): a word that fails its parity
raises 0x0209 and costs the sample (log 60: the record has no slot, so no [3000.33] counts it). -/
def Dev.kinRecord (d : Dev) (k : Nat) (stamp : BitVec 96) (data : List Byte) (upsets : List Upset) : Dev × Bool :=
  let i := (makeItem 0 0 (lengthWord 3 false false false 0 0 0 data.length) stamp data).upset 0 upsets
  (i.badWords.foldl (fun d _ => d.raise 0x0209 (0x100 + k) 0) d, i.badWords.isEmpty)

/-- One kinematic sample of channel k (R53, R65 to R67, R80, R81). -/
def Dev.kinSample (d : Dev) (k : Nat) (stamp : BitVec 96) (data : List Byte) (phase : Bool) : Dev :=
  let i := 0x3100 + k
  let descs := (List.range 8).map (fun j => d.cfg i (8 + j))
  if descs.any (fun x => fieldPast x data) then { d with intake := { d.intake with dropped := d.intake.dropped + 1 } }
  else
    let vals := (List.range 8).map (fun j => d.fieldValue j (descs.getD j 0) data)
    let base : Int := match (List.range 8).find? (fun j => fld (descs.getD j 0) 31 30 == 3) with
      | some j => (vals.getD j none).getD 0
      | none => d.onScale (stampEpoch stamp) (stampNs stamp)
    let tv := base - d.cfgI i 0x20
    let d := d.bumpFree
    if (d.now : Int) < tv then d.raise 0x0206 k 0
    else
      let kvals := (List.range 8).map (fun j => if fld (descs.getD j 0) 31 30 = 3 then none else vals.getD j none)
      let x : KinSample := { tv := tv, stamp := stamp, values := kvals, tick := d.tick, phaseError := phase, lateness := 0 }
      let ring := fun (x : KinSample) (d : Dev) => d.modKin k (fun c => { c with ring := (x :: c.ring).take 256 })
      match d.cyc.next with
      | none => ring x d
      | some a =>
        let t := d.targetCycle a tv
        let o := d.openCycle a d.now
        let l := o - t
        if d.horizon < l then
          let d := (ring x d).occur i 0x31
          let c := d.cyc.number.toNat
          if (d.kin k).beyond = some c then d else (d.modKin k (fun q => { q with beyond := some c })).raise 0x020F k 0
        else
          let x := { x with lateness := l }
          let d := ring x d
          let c := (if l ≤ 0 then t else o).toNat
          let all := insertKin x (kget [] (d.kin k).tensors c)
          let d := d.modKin k (fun q => { q with
            tensors := kset [] q.tensors c (all.drop (all.length - 128)), late := if 1 ≤ l then bumpLate q.late l else q.late })
          if 128 < all.length then (d.occur i 0x32).raise 0x0211 k 0 else d

/-- A received record becomes a sample unless its item fails (R65, R71). -/
def Dev.kinTake (d : Dev) (k : Nat) (stamp : BitVec 96) (data : List Byte) (phase : Bool) (upsets : List Upset) : Dev :=
  let (d, ok) := d.kinRecord k stamp data upsets
  if ok then d.kinSample k stamp data phase else d

/-- Channels whose source is a code. -/
def Dev.kinsAt (d : Dev) (src : Nat) : List Nat := (List.range 32).filter (fun k => d.cfg (0x3100 + k) 1 == src)

/-- R65: a CAN FD frame matches a channel under its mask. -/
def Dev.canMatch (d : Dev) (k : Nat) (id : Nat) (ext : Bool) : Bool :=
  let m := d.cfg (0x3100 + k) 2
  let mask := d.cfg (0x3100 + k) 3
  decide (Nat.land (fld m 28 0) mask = Nat.land id mask) && (nbit m 31 == ext)

def canFrame (c id : Nat) (ext : Bool) (data : List Byte) (upsets : List Upset) (d : Dev) : Dev :=
  (d.kinsAt c).foldl (fun d k => if d.canMatch k id ext then d.kinTake k (d.stampOf 4 c) data false upsets else d) d

/-- CAN_FRAME (R65 to R67). -/
def execCanFrame (c : Fin 4) (id : BitVec 29) (ext : Bool) (data : List Byte) (upsets : List Upset) (s : State) : Out :=
  s.next (canFrame c id.toNat ext data upsets s.dev)

def canBusFault (c : Nat) (d : Dev) : Dev :=
  if d.intake.canBad.contains c then d
  else
    let d := { d with intake := { d.intake with canBad := sins c d.intake.canBad } }
    (d.kinsAt c).foldl (fun d k => (d.occur (0x3100 + k) 0x32).raise 0x0210 k 0) d

/-- CAN_BUS_FAULT (R65): error-passive or bus-off; 0x0210 for every channel on the controller. -/
def execCanBusFault (c : Fin 4) (s : State) : Out := s.next (canBusFault c s.dev)

def canBusRecovered (c : Nat) (d : Dev) : Dev := { d with intake := { d.intake with canBad := sdel c d.intake.canBad } }

/-- CAN_BUS_RECOVERED (R65, R341): the controller leaves error-passive and bus-off. -/
def execCanBusRecovered (c : Fin 4) (s : State) : Out := s.next (canBusRecovered c s.dev)

/-- The channel's source is an SPI controller. -/
def isSpi (src : Nat) : Bool := decide (0x10 ≤ src) && decide (src ≤ 0x15)

/-- R65: the poll period of a channel has passed since its last poll. -/
def Dev.pollDue (d : Dev) (k : Nat) : Bool :=
  match (d.kin k).polled with
  | some t => decide (t + nsTicks (d.cfg (0x3100 + k) 4) ≤ d.tick)
  | none => true

def spiPoll (k : Nat) (d : Dev) : Dev :=
  let src := d.cfg (0x3100 + k) 1
  if isSpi src && d.up && d.pollDue k then
    (d.modKin k (fun c => { c with select := some (d.stampOf 5 (src - 0x10)), polled := some d.tick })).emit .spiCommand (src - 0x10)
      [k, d.cfg (0x3100 + k) 7, d.cfg (0x3100 + k) 5, d.cfg (0x3100 + k) 6]
  else d

/-- SPI_POLL (R65): a transaction begins; chip select is stamped and the command word sent. -/
def execSpiPoll (k : Fin 32) (s : State) : Out := s.next (spiPoll k s.dev)

def spiFrameReceived (k : Nat) (data : List Byte) (upsets : List Upset) (d : Dev) : Dev :=
  match (d.kin k).select with
  | some st => (d.modKin k (fun c => { c with select := none })).kinTake k st data false upsets
  | none => d

/-- SPI_FRAME_RECEIVED (R65 to R67): the received frame is one sample. -/
def execSpiFrameReceived (k : Fin 32) (data : List Byte) (upsets : List Upset) (s : State) : Out :=
  s.next (spiFrameReceived k data upsets s.dev)

def encoderLatch (e : Nat) (steps : Int) (phaseError zEdge : Bool) (upsets : List Upset) (d : Dev) : Dev :=
  let c := sgn 32 (pat 32 (kget 0 d.intake.encoders e + steps))
  let d := { d with intake := { d.intake with encoders := kset 0 d.intake.encoders e c } }
  (d.kinsAt (0x20 + e)).foldl (fun d k =>
    if zEdge || d.pollDue k then
      let d := if zEdge then d else d.modKin k (fun c => { c with polled := some d.tick })
      let d := if phaseError then (d.occur (0x3100 + k) 0x32).raise 0x020B k 0 else d
      d.kinTake k (d.stampOf 6 e) (leBytes 4 (pat 32 c)) phaseError upsets
    else d) d

/-- ENCODER_LATCH (R65): the signed 32-bit count moves by the counted steps and is latched as one sample, at a Z edge or at the poll
period of the channel. The field descriptors read the count as 4 little-endian bytes (DESIGN CHOICE, log 60: R66 names no origin for
an encoder). -/
def execEncoderLatch (e : Fin 8) (steps : Int) (phaseError zEdge : Bool) (upsets : List Upset) (s : State) : Out :=
  s.next (encoderLatch e steps phaseError zEdge upsets s.dev)

/-! ## Sensor Ethernet (R52, R63, R64, R77) -/

/-- The decoder descriptor of a slot, 14 words (R77). -/
def Dev.decoder (d : Dev) (n : Nat) : List Word := d.loadWs none (d.cfg (0x3000 + n) 0x10) 14

/-- R52: the packet's stamps lie after its arrival or too long before it. -/
def Dev.implausible (d : Dev) (n : Nat) (points : List ScanPoint) : Bool :=
  points.any (fun q => decide ((d.now : Int) < q.time) || decide (q.time < (d.now : Int) - d.cfg (0x3000 + n) 0x28))

/-- R52: the time of a point of a packet: the embedded stamp plus the latency, or for an implausible packet the arrival less the
latency. -/
def Dev.pointTime (d : Dev) (n : Nat) (bad : Bool) (q : ScanPoint) : ScanPoint :=
  let lat : Int := d.cfg (0x3000 + n) 0x26
  { q with time := if bad then (d.now : Int) - lat else q.time + lat }

/-- R52: the times of a packet's points. -/
def Dev.pointTimes (d : Dev) (n : Nat) (points : List ScanPoint) : List ScanPoint := points.map (d.pointTime n (d.implausible n points))

/-- R45: the time state of a scanner sample's T_v, the instant of its target cycle: that cycle's own while it is in flight, else the
state now (log 60). -/
def Dev.tstateOf (d : Dev) (c : Int) : Nat :=
  match d.cyc.flight.find? (fun x => decide ((x.number : Int) = c)) with
  | some x => x.tstate.code
  | none => d.time.state.code

/-- A scanner sample ends: classified by its latest point time; T_old is the earliest (R52). The next sample begins. -/
def Dev.closeScan (d : Dev) (n : Nat) : Dev :=
  let pts := (d.slot n).points
  let q := (d.slot n).seq
  let lost := (d.slot n).lost
  let d := d.modSlot n (fun s => { s with points := [], packets := 0, overflow := false, lost := 0, seq := s.seq + 1 })
  match pts with
  | [] => d.modSlot n Slot.heard
  | x :: t =>
    let latest := t.foldl (fun m x => max m x.time) x.time
    let oldest := t.foldl (fun m x => min m x.time) x.time
    let ts := match d.cyc.next with | some a => d.tstateOf (d.targetCycle a latest) | none => d.time.state.code
    d.classify n
      { camera := false, tv := 0, told := oldest, ref := latest, target := 0, openC := 0, lateness := 0, lines := [], points := pts,
        poison := lost, tstate := ts, epoch := d.time.epoch, seq := q, left := 2 * pts.length }

/-- Adds the points of a packet in order; with SAMPLE_END 0 a sample ends before the point at which the azimuth wraps (R77). -/
def Dev.addPoints (d : Dev) (n : Nat) (w : List Word) (l : List (ScanPoint × Option Nat)) : Dev :=
  l.foldl (fun d q =>
    let d := match (d.slot n).azimuth, q.2 with
      | some b, some a => if wfld (w.getD 12 0) 63 62 = 0 ∧ azWraps w b a = true then d.closeScan n else d
      | _, _ => d
    d.modSlot n (fun s => { s with points := s.points ++ [q.1], azimuth := if q.2.isSome then q.2 else s.azimuth })) d

/-- The packet just taken ends a sample: every NPKT packets, or by the header flag (R77). Code 3 is reserved and ends none. -/
def Dev.packetEnds (d : Dev) (n : Nat) (w : List Word) (payload : List Byte) : Bool :=
  match wfld (w.getD 12 0) 63 62 with
  | 1 => decide (wfld (w.getD 12 0) 31 16 ≤ (d.slot n).packets)
  | 2 => endFlag w payload
  | _ => false

/-- One packet for a scanner slot (R52, R66, R69, R70, R77). -/
def Dev.scanPacket (d : Dev) (n p : Nat) (f : EthFrame) : Dev :=
  let w := d.decoder n
  let payload := ethContent f
  if packetMatches w payload && headerWhole w payload then
    let tag := (d.slot n).tag
    let raw := decodePacket w d.free tag payload
    let gone := invalidPoints w d.free payload
    let bad := d.implausible n (raw.map Prod.fst)
    let pts := raw.map (fun q => (d.pointTime n bad q.1, q.2))
    let d := d.bumpFree.raiseIf (bad && !raw.isEmpty) 0x010B n 0
    let (d, ok) := d.putItem n (fun t l => lengthWord 2 false false t 0 0 0 l) false (d.stampOf 1 p) payload
    let d := d.modSlot n (fun s => { s with packets := s.packets + 1, discarded := s.discarded + gone })
    let d := if ok then d.addPoints n w pts else d
    if d.packetEnds n w payload then d.closeScan n else d
  else d.modSlot n (fun s => { s with discarded := s.discarded + 1 })

/-- R65: the channel takes the frame by EtherType or UDP port. The manual gives a channel no object with a source address, so its
filter accepts any (DESIGN CHOICE, log 60). -/
def Dev.senMatch (d : Dev) (k : Nat) (f : EthFrame) : Bool :=
  let m := d.cfg (0x3100 + k) 2
  if nbit m 31 then decide ((ethUdp f).map Prod.fst = some (m % 65536)) else decide (f.etherType = BitVec.ofNat 16 m)

/-- R66: the data of an Ethernet sample: the UDP payload when UDP is selected, else what follows the EtherType. -/
def Dev.senData (d : Dev) (k : Nat) (f : EthFrame) : List Byte := if nbit (d.cfg (0x3100 + k) 2) 31 then ethContent f else f.payload

/-- Slots of a sensor port that take a source address, [3000.04] in bits [47:0], and are receiving (R58). -/
def Dev.senSlots (d : Dev) (p : Nat) (src : BitVec 48) : List Nat :=
  (d.slotsAt (0x10 + p)).filter (fun n => (d.cfg (0x3000 + n) 4 % 2 ^ 48 == 0 || d.cfg (0x3000 + n) 4 % 2 ^ 48 == src.toNat)
    && ((d.slot n).state == .syncing || (d.slot n).state == .active))

/-- R63: the MAC takes the frame: its FCS is good and it has at most 9,216 bytes (log 60: FCS included, tag not counted). -/
def ethOk (f : EthFrame) : Bool := f.fcsOk && decide (ethSize f ≤ 9216 + (if f.tag.isSome then 4 else 0))

def senFrame (p : Nat) (f : EthFrame) (upsets : List Upset) (d : Dev) : Dev :=
  if ethOk f then
    let d := (d.senSlots p f.src).foldl (fun d n => d.scanPacket n p f) d
    (d.kinsAt (0x30 + p)).foldl (fun d k => if d.senMatch k f then d.kinTake k (d.stampOf 1 p) (d.senData k f) false upsets else d) d
  else { d with intake := { d.intake with dropped := d.intake.dropped + 1 } }

/-- SEN_FRAME (R52, R63, R65, R66, R69, R77): the 802.1Q tag is stripped; frames the MAC does not take are counted. -/
def execSenFrame (p : Fin 4) (f : EthFrame) (upsets : List Upset) (s : State) : Out := s.next (senFrame p f upsets s.dev)

def senPhyFault (p : Nat) (d : Dev) : Dev :=
  let d := d.raise 0x0204 p 0
  let d := { d with intake := { d.intake with linkUp := sdel (0x10 + p) d.intake.linkUp } }
  d.portFault (0x10 + p) 0x0204

/-- SEN_PHY_FAULT (R64). -/
def execSenPhyFault (p : Fin 4) (s : State) : Out := s.next (senPhyFault p s.dev)

end Sys2Proof.Machine
end

