-- ==== Sys2Proof/Machine/Convert.lean ====
section
/-! DEFINITION. The intake engine (03_sensor_intake.md, R60, R71, R73 to R78, R124, R125): reading the FIFOs, the time-slice table,
the conversion of camera and scanner samples, delivery to a cycle. -/

namespace Sys2Proof.Machine

/-! ## Reading (R71, R73) -/

/-- A point whose record touches a FIFO payload word (R71, R77): the k-th 8 bytes of the payload. -/
def pointTouches (w : List Word) (i k : Nat) : Bool :=
  let a := wfld (w.getD 4 0) 63 48 + i * wfld (w.getD 4 0) 47 32
  decide (a < 8 * k + 8) && decide (8 * k < a + wfld (w.getD 4 0) 47 32)

/-- Removes the points whose id a test finds lost; the answer counts them. -/
def losePts (l : List ScanPoint) (gone : Nat → Bool) : List ScanPoint × Nat :=
  (l.filter (fun q => !gone q.id), (l.filter (fun q => gone q.id)).length)

/-- Poisoned points leave the sample they belong to, in arrival or waiting, and count (R71). -/
def Slot.losePoints (s : Slot) (gone : Nat → Bool) : Slot :=
  let a := losePts s.points gone
  { s with points := a.1, lost := s.lost + a.2,
           samples := s.samples.map (fun x => let b := losePts x.points gone; { x with points := b.1, poison := x.poison + b.2 }) }

/-- A poisoned line is cleared in its sample, in arrival or waiting, and counts (R71). -/
def Slot.loseLine (s : Slot) (sample line : Nat) : Slot :=
  let s := if s.seq = sample ∧ s.frame.isSome = true then
      { s with lost := s.lost + 1, frame := s.frame.map (fun f => { f with valid := setLine f.valid line false }) } else s
  { s with samples := s.samples.map (fun x =>
      if x.camera = true ∧ x.seq = sample then { x with lines := setLine x.lines line false, poison := x.poison + 1 } else x) }

/-- The effect of a bad word `k` of an item (R71): 0 to 2 hold its length and stamp, which cost the whole item, 3 on its payload. A
short packet has no line to lose. -/
def Dev.badWord (d : Dev) (n : Nat) (i : Item) (k : Nat) : Dev :=
  match wfld i.len 63 60 with
  | 0 => d.modSlot n (fun s => s.loseLine i.sample (wfld i.len 31 16))
  | 2 =>
    let w := d.decoder n
    d.modSlot n (fun s => s.losePoints (fun id => decide (id / 65536 = i.tag) && (decide (k < 3) || pointTouches w (id % 65536) (k - 3))))
  | _ => d

/-- A line that was read, for the sample in arrival or one that waits. -/
def Slot.take (s : Slot) (i : Item) : Slot :=
  if wfld i.len 63 60 = 0 ∧ ((s.seq = i.sample ∧ s.frame.isSome = true) ∨ s.samples.any (fun x => x.camera && x.seq == i.sample) = true) then
    { s with reads := { sample := i.sample, line := wfld i.len 31 16, data := i.payload } :: s.reads }
  else s

/-- Reads the items of a bank in order; `base` is the number of the item's first word among the words read. Each bad word is counted
and reported; a bad length word discards the rest of the bank (R71). -/
def Dev.readItems (d : Dev) (n base : Nat) (upsets : List Upset) : List Item → Dev
  | [] => d
  | i :: t =>
    let j := i.upset base upsets
    let bad := j.badWords
    let d := bad.foldl (fun (d : Dev) _ => (d.occur (0x3000 + n) 0x33).raise 0x0209 n 0) d
    if bad.contains 0 then (i :: t).foldl (fun d x => d.badWord n x 0) d
    else
      let d := d.modSlot n (fun s => s.take j)
      (bad.foldl (fun d k => d.badWord n j k) d).readItems n (base + i.words.length) upsets t

/-- Words of the items of a bank. -/
def bankWords (l : List Item) : Nat := (l.map (fun i => i.words.length)).sum

/-! ## The time-slice table (R74) -/

/-- The engine has begun to convert the frame in arrival (R83). -/
def Slot.begun (s : Slot) : Bool := s.frame.isSome && s.reads.any (fun r => r.sample == s.seq)

/-- R74: the slot has a visible item or a conversion in progress. -/
def Slot.busy (s : Slot) : Bool := !(s.fifo.bank s.fifo.rBank).isEmpty || s.samples.any (fun x => decide (0 < x.left)) || s.begun

/-- Spends the clocks of an entry on the samples in order; the answer gives what is over. -/
def spend : Nat → List Sample → List Sample × Nat
  | b, [] => ([], b)
  | b, x :: t =>
    if b < x.left then ({ x with left := x.left - b } :: t, 0)
    else let r := spend (b - x.left) t; ({ x with left := 0 } :: r.1, r.2)

/-- The conversion clocks of an entry in its slot: first the samples that wait, then the frame in arrival, as far as its lines have been
read. -/
def Dev.work (d : Dev) (n clocks : Nat) : Dev :=
  let r := spend clocks (d.slot n).samples
  let s := d.slot n
  let rows := (s.reads.filter (fun x => x.sample == s.seq)).length
  let cap := d.frameClocks n * rows / max 1 (d.slotRows n)
  d.modSlot n (fun s => { s with samples := r.1, frame := s.frame.map (fun f => { f with paid := min (f.paid + r.2) (max f.paid cap) }) })

/-- Serves a slot (R74): reads every visible item of the reader's bank, at no cost in conversion clocks (log 61), releases a bank the
writer has left (R70), stalls the read of a conversion that waits for its next item (R73), and converts. -/
def Dev.serveSlot (d : Dev) (n clocks : Nat) (upsets : List Upset) : Dev :=
  let f := (d.slot n).fifo
  let items := f.bank f.rBank
  let d := d.readItems n 0 upsets items
  let d := d.modSlot n (fun s =>
    let g := (s.fifo.setBank s.fifo.rBank []).advanceR (bankWords items)
    { s with fifo := if g.rBank = g.wBank then { g with stalled := items.isEmpty && s.begun } else { g with rBank := !g.rBank, otherFree := true } })
  d.work n clocks

/-- Entries in use of the time-slice table. -/
def Dev.sliceLen (d : Dev) : Nat := max 1 (d.cfg 0x3200 1)

/-- A time-slice entry. -/
def Dev.sliceAt (d : Dev) (e : Nat) : Nat := d.cfg 0x3200 (0x10 + e)

/-- The engine stays in an entry: an idle one, or one whose slot has work (R74). -/
def Dev.stays (d : Dev) (e : Nat) : Bool :=
  let n := d.sliceAt e / 256
  decide (n = 0xFF) || (decide (n < slotsOf d.code) && (d.slot n).busy)

/-- R74: the next entry in the cyclic walk at which the engine stays; with none it stands where it was. -/
def Dev.nextEntry (d : Dev) : Option Nat :=
  ((List.range d.sliceLen).map (fun k => (d.intake.entry + 1 + k) % d.sliceLen)).find? d.stays

def timesliceEntry (upsets : List Upset) (d : Dev) : Dev :=
  match d.nextEntry with
  | none => { d with intake := { d.intake with gated := false } }
  | some e =>
    let n := d.sliceAt e / 256
    let d := { d with intake := { d.intake with entry := e, gated := decide (n = 0xFF) } }
    if n = 0xFF then d else d.serveSlot n (256 * (d.sliceAt e % 256)) upsets

/-- TIMESLICE_ENTRY (R70, R71, R73, R74): the engine passes to its next entry with work, or an idle one, and serves its slot. -/
def execTimesliceEntry (upsets : List Upset) (s : State) : Out := s.next (timesliceEntry upsets s.dev)

/-! ## Camera conversion (R76) -/

/-- A pixel of a line by PIXFMT: RAW8 to RAW14 packed as CSI-2 packs them, and the luminance of YUV422-8 (PRESUMED, log 61). -/
def rawPixel (fmt : Nat) (line : List Byte) (x : Nat) : Nat :=
  let b := fun (k : Nat) => (line.getD k 0).toNat
  match fmt with
  | 0 => b x
  | 1 => b (x / 4 * 5 + x % 4) * 4 + b (x / 4 * 5 + 4) / 4 ^ (x % 4) % 4
  | 2 => b (x / 2 * 3 + x % 2) * 16 + b (x / 2 * 3 + 2) / 16 ^ (x % 2) % 16
  | 3 => b (x / 4 * 7 + x % 4) * 64 + leNat ((line.drop (x / 4 * 7 + 4)).take 3) / 64 ^ (x % 4) % 64
  | _ => b (2 * x + 1)

/-- What the conversion of one camera sample reads: the descriptor's four words and the lines read. -/
structure Shot where
  w : List Word
  rows : List LineRead

/-- A word of the descriptor. -/
def Shot.word (s : Shot) (i : Nat) : Word := s.w.getD i 0

/-- IN_WIDTH, IN_HEIGHT, OUT_WIDTH, OUT_HEIGHT. -/
def Shot.inW (s : Shot) : Nat := wfld (s.word 0) 63 48
def Shot.inH (s : Shot) : Nat := wfld (s.word 0) 47 32
def Shot.outW (s : Shot) : Nat := wfld (s.word 0) 31 16
def Shot.outH (s : Shot) : Nat := wfld (s.word 0) 15 0
/-- PIXFMT, COLOUR, LEVELS, ROWTIME. -/
def Shot.fmt (s : Shot) : Nat := wfld (s.word 1) 63 60
def Shot.colour (s : Shot) : Nat := wfld (s.word 1) 57 56
def Shot.levels (s : Shot) : Nat := wfld (s.word 1) 55 53
def Shot.rowTime (s : Shot) : Bool := wbit (s.word 1) 52
/-- 2^MAP_STEP. -/
def Shot.grid (s : Shot) : Nat := 2 ^ wfld (s.word 3) 63 56

/-- A source pixel after black level and gain (12 fraction bits), 0 below black; a line that was not read gives 0. -/
def Shot.pixel (s : Shot) (x y : Nat) : Nat :=
  match s.rows.find? (fun r => r.line == y) with
  | some r => (rawPixel s.fmt r.data x - wfld (s.word 1) 51 36) * wfld (s.word 1) 35 20
  | none => 0

/-- One coordinate of the remap grid at an output pixel, exact, in units of 1/(16 × grid²) source pixel: the bilinear interpolation of the
four grid entries around it. Entries lie row by row, x before y, little-endian (DESIGN CHOICE, log 61). -/
def Dev.mapAt (d : Dev) (s : Shot) (axis x y : Nat) : Nat :=
  let k := s.grid
  let gw := (s.outW - 1) / k + 2
  let g := fun (i j : Nat) => leNat (d.loadA none ((s.word 2).toNat + 4 * (j * gw + i) + 2 * axis) 2)
  let i := x / k
  let j := y / k
  let fx := x % k
  let fy := y % k
  g i j * (k - fx) * (k - fy) + g (i + 1) j * fx * (k - fy) + g i (j + 1) * (k - fx) * fy + g (i + 1) (j + 1) * fx * fy

/-- Denominator of a source coordinate. -/
def Shot.den (s : Shot) : Nat := 16 * s.grid * s.grid

/-- The source of an output pixel lies within the input. -/
def Dev.mapInside (d : Dev) (s : Shot) (x y : Nat) : Bool :=
  decide (d.mapAt s 0 x y ≤ (s.inW - 1) * s.den) && decide (d.mapAt s 1 x y ≤ (s.inH - 1) * s.den)

/-- Bilinear interpolation of the source pixels, exact: numerator over den². -/
def Dev.bilinear (d : Dev) (s : Shot) (x y : Nat) : Nat :=
  let sx := d.mapAt s 0 x y
  let sy := d.mapAt s 1 x y
  let n := s.den
  let a := sx % n
  let b := sy % n
  s.pixel (sx / n) (sy / n) * (n - a) * (n - b) + s.pixel (sx / n + 1) (sy / n) * a * (n - b) +
    s.pixel (sx / n) (sy / n + 1) * (n - a) * b + s.pixel (sx / n + 1) (sy / n + 1) * a * b

/-- LUT index of an output pixel: the interpolated value where the mosaic passes through or the luminance of YUV is wanted; where colours
must be interpolated, what the pixels around it give (log 61). -/
def Dev.lutIndexAt (d : Dev) (s : Shot) (ch x y : Nat) : Nat :=
  if s.colour = 2 ∨ (s.fmt = 4 ∧ s.colour = 0) then Config.lutIndex s.fmt (d.bilinear s x y) (4096 * s.den * s.den) % 4096
  else
    let sx := d.mapAt s 0 x y
    let sy := d.mapAt s 1 x y
    Config.colourIndex ([s.fmt, wfld (s.word 1) 59 58, if s.colour = 0 then 3 else ch, sx, sy, s.den] ++
      (List.range 4).flatMap (fun j => (List.range 4).map (fun i => s.pixel (sx / s.den + i - 1) (sy / s.den + j - 1)))) % 4096

/-- An output pixel of level 0: the LUT's byte, as U8 or less 128 as I8; 0 where its source lies outside the input. -/
def Dev.level0 (d : Dev) (s : Shot) (ch x y : Nat) : Int :=
  if d.mapInside s x y then
    let u := (leNat (d.loadA none (wfld (s.word 3) 47 0 + d.lutIndexAt s ch x y) 1) : Int)
    if wfld (s.word 3) 55 48 = 1 then u - 128 else u
  else 0

/-- The next pyramid level: half the width and height, [1 2 1] in both directions, to nearest even; beyond its border an image continues
with its border pixels (DESIGN CHOICE, log 61). -/
def halve (img : List (List Int)) : List (List Int) :=
  let h := img.length
  let w := (img.headD []).length
  let at_ := fun (x y : Nat) => (img.getD (min y (h - 1)) []).getD (min x (w - 1)) 0
  let k := fun (i : Nat) => if i = 1 then (2 : Int) else 1
  (List.range (h / 2)).map (fun y => (List.range (w / 2)).map (fun x =>
    rne (((List.range 3).map (fun j => ((List.range 3).map (fun i => k i * k j * at_ (2 * x + i - 1) (2 * y + j - 1))).sum)).sum) 16))

/-- An image of one channel at a level. -/
def Dev.image (d : Dev) (s : Shot) (ch : Nat) : Nat → List (List Int)
  | 0 => (List.range s.outH).map (fun y => (List.range s.outW).map (fun x => d.level0 s ch x y))
  | l + 1 => halve (d.image s ch l)

/-- The source line of an output row, taken at the middle column, in units of 1/den (DESIGN CHOICE, log 61). -/
def Dev.sourceLine (d : Dev) (s : Shot) (y : Nat) : Nat := d.mapAt s 1 (s.outW / 2) y

/-- An output row is valid when every source line its pixels read is (R62, R125). -/
def Dev.rowValid (d : Dev) (s : Shot) (lines : List Bool) (y : Nat) : Bool :=
  (List.range s.outW).all (fun x => !d.mapInside s x y ||
    (let sy := d.mapAt s 1 x y
     lines.getD (sy / s.den) false && (decide (sy % s.den = 0) || lines.getD (sy / s.den + 1) false)))

/-- R76 ROWTIME: the time of an output row less T_v, ns, rounded down (DESIGN CHOICE, log 61). -/
def Dev.rowTimeNs (d : Dev) (n : Nat) (s : Shot) (y : Nat) : Int :=
  (2 * (d.sourceLine s y : Int) - ((d.slotRows n : Int) - 1) * s.den) * (d.cfg (0x3000 + n) 0x27 : Int) / (2 * s.den * 1000)

/-! ## Scanner conversion (R78) -/

/-- Linear interpolation between two ring samples at time t, or the newest or oldest held within a limit (R78): numerators of three
Q15.16 values and their denominator; none where the ring gives no value. Ring times are taken on the time scale of the sample (R37). -/
def Dev.kinAt (d : Dev) (chan limit : Nat) (epoch : Bool) (t : Int) : Option (List Int × Nat) :=
  if chan = 0xFF then some ([0, 0, 0], 1)
  else
    let ring := (d.kin chan).ring
    let at_ := fun (x : KinSample) => if d.time.epoch then d.toScale (stampEpoch x.stamp) epoch x.tv else x.tv
    let v := fun (x : KinSample) => (List.range 3).map (fun j => (x.values.getD j none).getD 0)
    match ring.find? (fun x => decide (at_ x ≤ t)), (ring.reverse.find? (fun x => decide (t < at_ x))) with
    | some a, some b =>
      some (List.zipWith (fun p q => p * (at_ b - t) + q * (t - at_ a)) (v a) (v b), (at_ b - at_ a).toNat)
    | some a, none => if t - at_ a ≤ limit then some (v a, 1) else none
    | none, some b => if at_ b - t ≤ limit then some (v b, 1) else none
    | none, none => none

/-- R78: one point moved to T_v by mount velocity and angular rate, exact over one denominator. -/
def compensate (q : ScanPoint) (tv : Int) (v : List Int × Nat) (w : List Int × Nat) : CompPoint :=
  let dt := tv - q.time
  let den := v.2 * w.2 * 65536 * 1000000000
  let wx := w.1.getD 0 0
  let wy := w.1.getD 1 0
  let wz := w.1.getD 2 0
  let move := fun (p vq cross : Int) => p * den - vq * dt * w.2 * 65536 - cross * dt * v.2
  { x := move q.x (v.1.getD 0 0) (wy * q.z - wz * q.y), y := move q.y (v.1.getD 1 0) (wz * q.x - wx * q.z),
    z := move q.z (v.1.getD 2 0) (wx * q.y - wy * q.x), den := den, intensity := q.intensity }

/-- R78: all points of a sample compensated, or none where some point cannot be. -/
def Dev.compensateAll (d : Dev) (n : Nat) (x : Sample) : Option (List CompPoint) :=
  let w := d.slotDesc n 13
  let lim := d.cfg (0x3000 + n) 9
  x.points.mapM (fun q => match d.kinAt (wfld w 63 56) lim x.epoch q.time, d.kinAt (wfld w 55 48) lim x.epoch q.time with
    | some v, some r => some (compensate q x.tv v r)
    | _, _ => none)

/-- A point as it is. -/
def plainPoint (q : ScanPoint) : CompPoint := { x := q.x, y := q.y, z := q.z, den := 1, intensity := q.intensity }

/-- Voxels of an axis: nx, ny, nz of NVOX. -/
def voxels (w13 : Word) (axis : Nat) : Nat := (if axis = 0 then wfld w13 31 22 else if axis = 1 then wfld w13 21 12 else wfld w13 4 0) + 1

/-- A coordinate of a point. -/
def CompPoint.coord (q : CompPoint) (axis : Nat) : Int := if axis = 0 then q.x else if axis = 1 then q.y else q.z

/-- A point's place along an axis over `voxelDen`, in voxel edges: the voxel grid is centred on the scanner's origin (R228). -/
def voxelPos (w13 : Word) (q : CompPoint) (axis : Nat) : Int :=
  q.coord axis * 2000 + (voxels w13 axis * wfld w13 47 32 * 65536 * q.den : Nat)

/-- Its denominator: the edge is VOXEL mm. -/
def voxelDen (w13 : Word) (q : CompPoint) : Nat := 2 * (wfld w13 47 32 * 65536 * q.den)

/-- The voxel a point lies in; none outside the extent (R78). -/
def voxelOf (w13 : Word) (q : CompPoint) : Option (List Nat) :=
  let i := (List.range 3).map (fun a => voxelPos w13 q a / (voxelDen w13 q : Int))
  if i.zipIdx.all (fun e => decide (0 ≤ e.1) && decide (e.1 < voxels w13 e.2)) then some (i.map Int.toNat) else none

/-- The points of one voxel as R78 holds them: the count, saturating at 255, the mean offset of each axis, the largest intensity. The sum of
the offsets stands over the product of the points' denominators. -/
def voxelAt (w13 : Word) (pts : List CompPoint) (i : List Nat) : Voxel :=
  let l := pts.filter (fun q => decide (voxelOf w13 q = some i))
  let den := l.foldl (fun m q => m * voxelDen w13 q) 1
  let off := fun (a : Nat) =>
    Config.voxelOffset ((l.map (fun q => voxelPos w13 q a % (voxelDen w13 q : Int) * (den / voxelDen w13 q : Nat))).sum) (l.length * den)
      (wfld w13 47 32) % 256
  { count := satU 8 l.length, off := if l = [] then [0, 0, 0] else (List.range 3).map off,
    intensity := l.foldl (fun m q => max m q.intensity) 0 }

/-- The byte of a voxel's channel: 0 count, 1 to 3 mean offset, 4 intensity. -/
def Voxel.byte (v : Voxel) (ch : Nat) : Nat := if ch = 0 then v.count else if ch = 4 then v.intensity else v.off.getD (ch - 1) 0

/-! ## The tensor in the Hoard (R60, R76, R78, R122, R124, R125) -/

/-- Writes the elements of a tensor and its validity mask. -/
def Dev.writeElements (d : Dev) (t : TDesc) (elt : List Nat → Nat) (valid : List Nat → Bool) : Dev :=
  (indices t.ext).foldl (fun (d : Dev) i => (d.eltPut none t i (elt i)).setValid none t i (valid i)) d

/-- Descriptor addresses of a slot's tensors: pyramid level k of a camera slot is the k-th (log 13). -/
def Dev.intakeAt (d : Dev) (n : Nat) : List Nat :=
  match d.prog.prog with | some p => (p.intakeDests.filter (fun x => x.1 == n)).map Prod.snd | none => []

/-- One level of a camera sample: element (x, y, channel), the line mask or the pixel mask, the row times. -/
def Dev.writeLevel (d : Dev) (n : Nat) (s : Shot) (lines : List Bool) (a l : Nat) : Dev :=
  let t := d.tdescAt none a
  let imgs := (List.range (if s.colour = 1 then 3 else 1)).map (fun ch => d.image s ch l)
  let elt := fun (i : List Nat) => pat 8 (((imgs.getD (i.getD 2 0) []).getD (i.getD 1 0) []).getD (i.headD 0) 0)
  let ok := fun (i : List Nat) =>
    if t.vmKind = 2 then d.mapInside s (i.headD 0 * 2 ^ l) (i.getD 1 0 * 2 ^ l) else d.rowValid s lines (i.getD 1 0 * 2 ^ l)
  let times := fun (y : Nat) => d.rowTimeNs n s (y * 2 ^ l)
  let d := d.writeElements t elt ok
  if s.rowTime && t.auxKind == 1 then
    d.storeA none t.auxAddr ((List.range (min t.auxCount (t.dim 1))).flatMap (fun y => leBytes 4 (pat 32 (times y))))
  else d

/-- The voxels of a scanner sample: element (x, y, z, channel). -/
def Dev.writeVoxels (d : Dev) (n : Nat) (pts : List CompPoint) (a : Nat) : Dev :=
  let w13 := d.slotDesc n 13
  d.writeElements (d.tdescAt none a) (fun i => (voxelAt w13 pts (i.take 3)).byte (i.getD 3 0)) (fun _ => true)

/-- The times and marks of an intake tensor (R124). -/
def IntakeTensor.times (t : IntakeTensor) (n : Nat) : Times :=
  { tv := pat 64 t.tv, told := pat 64 t.told, cycle := t.cycle, tstate := t.tstate, faulted := false, noMotion := t.noMotion,
    late := t.lateness, slots := 2 ^ n, masked := if t.masked then 2 ^ n else 0, lateCount := if 0 < t.lateness then 1 else 0,
    poison := satU 16 t.poison }

/-- Writes a sample's tensors into the Hoard: elements, masks, row times, and last the fields of R124. -/
def Dev.writeIntake (d : Dev) (n : Nat) (camera : Bool) (rows : List LineRead) (t : IntakeTensor) : Dev :=
  let s : Shot := { w := (List.range 4).map (d.slotDesc n), rows := rows }
  (d.intakeAt n).zipIdx.foldl (fun (d : Dev) a =>
    let d := if camera then d.writeLevel n s t.lines a.1 a.2 else d.writeVoxels n t.points a.1
    d.putTimes none a.1 (some (t.times n)) false) d

/-! ## Delivery (R75, R374) -/

/-- The deliveries of a cycle. -/
def Dev.deliv (d : Dev) (c : Nat) : Deliv := kget Deliv.reset d.intake.deliv c

/-- Updates the deliveries of a cycle. -/
def Dev.modDeliv (d : Dev) (c : Nat) (f : Deliv → Deliv) : Dev :=
  { d with intake := { d.intake with deliv := kmod Deliv.reset d.intake.deliv c f } }

/-- In-time samples of all slots that still wait and are due in cycle c or before (R75). -/
def Dev.waitsFor (d : Dev) (c : Nat) : Bool :=
  (List.range (slotsOf d.code)).any (fun n => (d.slot n).samples.any (fun x => decide (x.lateness ≤ 0) && decide (x.sink ≤ c)))

/-- R75, R374: intake-complete of a cycle whose window has closed: the package's sync object is signalled and the count of
stream samples reported; a count of zero sets the generation fault register with 0x0B0E. -/
def Dev.intakeComplete (d : Dev) (c : Nat) : Dev :=
  let mark := fun (x : CycleCtx) => if x.number = c then { x with intakeDone := true } else x
  let d := { d with cyc := { d.cyc with flight := d.cyc.flight.map mark } }
  let d := match d.prog.prog with | some p => d.signal p.intakeObj 1 false 0 | none => d
  if (d.deliv c).samples = 0 then (d.raise 0x0B0E 0 0).genFault 0x0B0E else d

/-- The cycle whose window has closed and whose intake is not complete. -/
def Dev.intakeCycle (d : Dev) : Option CycleCtx := d.cyc.flight.find? (fun x => x.closed && !x.intakeDone)

/-- Completes the intake of the closed cycle once nothing waits for it. -/
def Dev.checkIntake (d : Dev) : Dev :=
  match d.intakeCycle with
  | some x => if d.waitsFor x.number then d else d.intakeComplete x.number
  | none => d

/-- The slot is masked in the committed state as the cycle's window close sampled it (R60). -/
def Dev.maskedIn (d : Dev) (c n : Nat) : Bool :=
  match d.cyc.flight.find? (fun x => x.number == c) with | some x => x.masked.getLsbD n | none => false

/-- R60: at window close the tensors already converted for the cycle take the mask bit sampled then. -/
def Dev.remark (d : Dev) (c : Nat) : Dev :=
  (List.range (slotsOf d.code)).foldl (fun (d : Dev) n =>
    match (d.slot n).tensor with
    | some t =>
      if t.cycle = c ∧ t.masked ≠ d.maskedIn c n then
        let t := { t with masked := d.maskedIn c n }
        (d.intakeAt n).foldl (fun (d : Dev) a => d.putTimes none a (some (t.times n)) false) (d.modSlot n (fun s => { s with tensor := some t }))
      else d
    | none => d) d

/-- The engine has spent the clocks of the slot's oldest sample and read all its items. -/
def Slot.converted (s : Slot) (x : Sample) : Bool :=
  decide (x.left = 0) && (s.fifo.bank0 ++ s.fifo.bank1).all (fun i => i.sample != x.seq)

def sampleConversionComplete (n : Nat) (d : Dev) : Dev :=
  match (d.slot n).samples with
  | [] => d
  | x :: rest =>
    if (d.slot n).converted x = false then d
    else
      let rows := (d.slot n).reads.filter (fun r => r.sample == x.seq)
      let d := d.modSlot n (fun s => { s.forget x.seq with samples := rest })
      if x.camera = true ∧ d.cfg (0x3000 + n) 7 < invalidLines (d.slotRows n) x.lines then (d.defective n).checkIntake
      else
        let comp := if x.camera then some [] else d.compensateAll n x
        let none_ := comp.isNone
        let d := d.raiseIf none_ 0x020D n 0
        let c := x.sink.toNat
        let late := max 0 x.lateness
        let all := comp.getD (x.points.map plainPoint)
        let pts := all.filter (fun q => (voxelOf (d.slotDesc n 13) q).isSome)
        let t : IntakeTensor :=
          { cycle := c, tv := x.tv, told := x.told, tstate := x.tstate, lateness := late.toNat, masked := d.maskedIn c n, noMotion := none_,
            poison := x.poison, lines := x.lines, points := pts, outside := all.length - pts.length }
        let d := d.modSlot n (fun s => { s with tensor := some t, outside := s.outside + t.outside })
        let d := d.modDeliv c (fun v => { v with
          samples := v.samples + 1, slots := sins n v.slots, lates := if 0 < late then n :: v.lates else v.lates,
          poison := v.poison + x.poison })
        (d.writeIntake n x.camera rows t).checkIntake

/-- SAMPLE_CONVERSION_COMPLETE (R62, R75 to R78, R124): the oldest waiting sample of the slot, once its clocks are spent, becomes a
tensor. -/
def execSampleConversionComplete (n : Fin 16) (s : State) : Out := s.next (sampleConversionComplete n s.dev)

/-- R75: a sample still being converted goes to the following cycle, later by what its own target gives. -/
def Dev.carryOver (d : Dev) (n c : Nat) : Dev :=
  (d.slot n).samples.foldl (fun d x =>
    if x.sink ≤ (c : Int) then
      let l : Int := (c : Int) + 1 - x.target
      if d.horizon < l then (d.modSlot n (fun s => s.forget x.seq)).beyondSlot n
      else
        let y := { x with openC := (c : Int) + 1, lateness := l }
        d.modSlot n (fun s => { s with samples := s.samples ++ [y], late := if 1 ≤ l then bumpLate s.late l else s.late })
    else d.modSlot n (fun s => { s with samples := s.samples ++ [x] })) (d.modSlot n (fun s => { s with samples := [] }))

/-- The oldest closed cycle whose intake completion deadline has not been kept. -/
def Dev.deadlineCycle (d : Dev) : Option CycleCtx := d.cyc.flight.find? (fun x => x.closed && !x.intakeEnded)

def intakeCompletionDeadline (d : Dev) : Dev :=
  match d.deadlineCycle with
  | none => d
  | some x =>
    if x.tick + usTicks (d.cfg 0x5000 7) ≤ d.tick then
      let missed := d.waitsFor x.number
      let d := { d with cyc := { d.cyc with
        flight := d.cyc.flight.map (fun (y : CycleCtx) => if y.number = x.number then { y with intakeEnded := true } else y) } }
      let d := (List.range (slotsOf d.code)).foldl (fun d n => d.carryOver n x.number) d
      let d := d.raiseIf missed 0x020E 0 0
      if x.intakeDone then d else d.intakeComplete x.number
    else d

/-- INTAKE_COMPLETION_DEADLINE (R75): what is still being converted goes to the following cycle; with 0x020E where an in-time sample of
the cycle is among it. -/
def execIntakeCompletionDeadline (s : State) : Out := s.next (intakeCompletionDeadline s.dev)

end Sys2Proof.Machine
end

