-- ==== Sys2Proof/Machine/Hull.lean ====
section
/-! DEFINITION. The Hull: the safety summary, zones and pairs, stop pins, resets, watchdog and status interval
(13_safety_functions.md, R335 to R352; R416, R420, R537). -/

namespace Sys2Proof.Machine

/-! ## The safety summary (R337 to R345) -/

/-- Bytes of the summary (R344). -/
def summaryBytes : Nat := 4640

/-- OCC_CELLS of zone z. -/
def summaryOcc (ws : List Word) (z : Nat) : Nat := wfld (wat ws (3 + z)) 63 32

/-- Pair entry p; bits [63:0] of an entry come first (log 9). -/
def summaryPair (ws : List Word) (p : Nat) : PairEntry :=
  let lo := wat ws (67 + 2 * p)
  let hi := wat ws (68 + 2 * p)
  { dist := wfld hi 63 32, vh := wfld hi 31 16, sigma := wfld hi 15 0, trackId := wfld lo 63 32, predOnly := wbit lo 15 }

/-- R337: zones active by a summary; a zone of kind 0 is disabled. -/
def Dev.activeZones (d : Dev) (ws : List Word) : BitVec 64 :=
  BitVec.ofNat 64 (maskOf ((List.range 64).filter (fun z =>
    decide (d.cfg (0x7010 + z) 1 ≠ 0) && decide (d.cfg (0x7010 + z) 4 ≤ summaryOcc ws z))))

/-- R341: 0x0B06 once when the speed input becomes unusable. -/
def Dev.checkSpeedInput (d : Dev) (p : Nat) : Dev :=
  if d.cfg (0x7400 + p) 5 = 0xFF then d
  else match d.speedInput p with
    | some _ => { d with hull := { d.hull with stale := sdel p d.hull.stale } }
    | none => if d.hull.stale.contains p then d
              else { d with hull := { d.hull with stale := sins p d.hull.stale } }.raise 0x0B06 p 0

/-- R339: the protective separation distance in mm. -/
def Dev.separation (d : Dev) (p : Nat) (e : PairEntry) (vr : Nat) : Nat :=
  let g := fun s => d.cfg (0x7400 + p) s
  let vh := max e.vh (g 9)
  let num := vh * (g 0x0A + g 0x0B) + vr * g 0x0A + vr * g 0x0B / 2
  ceilDiv num 1000000 + g 0x0C + g 0x0D + ceilDiv (g 0x0E * e.sigma) 16

/-- R340: the tier a pair demands. -/
def Dev.pairDemand (d : Dev) (p : Nat) (e : PairEntry) (sp : Nat) : Nat :=
  if e.dist = 0xFFFFFFFF then 0
  else if e.dist < sp then 3
  else if e.dist < sp + d.cfg (0x7400 + p) 0x0F then 2
  else if e.dist < sp + d.cfg (0x7400 + p) 0x10 then 1
  else 0

/-- R342: a demand ends once v_r is at or below the speed that was exceeded; the comparison with the speed of the output tier. -/
def Dev.checkSpeed (d : Dev) (p : Nat) : Dev :=
  let d := match kget none d.hull.exceeded p with
    | some (_, lim) =>
      if kget 0 d.hull.demands (srcSpeed p) ≠ 0 ∧ d.speedOf p ≤ lim then
        ({ d with hull := { d.hull with exceeded := kset none d.hull.exceeded p none } } : Dev).demand (srcSpeed p) 0 0x0B0D
      else d
    | none => d
  { d with hull := { d.hull with exceeded := d.speedTimer d.hull.exceeded p } }

/-- R338 to R342: one pair's evaluation; S_p goes to [7400.12]. -/
def Dev.evalPair (d : Dev) (ws : List Word) (acc : Store Nat × Store PairEntry) (p : Nat) : Dev × Store Nat × Store PairEntry :=
  let d := d.checkSpeedInput p
  let e := summaryPair ws p
  let sp := d.separation p e (d.speedOf p)
  let d := { d with hull := { d.hull with sp := kset 0 d.hull.sp p (sp % 2 ^ 32) } }
  (d.checkSpeed p, kset 0 acc.1 p (d.pairDemand p e sp), kset PairEntry.reset acc.2 p e)

/-- Evaluation of every enabled pair. -/
def Dev.evalPairs (d : Dev) (ws : List Word) : Dev × Store Nat × Store PairEntry :=
  d.pairsOn.foldl (fun a p => a.1.evalPair ws a.2 p) (d, [], [])

/-- Updates the candidate's results. -/
def Dev.modCand (d : Dev) (f : Candidate → Candidate) : Dev := { d with fus := { d.fus with cand := f d.fus.cand } }

/-- Most Hull clocks that the evaluation takes (R345). -/
def Dev.evalClocks (d : Dev) : Nat := 800 + 24 * ((List.range 64).filter (fun z => d.cfg (0x7010 + z) 1 ≠ 0)).length + 48 * d.pairsOn.length

def summaryArrival (bytes : List Byte) (faulted : Bool) (clocks : Nat) (d : Dev) : Dev :=
  match d.cyc.flight with
  | [] => d
  | c :: _ =>
    let ws := leWords 580 bytes
    let d := d.modCand (fun x => { x with arrived := bytes })
    let crcOk := decide (bytes.length = summaryBytes) && decide (wfld (wat ws 579) 31 0 = (crc32c (bytes.take 4632)).toNat)
    let idOk := decide (wfld (wat ws 0) 63 16 = c.number) && decide ((wat ws 1).toNat = (c.tv % 2 ^ 64).toNat) &&
      decide (wfld (wat ws 2) 63 32 = (d.hull.g + 1).toNat)
    if faulted || !crcOk || !idOk then (d.modCand (fun x => { x with bad := true })).raise 0x0B03 0 0
    else if d.hull.genFault.isSome then d.modCand (fun x => { x with bad := true })
    else
      let (d, tiers, vals) := d.evalPairs ws
      d.modCand (fun x => { x with
        summary := some (d.activeZones ws, tiers, vals), excursion := wbit (wat ws 0) 12, evalEnd := d.tick + min clocks d.evalClocks })

/-- SUMMARY_ARRIVAL (R337 to R345): checks 1 to 3 in order, then zones and pairs, in `clocks` Hull clocks but never more than the bound of
R345. -/
def execSummaryArrival (bytes : List Byte) (faulted : Bool) (clocks : Nat) (s : State) : Out :=
  s.next (summaryArrival bytes faulted clocks s.dev)

def speedSettleExpiry (p : Nat) (d : Dev) : Dev :=
  match kget none d.hull.exceeded p, d.tierSpeed with
  | some (t, _), some l =>
    if d.inRun = true ∧ d.pairOn p = true ∧ t + usTicks (d.cfg 0x7000 0x0A) < d.tick ∧ l < d.speedOf p ∧
        kget 0 d.hull.demands (srcSpeed p) = 0 then
      (({ d with hull := { d.hull with exceeded := kset none d.hull.exceeded p (some (t, l)) } } : Dev).raise 0x0B0D p 0).demand
        (srcSpeed p) 3 0x0B0D
    else d
  | _, _ => d

/-- SPEED_SETTLE_EXPIRY (R342): v_r above the speed for longer than the settle time demands tier 3. -/
def execSpeedSettleExpiry (pair : Fin 256) (s : State) : Out := s.next (speedSettleExpiry pair s.dev)

/-! ## Hull faults and stop pins (R348, R350) -/

def hullLockstep (d : Dev) : Dev :=
  let d := d.hullFault srcLockstep 0x0B01 0
  { d with hull := { d.hull with pinA := false, pinB := false } }

/-- HULL_LOCKSTEP (R348): tier 3, latched until device reset; both pins low. -/
def execHullLockstep (s : State) : Out := s.next (hullLockstep s.dev)

/-- A stop pin as driven; the Husk's override pulls it low (R388). -/
def Dev.pinHigh (d : Dev) (b : Bool) : Bool := (if b then d.hull.pinB else d.hull.pinA) && !d.hull.override

/-- The pulse of a stop pin is due: one every 20 ms on each pin, STOP_B_N's 10 ms after STOP_A_N's. -/
def Dev.darkDue (d : Dev) (b : Bool) : Bool :=
  if b then decide (d.hull.darkB + msTicks 20 ≤ d.tick) && decide (d.hull.darkA + msTicks 10 ≤ d.tick)
  else decide (d.hull.darkA + msTicks 20 ≤ d.tick)

def stopDarkTest (b readsLow : Bool) (d : Dev) : Dev :=
  if d.pinHigh b && decide (d.cfg 0x7000 0x0E = 1) && d.darkDue b then
    let d : Dev := { d with hull := { d.hull with
      darkA := if b then d.hull.darkA else d.tick, darkB := if b then d.tick else d.hull.darkB } }
    if readsLow then d else d.hullFault srcReadback 0x0B02 (b2n b)
  else d

/-- STOP_DARK_TEST (R350): the pulse that is due; one that the readback does not confirm latches tier 3. -/
def execStopDarkTest (pinB : Bool) (readsLow : Bool) (s : State) : Out := s.next (stopDarkTest pinB readsLow s.dev)

def stopPinReadback (b high : Bool) (d : Dev) : Dev :=
  if d.up && high != d.pinHigh b then d.hullFault srcReadback 0x0B02 (b2n b) else d

/-- STOP_PIN_READBACK (R350): a pin that differs from its latch latches tier 3. -/
def execStopPinReadback (pinB : Bool) (high : Bool) (s : State) : Out := s.next (stopPinReadback pinB high s.dev)

def offDelayExpiry (q : Nat) (d : Dev) : Dev :=
  match kget none d.hull.offDelay q with
  | some t =>
    if t ≤ d.tick then
      { d with hull := { d.hull with offDelay := kset none d.hull.offDelay q none, offDone := sins q d.hull.offDone } }.sendCommand
    else d
  | none => d

/-- OFF_DELAY_EXPIRY (R351): the output switches off, whatever the tier is by then. -/
def execOffDelayExpiry (q : Fin 4) (s : State) : Out := s.next (offDelayExpiry q s.dev)

/-! ## Resets (R335, R537) -/

/-- R537: an accepted reset clears each latched channel whose fault can be cleared. -/
def Dev.clearChannels (d : Dev) : Dev :=
  { d with edge := { d.edge with sq := (List.range 8).foldl (fun m c =>
      kmod SqChannel.reset m c (fun x =>
        if x.latched = 0 then x
        else if (x.latched = 0x1201 ∨ x.latched = 0x1203) ∧ x.gone = false then x
        else { x with latched := 0, gone := false, void := false })) d.edge.sq } }

/-- R335: a reset is refused while tier 3 is demanded, or while the latch is set and the release count is not complete. -/
def Dev.resetRefused (d : Dev) : Bool := decide (d.demanded = 3) || (d.hull.latch && !d.releaseDone)

/-- R335: a reset. -/
def Dev.acceptReset (d : Dev) : Dev :=
  if d.resetRefused then d.raise 0x0B08 0 0
  else
    let d := { d with hull := { d.hull with latch := false, needReset := false } }
    let d := if d.releaseTarget < d.hull.tier then { d with hull := { d.hull with tier := d.releaseTarget } }.showTier else d
    d.clearChannels.restoreOutputs.sendCommand

/-! ## Watchdog and status interval (R348, R416, R420) -/

def safetyChannelTimeout (d : Dev) : Dev :=
  if d.cfg 0x7000 0x13 ≠ 0 ∧ d.inRun = true ∧ d.hull.watchdog = false ∧ d.hull.cmdTick + msTicks (d.cfg 0x7000 0x0B) ≤ d.tick then
    let d := { d with hull := { d.hull with watchdog := true, sawClear := false, demands := kset 0 d.hull.demands srcHost 0 } }
    (d.raise 0x0B09 0 0).demand srcWatchdog (d.cfg 0x7000 0x0C) 0x0B09
  else d

/-- SAFETY_CHANNEL_TIMEOUT (R348, R420): the watchdog tier takes the place of the host's demand. -/
def execSafetyChannelTimeout (s : State) : Out := s.next (safetyChannelTimeout s.dev)

def statusInterval (d : Dev) : Dev :=
  if d.hull.statusTick + msTicks (d.cfg 0x7000 0x14) ≤ d.tick then d.sendStatus else d

/-- STATUS_INTERVAL (R416). -/
def execStatusInterval (s : State) : Out := s.next (statusInterval s.dev)

end Sys2Proof.Machine
end

