-- ==== Sys2Proof/Machine/Float.lean ====
section
/-! DEFINITION. FP32 and BF16 arithmetic, exact before one rounding (R92, R96, R99, R100, R112): a finite value is an
integer times a power of two. -/

namespace Sys2Proof.Machine

/-- A finite value m × 2^e. -/
structure Dya where
  m : Int
  e : Int
deriving DecidableEq, Repr

/-- The value as an integer over 2^p for a power p at or below e. -/
def Dya.scaled (x : Dya) (p : Int) : Int := x.m * (2 ^ (x.e - p).toNat : Nat)

def Dya.add (x y : Dya) : Dya := { m := x.scaled (min x.e y.e) + y.scaled (min x.e y.e), e := min x.e y.e }
def Dya.mul (x y : Dya) : Dya := { m := x.m * y.m, e := x.e + y.e }
def Dya.neg (x : Dya) : Dya := { x with m := -x.m }
def Dya.ofInt (i : Int) : Dya := { m := i, e := 0 }

/-- x < y. -/
def Dya.lt (x y : Dya) : Bool := decide (x.scaled (min x.e y.e) < y.scaled (min x.e y.e))

/-- Rounds to the nearest integer, ties to even. -/
def Dya.toInt (x : Dya) : Int := if 0 ≤ x.e then x.m * (2 ^ x.e.toNat : Nat) else rne x.m (2 ^ (-x.e).toNat)

/-- Rounds towards minus infinity. -/
def Dya.floor (x : Dya) : Int := if 0 ≤ x.e then x.m * (2 ^ x.e.toNat : Nat) else x.m / (2 ^ (-x.e).toNat : Nat)

/-- A pattern with `p` significand bits and eight exponent bits is a NaN or an infinity. -/
def fBad (p v : Nat) : Bool := fld v (p + 6) (p - 1) == 255

/-- The value of a finite pattern; a subnormal reads as zero (R92, R112). -/
def fVal (p v : Nat) : Dya :=
  let ex := fld v (p + 6) (p - 1)
  if ex = 0 then { m := 0, e := 0 }
  else
    let sig : Int := (fld v (p - 2) 0 + 2 ^ (p - 1) : Nat)
    { m := if nbit v (p + 7) then -sig else sig, e := (ex : Int) - 127 - (p - 1 : Nat) }

/-- The largest finite pattern with a sign. -/
def fMax (p : Nat) (neg : Bool) : Nat := packN [(1, b2n neg), (8, 254), (p - 1, 2 ^ (p - 1) - 1)]

/-- Rounds a value to `p` significand bits, to nearest even; `neg` is the sign of a zero result. The flag says that the
value exceeds the largest finite one, which is then the result (R96, R112). -/
def fRound (p : Nat) (neg : Bool) (x : Dya) : Nat × Bool :=
  if x.m = 0 then (b2n neg * 2 ^ (p + 7), false)
  else
    let a := x.m.natAbs
    let s := decide (x.m < 0)
    let n := Nat.log2 a
    let sh : Int := (n : Int) - (p - 1 : Nat)
    let q : Nat := (Dya.toInt { m := (a : Int), e := -sh }).toNat
    let (q, ex) := if q = 2 ^ p then (2 ^ (p - 1), x.e + n + 1) else (q, x.e + n)
    let top : Dya := { m := (2 ^ p - 1 : Nat), e := 127 - (p - 1 : Nat) }
    if top.lt { m := (a : Int), e := x.e } then (fMax p s, true)
    else if ex < -126 then (b2n s * 2 ^ (p + 7), false)
    else (packN [(1, b2n s), (8, (ex + 127).toNat), (p - 1, q - 2 ^ (p - 1))], false)

/-- The quiet NaN the device writes. -/
def nan32 : Nat := 0x7FC00000

/-- A two-operand FP32 operation on values; any NaN or infinite input gives NaN (R112). -/
def f32op (f : Dya → Dya → Nat × Bool) (a b : Nat) : Nat × Bool :=
  if fBad 24 a || fBad 24 b then (nan32, false) else f (fVal 24 a) (fVal 24 b)

/-- Sign of an FP32 pattern. -/
def fneg? (a : Nat) : Bool := nbit a 31

/-- FP32 sum (R98, R112), with its saturation. An exact zero is −0 only from two negative zeros (log 16). -/
def faddS (a b : Nat) : Nat × Bool := f32op (fun x y => fRound 24 (fneg? a && fneg? b) (x.add y)) a b
/-- FP32 product. -/
def fmulS (a b : Nat) : Nat × Bool := f32op (fun x y => fRound 24 (fneg? a != fneg? b) (x.mul y)) a b
def fadd (a b : Nat) : Nat := (faddS a b).1
def fmul (a b : Nat) : Nat := (fmulS a b).1
def fsub (a b : Nat) : Nat := fadd a (if fBad 24 b then b else b ^^^ 0x80000000)

/-- FP32 quotient, correctly rounded; a zero divisor gives NaN for 0/0 and else the largest finite value (R112). -/
def fdiv (a b : Nat) : Nat :=
  if fBad 24 a || fBad 24 b then nan32
  else
    let x := fVal 24 a
    let y := fVal 24 b
    if y.m = 0 then (if x.m = 0 then nan32 else fMax 24 (fneg? a != fneg? b))
    else if x.m = 0 then b2n (fneg? a != fneg? b) * 2 ^ 31
    else
      -- 64 quotient bits and a sticky bit round as the exact quotient does
      let n := x.m.natAbs * 2 ^ 64
      let q := n / y.m.natAbs * 2 + b2n (decide (n % y.m.natAbs ≠ 0))
      let v : Int := if fneg? a != fneg? b then -(q : Int) else q
      (fRound 24 false { m := v, e := x.e - y.e - 65 }).1

/-- FP32 square root, correctly rounded; of a negative number NaN (R112). -/
def fsqrt (a : Nat) : Nat :=
  if fBad 24 a then nan32
  else
    let x := fVal 24 a
    if x.m = 0 then (if fneg? a then 0x80000000 else 0)
    else if x.m < 0 then nan32
    else
      let odd := decide (x.e % 2 = 1)
      let n := x.m.toNat * 2 ^ (if odd then 65 else 64)
      let r := isqrt n
      (fRound 24 false { m := (r * 2 + b2n (decide (r * r ≠ n)) : Nat), e := (x.e - (if odd then 65 else 64)) / 2 - 1 }).1

/-- FP32 comparison a < b on finite patterns; false with a NaN. -/
def flt (a b : Nat) : Bool := !fBad 24 a && !fBad 24 b && (fVal 24 a).lt (fVal 24 b)
/-- The larger of two FP32 patterns; NaN with a NaN. -/
def fmax (a b : Nat) : Nat := if fBad 24 a || fBad 24 b then nan32 else if flt a b then b else a
/-- FP32 of an integer. -/
def fOfInt (i : Int) : Nat := (fRound 24 false (Dya.ofInt i)).1
/-- FP32 of i × 2^e. -/
def fOfDya (i e : Int) : Nat := (fRound 24 false { m := i, e := e }).1
/-- An FP32 pattern as a BF16 pattern (R98, R99): saturation counts; NaN gives 0x7FC0. -/
def fToBf16 (a : Nat) : Nat × Bool := if fBad 24 a then (0x7FC0, false) else fRound 8 (fneg? a) (fVal 24 a)
/-- A BF16 pattern as an FP32 pattern: exact; a subnormal reads as zero with its sign. -/
def bf16To32 (v : Nat) : Nat := if fBad 8 v then nan32 else if fld v 14 7 = 0 then fld v 15 15 * 2 ^ 31 else v * 65536
/-- A conversion to a signed fixed-point number of n bits with q fraction bits: nearest even, saturating, NaN gives 0
(R112). -/
def fToFix (n q a : Nat) : Int := if fBad 24 a then 0 else satS n (Dya.toInt { fVal 24 a with e := (fVal 24 a).e + q })
/-! ## Block floating point (R100) -/

/-- The mantissas of a block at exponent e. -/
def blockMant (l : List Dya) (e : Int) : List Int := l.map (fun y => Dya.toInt { y with e := y.e - e })

/-- Every mantissa lies in range. -/
def blockFits (l : List Dya) (e : Int) : Bool := (blockMant l e).all (fun m => decide (-128 ≤ m) && decide (m ≤ 127))

/-- R100: the smallest exponent from −128 to 127 that fits; else 127. -/
def blockExp (l : List Dya) : Int :=
  ((List.range 256).map (fun i => (i : Int) - 128)).find? (blockFits l) |>.getD 127

/-- R100: the 32 mantissas, the exponent, and how many mantissas saturated; positions past the end count as zero. -/
def blockEncode (l : List Dya) : List Int × Int × Nat :=
  let l := l ++ List.replicate (32 - l.length) { m := 0, e := 0 }
  let e := blockExp l
  let ms := blockMant l e
  (ms.map (fun m => clampI (-128) 127 m), e, (ms.filter (fun m => decide (m < -128) || decide (127 < m))).length)

end Sys2Proof.Machine
end

