-- ==== Sys2Proof/Machine/Library.lean ====
section
/-! DEFINITION. The FP32 library functions of the Pip cores (R112): each is computed to far more digits than FP32 holds, rounded once, and
moved by a free number of units in the last place within the function's bound (log 6). -/

namespace Sys2Proof.Machine

/-! ## Exact values in fixed point -/

/-- Fraction bits of the intermediate values. -/
def fxBits : Nat := 160

/-- A value in units of 2^−160, rounded down. -/
def Dya.fx (x : Dya) : Int := Dya.floor { x with e := x.e + fxBits }

/-- Product of two such values. -/
def fxMul (a b : Int) : Int := a * b / (2 ^ fxBits : Nat)

/-- ln 2 in units of 2^−160. -/
def fxLn2 : Int := 0xb17217f7d1cf79abc9e3b39803f2f6af40f34326

/-- Terms k, k + 1, … of the exponential series from the term t on. -/
def expTerms (r : Int) : Nat → Nat → Int → Int
  | 0, _, t => t
  | n + 1, k, t => t + expTerms r n (k + 1) (fxMul t r / (k : Int))

/-- e^x for |x| below 128: 2^n times e^r with r the rest after n times ln 2. -/
def expVal (x : Dya) : Dya :=
  let v := x.fx
  let n := rne v fxLn2.toNat
  { m := expTerms (v - n * fxLn2) 40 1 (2 ^ fxBits : Nat), e := n - fxBits }

/-- z^(2k+1) ÷ (2k + 1) summed from the power p of place k on. -/
def atanhTerms (q : Int) : Nat → Nat → Int → Int
  | 0, _, _ => 0
  | n + 1, k, p => p / (2 * k + 1 : Nat) + atanhTerms q n (k + 1) (fxMul p q)

/-- ln of a positive value: with f its significand within [1, 2), ln f = 2 artanh((f − 1) ÷ (f + 1)). -/
def lnVal (x : Dya) : Dya :=
  let n := Nat.log2 x.m.toNat
  let one : Int := (2 ^ fxBits : Nat)
  let f : Int := Dya.fx { x with e := -n }
  let z := (f - one) * one / (f + one)
  { m := 2 * atanhTerms (fxMul z z) 60 0 z + (x.e + n) * fxLn2, e := -fxBits }

/-- 1 ÷ (1 + e^−x). -/
def sigmoidVal (x : Dya) : Dya :=
  let one : Int := (2 ^ fxBits : Nat)
  if x.m < 0 then let e := expVal x; { m := e.m * one / (one + e.fx), e := e.e }
  else { m := one * one / (one + (expVal x.neg).fx), e := -fxBits }

/-- tanh x; x − x³ ÷ 3 below 2^−30. -/
def tanhVal (x : Dya) : Dya :=
  let one : Int := (2 ^ fxBits : Nat)
  let a : Dya := { x with m := x.m.natAbs }
  let s : Int := if x.m < 0 then -1 else 1
  if a.lt { m := 1, e := -30 } then
    let c := (a.mul a).mul a
    { m := s * (a.m * 3 * 2 ^ 200 - (c.m * (2 ^ 200 : Nat)) * (if 0 ≤ c.e - a.e then (2 ^ (c.e - a.e).toNat : Nat) else 0) -
        (if c.e - a.e < 0 then c.m * (2 ^ 200 : Nat) / (2 ^ (a.e - c.e).toNat : Nat) else 0)) / 3, e := a.e - 200 }
  else
    let e := (expVal { m := -2 * a.m, e := a.e }).fx
    { m := s * ((one - e) * one / (one + e)), e := -fxBits }

/-- Terms of ∫ e^(−t² ÷ 2) from 0 to x in units of 2^−400: q is x², p the power's part of place k. -/
def gaussTerms (q : Int) : Nat → Nat → Int → Int
  | 0, _, _ => 0
  | n + 1, k, p => p / (2 * k + 1 : Nat) + gaussTerms q n (k + 1) (-(p * q / (2 ^ 400 : Nat)) / (2 * (k + 1) : Nat))

/-- 1 ÷ √(2π) in units of 2^−400. -/
def gaussUnit : Int :=
  0x662114cf50d942343f2cf1402eae38bfd3829f30512706d8c0471b4802639d2e9df8ac55447d3db723f5d3abb374e88deb14

/-- x times the normal distribution function of x (GELU). -/
def geluVal (x : Dya) : Dya :=
  let v : Int := Dya.floor { x with e := x.e + 400 }
  if 14 * (2 ^ 400 : Nat) < v then x
  else if v < -14 * (2 ^ 400 : Nat) then { m := 0, e := 0 }
  else
    let phi : Int := (2 ^ 399 : Nat) + gaussUnit * gaussTerms (v * v / (2 ^ 400 : Nat)) 600 0 v / (2 ^ 400 : Nat)
    x.mul { m := phi, e := -400 }

/-! ## Rounding within the bound -/

/-- The functions R112 names, with the bound of each in units in the last place. -/
inductive LibFun where
  | recip | rsqrt | exp | log | sigmoid | tanh | gelu
deriving DecidableEq, Repr

def LibFun.ulps : LibFun → Nat
  | .recip => 1 | .rsqrt => 1 | .exp => 2 | .log => 2 | .sigmoid => 2 | .tanh => 2 | .gelu => 4

def LibFun.code : LibFun → Nat
  | .recip => 0 | .rsqrt => 1 | .exp => 2 | .log => 3 | .sigmoid => 4 | .tanh => 5 | .gelu => 6

/-- An FP32 pattern moved by up to k units in the last place, by a free number: never an infinity, never a subnormal; a zero and the
largest finite value stay. -/
def ulpMove (k : Nat) (free p : Nat) : Nat :=
  let s := p / 2 ^ 31 * 2 ^ 31
  let a := p % 2 ^ 31
  if a = 0 ∨ a = 0x7F7FFFFF then p
  else
    let b := a + free % (2 * k + 1) - k
    s + (if b < 0x800000 then 0 else min b 0x7F7FFFFF)

/-- The value a function has for a finite input, where it has one. -/
def LibFun.value (f : LibFun) (a : Nat) : Option Dya :=
  let x := fVal 24 a
  match f with
  | .recip => if x.m = 0 then none else some (fVal 24 (fdiv 0x3F800000 a))
  | .rsqrt =>
    if x.m ≤ 0 then none
    else
      let odd := x.e % 2 != 0
      let r := isqrt ((2 ^ 200 : Nat) / (x.m.toNat * (if odd then 2 else 1)))
      some { m := r, e := -100 - (if odd then x.e - 1 else x.e) / 2 }
  | .exp =>
    if (Dya.ofInt 128).lt x then some { m := 1, e := 200 } else if x.lt (Dya.ofInt (-128)) then some { m := 0, e := 0 } else some (expVal x)
  | .log => if x.m ≤ 0 then none else some (lnVal x)
  | .sigmoid =>
    if (Dya.ofInt 128).lt x then some (Dya.ofInt 1) else if x.lt (Dya.ofInt (-128)) then some { m := 0, e := 0 } else some (sigmoidVal x)
  | .tanh => if (Dya.ofInt 128).lt x then some (Dya.ofInt 1) else if x.lt (Dya.ofInt (-128)) then some (Dya.ofInt (-1)) else some (tanhVal x)
  | .gelu => some (geluVal x)

/-- Sign of a zero result. -/
def LibFun.zeroSign (f : LibFun) (a : Nat) : Bool := match f with | .tanh => fneg? a | .gelu => fneg? a | _ => false

/-- A library function of the Pip cores (R112): a NaN or infinite input, and an operation with no defined result, give NaN; a division by
zero gives the largest finite value (log 6). -/
def libFn (f : LibFun) (a : Nat) : Nat :=
  if fBad 24 a then nan32
  else if f = .recip ∧ (fVal 24 a).m = 0 then fMax 24 (fneg? a)
  else
    match f.value a with
    | none => nan32
    | some v => ulpMove f.ulps (Config.libUlp f.code (BitVec.ofNat 32 a)) (fRound 24 (f.zeroSign a) v).1

/-- The exponential and the natural logarithm. -/
def fexpP (a : Nat) : Nat := libFn .exp a
def flnP (a : Nat) : Nat := libFn .log a

/-- FP32 fused multiply-add, correctly rounded (R112). -/
def ffma (a b c : Nat) : Nat :=
  if fBad 24 a || fBad 24 b || fBad 24 c then nan32
  else (fRound 24 ((fneg? a != fneg? b) && fneg? c) (((fVal 24 a).mul (fVal 24 b)).add (fVal 24 c))).1

end Sys2Proof.Machine
end

