-- ==== Sys2Proof/Machine/Attention.lean ====
section
/-! DEFINITION. The key/value cache: ring records, the pager's plan, append, commit, discard, page retirement, and the
Pip steps of attention (10_temporal_attention.md). -/

namespace Sys2Proof.Machine

open Sys2Proof

/-! ## Geometry (R224, R255, R256, R261) -/

/-- Item `i` of the package's attention geometry. -/
def Dev.att (d : Dev) (i : Nat) : Nat := match d.prog.prog with | some p => p.attention.getD i 0 | none => 0

def Dev.kvW (d : Dev) : Nat := d.att 4
def Dev.kvPe (d : Dev) : Nat := d.att 13
def Dev.kvPr (d : Dev) : Nat := d.att 14

/-- Grid size and region split. -/
def Dev.gridX (d : Dev) : Nat := d.cfg 0x5010 1
def Dev.gridY (d : Dev) : Nat := d.cfg 0x5010 3
def Dev.regCols (d : Dev) : Nat := max 1 (d.cfg 0x5010 8)
def Dev.regRows (d : Dev) : Nat := max 1 (d.cfg 0x5010 9)
/-- Number of regions; none before a package is active. -/
def Dev.regions (d : Dev) : Nat := if d.gridX = 0 then 0 else d.regCols * d.regRows
def Dev.regW (d : Dev) : Nat := d.gridX / d.regCols
def Dev.regH (d : Dev) : Nat := d.gridY / d.regRows

/-- Region of a cell y × X + x (R224). -/
def Dev.regionOfCell (d : Dev) (i : Nat) : Nat := i / d.gridX / d.regH * d.regCols + i % d.gridX / d.regW

/-- Cells of a region. -/
def Dev.cellsOf (d : Dev) (g : Nat) : List Nat :=
  (List.range d.regH).flatMap (fun y => (List.range d.regW).map (fun x =>
    (g / d.regCols * d.regH + y) * d.gridX + g % d.regCols * d.regW + x))

/-- Token edge; token columns and rows of a region. -/
def Dev.tokEdge (d : Dev) : Nat := max 1 (d.att 8)
def Dev.tokCols (d : Dev) : Nat := d.regW / d.tokEdge
def Dev.tokRows (d : Dev) : Nat := d.regH / d.tokEdge

/-- Token of a cell within its region. -/
def Dev.tokenOfCell (d : Dev) (i : Nat) : Nat :=
  i / d.gridX % d.regH / d.tokEdge * d.tokCols + i % d.gridX % d.regW / d.tokEdge

/-! ## Records (R263) -/

/-- Record of a region: position 0 to W − 1 of the ring, 64 the candidate. -/
def Dev.kvRec (d : Dev) (g k : Nat) : KvRecord := kget KvRecord.reset d.kv.recs (128 * g + k)

/-- Code of a record's STATE. -/
def KvState.code : KvState → Nat | .empty => 0 | .present => 1 | .dropped => 2 | .lost => 3

/-- Bits as bytes, bit 0 first, padded to a multiple of `n` bytes. -/
def bitBytes (n : Nat) (l : List Bool) : List Byte :=
  let w := maskOf ((l.zipIdx.filter Prod.fst).map Prod.snd)
  leBytes (ceilDiv l.length (8 * n) * n) w

/-- CRC of a record: its header without the CRC field, and its bitmap (R263). -/
def recordCrc (r : KvRecord) : BitVec 32 :=
  let hd : List Word :=
    [packW [(48, r.cycle), (4, r.state.code), (1, b2n r.hot), (1, b2n r.pool), (1, b2n r.retained), (2, r.plan), (7, 0)],
     BitVec.ofInt 64 r.tv, BitVec.ofInt 64 r.told, packW [(32, r.hotRun), (32, r.poolRun)],
     packW [(32, r.retRun), (32, r.recompRun.getD 0)], 0, 0]
  crc32c (wordsLe hd ++ leBytes 4 0 ++ bitBytes 64 r.tokens)

/-- Updates the cache. -/
def Dev.modKv (d : Dev) (f : KvCache → KvCache) : Dev := { d with kv := f d.kv }

/-- Updates a record and seals it. -/
def Dev.modRecord (d : Dev) (g k : Nat) (f : KvRecord → KvRecord) : Dev :=
  d.modKv (fun v => { v with recs := kmod KvRecord.reset v.recs (128 * g + k) (fun r => { f r with crc := recordCrc (f r) }) })

/-- Position of a cycle's record in the ring. -/
def Dev.kvPos (d : Dev) (c : Nat) : Nat := c % max 1 d.kvW

/-- The record of cycle c − k holds an entry of that cycle. -/
def Dev.hasEntry (d : Dev) (g c k : Nat) : Bool :=
  let r := d.kvRec g (d.kvPos (c - k))
  decide (k ≤ c) && decide (r.cycle = c - k) && decide (r.state ≠ .empty)

/-! ## Allocation (R263) -/

/-- First fit of `n` pages among the runs in use, without a retired page. -/
def firstFit (total : Nat) (runs : List (Nat × Nat)) (retired : List Nat) (n : Nat) : Option Nat :=
  let ok := fun (s : Nat) => decide (s + n ≤ total) && runs.all (fun (r : Nat × Nat) => decide (s + n ≤ r.1) || decide (r.1 + r.2 ≤ s)) &&
    retired.all (fun (p : Nat) => decide (p < s) || decide (s + n ≤ p))
  match (0 :: runs.map (fun (r : Nat × Nat) => r.1 + r.2) ++ retired.map (fun p => p + 1)).filter ok with
  | [] => none
  | a :: t => some (t.foldl min a)

/-- A run of hot pages. -/
def Dev.hotFit (d : Dev) : Option Nat := firstFit (d.att 3) d.kv.hotRuns d.kv.hotRetired d.kvPe
/-- A run of pool pages. -/
def Dev.poolFit (d : Dev) (n : Nat) : Option Nat := firstFit (d.att 2) d.kv.poolRuns d.kv.poolRetired n

def Dev.takeHot (d : Dev) (s : Nat) : Dev := d.modKv (fun v => { v with hotRuns := v.hotRuns ++ [(s, d.kvPe)] })
def Dev.takePool (d : Dev) (s n : Nat) : Dev := d.modKv (fun v => { v with poolRuns := v.poolRuns ++ [(s, n)] })
def Dev.freeHot (d : Dev) (s : Nat) : Dev := d.modKv (fun v => { v with hotRuns := v.hotRuns.filter (fun r => r.1 != s) })
def Dev.freePoolRun (d : Dev) (s : Nat) : Dev := d.modKv (fun v => { v with poolRuns := v.poolRuns.filter (fun r => r.1 != s) })

/-! ## Retirement of pages (R271) -/

/-- Page of a word in a tier, given the tier's first page's key and number of pages. -/
def pageOf (base page pages w : Nat) : Option Nat :=
  if page = 0 ∨ 8 * w < base ∨ pages ≤ (8 * w - base) / page then none else some ((8 * w - base) / page)

/-- Key of a tier's first page. -/
def Dev.kvBase (d : Dev) (i : Nat) : Option Nat := d.addrKey none (d.att i)

/-- Page of the hot window or the pool that a word lies in: tier (true: hot) and page. -/
def Dev.kvPage (d : Dev) (w : Nat) : Option (Bool × Nat) :=
  match (d.kvBase 15).bind (fun b => pageOf b (d.att 1) (d.att 3) w) with
  | some p => some (true, p)
  | none => ((d.kvBase 16).bind (fun b => pageOf b (d.att 1) (d.att 2) w)).map (fun p => (false, p))

/-- A run from `s` of `n` pages holds page `p`. -/
def pageIn (s n p : Nat) : Bool := decide (s ≤ p) && decide (p < s + n)

/-- What a bad page does to a record: an affected KV part makes it DROPPED, or LOST without a usable retained part; an
affected retained part clears RETAINED (R271). -/
def Dev.hitRecord (d : Dev) (hot : Bool) (p : Nat) (r : KvRecord) : KvRecord :=
  let kv := if hot then r.hot && pageIn r.hotRun d.kvPe p else r.pool && pageIn r.poolRun d.kvPe p
  let ret := !hot && r.retained && pageIn r.retRun d.kvPr p
  let r := if ret then { r with retained := false } else r
  if kv && decide (r.state = .present) then { r with state := if r.retained then .dropped else .lost, hot := false, pool := false }
  else if ret && decide (r.state = .dropped) then { r with state := .lost } else r

/-- Retires a page: it is never allocated again; the entries it holds lose their part (R271). -/
def Dev.retirePage (d : Dev) (hot : Bool) (p : Nat) : Dev :=
  if (if hot then d.kv.hotRetired else d.kv.poolRetired).contains p then d
  else
    let d := d.modKv (fun v => if hot then { v with hotRetired := sins p v.hotRetired } else { v with poolRetired := sins p v.poolRetired })
    let d := d.modKv (fun v => { v with recs := v.recs.map (fun (x : Nat × KvRecord) =>
      if x.1 % 128 = 64 ∨ d.hitRecord hot p x.2 = x.2 then x
      else (x.1, { d.hitRecord hot p x.2 with crc := recordCrc (d.hitRecord hot p x.2) })) })
    d.raise 0x0802 0 p

/-- Runs that no record names any longer are free. -/
def Dev.sweepRuns (d : Dev) : Dev :=
  d.modKv (fun v => { v with
    hotRuns := v.hotRuns.filter (fun x => v.recs.any (fun r => r.2.hotRun == x.1 && (r.2.hot || r.1 % 128 == 64))),
    poolRuns := v.poolRuns.filter (fun x => v.backs.any (fun b => b.2.2 == x.1) || v.recs.any (fun r =>
      (r.2.poolRun == x.1 && r.2.pool) || (r.2.retRun == x.1 && r.2.retained) || r.2.recompRun == some x.1)) })

/-- Retires every page that a poisoned word lies in (R271). -/
def Dev.retirePoisoned (d : Dev) : Dev :=
  if d.kvW = 0 then d
  else (d.mem.poisoned.foldl (fun d w => match d.kvPage w with | some (h, p) => d.retirePage h p | none => d) d).sweepRuns

/-! ## The plan (R268) -/

/-- Step 1: the hot copy of cycle `c`'s entry is released; without a pool copy the entry is DROPPED. -/
def Dev.evict (d : Dev) (g c : Nat) : Dev :=
  let k := d.kvPos c
  let r := d.kvRec g k
  if r.cycle = c ∧ r.state = .present ∧ r.hot = true then
    let d := (d.freeHot r.hotRun).modRecord g k (fun r => { r with hot := false, hotRun := 0, state := if r.pool then .present else .dropped })
    if r.pool then d else d.raise 0x0801 g 0
  else d

/-- The oldest entry of a region, before cycle `c`, that has a hot copy. -/
def Dev.oldestHot (d : Dev) (g c : Nat) : Option Nat :=
  ((List.range d.kvW).map (fun k => c - (d.kvW - k))).find? (fun x => decide (x < c) &&
    (let r := d.kvRec g (d.kvPos x); decide (r.cycle = x) && decide (r.state = .present) && r.hot))

/-- Step 2: a hot run for the candidate; hot entries of the region are evicted until it fits. -/
def Dev.fitHot (d : Dev) (g c : Nat) : Nat → Dev × Option Nat
  | 0 => (d, d.hotFit)
  | n + 1 => match d.hotFit with
    | some s => (d, some s)
    | none => match d.oldestHot g c with
      | some x => (d.evict g x).fitHot g c n
      | none => (d, none)

/-- The candidate record of a region with its runs (R264, R268). -/
def Dev.makeCandidate (d : Dev) (g c : Nat) (tv : Int) : Dev :=
  let x := d.fitHot g c d.kvW
  let d := match x.2 with | some s => x.1.takeHot s | none => x.1
  let ret := d.poolFit d.kvPr
  let d := match ret with | some s => d.takePool s d.kvPr | none => d
  d.modRecord g 64 (fun _ => { KvRecord.reset with cycle := c, tv := tv, told := tv, hotRun := x.2.getD 0, hot := x.2.isSome,
                                                   retRun := ret.getD 0, retained := ret.isSome })

/-- Step 3: one position. The state carries the allowance left and whether a cut was raised. -/
def Dev.classifyEntry (d : Dev) (g c k : Nat) (left : Nat) : Dev × Nat × Bool :=
  let pos := d.kvPos (c - k)
  let r := d.kvRec g pos
  let plan := fun (d : Dev) (n : Nat) (run : Option Nat) => d.modRecord g pos (fun r => { r with plan := n, recompRun := run })
  if d.hasEntry g c k = false then (d.modRecord g pos (fun r => { r with plan := 3 }), left, false)
  else match r.state with
    | .present => if r.hot then (plan d 0 none, left, false) else (plan d 1 none, left, false)
    | .dropped =>
      if r.retained = true ∧ 0 < left then
        match d.poolFit d.kvPe with
        | some s => (plan (d.takePool s d.kvPe) 2 (some s), left - 1, false)
        | none => (plan d 3 none, left, true)
      else (plan d 3 none, left, true)
    | _ => (plan d 3 none, left, true)

/-- The plan of one region; answers how many window cuts it made. -/
def Dev.planRegion (d : Dev) (g c : Nat) (tv : Int) : Dev × Nat :=
  let d := if d.att 5 ≤ c then d.evict g (c - d.att 5) else d
  let d := d.makeCandidate g c tv
  let r := (List.range (d.kvW - 1)).foldl (fun (s : Dev × Nat × Nat) i =>
    let x := s.1.classifyEntry g c (i + 1) s.2.1
    (x.1, x.2.1, s.2.2 + b2n x.2.2)) (d, d.att 7, 0)
  (r.1, r.2.2)

/-- The plan of cycle `c` for every region, its window cuts, and the plan-ready object (R268). -/
def Dev.planAttention (d : Dev) (c : Nat) (tv : Int) : Dev :=
  if d.kvW = 0 then d
  else
    let d := d.retirePoisoned
    let r := (List.range d.regions).foldl (fun (s : Dev × Nat) g => let x := s.1.planRegion g c tv; (x.1, s.2 + x.2)) (d, 0)
    let d := if 0 < r.2 then (r.1.raise 0x0803 0 0).occurN 0x5800 0x14 (r.2 - 1) else r.1
    match d.prog.prog with
    | some p => d.signal p.planObj 1 false 0
    | none => d

/-! ## Commit and discard (R265, R266) -/

/-- MASK positions of a region's plan (R268). -/
def Dev.maskedPositions (d : Dev) (g c : Nat) : Nat :=
  ((List.range (d.kvW - 1)).filter (fun i => !d.hasEntry g c (i + 1) || (d.kvRec g (d.kvPos (c - (i + 1)))).plan == 3)).length

/-- A write-back of the new entry is issued (R265, R266). -/
def Dev.issueBack (d : Dev) (g c : Nat) : Dev :=
  match d.poolFit d.kvPe with
  | some s => (d.takePool s d.kvPe).modKv (fun v => { v with backs := v.backs ++ [(g, c, s)] })
  | none => d.raise 0x0804 g 0

/-- Commit of one region (R265). -/
def Dev.commitRegion (d : Dev) (g c : Nat) : Dev :=
  let masked := d.maskedPositions g c
  let pos := d.kvPos c
  let old := d.kvRec g pos
  let d := if old.hot then d.freeHot old.hotRun else d
  let d := if old.pool then d.freePoolRun old.poolRun else d
  let d := if old.retained then d.freePoolRun old.retRun else d
  let new := d.kvRec g 64
  let d := d.modRecord g pos (fun _ => { new with state := .present })
  let d := d.modKv (fun v => { v with recs := kset KvRecord.reset v.recs (128 * g + 64) KvRecord.reset })
  let dr := c - (d.att 6 + 1)
  let rr := d.kvRec g (d.kvPos dr)
  let d := if d.att 6 + 1 ≤ c ∧ rr.cycle = dr ∧ rr.retained = true then
      (d.freePoolRun rr.retRun).modRecord g (d.kvPos dr) (fun r => { r with retained := false, retRun := 0 })
    else d
  let d := (List.range d.kvW).foldl (fun d k =>
    let r := d.kvRec g k
    match r.recompRun with
    | some s => (d.modRecord g k (fun r => { r with state := .present, pool := true, poolRun := s, recompRun := none })).count 0x5800 0x13
    | none => d) d
  let d := d.modKv (fun v => { v with masked := kset 0 v.masked g masked })
  if new.hot then d.issueBack g c else d

/-- Free pool pages (R279). -/
def Dev.poolFree (d : Dev) : Nat :=
  d.att 2 - (d.kv.poolRuns.map Prod.snd).sum - (d.kv.poolRetired.filter (fun p => !d.kv.poolRuns.any (fun r => pageIn r.1 r.2 p))).length

/-- The commit of cycle `c` (R265). -/
def Dev.commitAttention (d : Dev) (c : Nat) : Dev :=
  if d.kvW = 0 then d
  else
    let d := (List.range d.regions).foldl (fun d g => d.commitRegion g c) d
    d.modKv (fun v => { v with freePool := d.poolFree })

/-- The discard of a cycle: every run allocated for it is free, and pages met with an error retire (R265, R271). -/
def Dev.discardAttention (d : Dev) : Dev :=
  if d.kvW = 0 then d
  else
    let d := (List.range d.regions).foldl (fun d g =>
      let n := d.kvRec g 64
      let d := if n.hot then d.freeHot n.hotRun else d
      let d := if n.retained then d.freePoolRun n.retRun else d
      let d := d.modKv (fun v => { v with recs := kset KvRecord.reset v.recs (128 * g + 64) KvRecord.reset })
      (List.range d.kvW).foldl (fun d k => match (d.kvRec g k).recompRun with
        | some s => (d.freePoolRun s).modRecord g k (fun r => { r with recompRun := none })
        | none => d) d) d
    d.retirePoisoned

/-- Every ring is empty; retired pages stay so (R267). -/
def Dev.emptyRings (d : Dev) : Dev :=
  d.modKv (fun v => { v with recs := [], hotRuns := [], poolRuns := [], backs := [], masked := [] })

/-- Copies a run of pages between the tiers. -/
def Dev.copyPages (d : Dev) (hot pool : Nat) : Dev :=
  match d.kvBase 15, d.kvBase 16 with
  | some h, some p => d.store (p + pool * d.att 1) (d.mem.readN (h + hot * d.att 1) (d.kvPe * d.att 1))
  | _, _ => d

def kvWriteBackComplete (g : Nat) (faulted : Bool) (d : Dev) : Dev :=
  match d.kv.backs.find? (fun b => b.1 == g) with
  | none => d
  | some (_, c, s) =>
    let d := d.modKv (fun v => { v with backs := v.backs.erase (g, c, s) })
    let r := d.kvRec g (d.kvPos c)
    if faulted = false ∧ r.cycle = c ∧ r.state = .present ∧ r.hot = true then
      (d.copyPages r.hotRun s).modRecord g (d.kvPos c) (fun r => { r with pool := true, poolRun := s })
    else d.freePoolRun s

/-- KV_WRITE_BACK_COMPLETE (R265): POOL is set where the group completes without fault; else the run is free again. -/
def execKvWriteBackComplete (region : Nat) (faulted : Bool) (s : State) : Out := s.next (kvWriteBackComplete region faulted s.dev)

/-! ## The candidate's token bits and times (R255, R263, R278) -/

/-- The candidate record of a region takes the tokens and the T_OLD of its lifted grid. -/
def Dev.setLifted (d : Dev) (g : Nat) (cells : List Nat) (told : Int) : Dev :=
  if d.kvW = 0 then d
  else
    let toks := cells.map d.tokenOfCell
    d.modRecord g 64 (fun r => { r with told := told,
                                        tokens := (List.range (d.tokCols * d.tokRows)).map (fun n => toks.contains n) })

/-- The neighbourhood pattern reaches from a region to a neighbour in direction (sx, sy). -/
def Dev.reaches (d : Dev) (sx sy : Int) : Bool :=
  let rho := d.att 9
  match d.prog.prog with
  | some p => (List.range ((2 * rho + 1) * (2 * rho + 1))).any (fun i =>
      let dx : Int := (i % (2 * rho + 1) : Nat) - (rho : Int)
      let dy : Int := (i / (2 * rho + 1) : Nat) - (rho : Int)
      p.neighbourhood.getD i false && (decide (sx = 0) || decide (0 < dx * sx)) && (decide (sy = 0) || decide (0 < dy * sy)))
  | none => false

/-- Rings that a region's attention reads (R247, R257). -/
def Dev.ringsOf (d : Dev) (g : Nat) : List Nat :=
  let cx : Int := g % d.regCols
  let cy : Int := g / d.regCols
  (([(-1 : Int), 0, 1].flatMap (fun sy => [(-1 : Int), 0, 1].map (fun sx => (sx, sy)))).filterMap (fun s =>
    let x := cx + s.1
    let y := cy + s.2
    if 0 ≤ x ∧ x < d.regCols ∧ 0 ≤ y ∧ y < d.regRows ∧ (s = (0, 0) ∨ d.reaches s.1 s.2 = true) then
      some (y * d.regCols + x).toNat else none))

/-- T_OLDs of the entries a region's attention counts: PLAN HOT, POOL or RECOMPUTE, and the current entries (R278). -/
def Dev.attendedTolds (d : Dev) (g c : Nat) : List Int :=
  if d.kvW = 0 then []
  else (d.ringsOf g).flatMap (fun r =>
    (d.kvRec r 64).told :: ((List.range (d.kvW - 1)).filter (fun i =>
      d.hasEntry r c (i + 1) && (d.kvRec r (d.kvPos (c - (i + 1)))).plan != 3)).map (fun i => (d.kvRec r (d.kvPos (c - (i + 1)))).told))

/-! ## Pip steps of attention -/

/-- Mantissas of a block of 32 values at an exponent. -/
def kvMant (l : List Dya) (e : Int) : List Int := l.map (fun y => Dya.toInt { y with e := y.e - e })

/-- R259: the exponent of a block, its mantissas, and how many saturate. -/
def kvEncode (q : Int) (l : List Dya) : Int × List Int × Nat :=
  let fits := fun (e : Int) => (kvMant l e).all (fun m => decide (-q - 1 ≤ m) && decide (m ≤ q))
  match ((List.range 247).map (fun i => (i : Int) - 126)).find? fits with
  | some e => (e, kvMant l e, 0)
  | none =>
    let ms := kvMant l 120
    (120, ms.map (fun m => clampI (-q - 1) q m), (ms.filter (fun m => decide (m < -q - 1) || decide (q < m))).length)

/-- Counts `n` in [5800.16]; the first of a cycle raises 0x0805 (R259). -/
def Dev.encodeCount (d : Dev) (n : Nat) : Dev :=
  if n = 0 then d
  else if d.fus.cand.encodeRaised then d.occurN 0x5800 0x16 n
  else ((d.modCand (fun c => { c with encodeRaised := true })).raise 0x0805 0 0).occurN 0x5800 0x16 (n - 1)

/-- Signed nibbles or bytes of a block (R92, R258). -/
def mantBytes (kv4 : Bool) (ms : List Int) : List Byte :=
  if kv4 then
    (List.range 16).map (fun i => BitVec.ofNat 8 (pat 4 (ms.getD (2 * i) 0) + 16 * pat 4 (ms.getD (2 * i + 1) 0)))
  else ms.map (fun m => BitVec.ofNat 8 (pat 8 m))

/-- `n` little-endian elements of `w` bytes from a device address on. -/
def Dev.loadElts (d : Dev) (own : Option Nat) (w n a : Nat) : List Nat := (List.range n).map (fun i => leNat (d.loadA own (a + w * i) w))

/-- The encode step of one block (R258 to R260). -/
def Dev.encodeBlock (d : Dev) (own : Option Nat) (g tok : Nat) (kv4 : Bool) (src dst scale : Nat) : Dev :=
  let values := d.loadElts own 2 32 src
  let bad := values.any (fBad 8)
  let r : Int × List Int × Nat :=
    if bad then (-126, values.map (fun _ => 0), 1) else kvEncode (if kv4 then 7 else 127) (values.map (fVal 8))
  let d := if bad then d.modRecord g 64 (fun x => { x with tokens := lmod x.tokens tok (fun _ => false) }) else d
  let d := d.encodeCount r.2.2
  (d.storeA own dst (mantBytes kv4 r.2.1)).storeA own scale (leBytes 2 ((r.1 + 127).toNat * 128))

/-- The 32 mantissas of a stored block (R258). -/
def Dev.kvMantissas (d : Dev) (own : Option Nat) (kv4 : Bool) (a : Nat) : List Int :=
  if kv4 then (d.loadElts own 1 16 a).flatMap (fun v => [sgn 4 (v % 16), sgn 4 (v / 16)]) else (d.loadElts own 1 32 a).map (sgn 8)

/-- Bytes of a stored block widened to B8 or BF16, both exactly (R274). -/
def widened (bf16 : Bool) (ms : List Int) (scale : Nat) : List Byte :=
  let e : Int := (fld scale 14 7 : Int) - 127
  if bf16 then ms.flatMap (fun m => leBytes 2 (fRound 8 (decide (m < 0)) { m := m, e := e }).1)
  else mantBytes false ms ++ [BitVec.ofNat 8 (pat 8 e)]

/-- The widening of `n` blocks (R274). -/
def Dev.widenBlocks (d : Dev) (own : Option Nat) (bf16 kv4 : Bool) (n src scale dst : Nat) : Dev :=
  let bytes := (List.range n).flatMap (fun b =>
    widened bf16 (d.kvMantissas own kv4 (src + (if kv4 then 16 else 32) * b)) ((d.loadElts own 2 1 (scale + 2 * b)).headD 0))
  d.storeA own dst bytes

/-- R275: m, the p_j and l of one query and head over its unmasked keys, all 0 without one. Scores and p_j are BF16, m and l FP32; a masked
key's p_j is 0, so that it adds nothing to the engine's product with the values (log 71). -/
def softmaxRow (scores : List Nat) (mask : List Bool) : Nat × List Nat × Nat :=
  let s := scores.map bf16To32
  match ((s.zip mask).filter Prod.snd).map Prod.fst with
  | [] => (0, s.map (fun _ => 0), 0)
  | a :: t =>
    let m := t.foldl fmax a
    let ps := (s.zip mask).map (fun x => if x.2 then (fToBf16 (fexpP (fsub x.1 m))).1 else 0)
    (m, ps, ((ps.zip mask).filter Prod.snd).foldl (fun l p => fadd l (bf16To32 p.1)) 0)

/-- Mask bits of one query token and head (R273). -/
def Dev.maskLen (d : Dev) : Nat := d.kvW * ((2 * d.att 9 + 1) * (2 * d.att 9 + 1))

/-- The softmax of `rows` queries and heads over a segment of `keys` keys, whose bits stand at `first` on in each bitmap (R275, R276);
answers the bytes of the p_j. -/
def Dev.softmaxRows (d : Dev) (own : Option Nat) (rows first keys scores masks stats : Nat) : Dev × List Byte :=
  let row := fun (r : Nat) =>
    let bits := leNat (d.loadA own (masks + ceilDiv d.maskLen 8 * r) (ceilDiv d.maskLen 8))
    softmaxRow (d.loadElts own 2 keys (scores + 2 * keys * r)) ((List.range keys).map (fun j => nbit bits (first + j)))
  let l := (List.range rows).map row
  (d.storeA own stats (l.flatMap (fun x => leBytes 4 x.1 ++ leBytes 4 x.2.2)), l.flatMap (fun x => x.2.1.flatMap (leBytes 2)))

/-- One mask bit (R273): window position, head, key token at an offset from the query token. -/
def Dev.maskBit (d : Dev) (c g head q k : Nat) (dx dy : Int) (i : Nat) : Bool :=
  match d.prog.prog with
  | none => false
  | some p =>
    let tx : Int := (g % d.regCols * d.tokCols + q % max 1 d.tokCols : Nat) + dx
    let ty : Int := (g / d.regCols * d.tokRows + q / max 1 d.tokCols : Nat) + dy
    let inside := decide (0 ≤ tx) && decide (tx < (d.regCols * d.tokCols : Nat)) && decide (0 ≤ ty) && decide (ty < (d.regRows * d.tokRows : Nat))
    let kx := tx.toNat
    let ky := ty.toNat
    let r := ky / max 1 d.tokRows * d.regCols + kx / max 1 d.tokCols
    let tok := ky % max 1 d.tokRows * d.tokCols + kx % max 1 d.tokCols
    let x := if k = 0 then d.kvRec r 64 else d.kvRec r (d.kvPos (c - k))
    inside && p.neighbourhood.getD i false && (p.ageMask.getD head []).getD k false &&
      (k == 0 || (d.hasEntry r c k && x.plan != 3)) && x.tokens.getD tok false

/-- The masks of one query token and head, by window position and offset, and whether no key is left (R273). -/
def Dev.maskBits (d : Dev) (c g head q : Nat) : List Bool :=
  let rho := d.att 9
  let n := 2 * rho + 1
  (List.range d.kvW).flatMap (fun k => (List.range (n * n)).map (fun i =>
    d.maskBit c g head q k ((i % n : Nat) - (rho : Int)) ((i / n : Nat) - (rho : Int)) i))

/-- Bytes of FP32 values in an output type, rounded to nearest even and saturated (R277). -/
def outBytes (ty : Nat) (vs : List Nat) : List Byte :=
  match ty with
  | 7 => vs.flatMap (leBytes 4)
  | 6 => vs.flatMap (fun v => leBytes 2 (fToBf16 v).1)
  | 5 => (List.range (ceilDiv vs.length 32)).flatMap (fun b =>
      let r := blockEncode (((vs.drop (32 * b)).take 32).map (fun v => if fBad 24 v then { m := 0, e := 0 } else fVal 24 v))
      r.1.map (fun m => BitVec.ofNat 8 (pat 8 m)) ++ [BitVec.ofNat 8 (pat 8 r.2.1)])
  | 3 => vs.flatMap (fun v => leBytes 2 (pat 16 (fToFix 16 0 v)))
  | 2 => (List.range (ceilDiv vs.length 2)).map (fun i =>
      BitVec.ofNat 8 (pat 4 (fToFix 4 0 (vs.getD (2 * i) 0)) + 16 * pat 4 (fToFix 4 0 (vs.getD (2 * i + 1) 0))))
  | 1 => vs.map (fun v => BitVec.ofNat 8 (pat 8 (fToFix 8 0 v)))
  | 0 => vs.map (fun v => BitVec.ofNat 8 (clampI 0 255 (fToFix 32 0 v)).toNat)
  | _ => vs.flatMap (fun v => leBytes 4 (pat 32 (fToFix 32 0 v)))

/-- Segments' m, l and o from memory (R276). -/
def Dev.loadSegs (d : Dev) (own : Option Nat) (segs : List (Nat × Nat)) (n : Nat) : List (Nat × Nat × List Nat) :=
  segs.map (fun s => (leNat (d.loadA own s.1 4), leNat (d.loadA own (s.1 + 4) 4), (d.loadElts own 2 n s.2).map bf16To32))

/-- R277: the merge of segments in order, skipping those with l = 0. -/
def mergeSegs (segs : List (Nat × Nat × List Nat)) : List Nat :=
  let used := segs.filter (fun s => !(fld s.2.1 30 0 == 0))
  let width := (segs.headD (0, 0, [])).2.2.length
  match used with
  | [] => List.replicate width 0
  | s :: t =>
    let m := t.foldl (fun m x => fmax m x.1) s.1
    let e := fun (x : Nat × Nat × List Nat) => fexpP (fsub x.1 m)
    let l := t.foldl (fun a x => fadd a (fmul (e x) x.2.1)) (fmul (e s) s.2.1)
    (List.range width).map (fun i =>
      fdiv (t.foldl (fun a x => fadd a (fmul (e x) (x.2.2.getD i 0))) (fmul (e s) (s.2.2.getD i 0))) l)

end Sys2Proof.Machine
end

