-- ==== Sys2Proof/Machine/Edge.lean ====
section
/-! DEFINITION. The edge die and its link: command and status frames, safety outputs, safety inputs, sensor supplies
(21_edge_die_and_electrical.md, R530 to R542, R547; R19, R351, R352). -/

namespace Sys2Proof.Machine

/-- Applies `f` on a device that has the edge die (R2). -/
def Dev.onEdge (d : Dev) (f : Dev → Dev) : Dev := if hasEdge d.code then f d else d

/-- Updates the edge die. -/
def Dev.modEdge (d : Dev) (f : Edge → Edge) : Dev := { d with edge := f d.edge }

/-- SQ channel c. -/
def Dev.sq (d : Dev) (c : Nat) : SqChannel := kget SqChannel.reset d.edge.sq c

/-- Updates SQ channel c. -/
def Dev.modSq (d : Dev) (c : Nat) (f : SqChannel → SqChannel) : Dev :=
  d.modEdge (fun e => { e with sq := kmod SqChannel.reset e.sq c f })

/-- A report for the next status frame (R534). -/
def Dev.report (d : Dev) (cause unit detail : Nat) : Dev :=
  d.modEdge (fun e => { e with reports := e.reports ++ [(cause, unit, detail)] })

/-! ## Switching off (R531, R535, R536) -/

/-- A switch opens; a running pulse's sample is not evaluated (R536). -/
def Dev.openSwitch (d : Dev) (c : Nat) : Dev :=
  let t := d.tick
  d.modSq c (fun x => { x with on := false, void := x.pulse, opened := some t })

/-- R531: channels that switch off at once open one by one, the lowest now and the others in their turns. -/
def Dev.switchOff (d : Dev) (l : List Nat) : Dev :=
  let live := l.filter (fun c => (d.sq c).on && !d.edge.turns.contains c)
  let d := live.foldl (fun d c => d.modSq c (fun x => { x with cmd := false })) d
  let all := (List.range 8).filter (fun c => live.contains c || d.edge.turns.contains c)
  match all, d.edge.turns with
  | c :: rest, [] => (let t := d.tick; (d.openSwitch c).modEdge (fun e => { e with turns := rest, turnTick := t }))
  | l, _ => d.modEdge (fun e => { e with turns := l })

/-- Every SQ channel switches off. -/
def Dev.allSqOff (d : Dev) : Dev := d.switchOff (List.range 8)

/-- Latches a channel off (R534). -/
def Dev.latchSq (d : Dev) (c cause detail : Nat) : Dev :=
  let t := d.tick
  let d := d.modSq c (fun x => { x with on := false, latched := cause, gone := false, pulse := false, void := false, lowTick := t,
                                        opened := if x.on then some t else x.opened,
                                        watch := if cause = 0x1201 then some (t + msTicks 20) else none })
  (d.modEdge (fun e => { e with turns := sdel c e.turns })).report cause c detail

/-- The other channel whose switch opened last within 100 µs. -/
def Dev.lastOpened (d : Dev) (c : Nat) : Option Nat :=
  let l := (List.range 8).filterMap (fun k => if k = c then none else match (d.sq k).opened with
    | some t => if d.tick ≤ t + usTicks 100 then some (t, k) else none
    | none => none)
  match l with
  | [] => none
  | x :: r => some ((r.foldl (fun a b => if a.1 < b.1 then b else a) x).2)

/-- R535: the readback of a channel latched for a high readback falls below 5 V. -/
def Dev.fall (d : Dev) (c : Nat) : Dev :=
  if (d.sq c).latched = 0x1201 then
    match d.lastOpened c with
    | some k => (d.latchSq k 0x1203 c).modEdge (fun e => { e with reports := e.reports.dropLast }) |>.latchSq c 0x1203 k
    | none => d
  else d

/-- Every channel of a list whose readback falls. -/
def Dev.falls (d : Dev) (l : List (Fin 8)) : Dev := l.foldl (fun d c => d.fall c) d

def switchOffTurn (fell : List (Fin 8)) (d : Dev) : Dev :=
  d.onEdge (fun d =>
    let t := d.tick
    if d.edge.turnTick + usTicks 10 ≤ t then
      (match d.edge.turns with
        | c :: rest => (d.openSwitch c).modEdge (fun e => { e with turns := rest, turnTick := t })
        | [] => d).falls fell
    else d)

/-- SWITCH_OFF_TURN (R531, R535): 10 µs after the one before, the next channel of the sequence opens; `fell` are the channels whose readback falls. -/
def execSwitchOffTurn (fell : List (Fin 8)) (s : State) : Out := s.next (switchOffTurn fell s.dev)

/-! ## Frames (R19, R351, R530) -/

def edgeCommandFrameSend (d : Dev) : Dev :=
  d.onEdge (fun d =>
    let t := d.tick
    if d.edge.sendTick + usTicks 100 ≤ t then (d.modEdge (fun e => { e with sendTick := t })).restoreOutputs.sendCommand else d)

/-- EDGE_COMMAND_FRAME_SEND (R351, R530): every 100 µs. -/
def execEdgeCommandFrameSend (s : State) : Out := s.next (edgeCommandFrameSend s.dev)

/-- The edge die may close switches: not over-temperature, VEDGE not above 32 V (R542). -/
def Dev.edgeMay (d : Dev) : Bool := !d.edge.hot && decide (d.edge.vedge ≤ 32000)

/-- State of a sensor supply after its command bit (R541). -/
def Dev.spCommand (d : Dev) (n : Nat) (on : Bool) : Dev :=
  d.modEdge (fun e => { e with supplies := kmod 0 e.supplies n (fun s =>
    if !on then 0 else if s = 0 ∧ e.hot = false ∧ e.vsensOver = false then 1 else s) })

def edgeCommandFrame (lanes : Lanes) (sq : BitVec 8) (sp : BitVec 16) (d : Dev) : Dev :=
  d.onEdge (fun d =>
    if lanes = .agree then
      let t := d.tick
      let d := d.modEdge (fun e => { e with cmdTick := t })
      let offs := (List.range 8).filter (fun c => !sq.getLsbD c)
      let ons := (List.range 8).filter (fun c => sq.getLsbD c)
      let d := d.switchOff offs
      let d := ons.foldl (fun d c => d.modSq c (fun x =>
        if x.latched = 0 ∧ d.edgeMay = true ∧ x.pulse = false then { x with cmd := true, on := true, onTick := if x.on then x.onTick else t } else { x with cmd := true })) d
      let d := d.modEdge (fun e => { e with turns := e.turns.filter (fun c => !ons.contains c) })
      (List.range 16).foldl (fun d n => d.spCommand n (sp.getLsbD n)) d
    else
      ((d.modEdge (fun e => { e with errors := (e.errors + 1) % 2 ^ 32 })).allSqOff).report 0x120B 0 0)

/-- EDGE_COMMAND_FRAME (R19, R530, R531, R541): acted on only when both lanes agree; else the outputs go off. -/
def execEdgeCommandFrame (lanes : Lanes) (sq : BitVec 8) (sp : BitVec 16) (s : State) : Out :=
  s.next (edgeCommandFrame lanes sq sp s.dev)

/-- A protective request that is demanded once (R389, R547). -/
def Dev.protectOnce (d : Dev) (tier cause : Nat) : Dev :=
  (((d.occur 0xB000 9).effect cause 2).recEvent cause).demandOnce tier cause

/-- R547: one report that the Hull uses. -/
def Dev.useReport (d : Dev) (r : Nat × Nat × Nat) : Dev :=
  let d := d.raise r.1 r.2.1 r.2.2
  if r.1 = 0x1201 then d.protect (srcSqShort r.2.1) 3 r.1
  else if r.1 = 0x1203 then (d.protect (srcSqShort r.2.1) 3 r.1).demand (srcSqShort r.2.2) 3 r.1
  else if r.1 = 0x120A then d.protect srcVedge 3 r.1
  else if r.1 = 0x120D then d.protect srcEdgeHot 3 r.1
  else if r.1 = 0x1202 ∨ r.1 = 0x1204 ∨ r.1 = 0x120B then d.protectOnce 3 r.1
  else d

/-- R352: a reset input pair: pressed while ON, a reset on release after 100 ms to 5 s (R335). -/
def Dev.resetInput (d : Dev) (p old new : Nat) : Dev :=
  if d.cfg 0x7300 (p + 1) = 3 then
    if old ≠ 1 ∧ new = 1 then { d with hull := { d.hull with press := kset none d.hull.press p (some d.tick) } }
    else if old = 1 ∧ new ≠ 1 then
      match kget none d.hull.press p with
      | some t =>
        let d := { d with hull := { d.hull with press := kset none d.hull.press p none } }
        if t + msTicks 100 ≤ d.tick ∧ d.tick ≤ t + sTicks 5 then d.acceptReset else d
      | none => d
    else d
  else d

/-- R352: the Hull takes the state of a pair; an emergency stop acts with category 0 and needs a reset. -/
def Dev.usePair (d : Dev) (p : Nat) : Dev :=
  let old := d.pairIn p
  let new := (kget InputPair.reset d.edge.pairs p).state
  if old = new then d
  else
    let d := d.modEdge (fun e => { e with hullPairs := kset 0 e.hullPairs p new })
    let stop := decide (d.cfg 0x7300 (p + 1) = 1) && decide (new ≠ 1)
    let d := if stop then { d with hull := { d.hull with needReset := true } } else d
    let cause := if new = 2 then 0x1205 else if new = 3 then 0x1206 else 0
    (d.retier cause stop).resetInput p old new

def edgeStatusFrame (lanes : Lanes) (d : Dev) : Dev :=
  d.onEdge (fun d =>
    if lanes = .agree then
      let t := d.tick
      let d := d.modEdge (fun e => { e with statusTick := t })
      let d := if d.edge.lost then (d.modEdge (fun e => { e with lost := false })).demand srcEdgeLost 0 0x120C else d
      let rs := d.edge.reports
      let d := rs.foldl Dev.useReport (d.modEdge (fun e => { e with reports := [] }))
      (List.range 8).foldl Dev.usePair d
    else
      ((d.modEdge (fun e => { e with errors := (e.errors + 1) % 2 ^ 32 })).raise 0x120B 1 0).protectOnce 3 0x120B)

/-- EDGE_STATUS_FRAME (R19, R352, R530, R547): fault reports and input states reach the Hull. INSTANCE of 0x120B, which the manual does not
give for this link: 0 for a command frame, 1 for a status frame (DESIGN CHOICE, log 69). -/
def execEdgeStatusFrame (lanes : Lanes) (s : State) : Out := s.next (edgeStatusFrame lanes s.dev)

def edgeCommandTimeout (d : Dev) : Dev := d.onEdge (fun d => if d.edge.cmdTick + usTicks 500 ≤ d.tick then d.allSqOff else d)

/-- EDGE_COMMAND_TIMEOUT (R530): no command frame used for 500 µs. -/
def execEdgeCommandTimeout (s : State) : Out := s.next (edgeCommandTimeout s.dev)

def edgeLinkLost (d : Dev) : Dev :=
  d.onEdge (fun d =>
    if d.up = true ∧ d.edge.lost = false ∧ d.edge.statusTick + usTicks 500 ≤ d.tick then
      ((d.modEdge (fun e => { e with lost := true })).raise 0x120C 0 0).protect srcEdgeLost 3 0x120C
    else d)

/-- EDGE_LINK_LOST (R530, R547): no status frame used for 500 µs. -/
def execEdgeLinkLost (s : State) : Out := s.next (edgeLinkLost s.dev)

/-! ## Test pulses (R533 to R536, R539) -/

/-- Updates input pair p. -/
def Dev.modPair (d : Dev) (p : Nat) (f : InputPair → InputPair) : Dev :=
  d.modEdge (fun e => { e with pairs := kmod InputPair.reset e.pairs p f })

/-- Terminal i reads ON. -/
def Dev.terminal (d : Dev) (i : Nat) : Bool := d.edge.terminals.getLsbD i

/-- R540: a pair's state from its terminals 2p and 2p + 1 (log 18). -/
def Dev.evalPairState (d : Dev) (p : Nat) : Dev :=
  let a := d.terminal (2 * p)
  let b := d.terminal (2 * p + 1)
  let t := d.tick
  d.modPair p (fun x =>
    let differ := if a = b then none else match x.differ with | some u => some u | none => some t
    if x.state = 3 then { x with differ := differ }
    else if x.state = 2 then
      if !a && !b then { x with bothOff := true, differ := differ }
      else if a && b && x.bothOff then { x with state := 1, bothOff := false, differ := differ }
      else { x with differ := differ }
    else { x with state := b2n (a && b), differ := differ })

def testFrame (d : Dev) : Dev :=
  d.onEdge (fun d =>
    let t := d.tick
    if d.edge.frameTick + msTicks 20 ≤ t then
      let d := d.modEdge (fun e => { e with frameTick := t, pulsed := [] })
      (List.range 8).foldl (fun d p =>
        let x := kget InputPair.reset d.edge.pairs p
        let clear := decide (x.state = 3) && [0, 1, 2, 3].all (fun j => x.passed.contains j)
        let d := d.modPair p (fun x => { x with passed := [], state := if clear then 0 else x.state })
        if clear then d.evalPairState p else d) d
    else d)

/-- TEST_FRAME (R533, R539): a 20 ms frame begins; a pair in state 3 whose terminals passed a full frame leaves it. -/
def execTestFrame (s : State) : Out := s.next (testFrame s.dev)

/-- The slot of a pulse in the test frame: channel k k ms after the frame begins, source j (10 + j) ms; one pulse each (R533, R538). -/
def Dev.pulseDue (d : Dev) (ch : Nat) : Bool :=
  let at_ := d.edge.frameTick + msTicks (if ch < 8 then ch else ch + 2)
  decide (at_ ≤ d.tick) && decide (d.tick < at_ + msTicks 1) && !d.edge.pulsed.contains ch

def darkPulse (ch : Nat) (fell : List (Fin 8)) (d : Dev) : Dev :=
  d.onEdge (fun d =>
    let t := d.tick
    if d.pulseDue ch then
      let d := d.modEdge (fun e => { e with pulsed := sins ch e.pulsed })
      let d := if 8 ≤ ch then d.modEdge (fun e => { e with sourceTick := kset none e.sourceTick (ch - 8) (some t) })
        else if (d.sq ch).on = true then d.modSq ch (fun x => { x with pulse := true, void := false, opened := some t }) else d
      d.falls fell
    else d)

/-- DARK_PULSE (R533, R535, R536, R538): in its slot a channel that is on, or a test-pulse source (8 to 11), takes its pulse. -/
def execDarkPulse (ch : Fin 12) (fell : List (Fin 8)) (s : State) : Out := s.next (darkPulse ch fell s.dev)

/-- R539: the sample of source j on one pair. -/
def Dev.sourceSample (d : Dev) (j p : Nat) (raw : BitVec 16) : Dev :=
  let bad := fun i => d.terminal i && (if i % 4 = j then raw.getLsbD i else !raw.getLsbD i)
  if bad (2 * p) || bad (2 * p + 1) then
    let d := d.modPair p (fun x => { x with state := 3, passed := [] })
    d.report 0x1206 p j
  else d.modPair p (fun x => { x with passed := sins j x.passed })

/-- The sample of a pulse that began at a tick is due: w − 10 µs into it (R533, R539). -/
def Dev.sampleDue (d : Dev) (start : Option Nat) : Bool :=
  match start with | some t => decide (t + usTicks (d.cfg 0x7200 0x0D - 10) ≤ d.tick) | none => false

def darkPulseSample (ch : Nat) (high : Bool) (raw : BitVec 16) (d : Dev) : Dev :=
  d.onEdge (fun d =>
    if ch < 8 then
      let x := d.sq ch
      if x.pulse = true ∧ d.sampleDue x.opened = true then
        let d := d.modSq ch (fun x => { x with pulse := false, void := false })
        if x.void || decide (d.edge.vedge < 19200) || !high then d else d.latchSq ch 0x1201 0
      else d
    else if d.edge.pulsed.contains ch = true ∧ d.edge.pulsed.contains (ch + 8) = false ∧ d.sampleDue (kget none d.edge.sourceTick (ch - 8)) = true then
      (List.range 8).foldl (fun d p => d.sourceSample (ch - 8) p raw) (d.modEdge (fun e => { e with pulsed := sins (ch + 8) e.pulsed }))
    else d)

/-- DARK_PULSE_SAMPLE (R533, R534, R536, R539): w − 10 µs into the pulse; a high sample latches the channel off; for a source the
terminals are judged. -/
def execDarkPulseSample (ch : Fin 12) (high : Bool) (terminals : BitVec 16) (s : State) : Out :=
  s.next (darkPulseSample ch high terminals s.dev)

def sqOffReadbackHigh (c : Nat) (d : Dev) : Dev :=
  d.onEdge (fun d =>
    let t := d.tick
    if (d.sq c).on = true ∨ t < (d.sq c).opened.elim 0 (· + msTicks 1) then d
    else if (d.sq c).latched = 0 then d.latchSq c 0x1201 0
    else d.modSq c (fun x => { x with gone := false, lowTick := t }))

/-- SQ_OFF_READBACK_HIGH (R534): readback high for 1 ms while off. -/
def execSqOffReadbackHigh (ch : Fin 8) (s : State) : Out := s.next (sqOffReadbackHigh ch s.dev)

def sqShort0v (c : Nat) (d : Dev) : Dev :=
  d.onEdge (fun d => if (d.sq c).on = true ∧ (d.sq c).onTick + msTicks 5 ≤ d.tick then d.latchSq c 0x1202 0 else d)

/-- SQ_SHORT_0V (R534): after switch-on the criterion holds for 5 ms before it counts. -/
def execSqShort0v (ch : Fin 8) (s : State) : Out := s.next (sqShort0v ch s.dev)

def sqOpenLoad (c : Nat) (d : Dev) : Dev :=
  d.onEdge (fun d => if (d.sq c).on = true ∧ (d.sq c).onTick + msTicks 100 ≤ d.tick then d.latchSq c 0x1204 0 else d)

/-- SQ_OPEN_LOAD (R534): below 5 mA for 100 ms while on. -/
def execSqOpenLoad (ch : Fin 8) (s : State) : Out := s.next (sqOpenLoad ch s.dev)

def sqFaultGone (c : Nat) (d : Dev) : Dev :=
  d.onEdge (fun d =>
    if ((d.sq c).latched = 0x1201 ∨ (d.sq c).latched = 0x1203) ∧ (d.sq c).lowTick + msTicks 100 ≤ d.tick then
      (d.modSq c (fun x => { x with gone := true })).demand (srcSqShort c) 0 (d.sq c).latched
    else d)

/-- SQ_FAULT_GONE (R537, R547): the off-state readback has stayed low for 100 ms; the demand of the fault ends. -/
def execSqFaultGone (ch : Fin 8) (s : State) : Out := s.next (sqFaultGone ch s.dev)

def crossShortWatchExpiry (c : Nat) (fell : Bool) (d : Dev) : Dev :=
  d.onEdge (fun d =>
    let d := if fell then d.fall c else d
    match (d.sq c).watch with
    | some t => if t ≤ d.tick then d.modSq c (fun x => { x with watch := none }) else d
    | none => d)

/-- CROSS_SHORT_WATCH_EXPIRY (R535): after 20 ms the fault stays a short to 24 V. -/
def execCrossShortWatchExpiry (ch : Fin 8) (fell : Bool) (s : State) : Out := s.next (crossShortWatchExpiry ch fell s.dev)

/-! ## Safety inputs (R539, R540) -/

/-- Readings of a terminal are excluded during its own source's pulse and for 100 µs after it (R539). -/
def Dev.readingExcluded (d : Dev) (i : Nat) : Bool :=
  match kget none d.edge.sourceTick (i % 4) with
  | some t => decide (d.tick ≤ t + usTicks (d.cfg 0x7200 0x0D + 100))
  | none => false

def terminalStateChange (i : Nat) (on : Bool) (d : Dev) : Dev :=
  d.onEdge (fun d => if d.readingExcluded i then d else (d.modEdge (fun e => { e with terminals := BitVec.ofNat 16 (setFld e.terminals.toNat i i (b2n on)) })).evalPairState (i / 2))

/-- TERMINAL_STATE_CHANGE (R539, R540): a filtered terminal changes, and its pair's state follows; the filter holds through its own
source's pulse. -/
def execTerminalStateChange (i : Fin 16) (on : Bool) (s : State) : Out := s.next (terminalStateChange i on s.dev)

def siDiscrepancy (p : Nat) (d : Dev) : Dev :=
  d.onEdge (fun d =>
    let x := kget InputPair.reset d.edge.pairs p
    match x.differ with
    | some t =>
      if t + msTicks (d.cfg 0x7300 (p + 9)) ≤ d.tick ∧ x.state ≠ 2 ∧ x.state ≠ 3 then
        (d.modPair p (fun x => { x with state := 2, bothOff := false })).report 0x1205 p 0
      else d
    | none => d)

/-- SI_DISCREPANCY (R540): the terminals differ for longer than the discrepancy time. -/
def execSiDiscrepancy (p : Fin 8) (s : State) : Out := s.next (siDiscrepancy p s.dev)

/-! ## Sensor supplies (R541) -/

/-- A supply in one of some states takes another, with a report. -/
def Dev.spState (d : Dev) (n : Nat) (from_ : List Nat) (to_ cause : Nat) : Dev :=
  d.onEdge (fun d =>
    if from_.contains (kget 0 d.edge.supplies n) then
      let d := d.modEdge (fun e => { e with supplies := kset 0 e.supplies n to_ })
      if cause = 0 then d else d.report cause n 0
    else d)

def spShort (n : Nat) (d : Dev) : Dev := d.spState n [1, 3, 4] 2 0x1207

/-- SP_SHORT (R541). -/
def execSpShort (n : Fin 16) (s : State) : Out := s.next (spShort n s.dev)

def spOpenLoad (n : Nat) (d : Dev) : Dev := d.spState n [1] 3 0x1208

/-- SP_OPEN_LOAD (R541). -/
def execSpOpenLoad (n : Fin 16) (s : State) : Out := s.next (spOpenLoad n s.dev)

def spOpenLoadEnd (n : Nat) (d : Dev) : Dev := d.spState n [3] 1 0

/-- SP_OPEN_LOAD_END (R541): current returns. -/
def execSpOpenLoadEnd (n : Fin 16) (s : State) : Out := s.next (spOpenLoadEnd n s.dev)

def spReverse (n : Nat) (d : Dev) : Dev := d.spState n [1, 3] 4 0x1209

/-- SP_REVERSE (R541). -/
def execSpReverse (n : Fin 16) (s : State) : Out := s.next (spReverse n s.dev)

def spReverseEnd (n : Nat) (d : Dev) : Dev := d.spState n [4] 1 0

/-- SP_REVERSE_END (R541). -/
def execSpReverseEnd (n : Fin 16) (s : State) : Out := s.next (spReverseEnd n s.dev)

/-! ## Edge supplies and temperature (R541, R542) -/

/-- Starts or ends a "since" tick. -/
def sinceTick (ok : Bool) (old : Option Nat) (t : Nat) : Option Nat := if ok then (match old with | some u => some u | none => some t) else none

/-- Every supply switches off; one that a short switched off keeps its state until [3300] is written 0 and then 1 (R541). -/
def Dev.suppliesOff (d : Dev) : Dev := d.modEdge (fun e => { e with supplies := e.supplies.filter (fun x => decide (x.2 = 2)) })

/-- VSENS lies in an operating range (R528). -/
def vsensInRange (v : Nat) : Bool := (decide (10800 ≤ v) && decide (v ≤ 13200)) || (decide (19200 ≤ v) && decide (v ≤ 30000))

/-- Takes the measured values and the times since which they lie in their ranges. -/
def Dev.measured (d : Dev) (vedge vsens : Nat) (temp : Int) : Dev :=
  let t := d.tick
  let ok := decide (19200 ≤ vedge) && decide (vedge ≤ 30000)
  d.modEdge (fun e => { e with
      measureTick := t, vedge := vedge, vsens := vsens, temp := temp, vedgeOk := sinceTick ok e.vedgeOk t, vedgeBad := sinceTick (!ok) e.vedgeBad t,
      vsensOk := sinceTick (vsensInRange vsens) e.vsensOk t, coolSince := sinceTick (decide (temp < 110 * 65536)) e.coolSince t })

def edgeSupplyMeasure (vedge vsens : Nat) (temp : Int) (d : Dev) : Dev :=
  d.onEdge (fun d =>
    if d.edge.measureTick + usTicks 100 ≤ d.tick then
      let d := d.measured vedge vsens temp
      let d := if 32000 < vedge then d.allSqOff else d
      let d := if 32000 < vsens then d.suppliesOff.modEdge (fun e => { e with vsensOver := true }) else d
      let d := if 125 * 65536 ≤ temp ∧ d.edge.hot = false then
          ((d.suppliesOff.modEdge (fun e => { e with hot := true })).allSqOff).report 0x120D 0 0
        else d
      match d.edge.vedgeOk with
      | some u => if u + sTicks 1 ≤ d.tick ∧ kget 0 d.hull.demands srcVedge ≠ 0 then d.demand srcVedge 0 0x120A else d
      | none => d
    else d)

/-- EDGE_SUPPLY_MEASURE (R541, R542, R547): every 100 µs voltages and temperature; overvoltage and over-temperature switch off. -/
def execEdgeSupplyMeasure (vedge vsens : Nat) (temp : Int) (s : State) : Out := s.next (edgeSupplyMeasure vedge vsens temp s.dev)

def vedgeOutOfRange (d : Dev) : Dev :=
  d.onEdge (fun d => match d.edge.vedgeBad with
    | some u =>
      if u + msTicks 1 ≤ d.tick ∧ kget 0 d.hull.demands srcVedge = 0 ∧ d.edge.reports.any (fun r => r.1 == 0x120A) = false then
        d.report 0x120A 0 0
      else d
    | none => d)

/-- VEDGE_OUT_OF_RANGE (R542, R547): outside 19.2 V to 30 V for 1 ms. -/
def execVedgeOutOfRange (s : State) : Out := s.next (vedgeOutOfRange s.dev)

def vsensRecovery (d : Dev) : Dev :=
  d.onEdge (fun d => match d.edge.vsensOk with
    | some u => if d.edge.vsensOver = true ∧ u + msTicks 100 ≤ d.tick then d.modEdge (fun e => { e with vsensOver := false }) else d
    | none => d)

/-- VSENS_RECOVERY (R541): in range for 100 ms. -/
def execVsensRecovery (s : State) : Out := s.next (vsensRecovery s.dev)

def edgeTemperatureResume (d : Dev) : Dev :=
  d.onEdge (fun d => match d.edge.coolSince with
    | some u =>
      if d.edge.hot = true ∧ u + sTicks 10 ≤ d.tick then (d.modEdge (fun e => { e with hot := false })).demand srcEdgeHot 0 0x120D else d
    | none => d)

/-- EDGE_TEMPERATURE_RESUME (R542, R547): 10 s below 110 °C. -/
def execEdgeTemperatureResume (s : State) : Out := s.next (edgeTemperatureResume s.dev)

end Sys2Proof.Machine
end

