-- ==== Sys2Proof/Machine/Nand.lean ====
section
/-! DEFINITION. The NAND controller: layout and placement of copies, codewords, journals, and the work of each LUN in its order of service
(R482 to R485, R488, R491, R495 to R497). -/

namespace Sys2Proof.Machine

open Sys2Proof

/-- Updates the NAND controller and recorder. -/
def Dev.modRec (d : Dev) (f : Recorder → Recorder) : Dev := { d with recd := f d.recd }

/-- A block. -/
def Dev.block (d : Dev) (b : Nat) : NandBlock := kget NandBlock.reset d.recd.blocks b

/-- Updates a block. -/
def Dev.modBlock (d : Dev) (b : Nat) (f : NandBlock → NandBlock) : Dev :=
  d.modRec (fun r => { r with blocks := kmod NandBlock.reset r.blocks b f })

/-! ## Layout (R482, R484, R485) -/

/-- Number of an area, in the order of R484 (log 21). -/
def areaNo : NandArea → Nat
  | .boot => 0 | .firmware => 1 | .package s => 2 + s.val | .store => 4 | .control => 5 | .ring => 7

/-- The area is kept in two copies (R484). -/
def twoCopies : NandArea → Bool
  | .package _ => false | .ring => false | .boot => true | .firmware => true | .store => true | .control => true

/-- LUNs of all chip enables (R482). -/
def Dev.luns (d : Dev) : Nat := max 1 (d.recd.chips * d.recd.luns)

/-- Blocks of one LUN, at least one. -/
def Dev.lunBlocks (d : Dev) : Nat := max 1 (d.recd.capacity / max 1 d.recd.blockMiB / d.luns)

/-- LUN of a block. -/
def Dev.lunOf (d : Dev) (b : Nat) : Nat := b / d.lunBlocks

/-- What must differ between the blocks of two copies (R485): the LUN, or on a part with one LUN the plane, which is a block's lowest bit
(PRESUMED, log 21). -/
def Dev.nandGroup (d : Dev) (b : Nat) : Nat := if 1 < d.luns then d.lunOf b else b % 2

/-- Pages of a block. -/
def Dev.blockPages (d : Dev) : Nat := d.recd.blockMiB * 1024 / max 1 d.recd.pageKiB

/-- Bytes of a page. -/
def Dev.pageBytes (d : Dev) : Nat := d.recd.pageKiB * 1024

/-- Blocks of one copy of an area (R484). -/
def Dev.areaBlocks (d : Dev) : NandArea → Nat
  | .boot => 1
  | .firmware => ceilDiv 80 (max 1 d.recd.blockMiB)
  | .package _ => ceilDiv 1152 (max 1 d.recd.blockMiB)
  | .store => ceilDiv 64 (max 1 d.recd.blockMiB)
  | .control => ceilDiv 16 (max 1 d.recd.blockMiB)
  | .ring => d.recd.ringBlocks

/-- Block addresses that an area takes: both copies share the addresses of a single LUN, and take the same ones of two. -/
def Dev.areaSpan (d : Dev) (a : NandArea) : Nat :=
  if a = .boot then 8 else if twoCopies a && decide (d.luns ≤ 1) then 2 * d.areaBlocks a else d.areaBlocks a

/-- The areas before the spare pool. -/
def fixedAreas : List NandArea := [.boot, .firmware, .package 0, .package 1, .store, .control]

/-- First block address of an area; the spare pool's for the ring, whose blocks follow it. -/
def Dev.areaStart (d : Dev) (a : NandArea) : Nat := ((fixedAreas.takeWhile (fun x => decide (x ≠ a))).map d.areaSpan).sum

/-- Address of block `k` of a copy as formatted (R484 to R486); the boot area's copies lie in blocks 0 to 7 of the first LUN. -/
def Dev.homeBlock (d : Dev) (a : NandArea) (copy k : Nat) : Nat :=
  let s := d.areaStart a
  match a with
  | .boot => copy
  | .ring => s + d.recd.sparesAtFormat + k
  | _ => if twoCopies a then (if 1 < d.luns then copy * d.lunBlocks + s + k else s + 2 * k + copy) else s + k

/-- The physical block of an address. -/
def Dev.physBlock (d : Dev) (h : Nat) : Nat := (kget none d.recd.remap h).getD h

/-- The address that a physical block holds: its logical block. -/
def Dev.logicalBlock (d : Dev) (b : Nat) : Nat :=
  match d.recd.remap.find? (fun x => x.2 == some b) with | some x => x.1 | none => b

/-- Two physical blocks change places in the mapping (R491, R492). -/
def Dev.swapBlocks (d : Dev) (b n : Nat) : Dev :=
  let set := fun (m : Store (Option Nat)) (h p : Nat) => kset none m h (if p = h then none else some p)
  d.modRec (fun r => { r with remap := set (set r.remap (d.logicalBlock b) n) (d.logicalBlock n) b })

/-- Physical blocks of a copy. -/
def Dev.copyBlocks (d : Dev) (a : NandArea) (copy : Nat) : List Nat :=
  (List.range (d.areaBlocks a)).map (fun k => d.physBlock (d.homeBlock a copy k))

/-- Physical blocks of the spare pool. -/
def Dev.spareBlocks (d : Dev) : List Nat :=
  (List.range d.recd.sparesAtFormat).map (fun k => d.physBlock (d.areaStart .ring + k))

/-- Of a list of blocks the free one with the lowest erase count (R495). -/
def Dev.leastWorn (d : Dev) (l : List Nat) : Option Nat :=
  match l.filter (fun b => !(d.block b).held && !(d.block b).bad) with
  | [] => none
  | b :: t => some (t.foldl (fun m x => if (d.block x).erases < (d.block m).erases then x else m) b)

/-! ## Pages and codewords (R488) -/

/-- Key of a page. -/
def pageKey (b p : Nat) : Nat := b * 2 ^ 16 + p

/-- The codewords of a programmed page. -/
def Dev.codewords (d : Dev) (b p : Nat) : List Codeword := kget [] d.recd.pages (pageKey b p)

/-- Programs a page: 4 codewords of a 16 KiB page, 2 of one of 8 KiB, each with its metadata. `pos` is the ring's stream position. -/
def Dev.programPage (d : Dev) (p : NandPlace) (pos : Nat) : Dev :=
  let d := d.modRec (fun r => { r with wseq := r.wseq + 1 })
  let cw := fun (i : Nat) => ({ area := areaNo p.area, lblock := d.logicalBlock p.block, page := p.page, wseq := d.recd.wseq,
                                erases := (d.block p.block).erases, pos := pos + 4096 * i, good := true } : Codeword)
  (d.modRec (fun r => { r with pages := kset [] r.pages (pageKey p.block p.page) ((List.range (r.pageKiB / 4)).map cw) })).modBlock p.block
    (fun x => { x with held := true })

/-- Codewords of a page that can no longer be read. -/
def Dev.spoilPage (d : Dev) (b p : Nat) (bad : Nat → Bool) : Dev :=
  d.modRec (fun r => { r with pages := kmod [] r.pages (pageKey b p) (fun l =>
    l.zipIdx.map (fun c => if bad c.2 then { c.1 with good := false } else c.1)) })

/-- Every codeword of a page reads. -/
def Dev.pageReads (d : Dev) (b p : Nat) : Bool := !(d.codewords b p).isEmpty && (d.codewords b p).all Codeword.good

/-- An erased block: no page, no read, one erase more. -/
def Dev.eraseBlock (d : Dev) (b : Nat) : Dev :=
  (d.modRec (fun r => { r with pages := r.pages.filter (fun x => x.1 / 2 ^ 16 != b) })).modBlock b
    (fun x => { x with held := false, reads := 0, erases := x.erases + 1 })

/-! ## Work per LUN (R485, R496) -/

/-- Work waits its turn. -/
def Dev.enqueueWork (d : Dev) (w : NandWork) : Dev := d.modRec (fun r => { r with work := r.work ++ [w] })

/-- The operation in progress on a LUN. -/
def Dev.runningOn (d : Dev) (lun : Nat) : Option NandWork := kget none d.recd.running lun

/-- The head of a copy: its blocks in use and the next page. -/
def Dev.nandHead (d : Dev) (a : NandArea) (copy : Nat) : NandHead := kget NandHead.reset d.recd.heads (2 * areaNo a + copy)

def Dev.setHead (d : Dev) (a : NandArea) (copy : Nat) (h : NandHead) : Dev :=
  d.modRec (fun r => { r with heads := kset NandHead.reset r.heads (2 * areaNo a + copy) h })

/-- CRC-32C of a journal entry over its identity, value and sequence number (R497); the layout within is not published (log 21). -/
def entryCrc (key : Nat) (value : List Nat) (seq : Nat) : BitVec 32 :=
  crc32c (leBytes 4 key ++ value.flatMap (leBytes 8) ++ leBytes 4 seq)

/-- Place of an entry in a copy. -/
def JEntry.place (e : JEntry) (copy : Nat) : Option (Nat × Nat) := if copy = 0 then e.a else e.b

/-- Sets the place of an entry in a copy. -/
def JEntry.put (e : JEntry) (copy : Nat) (p : Option (Nat × Nat)) : JEntry := if copy = 0 then { e with a := p } else { e with b := p }

/-- The journal of an area. -/
def Recorder.journal (r : Recorder) (a : NandArea) : List JEntry := if a = .control then r.control else r.store

/-- Updates the entries of a journal. -/
def Dev.modJournal (d : Dev) (a : NandArea) (f : List JEntry → List JEntry) : Dev :=
  d.modRec (fun r => if a = .control then { r with control := f r.control } else { r with store := f r.store })

/-- An entry reads from a copy. -/
def Dev.entryIn (d : Dev) (e : JEntry) (copy : Nat) : Bool :=
  (match e.place copy with | some p => d.pageReads p.1 p.2 | none => false) && e.crc == entryCrc e.key e.value e.seq

/-- The newest entry of each key among those that satisfy a test; a journal lists its newest first. -/
def newestOf (ok : JEntry → Bool) : List Nat → List JEntry → List JEntry
  | _, [] => []
  | seen, e :: t => if ok e && !seen.contains e.key then e :: newestOf ok (e.key :: seen) t else newestOf ok seen t

/-- Entries that either copy still holds (R497). -/
def Dev.readable (d : Dev) (a : NandArea) : List JEntry := newestOf (fun e => d.entryIn e 0 || d.entryIn e 1) [] (d.recd.journal a)

/-- The persisted value of an object, empty where it has its default (R430, R497). -/
def Dev.persisted (d : Dev) (key : Nat) : List Nat :=
  match (d.readable .store).find? (fun e => e.key == key) with | some e => e.value | none => []

/-- Every persisted object with its value. -/
def Dev.persistedAll (d : Dev) : List (Nat × List Nat) :=
  ((d.readable .store).filter (fun e => decide (e.value ≠ []))).map (fun e => (e.key, e.value))

/-- The erase of a block that is no longer used waits its turn. -/
def Dev.eraseLater (d : Dev) (cls : Nat) (a : NandArea) (copy : Fin 2) (b : Nat) : Dev :=
  d.enqueueWork { cls := cls, kind := .erase, place := { area := a, copy := copy, block := b, page := 0 }, ticket := 0, bytes := 0, retried := false }

/-- A snapshot of a copy's newest entries opens a block, and the oldest block goes (R497). -/
def Dev.snapshot (d : Dev) (a : NandArea) (copy : Fin 2) (n : Nat) : Dev :=
  let h := d.nandHead a copy
  let l := newestOf (fun e => d.entryIn e copy) [] (d.recd.journal a)
  let seqs := l.map JEntry.seq
  let d := (List.range l.length).foldl (fun (d : Dev) i => d.programPage { area := a, copy := copy, block := n, page := i } 0) d
  let d := d.modJournal a (fun es => es.map (fun e =>
    if seqs.contains e.seq then e.put copy (some (n, seqs.idxOf e.seq))
    else match e.place copy with
      | some p => if h.blocks.head? = some p.1 then e.put copy none else e
      | none => e))
  let d := d.setHead a copy { blocks := h.blocks.drop 1 ++ [n], page := l.length }
  match h.blocks with
  | o :: _ => d.eraseLater 1 a copy o
  | [] => d

/-- The next page of a copy: of the block in use, else of the free block of the area with the lowest erase count (R495); a full ring gives
its oldest block. -/
def Dev.openPage (d : Dev) (a : NandArea) (copy : Fin 2) : Dev × NandPlace :=
  let place := fun (d : Dev) => let h := d.nandHead a copy
    ({ area := a, copy := copy, block := h.blocks.getLastD (d.homeBlock a copy 0), page := h.page } : NandPlace)
  let next := fun (d : Dev) => let h := d.nandHead a copy; (d.setHead a copy { h with page := h.page + 1 }, place d)
  let h := d.nandHead a copy
  if h.blocks ≠ [] ∧ h.page < d.blockPages then next d
  else match d.leastWorn ((d.copyBlocks a copy).filter (fun b => !h.blocks.contains b)) with
    | some n =>
      if h.blocks ≠ [] ∧ a ≠ .ring then next (d.snapshot a copy n) else next (d.setHead a copy { blocks := h.blocks ++ [n], page := 0 })
    | none => match h.blocks with
      | o :: t => next ((d.eraseLater 3 a copy o).setHead a copy { blocks := t ++ [o], page := 0 })
      | [] => next d

/-- A program of one page waits its turn. -/
def Dev.programLater (d : Dev) (cls : Nat) (a : NandArea) (copy : Fin 2) (ticket bytes : Nat) : Dev :=
  let x := d.openPage a copy
  x.1.enqueueWork { cls := cls, kind := .program, place := x.2, ticket := ticket, bytes := bytes, retried := false }

/-- Staged records fill a page of the ring, or a seal takes what is left (R502, R504). -/
def Dev.fillRing (d : Dev) : Dev :=
  let busy := d.recd.work.any (fun w => w.place.area == .ring) ||
    d.recd.running.any (fun x => match x.2 with | some w => w.place.area == .ring | none => false)
  if busy then d
  else if d.pageBytes ≤ d.recd.staged ∨ d.recd.flush = true ∧ 0 < d.recd.staged then d.programLater 3 .ring 0 0 (min d.pageBytes d.recd.staged)
  else d

/-- The work that a LUN serves next (R496): journals, reads, recorder, refresh and repair; within each the oldest. -/
def Dev.pickWork (d : Dev) (lun : Nat) : Option NandWork :=
  (List.range 4).findSome? (fun c => d.recd.work.find? (fun w => w.cls == c + 1 && d.lunOf w.place.block == lun))

/-- An idle LUN starts its next work; nothing that has started is pre-empted (R496). -/
def Dev.startLun (d : Dev) (lun : Nat) : Dev :=
  match d.runningOn lun, d.pickWork lun with
  | none, some w => d.modRec (fun r => { r with work := r.work.erase w, running := kset none r.running lun (some w) })
  | _, _ => d

/-- Every idle LUN starts its next work. -/
def Dev.serveNand (d : Dev) : Dev := let d := d.fillRing; (List.range d.luns).foldl (fun (d : Dev) l => d.startLun l) d

/-- A journal entry waits to be written to copy A, and after it to copy B (R485, R497). -/
def Dev.journal (d : Dev) (a : NandArea) (key : Nat) (value : List Nat) : Dev :=
  let d := d.serveNand
  let seq := (d.recd.jseq + 1) % 2 ^ 32
  let e : JEntry := { key := key, value := value, seq := seq, crc := entryCrc key value seq, a := none, b := none }
  let d := (d.modRec (fun r => { r with jseq := seq })).modJournal a (fun l => e :: l)
  (d.programLater 1 a 0 seq 0).serveNand

/-- A host's write of a persisted object. -/
def Dev.persist (d : Dev) (key : Nat) (value : List Nat) : Dev := d.journal .store key value

/-- Keys of the control area's records (log 21). -/
def ctlReservation : Nat := 1
def ctlReads : Nat := 2
def ctlCommissioned : Nat := 3
def ctlPartner : Nat := 4

/-- What a copy loses when power fails in the middle of a program: the page, and the one that shares its cells (R485; log 21). -/
def Dev.cutPage (d : Dev) (w : NandWork) : Dev :=
  let p := w.place
  if w.kind = .program then (d.spoilPage p.block p.page (fun _ => true)).spoilPage p.block (p.page - p.page % 2 + (1 - p.page % 2)) (fun _ => true)
  else d

end Sys2Proof.Machine
end

