-- ==== Sys2Proof/Machine/Service.lean ====
section
/-! DEFINITION. The service port: rights, the header check, repeats, boot-ROM answers, responses, the checks of a
write and the storing of a value (R354, R400 to R408, R470, R551). -/

namespace Sys2Proof.Machine

open Sys2Proof

/-- What a response carries (R401). -/
structure Reply where
  status : Nat
  reason : Nat
  expect : Nat
  data : List Byte
deriving DecidableEq, Repr

/-- A good response. -/
def Reply.good (data : List Byte) : Reply := { status := 0, reason := 0, expect := 0, data := data }

/-- A refusal with 0x0D02 and a reason. -/
def Reply.refuse (reason : Nat) : Reply := { status := 0x0D02, reason := reason, expect := 0, data := [] }

/-- A refusal with another cause code. -/
def Reply.cause (c : Nat) : Reply := { status := c, reason := 0, expect := 0, data := [] }

/-- Number of a port: HOST0 0, HOST1 1, SPI target 2. -/
def portNo : ReqPort → Nat
  | .host0 => 0 | .host1 => 1 | .spi => 2

/-! ## Addresses in force (R397) -/

/-- An address in force on a host port. -/
def Dev.addrInForce (d : Dev) (port sub : Nat) : List Nat :=
  let k := okey (0x1011 + port) sub
  if kget [] d.palca.inForce k = [] then dfltVal d.code (0x1011 + port) sub else kget [] d.palca.inForce k

/-- IPv4 address of a host port; 0 disables IPv4. -/
def Dev.ipv4 (d : Dev) (port : Nat) : Nat := (d.addrInForce port 2).headD 0

/-! ## Hosts and rights (R400) -/

/-- The four host entries. -/
def Dev.hostEntries (d : Dev) : List (List Nat) := (List.range 4).map (fun i => d.cfgList 0x1020 (i + 1))

/-- The rights of a sender: bit 0 read, 1 write, 2 safety; none where it is not served. -/
def Dev.rightsOf (d : Dev) (port : ReqPort) (addr : BitVec 128) : Option Nat :=
  if port = .spi then some (if d.cfg 0x7000 0x13 = 0 then 3 else 7)
  else if d.hostEntries.all (fun e => e.all (fun b => b == 0)) then some 3
  else (d.hostEntries.find? (fun e => e.take 16 == byteNats (beBytes 16 addr.toNat))).map hostRights

/-! ## Responses (R401, R402, R406, R422) -/

/-- A good header (R401). -/
def framed (r : Req) : Bool := decide (r.magic = 0x5041) && decide (r.version = 1) && decide (r.size = 24 + r.length)

/-- The bytes of a response; INDEX, SUB, PART and OFFSET repeat the request's (log 19). -/
def responseBytes (r : Req) (op idx sub : Nat) (part : Bool) (off : Nat) (x : Reply) : List Nat :=
  byteNats (wordsBe
    [packW [(16, 0x5041), (8, 1), (8, op % 128 + 128), (16, r.tag.toNat), (16, x.data.length)],
     packW [(16, idx), (8, sub), (7, 0), (1, b2n part), (32, off)],
     packW [(16, x.status), (8, x.reason), (8, 0), (32, x.expect)]] ++ x.data)

/-- Sends a response to the request's source; on the SPI target port it waits to be read, and a fifth one loses the
oldest (R422). -/
def Dev.reply (d : Dev) (r : Req) (bytes : List Nat) : Dev :=
  if r.port = .spi then
    if d.palca.spiQueue.length < 4 then { d with palca := { d.palca with spiQueue := d.palca.spiQueue ++ [bytes] } }
    else { d with palca := { d.palca with spiQueue := d.palca.spiQueue.drop 1 ++ [bytes], spiOverflow := true } }
  else d.sendService .response (portNo r.port) (r.addr.toNat :: r.udp.toNat :: bytes)

/-- Both come from one host. -/
def sameHost (p q : ReqPort) (a b : BitVec 128) : Bool := decide (p = .spi) && decide (q = .spi) || decide (p ≠ .spi) && decide (q ≠ .spi) && decide (a = b)

/-- The first `n` entries of a host and every entry of the others. -/
def keepFirst (port : ReqPort) (addr : BitVec 128) : Nat → List Kept → List Kept
  | _, [] => []
  | n, k :: t =>
    if sameHost port k.port addr k.addr then
      match n with
      | 0 => keepFirst port addr 0 t
      | m + 1 => k :: keepFirst port addr m t
    else k :: keepFirst port addr n t

/-- Keeps a response: the last 16 of each host (R406). -/
def Dev.keepResponse (d : Dev) (r : Req) (content bytes : List Nat) : Dev :=
  let k : Kept :=
    { port := r.port, addr := r.addr, udp := r.udp, tag := r.tag, content := content, tick := d.tick, response := bytes }
  { d with palca := { d.palca with kept := k :: keepFirst r.port r.addr 15 d.palca.kept } }

/-- The kept response of an earlier request within 1 s with the same source, TAG and content (R406). -/
def Dev.repeatOf (d : Dev) (r : Req) (content : List Nat) : Option Kept :=
  d.palca.kept.find? (fun k => sameHost r.port k.port r.addr k.addr && decide (k.udp = r.udp) && decide (k.tag = r.tag) &&
    k.content == content && decide (d.tick ≤ k.tick + sTicks 1))

/-- An earlier request with the same source, TAG and content that is not answered yet (R406). -/
def Dev.heldOf (d : Dev) (r : Req) (content : List Nat) : Option HeldReply :=
  d.palca.held.find? (fun h => sameHost r.port h.req.port r.addr h.req.addr && decide (h.req.udp = r.udp) && decide (h.req.tag = r.tag) &&
    h.content == content)

/-- The response to the write of an RWP object waits for its journal entry (R405); every other one goes at once and is kept. -/
def Dev.answer (d : Dev) (r : Req) (op idx sub : Nat) (content bytes : List Nat) (before : Nat) : Dev :=
  let rwp := match objRow d.code idx sub with | some x => decide (x.acc = .rwp) | none => false
  if op = 2 ∧ rwp = true ∧ d.recd.jseq ≠ before then
    { d with palca := { d.palca with held := d.palca.held ++ [{ req := r, content := content, bytes := bytes, ticket := d.recd.jseq }] } }
  else (d.reply r bytes).keepResponse r content bytes

/-- The responses that wait for a journal entry go; each repeat gets its own copy (R405, R406). -/
def Dev.releaseHeld (d : Dev) (ticket : Nat) : Dev :=
  let l := d.palca.held.filter (fun h => h.ticket == ticket)
  l.foldl (fun (d : Dev) h => match d.repeatOf h.req h.content with
    | some k => d.reply h.req k.response
    | none => (d.reply h.req h.bytes).keepResponse h.req h.content h.bytes)
    { d with palca := { d.palca with held := d.palca.held.filter (fun h => h.ticket != ticket) } }

/-- The ticket under which the response to the last segment of an act or token waits for the act's check; no journal entry has it (R515). -/
def actTicket (sub : Nat) : Nat := 2 ^ 32 + sub

/-- The response to a completed act or token takes its bytes (R515): it goes at once, or with the journal entry that persists the effect. -/
def Dev.answerAct (d : Dev) (sub : Nat) (x : Reply) (entry : Option Nat) : Dev :=
  let bytes := fun (h : HeldReply) => responseBytes h.req 4 0xA000 sub false (h.content.getD 4 0) x
  let d := { d with palca := { d.palca with
    held := d.palca.held.map (fun h =>
      if h.ticket = actTicket sub then { h with bytes := bytes h, ticket := entry.getD (actTicket sub) } else h) } }
  match entry with | some _ => d | none => d.releaseHeld (actTicket sub)

/-- The boot-ROM Palca reads these indices for anyone (R470). -/
def bootReads (idx : Nat) : Bool := (decide (0x1000 ≤ idx) && decide (idx ≤ 0x1018)) || idx == 0x2000 || idx == 0xB100

/-- A sender's address is an IPv4 address in the mapped form (R400). -/
def mappedV4 (addr : BitVec 128) : Bool := decide (addr.toNat / 2 ^ 32 = 0xFFFF)

/-- A host port that has IPv4 disabled takes no IPv4 datagram (R397). -/
def Dev.datagramTaken (d : Dev) (port : ReqPort) (addr : BitVec 128) : Bool :=
  decide (port = .spi) || !mappedV4 addr || decide (d.ipv4 (portNo port) ≠ 0)

/-- Runs `g` on a datagram of a port, after the filters of a host port (R395, R397 to R399). -/
def Dev.datagram (d : Dev) (port : ReqPort) (addr : BitVec 128) (f : HostFrame) (g : Dev → Dev) : Dev :=
  if d.up = false ∨ d.datagramTaken port addr = false then d
  else if port = .spi then g d
  else d.hostReceive (portNo port) (mappedV4 addr) f g

/-- Takes a request through R395 to R401, R406 and R470, runs it with the sender's rights, and responds. A request with
no response of its own yet (none) is answered later. -/
def Dev.serve (d : Dev) (r : Req) (op idx sub : Nat) (part : Bool) (off : Nat) (payload : List Byte)
    (f : Nat → Dev → Dev × Option Reply) : Dev :=
  d.datagram r.port r.addr r.frame (fun d =>
  if framed r = false then
    (if r.port = .spi then d else d.count (0x1011 + portNo r.port) 0x0C).raise 0x0D01 (portNo r.port) 0
  else
    let content := [op, idx, sub, b2n part, off] ++ byteNats payload
    let run := fun (g : Dev → Dev × Option Reply) =>
      match d.repeatOf r content with
      | some k => d.reply r k.response
      | none => match d.heldOf r content with
        | some h => { d with palca := { d.palca with held := d.palca.held ++ [{ h with req := r }] } }
        | none => match g d with
          | (d', some x) => d'.answer r op idx sub content (responseBytes r op idx sub part off x) d.recd.jseq
          | (d', none) => d'
    if d.start.bootRom then run (if op = 1 ∧ bootReads idx = true then f 7 else fun d => (d, some (Reply.refuse 3)))
    else match d.rightsOf r.port r.addr with
      | none => d.raise 0x0D02 (portNo r.port) 0
      | some rt => run (f rt))

/-! ## Storing a value (R354, R405) -/

/-- [7000.01] covers an index (R354). -/
def coveredIdx (idx : Nat) : Bool :=
  idx == 0x7000 || (decide (0x7010 ≤ idx) && decide (idx ≤ 0x704F)) || idx == 0x7200 || idx == 0x7300 ||
    (decide (0x7400 ≤ idx) && decide (idx ≤ 0x74FF))

/-- Objects of a writable class. -/
def Acc.writable (a : Acc) : Bool := a == .rw || a == .rwr || a == .rwp

/-- The object is covered (R354). -/
def covered (idx sub : Nat) (r : DRow) : Bool :=
  coveredIdx idx && r.acc.writable && !(idx == 0x7000 && (sub == 2 || sub == 0x13))

/-- The bytes the configuration CRC runs over (R354). -/
def Dev.coveredBytes (d : Dev) : List Byte :=
  let idxs := [0x7000] ++ (List.range 64).map (fun z => 0x7010 + z) ++ [0x7200, 0x7300] ++ (List.range 256).map (fun p => 0x7400 + p)
  idxs.flatMap (fun idx => (rowsSafety.filter (fun r => r.ilo ≤ idx && idx ≤ r.ihi)).flatMap (fun r =>
    (List.range (r.shi + 1)).flatMap (fun sub =>
      if r.slo ≤ sub ∧ covered idx sub r = true ∧ onCode d.code idx sub = true then
        beBytes 2 idx ++ beBytes 1 sub ++ toWire r (d.cfgList idx sub)
      else [])))

/-- Recomputes [7000.01] (R354). -/
def Dev.recomputeCrc (d : Dev) : Dev := d.setObj 0x7000 1 [(crc32c d.coveredBytes).toNat]

/-- Stores a written value: an RWP value is persisted (R405), and a covered object changes [7000.01] (R354). -/
def Dev.put (d : Dev) (idx sub : Nat) (v : List Nat) : Dev :=
  match objRow d.code idx sub with
  | none => d
  | some r =>
    let d := d.setObj idx sub v
    let d := if r.acc = .rwp then d.persist (okey idx sub) v else d
    if covered idx sub r then d.recomputeCrc else d

/-! ## The checks of a write (R403, R404, R407, R408) -/

/-- The configuration lock is set. -/
def Dev.locked (d : Dev) : Bool := decide (d.cfg 0x2001 1 = 1)

/-- Writes that the lock lets pass (R408). -/
def lockExempt (idx sub : Nat) (v : List Byte) : Bool :=
  (idx == 0x2001 && sub == 1 && v == [1]) || (idx == 0xB100 && sub == 2) || idx == 0x5203 || (idx == 0xC000 && sub == 5)

/-- R407: a write to an EV object; `stays` says that an occurrence lands in the same event clock (R219). -/
def Dev.writeEv (d : Dev) (idx sub : Nat) (part stays : Bool) (payload : List Byte) : Dev × Reply :=
  if part = false ∧ payload = [0] then (if stays then d else d.clearEv idx sub, Reply.good [])
  else (d, Reply.refuse 2)

/-- The lock refuses a write (R408); a write of 0 to the lock itself is taken only from the SPI target port and only in READY
or STANDBY, whether the lock is set or not. -/
def Dev.lockRefuses (d : Dev) (port : ReqPort) (idx sub : Nat) (payload : List Byte) : Bool :=
  if idx = 0x2001 ∧ sub = 1 ∧ payload = [0] then !(decide (port = .spi) && (d.inReady || decide (d.power.state = .standby)))
  else d.locked && !lockExempt idx sub payload

/-- Checks 2 to 7 of R404 on a WRITE to an object that is no event. -/
def Dev.checkWrite (d : Dev) (port : ReqPort) (rt idx sub : Nat) (payload : List Byte) : Option Reply :=
  if nbit rt 1 = false then some (.refuse 5)
  else match objRow d.code idx sub with
    | none => some (.refuse 1)
    | some r =>
      if r.acc = .ro ∨ r.ty = .blobVar then some (.refuse 2)
      else if r.acc = .rwr ∧ d.inReady = false then some (.refuse 3)
      else if d.lockRefuses port idx sub payload then some (.cause 0x0D03)
      else if payload.length ≠ r.ty.count * r.ty.width then some (.refuse 4)
      else if r.chk.ok (fromWire r.ty.count r.ty.width payload) = false then some (.refuse 4)
      else none

/-- The written value, by the object's type (R403). -/
def wireValue (code idx sub : Nat) (payload : List Byte) : List Nat :=
  match objRow code idx sub with
  | some r => fromWire r.ty.count r.ty.width payload
  | none => []

/-- The object is an event. -/
def isEv (code idx sub : Nat) : Bool :=
  match objRow code idx sub with
  | some r => decide (r.ty = .ev)
  | none => false

/-- A WRITE request whose own rule (check 8 of R404) is `own`. -/
def Dev.writeWith (d : Dev) (r : Req) (idx sub : Nat) (part : Bool) (payload : List Byte)
    (own : List Nat → Dev → Dev × Reply) (stays : Bool := false) : Dev :=
  d.serve r 2 idx sub part 0 payload (fun rt d =>
    if isEv d.code idx sub then
      (if nbit rt 1 = false then (d, some (.refuse 5))
       else let x := d.writeEv idx sub part stays payload; (x.1, some x.2))
    else match d.checkWrite r.port rt idx sub payload with
      | some x => (d, some x)
      | none => let x := own (wireValue d.code idx sub payload) d; (x.1, some x.2))

end Sys2Proof.Machine
end

