-- ==== Sys2Proof/Machine/Security.lean ====
section
/-! DEFINITION. The security unit: leaves and their reservation, attestation, signed acts and tokens, OTP commands
and debug (R507 to R523). -/

namespace Sys2Proof.Machine

open Sys2Proof

/-- Updates the security unit. -/
def Dev.modSec (d : Dev) (f : Security → Security) : Dev := { d with sec := f d.sec }

/-! ## Leaves (R518 to R520) -/

/-- Leaves of a block. -/
def blockLeaves : Nat := 4096

/-- Burns epoch fuses up to `n` of them; fewer than 16 left raises 0x1105 (R519). -/
def Dev.burnEpochs (d : Dev) (n : Nat) : Dev :=
  if d.sec.epochs < n then (d.modSec (fun s => { s with epochs := min n 256 })).raiseIf (decide (256 < n + 16)) 0x1105 0 0 else d

/-- The lowest block that may be reserved: the first of the highest burned epoch (R519). -/
def Dev.lowestBlock (d : Dev) : Nat := if d.sec.epochs = 0 then 0 else (d.sec.epochs - 1) * 2 ^ 20

/-- Reserves a block (R518): its epoch fuse is burned first, then its record goes to both copies of the control area; no block lies past the
last leaf. -/
def Dev.reserve (d : Dev) (b0 : Nat) : Dev :=
  let b := max b0 d.lowestBlock
  if 2 ^ 28 ≤ b then d
  else ((d.burnEpochs (b / 2 ^ 20 + 1)).modSec (fun s => { s with reserving := some b, failed := false })).journal .control ctlReservation [b]

/-- The record of a reservation is in both copies (R518). -/
def Dev.reservationDone (d : Dev) (b : Nat) : Dev :=
  (d.modSec (fun s => { s with reserved := some b, reserving := if s.reserving = some b then none else s.reserving })).raise 0x1103 0 0

/-- The leaf a signature may use now (R518, R520). -/
def Dev.usableLeaf (d : Dev) : Option Nat :=
  if d.sec.failed || d.sec.traversal then none
  else match d.sec.block with
    | some b => if d.sec.leaf < blockLeaves * (b + 1) then some d.sec.leaf else d.sec.reserved.map (fun r => blockLeaves * r)
    | none => d.sec.reserved.map (fun r => blockLeaves * r)

/-- Uses a leaf: the next one follows, and with 256 left the next block is reserved (R518). -/
def Dev.useLeaf (d : Dev) (l : Nat) : Dev :=
  let b := l / blockLeaves
  let d := d.modSec (fun s => { s with block := some b, leaf := l + 1, reserved := if s.reserved = some b then none else s.reserved })
  if l + 1 + 256 = blockLeaves * (b + 1) ∧ d.sec.reserved = none ∧ d.sec.reserving = none then d.reserve (b + 1) else d

/-- `n` bytes of a list, filled with zeros. -/
def fitBytes (n : Nat) (l : List Byte) : List Byte := l.take n ++ List.replicate (n - l.length) 0

/-- A signature with the attestation key (R507). -/
def Dev.signature (d : Dev) (body : List Byte) (leaf : Nat) : List Byte := fitBytes 5605 (Config.sign d.sec.secret body leaf)

/-! ## Attestation (R516, R517) -/

/-- The four words of a 256-bit value, most significant first. -/
def words256 (v : BitVec 256) : List Word :=
  [BitVec.ofNat 64 (fld v.toNat 255 192), BitVec.ofNat 64 (fld v.toNat 191 128), BitVec.ofNat 64 (fld v.toNat 127 64),
   BitVec.ofNat 64 (fld v.toNat 63 0)]

/-- State of a customer key slot as [A000.06]: 0 empty, 1 valid, 2 revoked. -/
def Dev.keyState (d : Dev) (k : Nat) : Nat := if d.sec.revoked.contains k then 2 else if d.sec.valid.contains k then 1 else 0

/-- The body of the attestation message (R516). -/
def Dev.attestationBody (d : Dev) (nonce : BitVec 256) : List Word :=
  [packW [(32, 0x41545354), (16, 1), (16, 256)]] ++ words256 nonce ++ words256 d.sec.fingerprint ++
  [d.sec.serial,
   packW [(16, d.start.stepping), (8, d.code), (8, d.power.state.code), (1, b2n d.sec.debug), (1, b2n d.sec.field), (7, d.sec.floor),
          (2, d.keyState 3), (2, d.keyState 2), (2, d.keyState 1), (2, d.keyState 0), (15, 0)],
   packW [(32, d.start.firmware), (32, d.sec.fwSec)]] ++
  words256 (match d.prog.prog with | some p => p.digest | none => 0) ++
  [packW [(32, match d.prog.prog with | some p => p.secVersion | none => 0), (32, d.cfg 0x7000 1)]] ++
  words256 d.sec.commissioned ++ words256 d.sec.partner ++
  [BitVec.ofNat 64 d.now, packW [(48, d.cyc.number.toNat), (2, d.time.state.code), (14, 0)], d.time.ticks, 0, 0, 0, 0]

/-- Starts the signature of an attestation message; one signature at a time, and a seal that is due goes first (R517). -/
def Dev.startAttestation (d : Dev) (nonce : BitVec 256) : Dev :=
  if d.recd.sealing.isSome then d.modSec (fun s => { s with waiting := some (beBytes 32 nonce.toNat) })
  else d.modSec (fun s => { s with waiting := none, signing := some (false, wordsBe (d.attestationBody nonce)) })

/-- A waiting attestation starts. -/
def Dev.resumeAttestation (d : Dev) : Dev :=
  match d.sec.waiting with
  | some n => if d.sec.signing = none then d.startAttestation (BitVec.ofNat 256 (beNat n)) else d
  | none => d

/-- R516: a nonce write is refused. -/
def Dev.nonceRefused (d : Dev) : Bool :=
  d.sec.signing.isSome || d.sec.waiting.isSome || d.usableLeaf.isNone ||
    (match d.sec.nonceTick with | some t => decide (d.tick < t + sTicks 1) | none => false)

/-- A write to [A000.02]. -/
def writeNonce (v : List Nat) (d : Dev) : Dev × Reply :=
  if d.nonceRefused then (d, .refuse 6)
  else
    let n := BitVec.ofNat 256 (beNat (natBytes v))
    ((d.modSec (fun s => { s with nonce := some n, nonceTick := some d.tick })).startAttestation n, .good [])

def attestationNonce (r : Req) (nonce : List Byte) (d : Dev) : Dev := d.writeWith r 0xA000 2 false nonce writeNonce

/-- ATTESTATION_NONCE (R442, R516). -/
def execAttestationNonce (r : Req) (nonce : List Byte) (s : State) : Out := s.next (attestationNonce r nonce s.dev)

def attestationSignatureComplete (selfVerified : Bool) (d : Dev) : Dev :=
  match d.sec.signing, d.usableLeaf with
  | some (false, body), some l =>
    let m := body ++ d.signature body l
    let d := d.useLeaf l
    if selfVerified then d.modSec (fun s => { s with message := m, signing := none })
    else d.modSec (fun s => { s with signing := none, traversal := true, waiting := s.nonce.map (fun n => beBytes 32 n.toNat) })
  | _, _ => d

/-- ATTESTATION_SIGNATURE_COMPLETE (R517, R520): the message is released; a signature that fails the unit's own
verification is not, and the traversal state is recomputed. -/
def execAttestationSignatureComplete (selfVerified : Bool) (s : State) : Out := s.next (attestationSignatureComplete selfVerified s.dev)

def leafReservationRetry (written : Bool) (d : Dev) : Dev :=
  if d.sec.failed = false ∨ d.tick < d.sec.retryTick + sTicks 1 then d
  else if written = false then { d with sec := { d.sec with retryTick := d.tick } }.raise 0x1104 0 1
  else
    let d := { d with sec := { d.sec with retryTick := d.tick } }
    let b := match d.sec.reserving, d.sec.block with
      | some b, _ => b
      | none, some b => b + 1
      | none, none => d.lowestBlock
    d.reserve b

/-- LEAF_RESERVATION_RETRY (R518). -/
def execLeafReservationRetry (written : Bool) (s : State) : Out := s.next (leafReservationRetry written s.dev)

def traversalStateRecompute (d : Dev) : Dev := (d.modSec (fun s => { s with traversal := false })).resumeAttestation

/-- TRAVERSAL_STATE_RECOMPUTE (R520). -/
def execTraversalStateRecompute (s : State) : Out := s.next (traversalStateRecompute s.dev)

/-! ## Signed acts and tokens (R513 to R515, R522) -/

/-- A key slot that may sign (R513). -/
def Dev.keyValid (d : Dev) (k : Nat) : Bool := d.sec.valid.contains k && !d.sec.revoked.contains k

/-- Four words as a 256-bit value. -/
def val256 (ws : List Word) (i : Nat) : BitVec 256 :=
  BitVec.ofNat 256 (packN [(64, (wat ws i).toNat), (64, (wat ws (i + 1)).toNat), (64, (wat ws (i + 2)).toNat), (64, (wat ws (i + 3)).toNat)])

/-- Check 1 of R515: length, MAGIC, KIND, and every reserved field and unused part of the payload zero (log 20). -/
def actFormat (kind : Nat) (ws : List Word) (length : Nat) : Bool :=
  decide (length = 2948) && decide (ws.length = 16) && decide (wfld (wat ws 0) 63 32 = 0x41435453) &&
    decide (wfld (wat ws 0) 31 24 = kind) && decide (wfld (wat ws 0) 23 16 ≤ 3) && decide (wfld (wat ws 0) 15 0 = 0) &&
    decide (wat ws 14 = 0) && decide (wat ws 15 = 0) &&
    (match kind with
      | 1 => decide (val256 ws 10 = 0)
      | 3 => decide (wfld (wat ws 10) 63 8 = 0) && decide (wat ws 11 = 0) && decide (wat ws 12 = 0) && decide (wat ws 13 = 0)
      | 4 => decide (wfld (wat ws 10) 63 4 = 0) && decide (wat ws 11 = 0) && decide (wat ws 12 = 0) && decide (wat ws 13 = 0)
      | _ => true)

/-- Check 6 of R515. -/
def Dev.revocable (d : Dev) (slot signer : Nat) : Bool :=
  d.keyValid slot && decide (slot ≠ signer) && ((List.range 4).filter d.keyValid).length != 1

/-- The first failing check of R515, as the refusal's status and reason. -/
def Dev.actCheck (d : Dev) (kind : Nat) (ws : List Word) (length : Nat) (signatureOk : Bool) : Option Reply :=
  let bad : Reply := if kind = 4 then .cause 0x1107 else .refuse 4
  let slot := wfld (wat ws 0) 23 16
  if actFormat kind ws length = false then some bad
  else if d.inReady = false then some (.refuse 3)
  else if d.keyValid slot = false then some (.cause 0x1102)
  else if wat ws 1 ≠ d.sec.serial ∨ d.sec.nonce ≠ some (val256 ws 2) ∨ val256 ws 6 ≠ d.sec.fingerprint then some bad
  else if signatureOk = false then some bad
  else if kind = 3 ∧ d.revocable (wfld (wat ws 10) 7 0) slot = false then some (.refuse 4)
  else none

/-- The block transfer of an act or token that has all its bytes (R409, R515). -/
def Dev.actTransfer (d : Dev) (sub : Nat) : Option Transfer :=
  d.palca.transfers.find? (fun t => t.idx == 0xA000 && t.sub == sub && t.got.length == t.total)

/-- The body of an act: sixteen words, the first byte of each the most significant (R403, R514). -/
def actBody (bytes : List Byte) : List Word :=
  (List.range (min 16 (bytes.length / 8))).map (fun i => BitVec.ofNat 64 (beNat ((bytes.drop (8 * i)).take 8)))

/-- The body's KIND is another one of the object's, so that another command checks it (R514). -/
def otherKind (sub kind : Nat) (ws : List Word) : Bool :=
  let k := wfld (wat ws 0) 31 24
  decide (k ≠ kind) && (if sub = 7 then decide (1 ≤ k) && decide (k ≤ 3) else decide (k = 4))

/-- A value goes to both copies of the control area; answers the sequence number of its entry (R515, R521). -/
def Dev.controlWord (d : Dev) (key : Nat) (v : BitVec 256) : Dev × Option Nat :=
  let d := d.journal .control key ((words256 v).map BitVec.toNat)
  (d, some d.recd.jseq)

/-- A completed act or token: the checks of R515, its effect, and the response to its last segment; its transfer ends. A cause of another
block that the response carries is raised as well (R551). -/
def Dev.act (d : Dev) (sub kind : Nat) (signatureOk : Bool) (effect : List Word → Dev → Dev × Option Nat) : Dev :=
  match d.actTransfer sub with
  | none => d
  | some t =>
    let ws := actBody t.got
    if otherKind sub kind ws then d
    else
      let d := { d with palca := { d.palca with transfers := d.palca.transfers.filter (fun t => !(t.idx == 0xA000 && t.sub == sub)) } }
      match d.actCheck kind ws t.total signatureOk with
      | some x => (d.raiseIf (decide (x.status / 256 = 0x11)) x.status 0 0).answerAct sub x none
      | none => let y := effect ws (d.modSec (fun s => { s with nonce := none })); y.1.answerAct sub (.good []) y.2

def commissioningAct (signatureOk : Bool) (d : Dev) : Dev :=
  d.act 7 1 signatureOk (fun _ d => (d.modSec (fun s => { s with commissioned := s.fingerprint })).controlWord ctlCommissioned d.sec.fingerprint)

/-- COMMISSIONING_ACT (R515, R521). -/
def execCommissioningAct (signatureOk : Bool) (s : State) : Out := s.next (commissioningAct signatureOk s.dev)

def partnerBindingAct (signatureOk : Bool) (d : Dev) : Dev :=
  d.act 7 2 signatureOk (fun ws d => (d.modSec (fun s => { s with partner := val256 ws 10 })).controlWord ctlPartner (val256 ws 10))

/-- PARTNER_BINDING_ACT (R515, R521). -/
def execPartnerBindingAct (signatureOk : Bool) (s : State) : Out := s.next (partnerBindingAct signatureOk s.dev)

def keyRevocationAct (signatureOk : Bool) (d : Dev) : Dev :=
  d.act 7 3 signatureOk (fun ws d => (d.modSec (fun s => { s with revoked := sins (wfld (wat ws 10) 7 0) s.revoked }), none))

/-- KEY_REVOCATION_ACT (R513, R515): burns the slot's REVOKED fuse. -/
def execKeyRevocationAct (signatureOk : Bool) (s : State) : Out := s.next (keyRevocationAct signatureOk s.dev)

def debugUnlockToken (signatureOk : Bool) (d : Dev) : Dev :=
  d.act 0x0B 4 signatureOk (fun ws d =>
    ((d.modSec (fun s => { s with debug := true, scope := wfld (wat ws 10) 3 0 })).raise 0x1106 0 0, none))

/-- DEBUG_UNLOCK_TOKEN (R515, R522). -/
def execDebugUnlockToken (signatureOk : Bool) (s : State) : Out := s.next (debugUnlockToken signatureOk s.dev)

/-! ## JTAG (R510, R522) -/

def otpProgram (slot : Nat) (key : List Byte) (d : Dev) : Dev :=
  if d.up = false ∨ d.sec.field = true ∨ d.sec.valid.contains slot = true then d
  else d.modSec (fun s => { s with keys := kset [] s.keys slot key, valid := sins slot s.valid })

/-- OTP_PROGRAM (R510): in BLANK, an empty slot takes a key and its VALID fuse burns. -/
def execOtpProgram (slot : Fin 4) (key : List Byte) (s : State) : Out := s.next (otpProgram slot key s.dev)

def otpClose (d : Dev) : Dev := if d.up = false ∨ d.sec.valid = [] then d else d.modSec (fun s => { s with field := true })

/-- OTP_CLOSE (R510): burns the lifecycle fuse; refused while no slot is valid. -/
def execOtpClose (s : State) : Out := s.next (otpClose s.dev)

def extest (d : Dev) : Dev := if d.up && d.sec.debug && nbit d.sec.scope 2 then d.huskStop else d

/-- EXTEST (R522): entering EXTEST or INTEST drives the stop pad overrides low and sends all-off. -/
def execExtest (_intest : Bool) (s : State) : Out := s.next (extest s.dev)

end Sys2Proof.Machine
end

