-- ==== Sys2Proof/Machine/Storage.lean ====
section
/-! DEFINITION. NAND upkeep and the recorder's segments (R483 to R505). -/

namespace Sys2Proof.Machine

open Sys2Proof

/-- DETAIL of 0x1001 and 0x1002: area and page (log 21). -/
def nandDetail (a : NandArea) (page : Nat) : Nat := areaNo a * 2 ^ 40 + page % 2 ^ 40

/-! ## The ring (R484, R491, R502, R504) -/

/-- Bytes of the ring. -/
def Dev.ringBytes (d : Dev) : Nat := d.recd.ringBlocks * d.recd.blockMiB * 2 ^ 20

/-- Drops the oldest segments until the rest fits. -/
def ringTrim (cap : Nat) : Store (List Byte) → Store (List Byte)
  | [] => []
  | x :: t => if ((x :: t).map (fun y => y.2.length)).sum ≤ cap then x :: t else ringTrim cap t

/-- The ring erases whole segments, oldest first (R504). -/
def Dev.trimRing (d : Dev) : Dev := d.modRec (fun r => { r with sealed := ringTrim d.ringBytes r.sealed })

/-- The ring has fallen below two segments of the present one's size (R502). -/
def Dev.ringLow (d : Dev) : Bool := decide (d.ringBytes < 2 * d.recd.data.length)

/-- The 4 MiB of NAND staging (R153, R502). -/
def stagingBytes : Nat := 4194304

/-- Writes a record that may be dropped: nothing when the staging buffer is full or the ring is low; answers whether it
was written (R502). -/
def Dev.recordIf (d : Dev) (kind : Nat) (payload : List Byte) : Dev × Bool :=
  if d.ringLow then (d, false)
  else if stagingBytes < d.recd.staged + 8 + payload.length then (d.raise 0x1006 0 0, false)
  else (d.record kind payload, true)

/-! ## Blocks (R489 to R495) -/

/-- Queues a block for refresh; a soft decode goes ahead (R489). What steps 7 and 8 of start-up find waits for the first commit (R494). -/
def Dev.queueRefresh (d : Dev) (b reason : Nat) (first : Bool) : Dev :=
  let d := if d.start.step = some 7 ∨ d.start.step = some 8 then d.modRec (fun r => { r with bootAged := sins b r.bootAged }) else d
  if d.recd.refresh.any (fun q => q.1 == b) && !first then d
  else
    let rest := d.recd.refresh.filter (fun q => !(q.1 == b))
    d.modRec (fun r => { r with refresh := if first then (b, reason) :: rest else rest ++ [(b, reason)] })

/-- Moves the valid pages of a block to another, which takes its place in the mapping (R491, R492). -/
def Dev.relocate (d : Dev) (b n : Nat) : Dev :=
  let mine := d.recd.pages.filter (fun x => x.1 / 2 ^ 16 == b)
  let at_ := fun (p : Option (Nat × Nat)) => p.map (fun x => if x.1 = b then (n, x.2) else x)
  let moved := fun (l : List JEntry) => l.map (fun e => { e with a := at_ e.a, b := at_ e.b })
  let held := (d.block b).held
  let d := (d.swapBlocks b n).modRec (fun r => { r with
    wseq := r.wseq + 1,
    pages := mine.foldl (fun m x => kset [] m (pageKey n (x.1 % 2 ^ 16))
      (x.2.map (fun c => { c with wseq := r.wseq + 1, erases := (d.block n).erases }))) (r.pages.filter (fun x => x.1 / 2 ^ 16 != b)),
    heads := r.heads.map (fun x => (x.1, { x.2 with blocks := x.2.blocks.map (fun y => if y = b then n else y) })),
    store := moved r.store, control := moved r.control })
  d.modBlock n (fun x => { x with held := held })

/-- A spare takes a retired block's place; without one the ring gives up its oldest block (R491). Answers the block. -/
def Dev.takeSpare (d : Dev) (b : Nat) : Dev × Option Nat :=
  if d.recd.spares = 0 then
    let d := (d.modRec (fun r => { r with ringBlocks := r.ringBlocks - 1 })).trimRing
    let h := d.nandHead .ring 0
    match h.blocks with
    | o :: t => ((d.eraseBlock o).setHead .ring 0 { h with blocks := t }, some o)
    | [] => (d, d.leastWorn (d.copyBlocks .ring 0))
  else
    let l := d.spareBlocks
    let n := (d.leastWorn (l.filter (fun x => d.nandGroup x == d.nandGroup b))).or (d.leastWorn l)
    let d := d.modRec (fun r => { r with spares := r.spares - 1 })
    if 4 * d.recd.spares < d.recd.sparesAtFormat ∧ d.recd.lowRaised = false then
      ((d.modRec (fun r => { r with lowRaised := true })).raise 0x1004 0 0, n)
    else (d, n)

/-- Retires a block (R491); its other readable pages move to the block that takes its place. -/
def Dev.retireBlock (d : Dev) (b : Nat) : Dev × Option Nat :=
  if (d.block b).bad then (d, none)
  else
    let x := ((d.modRec (fun r => { r with bad := r.bad + 1 })).raise 0x1003 0 b).takeSpare b
    let d := match x.2 with | some n => x.1.relocate b n | none => x.1
    (d.modBlock b (fun y => { y with bad := true, held := false }), x.2)

/-- A reservation record that found no block in the control area (R491, R518). -/
def Dev.reservationLost (d : Dev) (a : NandArea) : Dev :=
  if a = .control ∧ d.recd.spares = 0 ∧ d.recd.ringBlocks = 0 ∧ d.sec.reserving.isSome = true then
    (d.modSec (fun s => { s with failed := true })).raise 0x1104 0 1
  else d

/-! ## Reads (R489, R490, R493) -/

/-- 4,096 bytes of the ring's stream read as zero from a position on (R490). -/
def zeroSpan (start pos : Nat) (l : List Byte) : List Byte :=
  l.zipIdx.map (fun x => if pos ≤ start + x.2 ∧ start + x.2 < pos + 4096 then 0 else x.1)

/-- A missing codeword of the ring. -/
def Dev.zeroRing (d : Dev) (pos : Nat) : Dev :=
  d.modRec (fun r => { r with
    sealed := r.sealed.map (fun x => (x.1, zeroSpan (kget 0 r.segStart x.1) pos x.2)), data := zeroSpan (kget 0 r.segStart r.segment) pos r.data })

/-- A page of a two-copy area is rewritten from the other copy in class 4 of R496. -/
def Dev.rewriteLater (d : Dev) (p : NandPlace) : Dev :=
  d.enqueueWork { cls := 4, kind := .program, place := p, ticket := 0, bytes := 0, retried := false }

/-- The other copy of what a page holds reads: of a journal its entries say so, of the boot area and the firmware the read itself. -/
def Dev.otherReads (d : Dev) (p : NandPlace) (otherOk : Bool) : Bool :=
  if p.area = .store ∨ p.area = .control then
    (d.recd.journal p.area).all (fun e => decide (e.place p.copy.val ≠ some (p.block, p.page)) || d.entryIn e (1 - p.copy.val))
  else twoCopies p.area && otherOk

/-- Codeword `i` of a page is missing (R489, R490): the other copy gives it and the damaged one is rewritten; a package slot fails check 2 of
R183; the ring reads zeros. -/
def Dev.missing (d : Dev) (p : NandPlace) (i : Nat) (otherOk : Bool) : Dev :=
  let pos := ((d.codewords p.block p.page)[i]?).map Codeword.pos
  let d := (d.raise 0x1001 0 (nandDetail p.area (d.blockPages * d.logicalBlock p.block + p.page))).spoilPage p.block p.page (fun k => k == i)
  match p.area with
  | .package s =>
    { d with prog := { d.prog with slots := kmod PkgSlot.reset d.prog.slots s.val (fun x =>
        { x with content := x.content.map (fun p => { p with bodyOk := false }) }) } }
  | .ring => (match pos with | some q => d.zeroRing q | none => d)
  | _ => if d.otherReads p otherOk && !d.recd.work.any (fun w => w.place == p) then d.rewriteLater p else d

/-- A read counts; 100,000 queue a refresh (R493). -/
def Dev.countRead (d : Dev) (b : Nat) : Dev :=
  let d := d.modBlock b (fun x => { x with reads := x.reads + 1 })
  if 100000 ≤ (d.block b).reads then d.queueRefresh b 2 false else d

/-- What one codeword's outcome leads to (R489). -/
def Dev.cwOutcome (d : Dev) (p : NandPlace) (otherOk : Bool) (x : CwOutcome × Nat) : Dev :=
  match x.1 with
  | .hard bits => if 60 < bits then d.queueRefresh p.block 1 false else d
  | .soft =>
    if d.recd.readRetry = false then d.missing p x.2 otherOk
    else (d.raise 0x1002 0 (nandDetail p.area (d.blockPages * d.logicalBlock p.block + p.page))).queueRefresh p.block 1 true
  | .missing => d.missing p x.2 otherOk

/-- A read of a page: its codewords in turn. -/
def Dev.readDone (d : Dev) (p : NandPlace) (l : List CwOutcome) (otherOk : Bool) : Dev :=
  (l.take (d.recd.pageKiB / 4)).zipIdx.foldl (fun d x => d.cwOutcome p otherOk x) (d.countRead p.block)

/-! ## Programs and erases (R485, R491, R497, R502) -/

/-- An entry stands in a copy; the control area's records take effect once both have it (R493, R518). -/
def Dev.landEntry (d : Dev) (a : NandArea) (copy ticket : Nat) (p : NandPlace) : Dev :=
  let d := d.modJournal a (fun l => l.map (fun e => if e.seq = ticket then e.put copy (some (p.block, p.page)) else e))
  match (d.recd.journal a).find? (fun e => e.seq == ticket) with
  | some e =>
    if a = .control ∧ e.key = ctlReads ∧ copy = 0 then
      d.modRec (fun r => { r with blocks := r.blocks.map (fun x =>
        (x.1, { x.2 with journalled := ((e.value.zip (e.value.drop 1)).zipIdx.foldl (fun m y =>
          if y.2 % 2 = 0 ∧ y.1.1 = x.1 then y.1.2 else m) x.2.journalled) })) })
    else if a = .control ∧ e.key = ctlReservation ∧ copy = 1 then d.reservationDone (e.value.headD 0)
    else d
  | none => d

/-- What a finished program leaves: the page and its codewords; of a journal the entry; of the ring the bytes that have left staging. -/
def Dev.landProgram (d : Dev) (w : NandWork) : Dev :=
  let d := if w.kind = .program then d.programPage w.place d.recd.ringPos else d
  match w.place.area with
  | .ring => d.modRec (fun r => { r with staged := r.staged - w.bytes, ringPos := r.ringPos + w.bytes, flush := r.flush && decide (w.bytes < r.staged) })
  | a => if w.ticket = 0 then d else d.landEntry a w.place.copy.val w.ticket w.place

/-- The fresh page passed its hard decode (R485): copy A's entry goes to copy B, and with both the held response goes (R405, R505). -/
def Dev.verified (d : Dev) (w : NandWork) : Dev :=
  let d := d.landProgram w
  if w.ticket = 0 then d
  else if w.place.copy = 0 then d.programLater 1 w.place.area 1 w.ticket 0
  else d.releaseHeld w.ticket

/-- A failed operation retires its block, and a program is done again on the block that takes its place (R491). -/
def Dev.failWork (d : Dev) (w : NandWork) : Dev :=
  let x := d.retireBlock w.place.block
  let d := match w.kind, x.2 with
    | .erase, _ => x.1
    | _, some n => x.1.enqueueWork { w with kind := .program, place := { w.place with block := n }, retried := false }
    | _, none => x.1
  d.reservationLost w.place.area

/-- Every codeword of a fresh page decoded hard. -/
def allHard (l : List CwOutcome) : Bool := l.all (fun x => match x with | .hard _ => true | _ => false)

/-- The operation in progress on its LUN ends (R485, R489, R491). -/
def Dev.endWork (d : Dev) (w : NandWork) (o' : NandOutcome) : Dev :=
  let lun := d.lunOf w.place.block
  let idle := d.modRec (fun r => { r with running := kset none r.running lun none })
  match w.kind, o' with
  | .program, .done =>
    (d.programPage w.place d.recd.ringPos).modRec (fun r => { r with running := kset none r.running lun (some { w with kind := .readBack }) })
  | .readBack, .read l =>
    if allHard l then
      (l.zipIdx.foldl (fun d x => d.cwOutcome w.place true x) (idle.countRead w.place.block)).verified w
    else idle.failWork w
  | .erase, .erased => idle.eraseBlock w.place.block
  | .program, .failed => idle.failWork w
  | .erase, .failed => idle.failWork w
  | _, _ => d

def nandOperationComplete (p : NandPlace) (o' : NandOutcome) (otherOk : Bool) (d : Dev) : Dev :=
  if d.up = false then d
  else
    let d := d.serveNand
    match d.runningOn (d.lunOf p.block), o' with
    | some w, _ => if w.place = p then (d.endWork w o').serveNand else d
    | none, .read l => (d.readDone p l otherOk).serveNand
    | none, _ => d

/-- NAND_OPERATION_COMPLETE (R485, R489 to R493, R496): the operation in progress on the page's LUN ends, or a read for start-up, activation, a
BLOB or the scan on an idle LUN. -/
def execNandOperationComplete (place : NandPlace) (outcome : NandOutcome) (otherCopyOk : Bool) (s : State) : Out :=
  s.next (nandOperationComplete place outcome otherCopyOk s.dev)

/-- A read that timed out: retried once, then every codeword is missing (R483). -/
def Dev.readTimeout (d : Dev) (p : NandPlace) (otherOk : Bool) : Dev :=
  if d.recd.lateReads.contains p then
    let d := d.modRec (fun r => { r with lateReads := r.lateReads.erase p })
    d.readDone p (List.replicate (d.recd.pageKiB / 4) .missing) otherOk
  else d.modRec (fun r => { r with lateReads := r.lateReads ++ [p] })

def nandTimeout (p : NandPlace) (otherOk : Bool) (d : Dev) : Dev :=
  if d.up = false then d
  else
    let d := d.serveNand.raise 0x1007 0 0
    let lun := d.lunOf p.block
    match d.runningOn lun with
    | some w =>
      if w.place ≠ p then d
      else if w.retried then ((d.modRec (fun r => { r with running := kset none r.running lun none })).failWork w).serveNand
      else d.modRec (fun r => { r with running := kset none r.running lun (some { w with retried := true }) })
    | none => (d.readTimeout p otherOk).serveNand

/-- NAND_TIMEOUT (R483): the LUN is reset and the operation retried; a second time-out is a failed program or erase, or an uncorrectable
read. -/
def execNandTimeout (place : NandPlace) (otherCopyOk : Bool) (s : State) : Out := s.next (nandTimeout place otherCopyOk s.dev)

/-- Blocks whose erase a loss of power abandoned are erased again (R505). -/
def Dev.eraseAgain (d : Dev) : Dev := d.recd.again.foldl Dev.eraseBlock (d.modRec (fun r => { r with again := [] }))

/-! ## Refresh, journalled counts, scan, wear (R492 to R495) -/

/-- The copy that has a block in use. -/
def Dev.blockOwner (d : Dev) (b : Nat) : Option (NandArea × Nat) :=
  [NandArea.store, .control, .ring].findSome? (fun a => [0, 1].findSome? (fun c =>
    if (d.nandHead a c).blocks.contains b then some (a, c) else none))

/-- Blocks that data of a block may move to: free ones of its area and copy; of another area's block those of the spare pool that keep the
copies apart (R485, R495). -/
def Dev.targets (d : Dev) (b : Nat) : List Nat :=
  (match d.blockOwner b with
    | some x => d.copyBlocks x.1 x.2
    | none => d.spareBlocks.filter (fun x => d.nandGroup x == d.nandGroup b)).filter (fun x =>
      x != b && !(d.block x).held && !(d.block x).bad)

/-- Moves a block's data: the mapping switches and the old block waits for its erase (R492). -/
def Dev.moveBlock (d : Dev) (b n : Nat) : Dev :=
  let x := (d.blockOwner b).getD (.firmware, 0)
  ((d.relocate b n).eraseLater 4 x.1 (Fin.ofNat 2 x.2) b).serveNand

/-- The refresh that a block's LUN serves next: nothing runs or waits there before it, and it is the first of the LUN's queue (R496). -/
def Dev.refreshTurn (d : Dev) (b : Nat) : Option (Nat × Nat) :=
  let lun := d.lunOf b
  if (d.runningOn lun).isSome || d.recd.work.any (fun w => d.lunOf w.place.block == lun) ||
      (d.recd.bootAged.contains b && !d.hull.firstCommit) then none
  else match d.recd.refresh.find? (fun q => d.lunOf q.1 == lun) with
    | some q => if q.1 = b then some q else none
    | none => none

def blockRefresh (b : Nat) (d : Dev) : Dev :=
  let d := d.serveNand
  match d.refreshTurn b, d.leastWorn (d.targets b) with
  | some q, some n =>
    let d := d.modRec (fun r => { r with refresh := r.refresh.filter (fun q => !(q.1 == b)), bootAged := sdel b r.bootAged })
    (d.raise 0x1005 0 q.2).moveBlock b n
  | _, _ => d

/-- BLOCK_REFRESH (R492, R495, R496). -/
def execBlockRefresh (block : Nat) (s : State) : Out := s.next (blockRefresh block s.dev)

/-- Journals the read counts (R493): block and count of every block read. -/
def Dev.journalReads (d : Dev) : Dev :=
  (d.modRec (fun r => { r with lastJournal := d.tick })).journal .control ctlReads (d.recd.blocks.flatMap (fun x => [x.1, x.2.reads]))

def readCountJournal (d : Dev) : Dev :=
  if d.up = true ∧ d.recd.lastJournal + sTicks 600 ≤ d.tick then d.journalReads else d

/-- READ_COUNT_JOURNAL (R493): every 10 minutes. -/
def execReadCountJournal (s : State) : Out := s.next (readCountJournal s.dev)

def retentionScan (aged soft : List Nat) (d : Dev) : Dev :=
  if d.up = true ∧ d.recd.lastScan + sTicks (168 * 3600) ≤ d.tick then
    let d := d.modRec (fun r => { r with lastScan := d.tick })
    let d := aged.foldl (fun d b => d.queueRefresh b 3 false) d
    soft.foldl (fun d b => (d.raise 0x1002 0 b).queueRefresh b 3 true) d
  else d

/-- RETENTION_SCAN (R494): every 168 hours; what the scan found aged, and what needed a soft decode, is queued. -/
def execRetentionScan (aged soft : List Nat) (s : State) : Out := s.next (retentionScan aged soft s.dev)

def wearLevelling (d : Dev) : Dev :=
  if d.up = true ∧ d.recd.lastWear + sTicks (24 * 3600) ≤ d.tick then
    let d := d.modRec (fun r => { r with lastWear := d.tick })
    let used := (d.recd.blocks.filter (fun x => x.2.held && !x.2.bad)).map (fun x => (x.1, x.2.erases))
    match used with
    | [] => d
    | a :: t =>
      let lo := t.foldl (fun m x => if x.2 < m.2 then x else m) a
      let hi := t.foldl (fun m x => if m.2 < x.2 then x else m) a
      if lo.2 + 1000 < hi.2 then
        match d.targets lo.1 with
        | [] => d
        | f :: r => d.moveBlock lo.1 (r.foldl (fun m x => if (d.block m).erases < (d.block x).erases then x else m) f)
      else d
  else d

/-- WEAR_LEVELLING (R495): every 24 hours. -/
def execWearLevelling (s : State) : Out := s.next (wearLevelling s.dev)

def firmwareCopyRepair (stage : Nat) (d : Dev) : Dev :=
  if d.hull.firstCommit then { d with start := { d.start with repair := sdel stage d.start.repair } } else d

/-- FIRMWARE_COPY_REPAIR (R487): after the first commit the stage's bad copy is rewritten. -/
def execFirmwareCopyRepair (stage : Fin 8) (s : State) : Out := s.next (firmwareCopyRepair stage.val s.dev)

/-! ## Segments (R503 to R505) -/

/-- The body of a seal (R504). -/
def Dev.sealBody (d : Dev) (h : BitVec 256) (unclean : Bool) : List Word :=
  [packW [(32, d.recd.segment), (32, d.recd.records)], BitVec.ofNat 64 d.now,
   packW [(48, d.cyc.number.toNat), (2, d.time.state.code), (1, b2n unclean), (13, 0)], d.time.ticks] ++
  words256 d.recd.prevH ++ words256 h

/-- Bytes of a seal record: header word, body, signature (R504). -/
def sealRecord : Nat := 8 + 96 + 5605

/-- Ends the segment (R503): its chain value, and the body that waits for its seal. -/
def Dev.endSegment (d : Dev) (unclean : Bool) : Dev :=
  let h := Config.shake256 (beBytes 32 d.recd.prevH.toNat ++ d.recd.data)
  let body := wordsLe (d.sealBody h unclean)
  d.modRec (fun r => { r with
    sealing := some (r.segment, body, r.data), data := [], records := 0, segment := r.segment + 1, prevH := h, segTick := d.tick,
    segStart := kset 0 r.segStart (r.segment + 1) (kget 0 r.segStart r.segment + r.data.length + sealRecord) })

def segmentEnd (d : Dev) : Dev :=
  if d.up = true ∧ d.recd.segTick + sTicks 60 ≤ d.tick ∧ d.recd.sealing.isNone = true then d.endSegment false else d

/-- SEGMENT_END (R503). -/
def execSegmentEnd (s : State) : Out := s.next (segmentEnd s.dev)

/-- The signature of a seal: made with the next leaf, or zeros where none is usable (R504, R518, R519). -/
def Dev.signSeal (d : Dev) (body : List Byte) : Dev × List Byte :=
  match d.usableLeaf with
  | some l => (d.useLeaf l, d.signature body l)
  | none => (d, List.replicate 5605 0)

/-- The seal waits for a signature in progress, then goes before a waiting attestation (R517). -/
def sealSegment (d : Dev) : Dev :=
  match d.recd.sealing, d.sec.signing with
  | some (k, body, recs), none =>
    let x := d.signSeal body
    let payload := body ++ x.2
    let sealed := recs ++ leBytes 8 (packN [(8, 8), (24, 0), (32, payload.length)]) ++ payload
    let d := x.1.modRec (fun r => { r with sealing := none, sealed := kset [] r.sealed k sealed, staged := r.staged + 8 + payload.length,
                                            flush := true })
    d.trimRing.resumeAttestation.serveNand
  | _, _ => d

/-- SEAL (R504, R517). -/
def execSeal (s : State) : Out := s.next (sealSegment s.dev)

end Sys2Proof.Machine
end

