-- ==== Sys2Proof/Machine/Survive.lean ====
section
/-! DEFINITION. What outlives the loss of the I/O die: OTP, NAND contents and the Husk's retained record; everything
else takes its reset value (R444, R448, R465, R466, R480, R493, R503, R505). -/

namespace Sys2Proof.Machine

/-- Whole records within the first `limit` bytes, and their number. -/
def wholeRecords : Nat → Nat → List Byte → Nat × Nat
  | 0, _, _ => (0, 0)
  | f + 1, limit, l =>
    let n := 8 + leNat ((l.take 8).take 4)
    if l.length < 8 ∨ limit < n then (0, 0)
    else
      let r := wholeRecords f (limit - n) (l.drop n)
      (n + r.1, 1 + r.2)

/-- What the recorder keeps of the running segment (R503, R505): what is in NAND; at a loss of PWR_OK up to 64 KiB of
staged records more, ended by a power-fail marker where it fits. -/
def Dev.keptSegment (d : Dev) (flush : Bool) : List Byte × Nat :=
  let limit := d.recd.data.length - d.recd.staged + (if flush then 65536 else 0)
  let r := wholeRecords d.recd.records limit d.recd.data
  if flush && decide (r.1 + 8 ≤ limit) then (d.recd.data.take r.1 ++ leBytes 8 (packN [(8, 9), (24, 0), (32, 0)]), r.2 + 1)
  else (d.recd.data.take r.1, r.2)

/-- What becomes of the operations in progress (R485, R505): at a loss of PWR_OK a program ends well and an erase is abandoned, to be done
again; at any other loss a program is cut. Work that waits is gone, and entries that no copy holds with it. -/
def Dev.stopNand (d : Dev) (flush : Bool) : Dev :=
  let ws := d.recd.running.filterMap Prod.snd
  let d := ws.foldl (fun (d : Dev) w => if w.kind = .erase then d else if flush then d.landProgram w else d.cutPage w) d
  let gone := (ws ++ d.recd.work).filterMap (fun w => if w.kind = .erase then some w.place.block else none)
  let kept := fun (l : List JEntry) => l.filter (fun e => e.a.isSome || e.b.isSome)
  d.modRec (fun r => { r with work := [], running := [], again := r.again ++ gone, store := kept r.store, control := kept r.control })

/-- The NAND: blocks with their journalled read counts, 10,000 more after an unclean loss (R493); the segments. -/
def Dev.keptRecorder (d : Dev) (clean flush : Bool) : Recorder :=
  let k := d.keptSegment flush
  let z := Dev.reset.recd
  { z with
    blocks := d.recd.blocks.map (fun x => (x.1, { x.2 with reads := x.2.journalled + (if clean then 0 else 10000) })),
    bad := d.recd.bad, spares := d.recd.spares, sparesAtFormat := d.recd.sparesAtFormat, lowRaised := d.recd.lowRaised,
    capacity := d.recd.capacity, chips := d.recd.chips, blockMiB := d.recd.blockMiB, ringBlocks := d.recd.ringBlocks,
    luns := d.recd.luns, pageKiB := d.recd.pageKiB, readRetry := d.recd.readRetry, formatted := d.recd.formatted, remap := d.recd.remap, pages := d.recd.pages, heads := d.recd.heads,
    again := d.recd.again, wseq := d.recd.wseq, jseq := d.recd.jseq, store := d.recd.store, control := d.recd.control,
    ringPos := d.recd.ringPos, segStart := d.recd.segStart,
    refresh := d.recd.refresh, segment := d.recd.segment, data := k.1, records := k.2, prevH := d.recd.prevH,
    sealing := d.recd.sealing, sealed := d.recd.sealed }

/-- OTP and fuses; the control area's records come back in step 7; the nonce, the message and the debug unlock are lost (R509, R515, R522). -/
def Dev.keptSecurity (d : Dev) : Security :=
  { d.sec with
    stageFloor := 0, fwSec := 0, block := none, leaf := 0, reserved := none, reserving := none, failed := false, traversal := false, commissioned := 0, partner := 0, nonce := none,
    nonceTick := none, signing := none, waiting := none, message := [], debug := false, scope := 0 }

/-- The package slots and the selection record; a load that was not complete leaves its slot EMPTY (R186, R187). -/
def Dev.keptPrograms (d : Dev) : Programs :=
  let z := Dev.reset.prog
  { z with
    slots := (d.prog.slots.map (fun (x : Nat × PkgSlot) => if x.2.state = .loading then (x.1, PkgSlot.reset) else x)).filter
      (fun x => x.2 ≠ PkgSlot.reset),
    selActive := d.prog.selActive, selTrial := d.prog.selTrial, selFallback := d.prog.selFallback, lastDigest := d.prog.lastDigest }

/-- The Husk's own state: pins, clock and retained record (R448, R465). -/
def Dev.keptPower (d : Dev) (st : PowerState) : Power :=
  let z := Dev.reset.power
  { z with
    state := st, resetKind := d.power.resetKind, retained := d.power.retained, wdCount := d.power.wdCount, wdStep := d.power.wdStep,
    crystal := d.power.crystal, pwrOk := d.power.pwrOk, resetN := d.power.resetN, vhusk := d.power.vhusk,
    coreTemp := d.power.coreTemp, iodTemp := d.power.iodTemp, coolCore := d.power.coolCore, coolIod := d.power.coolIod }

/-- Every domain but the Husk loses power: the stop is forced first, then only what survives is left (R444, R466); the DDR5 population is
soldered, and the training result lies in NAND (R163, R167). -/
def Dev.powerDown (d : Dev) (st : PowerState) (clean flush : Bool) : Dev :=
  let d := d.huskStop.stopNand flush
  let z := Dev.reset
  { z with
    code := d.code, out := d.out, free := d.free, sec := d.keptSecurity, recd := d.keptRecorder clean flush, prog := d.keptPrograms,
    power := d.keptPower st, fus := { z.fus with savedCalib := d.fus.savedCalib, savedAt := d.fus.savedAt },
    ddr := { z.ddr with gb16 := d.ddr.gb16, stored := d.ddr.stored }, start := { z.start with stepping := d.start.stepping } }

/-- A reset (R465, R466): its kind, the causes the retained record takes, and the off period before the start moment. -/
def Dev.resetDevice (d : Dev) (kind : Nat) (causes : List Nat) (due : Bool) : Dev :=
  let d := d.powerDown .husk false false
  { d with
    power := { d.power with resetKind := kind, retained := d.power.retained ++ causes },
    start := { d.start with due := due } }

/-- Entry to HUSK without a reset (R446, R457, R480). -/
def Dev.toHusk (d : Dev) (causes : List Nat) (clean flush : Bool) : Dev :=
  let d := d.powerDown .husk clean flush
  { d with power := { d.power with retained := d.power.retained ++ causes } }

end Sys2Proof.Machine
end

