-- ==== Sys2Proof/Machine/Power.lean ====
section
/-! DEFINITION. Current budget, clocks, droop, temperature, AVSBus, rails and the crystal (17_power_and_clocks.md). -/

namespace Sys2Proof.Machine

open Sys2Proof

/-- Updates the power record. -/
def Dev.modPower (d : Dev) (f : Power → Power) : Dev := { d with power := f d.power }

/-! ## The budget arbiter (R452 to R455) -/

/-- Thermal limit in A (R457), whole amperes (log 22): [8000.01] up to 100 °C, then falling on the line to
[8000.02] + 60 A at 105 °C and beyond. -/
def Dev.thermalLimit (d : Dev) : Nat :=
  let b : Int := d.cfg 0x8000 1
  let f : Int := d.cfg 0x8000 2 + 60
  let over_ : Int := d.power.coreTemp - 100 * 65536
  if over_ ≤ 0 then b.toNat else (b - ceilDiv ((b - f) * over_).toNat (5 * 65536)).toNat

/-- Available current of an epoch (R452). -/
def Dev.availableAmps (d : Dev) : Nat := min (d.cfg 0x8000 1) d.thermalLimit - 60

/-- The lowest class of the entries and idle items that run in a table; a promoted item counts as class F (R453). -/
def Dev.runningClass (d : Dev) (t : Nat) : Option Nat :=
  let p := d.pass t
  let timed := (p.started.filter (fun i => !p.done.contains i)).map (fun i => entryClass (d.entry t i))
  let idle := (d.sched.claims.filter (fun c => c.1 == t)).map (fun c => if c.2.2 then 1 else entryClass (d.entry t c.2.1))
  match timed ++ idle with
  | [] => none
  | c :: cs => some (cs.foldl min c)

/-- The class of a unit's request: of the entry that runs, else of its Pip steps, else M (log 22). -/
def Dev.podClass (d : Dev) (p l : Nat) : Nat :=
  match d.runningClass l with
  | some c => c
  | none => ((d.pod p).cores.filterMap Prod.snd).foldl (fun m r => min m (entryClass (d.entry r.ticket.table r.ticket.entry))) 2

/-- The first S or F entry still ahead in the running pass, or of the next one. -/
def Dev.wakeEntry (d : Dev) (l : Nat) : List Word :=
  let p := d.pass l
  let ahead := (d.passEntries l).find? (fun i => entryTimed (d.entry l i) && !p.started.contains i && !p.skipped.contains i)
  match ahead with
  | some i => d.entry l i
  | none => ((d.table l).find? entryTimed).getD []

/-- Request of a Pod in A, with its class (R453). -/
def Dev.podRequest (d : Dev) (p : Nat) : Nat × Nat :=
  let x := d.pod p
  if x.state = .resting then (if x.golden < 2048 then (20, 3) else (0, 3))
  else match x.logical with
    | none => (0, 3)
    | some l =>
      if x.state = .out ∨ x.state = .off then (0, 3)
      else if x.waking then
        let e := d.wakeEntry l
        (if entryKind e = 1 then 20 else 8, entryClass e)
      else if x.state = .gated ∨ x.state = .collapsed then (0, 3)
      else if x.engine.isSome then (20, d.podClass p l)
      else if x.cores.any (fun c => c.2.isSome) || !(d.mover p).groups.isEmpty then (8, d.podClass p l)
      else (0, 3)

/-- Request of solver engine `e`, with its class. -/
def Dev.solverRequest (d : Dev) (e : Nat) : Nat × Nat :=
  match (d.solver e).job with
  | some j => (5, entryClass (d.entry j.ticket.table j.ticket.entry))
  | none => (0, 3)

/-- Requests of all units: Pods 0 to 24, solver engines 25 to 28. -/
def Dev.requests (d : Dev) : List (Nat × Nat × Nat) :=
  (d.enabledPods.map (fun p => (p, d.podRequest p))) ++ (List.range 4).map (fun e => (25 + e, d.solverRequest e))

/-- Units in ascending order from a unit on, round. -/
def turnFrom (turn : Nat) (l : List Nat) : List Nat := l.filter (fun u => decide (turn ≤ u)) ++ l.filter (fun u => decide (u < turn))

/-- Grants of one class: in full, or the share rounded down and the left-over amperes one each in turn (R454). -/
def shareClass (turn avail : Nat) (l : List (Nat × Nat)) : List (Nat × Nat) :=
  let total := (l.map Prod.snd).sum
  if total ≤ avail then l
  else
    let base := l.map (fun x => (x.1, x.2 * avail / total))
    let left := avail - (base.map Prod.snd).sum
    let lucky := (turnFrom turn (l.map Prod.fst)).take left
    base.map (fun x => (x.1, if lucky.contains x.1 then x.2 + 1 else x.2))

/-- Grants of every class, S first (R454). -/
def grantAll (turn avail : Nat) (reqs : List (Nat × Nat × Nat)) : List Nat → List (Nat × Nat)
  | [] => []
  | c :: cs =>
    let g := shareClass turn avail ((reqs.filter (fun r => r.2.2 == c && 0 < r.2.1)).map (fun r => (r.1, r.2.1)))
    g ++ grantAll turn (avail - (g.map Prod.snd).sum) reqs cs

/-- Sixteenths of 1.4 GHz for a request and a grant (R455). -/
def clockOf (r g : Nat) : Nat := min 16 (16 * g / r)

def budgetEpoch (d : Dev) : Dev :=
  if d.power.enCore = false ∨ d.tick < d.power.epochTick + usTicks 1 then d
  else
    let d := d.modPower (fun p => { p with epochTick := d.tick })
    let av := d.availableAmps
    let reqs := d.requests
    let g := grantAll d.power.turn av reqs [0, 1, 2, 3]
    let grant := fun (u : Nat) => ((g.find? (fun x => x.1 == u)).map Prod.snd).getD 0
    let sTotal := ((reqs.filter (fun r => r.2.2 == 0)).map (fun r => r.2.1)).sum
    let short := reqs.any (fun r => decide (grant r.1 < r.2.1))
    let d := d.modPower (fun p => { p with
      grants := reqs.foldl (fun m r => kset 0 m r.1 (grant r.1)) [],
      clocks := reqs.foldl (fun m r => kset 0 m r.1 (if r.2.1 = 0 then 0 else clockOf r.2.1 (grant r.1))) [],
      turn := (p.turn + 1) % 29, droopEpoch := !p.droops.isEmpty })
    let d := { d with pods := { d.pods with pods := d.pods.pods.map (fun x => (x.1, { x.2 with gatedNow := false })) } }
    let d := if short then d.count 0x8000 6 else d
    let d := if d.power.droops.isEmpty then d else d.raise 0x0E02 0 0
    if av < sTotal then
      let d := (d.modPower (fun p => { p with floorOk := none })).raise 0x0E07 0 0
      if kget 0 d.hull.demands srcFloor = 0 then d.protect srcFloor 3 0x0E07 else d
    else if kget 0 d.hull.demands srcFloor = 0 then d
    else match d.power.floorOk with
      | none => d.modPower (fun p => { p with floorOk := some d.tick })
      | some t => if t + sTicks 1 ≤ d.tick then (d.modPower (fun p => { p with floorOk := none })).demand srcFloor 0 0x0E07 else d

/-- BUDGET_EPOCH (R452 to R456, R460). -/
def execBudgetEpoch (s : State) : Out := s.next (budgetEpoch s.dev)

/-! ## Droop (R456) -/

def droop (u : Nat) (d : Dev) : Dev :=
  if d.power.enCore = false then d
  else
    let first := !d.power.droopEpoch
    let d := d.modPower (fun p => { p with droops := sins u p.droops, droopEpoch := true })
    d.raiseIf first 0x0E02 u 0

/-- DROOP (R456): the domain's clock is halved; one occurrence an epoch. -/
def execDroop (u : Fin 30) (s : State) : Out := s.next (droop u s.dev)

def droopRecovery (u : Nat) (d : Dev) : Dev := d.modPower (fun p => { p with droops := sdel u p.droops })

/-- DROOP_RECOVERY (R456). -/
def execDroopRecovery (u : Fin 30) (s : State) : Out := s.next (droopRecovery u s.dev)

/-! ## Temperature (R457) -/

/-- Degrees Celsius as a Q15.16 value. -/
def celsius (n : Nat) : Int := (n * 65536 : Nat)

def temperatureRead (core iod : Int) (d : Dev) : Dev :=
  if d.up = false ∨ d.tick < d.power.tempTick + usTicks 100 then d
  else
    let d := d.modPower (fun p => { p with tempTick := d.tick })
    let hot := (decide (celsius 100 < core) && d.power.coolCore) || (decide (celsius 100 < iod) && d.power.coolIod)
    let arm := fun (t : Int) (was : Bool) => if t < celsius 95 then true else if celsius 100 < t then false else was
    let d := d.modPower (fun p => { p with coreTemp := core, iodTemp := iod, coolCore := arm core p.coolCore, coolIod := arm iod p.coolIod })
    let d := d.raiseIf hot 0x0E05 0 0
    if celsius 112 ≤ core ∨ celsius 112 ≤ iod then d.toHusk [0x0E06] false false else d

/-- TEMPERATURE_READ (R457): the temperatures, over-temperature, and the thermal shutdown at 112 °C. -/
def execTemperatureRead (core iod : Int) (s : State) : Out := s.next (temperatureRead core iod s.dev)

/-! ## AVSBus and rails (R458, R459) -/

/-- A set voltage of the regulators: 5 mV steps from 650 to 850 mV (R458). -/
def legalMv (v : Nat) : Nat := max 650 (min 850 (v / 5 * 5))

def avsVoltageStep (target : Nat) (d : Dev) : Dev :=
  if d.up = false ∨ d.tick < d.power.stepTick + usTicks 100 then d
  else
    let d := d.modPower (fun p => { p with stepTick := d.tick })
    let t := legalMv target
    let new := if t ≤ d.power.setMv then max t (d.power.setMv - 10) else min t (d.power.setMv + 10)
    (d.modPower (fun p => { p with setMv := new })).emit .avsWrite 0 [new]

/-- AVS_VOLTAGE_STEP (R458): at most 10 mV towards the voltage the OTP table gives, which is the command's operand. -/
def execAvsVoltageStep (target : Nat) (s : State) : Out := s.next (avsVoltageStep target s.dev)

/-- One rail's read-back: the third failure in a row raises 0x0E03. -/
def Dev.avsRail (d : Dev) (rail : Nat) (ok : Bool) : Dev :=
  let n := if ok then 0 else kget 0 d.power.avsFails rail + 1
  let d := d.modPower (fun p => { p with avsFails := kset 0 p.avsFails rail n })
  if n = 3 then (d.modPower (fun p => { p with avsFault := sins rail p.avsFault })).raise 0x0E03 rail 0 else d

def avsReadback (answers : List Bool) (d : Dev) : Dev :=
  if d.up = false ∨ d.tick < d.power.avsTick + msTicks 1 then d
  else
    let d := d.modPower (fun p => { p with avsTick := d.tick })
    let d := answers.zipIdx.foldl (fun d x => d.avsRail x.2 x.1) d
    if answers.all (fun a => a) then
      match d.power.avsOk with
      | none => d.modPower (fun p => { p with avsOk := some d.tick })
      | some t => if t + sTicks 1 ≤ d.tick then d.modPower (fun p => { p with avsFault := [] }) else d
    else d.modPower (fun p => { p with avsOk := none })

/-- AVS_READBACK (R458): a fault stands until every rail has answered for 1 s. -/
def execAvsReadback (answers : List Bool) (s : State) : Out := s.next (avsReadback answers s.dev)

/-- A monitored rail is on: VDD_CORE and VDD_SRAM, rails 0 and 1, with the core die, the others from STANDBY upward (R443, R459; log 22). -/
def Dev.railOn (d : Dev) (rail : Nat) : Bool := d.up && (decide (2 ≤ rail) || d.power.enCore)

def railOutOfRange (rail : Nat) (d : Dev) : Dev :=
  if d.railOn rail = false then d else (d.raise 0x0E04 rail 0).protect srcRail 3 0x0E04

/-- RAIL_OUT_OF_RANGE (R459, R460): a rail that is on, outside its window for 10 µs. -/
def execRailOutOfRange (rail : Fin 6) (s : State) : Out := s.next (railOutOfRange rail s.dev)

/-! ## The Husk's clock and supply (R448, R450) -/

def huskBrownout (d : Dev) : Dev :=
  if d.power.vhusk = false then d
  else (d.resetDevice 4 [0x0E01] true).modPower (fun p => { p with crystal := false })

/-- HUSK_BROWNOUT (R448, R465): the Husk resets completely and keeps 0x0E01 in its retained record. -/
def execHuskBrownout (s : State) : Out := s.next (huskBrownout s.dev)

def crystalStable (d : Dev) : Dev := if d.power.vhusk then d.modPower (fun p => { p with crystal := true }) else d

/-- CRYSTAL_STABLE (R450). -/
def execCrystalStable (s : State) : Out := s.next (crystalStable s.dev)

def crystalFault (d : Dev) : Dev :=
  if d.power.crystal then (d.modPower (fun p => { p with crystal := false })).refFault 0x0E08 srcRefClock else d

/-- CRYSTAL_FAULT (R450, R460): the Husk changes to its RC oscillator, then acts as R388 states. -/
def execCrystalFault (s : State) : Out := s.next (crystalFault s.dev)

end Sys2Proof.Machine
end

