-- ==== Sys2Proof/Machine/Mover.lean ====
section
/-! DEFINITION. The mover: descriptors, acceptance, the writes of a fence group and their completion
(05_tensors_and_mover.md, R127 to R143; R152, R156, R195, R383). -/

namespace Sys2Proof.Machine

/-! ## The descriptor (R129) -/

/-- A mover descriptor's fields. -/
structure MDesc where
  transpose : Bool
  pad : Bool
  fence : Bool
  mix : Bool
  perm : Nat
  merge : Bool
  src : Nat
  sync : Nat
  dst : Nat
  fill : Nat
  var : Nat
  cpl : Nat
  /-- E0 to E4, SO0 to SO4, DO0 to DO4 -/
  e : List Nat
  so : List Int
  dd : List Int
deriving DecidableEq, Repr

/-- The fields of eight words (R129). -/
def mdesc (ws : List Word) : MDesc :=
  let w := wat ws
  let four := fun (x : Word) => [wfld x 15 0, wfld x 31 16, wfld x 47 32, wfld x 63 48]
  { transpose := wbit (w 0) 63, pad := wbit (w 0) 62, fence := wbit (w 0) 61, mix := wbit (w 0) 60, perm := wfld (w 0) 59 57,
    merge := wbit (w 0) 56, src := wfld (w 0) 47 0, sync := wfld (w 1) 63 50, dst := wfld (w 1) 47 0, fill := wfld (w 2) 63 32,
    var := wfld (w 2) 27 24, cpl := wfld (w 3) 47 0,
    e := (four (w 4)).map (· + 1) ++ [wfld (w 7) 63 48 + 1],
    so := (four (w 5)).map (sgn 16) ++ [sgn 16 (wfld (w 7) 47 32)],
    dd := (four (w 6)).map (sgn 16) ++ [sgn 16 (wfld (w 7) 31 16)] }

/-- Window dimensions that destination dimensions 2, 3 and 4 take (R129). -/
def permDims (p : Nat) : List Nat :=
  [[2, 3, 4], [2, 4, 3], [3, 2, 4], [3, 4, 2], [4, 2, 3], [4, 3, 2]].getD p [2, 3, 4]

/-- For each destination dimension the window dimension it takes (R130). -/
def MDesc.order (m : MDesc) : List Nat := (if m.transpose then [1, 0] else [0, 1]) ++ permDims m.perm

/-- Source index of a window position. -/
def MDesc.srcIdx (m : MDesc) (p : List Nat) : List Int := (m.so.zip p).map (fun x => x.1 + x.2)

/-- Destination index of a window position (R130). -/
def MDesc.dstIdx (m : MDesc) (p : List Nat) : List Int := (m.dd.zip m.order).map (fun x => x.1 + (p.getD x.2 0 : Nat))

/-- An index inside five extents. -/
def inExt (t : TDesc) (i : List Int) : Bool := (i.zip t.ext).all (fun x => decide (0 ≤ x.1) && decide (x.1 < (x.2 : Int)))

/-- An index in bounds as natural numbers. -/
def idxNat (i : List Int) : List Nat := i.map Int.toNat

/-- Extents of the window in destination order. -/
def MDesc.dstExt (m : MDesc) : List Nat := m.order.map (fun k => m.e.getD k 1)

/-! ## The Pip template rule (R131) -/

/-- The words with the fields that VAR marks cleared. -/
def maskVar (var : Nat) (ws : List Word) : List Word :=
  let w := fun i => (wat ws i).toNat
  let clr := fun (b : Bool) (hi lo x : Nat) => if b then setFld x hi lo 0 else x
  [w 0, w 1, clr (nbit var 3) 63 32 (w 2), w 3, clr (nbit var 2) 63 0 (w 4), clr (nbit var 0) 63 0 (w 5), clr (nbit var 1) 63 0 (w 6),
   clr (nbit var 2) 63 48 (clr (nbit var 0) 47 32 (clr (nbit var 1) 31 16 (w 7)))].map (BitVec.ofNat 64)

/-- A window lies within the template's, dimension by dimension. -/
def within5 (o e : List Int) (o' e' : List Int) : Bool :=
  ((o.zip e).zip (o'.zip e')).all (fun x => decide (x.2.1 ≤ x.1.1) && decide (x.1.1 + x.1.2 ≤ x.2.1 + x.2.2))

/-- R131: the descriptor keeps to its template. -/
def templateOk (t ws : List Word) : Bool :=
  let mt := mdesc t
  let m := mdesc ws
  maskVar mt.var t == maskVar mt.var ws &&
    within5 m.so (m.e.map Int.ofNat) mt.so (mt.e.map Int.ofNat) &&
    within5 m.dd (m.dstExt.map Int.ofNat) mt.dd (mt.dstExt.map Int.ofNat)

/-! ## Addresses and footprints (R127, R137, R152, R155, R156, R195, R383) -/

/-- The contiguous area a device address lies in: its key there, and the key after the area's last byte. -/
def Dev.area (d : Dev) (own : Option Nat) (a : Nat) : Option (Nat × Nat) :=
  let off := fld a 43 0
  let pod := fun (l : Nat) => match d.physOf l with
    | some p => if fld a 38 24 = 0 ∧ fld a 23 0 < 12 * 2 ^ 20 then some (podKey p (fld a 23 0), podKey p (12 * 2 ^ 20)) else none
    | none => none
  match fld a 47 44 with
  | 0 => if fld a 43 39 = 0 then own.bind pod else none
  | 1 => if fld a 43 39 < 24 then pod (fld a 43 39) else none
  | 2 => if off < 0x59C0000 then some (2 * 2 ^ 44 + off, 2 * 2 ^ 44 + 0x59C0000) else none
  | 3 => if off < d.ddrSize - 2 ^ 28 then some (3 * 2 ^ 44 + off, 3 * 2 ^ 44 + d.ddrSize - 2 ^ 28) else none
  | 4 => if off < 0x800000 then some (4 * 2 ^ 44 + off, 4 * 2 ^ 44 + 0x800000)
         else if 0x1000000 ≤ off ∧ off < 0x1400000 then some (4 * 2 ^ 44 + off, 4 * 2 ^ 44 + 0x1400000) else none
  | _ => none

/-- The spaces mover m may read or write at an address (R127). -/
def Dev.moverMay (d : Dev) (m : Nat) (write : Bool) (a : Nat) : Bool :=
  let sp := fld a 47 44
  if m < 25 then
    if write then sp == 0 || (sp == 1 && (d.pod m).logical == some (fld a 43 39)) || sp == 2 || sp == 3
    else decide (sp < 4)
  else sp == 2 || sp == 3 || sp == 4

/-- Bytes from a to b - 1 lie in the union of ranges (start, length); each step takes one range. -/
def coveredBy (rs : List (Nat × Nat)) : Nat → Nat → Nat → Bool
  | 0, a, b => decide (b ≤ a)
  | f + 1, a, b => decide (b ≤ a) || (match rs.find? (fun r => decide (r.1 ≤ a) && decide (a < r.1 + r.2)) with
      | some r => coveredBy rs f (r.1 + r.2) b
      | none => false)

/-- R195: `n` bytes lie in the partition's own ranges, or, for a read, in ranges it may read. -/
def Dev.partitionMay (d : Dev) (part : Nat) (write : Bool) (a n : Nat) : Bool :=
  if fld a 47 44 = 2 ∨ fld a 47 44 = 3 then
    match d.prog.prog with
    | some p =>
      let rs := p.partitionRanges.getD part [] ++ (if write then [] else p.readRanges.getD part [])
      coveredBy rs rs.length a (a + n)
    | none => false
  else true

/-- The enabled window that a scratchpad offset lies in. -/
def Pod.windowAt (p : Pod) (off : Nat) : Option Window :=
  (p.windows.find? (fun w => w.2.en && w.2.base ≤ off && off < w.2.base + w.2.size)).map Prod.snd

/-- Physical pieces [a, b) of a run of scratchpad bytes: each byte inside an enabled window is redirected (R155). -/
def Pod.pieces (p : Pod) : Nat → Nat → Nat → List (Nat × Nat)
  | 0, _, _ => []
  | f + 1, off, len =>
    if len = 0 then []
    else
      match p.windowAt off with
      | some w =>
        let st := p.redirect off
        let run := min len (min (w.base + w.size - off) (w.base + w.size - st))
        (st, st + run) :: p.pieces f (off + run) (len - run)
      | none =>
        let run := (p.windows.filter (fun w => w.2.en && decide (off < w.2.base))).foldl (fun m w => min m (w.2.base - off)) len
        (off, off + run) :: p.pieces f (off + run) (len - run)

/-- Physical byte ranges [a, b) of a run of bytes in one area; none where it leaves the area or the window it starts in
(R155, R156). -/
def Dev.physRanges (d : Dev) (own : Option Nat) (lo hi : Nat) : Option (List (Nat × Nat)) :=
  match d.area own lo with
  | some (k, e) =>
    if k + (hi - lo) < e ∧ lo ≤ hi then
      if k / 2 ^ 44 = 1 then
        let p := fld k 43 39
        let off := fld k 38 0
        let len := hi - lo + 1
        match (d.pod p).windowAt off with
        | some w => if w.base + w.size < off + len then none
          else some (((d.pod p).pieces 200 off len).map (fun r => (podKey p r.1, podKey p r.2)))
        | none => some (((d.pod p).pieces 200 off len).map (fun r => (podKey p r.1, podKey p r.2)))
      else some [(k, k + (hi - lo + 1))]
    else none
  | none => none

/-- Two sets of ranges share a byte. -/
def rangesMeet (a b : List (Nat × Nat)) : Bool := a.any (fun x => b.any (fun y => decide (x.1 < y.2) && decide (y.1 < x.2)))

/-- Lowest and highest byte of a box of indices (R137); none where the box has no index in bounds. -/
def TDesc.bounds (t : TDesc) (lo ext : List Int) : Option (Nat × Nat) :=
  let box := (lo.zip (ext.zip t.ext)).map (fun x => (max 0 x.1, min (x.2.2 : Int) (x.1 + x.2.1) - 1))
  if box.any (fun b => decide (b.2 < b.1)) then none
  else
    let l := box.map (fun b => b.1.toNat)
    let h := box.map (fun b => b.2.toNat)
    let last := if t.ty = 5 then t.expAddr h else t.addr h + (tyBytes t.ty - 1)
    some (t.addr l, last)

/-- The dimension-0 rows of a box of indices in bounds: the first byte of each and its bytes. -/
def TDesc.boxRows (t : TDesc) (lo ext : List Int) : List (Nat × Nat) :=
  match t.bounds lo ext with
  | none => []
  | some _ =>
    let box := (lo.zip (ext.zip t.ext)).map (fun x => ((max 0 x.1).toNat, (min (x.2.2 : Int) (x.1 + x.2.1)).toNat))
    let i0 := (box.headD (0, 1)).1
    let j0 := (box.headD (0, 1)).2 - 1
    (indices ((box.drop 1).map (fun b => b.2 - b.1))).map (fun p =>
      let r := (p.zip (box.drop 1)).map (fun x => x.1 + x.2.1)
      let a := t.addr (i0 :: r)
      (a, (if t.ty = 5 then t.expAddr (j0 :: r) + 1 else t.addr (j0 :: r) + tyBytes t.ty) - a))

/-- Keys of the bytes of rows. -/
def Dev.rowKeys (d : Dev) (own : Option Nat) (rows : List (Nat × Nat)) : List (Nat × Nat) :=
  rows.flatMap (fun r => (d.physRanges own r.1 (r.1 + (r.2 - 1))).getD [])

/-- Keys of the bytes of a whole tensor. -/
def Dev.tensorKeys (d : Dev) (own : Option Nat) (t : TDesc) : List (Nat × Nat) :=
  d.rowKeys own (t.boxRows [0, 0, 0, 0, 0] (t.ext.map Int.ofNat))

/-- Source and destination bytes that the window reaches in bounds. -/
def MDesc.srcBounds (m : MDesc) (t : TDesc) : Option (Nat × Nat) := t.bounds m.so (m.e.map Int.ofNat)
def MDesc.dstBounds (m : MDesc) (t : TDesc) : Option (Nat × Nat) := t.bounds m.dd (m.dstExt.map Int.ofNat)

/-! ## Acceptance (R132, R133) -/

/-- A window position with its source and destination index. -/
def MDesc.positions (m : MDesc) : List (List Int × List Int) := (indices m.e).map (fun p => (m.srcIdx p, m.dstIdx p))

/-- The window reads at least one source element. -/
def MDesc.reads (m : MDesc) (ts td : TDesc) : Bool := m.positions.any (fun p => inExt td p.2 && inExt ts p.1)

/-- Logical number of a mover's own Pod. -/
def Dev.moverOwn (d : Dev) (m : Nat) : Option Nat := if m < 25 then (d.pod m).logical else none

/-- Check 2: what a window reaches may be reached by mover m: the footprint lies in one area and window (R156), every byte of its rows in
ranges of the partition (R195). -/
def Dev.mayReach (d : Dev) (m part : Nat) (write : Bool) (t : TDesc) (lo ext : List Int) : Bool :=
  match t.bounds lo ext with
  | none => true
  | some (a, b) => d.moverMay m write a && (d.physRanges (d.moverOwn m) a b).isSome &&
      (t.boxRows lo ext).all (fun r => d.partitionMay part write r.1 r.2)

/-- A field of the descriptor that names `n` bytes. -/
def Dev.fieldMay (d : Dev) (m : Nat) (write : Bool) (a n : Nat) : Bool :=
  d.moverMay m write a && (d.physRanges (d.moverOwn m) a (a + (n - 1))).isSome

/-- Strides and alignment of R123 for a tensor that is written. -/
def stridesWritten (t : TDesc) : Bool :=
  decide (rowBytes t.ty (t.dim 0) ≤ t.str.getD 0 0) &&
    [1, 2, 3].all (fun k => decide (t.dim k * t.str.getD (k - 1) 0 ≤ t.str.getD k 0))

/-- Alignment of BASE and every stride (R123). -/
def stridesAligned (t : TDesc) : Bool := (t.base :: t.str).all (fun x => x % tyBytes t.ty == 0)

/-- Check 5 (R132). -/
def packingOk (m : MDesc) (ts : TDesc) : Bool :=
  let so := fun k => m.so.getD k 0
  let dd := fun k => m.dd.getD k 0
  let e := fun k => (m.e.getD k 1 : Int)
  if ts.ty = 2 then
    so 0 % 2 == 0 && dd 0 % 2 == 0 && e 0 % 2 == 0 && (!m.transpose || (so 1 % 2 == 0 && e 1 % 2 == 0))
  else if ts.ty = 5 then
    so 0 % 32 == 0 && dd 0 % 32 == 0 && (e 0 % 32 == 0 || so 0 + e 0 == (ts.dim 0 : Int))
  else true

/-- R138: an exact in-place square transpose. -/
def inPlace (m : MDesc) (ts td : TDesc) : Bool :=
  m.transpose && m.perm == 0 && ts.base == td.base && ts.ty == td.ty && ts.str == td.str && m.e.getD 0 1 == m.e.getD 1 1 &&
    m.so == m.dd && m.positions.all (fun p => inExt ts p.1 && inExt td p.2)

/-- The cause a descriptor is refused with, 0 where it is accepted (R132). `others` are the descriptors of its group
accepted before it. -/
def Dev.acceptCause (d : Dev) (mv part : Nat) (tmpl : Option Nat) (others : List Accepted) (ws : List Word) : Nat :=
  let m := mdesc ws
  let own := d.moverOwn mv
  let ts := d.tdescAt own m.src
  let td := d.tdescAt own m.dst
  let badTemplate := match tmpl with
    | some n => !(match d.prog.prog.bind (fun p => p.descriptors[n]?) with | some t => templateOk t ws | none => false)
    | none => false
  if badTemplate then 0x030B
  else if !(d.fieldMay mv false m.src 80 && d.fieldMay mv true m.dst 80 && d.fieldMay mv true m.cpl 8 &&
      d.mayReach mv part false ts m.so (m.e.map Int.ofNat) && d.mayReach mv part true td m.dd (m.dstExt.map Int.ofNat)) then 0x0407
  else if 9 ≤ ts.ty ∨ 9 ≤ td.ty ∨ ts.rank = 0 ∨ 6 ≤ ts.rank ∨ td.rank = 0 ∨ 6 ≤ td.rank ∨ 6 ≤ m.perm ∨ ts.ty ≠ td.ty then 0x0401
  else if !(stridesWritten td && stridesAligned ts && stridesAligned td) ∨ (m.transpose ∧ (ts.ty = 5 ∨ ts.vmKind ≠ 0)) ∨
      (td.vmKind ≠ 0 ∧ td.vmKind ≠ ts.vmKind) then 0x0402
  else if !packingOk m ts then 0x0405
  else
    let same := others.filter (fun a => a.cause == 0 && (mdesc a.words).dst == m.dst &&
      (mdesc a.words).reads (d.tdescAt own (mdesc a.words).src) td)
    let peers := d.inputTimes own (m.src :: same.map (fun a => (mdesc a.words).src) ++ (if m.merge then [m.dst] else []))
    if m.reads ts td && !ts.timeless && timesMismatch m.mix peers then 0x0406
    else
      let phys := fun (b : Option (Nat × Nat)) => match b with
        | some (lo, hi) => (d.physRanges own lo hi).getD []
        | none => []
      if rangesMeet (phys (m.srcBounds ts)) (phys (m.dstBounds td)) && !inPlace m ts td then 0x0403 else 0

/-- A descriptor's signal (R142, R196, R216): on an object outside its partition it is refused with 0x0609, which counts as a signal with
error on the SIG_OBJ of the entry that issued it. -/
def Dev.moverSignal (d : Dev) (mv part : Nat) (k : Option Ticket) (o : Nat) (err : Bool) (cause : Nat) : Dev :=
  if d.syncOwned part o then d.signal o 1 err cause
  else
    let d := d.raise 0x0609 mv o
    match k.bind (fun k => entrySignal (d.entry k.table k.entry)) with
    | some (s, _) => if d.syncOwned part s then d.signal s 1 true 0x0609 else d
    | none => d

/-- A refused descriptor (R133): what it marks lies where the mover may write. -/
def Dev.refuse (d : Dev) (mv part : Nat) (k : Option Ticket) (m : MDesc) (cause : Nat) : Dev :=
  let own := d.moverOwn mv
  let d := d.raise cause mv m.dst
  let d := if d.fieldMay mv true m.dst 80 then d.markFaulted own m.dst else d
  let d := if d.fieldMay mv true m.cpl 8 then d.storeA own m.cpl (leBytes 8 (moveCompletion cause true true false 0).toNat) else d
  (d.occur 0x2023 (mv + 1)).moverSignal mv part k m.sync true cause

/-! ## Ways over the mesh (R22, R387) -/

/-- Places from a to b, the first left out. -/
def walk (a b : Nat) : List Nat :=
  if a ≤ b then (List.range (b - a)).map (fun i => a + 1 + i) else (List.range (a - b)).map (fun i => a - 1 - i)

/-- Routers after `a` on the way to `b`: along the row, then along the column, or the other way round (R20, R22, R387). -/
def meshPath (colFirst : Bool) (a b : Nat) : List Nat :=
  if colFirst then (walk (a / 5) (b / 5)).map (fun r => 5 * r + a % 5) ++ (walk (a % 5) (b % 5)).map (fun c => 5 * (b / 5) + c)
  else (walk (a % 5) (b % 5)).map (fun c => 5 * (a / 5) + c) ++ (walk (a / 5) (b / 5)).map (fun r => 5 * r + b % 5)

/-- Link from a router to its neighbour: 4 times the router plus 0 east, 1 west, 2 south, 3 north (log 68). -/
def linkTo (a b : Nat) : Nat := 4 * a + (if b = a + 1 then 0 else if a = b + 1 then 1 else if a < b then 2 else 3)

/-- The way of a packet: row then column, and column then row where the first crosses a link that is down (R387). -/
def Dev.route (d : Dev) (a b : Nat) : List Nat :=
  let p := meshPath false a b
  if ((a :: p).zip p).any (fun x => d.pods.meshDown.contains (linkTo x.1 x.2)) then meshPath true a b else p

/-- Router at which an address is reached from a router (R22): its Pod; the strip's router of the same column, by the bank of R151; the memory
hub's or link hub's router of the same row (log 68). -/
def Dev.routerOf (d : Dev) (own : Option Nat) (near a : Nat) : Nat :=
  let pod := fun (l : Nat) => (d.physOf l).getD near
  match fld a 47 44 with
  | 0 => match own with | some l => pod l | none => near
  | 1 => pod (fld a 43 39)
  | 2 => if fld a 43 0 / 64 % 48 < 24 then near % 5 else 20 + near % 5
  | 3 => near / 5 * 5 + 4
  | _ => near / 5 * 5

/-- The traffic of a group that becomes the oldest enters the mesh: from the source's router to the destination's. -/
def Dev.launch (d : Dev) (mv : Nat) : Dev :=
  let own := d.moverOwn mv
  let near := if mv < 25 then mv else 0
  d.modMover mv (fun x => { x with groups := match x.groups with
    | [] => []
    | g :: t => { g with descs := g.descs.map (fun a =>
        let m := mdesc a.words
        let s := d.routerOf own near (d.tdescAt own m.src).base
        { a with at_ := s, ahead := d.route s (d.routerOf own near (d.tdescAt own m.dst).base), since := d.tick }) } :: t })

/-- Closes the open group of a mover: it waits for its end. -/
def Dev.closeGroup (d : Dev) (mv : Nat) : Dev :=
  let first := (d.mover mv).groups.isEmpty
  let d := d.modMover mv (fun x => if x.opened = [] then x
    else { opened := [], ticket := none, groups := x.groups ++ [{ descs := x.opened, ticket := x.ticket }] })
  if first then d.launch mv else d

/-- One descriptor enters a mover's queue (R132, R133, R139). -/
def Dev.enqueue (d : Dev) (mv part : Nat) (tmpl core : Option Nat) (k : Option Ticket) (ws : List Word) : Dev :=
  let m := mdesc ws
  let c := d.acceptCause mv part tmpl (d.mover mv).opened ws
  let d := if c = 0 then d else d.refuse mv part k m c
  let d := d.modMover mv (fun x => { x with opened := x.opened ++ [{ words := ws, cause := c, core := core, part := part, bursts := [], lost := 0, at_ := 0, ahead := [], since := 0 }] })
  if m.fence then d.closeGroup mv
  else if 64 ≤ (d.mover mv).opened.length then (d.raise 0x0409 mv 0).closeGroup mv
  else d

/-- R139: a group that cores left open when their step stopped is closed as it stands. -/
def Dev.closeLeft (d : Dev) (mv : Nat) (cores : List Nat) : Dev :=
  if (d.mover mv).opened.any (fun a => match a.core with | some k => cores.contains k | none => false) then d.closeGroup mv else d

/-- The schedule table a mover serves: its Pod's, or its hub table (R127, R200). -/
def Dev.moverTable (d : Dev) (mv : Nat) : Option Nat := if mv < 25 then (d.pod mv).logical else some (mv + 3)

/-- Partition of a mover's work: the owner of the Pod's logical number; of a hub mover, the one its group belongs to (log 64). -/
def Dev.moverPart (d : Dev) (mv part : Nat) : Nat :=
  if mv < 25 then (((d.pod mv).logical.bind d.tablePart).getD 8) else part

/-- The schedule entry of a group belongs to the last group that its descriptors are in. -/
def Mover.tag (m : Mover) (k : Ticket) : Mover :=
  if m.opened = [] then
    { m with groups := m.groups.zipIdx.map (fun g => if g.2 + 1 = m.groups.length then { g.1 with ticket := some k } else g.1) }
  else { m with ticket := some k }

/-! ## Pip steps: the cores they take, their end (R111, R113, R114, R139) -/

/-- First core of a step. -/
def pipFirst (p : PipStep) : Nat := if p.checked then p.core.val / 2 * 2 else p.core.val

/-- The cores a step takes: a checked step runs on a pair (R114). -/
def pipCores (p : PipStep) : List Nat := if p.checked then [p.core.val / 2 * 2, p.core.val / 2 * 2 + 1] else [p.core.val]

/-- The step that runs on a core of a Pod. -/
def Dev.stepOn (d : Dev) (p core : Nat) : Option RunStep := kget none (d.pod p).cores core

/-- R126 with region tables (AUX_KIND 2): each entry is the smallest of those that feed it: entry by entry from inputs with a table of the
same length, T_OLD of the others (log 62). -/
def Dev.putRegions (d : Dev) (own : Option Nat) (out : Nat) (inputs : List Nat) : Dev :=
  let t := d.tdescAt own out
  let ins := inputs.filter (fun a => !(d.tdescAt own a).timeless)
  if t.auxKind ≠ 2 ∨ t.auxCount = 0 ∨ ins = [] then d
  else
    let es := (List.range t.auxCount).map (fun i => ins.map (fun a =>
      let u := d.tdescAt own a
      if u.auxKind = 2 ∧ u.auxCount = t.auxCount then (d.loadW own (u.auxAddr + 8 * i)).toNat else (d.timesAt own a).told))
    let ms := es.map (fun l => l.foldl min (l.headD 0))
    let d := d.storeA own t.auxAddr (wordsLe (ms.map (BitVec.ofNat 64)))
    d.storeA own (out + 48) (leBytes 8 (ms.foldl min (ms.headD 0)))

/-- A step ends: its output's descriptor, with FAULTED from its cause or from the error its wait was met with; every output of its entry
FAULTED where it has a cause (R113); its open fence group (R139); its entry. The cores are free. -/
def Dev.endPip (d : Dev) (l p : Nat) (r : RunStep) (cause : Nat) : Dev :=
  let own := some l
  let s := r.step
  let times := joinAll (d.inputTimes own s.inputs)
  let d := (d.putTimes own s.outDesc times (decide (cause ≠ 0) || r.ticket.bad)).putRegions own s.outDesc s.inputs
  let d := if cause = 0 then d else d.faultOutputs own r.ticket.table r.ticket.entry
  let d := d.modPod p (fun x => { x with cores := (pipCores s).foldl (fun m c => kset none m c none) x.cores })
  let d := d.closeLeft p (pipCores s)
  (d.finish r.ticket (d.tablePart l) (d.timesAt own s.outDesc).faulted (if cause ≠ 0 then cause else r.ticket.cause)).idleEntry p

/-- The descriptors that a core issues, each against its template; a refusal under R131 stops the step (R111). -/
def Dev.pipMoves (d : Dev) (l p core : Nat) (r : RunStep) : List (List Word × Nat) → Dev
  | [] => d
  | (ws, n) :: t =>
    let part := d.moverPart p 8
    let bad := d.acceptCause p part (some n) (d.mover p).opened ws == 0x030B
    let d := d.enqueue p part (some n) (some core) (some r.ticket) ws
    if bad then d.endPip l p r 0x030B else d.pipMoves l p core r t

def move (mv : Nat) (issuer : MoveIssuer) (part : Nat) (descs : List (List Word)) (d : Dev) : Dev :=
  match issuer with
  | .schedule work =>
    (match (d.moverTable mv).bind (fun t => (d.starts t 3 work).map (fun i => (t, i))) with
      | some (t, i) =>
        let k := d.ticket t i
        let q := d.moverPart mv part
        let d := descs.foldl (fun d ws => d.enqueue mv q none none (some k) ws) (d.startEntry t i)
        if descs = [] then d.finish k (d.tablePart t) k.bad k.cause else d.modMover mv (fun x => x.tag k)
      | none => d)
  | .pip c ts =>
    (match (d.pod mv).logical, d.stepOn mv c.val with
      | some l, some r => if mv < 25 then d.pipMoves l mv c.val r (descs.zip ts) else d
      | _, _ => d)

/-- MOVE (R127, R131 to R133, R139, R201): each descriptor is accepted or refused in order; a group ends with FENCE_END or
with its 64th descriptor. Pip cores reach only their own Pod's mover. -/
def execMove (m : Fin 27) (issuer : MoveIssuer) (partition : Fin 8) (descs : List (List Word)) (s : State) : Out :=
  s.next (move m issuer partition descs s.dev)

/-! ## The writes of a group (R130, R134, R135, R138, R140) -/

/-- What a position writes: destination index, its value and validity. -/
structure Put where
  idx : List Nat
  val : Nat
  valid : Bool
  fill : Bool
deriving DecidableEq, Repr

/-- The element at an index; of a poisoned word a free value (R148, log 8). -/
def Dev.eltRead (d : Dev) (own : Option Nat) (t : TDesc) (i : List Nat) : Nat :=
  if d.mem.poisoned.isEmpty && d.mem.faulty.isEmpty then d.eltGet own t i
  else
    let ks := d.keysA own (t.addr i) (tyBytes t.ty) ++ (if t.ty = 5 then d.keysA own (t.expAddr i) 1 else [])
    if ks.any (fun k => d.mem.poisonedWord (k / 8)) then Config.freeValue (2 ^ 22 + t.addr i) d.free else d.eltGet own t i

/-- A mover reads or writes a mask or table only where R127 lets it (log 64). -/
def Dev.auxMay (d : Dev) (mv : Nat) (write : Bool) (a n : Nat) : Bool := d.fieldMay mv write a n

/-- The address of the mask byte of an index. -/
def TDesc.maskAt (t : TDesc) (i : List Nat) : Nat := t.vmAddr + (if t.vmKind = 1 then t.row i else t.lin i) / 8

/-- The validity that a mover reads of an element. -/
def Dev.validRead (d : Dev) (mv : Nat) (own : Option Nat) (t : TDesc) (i : List Nat) : Bool :=
  if t.vmKind = 1 ∨ t.vmKind = 2 then d.auxMay mv false (t.maskAt i) 1 && d.validAt own t i else true

/-- The validity that a mover writes. -/
def Dev.validWrite (d : Dev) (mv : Nat) (own : Option Nat) (t : TDesc) (i : List Nat) (v : Bool) : Dev :=
  if d.auxMay mv true (t.maskAt i) 1 then d.setValid own t i v else d

/-- The puts of a descriptor: pad writes or data writes (R130). -/
def Dev.puts (d : Dev) (mv : Nat) (own : Option Nat) (m : MDesc) (ts td : TDesc) (pads : Bool) : List Put :=
  m.positions.filterMap (fun p =>
    if inExt td p.2 then
      if inExt ts p.1 then
        if pads then none
        else some { idx := idxNat p.2, val := d.eltRead own ts (idxNat p.1), valid := d.validRead mv own ts (idxNat p.1), fill := false }
      else if m.pad = pads then some { idx := idxNat p.2, val := m.fill, valid := false, fill := true }
      else none
    else none)

/-- R143: an in-place transpose that meets a fault leaves its tensor part transposed: of each pair of tiles (R136, R138) a free value says
whether it was exchanged (log 8). -/
def Dev.exchanged (d : Dev) (ts td : TDesc) (m : MDesc) (c : Nat) (l : List Put) : List Put :=
  if c = 0 ∨ inPlace m ts td = false then l
  else
    let n := if ts.ty = 2 then 128 else 64
    let tile := fun (x : Put) (k : Nat) => ((x.idx.getD k 0 : Int) - m.dd.getD k 0).toNat / n
    l.filter (fun x => Config.freeValue (2 ^ 23 + 512 * min (tile x 0) (tile x 1) + max (tile x 0) (tile x 1)) d.free % 2 == 1)

/-- Writes puts in order. -/
def Dev.writePuts (d : Dev) (own : Option Nat) (td : TDesc) (l : List Put) : Dev :=
  (l.foldl (fun d x => d.eltPut own td x.idx x.val) d).healElts own td (l.map (fun x => x.idx))

/-- R135: mask bits of the elements or lines that a phase of a descriptor wrote; `all` are all its writes. -/
def Dev.writeMask (d : Dev) (mv : Nat) (own : Option Nat) (td : TDesc) (all l : List Put) : Dev :=
  if td.vmKind = 1 then
    l.foldl (fun d x => d.validWrite mv own td x.idx ((all.filter (fun y => td.row y.idx == td.row x.idx)).all (fun y => y.valid))) d
  else if td.vmKind = 2 then l.foldl (fun d x => d.validWrite mv own td x.idx x.valid) d
  else d

/-- Table entries (source place, destination place) of a dimension that the window writes (R135). -/
def MDesc.auxPairs (m : MDesc) (ts td : TDesc) (ks kd : Nat) : List (Nat × Nat) :=
  ((m.positions.filter (fun p => inExt td p.2 && inExt ts p.1)).map
    (fun p => ((idxNat p.1).getD ks 0, (idxNat p.2).getD kd 0))).eraseDups

/-- R135: row times of the indices of dimension 1 that the window writes; a transposing copy gives AUX_KIND 0. -/
def Dev.copyRows (d : Dev) (mv : Nat) (own : Option Nat) (m : MDesc) (ts td : TDesc) : Dev :=
  if m.transpose then d.storeA own (m.dst + 56) (leBytes 8 (setFld (d.loadW own (m.dst + 56)).toNat 7 6 0))
  else if td.auxKind = 1 ∧ ts.auxKind = 1 then
    let vals := (m.auxPairs ts td 1 1).map (fun p => (td.auxAddr + 4 * p.2, ts.auxAddr + 4 * p.1, d.loadA own (ts.auxAddr + 4 * p.1) 4))
    vals.foldl (fun d v => if d.auxMay mv false v.2.1 4 && d.auxMay mv true v.1 4 then d.storeA own v.1 v.2.2 else d) d
  else d

/-- R126, R135: the region times a descriptor brings: (destination entry, T_old). -/
def Dev.regionTimes (d : Dev) (mv : Nat) (own : Option Nat) (m : MDesc) (ts td : TDesc) : List (Nat × Nat) :=
  if m.transpose = false ∧ td.auxKind = 2 ∧ ts.auxKind = 2 then
    ((m.auxPairs ts td (ts.rank - 1) (td.rank - 1)).filter (fun p => d.auxMay mv false (ts.auxAddr + 8 * p.1) 8)).map
      (fun p => (p.2, (d.loadW own (ts.auxAddr + 8 * p.1)).toNat))
  else []

/-- Elements that a descriptor drops (R134). -/
def MDesc.dropped (m : MDesc) (td : TDesc) : Nat := (m.positions.filter (fun p => !inExt td p.2)).length

/-- FILL is used for some element (R134). -/
def MDesc.oobRead (m : MDesc) (ts td : TDesc) : Bool := m.positions.any (fun p => inExt td p.2 && !inExt ts p.1)

/-- Bursts whose write failed: their bytes and poisoned words, to be put back whole (R166). -/
def Dev.burstBytes (d : Dev) (a : Accepted) : List (Nat × List Byte × List Nat) :=
  a.bursts.map (fun k => (k, d.mem.readN k 64, (codeWords (k / 8)).filter (fun w => d.mem.poisoned.contains w)))

/-- Puts bursts back. -/
def Dev.putBursts (d : Dev) (l : List (Nat × List Byte × List Nat)) : Dev :=
  l.foldl (fun d x =>
    let d := d.store x.1 x.2.1
    { d with mem := { d.mem with poisoned := x.2.2.foldl (fun s w => sins w s) d.mem.poisoned } }) d

/-- What the end of a group knows of each descriptor before it writes: its own fault, the times and region times it brings. -/
structure Moved where
  acc : Accepted
  cause : Nat
  times : List Times
  regions : List (Nat × Nat)
deriving DecidableEq, Repr

/-- The data phase of one descriptor: its elements, mask bits and row times. -/
def Dev.dataPhase (d : Dev) (mv : Nat) (own : Option Nat) (g : Moved) : Dev :=
  let m := mdesc g.acc.words
  let ts := d.tdescAt own m.src
  let td := d.tdescAt own m.dst
  let l := d.exchanged ts td m g.cause (d.puts mv own m ts td false)
  let pads := d.puts mv own m ts td true
  let keep := d.burstBytes g.acc
  (((d.writePuts own td l).writeMask mv own td (pads ++ l) l).copyRows mv own m ts td).putBursts keep

/-- The pad phase of one descriptor: its pad writes and their mask bits. -/
def Dev.padPhase (d : Dev) (mv : Nat) (own : Option Nat) (a : Accepted) : Dev :=
  let m := mdesc a.words
  let td := d.tdescAt own m.dst
  let keep := d.burstBytes a
  let l := d.puts mv own m (d.tdescAt own m.src) td true
  ((d.writePuts own td l).writeMask mv own td l l).putBursts keep

/-- R126, R141: the region table of a destination: each entry that the group feeds is the smallest that feeds it, with the entry as it
stands where every descriptor has MERGE = 1; T_OLD is the smallest entry. -/
def Dev.settleRegions (d : Dev) (mv : Nat) (own : Option Nat) (dst : Nat) (merge : Bool) (l : List (Nat × Nat)) : Dev :=
  let td := d.tdescAt own dst
  if td.auxKind ≠ 2 ∨ td.auxCount = 0 ∨ d.auxMay mv true td.auxAddr (8 * td.auxCount) = false then d
  else
    let es := (List.range td.auxCount).map (fun i =>
      let old := (d.loadW own (td.auxAddr + 8 * i)).toNat
      match (l.filter (fun x => x.1 == i)).map Prod.snd with
      | [] => old
      | v :: vs => vs.foldl min (if merge then min old v else v))
    let d := d.storeA own td.auxAddr (wordsLe (es.map (BitVec.ofNat 64)))
    d.storeA own (dst + 48) (leBytes 8 (es.foldl min (es.headD 0)))

/-- R141: the producer's fields of one destination, from the sources' fields as they stood; `bad`: the entry's wait was met with the error
bit set (R202). -/
def Dev.settleDst (d : Dev) (mv : Nat) (own : Option Nat) (dst : Nat) (bad : Bool) (group : List Moved) : Dev :=
  let mine := group.filter (fun g => (mdesc g.acc.words).dst == dst)
  let done := mine.filter (fun g => g.acc.cause == 0)
  let faulted := bad || mine.any (fun g => decide (g.acc.cause ≠ 0) || decide (g.cause ≠ 0))
  if done = [] then d
  else
    let merge := done.all (fun g => (mdesc g.acc.words).merge)
    let start := if merge then d.inputTimes own [dst] else []
    let d := d.putTimes own dst (joinAll (start ++ done.flatMap (fun g => g.times))) faulted
    d.settleRegions mv own dst merge (done.flatMap (fun g => g.regions))

/-- R142, R143: completion word, counters and signal of one accepted descriptor. -/
def Dev.settle (d : Dev) (own : Option Nat) (mv : Nat) (k : Option Ticket) (g : Moved) : Dev :=
  let m := mdesc g.acc.words
  let ts := d.tdescAt own m.src
  let td := d.tdescAt own m.dst
  let n := m.dropped td
  let d := if 0 < n then ((d.raise 0x0404 mv m.dst).occur 0x2024 (mv + 1)).countN 0x2025 (mv + 1) n else d
  let f := (d.timesAt own m.dst).faulted
  let first := if g.cause ≠ 0 then g.cause else if 0 < n then 0x0404 else 0
  let d := d.storeA own m.cpl (leBytes 8 (moveCompletion first f false (m.oobRead ts td) n).toNat)
  d.moverSignal mv g.acc.part k m.sync f (if g.cause ≠ 0 then g.cause else match k with | some k => k.cause | none => 0)

/-- What a descriptor's source reads find (R143, R148, R165): poison in the bytes it reads, a bad tile, failed bursts. -/
def Dev.moveReads (d : Dev) (own : Option Nat) (tileBad : List Nat) (ecc : List EccEvent) : List (Accepted × Nat) → Dev × List Moved
  | [] => (d, [])
  | (a, i) :: t =>
    let m := mdesc a.words
    let ts := d.tdescAt own m.src
    let td := d.tdescAt own m.dst
    let x := if a.cause = 0 then d.readKeys (d.rowKeys own (ts.boxRows m.so (m.e.map Int.ofNat))) (if i = 0 then ecc else []) else (d, 0)
    let tile := a.cause == 0 && tileBad.contains i && m.transpose
    let c := if x.2 ≠ 0 then x.2 else if tile then 0x0408 else if a.lost ≠ 0 then a.lost else if a.bursts.isEmpty then 0 else 0x0507
    let d := x.1
    let r := d.moveReads own tileBad ecc t
    (r.1, { acc := a, cause := c, times := if a.cause == 0 && m.reads ts td then d.inputTimes own [m.src] else [], regions := [] } :: r.2)

/-- FENCE_GROUP_COMPLETE's effect (R140 to R143, R148, R166). -/
def fenceGroupComplete (mv : Nat) (tileBad : List Nat) (ecc : List EccEvent) (d : Dev) : Dev :=
  match (d.mover mv).groups with
  | [] => d
  | q :: rest =>
    let own := d.moverOwn mv
    let g := q.descs
    let d := (d.modMover mv (fun x => { x with groups := rest })).launch mv
    let x := d.moveReads own tileBad ecc g.zipIdx
    let d := (x.2.filter (fun i => i.cause == 0x0408)).foldl (fun d _ => d.raise 0x0408 mv 0) x.1
    let info := x.2.map (fun i => if i.acc.cause = 0 then
        { i with regions := d.regionTimes mv own (mdesc i.acc.words) (d.tdescAt own (mdesc i.acc.words).src) (d.tdescAt own (mdesc i.acc.words).dst) } else i)
    let acc := info.filter (fun i => i.acc.cause == 0)
    let d := acc.foldl (fun d i => d.padPhase mv own i.acc) d
    let d := acc.foldl (fun d i => d.dataPhase mv own i) d.bumpFree
    let bad := match q.ticket with | some k => k.bad | none => false
    let d := ((acc.map (fun i => (mdesc i.acc.words).dst)).eraseDups).foldl (fun d x => d.settleDst mv own x bad info) d
    let d := acc.foldl (fun d i => d.settle own mv q.ticket i) d
    let d := match q.ticket with
      | some k =>
        let first := info.find? (fun i => decide (i.acc.cause ≠ 0) || decide (i.cause ≠ 0))
        let c := match first with | some i => (if i.acc.cause = 0 then i.cause else i.acc.cause) | none => k.cause
        d.finish k (d.tablePart k.table) (first.isSome || k.bad) c
      | none => d
    if mv < 25 then d.idleEntry mv else d

/-- FENCE_GROUP_COMPLETE (R140 to R143, R148, R166, R201): every pad write, then every data write, of the oldest waiting
group; then its descriptors, completion words and signals, and the schedule entry it was issued for. -/
def execFenceGroupComplete (m : Fin 27) (tileBad : List Nat) (ecc : List EccEvent) (s : State) : Out :=
  s.next (fenceGroupComplete m tileBad ecc s.dev)

/-! ## DDR5 write alerts (R166) -/

def ddrWriteCrcAlert (mv i addr fails : Nat) (d : Dev) : Dev :=
  let burst := 3 * 2 ^ 44 + addr / 64 * 64
  let own := d.moverOwn mv
  let hit := match (d.mover mv).groups with
    | g :: _ => (match g.descs[i]? with
      | some a =>
        let m := mdesc a.words
        let td := d.tdescAt own m.dst
        a.cause == 0 && (d.rowKeys own (td.boxRows m.dd (m.dstExt.map Int.ofNat))).any (fun r => decide (r.1 < burst + 64) && decide (burst < r.2))
      | none => false)
    | [] => false
  if fails < 3 ∨ hit = false then d
  else
    (d.raise 0x0507 (27 + ddrChannel d.code addr) (addr / 64 * 64)).modDesc mv i (fun a => { a with bursts := sins burst a.bursts })

/-- DDR_WRITE_CRC_ALERT (R166): a write of the mover's oldest group; when three retries fail, 0x0507: the burst keeps its contents and the
descriptor that issued it is FAULTED. -/
def execDdrWriteCrcAlert (m : Fin 27) (desc addr retriesFail : Nat) (s : State) : Out :=
  s.next (ddrWriteCrcAlert m desc addr retriesFail s.dev)

/-! ## Windows (R157) -/

/-- HEAD of a window turns by STEP. -/
def Dev.turnWindow (d : Dev) (p w : Nat) : Dev :=
  d.modPod p (fun x => { x with windows := kmod Window.reset x.windows w (fun v =>
    { v with head := if v.size = 0 then v.head else (v.head + v.stp) % v.size }) })

end Sys2Proof.Machine
end

