-- ==== Sys2Proof/Machine/Engine.lean ====
section
/-! DEFINITION. The matrix engine: acceptance, accumulation, requantisation, checks and the end of an operation
(04_pods_and_arithmetic.md, R88 to R110; R126, R148, R156, R193). -/

namespace Sys2Proof.Machine

/-! ## Types and pairings (R92, R93, R98) -/

/-- The pairing of A and W types is one of R93. -/
def pairingOk (a w : Nat) : Bool :=
  ((a == 0 || a == 1) && (w == 1 || w == 2)) || (a == 2 && (w == 1 || w == 2)) || (a == 3 && w == 1) ||
    (a == 5 && (w == 5 || w == 1)) || (a == 6 && w == 6)

/-- The output types of R98. -/
def outTypeOk (t : Nat) : Bool := decide (t ≤ 6)

/-- Integer value of an element pattern. -/
def eltInt (ty v : Nat) : Int :=
  if ty = 0 then (v : Int) else if ty = 2 then sgn 4 v else if ty = 3 then sgn 16 v else if ty = 4 then sgn 32 v else sgn 8 v

/-- Index of element i0 of row r, dimension 1 fastest. -/
def TDesc.ofRow (t : TDesc) (i0 r : Nat) : List Nat :=
  [i0, r % t.dim 1, r / t.dim 1 % t.dim 2, r / (t.dim 1 * t.dim 2) % t.dim 3, r / (t.dim 1 * t.dim 2 * t.dim 3)]

/-- Bit pattern of A at row m, column k: dimension 0 runs along K (log 17). -/
def Dev.aElt (d : Dev) (own : Option Nat) (t : TDesc) (m k : Nat) : Nat := d.eltGet own t (t.ofRow k m)

/-- Bit pattern of W at row k, column n: dimension 0 runs along N, in a B8 tensor along K (log 17). -/
def Dev.wElt (d : Dev) (own : Option Nat) (t : TDesc) (k n : Nat) : Nat :=
  d.eltGet own t (if t.ty = 5 then t.ofRow k n else t.ofRow n k)

/-! ## The array: weight tiles, activation rows and what disturbs them (R88, R89, R93, R105 to R107) -/

/-- Rows and columns of a weight tile, K_t and N_t (R93). -/
def tileSize (o : OpDesc) : Nat × Nat :=
  if o.aType = 6 then (128, 128) else if (o.wType = 2 ∨ o.aType = 2) ∧ o.aType ≠ 3 then (256, 512) else (128, 512)

/-- Integer part that the multipliers take of an element pattern: the value, the mantissa of B8, the significand of BF16. -/
def mantissa (ty v : Nat) : Int := if ty = 6 then (fVal 8 v).m else if ty = 5 then sgn 8 v else eltInt ty v

/-- The operands of an operation as the array meets them. -/
structure Feed where
  own : Option Nat
  desc : OpDesc
  ta : TDesc
  tw : TDesc
  upsets : List EngineUpset
deriving DecidableEq, Repr

/-- Bits that flip in the bytes of an activation element; two I4 elements share a byte (R106). -/
def Feed.flips (f : Feed) (m k : Nat) : Nat :=
  f.upsets.foldl (fun x u => match u with
    | .act m' k' b => if m' = m ∧ (if f.desc.aType = 2 then k' / 2 = k / 2 else k' = k) then x ^^^ b % 2 ^ 16 else x
    | _ => x) 0

/-- The activation element that reaches the array edge. -/
def Dev.aEdge (d : Dev) (f : Feed) (m k : Nat) : Nat :=
  let v := d.aElt f.own f.ta m k
  if f.desc.aType = 2 then v ^^^ (f.flips m k / 2 ^ (4 * (k % 2)) % 16)
  else v ^^^ (f.flips m k % 2 ^ (if f.desc.aType = 5 then 16 else 8 * tyBytes f.desc.aType))

/-- The weight that the array latches. -/
def Dev.wLatched (d : Dev) (f : Feed) (k n : Nat) : Nat :=
  (f.upsets.findSome? (fun u => match u with | .latch k' n' v => if k' = k ∧ n' = n then some v else none | _ => none)).getD (d.wElt f.own f.tw k n)

/-- The weight that the multipliers see. -/
def Dev.wHeld (d : Dev) (f : Feed) (k n : Nat) : Nat :=
  (f.upsets.findSome? (fun u => match u with | .held k' n' v => if k' = k ∧ n' = n then some v else none | _ => none)).getD (d.wLatched f k n)

/-- Elements of a weight row in one beat of 256 bytes (R105). -/
def beatElts (ty : Nat) : Nat := if ty = 2 then 512 else if ty = 6 then 128 else 256

/-- The sum of a beat's elements (R105). -/
def beatSum (o : OpDesc) (w : Nat → Nat) (k b : Nat) : Int :=
  ((List.range (beatElts o.wType)).filter (fun i => decide (b * beatElts o.wType + i < o.n) && decide (k < o.k))).foldl
    (fun a i => a + mantissa o.wType (w (b * beatElts o.wType + i))) 0

/-- R105: the tiles refused, as K tile and N tile: the loader's sum of a beat differs from the latch's. Only beats in which a weight was
latched wrong can differ. -/
def Dev.refusedTiles (d : Dev) (f : Feed) : List (Nat × Nat) :=
  let t := tileSize f.desc
  let beats := (f.upsets.filterMap (fun u => match u with | .latch k n _ => some (k, n / beatElts f.desc.wType) | _ => none)).eraseDups
  ((beats.filter (fun x => beatSum f.desc (d.wElt f.own f.tw x.1) x.1 x.2 != beatSum f.desc (d.wLatched f x.1) x.1 x.2)).map
    (fun x => (x.1 / t.1, x.2 * beatElts f.desc.wType / t.2))).eraseDups

/-- R106: some activation byte reaches the edge with an odd number of flipped bits. -/
def Feed.parityFails (f : Feed) : Bool :=
  let odd := fun (b : Nat) => ((List.range 8).filter (nbit b)).length % 2 == 1
  f.upsets.any (fun u => match u with
    | .act m k _ => decide (m < f.desc.m) && decide (k < f.desc.k) && (odd (f.flips m k % 256) || odd (f.flips m k / 256))
    | _ => false)

/-! ## Accumulation and its residue lane (R90, R95, R96, R103, R104) -/

/-- One product as the adder tree takes it, and as the residue lane counts it (R103): the lane has the residue of the latched weight. -/
def Dev.product (d : Dev) (f : Feed) (m n k : Nat) : Int × Int :=
  let a := mantissa f.desc.aType (d.aEdge f m k)
  let extra := f.upsets.foldl (fun x u => match u with | .sum m' n' k' e => if m' = m ∧ n' = n ∧ k' = k then x + e else x | _ => x) 0
  (a * mantissa f.desc.wType (d.wHeld f k n) + extra, a % 7 * (mantissa f.desc.wType (d.wLatched f k n) % 7))

/-- What the residue lane of an output gains by itself. -/
def Feed.laneGain (f : Feed) (m n : Nat) : Int :=
  f.upsets.foldl (fun x u => match u with | .lane m' n' e => if m' = m ∧ n' = n then x + (e : Int) else x | _ => x) 0

/-- The places of K that one output sums: those of tiles that were not refused. -/
def Feed.places (f : Feed) (bad : List (Nat × Nat)) (n lo hi : Nat) : List Nat :=
  let t := tileSize f.desc
  ((List.range (min hi f.desc.k - lo)).map (lo + ·)).filter (fun k => !bad.contains (k / t.1, n / t.2))

/-- The outcome of one accumulation: the accumulator entry, saturations, whether a residue differed. -/
structure Sum where
  entry : AccEntry
  sats : Nat
  differs : Bool
deriving DecidableEq, Repr

/-- Exact sum and residue of a run of places. -/
def Dev.sumPlaces (d : Dev) (f : Feed) (m n : Nat) (ks : List Nat) : Int × Int :=
  ks.foldl (fun a k => let p := d.product f m n k; (a.1 + p.1, (a.2 + p.2) % 7)) (0, 0)

/-- R90, R103: the integer accumulator of one output, with its residue compared at drain. -/
def Dev.accInt (d : Dev) (f : Feed) (bad : List (Nat × Nat)) (m n : Nat) : Int × Sum :=
  let s := d.sumPlaces f m n (f.places bad n 0 f.desc.k)
  let r := (s.2 + f.laneGain m n) % 7
  (s.1, { entry := { value := pat 48 s.1, residue := r.toNat }, sats := 0, differs := s.1 % 7 != r })

/-- R95, R104: the FP32 accumulator of B8 mode, block by block; each block's integer sum is checked. -/
def Dev.accB8 (d : Dev) (f : Feed) (bad : List (Nat × Nat)) (m n : Nat) : Sum :=
  (List.range (ceilDiv f.desc.k 32)).foldl (fun acc b =>
    let ks := f.places bad n (32 * b) (32 * b + 32)
    let s := d.sumPlaces f m n ks
    let r := (s.2 + (if b = 0 then f.laneGain m n else 0)) % 7
    let ea := sgn 8 (d.aEdge f m (32 * b) / 256)
    let ew := if f.desc.wType = 5 then sgn 8 (d.wHeld f (32 * b) n / 256) else 0
    let v := fRound 24 false ((fVal 24 acc.entry.value).add { m := s.1, e := ea + ew })
    { entry := { value := if ks = [] then acc.entry.value else v.1, residue := r.toNat }, sats := acc.sats + b2n (v.2 && ks != []),
      differs := acc.differs || s.1 % 7 != r })
    { entry := AccEntry.reset, sats := 0, differs := false }

/-- R96: the sum of one clock's products in the 64-bit window below the largest exponent, bits below it discarded. The window's place, the
cut of negative products towards zero and that zero products set no exponent are the model's (log 62). -/
def alignedSum (l : List Dya) (top : Int) : Dya :=
  let lo := top - 62
  { m := l.foldl (fun a x => a + (if lo ≤ x.e then x.scaled lo else (if x.m < 0 then -((x.m.natAbs / 2 ^ (lo - x.e).toNat : Nat) : Int)
      else ((x.m.natAbs / 2 ^ (lo - x.e).toNat : Nat) : Int)))) 0, e := lo }

/-- R96, R104: the FP32 accumulator of BF16 mode, 128 products a clock; the exact sum of their significand products is checked. -/
def Dev.accBf16 (d : Dev) (f : Feed) (bad : List (Nat × Nat)) (m n : Nat) : Sum :=
  (List.range (ceilDiv f.desc.k 128)).foldl (fun acc t =>
    let ks := f.places bad n (128 * t) (128 * t + 128)
    let nan := fBad 24 acc.entry.value || ks.any (fun k => fBad 8 (d.aEdge f m k) || fBad 8 (d.wHeld f k n))
    let s := d.sumPlaces f m n ks
    let r := (s.2 + (if t = 0 then f.laneGain m n else 0)) % 7
    let differs := acc.differs || (!nan && s.1 % 7 != r)
    if nan then { entry := { value := nan32, residue := r.toNat }, sats := acc.sats, differs := differs }
    else
      let vs := ks.map (fun k => ({ m := (d.product f m n k).1, e := (fVal 8 (d.aEdge f m k)).e + (fVal 8 (d.wHeld f k n)).e } : Dya))
      match vs.filter (fun v => v.m ≠ 0) with
      | [] => { entry := { value := acc.entry.value, residue := r.toNat }, sats := acc.sats, differs := differs }
      | v :: l =>
        let top := l.foldl (fun t x => max t (x.e + 14)) (v.e + 14)
        let x := fRound 24 false (alignedSum (v :: l) top)
        let y := faddS acc.entry.value x.1
        { entry := { value := y.1, residue := r.toNat }, sats := acc.sats + b2n x.2 + b2n y.2, differs := differs })
    { entry := AccEntry.reset, sats := 0, differs := false }

/-- Non-finite input elements of an operation, each counted once (R96). -/
def Dev.nonFinite (d : Dev) (f : Feed) : Nat :=
  let o := f.desc
  if o.aType = 6 then
    ((List.range o.m).map (fun i => ((List.range o.k).filter (fun j => fBad 8 (d.aEdge f i j))).length)).sum +
      ((List.range o.k).map (fun i => ((List.range o.n).filter (fun j => fBad 8 (d.wHeld f i j))).length)).sum
  else 0

/-! ## Requantisation (R97 to R100) -/

/-- Least and greatest value of an integer output type. -/
def outRange (ty : Nat) : Int × Int :=
  if ty = 0 then (0, 255) else if ty = 2 then (-8, 7) else if ty = 3 then (-32768, 32767)
  else if ty = 4 then (-2147483648, 2147483647) else (-128, 127)

/-- R98 from w on: clamps and the saturation count. -/
def finish (ty rec_ : Nat) (z : Int) : Int × Nat :=
  let (lo, hi) := outRange ty
  let w := z + sgn 16 (fld rec_ 63 48)
  let l := clampI lo hi (sgn 16 (fld rec_ 47 32))
  let h := clampI lo hi (sgn 16 (fld rec_ 31 16))
  (clampI lo hi (min (max w l) h), b2n (decide (w < lo) || decide (hi < w)))

/-- One requantised value before encoding: an exact value or an FP32 pattern. -/
inductive Pre where
  | exact (v : Dya)
  | fp (p : Nat)
deriving DecidableEq, Repr

/-- R98: x and y of an integer accumulator. -/
def requantInt (rec_ : Nat) (acc : Int) : Pre :=
  .exact { m := (acc + sgn 32 (fld rec_ 127 96)) * (fld rec_ 95 80 : Nat), e := -(fld rec_ 79 74 : Nat) }

/-- R98: x and y of an FP32 accumulator, with their saturations. -/
def requantFp (rec_ : Nat) (acc : Nat) : Pre × Nat :=
  let x := faddS acc (fld rec_ 127 96)
  let y := fmulS x.1 (fld rec_ 95 64)
  (.fp y.1, b2n x.2 + b2n y.2)

/-- R98, R99: the output pattern of a value with an integer or BF16 output: pattern, saturations, non-finite. -/
def encodeOut (ty rec_ : Nat) (p : Pre) : Nat × Nat × Nat :=
  match p with
  | .exact v =>
    if ty = 6 then let r := fRound 8 false v; (r.1, b2n r.2, 0)
    else let r := finish ty rec_ v.toInt; (pat 32 r.1, r.2, 0)
  | .fp f =>
    if ty = 6 then let r := fToBf16 f; (r.1, b2n r.2, 0)
    else if fBad 24 f then (0, 0, 1)
    else let r := finish ty rec_ (fVal 24 f).toInt; (pat 32 r.1, r.2, 0)

/-- The value a B8 block takes of a requantised value; NaN gives 0 and counts (R99). -/
def preDya (p : Pre) : Dya × Nat :=
  match p with
  | .exact v => (v, 0)
  | .fp f => if fBad 24 f then ({ m := 0, e := 0 }, 1) else (fVal 24 f, 0)

/-- The patterns of one output row, with saturations and non-finite values (R98 to R100). -/
def encodeRow (ty : Nat) (row : List (Nat × Pre)) : List Nat × Nat × Nat :=
  if ty = 5 then
    (List.range (ceilDiv row.length 32)).foldl (fun a b =>
      let blk := ((row.drop (32 * b)).take 32).map (fun x => preDya x.2)
      let (ms, e, s) := blockEncode (blk.map Prod.fst)
      (a.1 ++ ms.map (fun m => pat 8 m + 256 * pat 8 e), a.2.1 + s, a.2.2 + (blk.map Prod.snd).sum)) ([], 0, 0)
  else
    let l := row.map (fun x => encodeOut ty x.1 x.2)
    (l.map (fun x => x.1), (l.map (fun x => x.2.1)).sum, (l.map (fun x => x.2.2)).sum)

/-- What one output row makes: the patterns a requantisation unit writes, saturations, non-finite values, the accumulator entries, and
whether a residue or the two units differed. -/
structure Row where
  vals : List Nat
  sats : Nat
  nfs : Nat
  entries : List AccEntry
  residue : Bool
  compare : Bool
deriving DecidableEq, Repr

/-- One accumulated and scaled value of an output with its record; saturating steps count one by one (log 62). -/
def Dev.opCell (d : Dev) (f : Feed) (bad : List (Nat × Nat)) (m n : Nat) : (Nat × Pre) × Sum :=
  let rec_ := leNat (d.loadA f.own (f.desc.records + 16 * n) 16)
  if f.desc.aType = 5 ∨ f.desc.aType = 6 then
    let s := if f.desc.aType = 5 then d.accB8 f bad m n else d.accBf16 f bad m n
    let r := requantFp rec_ s.entry.value
    ((rec_, r.1), { s with sats := s.sats + r.2 })
  else
    let s := d.accInt f bad m n
    ((rec_, requantInt rec_ s.1), s.2)

/-- The bits by which the two requantisation units or float paths differ at an output, and whether the value written has them (R106). -/
def Feed.pathFlips (f : Feed) (m n : Nat) : Nat × Nat :=
  f.upsets.foldl (fun x u => match u with
    | .path m' n' b w => if m' = m ∧ n' = n then (x.1 ^^^ b % 2 ^ 32, if w then x.2 ^^^ b % 2 ^ 32 else x.2) else x
    | _ => x) (0, 0)

/-- One output row (R89, R98 to R100, R103 to R106). -/
def Dev.opRow (d : Dev) (f : Feed) (bad : List (Nat × Nat)) (m : Nat) : Row :=
  let cells := (List.range f.desc.n).map (d.opCell f bad m)
  let r := encodeRow f.desc.outType (cells.map Prod.fst)
  { vals := r.1.zipIdx.map (fun x => x.1 ^^^ (f.pathFlips m x.2).2), sats := r.2.1 + (cells.map (fun c => c.2.sats)).sum, nfs := r.2.2,
    entries := cells.map (fun c => c.2.entry), residue := cells.any (fun c => c.2.differs),
    compare := (List.range f.desc.n).any (fun n => (f.pathFlips m n).1 != 0) }

/-! ## Checks, the accumulator buffers and the outcome of an operation (R89, R103 to R110) -/

/-- Passes and drained entries of an operation (R89, R106): K tiles of every row chunk of every N tile; every output once. -/
def passCount (o : OpDesc) : Nat × Nat :=
  let t := tileSize o
  (ceilDiv o.n t.2 * ceilDiv o.m 256 * ceilDiv o.k t.1, o.m * o.n)

/-- Passes and entries as the sequencer counts them. -/
def Feed.counted (f : Feed) : Int × Int :=
  f.upsets.foldl (fun x u => match u with | .passes n => (x.1 + n, x.2) | _ => x) ((passCount f.desc).1, (passCount f.desc).2)

/-- What stays in the two accumulator buffers: row chunks fill them in turn, N tile by N tile (R89); entries of the rows `l`. -/
def accStore (o : OpDesc) (l : List (List AccEntry)) : Store AccEntry :=
  let nt := (tileSize o).2
  let chunks := ceilDiv o.m 256
  let last := ceilDiv o.n nt * chunks
  (List.range last).foldl (fun s c =>
    if c + 2 < last then s
    else
      let cols := (List.range (min nt (o.n - c / chunks * nt))).map (c / chunks * nt + ·)
      let rows := (List.range (min 256 (o.m - c % chunks * 256))).map (c % chunks * 256 + ·)
      rows.foldl (fun s r => cols.foldl (fun s n =>
        kset AccEntry.reset s (c % 2 * 2 ^ 18 + r % 256 * 512 + n % nt) ((l.getD r []).getD n AccEntry.reset)) s) s) []

/-- The outcome of an operation: rows of patterns, saturations, non-finite values, causes of failed checks in the order in which the checks
come (log 62), the accumulator buffers. -/
structure OpResult where
  rows : List (List Nat)
  sats : Nat
  nfs : Nat
  causes : List Nat
  acc : Store AccEntry
deriving DecidableEq, Repr

/-- Runs an operation whose operands are good. -/
def Dev.runOp (d : Dev) (f : Feed) : OpResult :=
  let bad := d.refusedTiles f
  let rows := (List.range f.desc.m).map (d.opRow f bad)
  { rows := rows.map (fun r => r.vals), sats := (rows.map (fun r => r.sats)).sum, nfs := d.nonFinite f + (rows.map (fun r => r.nfs)).sum,
    causes := (if bad = [] then [] else [0x0302]) ++ (if f.parityFails then [0x0309] else []) ++
      (if rows.any (fun r => r.residue) then [0x0301] else []) ++ (if rows.any (fun r => r.compare) then [0x0308] else []) ++
      (if f.counted = (((passCount f.desc).1 : Int), ((passCount f.desc).2 : Int)) then [] else [0x0305]),
    acc := accStore f.desc (rows.map (fun r => r.entries)) }

/-- The outcome where an operand carries poison: values, counts and accumulators are free (R148, log 8); of the checks the sequencer's
count and the parity do not read values. -/
def Dev.freeOp (d : Dev) (f : Feed) : OpResult :=
  let v := fun (i : Nat) => Config.freeValue (2 ^ 20 + i) d.free
  { rows := (List.range f.desc.m).map (fun m => (List.range f.desc.n).map (fun n => v (2 + m * 2 ^ 16 + n))),
    sats := v 0, nfs := v 1,
    causes := (if f.parityFails then [0x0309] else []) ++
      (if f.counted = (((passCount f.desc).1 : Int), ((passCount f.desc).2 : Int)) then [] else [0x0305]),
    acc := accStore f.desc ((List.range f.desc.m).map (fun m => (List.range f.desc.n).map (fun n =>
      { value := v (2 ^ 40 + m * 2 ^ 16 + n), residue := v (2 ^ 41 + m * 2 ^ 16 + n) % 7 }))) }

/-- Raises failed checks on a Pod in service and counts them (R108, R109). -/
def Dev.opFaults (d : Dev) (p : Nat) (l : List Nat) : Dev := l.foldl (fun d c => (d.raise c p 0).arithFault p) d

/-! ## Acceptance (R90, R93, R126, R156, R201, R202) -/

/-- The tensor lies inside the window it starts in and in one memory (R156). -/
def Dev.inWindow (d : Dev) (own : Option Nat) (t : TDesc) : Bool :=
  match t.bounds [0, 0, 0, 0, 0] (t.ext.map Int.ofNat) with
  | some (lo, hi) => (d.physRanges own lo hi).isSome
  | none => false

/-- Cause an operation is refused with at acceptance, 0 where it is accepted (R90, R93, R126, R156); an output type that R98 does not name
is refused with 0x0303 (log 62). -/
def Dev.opRefusal (d : Dev) (own : Option Nat) (o : OpDesc) : Nat :=
  if 2 ^ 24 < o.k ∨ pairingOk o.aType o.wType = false ∨ outTypeOk o.outType = false then 0x0303
  else if !([o.aDesc, o.wDesc, o.outDesc].all (fun a => d.inWindow own (d.tdescAt own a))) then 0x0502
  else if timesMismatch o.mixing (d.inputTimes own [o.aDesc, o.wDesc]) then 0x0406
  else 0

/-- A refused operation: outputs FAULTED, completion word, the entry's signal with error (log 17). -/
def Dev.refuseOp (d : Dev) (l p : Nat) (o : OpDesc) (k : Ticket) (cause : Nat) : Dev :=
  let own := some l
  let d := ((d.raise cause p o.index).markFaulted own o.outDesc).faultOutputs own k.table k.entry
  (d.storeA own o.cpl (leBytes 8 (opCompletion cause false 0 0).toNat)).finish k (d.tablePart l) true cause

def op (l : Nat) (o : OpDesc) (d : Dev) : Dev :=
  match d.physOf l, d.starts l 1 o.work with
  | some p, some i =>
    if (d.pod p).state = .active ∧ (d.pod p).engine = none ∧ i = o.index then
      let k := d.ticket l i
      let c := d.opRefusal (some l) o
      let d := d.startEntry l i
      if c ≠ 0 then d.refuseOp l p o k c else d.modPod p (fun x => { x with engine := some { desc := o, ticket := k } })
    else d
  | _, _ => d

/-- OP (R90, R91, R93, R202): the engine of an ACTIVE Pod accepts the operation of a ready entry or refuses it. -/
def execOp (l : Fin 24) (o : OpDesc) (s : State) : Out := s.next (op l o s.dev)

/-! ## The end of an operation (R98, R103 to R110, R126, R148, R193) -/

/-- R193: the completion word's SAT_COUNT against the operation's count for its cycle. The sequencer counts for the pass that runs. -/
def Dev.countSats (d : Dev) (l p : Nat) (o : OpDesc) (n : Nat) : Dev :=
  let key := 65536 * l + o.index
  let cyc := (d.pass l).cycle
  match d.prog.prog.bind (fun p => p.ranges.find? (fun r => r.pod == l && r.op == o.index)) with
  | some r =>
    let old := match d.cyc.flight.find? (fun c => c.number == cyc) with | some c => kget 0 c.sats key | none => 0
    let d := { d with cyc := { d.cyc with flight := d.cyc.flight.map (fun c =>
      if c.number = cyc then { c with sats := kset 0 c.sats key (old + satU 16 n) } else c) } }
    if old ≤ r.satLimit ∧ r.satLimit < old + satU 16 n then
      let d := (d.raise 0x0F4A p o.index).setObj 0xC020 2 [o.index % 2 ^ 24 * 256 + l]
      if r.action = 1 then { d with cyc := { d.cyc with flight := d.cyc.flight.map (fun c =>
        if c.number = cyc then { c with excursion := true } else c) } } else d
    else d
  | none => d

/-- Keys of the operands of an operation: A, W and the requantisation records (R148). -/
def Dev.opKeys (d : Dev) (f : Feed) : List (Nat × Nat) :=
  d.tensorKeys f.own f.ta ++ d.tensorKeys f.own f.tw ++ d.rowKeys f.own (if f.desc.n = 0 then [] else [(f.desc.records, 16 * f.desc.n)])

/-- Writes one row of output patterns. -/
def Dev.putRow (d : Dev) (own : Option Nat) (t : TDesc) (m : Nat) (l : List Nat) : Dev :=
  (l.zipIdx.foldl (fun d x => d.eltPut own t (t.ofRow x.2 m) x.1) d).healElts own t (l.zipIdx.map (fun x => t.ofRow x.2 m))

def opComplete (l : Nat) (upsets : List EngineUpset) (ecc : List EccEvent) (d : Dev) : Dev :=
  match d.physOf l with
  | some p =>
    match (d.pod p).engine with
    | some r =>
      let o := r.desc
      let own := some l
      let f : Feed := { own := own, desc := o, ta := { d.tdescAt own o.aDesc with ty := o.aType },
                        tw := { d.tdescAt own o.wDesc with ty := o.wType }, upsets := upsets }
      let x := d.readKeys (d.opKeys f) ecc
      let d := x.1
      let out := if x.2 = 0 then d.runOp f else d.freeOp f
      let bad := decide (x.2 ≠ 0) || out.causes != [] || r.ticket.bad
      let cause := (out.causes ++ (if x.2 = 0 then [] else [x.2]) ++ (if 0 < out.nfs then [0x0304] else [])).headD 0
      let times := joinAll (d.inputTimes own [o.aDesc, o.wDesc])
      let tc := { d.tdescAt own o.outDesc with ty := o.outType }
      let d := out.rows.zipIdx.foldl (fun d x => d.putRow own tc x.2 x.1) d.bumpFree
      let d := (d.putTimes own o.outDesc times bad).putRegions own o.outDesc [o.aDesc, o.wDesc]
      let d := d.storeA own o.cpl (leBytes 8 (opCompletion cause (out.causes != []) out.sats out.nfs).toNat)
      let d := d.modPod p (fun x => { x with engine := none, acc := out.acc })
      let d := d.raiseIf (decide (0 < out.nfs)) 0x0304 p o.index
      let d := d.countSats l p o out.sats
      let first := if out.causes = [] then x.2 else out.causes.headD 0
      let d := d.finish r.ticket (d.tablePart l) (d.timesAt own o.outDesc).faulted (if first = 0 then r.ticket.cause else first)
      (d.idleEntry p).opFaults p out.causes
    | none => d
  | none => d

/-- OP_COMPLETE (R98, R103 to R110, R126, R148, R193, R451): the operands, read now (log 62), pass the checks with what disturbed them; the
output, its descriptor and completion word are written, then the entry's sync object is signalled; a failed check or poison marks the
output FAULTED. -/
def execOpComplete (l : Fin 24) (upsets : List EngineUpset) (ecc : List EccEvent) (s : State) : Out :=
  s.next (opComplete l upsets ecc s.dev)

end Sys2Proof.Machine
end

