-- ==== Sys2Proof/Machine/Lift.lean ====
section
/-! DEFINITION. The lift: sensor poses, what a stream observes of a cell, its features there, its evidence plane (R226 to R229). -/

namespace Sys2Proof.Machine

open Sys2Proof

/-! ## The two copies of fusion state and the computing cycle (R375, R405) -/

/-- The committed copy. -/
def Dev.fusC (d : Dev) : Fusion := if d.hull.g.toNat % 2 = 0 then d.fus.copy0 else d.fus.copy1

/-- The candidate copy. -/
def Dev.fusN (d : Dev) : Fusion := if d.hull.g.toNat % 2 = 0 then d.fus.copy1 else d.fus.copy0

/-- Writes the candidate copy. -/
def Dev.setFusN (d : Dev) (x : Fusion) : Dev :=
  if d.hull.g.toNat % 2 = 0 then { d with fus := { d.fus with copy1 := x } } else { d with fus := { d.fus with copy0 := x } }

/-- Updates the candidate copy. -/
def Dev.modFusN (d : Dev) (f : Fusion → Fusion) : Dev := d.setFusN (f d.fusN)

/-- The cycle in computation. -/
def Dev.computing (d : Dev) : Option CycleCtx := d.cyc.flight.head?

/-- An object's value as the computing cycle sees it: as it was at the cycle's instant (R405). -/
def Dev.ccfgList (d : Dev) (idx sub : Nat) : List Nat :=
  match d.computing with
  | some c => if kget [] c.vals (okey idx sub) = [] then dfltVal d.code idx sub else kget [] c.vals (okey idx sub)
  | none => d.cfgList idx sub

/-- The number of it. -/
def Dev.ccfg (d : Dev) (idx sub : Nat) : Nat := (d.ccfgList idx sub).headD 0

/-- Calibration of a slot in a copy. -/
def Fusion.slotCalib (f : Fusion) (n : Nat) : Calib := kget Calib.reset f.calib n

/-! ## Poses (R226)

Rotations have 60 fraction bits, cut at each product (DESIGN CHOICE, log 70); lengths count 1 / (2,000 × 2^24) m, in which the centre of
every bin is whole. -/

/-- A product of two values of 60 fraction bits. -/
def qMul (a b : Int) : Int := a * b / 2 ^ 60

/-- A 3 × 3 matrix from its entries. -/
def mat3 (f : Nat → Nat → Int) : List (List Int) := (List.range 3).map (fun i => (List.range 3).map (f i))

/-- An entry. -/
def entry3 (a : List (List Int)) (i j : Nat) : Int := (a.getD i []).getD j 0

/-- A product of matrices. -/
def mul3 (a b : List (List Int)) : List (List Int) :=
  mat3 (fun i j => ((List.range 3).map (fun k => qMul (entry3 a i k) (entry3 b k j))).sum)

/-- The matrix [v]×. -/
def skew3 (v : List Int) : List (List Int) :=
  let x := fun (i : Nat) => v.getD i 0
  [[0, -x 2, x 1], [x 2, 0, -x 0], [-x 1, x 0, 0]]

/-- Terms `k` on of the series of exp, added to a sum. -/
def expSeries (a : List (List Int)) : Nat → Nat → List (List Int) → List (List Int) → List (List Int)
  | 0, _, _, s => s
  | f + 1, k, t, s =>
    let t' := (mul3 t a).map (fun r => r.map (fun x => x / (k : Int)))
    expSeries a f (k + 1) t' (mat3 (fun i j => entry3 s i j + entry3 t' i j))

/-- exp([v]×) of a rotation vector of 60 fraction bits: 40 terms, which a vector of up to 8 rad needs no more of. -/
def rotExp (v : List Int) : List (List Int) :=
  let one := mat3 (fun i j => if i = j then 2 ^ 60 else 0)
  expSeries (skew3 v) 40 1 one one

/-- A pose: sensor to cell coordinates. -/
structure Pose where
  rot : List (List Int)
  tr : List Int
deriving DecidableEq, Repr

/-- The pose of a slot: the commissioned reference with the correction of the last committed generation (R226, R229, R242). -/
def Dev.pose (d : Dev) (n : Nat) : Pose :=
  let c := d.fusC.slotCalib n
  let ref := (d.ccfgList (0x5100 + n) 1).map (fun x => sgn 32 x * 2 ^ 32)
  let t := (d.ccfgList (0x5100 + n) 2).map (sgn 32)
  { rot := mul3 (rotExp (c.rot.map (· * 2 ^ 30))) (rotExp ref),
    tr := (List.range 3).map (fun i => (t.getD i 0 + c.tr.getD i 0) * 2000) }

/-- Sensor coordinates of a point of the cell frame: Rᵀ (P − t), with 60 more fraction bits. -/
def Pose.toSensor (p : Pose) (x : List Int) : List Int :=
  (List.range 3).map (fun j => ((List.range 3).map (fun i => entry3 p.rot i j * (x.getD i 0 - p.tr.getD i 0))).sum)

/-- One metre in sensor coordinates. -/
def metre : Int := 2 ^ 60 * (2000 * 2 ^ 24)

/-- Centre of bin z of a cell (R223). -/
def Dev.binCentre (d : Dev) (i z : Nat) : List Int :=
  let o' := (d.ccfgList 0x5010 6).map (fun x => sgn 32 x * 2000)
  let at_ := fun (k j edge : Nat) => o'.getD k 0 + (2 * (j : Int) + 1) * (edge * 2 ^ 24 : Nat)
  [at_ 0 (i % d.gridX) (d.ccfg 0x5010 2), at_ 1 (i / d.gridX) (d.ccfg 0x5010 2), at_ 2 z (d.ccfg 0x5010 5)]

/-! ## What a sample shows of a bin (R227, R228) -/

/-- Where a camera's bin falls: pyramid level, and pixel coordinates there over one denominator. -/
structure LiftAt where
  level : Nat
  u : Int
  v : Int
  den : Int
deriving DecidableEq, Repr

/-- The lift of a camera for a point in sensor coordinates (R227); none nearer than 0.1 m. -/
def Dev.cameraAt (d : Dev) (n levels : Nat) (p : List Int) : Option LiftAt :=
  let z := p.getD 2 0
  if z * 10 < metre then none
  else
    let k := (d.ccfgList (0x5100 + n) 3).map (sgn 32)
    let ratio := k.getD 0 0 * (d.ccfg 0x5010 2 : Int) * metre / (65536 * 1000 * z)
    let l := min (levels - 1) (if ratio < 1 then 0 else Nat.log2 ratio.toNat)
    some { level := l, u := k.getD 0 0 * p.getD 0 0 + k.getD 2 0 * z, v := k.getD 1 0 * p.getD 1 0 + k.getD 3 0 * z,
           den := 65536 * z * 2 ^ l }

/-- The pixels that a coordinate touches, with what is left over the denominator. -/
def LiftAt.touches (x : LiftAt) (a : Int) : List Int := if a % x.den = 0 then [a / x.den] else [a / x.den, a / x.den + 1]

/-- A pixel lies in a level's image and is valid. -/
def Dev.pixelSeen (d : Dev) (own : Option Nat) (t : TDesc) (x y : Int) : Bool :=
  decide (0 ≤ x) && decide (0 ≤ y) && decide (x < t.dim 0) && decide (y < t.dim 1) && d.validAt own t [x.toNat, y.toNat, 0, 0, 0]

/-- The voxel of a scanner's tensor that holds a point, its grid centred on the sensor's origin; none outside (R228). -/
def Dev.scannerAt (d : Dev) (n : Nat) (p : List Int) : Option (List Nat) :=
  let w13 := d.slotDesc n 13
  let edge : Int := wfld w13 47 32
  let i := (List.range 3).map (fun a => (2000 * p.getD a 0 + voxels w13 a * edge * metre) / (2 * edge * metre))
  if i.zipIdx.all (fun e => decide (0 ≤ e.1) && decide (e.1 < voxels w13 e.2)) then some (i.map Int.toNat) else none

/-- The slot's source is a CSI-2 port, so a camera (R58). -/
def Dev.cameraSlot (d : Dev) (n : Nat) : Bool := decide (d.cfg (0x3000 + n) 2 < 0x10)

/-- A sample observes a point (R227, R228). `levels` are its tensors. -/
def Dev.observes (d : Dev) (own : Option Nat) (n : Nat) (levels : List Nat) (p : List Int) : Bool :=
  if d.cameraSlot n then
    match d.cameraAt n levels.length p with
    | some x =>
      let t := d.tdescAt own (levels.getD x.level 0)
      (x.touches x.u).all (fun i => (x.touches x.v).all (fun j => d.pixelSeen own t i j))
    | none => false
  else (d.scannerAt n p).isSome

/-- A sample observes a cell: some bin of the safety band. -/
def Dev.observesCell (d : Dev) (own : Option Nat) (n : Nat) (levels : List Nat) (q : Pose) (i : Nat) : Bool :=
  (List.range (d.ccfg 0x5010 0x0B + 1)).any (fun z => d.observes own n levels (q.toSensor (d.binCentre i z)))

/-! ## Features (R227 to R229) -/

/-- A sample's value for a point in a channel: bilinear among the pixels of the level, or the voxel's; 0 where it is unobserved. R227 does not
state how the bilinear value is rounded (log 8). -/
def Dev.liftValue (d : Dev) (own : Option Nat) (n ch : Nat) (levels : List Nat) (p : List Int) : Int :=
  if d.observes own n levels p = false then 0
  else if d.cameraSlot n then
    match d.cameraAt n levels.length p with
    | some x =>
      let t := d.tdescAt own (levels.getD x.level 0)
      let px := fun (i j : Int) => mantissa t.ty (d.eltGet own t [i.toNat, j.toNat, ch, 0, 0])
      let w := fun (a i : Int) => if a / x.den = i then x.den - a % x.den else a % x.den
      let sum := ((x.touches x.u).flatMap (fun i => (x.touches x.v).map (fun j => w x.u i * w x.v j * px i j))).sum
      Config.liftRound sum (x.den * x.den).toNat
    | none => 0
  else
    match d.scannerAt n p with
    | some i => let t := d.tdescAt own (levels.headD 0); mantissa t.ty (d.eltGet own t (i ++ [ch, 0]))
    | none => 0

/-- The stream's contribution to a region, written to a tensor of channels, x, y and bins. -/
def Dev.liftRegion (d : Dev) (own : Option Nat) (n g : Nat) (levels : List Nat) (dst : Nat) : Dev :=
  let q := d.pose n
  let t := d.tdescAt own dst
  let idx := (indices t.ext).filter (fun i => decide (i.getD 1 0 < d.regW) && decide (i.getD 2 0 < d.regH))
  let cells := d.cellsOf g
  let val := fun (i : List Nat) => pat 32 (d.liftValue own n (i.headD 0) levels
    (q.toSensor (d.binCentre (cells.getD (i.getD 2 0 * d.regW + i.getD 1 0) 0) (i.getD 3 0))))
  let d := (idx.foldl (fun (d : Dev) i => d.eltPut own t i (val i)) d).healElts own t idx
  d.putTimes own dst (joinAll (d.inputTimes own (levels.take 1))) false

/-! ## Evidence (R229) -/

/-- One stream's evidence from one sample: the cells that it observes with the ASSERT and CONF byte of the program's head, the sample's
lateness and times. -/
structure Evidence where
  slot : Fin 16
  lateness : Nat
  tv : Int
  told : Int
  cells : List (Nat × Byte)
deriving DecidableEq, Repr

/-- The evidence planes of a sample, region by region, with ASSERT 0 where the stream does not observe the cell. -/
def Dev.evidence (d : Dev) (own : Option Nat) (x : EvidenceRef) : Evidence :=
  let t := d.timesAt own (x.levels.headD 0)
  let q := d.pose x.slot.val
  { slot := x.slot, lateness := t.late, tv := sgn 64 t.tv, told := sgn 64 t.told,
    cells := x.planes.zipIdx.flatMap (fun p =>
      let u := d.tdescAt own p.1
      (d.cellsOf p.2).zipIdx.filterMap (fun c =>
        if d.observesCell own x.slot.val x.levels q c.1 then
          some (c.1, BitVec.ofNat 8 (d.eltGet own u [c.2 % d.regW, c.2 / d.regW, 0, 0, 0]))
        else none)) }

/-- The occupancy head's bytes by 32 times the cell plus the bin: tensors of bins, x and y, region by region (R231). -/
def Dev.occupancy (d : Dev) (own : Option Nat) (l : List Nat) : List (Nat × Byte) :=
  l.zipIdx.flatMap (fun p =>
    let u := d.tdescAt own p.1
    (d.cellsOf p.2).zipIdx.flatMap (fun c => (List.range (d.ccfg 0x5010 0x0B + 1)).map (fun z =>
      (32 * c.1 + z, BitVec.ofNat 8 (d.eltGet own u [z, c.2 % d.regW, c.2 / d.regW, 0, 0])))))

end Sys2Proof.Machine
end

