-- ==== Sys2Proof/Machine/Grid.lean ====
section
/-! DEFINITION. The fusion grid: evidence and cell states, plausibility checks and masking, calibration, zones, and what a
commit does to them (09_fusion_grid.md, R336). -/

namespace Sys2Proof.Machine

open Sys2Proof

/-! ## Fusion state -/

/-- Health of a slot in a copy. -/
def Fusion.slotHealth (f : Fusion) (n : Nat) : Health := kget Health.reset f.health n

/-- Updates a slot's health. -/
def Fusion.modHealth (f : Fusion) (n : Nat) (g : Health → Health) : Fusion := { f with health := kmod Health.reset f.health n g }

/-- A cell in a copy. -/
def Fusion.cell (f : Fusion) (i : Nat) : GridCell := kget GridCell.reset f.cells i

/-- An enabled slot. -/
def Dev.slotLive (d : Dev) (n : Nat) : Bool := decide (n < slotsOf d.code) && decide (d.ccfg (0x3000 + n) 1 = 1)

/-- Enabled slots. -/
def Dev.slotsOn (d : Dev) : List Nat := (List.range 16).filter d.slotLive

/-- The package's monitored cells (R232). -/
def Dev.monitored (d : Dev) : List Nat := match d.prog.prog with | some p => p.monitored | none => []

/-- The slot is excluded in the cycle (R236). -/
def Dev.excluded (d : Dev) (n : Nat) : Bool := d.fus.cand.excluded.getLsbD n

/-! ## Evidence (R229, R230, R243, R549) -/

/-- One assertion: occupied or free, with its conf′. -/
structure Asserted where
  occ : Bool
  conf : Nat
deriving DecidableEq, Repr

/-- ASSERT of an evidence byte: 1 free, 2 occupied, 3 read as none (R229). -/
def evAssert (b : Byte) : Nat := if b.toNat / 64 = 3 then 0 else b.toNat / 64

/-- CONF of an evidence byte. -/
def evConf (b : Byte) : Nat := b.toNat % 64

/-- Chebyshev distance of two cells. -/
def Dev.cheb (d : Dev) (i j : Nat) : Nat :=
  let dx : Int := (i % d.gridX : Nat) - ((j % d.gridX : Nat) : Int)
  let dy : Int := (i / d.gridX : Nat) - ((j / d.gridX : Nat) : Int)
  max dx.natAbs dy.natAbs

/-- Cell edge in mm. -/
def Dev.cellEdge (d : Dev) : Nat := max 1 (d.ccfg 0x5010 2)

/-- Dilation radius over a time in ns (R235, R243). -/
def Dev.radius (d : Dev) (ns : Nat) : Nat := ceilDiv (d.ccfg 0x5010 0x12 * ns) (1000000000 * d.cellEdge)

/-- Weight w_L of a sample (R230). -/
def Dev.lateWeight (d : Dev) (l : Nat) : Nat := if l = 0 then 256 else (d.ccfgList 0x5010 0x11).getD (l - 1) 0

/-- ASSERT and CONF of a sample at a cell after R243: a late sample only asserts occupied, dilated. -/
def Dev.sampleAssert (d : Dev) (tv : Int) (e : Evidence) (i : Nat) : Option (Bool × Nat) :=
  if e.lateness = 0 then
    match e.cells.find? (fun c => c.1 == i) with
    | some c => if evAssert c.2 = 0 then none else some (decide (evAssert c.2 = 2), evConf c.2)
    | none => none
  else
    let r := d.radius (tv - e.tv).toNat
    let near := (e.cells.filter (fun c => decide (evAssert c.2 = 2) && decide (d.cheb c.1 i ≤ r))).map (fun c => evConf c.2)
    match near with
    | [] => none
    | a :: t => some (true, t.foldl max a)

/-- conf′ of a sample's assertion (R230). -/
def Dev.effConf (d : Dev) (e : Evidence) (conf : Nat) : Nat :=
  conf * (d.fusC.slotHealth e.slot.val).weight * d.lateWeight e.lateness / 65280

/-- Assertions of a stream's samples at a cell. -/
def Dev.assertions (d : Dev) (tv : Int) (ev : List Evidence) (n i : Nat) : List Asserted :=
  (ev.filter (fun e => e.slot.val == n)).filterMap (fun e =>
    (d.sampleAssert tv e i).map (fun a => { occ := a.1, conf := d.effConf e a.2 }))

/-- The largest conf′ of assertions of one kind. -/
def topConf (l : List Asserted) (o' : Bool) : Option Nat :=
  match (l.filter (fun a => a.occ == o')).map Asserted.conf with
  | [] => none
  | a :: t => some (t.foldl max a)

/-- The combined assertion of a stream at a cell (R549), at confident level `k`. -/
def combineAsserted (k : Nat) (l : List Asserted) : Option Asserted :=
  match topConf l true, topConf l false with
  | none, none => none
  | some o', none => some { occ := true, conf := o' }
  | none, some f => some { occ := false, conf := f }
  | some o', some f =>
    if k ≤ o' then some { occ := true, conf := o' }
    else if k ≤ f then some { occ := false, conf := f }
    else if f ≤ o' then some { occ := true, conf := o' } else some { occ := false, conf := f }

/-- A stream's combined assertion. -/
def Dev.streamAssert (d : Dev) (tv : Int) (ev : List Evidence) (n i : Nat) : Option Asserted :=
  combineAsserted (d.ccfg 0x5010 0x0E) (d.assertions tv ev n i)

/-- The confident one of a stream: occupied or free. -/
def Dev.confident (d : Dev) (tv : Int) (ev : List Evidence) (n i : Nat) : Option Bool :=
  match d.streamAssert tv ev n i with
  | some a => if d.ccfg 0x5010 0x0E ≤ a.conf then some a.occ else none
  | none => none

/-! ## The cell-state step (R230 to R233, R246, R247) -/

/-- Fused confidence (R232): FP32, over the asserting streams in slot order (log 24). -/
def fusedConf (confs : List Nat) : Nat :=
  match confs.map (fun c => fsub (fOfInt 1) (fdiv (fOfInt c) (fOfInt 63))) with
  | [] => 0
  | a :: t => (Dya.floor (fVal 24 (fmul (fOfInt 255) (fsub (fOfInt 1) (t.foldl fmul a))))).toNat

/-- The smallest of a list of times. -/
def minTime : List Int → Option Int
  | [] => none
  | a :: t => some (t.foldl min a)

/-- Times of the samples that observe a cell with conf′ at the observed level (R246). -/
def Dev.obsTimes (d : Dev) (tv : Int) (ev : List Evidence) (i : Nat) : List Int :=
  ev.filterMap (fun e => match d.sampleAssert tv e i with
    | some a => if d.ccfg 0x5010 0x0F ≤ d.effConf e a.2 then some e.tv else none
    | none => none)

/-- Observation time of a cell: the latest of the cycle's and the committed one (R246). -/
def Dev.obsTime (d : Dev) (tv : Int) (ev : List Evidence) (i : Nat) : Option Int :=
  let l := d.obsTimes tv ev i
  match (d.fusC.cell i).tobs with
  | some t => some (l.foldl max t)
  | none => match l with | [] => none | a :: t => some (t.foldl max a)

/-- T_OLDs of the samples that reach a cell (R247). -/
def Dev.reachTolds (d : Dev) (tv : Int) (ev : List Evidence) (i : Nat) : List Int :=
  ev.filterMap (fun e =>
    if e.lateness = 0 then (if e.cells.any (fun c => c.1 == i) then some e.told else none)
    else if (d.sampleAssert tv e i).isSome then some e.told else none)

/-- The observation is too old, or there is none (R231). -/
def Dev.tooOld (d : Dev) (tv : Int) (t : Option Int) : Bool :=
  match t with
  | some t => decide ((d.ccfg 0x5010 0x10 * 1000 : Nat) < tv - t)
  | none => true

/-- Votes at a cell: streams with a confident occupied assertion, and with a free one. -/
def Dev.votes (d : Dev) (tv : Int) (ev : List Evidence) (i : Nat) : List Nat × List Nat :=
  let l := d.slotsOn.map (fun n => (n, d.confident tv ev n i))
  ((l.filter (fun x => x.2 == some true)).map Prod.fst, (l.filter (fun x => x.2 == some false)).map Prod.fst)

/-- One cell (R231, R232, R246, R247). -/
def Dev.evalCell (d : Dev) (tv : Int) (ev : List Evidence) (occ : List (Nat × Byte)) (i : Nat) : GridCell :=
  let v := d.votes tv ev i
  let c := fusedConf (d.slotsOn.filterMap (fun n => (d.streamAssert tv ev n i).map Asserted.conf))
  let tobs := d.obsTime tv ev i
  let filled := occ.any (fun x => decide (x.1 / 32 = i) && decide (x.1 % 32 ≤ d.ccfg 0x5010 0x0B) &&
    decide (d.ccfg 0x5010 0x0C ≤ x.2.toNat))
  let state :=
    if v.1.length = v.2.length ∧ 1 ≤ v.1.length then 2
    else if v.2.length < v.1.length then 1
    else if c < d.ccfg 0x5010 0x0D ∨ d.tooOld tv tobs = true then 3
    else if filled then 1 else 0
  { state := state, conf := c, tobs := tobs, told := minTime (d.reachTolds tv ev i) }

/-- Pairs of slots that alone contest a cell (R234). -/
def Dev.contestPair (d : Dev) (tv : Int) (ev : List Evidence) (i : Nat) : Option (Nat × Nat) :=
  match d.votes tv ev i with
  | ([a], [b]) => some (min a b, max a b)
  | _ => none

/-- All unordered pairs of slots. -/
def slotPairs : List (Nat × Nat) := (List.range 16).flatMap (fun a => ((List.range 16).filter (fun b => decide (a < b))).map (fun b => (a, b)))

/-- The cell-state step: cells, contests, region times and the count of UNKNOWN monitored cells. -/
def Dev.cellState (d : Dev) (ev : List Evidence) (occ : List (Nat × Byte)) : Dev :=
  match d.computing with
  | none => d
  | some c =>
    let ev := ev.filter (fun e => !d.excluded e.slot.val && d.slotLive e.slot.val)
    let n := d.gridX * d.gridY
    let cells := (List.range n).map (fun i => (i, d.evalCell c.tv ev occ i))
    let attended := (List.range d.regions).map (fun g => (g, minTime (d.attendedTolds g c.number)))
    let attOf := fun (i : Nat) => ((attended.find? (fun x => x.1 == d.regionOfCell i)).bind Prod.snd).toList
    let cells := cells.map (fun x => (x.1, { x.2 with told := minTime (x.2.told.toList ++ attOf x.1) }))
    let pairs := (List.range n).filterMap (d.contestPair c.tv ev)
    let hot := slotPairs.filter (fun p => decide (d.ccfg 0x5200 0x17 ≤ (pairs.filter (fun q => q == p)).length))
    let told := (List.range d.regions).map (fun g =>
      (g, (minTime ((cells.filter (fun x => d.regionOfCell x.1 == g)).filterMap (fun x => x.2.told))).getD c.tv))
    let late := (List.range d.regions).filter (fun g => (ev.filter (fun e => decide (e.lateness ≠ 0))).any (fun e =>
      (d.cellsOf g).any (fun i => (d.sampleAssert c.tv e i).isSome)))
    let unknown := (d.monitored.filter (fun i => (cells.find? (fun x => x.1 == i)).any (fun x => x.2.state == 3))).length
    let d := d.modFusN (fun f => { f with cells := cells.foldl (fun m x => kset GridCell.reset m x.1 x.2) [], unknown := unknown })
    d.modCand (fun k => { k with contestPairs := hot, lateRegions := late, regionTold := told.foldl (fun m x => kset 0 m x.1 x.2) [] })

/-! ## The plausibility checks (R235, R236) -/

/-- Result of a check: none where it is not evaluated, else whether it failed. -/
abbrev CheckResult := Option Bool

/-- More than `limit` percent of `n`. -/
def overPercent (k limit n : Nat) : Bool := decide (limit * n < 100 * k)

/-- A confident assertion disagrees with the committed cells around it (R235). -/
def Dev.disagrees (d : Dev) (r i : Nat) (occ : Bool) : Bool :=
  ((List.range (d.gridX * d.gridY)).filter (fun j => decide (d.cheb i j ≤ r))).all (fun j =>
    decide ((d.fusC.cell j).state = if occ then 0 else 1))

/-- Temporal consistency of a stream. -/
def Dev.temporalCheck (d : Dev) (tv : Int) (ev : List Evidence) (n : Nat) : CheckResult :=
  let l := d.monitored.filterMap (fun i => (d.confident tv ev n i).map (fun o' => (i, o')))
  let r := d.radius (d.ccfg 0x5000 1 * 1000)
  if l.length < d.ccfg 0x5200 0x13 ∨ d.fusC.gridLive = false then none
  else some (overPercent (l.filter (fun x => d.disagrees r x.1 x.2)).length (d.ccfg 0x5200 0x11) l.length)

/-- The common assertion of the other streams at a cell: at least two confident ones that agree (R235). -/
def Dev.common (d : Dev) (tv : Int) (ev : List Evidence) (others : List Nat) (i : Nat) : Option Bool :=
  match others.filterMap (fun n => d.confident tv ev n i) with
  | a :: b :: t => if (b :: t).all (fun x => x == a) then some a else none
  | _ => none

/-- Cross-sensor agreement of a stream. -/
def Dev.crossCheckStream (d : Dev) (tv : Int) (ev : List Evidence) (others : List Nat) (n : Nat) : CheckResult :=
  let l := (List.range (d.gridX * d.gridY)).filterMap (fun i =>
    match d.confident tv ev n i, d.common tv ev others i with
    | some a, some b => some (a != b)
    | _, _ => none)
  if l.length < d.ccfg 0x5200 0x13 then none
  else some (overPercent (l.filter (fun x => x)).length (d.ccfg 0x5200 0x12) l.length)

/-- A counter after a check (R236). -/
def countCheck (r : CheckResult) (n : Nat) : Nat := match r with | none => n | some true => n + 1 | some false => 0

/-- A counter of a stream has reached [5200.14] (R236). -/
def Dev.maskDue (d : Dev) (n : Nat) : Bool :=
  let h := d.fusN.slotHealth n
  let k := d.ccfg 0x5200 0x14
  decide (k ≤ h.temporal) || decide (k ≤ h.cross) || decide (k ≤ h.residual)

/-- Excludes a stream whose counter has reached [5200.14] (R236). -/
def Dev.excludeDue (d : Dev) (n : Nat) : Dev :=
  if d.maskDue n then
    d.modCand (fun c => { c with excluded := c.excluded ||| (1#16 <<< n) })
  else d

/-- The temporal and cross-sensor checks of every enabled stream, in one pass against the streams not excluded when they
begin; the lifted grids give the candidate records their tokens and T_OLD (R235, R236, R263). -/
def Dev.healthChecks (d : Dev) (ev : List Evidence) : Dev :=
  match d.computing with
  | none => d
  | some c =>
    let ev0 := ev.filter (fun e => e.lateness == 0)
    let set := d.slotsOn.filter (fun n => !d.excluded n)
    let res := d.slotsOn.map (fun n =>
      (n, d.temporalCheck c.tv ev0 n, d.crossCheckStream c.tv ev0 (set.filter (fun m => m != n)) n))
    let d := res.foldl (fun d r => d.modFusN (fun f => f.modHealth r.1 (fun h =>
      { h with temporal := countCheck r.2.1 h.temporal, cross := countCheck r.2.2 h.cross }))) d
    let d := d.slotsOn.foldl (fun d n => d.excludeDue n) d
    let d := d.modCand (fun k => { k with cleanSlots := (res.filter (fun r => r.2.1 == some false && r.2.2 == some false)).map (fun r => r.1) })
    let live := ev0.filter (fun e => !d.excluded e.slot.val)
    (List.range d.regions).foldl (fun d g =>
      let seen := live.filter (fun e => e.cells.any (fun x => d.regionOfCell x.1 == g))
      let cells := (seen.flatMap (fun e => e.cells.map Prod.fst)).filter (fun i => d.regionOfCell i == g)
      d.setLifted g cells ((minTime (seen.map (fun e => e.told))).getD c.tv)) d

/-! ## Calibration (R239 to R242) -/

/-- Sum of squares. -/
def sumSq (l : List Int) : Nat := (l.map (fun x => x.natAbs * x.natAbs)).sum

/-- The norm exceeds, or reaches, a limit of `lim` × u / v units. -/
def normOver (lim u v : Nat) (l : List Int) : Bool := decide (lim * lim * u * u < sumSq l * v * v)
def normReaches (lim u v : Nat) (l : List Int) : Bool := decide (lim * lim * u * u ≤ sumSq l * v * v)

/-- Scales a vector onto a limit, towards zero in each component, so that the limit holds (log 23). -/
def scaleTo (lim u v : Nat) (l : List Int) : List Int :=
  if normOver lim u v l then
    l.map (fun x =>
      let m : Int := isqrt (x.natAbs * x.natAbs * (lim * lim) * (u * u) / (v * v * sumSq l))
      if x < 0 then -m else m)
  else l

/-- Sum of two vectors. -/
def vadd (a b : List Int) : List Int := (a.zip b).map (fun p => p.1 + p.2)

/-- Number of the copy of the candidate generation (R312, R324, R375). -/
def Dev.candBank (d : Dev) : Nat := (d.hull.g.toNat + 1) % 2

/-- Value of unknown `u`, right-hand side `b`, block `k` of the candidate copy of a solution (R308, R324; log 65). -/
def Dev.solValue (d : Dev) (own : Option Nat) (s : SolRef) (u b k : Nat) : Int :=
  d.eltInt own { d.tdescAt own (s.sol + 96 * d.candBank) with ty := 8 } [u, b, k, 0, 0]

/-- STATUS of the job's completion record (R325). -/
def Dev.solStatus (d : Dev) (own : Option Nat) (s : SolRef) : Nat := wfld (d.loadW own s.cpl) 47 44

/-- Block `k` of a batch is DEGRADED (R321). -/
def Dev.blockDegraded (d : Dev) (own : Option Nat) (s : SolRef) (k : Nat) : Bool :=
  decide (s.aux ≠ 0) && nbit (d.eltGet own (d.tdescAt own s.aux) [k, 0, 0, 0, 0]) 1

/-- R239: the solution has no DEGRADED, TRUNCATED or STALE status, nor is it FAULTED; a batch is taken block by block. -/
def Dev.calibUsable (d : Dev) (own : Option Nat) (s : CalibStep) : Bool :=
  let st := d.solStatus own s.ref
  st == 0 || (st == 3 && s.ref.aux != 0 && !d.blockDegraded own s.ref s.block)

/-- Three values of a step from unknown `u`, in fractions of 2^n. -/
def Dev.calibValues (d : Dev) (own : Option Nat) (s : CalibStep) (u n : Nat) : List Int :=
  [0, 1, 2].map (fun i =>
    let v := d.solValue own s.ref (s.first + u + i) 0 s.block
    if s.ref.nX ≤ n then v * 2 ^ (n - s.ref.nX) else rne v (2 ^ (s.ref.nX - n)))

/-- The bounded step and the envelopes of one slot (R240, R241). -/
def Dev.calibStep (d : Dev) (n : Nat) (x : Calib) (dTheta dT : List Int) : Calib :=
  let o' := 0x5100 + n
  let th := vadd x.rot (scaleTo (d.ccfg o' 7) (2 ^ 30) 1000000000 dTheta)
  let t := vadd x.tr (scaleTo (d.ccfg o' 8) (2 ^ 24) 1000000 dT)
  { rot := scaleTo (d.ccfg o' 9) (2 ^ 30) 1000000 th, tr := scaleTo (d.ccfg o' 0x0A) (2 ^ 24) 1000000 t,
    rotAt := normReaches (d.ccfg o' 9) (2 ^ 30) 1000000 th, trAt := normReaches (d.ccfg o' 0x0A) (2 ^ 24) 1000000 t }

/-- What the refine-calibration operation supplies for one stream: the residual with its check (R235, R236), and the
step (R239). -/
def Dev.calibrateOne (d : Dev) (own : Option Nat) (s : CalibStep) : Dev :=
  let n := s.slot.val
  let count := leNat (d.loadA own s.stats 4)
  let rho := leNat (d.loadA own (s.stats + 4) 4)
  if count < d.ccfg (0x5100 + n) 0x0F ∨ d.slotLive n = false then d
  else
    let bad := decide (d.ccfg (0x5100 + n) 0x0C < rho)
    let d := d.modFusN (fun f => f.modHealth n (fun h => { h with rho := some rho, residual := countCheck (some bad) h.residual }))
    let d := d.excludeDue n
    if d.excluded n = false ∧ d.ccfg (0x5100 + n) 6 = 1 ∧ d.calibUsable own s = true then
      let dTheta := d.calibValues own s 0 30
      let dT := d.calibValues own s 3 24
      d.modFusN (fun f => { f with calib := kmod Calib.reset f.calib n (fun x => d.calibStep n x dTheta dT) })
    else d

/-! ## Commit of grid, health and calibration (R233, R234, R236, R237, R241, R242) -/

/-- The contest count of a pair (R234). -/
def Dev.commitContest (d : Dev) (p : Nat × Nat) : Dev :=
  let key := 16 * p.1 + p.2
  if d.fus.cand.contestPairs.contains p then
    let n := kget 0 d.fusN.contests key + 1
    if d.ccfg 0x5200 0x18 ≤ n then
      let low := fun (h : Health) => { h with weight := max (h.weight - d.ccfg 0x5200 0x19) (d.ccfg 0x5200 0x1A) }
      let d := d.modFusN (fun f => { (f.modHealth p.1 low).modHealth p.2 low with contests := kset 0 f.contests key 0 })
      d.raise 0x0703 p.1 p.2
    else d.modFusN (fun f => { f with contests := kset 0 f.contests key n })
  else d.modFusN (fun f => { f with contests := kset 0 f.contests key 0 })

/-- Weight recovery of a slot (R234). -/
def Dev.recover (d : Dev) (n : Nat) : Dev :=
  if d.fus.cand.contestPairs.any (fun p => p.1 == n || p.2 == n) then d.modFusN (fun f => f.modHealth n (fun h => { h with quiet := 0 }))
  else d.modFusN (fun f => f.modHealth n (fun h =>
    if d.ccfg 0x5200 0x1B ≤ h.quiet + 1 then { h with weight := min 255 (h.weight + 16), quiet := 0 } else { h with quiet := h.quiet + 1 }))

/-- A stream that its counters have excluded is masked at the commit (R236). -/
def Dev.maskStream (d : Dev) (n : Nat) : Dev :=
  if d.excluded n = true ∧ d.maskDue n = true ∧ (d.fusN.slotHealth n).masked = false then
    { d.modFusN (fun f => f.modHealth n (fun h => { h with masked := true, unmask := 0 })) with
      fus := { (d.modFusN (fun f => f.modHealth n (fun h => { h with masked := true, unmask := 0 }))).fus with maskChange := true } }.raise
        0x0701 n 0
  else d

/-- A masked stream's unmask count, and its unmasking: by the policy, or on an accepted request (R237). -/
def Dev.unmaskStream (d : Dev) (n : Nat) : Dev :=
  let h := d.fusC.slotHealth n
  if h.masked = false then d
  else
    let bad := match (d.fusN.slotHealth n).rho with | some r => decide (d.ccfg (0x5100 + n) 0x0C < r) | none => false
    let count := if d.fus.cand.cleanSlots.contains n && !bad then h.unmask + 1 else 0
    if (decide (d.ccfg 0x5200 0x15 ≤ count) && decide (d.ccfg 0x5200 0x16 = 0)) || d.fus.unmaskReq.contains n then
      let d := d.modFusN (fun f => f.modHealth n (fun h =>
        { h with masked := false, weight := d.ccfg 0x5200 0x1A, temporal := 0, cross := 0, residual := 0, unmask := 0 }))
      let d := { d with fus := { d.fus with maskChange := true, unmaskReq := sdel n d.fus.unmaskReq } }
      d.raise 0x0702 n 0
    else
      d.modFusN (fun f => f.modHealth n (fun h => { h with unmask := count }))

/-- A correction reaches an envelope (R241). -/
def Dev.envelopeRaise (d : Dev) (n : Nat) : Dev :=
  let a := d.fusC.slotCalib n
  let b := d.fusN.slotCalib n
  if (b.rotAt && !a.rotAt) || (b.trAt && !a.trAt) then (d.raise 0x0704 n 0).occur (0x5100 + n) 0x0D else d

/-- What the commit does to grid, health and calibration, on the candidate before it becomes the committed copy. -/
def Dev.commitGrid (d : Dev) : Dev :=
  let d := { d with fus := { d.fus with maskChange := false } }
  let d := slotPairs.foldl (fun d p => d.commitContest p) d
  let d := (List.range 16).foldl (fun d n => d.recover n) d
  let d := (List.range 16).foldl (fun d n => (d.maskStream n).unmaskStream n) d
  let d := (List.range 16).foldl (fun d n => d.envelopeRaise n) d
  let d := d.fus.zeroReq.foldl (fun d n => d.modFusN (fun f => { f with calib := kset Calib.reset f.calib n Calib.reset })) d
  let d := d.raiseIf (d.fusC.gridLive && decide (d.fusC.unknown = 0) && decide (0 < d.fusN.unknown)) 0x0705 0 0
  let d := d.modFusN (fun f => { f with gridLive := true })
  { d with fus := { d.fus with zeroReq := [], geometry := false } }

/-! ## Zones (R336) -/

/-- Vertices of a zone, scaled by 2^25. -/
def Dev.zonePts (d : Dev) (z : Nat) : List (Int × Int) :=
  let v := d.cfgList (0x7010 + z) 3
  (List.range (d.cfg (0x7010 + z) 2)).map (fun i => (sgn 32 (v.getD (2 * i) 0) * 2 ^ 25, sgn 32 (v.getD (2 * i + 1) 0) * 2 ^ 25))

/-- Centre of a cell in mm, scaled by 2^25 (R223). -/
def Dev.cellCentre (d : Dev) (i : Nat) : Int × Int :=
  let o' := d.cfgList 0x5010 6
  let e : Int := d.cfg 0x5010 2
  (sgn 32 (o'.getD 0 0) * 2000 + (2 * (i % d.gridX : Nat) + 1) * e * 2 ^ 24,
   sgn 32 (o'.getD 1 0) * 2000 + (2 * (i / d.gridX : Nat) + 1) * e * 2 ^ 24)

/-- Cross product of (b − a) and (c − a). -/
def cross (a b c : Int × Int) : Int := (b.1 - a.1) * (c.2 - a.2) - (b.2 - a.2) * (c.1 - a.1)

/-- p lies in the bounding box of a and b. -/
def inBox (a b p : Int × Int) : Bool :=
  decide (min a.1 b.1 ≤ p.1) && decide (p.1 ≤ max a.1 b.1) && decide (min a.2 b.2 ≤ p.2) && decide (p.2 ≤ max a.2 b.2)

/-- p lies on the segment ab. -/
def onSeg (a b p : Int × Int) : Bool := decide (cross a b p = 0) && inBox a b p

/-- Edges of a closed polygon. -/
def edgesOf (l : List (Int × Int)) : List ((Int × Int) × (Int × Int)) := l.zip (l.drop 1 ++ l.take 1)

/-- p lies inside the polygon or on its boundary. -/
def inPolygon (l : List (Int × Int)) (p : Int × Int) : Bool :=
  (edgesOf l).any (fun e => onSeg e.1 e.2 p) ||
    decide (((edgesOf l).filter (fun e =>
      decide (p.2 < e.1.2) != decide (p.2 < e.2.2) &&
        (if e.1.2 < e.2.2 then decide (0 < cross e.1 e.2 p) else decide (cross e.1 e.2 p < 0)))).length % 2 = 1)

/-- Sign of an integer. -/
def isign (i : Int) : Int := if 0 < i then 1 else if i < 0 then -1 else 0

/-- Two closed segments meet. -/
def segsMeet (a b c d : Int × Int) : Bool :=
  (decide (isign (cross a b c) ≠ isign (cross a b d)) && decide (isign (cross c d a) ≠ isign (cross c d b))) ||
    onSeg a b c || onSeg a b d || onSeg c d a || onSeg c d b

/-- The edge a–b folds back at b onto b–c. -/
def foldsBack (a b c : Int × Int) : Bool :=
  decide (cross a b c = 0) && decide ((b.1 - a.1) * (c.1 - b.1) + (b.2 - a.2) * (c.2 - b.2) < 0)

/-- The polygon is simple (R336). -/
def simplePolygon (l : List (Int × Int)) : Bool :=
  let e := edgesOf l
  let n := e.length
  e.all (fun x => decide (x.1 ≠ x.2)) &&
    (List.range n).all (fun i => (List.range n).all (fun j =>
      let a := e.getD i ((0, 0), (0, 0))
      let b := e.getD j ((0, 0), (0, 0))
      if i = j then true
      else if (i + 1) % n = j then !foldsBack a.1 a.2 b.2
      else if (j + 1) % n = i then true
      else !segsMeet a.1 a.2 b.1 b.2))

/-- The zone is enabled: kind 1 to 5. -/
def Dev.zoneOn (d : Dev) (z : Nat) : Bool := decide (1 ≤ d.cfg (0x7010 + z) 1) && decide (d.cfg (0x7010 + z) 1 ≤ 5)

/-- A cell belongs to a zone. -/
def Dev.inZone (d : Dev) (z i : Nat) : Bool := inPolygon (d.zonePts z) (d.cellCentre i)

/-- Every enabled zone may enter RUN (R336). -/
def Dev.zonesValid (d : Dev) : Bool :=
  (List.range 64).all (fun z => !d.zoneOn z || (decide (3 ≤ (d.zonePts z).length) && simplePolygon (d.zonePts z) &&
    (List.range (d.gridX * d.gridY)).any (fun i => d.inZone z i)))

/-! ## Commands -/

/-- A write to [5203] (R237). -/
def writeUnmask (n : Nat) (d : Dev) : Dev × Reply :=
  let h := d.fusC.slotHealth n
  if h.masked = true ∧ d.cfg 0x5200 0x15 ≤ h.unmask then
    ({ d with fus := { d.fus with unmaskReq := sins n d.fus.unmaskReq } }, .good [])
  else (d.raise 0x0706 n 0, .cause 0x0706)

def unmaskRequest (r : Req) (n : Nat) (value : Byte) (d : Dev) : Dev :=
  d.writeWith r 0x5203 (n + 1) false [value] (fun _ => writeUnmask n)

/-- UNMASK_REQUEST (R237). -/
def execUnmaskRequest (r : Req) (n : Fin 16) (value : Byte) (s : State) : Out := s.next (unmaskRequest r n.val value s.dev)

/-- A write to [5100.01], [5100.02] or [5100.0E] (R242). -/
def writeReference (n sub : Nat) (v : List Nat) (d : Dev) : Dev × Reply :=
  let d := if sub = 0x0E then d else d.put (0x5100 + n) sub v
  ({ d with fus := { d.fus with zeroReq := sins n d.fus.zeroReq } }, .good [])

def resetCorrection (r : Req) (n sub : Nat) (payload : List Byte) (d : Dev) : Dev :=
  if sub = 1 ∨ sub = 2 ∨ sub = 0x0E then d.writeWith r (0x5100 + n) sub false payload (writeReference n sub) else d

/-- RESET_CORRECTION (R242): the correction is zero at the next commit. -/
def execResetCorrection (r : Req) (n : Fin 16) (sub : Byte) (payload : List Byte) (s : State) : Out :=
  s.next (resetCorrection r n.val sub.toNat payload s.dev)

/-- A write to [5010.02], [5010.05] or [5010.06] (R225). -/
def writeGeometry (sub : Nat) (v : List Nat) (d : Dev) : Dev × Reply :=
  let d := d.put 0x5010 sub v
  ({ d with fus := { d.fus with geometry := true } }, .good [])

def gridGeometryWrite (r : Req) (sub : Nat) (payload : List Byte) (d : Dev) : Dev :=
  if sub = 2 ∨ sub = 5 ∨ sub = 6 then d.writeWith r 0x5010 sub false payload (writeGeometry sub) else d

/-- GRID_GEOMETRY_WRITE (R225). -/
def execGridGeometryWrite (r : Req) (sub : Byte) (payload : List Byte) (s : State) : Out :=
  s.next (gridGeometryWrite r sub.toNat payload s.dev)

/-- Persists the committed corrections (R242). -/
def Dev.saveCalib (d : Dev) : Dev := { d with fus := { d.fus with savedCalib := d.fusC.calib, savedAt := d.tick } }

def calibrationPersist (d : Dev) : Dev := if d.up = true ∧ d.fus.savedAt + sTicks 600 ≤ d.tick then d.saveCalib else d

/-- CALIBRATION_PERSIST (R242): every 600 s. -/
def execCalibrationPersist (s : State) : Out := s.next (calibrationPersist s.dev)

end Sys2Proof.Machine
end

