-- ==== Sys2Proof/Machine/Tracks.lean ====
section
/-! DEFINITION. Tracks: prediction, gating and the cost matrix, the auction, the update, births and identities
(11_tracks.md, R281 to R301). FP32 sums and products run in the order written here (log 25). -/

namespace Sys2Proof.Machine

open Sys2Proof

/-! ## FP32 matrices -/

/-- FP32 of n / k, rounded once. -/
def fQuot (n : Int) (k : Nat) : Nat :=
  let a := n.natAbs * 2 ^ 64
  let q : Nat := a / k * 2 + b2n (decide (a % k ≠ 0))
  (fRound 24 false { m := if n < 0 then -(q : Int) else q, e := -65 }).1

/-- Sum of products in order. -/
def fdot (a b : List Nat) : Nat :=
  match a.zip b with
  | [] => 0
  | x :: t => t.foldl (fun s y => fadd s (fmul y.1 y.2)) (fmul x.1 x.2)

/-- Transpose to `n` rows. -/
def fTr (n : Nat) (m : List (List Nat)) : List (List Nat) := (List.range n).map (fun j => m.map (fun r => r.getD j 0))

/-- Product of a matrix and one of `n` columns. -/
def fMulM (n : Nat) (a b : List (List Nat)) : List (List Nat) := a.map (fun r => (fTr n b).map (fdot r))

/-- Sum of matrices. -/
def fAddM (a b : List (List Nat)) : List (List Nat) := List.zipWith (List.zipWith fadd) a b

/-- A 6 × 6 matrix from its entries. -/
def mat6 (f : Nat → Nat → Nat) : List (List Nat) := (List.range 6).map (fun i => (List.range 6).map (f i))

/-- Entry of a matrix. -/
def mAt (m : List (List Nat)) (i j : Nat) : Nat := (m.getD i []).getD j 0

/-- Place of entry (i, j) in the 21 entries of the upper triangle, row by row (R283). -/
def triIdx (i j : Nat) : Nat := min i j * (11 - min i j) / 2 + max i j

/-- The covariance as FP32. -/
def covMat (c : List Int) : List (List Nat) := mat6 (fun i j => fOfDya (c.getD (triIdx i j) 0) (-24))

/-- The upper triangle of an FP32 covariance in Q7.24. -/
def covOf (m : List (List Nat)) : List Int :=
  (List.range 6).flatMap (fun i => ((List.range 6).filter (fun j => decide (i ≤ j))).map (fun j => fToFix 32 24 (mAt m i j)))

/-- The conversion of R112 to an n-bit value with q fraction bits saturates. -/
def fixSat (n q a : Nat) : Bool :=
  !fBad 24 a && (let v := Dya.toInt { fVal 24 a with e := (fVal 24 a).e + q }; decide (v ≠ satS n v))

/-! ## Classes (R282, R304) -/

/-- A class parameter as the computing cycle sees it. -/
def Dev.clsCfg (d : Dev) (k sub : Nat) : Nat := d.ccfg (0x6001 + k) sub
/-- First slot of a class. -/
def Dev.clsBase (d : Dev) (k : Nat) : Nat := d.clsCfg k 1
/-- Number of its slots. -/
def Dev.clsCount (d : Dev) (k : Nat) : Nat := d.clsCfg k 2
/-- A millimetre parameter in FP32 metres. -/
def Dev.clsMetres (d : Dev) (k sub : Nat) : Nat := fQuot (d.clsCfg k sub) 1000
/-- A Q15.16 parameter in FP32. -/
def Dev.clsQ (d : Dev) (k sub : Nat) : Nat := fOfDya (sgn 32 (d.clsCfg k sub)) (-16)

/-- A slot of a copy. -/
def Fusion.track (f : Fusion) (j : Nat) : Track := kget Track.reset f.tracks j
/-- Writes a slot of a copy. -/
def Fusion.setTrack (f : Fusion) (j : Nat) (t : Track) : Fusion := { f with tracks := kset Track.reset f.tracks j t }

/-- TENTATIVE, CONFIRMED or COASTING. -/
def TrackState.live (s : TrackState) : Bool := s == .tentative || s == .confirmed || s == .coasting

/-- Code of a track's STATE (R283). -/
def TrackState.code : TrackState → Nat | .free => 0 | .tentative => 1 | .confirmed => 2 | .coasting => 3 | .retired => 4

/-- Two 32-bit values of a list in one word, the first in [63:32]. -/
def pairWord (l : List Int) (i : Nat) : Word := packW [(32, pat 32 (l.getD (2 * i) 0)), (32, pat 32 (l.getD (2 * i + 1) 0))]

/-- Words 0 to 30 of a slot (R283). -/
def trackWords (t : Track) : List Word :=
  [packW [(32, t.id), (4, t.state.code), (4, t.cls), (8, t.hits), (8, t.misses), (1, b2n t.predOnly), (7, 0)],
   packW [(48, t.lastHit), (16, 0)], BitVec.ofInt 64 t.tv, BitVec.ofInt 64 t.told] ++
    (List.range 3).map (pairWord t.st) ++ (List.range 2).map (pairWord (t.ext ++ [t.yaw])) ++
    (List.range 11).map (pairWord t.cov) ++
    [packW [(32, t.parent), (16, t.detRow), (16, 0)], packW [(32, pat 32 t.cost), (8, t.conf), (24, 0)]] ++
    (List.range 9).map (fun i => BitVec.ofNat 64 (leNat ((List.range 8).map (fun j => BitVec.ofNat 8 (t.app.getD (8 * i + j) 0)))))

/-- The 256 bytes of a slot, its CRC in W31[31:0] (R283, R299). -/
def trackBytes (t : Track) : List Byte :=
  let b := wordsLe (trackWords t)
  b ++ leBytes 4 (crc32c b).toNat ++ List.replicate 4 0

/-- The CRC of a slot holds (R284). -/
def slotCrcOk (b : List Byte) : Bool := leNat ((b.drop 248).take 4) == (crc32c (b.take 248)).toNat

/-- Bytes with some of their bits flipped. -/
def flipBytes (a flips : List Byte) : List Byte := a.zipIdx.map (fun x => x.1 ^^^ flips.getD x.2 0)

/-- R284: of the slots of a copy, those whose CRC a step that reads them finds wrong. -/
def badSlots (f : Fusion) (slots : List Nat) (l : List SlotUpset) : List Nat :=
  (l.filter (fun u => slots.contains u.slot && !slotCrcOk (flipBytes (trackBytes (f.track u.slot)) u.flips))).map SlotUpset.slot

/-- A step that reads slots of a copy checks them first; a wrong CRC ends it with 0x0908 (R284). -/
def Dev.readSlots (d : Dev) (f : Fusion) (slots : List Nat) (l : List SlotUpset) (work : Dev → Dev) : Dev × Nat :=
  let bad := badSlots f slots l
  if bad = [] then (work d, 0) else (bad.foldl (fun d j => d.raise 0x0908 j 0) d, 0x0908)

/-- The slots of a class. -/
def Dev.clsSlots (d : Dev) (k : Nat) : List Nat := (List.range (d.clsCount k)).map (fun j => d.clsBase k + j)

/-! ## Prediction (R289) -/

/-- F of the constant-velocity model. -/
def fMat (dt : Nat) : List (List Nat) := mat6 (fun i j => if i = j then fOfInt 1 else if j = i + 3 then dt else 0)

/-- Q of the white-acceleration model with spectral density `q`. -/
def qMat (q dt : Nat) : List (List Nat) :=
  let d2 := fmul dt dt
  let pp := fdiv (fmul q (fmul d2 dt)) (fOfInt 3)
  let pv := fdiv (fmul q d2) (fOfInt 2)
  mat6 (fun i j => if i = j then (if i < 3 then pp else fmul q dt) else if i + 3 = j ∨ j + 3 = i then pv else 0)

/-- The predicted state of a slot. -/
def predictTrack (t : Track) (tv : Int) (q : Nat) : Prediction :=
  let dt := fQuot (tv - t.tv) 1000000000
  let x := t.st.map (fun v => fOfDya v (-16))
  let xs := (List.range 6).map (fun i => if i < 3 then fadd (x.getD i 0) (fmul (x.getD (i + 3) 0) dt) else x.getD i 0)
  let f := fMat dt
  let p := fAddM (fMulM 6 (fMulM 6 f (covMat t.cov)) (fTr 6 f)) (qMat q dt)
  if xs.any (fBad 24) || p.any (fun r => r.any (fBad 24)) then
    { st := t.st, kind := 3,
      cov := t.cov.zipIdx.map (fun c => if c.2 = triIdx 0 0 ∨ c.2 = triIdx 1 1 ∨ c.2 = triIdx 2 2 then 2 ^ 31 - 1 else c.1) }
  else { st := xs.map (fToFix 32 16), cov := covOf p, kind := if p.any (fun r => r.any (fixSat 32 24)) then 2 else 1 }

/-- The predict step of a class (R289). -/
def Dev.predictClass (d : Dev) (k : Nat) : Dev :=
  match d.computing with
  | none => d
  | some c =>
    let q := fOfDya (sgn 32 (d.clsCfg k 0x0E)) (-24)
    let slots := (List.range (d.clsCount k)).map (fun j => d.clsBase k + j)
    let pr := slots.foldl (fun m j =>
      let t := d.fusC.track j
      kset Prediction.reset m j (if t.state.live then predictTrack t c.tv q else Prediction.reset)) d.fus.cand.predicted
    d.modCand (fun x => { x with predicted := pr })

/-- Predicted state of a slot. -/
def Dev.predictedOf (d : Dev) (j : Nat) : Prediction := kget Prediction.reset d.fus.cand.predicted j

/-! ## Gating and the cost matrix (R288, R290, R291) -/

/-- T_OLD of a detection of region `g` (R301): that of the head's output tensor; in the full-rate grid mode, with a region time table,
the region's entry (R125). -/
def Dev.detTold (d : Dev) (own : Option Nat) (list g : Nat) : Int :=
  let t := d.tdescAt own list
  if d.ccfg 0x5010 0x0A = 1 ∧ t.auxKind = 2 then sgn 64 (leNat (d.loadA own (t.auxAddr + 8 * g) 8))
  else (d.timesAt own list).told

/-- Word `w` of record `i` of a detection list (R288): the element at 2 w lies in [31:0] (log 73). -/
def Dev.detWord (d : Dev) (own : Option Nat) (t : TDesc) (i w : Nat) : Word :=
  packW [(32, d.eltGet own t [2 * w + 1, i, 0, 0, 0]), (32, d.eltGet own t [2 * w, i, 0, 0, 0])]

/-- The records of class `k` of a detection list, with their rows (R282, R288). -/
def Dev.detList (d : Dev) (own : Option Nat) (k list : Nat) : List (Nat × Detection) :=
  let t := { d.tdescAt own list with ty := 4 }
  (List.range (t.dim 1)).filterMap (fun i =>
    let w := d.detWord own t i
    let g := wfld (w 1) 15 0
    if wfld (w 1) 31 24 ≠ k then none
    else some (i,
      { x := sgn 32 (wfld (w 0) 63 32), y := sgn 32 (wfld (w 0) 31 0), z := sgn 32 (wfld (w 1) 63 32), conf := wfld (w 1) 23 16, region := g,
        sx := wfld (w 2) 63 48, sy := wfld (w 2) 47 32, sz := wfld (w 2) 31 16, hx := wfld (w 3) 63 48, hy := wfld (w 3) 47 32,
        hz := wfld (w 3) 31 16, parentRow := wfld (w 3) 15 0, told := d.detTold own list g }))

/-- R288: the records kept of a list: the highest CONF, ties to the lower row. -/
def keepDets (cap : Nat) (z : List (Nat × Detection)) : List (Nat × Detection) :=
  z.filter (fun x => decide ((z.filter (fun y =>
    decide (x.2.conf < y.2.conf) || (decide (y.2.conf = x.2.conf) && decide (y.1 < x.1)))).length < cap))

/-- Position variances of a detection in m², FP32. -/
def detVars (z : Detection) : List Nat := [z.sx, z.sy, z.sz].map (fun s => fmul (fQuot s 1000) (fQuot s 1000))

/-- Lower Cholesky factor of a symmetric 3 × 3 matrix: l00, l10, l11, l20, l21, l22; none at a pivot that is not
positive. -/
def chol3 (s : List (List Nat)) : Option (Nat × Nat × Nat × Nat × Nat × Nat) :=
  if flt 0 (mAt s 0 0) = false then none
  else
    let l00 := fsqrt (mAt s 0 0)
    let l10 := fdiv (mAt s 1 0) l00
    let p1 := fsub (mAt s 1 1) (fmul l10 l10)
    if flt 0 p1 = false then none
    else
      let l11 := fsqrt p1
      let l20 := fdiv (mAt s 2 0) l00
      let l21 := fdiv (fsub (mAt s 2 1) (fmul l20 l10)) l11
      let p2 := fsub (fsub (mAt s 2 2) (fmul l20 l20)) (fmul l21 l21)
      if flt 0 p2 = false then none else some (l00, l10, l11, l20, l21, fsqrt p2)

/-- Absolute value of an FP32 pattern. -/
def fabs (a : Nat) : Nat := if fBad 24 a then nan32 else a % 2 ^ 31

/-- a ≤ b on FP32; false with a NaN. -/
def fle (a b : Nat) : Bool := !fBad 24 a && !fBad 24 b && !flt b a

/-- Innovation of a detection against a predicted position. -/
def innovation (z : Detection) (st : List Int) : List Nat :=
  [(z.x, 0), (z.y, 1), (z.z, 2)].map (fun p => fsub (fOfDya p.1 (-16)) (fOfDya (st.getD p.2 0) (-16)))

/-- The net cost of detection and slot, where the entry is finite (R290). -/
def Dev.netCost (d : Dev) (k : Nat) (z : Detection) (tv : Int) (t : Track) (pr : Prediction) : Option Int :=
  if pr.kind = 3 then none
  else
    let y := innovation z pr.st
    let p := covMat pr.cov
    let m := detVars z
    let s := (List.range 3).map (fun i => (List.range 3).map (fun j => if i = j then fadd (mAt p i j) (m.getD i 0) else mAt p i j))
    let rg := fadd (fmul (d.clsMetres k 8) (fQuot (tv - t.tv) 1000000000)) (d.clsMetres k 9)
    match chol3 s with
    | none => none
    | some (l00, l10, l11, l20, l21, l22) =>
      let u0 := fdiv (y.getD 0 0) l00
      let u1 := fdiv (fsub (y.getD 1 0) (fmul l10 u0)) l11
      let u2 := fdiv (fsub (fsub (y.getD 2 0) (fmul l20 u0)) (fmul l21 u1)) l22
      let d2 := fdot [u0, u1, u2] [u0, u1, u2]
      let r := fmul (fmul l00 l11) l22
      let c := fadd d2 (flnP (fmul r r))
      let n := fsub (fsub c (d.clsQ k 0x0B)) (d.clsQ k (if t.state = .tentative then 0x0D else 0x0C))
      if fle (fabs (y.getD 0 0)) rg && fle (fabs (y.getD 1 0)) rg && fle d2 (d.clsQ k 0x0A) && flt n 0 then some (fToFix 32 16 n)
      else none

/-- R291: the finite entries a row keeps: the lowest net costs, ties to the lower column. -/
def keepEntries (cap : Nat) (l : List (Nat × Int)) : List (Nat × Int) :=
  l.filter (fun x => decide ((l.filter (fun y => decide (y.2 < x.2) || (decide (y.2 = x.2) && decide (y.1 < x.1)))).length < cap))

/-- The bytes of a cost matrix (R291). -/
def matrixBytes (nc : Nat) (rows : List (List (Nat × Int))) : List Byte :=
  let offs := (List.range (rows.length + 1)).map (fun i => ((rows.take i).map List.length).sum)
  wordsLe [packW [(16, rows.length), (16, nc), (32, (rows.map List.length).sum)]] ++ offs.flatMap (leBytes 4) ++
    rows.flatMap (fun r => r.flatMap (fun e => wordsLe [packW [(16, e.1), (16, 0), (32, pat 32 e.2)]]))

/-- Sets bits of a class status byte (R302). -/
def Dev.classBits (d : Dev) (k bits : Nat) : Dev :=
  d.modCand (fun c => { c with classStatus := kmod 0 c.classStatus k (fun b => b ||| bits) })

/-- Finite entries of a row (R290). -/
def Dev.gateRow (d : Dev) (k : Nat) (tv : Int) (z : Detection) : List (Nat × Int) :=
  (List.range (d.clsCount k)).filterMap (fun j =>
    let pr := d.predictedOf (d.clsBase k + j)
    if pr.kind = 0 then none else (d.netCost k z tv (d.fusC.track (d.clsBase k + j)) pr).map (fun n => (j, n)))

/-- Detections beyond the capacity are counted once, by the block of row 0 (R288). -/
def Dev.countPruned (d : Dev) (k first lost : Nat) : Dev :=
  if first = 0 ∧ 0 < lost then ((d.raise 0x0902 k 0).occurN (0x6001 + k) 0x14 lost).classBits k 8 else d

/-- Entries beyond those a row keeps are counted; the first of a class in a cycle raises 0x0903 (R291). -/
def Dev.countCut (d : Dev) (k cut : Nat) : Dev :=
  if cut = 0 then d
  else
    let d := if d.fus.cand.gateCut.contains k then d
      else (d.modCand (fun c => { c with gateCut := k :: c.gateCut })).raise 0x0903 k 0
    (d.occurN (0x6001 + k) 0x15 cut).classBits k 8

/-- One block of rows of the cost matrix of a class (R288, R290 to R292): with the rows that other blocks have built it is written as one
matrix, row by row. -/
def Dev.buildCosts (d : Dev) (own : Option Nat) (k list first n dst : Nat) : Dev :=
  match d.computing with
  | none => d
  | some c =>
    let l := d.detList own k list
    let kept := keepDets (d.clsCfg k 3) l
    let all := ((kept.drop first).take n).map (fun z => d.gateRow k c.tv z.2)
    let rows := all.map (keepEntries (d.clsCfg k 4))
    let built := rows.zipIdx.foldl (fun m r => kset [] m (2 ^ 12 * k + first + r.2) r.1) d.fus.cand.costRows
    let d := (d.countPruned k first (l.length - kept.length)).countCut k ((all.map List.length).sum - (rows.map List.length).sum)
    (d.modCand (fun x => { x with dets := kset [] x.dets k kept, costRows := built })).storeA own dst
      (matrixBytes (d.clsCount k) ((List.range kept.length).map (fun i => kget [] built (2 ^ 12 * k + i))))

/-! ## The auction (R293 to R295) -/

/-- An auction in progress. -/
structure Auction where
  /-- prices by column -/
  price : Store Int
  /-- column of each assigned row, plus 1 -/
  col : Store Nat
  /-- row of each held column, plus 1 -/
  row : Store Nat
  exited : List Nat
  sat : Bool
deriving DecidableEq, Repr

def Auction.start : Auction := { price := [], col := [], row := [], exited := [], sat := false }

/-- A cost matrix: number of columns, and per row its columns with benefits. -/
structure CostMatrix where
  cols : Nat
  rows : List (List (Nat × Int))
deriving DecidableEq, Repr

/-- The cost matrix at an address (R291). -/
def Dev.costMatrix (d : Dev) (a : Nat) : CostMatrix :=
  let h := d.loadW none a
  let nr := wfld h 63 48
  let off := fun i => leNat (d.loadA none (a + 8 + 4 * i) 4)
  let base := a + 8 + 4 * (nr + 1)
  { cols := wfld h 47 32,
    rows := (List.range nr).map (fun i => (List.range (off (i + 1) - off i)).map (fun e =>
      let w := d.loadW none (base + 8 * (off i + e))
      (wfld w 63 48, -(sgn 32 (wfld w 31 0))))) }

/-- The row is neither assigned nor exited. -/
def Auction.bidding (s : Auction) (i : Nat) : Bool := decide (kget 0 s.col i = 0) && !s.exited.contains i

/-- Rows still bidding. -/
def Auction.active (s : Auction) (m : CostMatrix) : List Nat := (List.range m.rows.length).filter s.bidding

/-- Values a_ij − p_j of a row. -/
def Auction.values (s : Auction) (m : CostMatrix) (i : Nat) : List (Nat × Int) :=
  (m.rows.getD i []).map (fun e => (e.1, e.2 - kget 0 s.price e.1))

/-- Largest of a list of values, and the lowest column that has it. -/
def bestValue : List (Nat × Int) → Option (Nat × Int)
  | [] => none
  | x :: t => some (t.foldl (fun b y => if b.2 < y.2 then y else b) x)

/-- Bid of a row: its column and bid before clamping; none where it exits. -/
def Auction.bid (s : Auction) (m : CostMatrix) (eps : Int) (i : Nat) : Option (Nat × Int) :=
  let vs := s.values m i
  match bestValue vs with
  | none => none
  | some (j, v1) =>
    if v1 ≤ 0 then none
    else
      let v2 := (vs.filter (fun x => decide (x.1 ≠ j))).foldl (fun b x => max b x.2) 0
      some (j, kget 0 s.price j + v1 - v2 + eps)

/-- One winning bid is applied. -/
def Auction.award (s : Auction) (i j : Nat) (b : Int) : Auction :=
  let old := kget 0 s.row j
  { s with price := kset 0 s.price j b, col := kset 0 (if old = 0 then s.col else kset 0 s.col (old - 1) 0) i (j + 1),
           row := kset 0 s.row j (i + 1) }

/-- One round (R294). -/
def Auction.round (m : CostMatrix) (eps : Int) (s : Auction) : Auction :=
  let bids := (s.active m).map (fun i => (i, s.bid m eps i))
  let real := bids.filterMap (fun b => b.2.map (fun x => (b.1, x.1, satS 32 x.2, decide (satS 32 x.2 ≠ x.2))))
  let wins := real.filter (fun b => real.all (fun o' =>
    !(o'.2.1 == b.2.1) || decide (o'.2.2.1 < b.2.2.1) || (o'.2.2.1 == b.2.2.1 && decide (b.1 ≤ o'.1))))
  let s := { s with exited := (bids.filter (fun b => b.2.isNone)).foldl (fun l b => sins b.1 l) s.exited,
                    sat := s.sat || real.any (fun b => b.2.2.2) }
  wins.foldl (fun s b => s.award b.1 b.2.1 b.2.2.1) s

/-- Up to `n` rounds; answers the rounds used. -/
def Auction.rounds (m : CostMatrix) (eps : Int) : Nat → Auction → Auction × Nat
  | 0, s => (s, 0)
  | n + 1, s => if (s.active m).isEmpty then (s, 0) else
      let r := Auction.rounds m eps n (s.round m eps)
      (r.1, r.2 + 1)

/-- The start of a later phase: a row keeps its column only within ε of its best value (R294). -/
def Auction.release (m : CostMatrix) (eps : Int) (s : Auction) : Auction :=
  let drop := (List.range m.rows.length).filter (fun i =>
    decide (kget 0 s.col i ≠ 0) &&
      (let vs := s.values m i
       let own := ((vs.find? (fun x => x.1 == kget 0 s.col i - 1)).map Prod.snd).getD 0
       decide (own < vs.foldl (fun b x => max b x.2) 0 - eps)))
  drop.foldl (fun s i => { s with col := kset 0 s.col i 0, row := kset 0 s.row (kget 0 s.col i - 1) 0 }) s

/-- Settings of the auction (R294): initial and final ε, divider, phases, rounds. -/
structure AuctionSet where
  eps0 : Int
  epsF : Int
  div : Nat
  phases : Nat
  rounds : Nat
deriving DecidableEq, Repr

def Dev.auctionSet (d : Dev) : AuctionSet :=
  { eps0 := sgn 32 (d.cfg 0x6010 1), epsF := sgn 32 (d.cfg 0x6010 2), div := max 1 (d.cfg 0x6010 3), phases := d.cfg 0x6010 4,
    rounds := d.cfg 0x6010 5 }

/-- ε of phase p. -/
def AuctionSet.eps (a : AuctionSet) : Nat → Int
  | 0 => a.eps0
  | p + 1 => max a.epsF (a.eps p / a.div)

/-- Phase p with at most `n` rounds. -/
def Auction.phase (a : AuctionSet) (m : CostMatrix) (p n : Nat) (s : Auction) : Auction × Nat :=
  Auction.rounds m (a.eps p) n (if p = 0 then s else s.release m (a.eps p))

/-- Phases 0 to n − 1; answers the rounds used. -/
def Auction.run (a : AuctionSet) (m : CostMatrix) (n : Nat) : Auction × Nat :=
  (List.range n).foldl (fun s p => let r := s.1.phase a m p a.rounds; (r.1, s.2 + r.2)) (Auction.start, 0)

/-- R295, R323: the assignment after `done` phases and `total` rounds. -/
def Auction.cutAt (a : AuctionSet) (m : CostMatrix) (done total : Nat) : Auction :=
  let r := Auction.run a m done
  if total ≤ r.2 ∨ a.phases ≤ done then r.1 else (r.1.phase a m done (min a.rounds (total - r.2))).1

/-- Net cost of an assigned pair. -/
def CostMatrix.cost (m : CostMatrix) (i j : Nat) : Int := -(((m.rows.getD i []).find? (fun e => e.1 == j)).map Prod.snd).getD 0

/-- What an auction leaves for the update (R295): its result, status objects and causes. -/
def Dev.endAuction (d : Dev) (k : Nat) (m : CostMatrix) (s : Auction) (status : Nat) : Dev :=
  let cols := (List.range m.rows.length).map (fun i =>
    let c := kget 0 s.col i
    if c = 0 then none else some (c - 1, m.cost i (c - 1)))
  let open_ := (s.active m).length
  let d := d.modCand (fun x => { x with assigned := kset Assigned.reset x.assigned k { status := status, cols := cols, exited := s.exited },
                                        unresolved := x.unresolved + open_ })
  let d := (d.setObj (0x6001 + k) 0x12 [status]).setObj (0x6001 + k) 0x13 [satU 16 open_]
  let d := d.countN 0x6010 7 open_
  if status = 0 then d
  else (d.raise (0x0903 + status) k 0).classBits k (2 ^ (status - 1))

/-! ## The update (R285 to R287, R298 to R301) -/

/-- The updated state of an assigned track; none where it holds a NaN (R298). -/
def updateTrack (z : Detection) (pr : Prediction) (gains : List Nat) : Option (List Int × List Int) :=
  let y := innovation z pr.st
  let k := (List.range 6).map (fun i => (List.range 3).map (fun j => gains.getD (3 * i + j) 0))
  let m := detVars z
  let p := covMat pr.cov
  let x := (List.range 6).map (fun i => fadd (fOfDya (pr.st.getD i 0) (-16)) (fdot (k.getD i []) y))
  let a := mat6 (fun i j => fsub (if i = j then fOfInt 1 else 0) (if j < 3 then mAt k i j else 0))
  let km := k.map (fun r => List.zipWith fmul r m)
  let pn := fAddM (fMulM 6 (fMulM 6 a p) (fTr 6 a)) (fMulM 6 km (fTr 3 k))
  if x.any (fBad 24) || pn.any (fun r => r.any (fBad 24)) then none else some (x.map (fToFix 32 16), covOf pn)

/-- The 18 gain entries of block `b` of the update job, row by row of the 6 × 3 matrix K: right-hand side i of the block is row i of
K (R298; log 73). -/
def Dev.gainsOf (d : Dev) (own : Option Nat) (job : SolRef) (b : Nat) : List Nat :=
  (List.range 6).flatMap (fun i => (List.range 3).map (fun u => fOfDya (d.solValue own job u i b) (-(job.nX : Int))))

/-- A length in mm as Q15.16 m. -/
def mmToQ (v : Nat) : Int := rne (v * 65536) 1000

/-- Largest variance of three, from entry `first` of the diagonal. -/
def maxVar (cov : List Int) (first : Nat) : Int :=
  [first, first + 1, first + 2].foldl (fun m i => max m (cov.getD (triIdx i i) 0)) 0

/-- R285: position uncertainty above [6001.0F]. -/
def Dev.uncertain (d : Dev) (k : Nat) (cov : List Int) : Bool :=
  decide ((d.clsCfg k 0x0F * d.clsCfg k 0x0F * 2 ^ 24 : Nat) < maxVar cov 0 * 1000000)

/-- R285: the predicted position is more than the gate margin outside the grid, in x or y. -/
def Dev.outsideGrid (d : Dev) (k : Nat) (st : List Int) : Bool :=
  let o' := d.ccfgList 0x5010 6
  let m : Int := d.clsCfg k 9 * 2 ^ 24
  let e : Int := d.cellEdge * 2 ^ 24
  let far := fun (p lo n : Int) => decide (p * 256000 < lo * 1000 - m) || decide (lo * 1000 + n * e + m < p * 256000)
  far (st.getD 0 0) (sgn 32 (o'.getD 0 0)) d.gridX || far (st.getD 1 0) (sgn 32 (o'.getD 1 0)) d.gridY

/-- State and misses after a hit or a miss (R285). -/
def Dev.nextState (d : Dev) (k : Nat) (t : Track) (hit : Bool) : TrackState × Nat :=
  if hit then
    (if t.state = .tentative ∧ min 255 (t.hits + 1) < d.clsCfg k 5 then .tentative else .confirmed, 0)
  else match t.state with
    | .confirmed => (.coasting, 1)
    | .tentative => (if d.clsCfg k 6 ≤ t.misses + 1 then .retired else .tentative, min 255 (t.misses + 1))
    | s => (if d.clsCfg k 7 ≤ t.misses + 1 then .retired else s, min 255 (t.misses + 1))

/-- One live slot of a class: `row` is its assigned row with cost, detection and its row in the list; `upd` its updated
state; `only` says that it is a prediction-only track. -/
def Dev.stepTrack (d : Dev) (k cycle : Nat) (tv : Int) (t : Track) (pr : Prediction)
    (row : Option (Int × Nat × Detection)) (upd : Option (List Int × List Int)) (only : Bool) (app : List Nat) : Track :=
  let hit := upd.isSome
  let ns := d.nextState k t hit
  let t := match row with
    | some (_, i, _) => { t with detRow := i }
    | none => { t with detRow := 65535 }
  let t : Track := match upd, row with
    | some (st, cov), some (c, _, z) =>
      { t with st := st, cov := cov, hits := min 255 (t.hits + 1), lastHit := cycle, told := z.told, cost := c, conf := z.conf,
               ext := [mmToQ z.hx, mmToQ z.hy, mmToQ z.hz], app := app }
    | _, _ => { t with st := pr.st, cov := pr.cov }
  let gone := decide (2 ≤ pr.kind) || d.uncertain k t.cov || d.outsideGrid k pr.st
  { t with state := if gone then .retired else ns.1, misses := ns.2, predOnly := only, tv := tv, born := false }

/-- The next identity (R287): 0 and the identities live in the committed copy are skipped. -/
def nextId (live : List Nat) : Nat → Nat → Nat
  | 0, v => (v + 1) % 2 ^ 32
  | f + 1, v =>
    let n := (v + 1) % 2 ^ 32
    if n = 0 ∨ n ∈ live then nextId live f n else n

/-- Identities live in the committed copy. -/
def Dev.liveIds (d : Dev) : List Nat := (d.fusC.tracks.filter (fun x => x.2.state.live)).map (fun x => x.2.id)

/-- A new track (R286). -/
def Dev.bornTrack (d : Dev) (k id cycle : Nat) (tv : Int) (i : Nat) (z : Detection) (app : List Nat) : Track :=
  let v := fmul (d.clsMetres k 8) (d.clsMetres k 8)
  let m := detVars z
  { Track.reset with
    id := id, state := .tentative, cls := k, hits := 1, lastHit := cycle, tv := tv, told := z.told,
    st := [z.x, z.y, z.z, 0, 0, 0], ext := [mmToQ z.hx, mmToQ z.hy, mmToQ z.hz],
    cov := covOf (mat6 (fun a b => if a = b then (if a < 3 then m.getD a 0 else v) else 0)),
    detRow := i, conf := z.conf, app := app, born := true }

/-- Birth candidates of a class in order: exited rows with enough CONF, by CONF descending, ties to the lower row (R286). -/
def Dev.birthRows (d : Dev) (k : Nat) (kept : List (Nat × Detection)) (exited : List Nat) : List (Nat × Detection) :=
  let c := (exited.filterMap (fun i => kept[i]?)).filter (fun z => decide (d.clsCfg k 0x10 ≤ z.2.conf))
  c.mergeSort (fun a b => decide (b.2.conf < a.2.conf) || (a.2.conf == b.2.conf && decide (a.1 ≤ b.1)))

/-- APP of the detection of row `i`, which the program holds at `app` (R283). -/
def Dev.appOf (d : Dev) (own : Option Nat) (app i : Nat) (old : List Nat) : List Nat :=
  if app = 0 then old else (d.loadA own (app + 72 * i) 72).map BitVec.toNat

/-- Births of a class. -/
def Dev.births (d : Dev) (own : Option Nat) (k cycle : Nat) (tv : Int) (app : Nat) (rows : List (Nat × Detection)) : Dev :=
  let free := ((List.range (d.clsCount k)).map (fun j => d.clsBase k + j)).filter (fun j => decide ((d.fusN.track j).state = .free))
  let live := d.liveIds
  let d := (rows.zip free).foldl (fun d x =>
    let id := d.fusN.nextId
    let t := d.bornTrack k id cycle tv x.1.1 x.1.2 (d.appOf own app x.1.1 [])
    (d.modFusN (fun f => { f.setTrack x.2 t with nextId := nextId live (live.length + 1) id })).modCand (fun c =>
      { c with births := c.births + 1 })) d
  let lost := rows.length - free.length
  if 0 < lost then ((d.raise 0x0901 k 0).occurN (0x6001 + k) 0x16 lost).classBits k 16 else d

/-- Prediction-only tracks are counted; the first of a cycle raises 0x0907 (R300). -/
def Dev.countPredOnly (d : Dev) (k n : Nat) : Dev :=
  if n = 0 then d
  else
    let d := if d.fus.cand.predRaised then d else (d.modCand (fun c => { c with predRaised := true })).raise 0x0907 0 0
    ((d.occurN 0x6000 6 n).classBits k 32).modCand (fun c => { c with predOnly := c.predOnly + n })

/-- The update step of a class (R285, R298 to R301). -/
def Dev.updateClass (d : Dev) (own : Option Nat) (k : Nat) (job : SolRef) (app : Nat) : Dev :=
  match d.computing with
  | none => d
  | some c =>
    let kept := kget [] d.fus.cand.dets k
    let asg := kget Assigned.reset d.fus.cand.assigned k
    let degraded := decide (asg.status = 3)
    let cols := if degraded then [] else asg.cols
    let stale := d.solStatus own job == 4
    let rowOf := fun (j : Nat) => cols.findIdx? (fun x => match x with | some y => y.1 == j | none => false)
    let one := fun (d : Dev) (j : Nat) =>
      let slot := d.clsBase k + j
      let t := d.fusC.track slot
      if t.state.live then
        let pr := if (d.predictedOf slot).kind = 0 then { st := t.st, cov := t.cov, kind := 1 } else d.predictedOf slot
        let row := (rowOf j).bind (fun i => match kept[i]?, (cols.getD i none) with
          | some z, some y => some (i, y.2, z.1, z.2)
          | _, _ => none)
        let upd := row.bind (fun r =>
          let b := ((cols.take r.1).filter Option.isSome).length
          if stale || d.blockDegraded own job b then none else updateTrack r.2.2.2 pr (d.gainsOf own job b))
        let only := degraded || (row.isSome && upd.isNone)
        let a := match row with | some r => d.appOf own app r.2.2.1 t.app | none => t.app
        d.modFusN (fun f => f.setTrack slot (d.stepTrack k c.number c.tv t pr (row.map (fun r => r.2)) upd only a))
      else d.modFusN (fun f => f.setTrack slot Track.reset)
    let d := (List.range (d.clsCount k)).foldl one d
    let n := ((List.range (d.clsCount k)).filter (fun j => (d.fusN.track (d.clsBase k + j)).predOnly)).length
    let d := d.countPredOnly k n
    if degraded then d else d.births own k c.number c.tv app (d.birthRows k kept asg.exited)

/-- R298: PARENT_ID of a slot that took a detection in cycle `c`. -/
def Dev.parentOf (d : Dev) (c : Nat) (t : Track) : Nat :=
  let pc := d.clsCfg t.cls 0x18
  match (kget [] d.fus.cand.dets t.cls).find? (fun z => z.1 == t.detRow) with
  | some z =>
    if z.2.parentRow = 65535 ∨ 8 ≤ pc then 0
    else (((d.fusN.tracks.filter (fun x => x.2.cls == pc && x.2.detRow == z.2.parentRow &&
        (x.2.lastHit == c || x.2.predOnly))).head?).map (fun x => x.2.id)).getD 0
  | none => 0

/-- The parents of every slot that a hit or a birth of the cycle wrote (R298). -/
def Dev.resolveParents (d : Dev) (c : Nat) : Dev :=
  let f := d.fusN
  let ts := f.tracks.map (fun x => (x.1, if x.2.lastHit = c ∧ x.2.detRow ≠ 65535 then { x.2 with parent := d.parentOf c x.2 } else x.2))
  d.modFusN (fun f => { f with tracks := ts })

/-- Live tracks of a class in the committed copy ([6001.17]). -/
def Dev.liveTracks (d : Dev) (k : Nat) : Nat :=
  (d.fusC.tracks.filter (fun x => x.2.cls == k && x.2.state.live)).length

end Sys2Proof.Machine
end

