-- ==== Sys2Proof/Machine/Pip.lean ====
section
/-! DEFINITION. Pip steps: start, end, overrun, the pair compare, the contract steps whose results the manual fixes, and the
safety summary (04_pods_and_arithmetic.md R111 to R114; R248, R337, R338, R344). -/

namespace Sys2Proof.Machine

open Sys2Proof

/-! ## The record header (R248) -/

/-- W0 of every output record, over a copy of fusion state. -/
def Dev.recordHeader (d : Dev) (f : Fusion) (c : CycleCtx) : Word :=
  packW [(48, c.number), (2, c.tstate.code), (1, 0), (1, b2n c.excursion), (1, b2n (decide (0 < f.unknown))),
    (1, b2n (decide (d.cfg 0x5010 0x0A = 1))), (1, b2n d.fus.maskChange), (1, b2n (f.calib.any (fun x => x.2.rotAt || x.2.trAt))), (8, 0)]

/-! ## The safety summary (R337, R338, R344) -/

/-- A cell's state counts as occupied for the safety evaluation (R231). -/
def occupiedState (s : Nat) : Bool := decide (s ≠ 0)

/-- A position in the cell frame as a zone point. -/
def zonePoint (st : List Int) : Int × Int := (st.getD 0 0 * 1000 * 2 ^ 9, st.getD 1 0 * 1000 * 2 ^ 9)

/-- A track's position lies in a zone (R338, R344). -/
def Dev.trackInZone (d : Dev) (z : Nat) (t : Track) : Bool := inPolygon (d.zonePts z) (zonePoint t.st)

/-- Cells of a zone that count as occupied. -/
def Dev.occCells (d : Dev) (z : Nat) : Nat :=
  ((List.range (d.gridX * d.gridY)).filter (fun i => occupiedState (d.fusN.cell i).state && d.inZone z i)).length

/-- Live tracks of safety classes in a zone. -/
def Dev.safeTracks (d : Dev) (z : Nat) : Nat :=
  (d.fusN.tracks.filter (fun x => x.2.state.live && d.clsCfg x.2.cls 0x11 == 1 && d.trackInZone z x.2)).length

/-- Root of the largest of three variances in mm or mm/s, rounded up, held to 16 bits (R303, R550). -/
def sigmaMm (cov : List Int) (first : Nat) : Nat := satU 16 (isqrtUp (ceilDiv ((maxVar cov first).toNat * 1000000) (2 ^ 24)))

/-- Speed of a track in mm/s, rounded up (log 27). -/
def speedMm (t : Track) : Nat := isqrtUp (ceilDiv (sumSq [t.st.getD 3 0, t.st.getD 4 0, t.st.getD 5 0] * 1000000) (2 ^ 32))

/-- The human side of a pair is there (R338). -/
def Dev.humanThere (d : Dev) (p : Nat) : Bool :=
  let z := d.cfg (0x7400 + p) 2
  if d.cfg (0x7400 + p) 1 = 1 then decide (0 < d.occCells z)
  else d.fusN.tracks.any (fun x => x.2.state.live && x.2.cls == d.cfg (0x7400 + p) 3 && d.trackInZone z x.2)

/-- A pair's entry: the separation and the nearest track are the machine model's, the rest follows R338. -/
def Dev.pairEntry (d : Dev) (p : Nat) (e : PairEntry) : PairEntry :=
  if d.pairOn p = false then { dist := 0, vh := 0, sigma := 0, trackId := 0, predOnly := false }
  else if d.humanThere p = false then PairEntry.reset
  else if d.cfg (0x7400 + p) 1 = 1 then { dist := min e.dist 0xFFFFFFFE, vh := 0, sigma := 0, trackId := 0, predOnly := false }
  else
    match (d.fusN.tracks.find? (fun x => x.2.id == e.trackId && x.2.state.live)).map Prod.snd with
    | some t =>
      { dist := min e.dist 0xFFFFFFFE, trackId := e.trackId, predOnly := t.predOnly, sigma := sigmaMm t.cov 0,
        vh := satU 16 (speedMm t + ceilDiv (d.cfg (0x7400 + p) 0x0E * sigmaMm t.cov 3) 16) }
    | none => { e with dist := min e.dist 0xFFFFFFFE }

/-- What the machine model has left for a pair: the separation in [63:32] and the nearest track in [31:0] of its word (log 73). -/
def Dev.modelPair (d : Dev) (own : Option Nat) (src p : Nat) : PairEntry :=
  let w := d.loadW own (src + 8 * p)
  { dist := wfld w 63 32, vh := 0, sigma := 0, trackId := wfld w 31 0, predOnly := false }

/-- The 4,640 bytes of the summary (R344). -/
def Dev.summaryOf (d : Dev) (own : Option Nat) (c : CycleCtx) (src : Nat) : List Byte :=
  let zone := fun (z : Nat) =>
    if d.zoneOn z then packW [(32, d.occCells z), (16, satU 16 (d.safeTracks z)), (16, 0)] else 0
  let pair := fun (p : Nat) =>
    let e := d.pairEntry p (d.modelPair own src p)
    [packW [(32, e.trackId), (16, 0), (1, b2n e.predOnly), (15, 0)], packW [(32, e.dist), (16, e.vh), (16, e.sigma)]]
  let body := wordsLe ([(d.commitGrid).recordHeader d.fusN c, BitVec.ofInt 64 c.tv, packW [(32, (d.hull.g + 1).toNat), (32, 0)]] ++
    (List.range 64).map zone ++ (List.range 256).flatMap pair)
  body ++ wordsLe [packW [(32, 0), (32, (crc32c body).toNat)]]

/-! ## The contract steps -/

/-- Runs the step's own work; answers its cause, 0 where the outputs are good. -/
def Dev.pipWork (d : Dev) (own : Option Nat) (out len : Nat) (w : PipWork) : Dev × Nat :=
  match d.computing with
  | none => (d, 0)
  | some c =>
    match w with
    | .program => (d, 0)
    | .lift n g levels dst => (d.liftRegion own n.val g levels dst, 0)
    | .cellState ev occ => (d.cellState (ev.map (d.evidence own)) (d.occupancy own occ), 0)
    | .healthChecks ev => (d.healthChecks (ev.map (d.evidence own)), 0)
    | .calibrate steps => (steps.foldl (fun d s => d.calibrateOne own s) d, 0)
    | .encode g tok kv4 src dst sc => (d.encodeBlock own g tok kv4 src dst sc, 0)
    | .widen bf16 kv4 n src sc dst => (d.widenBlocks own bf16 kv4 n src sc dst, 0)
    | .softmax rows first keys scores masks stats =>
      let x := d.softmaxRows own rows first keys scores masks stats
      (x.1.storeA own out (x.2.take len), 0)
    | .readRecord g k crc => if recordCrc (d.kvRec g k) = crc then (d, 0) else (d.raise 0x0806 g k, 0x0806)
    | .buildMask g head q =>
      let bits := d.maskBits c.number g head q
      let d := d.storeA own out ((bitBytes 1 bits).take len)
      (if bits.any (fun b => b) then d else d.count 0x5800 0x17, 0)
    | .merge segs n ty dst => (d.storeA own dst (outBytes ty (mergeSegs (d.loadSegs own segs n))), 0)
    | .predict k up => d.readSlots d.fusC (d.clsSlots k.val) up (fun d => d.predictClass k.val)
    | .costs k list first n dst up => d.readSlots d.fusC (d.clsSlots k.val) up (fun d => d.buildCosts own k.val list first n dst)
    | .update k job app up => d.readSlots d.fusC (d.clsSlots k.val) up (fun d => d.updateClass own k.val job app)
    | .summary src dst up => d.readSlots d.fusN (List.range 12288) up (fun d => d.storeA own dst (d.summaryOf own c src))

/-! ## Start and end (R111 to R114, R118, R156, R178) -/

/-- Bytes that a step's work writes besides its output: address and count. -/
def Dev.workDests (d : Dev) : PipWork → List (Nat × Nat)
  | .encode _ _ kv4 _ dst scale => [(dst, if kv4 then 16 else 32), (scale, 2)]
  | .widen bf16 _ n _ _ dst => [(dst, (if bf16 then 64 else 33) * n)]
  | .softmax rows _ _ _ _ stats => [(stats, 8 * rows)]
  | .merge _ n ty dst => [(dst, (outBytes ty (List.replicate n 0)).length)]
  | .costs k _ _ _ dst _ => [(dst, 12 + 4 * d.clsCfg k.val 3 + 8 * d.clsCfg k.val 3 * d.clsCfg k.val 4)]
  | .summary _ dst _ => [(dst, 4640)]
  | _ => []

/-- Bytes that a step's work reads besides its inputs: address and count. -/
def Dev.workReads (d : Dev) : PipWork → List (Nat × Nat)
  | .encode _ _ _ src _ _ => [(src, 64)]
  | .widen _ kv4 n src scale _ => [(src, (if kv4 then 16 else 32) * n), (scale, 2 * n)]
  | .softmax rows _ keys scores masks _ => [(scores, 2 * rows * keys), (masks, rows * ceilDiv d.maskLen 8)]
  | .merge segs n _ _ => segs.flatMap (fun s => [(s.1, 8), (s.2, 2 * n)])
  | .calibrate steps => steps.flatMap (fun s => [(s.stats, 8), (s.ref.cpl, 40)])
  | .summary src _ _ => [(src, 2048)]
  | .update k job app _ => (job.cpl, 40) :: (if app = 0 then [] else [(app, 72 * d.clsCfg k.val 3)])
  | _ => []

/-- The tensor that a step's work writes besides its output. -/
def workWrites : PipWork → List Nat
  | .lift _ _ _ dst => [dst]
  | _ => []

/-- Descriptors of a solver's result: the candidate copy's and the block status tensor's. -/
def solTensors (bank : Nat) (s : SolRef) : List Nat := (s.sol + 96 * bank) :: (if s.aux = 0 then [] else [s.aux])

/-- Tensors that a step's work reads besides its inputs: addresses of their descriptors. -/
def Dev.workTensors (d : Dev) : PipWork → List Nat
  | .lift _ _ levels _ => levels
  | .cellState ev occ => ev.flatMap (fun x => x.levels ++ x.planes) ++ occ
  | .healthChecks ev => ev.flatMap (fun x => x.levels ++ x.planes)
  | .calibrate steps => steps.flatMap (fun s => solTensors d.candBank s.ref)
  | .costs _ list _ _ _ _ => [list]
  | .update _ job _ _ => solTensors d.candBank job
  | _ => []

/-- `n` bytes lie in the step's own scratchpad (R111). -/
def pipReach (l a n : Nat) : Bool :=
  (fld a 47 44 == 0 || (fld a 47 44 == 1 && fld a 43 39 == l)) && fld a 38 24 == 0 && (fld a 47 44 == 1 || fld a 43 39 == 0) &&
    decide (fld a 23 0 + n ≤ 12 * 2 ^ 20)

/-- Every byte that a step names lies in its own scratchpad (R111). -/
def Dev.pipAccess (d : Dev) (l : Nat) (s : PipStep) : Bool :=
  let own := some l
  pipReach l s.outAddr s.outLen && pipReach l s.outDesc 80 && (s.inputs ++ d.workTensors s.work ++ workWrites s.work).all (fun a => pipReach l a 80 &&
    ((d.tdescAt own a).boxRows [0, 0, 0, 0, 0] ((d.tdescAt own a).ext.map Int.ofNat)).all (fun r => pipReach l r.1 r.2)) &&
    (d.workReads s.work ++ d.workDests s.work).all (fun x => pipReach l x.1 x.2)

/-- Cause a step is refused with as it starts, 0 where it runs (R111, R126, R156). -/
def Dev.pipRefusal (d : Dev) (l : Nat) (s : PipStep) (forbidden : Bool) : Nat :=
  let own := some l
  if forbidden || !d.pipAccess l s then 0x030B
  else if !((s.inputs ++ [s.outDesc]).all (fun a => d.inWindow own (d.tdescAt own a))) then 0x0502
  else if timesMismatch s.mixing (d.inputTimes own s.inputs) then 0x0406
  else 0

def pipStep (l : Nat) (s : PipStep) (forbidden : Bool) (d : Dev) : Dev :=
  match d.physOf l, d.starts l 2 s.number with
  | some p, some i =>
    -- steps of class S or F are checked (R178), and so are those whose output reaches the candidate generation (R114)
    let s := { s with checked := s.checked || decide (entryClass (d.entry l i) ≤ 1) || decide (s.work ≠ .program) }
    if (d.pod p).state = .active ∧ (pipCores s).all (fun c => (d.stepOn p c).isNone) = true then
      let r : RunStep := { step := s, ticket := d.ticket l i, tick := d.tick }
      let c := d.pipRefusal l s forbidden
      let d := d.startEntry l i
      if c ≠ 0 then (d.raise c p (pipFirst s)).endPip l p r c
      else d.modPod p (fun x => { x with cores := (pipCores s).foldl (fun m c => kset none m c (some r)) x.cores })
    else d
  | _, _ => d

/-- PIP_STEP (R111, R114, R126, R156, R178, R202): the core or the pair of a ready entry's step starts; an access outside R111, of the
operands or of the code (`forbidden`), stops the step with 0x030B. -/
def execPipStep (l : Fin 24) (p : PipStep) (forbidden : Bool) (s : State) : Out := s.next (pipStep l p forbidden s.dev)

/-- Words of two streams up to the first difference (R114). -/
def agreeing (a b : List Byte) : List Byte :=
  ((List.range (ceilDiv (max a.length b.length) 8)).takeWhile (fun i => (a.drop (8 * i)).take 8 == (b.drop (8 * i)).take 8)).flatMap
    (fun i => (a.drop (8 * i)).take 8)

/-- Keys of the input bytes of a step. -/
def Dev.pipKeys (d : Dev) (l : Nat) (s : PipStep) : List (Nat × Nat) :=
  (s.inputs ++ d.workTensors s.work).flatMap (fun a => d.tensorKeys (some l) (d.tdescAt (some l) a)) ++ d.rowKeys (some l) (d.workReads s.work)

/-- The result bytes of program code: a function of the package, the step and its input bytes (R118, R176); free where an input carries
poison. -/
def Dev.pipBytes (d : Dev) (l : Nat) (s : PipStep) (poison : Bool) : List Byte :=
  if poison then (List.range s.outLen).map (fun i => BitVec.ofNat 8 (Config.freeValue (2 ^ 21 + i) d.free))
  else
    let ins := (d.pipKeys l s).flatMap (fun r => d.mem.readN r.1 (r.2 - r.1))
    let dg := match d.prog.prog with | some p => p.digest | none => 0
    let res := Config.pipResult dg s.number ins
    (List.range s.outLen).map (fun i => res.getD i 0)

/-- The results of a program step: held in the local memories of a checked step's cores and compared, or written as the one core has them
(R114). Answers whether the compare unit saw a difference. -/
def Dev.pipOutput (d : Dev) (l p : Nat) (s : PipStep) (flips : List Byte) (poison : Bool) : Dev × Bool :=
  let a := d.pipBytes l s poison
  let b := flipBytes a flips
  if s.checked then
    let d := (d.store (pipKey p (pipFirst s) s.localAt) a).store (pipKey p (pipFirst s + 1) s.localAt) b
    (d.storeA (some l) s.outAddr (agreeing a b), a != b)
  else (d.storeA (some l) s.outAddr b, false)

def pipStepComplete (l core : Nat) (flips : List Byte) (ecc : List EccEvent) (d : Dev) : Dev :=
  match d.physOf l with
  | some p =>
    match d.stepOn p core with
    | some r =>
      let s := r.step
      let x := d.readKeys (d.pipKeys l s) ecc
      let y := if s.work = .program then x.1.pipOutput l p s flips (decide (x.2 ≠ 0)) else (x.1, s.checked && flips.any (· != 0))
      let d := (y.1.raiseIf y.2 0x0307 p (pipFirst s)).bumpFree
      let early := if x.2 ≠ 0 then x.2 else if y.2 then 0x0307 else 0
      let z := if early ≠ 0 then (d, early) else d.pipWork (some l) s.outAddr s.outLen s.work
      z.1.endPip l p r z.2
    | none => d
  | none => d

/-- PIP_STEP_COMPLETE (R108, R114, R118, R126, R148, and the rules of each contract step): the two cores' results, of which `flips` says
where the second core's bits differ, are compared and written; the step's own work is done, the output's descriptor follows and the entry's
sync object is signalled. -/
def execPipStepComplete (l : Fin 24) (core : Fin 4) (flips : List Byte) (ecc : List EccEvent) (s : State) : Out :=
  s.next (pipStepComplete l core flips ecc s.dev)

def pipOverrun (l core : Nat) (d : Dev) : Dev :=
  match d.physOf l with
  | some p => (match d.stepOn p core with
    | some r =>
      -- at most 1.4 GHz: 7 clocks in 2 ticks
      if 2 * r.step.wcet ≤ 7 * (d.tick - r.tick) then (d.raise 0x0306 p (pipFirst r.step)).endPip l p r 0x0306 else d
    | none => d)
  | none => d

/-- PIP_OVERRUN (R113): the step that has had its worst-case clock count is stopped, the outputs of its entry FAULTED. -/
def execPipOverrun (l : Fin 24) (core : Fin 4) (s : State) : Out := s.next (pipOverrun l core s.dev)

end Sys2Proof.Machine
end

