-- ==== Sys2Proof/Machine/Streams.lean ====
section
/-! DEFINITION. Output records and streams: grid summary, track record, planes, the stream budget, fragments and the
recorder's copies (R248 to R250, R302, R303, R399, R412 to R415, R498 to R502, R550). -/

namespace Sys2Proof.Machine

open Sys2Proof

/-! ## Records (R248, R249, R302, R303) -/

/-- An age in whole µs, rounded up, held to 32 bits; never below 0 (R550). -/
def ageUs (tv t : Int) : Nat := satU 32 (ceilDiv (tv - t).toNat 1000)

/-- Largest age of a set of cells; 0xFFFFFFFF where a cell was never observed (R246, R248, R249). -/
def obsMax (f : Fusion) (tv : Int) (cells : List Nat) : Nat :=
  cells.foldl (fun m i => max m (match (f.cell i).tobs with | some t => ageUs tv t | none => 0xFFFFFFFF)) 0

/-- Number of cells in a state. -/
def countState (f : Fusion) (s : Nat) (cells : List Nat) : Nat := (cells.filter (fun i => (f.cell i).state == s)).length

/-- Cells of the grid. -/
def Dev.allCells (d : Dev) : List Nat := List.range (d.gridX * d.gridY)

/-- T_OLD of the grid summary: the smallest of the regions. -/
def Dev.gridTold (d : Dev) (tv : Int) : Int :=
  (minTime ((List.range d.regions).map (fun g => kget 0 d.fus.cand.regionTold g))).getD tv

/-- What the slots delivered to a cycle. -/
def Dev.delivOf (d : Dev) (c : Nat) : Deliv := kget Deliv.reset d.intake.deliv c

/-- Slots of the late samples that entered a cycle: those of excluded streams take no part (R244). -/
def Dev.lateIn (d : Dev) (c : CycleCtx) : List Nat := (d.delivOf c.number).lates.filter (fun n => !d.excluded n)

/-- W5 of the grid summary: contributing, masked, excluded and late slots. -/
def Dev.slotMasks (d : Dev) (c : CycleCtx) : Word :=
  packW [(16, maskOf (d.delivOf c.number).slots), (16, c.masked.toNat), (16, d.fus.cand.excluded.toNat), (16, maskOf (d.lateIn c))]

/-- One region entry (R249): its upper word first. -/
def Dev.regionEntry (d : Dev) (f : Fusion) (tv : Int) (g : Nat) : List Word :=
  let cells := d.cellsOf g
  let mon := cells.filter (fun i => d.monitored.contains i)
  let unk := countState f 3 mon
  let con := countState f 2 cells
  [packW [(32, ageUs tv (kget 0 d.fus.cand.regionTold g)), (32, obsMax f tv mon)],
   packW [(8, mon.foldl (fun m i => min m (f.cell i).conf) 255), (1, b2n (decide (0 < unk))), (1, b2n (decide (0 < con))),
          (1, b2n (d.fus.cand.lateRegions.contains g)), (5, 0), (16, satU 16 con), (16, satU 16 unk), (16, satU 16 (countState f 1 cells))]]

/-- The grid summary record with T_O and AGE still 0 (R248, R249). -/
def Dev.gridRecord (d : Dev) (f : Fusion) (c : CycleCtx) : List Word :=
  let v := d.delivOf c.number
  [d.recordHeader f c, BitVec.ofInt 64 c.tv, BitVec.ofInt 64 (d.gridTold c.tv), 0, 0, d.slotMasks c,
   packW [(16, satU 16 (d.lateIn c).length), (16, satU 16 v.poison), (32, countState f 2 d.allCells)],
   packW [(32, f.unknown), (32, countState f 1 d.allCells)],
   packW [(16, d.gridX), (16, d.gridY), (16, d.cellEdge), (8, d.regions), (8, 0)],
   packW [(32, obsMax f c.tv d.monitored), (32, 0)]] ++ (List.range d.regions).flatMap (d.regionEntry f c.tv)

/-- A Q15.16 length in mm, rounded up, held to 16 bits (R550). -/
def extMm (q : Int) : Nat := satU 16 (ceilDiv (q.toNat * 1000) 65536)

/-- One track entry (R303). The instant of LAST_HIT_CYCLE lies whole periods before T_V. -/
def Dev.trackEntry (d : Dev) (c : CycleCtx) (t : Track) : List Word :=
  let p := fun (i : Nat) => packW [(32, pat 32 (t.st.getD (2 * i) 0)), (32, pat 32 (t.st.getD (2 * i + 1) 0))]
  [packW [(32, t.id), (4, t.state.code), (4, t.cls), (1, b2n t.predOnly), (1, b2n t.born), (6, 0), (8, t.hits), (8, t.misses)],
   p 0, p 1, p 2,
   packW [(16, extMm (t.ext.getD 0 0)), (16, extMm (t.ext.getD 1 0)), (16, extMm (t.ext.getD 2 0)), (16, sigmaMm t.cov 0)],
   packW [(32, t.parent), (16, sigmaMm t.cov 3), (16, 0)],
   packW [(32, ageUs c.tv t.told), (32, satU 32 (ceilDiv ((c.number - t.lastHit) * d.period) 1000))],
   packW [(8, t.conf), (56, 0)]]

/-- Slots of a copy in class and slot order. -/
def Dev.slotsInOrder (d : Dev) (f : Fusion) : List Track :=
  (List.range (d.cfg 0x6000 2)).flatMap (fun k => (List.range (d.clsCount k)).map (fun j => f.track (d.clsBase k + j)))

/-- A track that takes an entry: CONFIRMED, COASTING or just RETIRED; TENTATIVE with [6000.03]. -/
def Track.listed (tentative : Bool) (t : Track) : Bool :=
  t.state == .confirmed || t.state == .coasting || t.state == .retired || (tentative && t.state == .tentative)

/-- The track record with T_O and AGE still 0 (R302). -/
def Dev.trackRecord (d : Dev) (f : Fusion) (c : CycleCtx) (tentative : Bool) (limit : Nat) : List Word :=
  let ts := d.slotsInOrder f
  let n := fun (s : TrackState) => satU 16 (ts.filter (fun t => t.state == s)).length
  let es := (ts.filter (Track.listed tentative)).take limit
  let k := d.fus.cand
  [d.recordHeader f c, BitVec.ofInt 64 c.tv, BitVec.ofInt 64 ((minTime (es.map Track.told)).getD c.tv), 0, 0,
   packW [(16, n .confirmed), (16, n .coasting), (16, n .tentative), (16, n .retired)],
   packW [(16, satU 16 k.predOnly), (16, satU 16 k.unresolved), (16, satU 16 k.births), (16, es.length)],
   packW ((List.range 8).reverse.map (fun i => (8, kget 0 k.classStatus i)))] ++ es.flatMap (d.trackEntry c)

/-- The prefix of planes and emit outputs: W0 to W4 (R412). -/
def Dev.prefixOf (d : Dev) (f : Fusion) (c : CycleCtx) : List Word :=
  [d.recordHeader f c, BitVec.ofInt 64 c.tv, BitVec.ofInt 64 (d.gridTold c.tv), 0, 0]

/-- Four cells of the state plane as a byte (R249). -/
def stateByte (f : Fusion) (i : Nat) : Byte :=
  BitVec.ofNat 8 ((List.range 4).foldl (fun a k => a + (f.cell (4 * i + k)).state % 4 * 4 ^ k) 0)

/-- The cell state plane. -/
def Dev.statePlane (d : Dev) (f : Fusion) : List Byte := (List.range (d.gridX * d.gridY / 4)).map (stateByte f)

/-- The fused confidence plane. -/
def Dev.confPlane (d : Dev) (f : Fusion) : List Byte := d.allCells.map (fun i => BitVec.ofNat 8 (f.cell i).conf)

/-- One cell of the time plane (R247), in units of 100 µs. -/
def Dev.timeCell (d : Dev) (f : Fusion) (tv : Int) (i : Nat) : Nat :=
  let u := fun (t : Int) => satU 16 (ceilDiv (tv - t).toNat 100000)
  let old := if d.cfg 0x5010 0x0A = 1 then 0 else match (f.cell i).told with | some t => u t | none => 0
  packN [(16, old), (16, match (f.cell i).tobs with | some t => u t | none => 0xFFFF)]

/-- The cell time plane. -/
def Dev.timePlane (d : Dev) (f : Fusion) (tv : Int) : List Byte := d.allCells.flatMap (fun i => beBytes 4 (d.timeCell f tv i))

/-- The record of a stream's content, T_O and AGE still 0; words and planes are big-endian (log 28). -/
def Dev.recordOf (d : Dev) (f : Fusion) (c : CycleCtx) (content emit : Nat) : List Byte :=
  match content with
  | 1 => wordsBe (d.gridRecord f c)
  | 2 => wordsBe (d.trackRecord f c (decide (d.cfg 0x6000 3 = 1)) 65535)
  | 3 => wordsBe (d.prefixOf f c) ++ d.statePlane f
  | 4 => wordsBe (d.prefixOf f c) ++ d.confPlane f
  | 5 => wordsBe (d.prefixOf f c) ++ d.timePlane f c.tv
  | 6 => wordsBe (d.prefixOf f c) ++ (match d.prog.prog.bind (fun p => p.emits.find? (fun e => e.1 == emit)) with
    | some e => d.loadA none e.2.1 e.2.2
    | none => [])
  | _ => []

/-- The record of a discarded cycle: only CYCLE, TSTATE, DISCARDED and T_V (R250, R302, R414). -/
def discardedRecord (c : CycleCtx) (content : Nat) : List Byte :=
  let n := match content with | 1 => 10 | 2 => 8 | _ => 5
  wordsBe ([packW [(48, c.number), (2, c.tstate.code), (1, 1), (13, 0)], BitVec.ofInt 64 c.tv] ++ List.replicate (n - 2) 0)

/-- Writes T_O and AGE (R250); a discarded record has no AGE. -/
def stampRecord (t_o : Nat) (discarded : Bool) (l : List Byte) : List Byte :=
  let told := beNat ((l.drop 16).take 8)
  let age : Int := (t_o : Int) - told
  l.take 24 ++ beBytes 8 t_o ++ beBytes 8 (if discarded then 0 else pat 64 age) ++ l.drop 40

/-! ## The stream budget (R415) -/

/-- Bytes of a stream's record at its largest (R412, R415). -/
def Dev.largestRecord (d : Dev) (s : Nat) : Nat :=
  let cells := d.gridX * d.gridY
  match d.cfg (0x1100 + s) 2 with
  | 1 => 80 + 16 * d.regions
  | 2 => 64 + 64 * ((List.range (d.cfg 0x6000 2)).map d.clsCount).sum
  | 3 => 40 + cells / 4
  | 4 => 40 + cells
  | 5 => 40 + 4 * cells
  | 6 => 40 + (match d.prog.prog.bind (fun p => p.emits.find? (fun e => e.1 == d.cfg (0x1100 + s) 7)) with
    | some e => e.2.2
    | none => 0)
  | _ => 0

/-- Fragments of a record (R413). -/
def fragCount (n : Nat) : Nat := max 1 (ceilDiv n 1408)

/-- A stream's destination is an IPv4 address in the mapped form (R400). -/
def Dev.streamV4 (d : Dev) (s : Nat) : Bool := (d.cfgList (0x1100 + s) 4).take 12 == List.replicate 10 0 ++ [255, 255]

/-- Wire bytes of a stream's record on a port (R415). -/
def Dev.wireBytes (d : Dev) (s port n : Nat) : Nat :=
  let h := if d.streamV4 s then 20 else 40
  let e := if port < 2 ∧ d.cfg (0x1011 + port) 7 ≠ 0 then 42 else 38
  n + fragCount n * (24 + 8 + h + e)

/-- Enabled streams. -/
def Dev.streamsOn (d : Dev) : List Nat := (List.range 64).filter (fun s => decide (d.cfg (0x1100 + s) 1 ≠ 0))

/-- Ports of a stream: HOST0 0, HOST1 1, SPI target 2 ([1100.03]). -/
def Dev.streamPorts (d : Dev) (s : Nat) : List Nat :=
  match d.cfg (0x1100 + s) 3 with | 0 => [0] | 1 => [1] | 2 => [0, 1] | _ => [2]

/-- Divider of a stream. -/
def Dev.streamDiv (d : Dev) (s : Nat) : Nat := max 1 (d.cfg (0x1100 + s) 6)

/-- Load of a stream on a port in bit/s × period in ns, before the division by the divider: wire bits × 10^9 over P. -/
def Dev.streamBits (d : Dev) (s port : Nat) : Nat := d.wireBytes s port (d.largestRecord s) * 8 * 1000000000

/-- [1100.0A] in kb/s, rounded up, on the stream's first port (log 28). -/
def Dev.streamLoad (d : Dev) (s : Nat) : Nat :=
  if d.cfg (0x1100 + s) 1 = 0 then 0
  else satU 32 (ceilDiv (d.streamBits s ((d.streamPorts s).headD 0)) (max 1 d.period * d.streamDiv s * 1000))

/-- A port's stream load is over its budget in Mb/s, exactly: the loads over a common denominator. -/
def Dev.overBudget (d : Dev) (port : Nat) : Bool :=
  let ss := d.streamsOn.filter (fun s => (d.streamPorts s).contains port)
  let den := ss.foldl (fun m s => m * d.streamDiv s) 1
  let num := (ss.map (fun s => d.streamBits s port * (den / d.streamDiv s))).sum
  let budget := if port < 2 then d.cfg (0x1011 + port) 0x0A else 40
  decide (budget * 1000000 * (max 1 d.period * den) < num)

/-- The time check of R415 fails on a port, in units of 10 ns. -/
def Dev.overTime (d : Dev) (port : Nat) : Bool :=
  let n := (d.streamsOn.filter (fun s => (d.streamPorts s).contains port)).length
  let commit := match d.prog.prog with | some p => p.commitUs | none => 0
  decide ((d.cfg 0x5000 2 + 4000) * 100 < commit * 100 + (n + 1) * 1218)

/-- R415 refuses entry to RUN. -/
def Dev.streamsRefused (d : Dev) : Bool := [0, 1, 2].any (fun p => d.overBudget p || d.overTime p)

/-! ## Due records (R414) -/

/-- A due record on one port: dropped and counted when the port is down or the stream's previous record is still being
sent. -/
def Dev.queueRecord (d : Dev) (s : Nat) (r : OutRecord) (port : Nat) : Dev :=
  if (port < 2 ∧ d.palca.up.contains port = false) ∨ d.palca.sending.any (fun x => x.stream == s && x.port == port) = true then
    d.occur (0x1100 + s) 9
  else { d with palca := { d.palca with sending := d.palca.sending ++ [{ r with port := port }] } }

/-- The record of one stream falls due: it takes the next SEQ. -/
def Dev.dueRecord (d : Dev) (f : Fusion) (c : CycleCtx) (discarded : Bool) (s : Nat) : Dev :=
  let q := kget 0 d.palca.seqs s
  let content := d.cfg (0x1100 + s) 2
  let r : OutRecord :=
    { stream := s, port := 0, seq := q, cycle := c.number, content := content, discarded := discarded, next := 0, stamped := false, old := c.epoch,
      data := if discarded then discardedRecord c content else d.recordOf f c content (d.cfg (0x1100 + s) 7) }
  let d := { d with palca := { d.palca with seqs := kset 0 d.palca.seqs s ((q + 1) % 65536) } }
  (d.streamPorts s).foldl (fun d p => d.queueRecord s r p) d

/-- Every stream whose divider selects the cycle has a record due. -/
def Dev.dueRecords (d : Dev) (f : Fusion) (c : CycleCtx) (discarded : Bool) : Dev :=
  (d.streamsOn.filter (fun s => c.number % d.streamDiv s == 0)).foldl (fun d s => d.dueRecord f c discarded s) d

/-! ## The recorder's copies (R498 to R502) -/

/-- The recorder buffer (R500). -/
def contextBytes : Nat := 4 * 2 ^ 30

/-- Some capture still needs a context. -/
def Dev.needed (d : Dev) (x : Context) : Bool :=
  match d.recd.capture with
  | some c => !x.written && decide (c.from_ ≤ x.tv) && decide (x.tv ≤ c.until_)
  | none => false

/-- Room in the recorder buffer: the oldest contexts that no capture needs go first. -/
def makeRoom (need : Context → Bool) (cap : Nat) : List Context → List Context
  | [] => []
  | x :: t =>
    if ((x :: t).map (fun (y : Context) => y.bytes.length)).sum ≤ cap then x :: t
    else if need x then x :: makeRoom need (cap - x.bytes.length) t
    else makeRoom need cap t

/-- The newest cycle's context goes into the buffer, and into the running capture (R500 to R502). -/
def Dev.bufferContext (d : Dev) (x : Context) : Dev :=
  let rest := (makeRoom d.needed (contextBytes - x.bytes.length) d.recd.context.reverse).reverse
  if contextBytes < (rest.map (fun (y : Context) => y.bytes.length)).sum + x.bytes.length then
    match d.recd.capture with
    | some c => if c.overrun then d
                else ({ d with recd := { d.recd with capture := some { c with overrun := true } } }).raise 0x1006 0 0
    | none => d
  else
    let d := { d with recd := { d.recd with context := x :: rest } }
    match d.recd.capture with
    | some c => if d.ringLow then d else d.writeContext c
    | none => d

/-- A record with its header word. -/
def recordBytes (kind : Nat) (l : List Byte) : List Byte := leBytes 8 (packN [(8, kind), (24, 0), (32, l.length)]) ++ l

/-- Content of a context record's kind. -/
def contentOfKind (k : Nat) : Nat := if k = 4 then 1 else if k = 5 then 2 else if k = 6 then 3 else 0

/-- The recorder takes the cycle record and the context of a cycle it holds, with their T_O; the cycle's T_o is the latest of them (R9,
R250, R499, R500). -/
def Dev.closeCycle (d : Dev) (h : HeldCycle) : Dev :=
  let d := { d with recd := { d.recd with cycles := d.recd.cycles.filter (fun x => x.cycle != h.cycle) } }
  let t_o := h.tos.foldl (fun m x => max m x.2) 0
  let faults := d.log.entries.filter (fun e => e.cycle == h.cycle)
  let ws := lmod (lmod h.words 3 (fun _ => BitVec.ofNat 64 (if t_o = 0 then h.commit else t_o))) 17
    (fun w => BitVec.ofNat 64 (setFld w.toNat 31 16 faults.length))
  let ws := ws ++ faults.reverse.flatMap LogEntry.words
  let d : Dev := if d.cfg 0x9000 5 = 0 then d else (d.recordIf 1 (wordsLe ws)).1
  let bytes : List Byte := h.recs.flatMap (fun r =>
    if r.1 = 3 then recordBytes 3 r.2
    else
      let t := kget 0 h.tos (contentOfKind r.1)
      recordBytes r.1 (stampRecord (if t = 0 then h.commit else t) (nbit (beNat (r.2.take 8)) 13) r.2))
  if d.cfg 0x9000 5 = 0 then d
  else d.bufferContext { cycle := h.cycle, tv := h.tv, bytes := bytes, written := false }

/-- Closes every held cycle of which no record still waits for its first fragment. -/
def Dev.closeIfSent (d : Dev) : Dev :=
  (d.recd.cycles.filter (fun h => !d.palca.sending.any (fun x => x.cycle == h.cycle && !x.stamped))).foldl Dev.closeCycle d

/-- The 18 words of a cycle record, T_O and the number of faults still 0 (R499). -/
def Dev.cycleWords (d : Dev) (f : Fusion) (c : CycleCtx) (discarded : Bool) : List Word :=
  let ts := d.slotsInOrder f
  let n := fun (s : TrackState) => satU 16 (ts.filter (fun t => t.state == s)).length
  let z := fun (x : Nat) => if discarded then 0 else x
  [if discarded then packW [(48, c.number), (2, c.tstate.code), (1, 1), (13, 0)] else d.recordHeader f c,
   BitVec.ofInt 64 c.tv, if discarded then 0 else BitVec.ofInt 64 (d.gridTold c.tv), 0,
   packW [(32, d.hull.g.toNat), (8, d.hull.tier), (1, b2n d.hull.latch), (7, d.hull.discards), (16, d.hull.stopCause)],
   d.hull.zones] ++ tierWords d.hull.pairTiers ++
  [packW [(32, z (countState f 2 d.allCells)), (32, z f.unknown)],
   packW [(32, z (countState f 1 d.allCells)), (16, z (n .confirmed)), (16, z (n .coasting))],
   if discarded then 0 else d.slotMasks c,
   packW [(16, z (satU 16 (d.lateIn c).length)), (16, z (satU 16 d.fus.cand.predOnly)), (16, 0), (16, 0)]]

/-- The recorder holds a committed or discarded cycle until its T_O are known (R9). -/
def Dev.holdCycle (d : Dev) (f : Fusion) (c : CycleCtx) (discarded : Bool) (summary : List Byte) : Dev :=
  let rec_ := fun (content : Nat) => if discarded then discardedRecord c content else d.recordOf f c content 0
  let tracks := if discarded then discardedRecord c 2 else wordsBe (d.trackRecord f c false 1024)
  let recs := (if summary = [] then [] else [(3, summary)]) ++ [(4, rec_ 1), (5, tracks), (6, rec_ 3)]
  let h : HeldCycle :=
    { cycle := c.number, tv := c.tv, commit := d.now, words := d.cycleWords f c discarded, recs := recs, tos := [] }
  { d with recd := { d.recd with cycles := d.recd.cycles ++ [h] } }

/-! ## Transmission (R250, R399, R413, R414, R422) -/

/-- The record whose fragment goes next on a port: a first fragment in ascending stream number, else round robin. -/
def Dev.nextRecord (d : Dev) (port : Nat) : Option OutRecord :=
  let l := d.palca.sending.filter (fun x => x.port == port)
  match l.filter (fun x => x.next == 0) with
  | x :: t => some (t.foldl (fun m y => if y.stream < m.stream then y else m) x)
  | [] => l.head?

/-- The header and the data of a record's next fragment (R413). -/
def OutRecord.fragment (r : OutRecord) : List Byte :=
  let data := (r.data.drop (1408 * r.next)).take 1408
  wordsBe [packW [(16, 0x5053), (8, 1), (8, r.stream), (16, r.next), (16, data.length)],
    packW [(32, fragCount r.data.length), (32, r.data.length)], packW [(48, r.cycle), (16, r.seq)]] ++ data

/-- T_O and AGE are written as the first fragment goes out; the copy on the other port is the same record (R250, R414). -/
def Dev.stampStream (d : Dev) (r : OutRecord) : Dev :=
  if r.stamped then d
  else
    let t_o := ((d.now : Int) - (if r.old then d.deltaNs else 0)).toNat
    let d := { d with palca := { d.palca with
      lastTo := max d.palca.lastTo t_o,
      sending := d.palca.sending.map (fun (x : OutRecord) => if x.stream = r.stream ∧ x.seq = r.seq then
        { x with stamped := true, data := stampRecord t_o r.discarded x.data } else x) } }
    { d with recd := { d.recd with cycles := d.recd.cycles.map (fun (h : HeldCycle) =>
        if h.cycle = r.cycle then { h with tos := kmod 0 h.tos r.content (fun t => max t t_o) } else h) } }

/-- The fragment has gone: the record goes to the back of its port's turn, or is complete and counted in [1100.08]. -/
def Dev.advanceRecord (d : Dev) (r : OutRecord) : Dev :=
  let rest := d.palca.sending.filter (fun x => !(x.stream == r.stream && x.port == r.port))
  if r.next + 1 < fragCount r.data.length then
    { d with palca := { d.palca with sending := rest ++ [{ r with next := r.next + 1 }] } }
  else
    let d := { d with palca := { d.palca with sending := rest } }
    if rest.any (fun x => x.stream == r.stream && x.seq == r.seq) then d else d.count (0x1100 + r.stream) 8

/-- Takes one fragment of a record: the record as it then stands carries the fragment's bytes. -/
def Dev.takeFragment (d : Dev) (r0 : OutRecord) : Dev × OutRecord :=
  let d := d.stampStream r0
  let r := (d.palca.sending.find? (fun x => x.stream == r0.stream && x.port == r0.port)).getD r0
  ((d.advanceRecord r).closeIfSent, r)

/-- Sends one fragment of a record to its destination. -/
def Dev.sendFragment (d : Dev) (r0 : OutRecord) : Dev :=
  let x := d.takeFragment r0
  x.1.emitHost 2 .fragment r0.port (d.cfgList (0x1100 + r0.stream) 4 ++ [d.cfg (0x1100 + r0.stream) 5] ++ byteNats x.2.fragment)

def fragmentTransmit (port : Nat) (d : Dev) : Dev :=
  if port < 2 then
    (match d.nextRecord port with
    | some r => (d.sendFragment r).flushService port
    | none => d)
  else d

/-- FRAGMENT_TRANSMIT (R250, R399, R413, R414): the next fragment leaves on HOST0 or HOST1, and after the last one the service frames that
waited; the SPI target port's fragments are read by READ_STREAM. -/
def execFragmentTransmit (port : Fin 3) (s : State) : Out := s.next (fragmentTransmit port.val s.dev)

/-- Records of a port that went down are dropped and counted (R414), and its waiting service frames are gone. -/
def Dev.dropPort (d : Dev) (port : Nat) : Dev :=
  let lost := d.palca.sending.filter (fun x => x.port == port)
  let d := { d with palca := { d.palca with
    sending := d.palca.sending.filter (fun x => x.port != port), waitingOut := d.palca.waitingOut.filter (fun x => x.unit != port) } }
  (lost.foldl (fun d x => d.occur (0x1100 + x.stream) 9) d).closeIfSent

end Sys2Proof.Machine
end

