-- ==== Sys2Proof/Machine/Entry.lean ====
section
/-! DEFINITION. Entry to RUN and leaving it: the checks of R445, generation 0 (R267, R312, R324, R375, R378), the first
instant (R446), and what the outputs show below RUN (R444). -/

namespace Sys2Proof.Machine

open Sys2Proof

/-! ## The checks (R445) -/

/-- Port and filter of an enabled slot, the virtual channel or the MAC in [47:0] (R58); none where it names no source. -/
def Dev.slotFilter (d : Dev) (n : Nat) : Option (Nat × Nat) :=
  let i := 0x3000 + n
  if d.cfg i 1 = 0 ∨ d.cfg i 2 = 0xFF ∨ slotsOf d.code ≤ n then none
  else some (d.cfg i 2, if d.cfg i 2 < 0x10 then d.cfg i 3 else d.cfg i 4 % 2 ^ 48)

/-- Two enabled slots share a port and a filter (R58). -/
def Dev.sourceConflict (d : Dev) : Bool :=
  let l := (List.range 16).filterMap d.slotFilter
  (List.range l.length).any (fun i => (l.drop (i + 1)).any (fun y => some y == l[i]?))

/-- The time-slice table omits an enabled slot (R74). -/
def Dev.sliceMissing (d : Dev) : Bool :=
  let named := (List.range (d.cfg 0x3200 1)).map (fun i => d.cfg 0x3200 (0x10 + i) / 256)
  (List.range (slotsOf d.code)).any (fun n => decide (d.cfg (0x3000 + n) 1 ≠ 0) && !named.contains n)

/-- T_dev in µs (R343). -/
def Dev.responseBound (d : Dev) : Nat := d.cfg 0x5000 6 + d.cfg 0x7000 4 * d.cfg 0x5000 1

/-- The safety configuration is invalid (R336, R340, R343, R363). -/
def Dev.safetyInvalid (d : Dev) : Bool :=
  decide (d.cfg 0x7000 1 ≠ d.cfg 0x7000 2) || !d.zonesValid ||
    d.pairsOn.any (fun p => decide (d.cfg (0x7400 + p) 0x10 < d.cfg (0x7400 + p) 0x0F) ||
      decide (d.cfg (0x7400 + p) 8 < d.responseBound))

/-- The cause with which entry to RUN is refused, in the order of R445; the manual names no cause for a missing package
and for a latched Hull fault, and theirs are taken (log 29). -/
def Dev.runRefusal (d : Dev) : Option Nat :=
  if d.prog.active.isNone then some 0x0F08
  else if d.safetyInvalid then some 0x0B0C
  else if d.sourceConflict then some 0x0201
  else if d.sliceMissing then some 0x020C
  else if d.streamsRefused then some 0x0D04
  else if d.hull.fault then some 0x0B01
  else if !d.power.avsFault.isEmpty then some 0x0E03
  else if d.sec.debug then some 0x1106
  else if hasEdge d.code && !d.start.edgeFound then some 0x0F03
  else none

/-- The refusal's cause is raised, but for one of Palca's own (R551). -/
def Dev.raiseRefusal (d : Dev) (c : Nat) : Dev := d.raiseIf (decide (c / 256 ≠ 0x0D)) c 0 0

/-! ## Entry (R267, R312, R324, R375, R378, R446) -/

/-- Generation 0 (R378). -/
def Dev.generationZero (d : Dev) : Fusion :=
  let f := d.fusC
  let z := Fusion.reset
  { z with nextId := f.nextId, health := f.health, contests := f.contests, calib := f.calib, unknown := d.monitored.length }

/-- Both copies hold generation 0 and the rings are empty. -/
def Dev.resetFusion (d : Dev) : Dev :=
  let z := d.generationZero
  let d := { d with fus := { d.fus with copy0 := z, copy1 := z, cand := .reset, geometry := false } }
  d.emptyRings

/-- The Hull's decision latches at entry to RUN (R378, R418, R420). -/
def Dev.resetHull (d : Dev) : Dev :=
  { d with hull := { d.hull with
      g := 0, zones := 0, zoneTier := 0, pairTiers := [], rel := [0, 0, 0], genFault := none, cmdSeq := none, sawClear := false } }

/-- The first multiple of P at least 1 ms from now (R446). -/
def Dev.firstInstant (d : Dev) : Int := nextMultiple (d.now + 1000000) (max 1 d.period)

/-- Entry to RUN once the checks have passed: everything the first cycle reads, its instant, and the TRIG edges (R54). -/
def Dev.enterRun (d : Dev) : Dev :=
  let d := d.resetFusion.resetHull
  let d := { d with
    cyc := { d.cyc with flight := [], next := some d.firstInstant, first := d.cyc.number.toNat + 1, stretch := none },
    sched := { d.sched with passes := [], idle := [], claims := [] },
    intake := { d.intake with deliv := [] } }
  d.rescheduleTrigs

/-! ## Below RUN (R444) -/

/-- The device is below RUN: output tier 3 with the stop latch set and no stop cause, all-off to the edge die; an entry to tier 3
is counted and announced like every other (R335, R356, R362). -/
def Dev.leaveRun (d : Dev) (st : PowerState) : Dev :=
  let shown := decide (d.hull.tier < 3)
  let d := { d with
    power := { d.power with state := st },
    cyc := { d.cyc with next := none, flight := [] },
    hull := { d.hull with
      tier := 3, latch := true, stopCause := 0, rel := [0, 0, 0], pinA := false, pinB := false, offDone := [0, 1, 2, 3], offDelay := [] } }
  let d := d.sendCommand
  if shown then ((d.occur 0x7000 0x10).sendDecision).sendStatus else d

end Sys2Proof.Machine
end

