-- ==== Sys2Proof/Machine/Sched.lean ====
section
/-! DEFINITION. The scheduler: releases, deadlines, wakes and idle items (08_scheduling_and_sync.md, R202 to R209). -/

namespace Sys2Proof.Machine

/-! ## Releases (R202, R203) -/

/-- The sequencer's own entries: ADVANCE, SIGNAL and RESET (R157, R201, R202); a wait met with the error bit set hands its error on. -/
def Dev.sequencer (d : Dev) (t i : Nat) : Dev :=
  let e := d.entry t i
  let k := d.ticket t i
  let d := d.startEntry t i
  let d := match entryKind e, d.physOf t with
    | 4, some p => d.turnWindow p (entryWork e % 64)
    | 7, _ => d.syncResetTo (wfld (wat e 2) 63 50) (entryThreshold e)
    | _, _ => d
  d.finish k (d.tablePart t) k.bad k.cause

/-- The sequencer may run entry `i` now: it is one of its own, its release has passed, its wait is met (for RESET, THRESHOLD is the value
loaded, and a wait on the object it resets is met at any count of at least that value), and an ADVANCE finds its Pod idle (R157). -/
def Dev.sequencerMay (d : Dev) (t i : Nat) : Bool :=
  let e := d.entry t i
  (entryKind e == 4 || entryKind e == 5 || entryKind e == 7) && d.waitMet e &&
    (entryKind e != 4 || (match d.physOf t with | some p => !d.podBusy p | none => false))

/-- An entry of the running pass that has neither started nor been skipped. -/
def Dev.entryWaits (d : Dev) (t i : Nat) : Bool :=
  let p := d.pass t
  !p.ended && (d.passEntries t).contains i && !p.started.contains i && !p.skipped.contains i

/-- The sequencer store's word that holds an entry is read (R147, R148): corrected words count and are written back. -/
def Dev.readEntry (d : Dev) (t i : Nat) (r : BurstResult) : Dev :=
  match d.physOf t, r with
  | some p, .corrected => d.eccRead { word := seqKey p (32 * i) / 8, correctable := true }
  | _, _ => d

def entryReleased (t i : Nat) (word : BurstResult) (d : Dev) : Dev :=
  let e := d.entry t i
  let p := d.pass t
  let later := d.cyc.flight.any (fun c => decide (p.cycle < c.number) && decide (c.tick + entryRelease e ≤ d.tick))
  if (d.passEntries t).contains i = false then d
  else
    let d := d.readEntry t i word
    if p.ended = false ∧ later = true ∧ d.firstTimed t = some i then (d.raise 0x0603 t 0).skipUnstarted t
    else if d.entryWaits t i = false then d
    else if word = .uncorrectable then d.skipEntry t i 0x0501
    else if decide (p.tick + entryRelease e ≤ d.tick) && d.sequencerMay t i then d.sequencer t i
    else d

/-- ENTRY_RELEASE (R147, R202, R203): the entry's word is read from the sequencer store; the first S or F release of a pass finds the
previous pass unfinished, or the sequencer runs an entry of its own; work of the other executors starts with its own command. -/
def execEntryRelease (t : TableId) (i : Nat) (word : BurstResult) (s : State) : Out := s.next (entryReleased (tableNo t) i word s.dev)

def advance (l w : Nat) (d : Dev) : Dev :=
  match (d.passEntries l).find? (fun i => entryKind (d.entry l i) == 4 && entryWork (d.entry l i) % 64 == w && d.entryWaits l i) with
  | some i => if decide ((d.pass l).tick + entryRelease (d.entry l i) ≤ d.tick) && d.sequencerMay l i then d.sequencer l i else d
  | none => d

/-- ADVANCE (R157): the table's next ADVANCE of a window turns its HEAD by STEP once everything that the Pod accepted before has
completed. -/
def execAdvance (l : Fin 24) (w : Fin 64) (s : State) : Out := s.next (advance l w s.dev)

def entryDeadlinePassed (t i : Nat) (d : Dev) : Dev :=
  let e := d.entry t i
  let p := d.pass t
  if entryTimed e = true ∧ (d.passEntries t).contains i = true ∧ entryDeadline e ≠ 0 ∧ p.ended = false ∧
      p.tick + entryDeadline e ≤ d.tick ∧ p.skipped.contains i = false ∧ p.done.contains i = false then
    if p.started.contains i then
      (if p.late.contains i then d else (d.modPass t (fun p => { p with late := sins i p.late })).raise 0x0601 t i)
    else d.skipEntry t i 0x0602
  else d

/-- ENTRY_DEADLINE (R204, R205, R386): an entry that has not started is skipped; a running one is reported, once. -/
def execEntryDeadline (t : TableId) (i : Nat) (s : State) : Out := s.next (entryDeadlinePassed (tableNo t) i s.dev)

/-! ## Wakes (R206, R207) -/

/-- Wake time W of a Pod's state in ticks (R206). -/
def Pod.wakeTicks (p : Pod) : Nat :=
  match p.state with
  | .collapsed => usTicks 46
  | .gated => if p.pll then usTicks 2 else usTicks 8
  | _ => 0

def podWakeRequest (l : Nat) (d : Dev) : Dev :=
  match d.physOf l with
  | some p =>
    let x := d.pod p
    let lead := max (nsTicks (d.cfg 0x5000 4)) (x.wakeTicks + usTicks 2)
    let due := match d.gapOf l with | some g => decide (g ≤ lead) | none => false
    if (x.state = .gated ∨ x.state = .collapsed) ∧ x.waking = false ∧ due = true then
      -- a gate of the same epoch loses: the Pod is ACTIVE again (R116)
      if x.state = .gated ∧ x.gatedNow = true then d.modPod p (fun x => { x with state := .active, gatedNow := false, pll := true })
      else d.modPod p (fun x => { x with waking := true, pll := true })
    else if x.state = .active ∧ due = true then d.modPod p (fun x => { x with gateWaits := false })
    else d
  | none => d

/-- POD_WAKE_REQUEST (R206): W + 2 µs or the wake lead ahead of the next S or F release. -/
def execPodWakeRequest (l : Fin 24) (s : State) : Out := s.next (podWakeRequest l s.dev)

def podWakeComplete (p : Nat) (d : Dev) : Dev :=
  let x := d.pod p
  if x.waking = true ∧ (x.state = .gated ∨ x.state = .collapsed) then
    let d := match x.state, x.logical with | .collapsed, some l => d.restorePod p l | _, _ => d
    let d := d.modPod p (fun x => { x with state := .active, waking := false, gatedNow := false, pll := true })
    match x.logical with
    | some l => d.raiseIf ((d.releasesAhead l).any (fun r => decide (r < d.tick))) 0x0604 p 0
    | none => d
  else d

/-- POD_WAKE_COMPLETE (R115, R152, R207): ACTIVE, its retained ranges restored; late after a release raises 0x0604. -/
def execPodWakeComplete (p : Fin 25) (s : State) : Out := s.next (podWakeComplete p s.dev)

/-! ## Idle items (R208, R209) -/

/-- The executor of a table's entry is free, and no admitted item is about to start on it. -/
def Dev.executorFree (d : Dev) (t kind : Nat) : Bool :=
  !d.sched.claims.any (fun c => c.1 == t && unitKind (entryKind (d.entry t c.2.1)) == unitKind kind) &&
  if t < 24 then
    match d.physOf t with
    | some p =>
      let x := d.pod p
      x.state == .active && (match kind with
        | 1 => x.engine.isNone
        | 2 => (List.range 4).any (fun c => (kget none x.cores c).isNone)
        | 3 => (d.mover p).groups.isEmpty && (d.mover p).opened.isEmpty
        | _ => true)
    | none => false
  else if t < 28 then (d.solver (t - 24)).job.isNone && !(d.solver (t - 24)).out
  else (d.mover (t - 3)).groups.isEmpty && (d.mover (t - 3)).opened.isEmpty

/-- An item that ends by `fin` holds back no entry of a pass anchored at a tick; a promoted item may delay an F entry within
its latest start (R208, R209). -/
def clearsEntry (fin anchor : Nat) (promoted : Bool) (e : List Word) : Bool :=
  (decide (fin ≤ anchor + entryRelease e) || (promoted && entryClass e == 1)) &&
    (entryDeadline e == 0 || decide (fin ≤ anchor + entryDeadline e - wcetTicks (entryWcet e)))

/-- R208, R209: the item ends by `fin`, no later than the next release on its executor and the latest start of every
entry it would delay, of the running pass and of the pass of the next instant. -/
def Dev.itemFits (d : Dev) (t kind fin : Nat) (promoted : Bool) : Bool :=
  let p := d.pass t
  let mine := fun (i : Nat) => unitKind (entryKind (d.entry t i)) == unitKind kind && entryTimed (d.entry t i)
  let all := (d.passEntries t).filter mine
  let open_ := if p.ended then [] else all.filter (fun i => !p.started.contains i && !p.skipped.contains i)
  open_.all (fun i => clearsEntry fin p.tick promoted (d.entry t i)) &&
    (match d.cyc.next with
    | some n => all.all (fun i => clearsEntry fin (d.tick + nsTicks (n - d.now).toNat) promoted (d.entry t i))
    | none => true)

/-- Place of an item in the idle list. -/
def Dev.idleAt (d : Dev) (t i : Nat) : Option IdleItem := d.sched.idle.find? (fun x => x.table == t && x.entry == i)

/-- Class an idle item is served in: F while promoted (R209). -/
def Dev.idleClass (d : Dev) (x : IdleItem) : Nat := if x.promoted then 1 else entryClass (d.entry x.table x.entry)

/-- The item of an executor's idle list that is served next: in class order, in order of arrival within a class (R177, R208). -/
def Dev.nextIdle (d : Dev) (t kind : Nat) : Option IdleItem :=
  let l := d.sched.idle.filter (fun x => x.table == t && unitKind (entryKind (d.entry t x.entry)) == unitKind kind)
  l.find? (fun x => l.all (fun y => decide (d.idleClass x ≤ d.idleClass y)))

def idleItemStart (t i : Nat) (d : Dev) : Dev :=
  match d.idleAt t i with
  | some x =>
    let e := d.entry t i
    if d.executorFree t (entryKind e) = true ∧ d.itemFits t (entryKind e) (d.tick + wcetTicks (entryWcet e)) x.promoted = true ∧
        d.nextIdle t (entryKind e) = some x ∧ d.waitMet e = true ∧ (unitKind (entryKind e) ≠ 0 ∨ d.sequencerMay t i = true) then
      let d := { d with sched := { d.sched with idle := d.sched.idle.filter (fun y => !(y.table == t && y.entry == i)) } }
      if unitKind (entryKind e) = 0 then d.sequencer t i
      else { d with sched := { d.sched with claims := d.sched.claims ++ [(t, i, x.promoted)] } }
    else d
  | none => d

/-- IDLE_ITEM_START (R177, R202, R208, R209): the item leaves the idle list where it fits and none stands before it; its work starts
with the command of its kind. -/
def execIdleItemStart (t : TableId) (i : Nat) (s : State) : Out := s.next (idleItemStart (tableNo t) i s.dev)

def promotion (t i : Nat) (d : Dev) : Dev :=
  match d.idleAt t i with
  | some x =>
    let cls := entryClass (d.entry t i)
    let limit := if cls = 2 then d.cfg 0x2040 1 else d.cfg 0x2040 2
    if x.promoted = false ∧ x.ready + msTicks limit < d.tick then
      { d with sched := { d.sched with idle := d.sched.idle.map (fun (y : IdleItem) =>
          if y.table == t && y.entry == i then { y with promoted := true } else y) } }.occur 0x2040 4
    else d
  | none => d

/-- PROMOTION (R209): an item past its class's starvation limit goes to class F for one slice. -/
def execPromotion (t : TableId) (i : Nat) (s : State) : Out := s.next (promotion (tableNo t) i s.dev)

end Sys2Proof.Machine
end

