-- ==== Sys2Proof/Machine/Solver.lean ====
section
/-! DEFINITION. Solver engines: jobs and their checks, fixed-point factorisations, iterative kinds, the cut, the committed
solution, completion records, compares and self-test (12_solvers.md, R306 to R329). -/

namespace Sys2Proof.Machine

open Sys2Proof

/-! ## The job descriptor (R308) -/

/-- A job. -/
structure Job where
  kind : Nat
  iters : Nat
  rhsN : Nat
  precond : Bool
  warm : Bool
  str : Nat
  blocks : Nat
  delta : Nat
  rhs : Nat
  sol : Nat
  cpl : Nat
  nA : Nat
  nL : Nat
  nB : Nat
  nX : Nat
  floorShift : Nat
  segs : Nat
  diag : Int
  aux : Nat
deriving DecidableEq, Repr

/-- The fields of a descriptor. -/
def jobOf (w : List Word) : Job :=
  { kind := wfld (wat w 0) 63 60, iters := wfld (wat w 0) 59 53, rhsN := wfld (wat w 0) 52 50 + 1, precond := wbit (wat w 0) 49,
    warm := wbit (wat w 0) 48, str := wfld (wat w 0) 47 0, blocks := wfld (wat w 1) 63 48 + 1, delta := wfld (wat w 1) 47 0,
    rhs := wfld (wat w 2) 47 0, sol := wfld (wat w 3) 47 0, cpl := wfld (wat w 4) 47 0, nA := wfld (wat w 5) 63 59,
    nL := wfld (wat w 5) 58 54, nB := wfld (wat w 5) 53 49, nX := wfld (wat w 5) 48 44, floorShift := wfld (wat w 5) 43 39,
    segs := wfld (wat w 5) 38 36 + 1, diag := sgn 32 (wfld (wat w 6) 63 32), aux := wfld (wat w 7) 47 0 }

/-- The structure header (R311). -/
structure Struc where
  n : Nat
  a : Nat
  z : Nat
  live : Nat
  crc : Nat
  rowPtr : Nat
  idxA : Nat
  idxL : Nat
  map : Nat
  bank0 : Nat
  bank1 : Nat
  factor : Nat
deriving DecidableEq, Repr

/-- The header at an address. -/
def Dev.strucAt (d : Dev) (a : Nat) : Struc :=
  let w := d.loadWs none a 10
  { n := wfld (wat w 0) 63 48, a := wfld (wat w 0) 31 0, z := wfld (wat w 1) 63 32, live := wfld (wat w 2) 63 32,
    crc := wfld (wat w 2) 31 0, rowPtr := wfld (wat w 3) 47 0, idxA := wfld (wat w 4) 47 0, idxL := wfld (wat w 5) 47 0,
    map := wfld (wat w 6) 47 0, bank0 := wfld (wat w 7) 47 0, bank1 := wfld (wat w 8) 47 0, factor := wfld (wat w 9) 47 0 }

/-- The header's CRC over W0 to W9 with the field as 0. -/
def Dev.strucCrc (d : Dev) (a : Nat) : Nat :=
  let w := d.loadWs none a 10
  (crc32c (wordsLe (lmod w 2 (fun x => BitVec.ofNat 64 (setFld x.toNat 31 0 0))))).toNat

/-- The job reads a resident structure. -/
def Job.sparse (j : Job) : Bool := decide (1 ≤ j.kind) && decide (j.kind ≤ 4)
/-- A batch of blocks. -/
def Job.batch (j : Job) : Bool := j.kind == 7 || j.kind == 8
/-- Kinds 3 and 4. -/
def Job.iterative (j : Job) : Bool := j.kind == 3 || j.kind == 4
/-- Cholesky kinds. -/
def Job.chol (j : Job) : Bool := j.kind == 2 || j.kind == 6 || j.kind == 8

/-- Unknowns of the job, or of one block. -/
def Dev.jobN (d : Dev) (j : Job) : Nat := if j.sparse then (d.strucAt j.str).n else (d.tdescAt none j.str).dim 0

/-- An address the engine's memory port reaches (R121, R306). -/
def Dev.portAddr (d : Dev) (a : Nat) : Bool := (decide (fld a 47 44 = 1) || decide (fld a 47 44 = 2)) && (d.addrKey none a).isSome

/-- The limits of R310 for `n` unknowns, `z` factor entries and `a` matrix entries. -/
def jobLimits (j : Job) (n z a : Nat) : Bool :=
  (if j.kind ≤ 2 then decide (n ≤ 4096) && decide (z ≤ 262144) && decide (a ≤ z)
   else if j.kind ≤ 4 then decide (n ≤ 4096) && decide (a ≤ 262144)
   else if j.kind ≤ 6 then decide (n ≤ 256)
   else decide (n ≤ 16) && decide (j.blocks ≤ 4096)) && decide (j.rhsN * n * 4 ≤ 131072)

/-- Check 1 of R309 holds. -/
def Dev.jobValid (d : Dev) (w : List Word) (cls : Nat) : Bool :=
  let j := jobOf w
  let n := d.jobN j
  let h := d.strucAt j.str
  let zero := fun (i hi lo : Nat) => decide (wfld (wat w i) hi lo = 0)
  decide (1 ≤ j.kind) && decide (j.kind ≤ 9) &&
    zero 2 63 48 && zero 3 63 48 && zero 4 63 48 && zero 5 35 0 && zero 6 31 0 && zero 7 63 48 &&
    (if j.iterative then decide (1 ≤ j.iters) && decide (j.iters ≤ 64) else decide (j.iters = 0) && !j.warm && decide (j.segs = 1)) &&
    (!j.precond || decide (j.kind = 4)) && (j.batch || decide (j.blocks = 1)) &&
    (decide (j.aux = 0) || j.batch || (j.iterative && decide (1 < j.segs))) &&
    (decide (j.segs = 1) || (decide (2 ≤ cls) && decide (j.iters % j.segs = 0))) &&
    d.portAddr j.str && (!(j.sparse || j.kind == 9) || decide (fld j.str 47 44 = 2)) && (decide (j.kind = 9) || d.portAddr j.rhs) &&
    d.portAddr j.sol && d.portAddr j.cpl && (decide (j.delta = 0) || d.portAddr j.delta) && (decide (j.aux = 0) || d.portAddr j.aux) &&
    (decide (j.kind = 9) || jobLimits j n h.z h.a)

/-- Cause of the checks of R309, 0 where the job is accepted. -/
def Dev.jobRefusal (d : Dev) (w : List Word) (cls : Nat) : Nat :=
  let j := jobOf w
  if d.jobValid w cls = false then 0x0A0B
  else if j.sparse = true ∧ d.strucCrc j.str ≠ (d.strucAt j.str).crc then 0x0A07
  else 0

/-! ## Fixed-point arithmetic (R315) -/

/-- A value with the saturations met on the way. -/
abbrev Cnt := Int × Nat

/-- Clamps to n bits, counting. -/
def cclamp (n : Nat) (v : Int) : Cnt := (satS n v, b2n (decide (satS n v ≠ v)))

/-- Shifts by k bits to the right, rounding to nearest even; a negative k shifts left, exactly. -/
def rneShift (v k : Int) : Int := if 0 ≤ k then rne v (2 ^ k.toNat) else v * (2 ^ (-k).toNat : Nat)

/-- Adds a term of `p` fraction bits to an accumulator of `f`. -/
def cadd (f : Nat) (a : Cnt) (t : Int) (p : Nat) : Cnt :=
  let x := cclamp 64 (t * (2 ^ (f - p) : Nat))
  let y := cclamp 64 (a.1 + x.1)
  (y.1, a.2 + x.2 + y.2)

/-- Writes an accumulator of `f` fraction bits to a 32-bit value of `n`. -/
def cwrite (f n : Nat) (a : Cnt) : Cnt :=
  let x := cclamp 32 (rneShift a.1 ((f : Int) - n))
  (x.1, a.2 + x.2)

/-- The exact quotient rounded once: numerator of `fn`, denominator of `fd`, result of `fq` fraction bits. A divisor of 0
gives the clamped value of the numerator's sign (R317). -/
def cquot (a : Cnt) (fn : Nat) (den : Int) (fd fq : Nat) : Cnt :=
  if den = 0 then (if a.1 = 0 then 0 else if 0 < a.1 then 2 ^ 31 - 1 else -(2 ^ 31), a.2 + 1)
  else
    let e : Int := (fq : Int) + fd - fn
    let s : Int := if den < 0 then -a.1 else a.1
    let x := cclamp 32 (if 0 ≤ e then rne (s * (2 ^ e.toNat : Nat)) den.natAbs else rne s (den.natAbs * 2 ^ (-e).toNat))
    (x.1, a.2 + x.2)

/-- The rounded square root of a non-negative value of `fv` fraction bits, to `fr`. -/
def croot (v : Nat) (fv fr : Nat) : Cnt :=
  let e : Int := 2 * (fr : Int) - fv
  let m := if 0 ≤ e then v * 2 ^ e.toNat else v
  let k := if 0 ≤ e then 1 else 2 ^ (-e).toNat
  let q := isqrt (m / k)
  let half := (2 * q + 1) * (2 * q + 1) * k
  cclamp 32 ((if half < 4 * m ∨ (half = 4 * m ∧ q % 2 = 1) then q + 1 else q : Nat) : Int)

/-- The pivot floor (R316). -/
def Job.floor (j : Job) : Int := max 1 (rneShift j.diag j.floorShift)

/-! ## Factorisation (R315 to R318) -/

/-- A factor in progress: L below the diagonal and the products w of kind 1, by 2^16 i + j; pivots and Cholesky diagonals by
row; what was counted. -/
structure Factor where
  l : Store Int
  w : Store Int
  piv : Store Int
  diag : Store Int
  sats : Nat
  floored : Nat
  first : Option Nat
  notDef : Bool
deriving DecidableEq, Repr

def Factor.start : Factor := { l := [], w := [], piv := [], diag := [], sats := 0, floored := 0, first := none, notDef := false }

def fkey (i k : Nat) : Nat := 2 ^ 16 * i + k

/-- A floored pivot in row i. -/
def Factor.floorAt (f : Factor) (i : Nat) : Factor := { f with floored := f.floored + 1, first := some (f.first.getD i) }

/-- Off-diagonal entry (i, k) from the matrix value; `ks` are the earlier columns both rows have. -/
def Factor.off (j : Job) (f : Factor) (i k : Nat) (a : Int) (ks : List Nat) : Factor :=
  if j.chol then
    let fb := max j.nA (2 * j.nL)
    let acc := ks.foldl (fun acc m => cadd fb acc (-(kget 0 f.l (fkey i m) * kget 0 f.l (fkey k m))) (2 * j.nL)) (cadd fb (0, 0) a j.nA)
    let v := cquot acc fb (kget 0 f.diag k) j.nL j.nL
    { f with l := kset 0 f.l (fkey i k) v.1, sats := f.sats + v.2 }
  else
    let fb := j.nA + j.nL
    let acc := ks.foldl (fun acc m => cadd fb acc (-(kget 0 f.l (fkey i m) * kget 0 f.w (fkey k m))) fb) (cadd fb (0, 0) a j.nA)
    let v := cquot acc fb (kget 0 f.piv k) j.nA j.nL
    let w := cclamp 32 (rneShift (kget 0 f.piv k * v.1) j.nL)
    { f with l := kset 0 f.l (fkey i k) v.1, w := kset 0 f.w (fkey i k) w.1, sats := f.sats + v.2 + w.2 }

/-- The pivot of row i; `ks` are the row's earlier columns (R315 to R317). -/
def Factor.pivot (j : Job) (f : Factor) (i : Nat) (a : Int) (ks : List Nat) : Factor :=
  let fb := if j.chol then max j.nA (2 * j.nL) else j.nA + j.nL
  let acc := ks.foldl (fun acc m =>
    if j.chol then cadd fb acc (-(kget 0 f.l (fkey i m) * kget 0 f.l (fkey i m))) (2 * j.nL)
    else cadd fb acc (-(kget 0 f.l (fkey i m) * kget 0 f.w (fkey i m))) fb) (cadd fb (0, 0) a j.nA)
  let p := cwrite fb j.nA acc
  let f := { f with sats := f.sats + p.2 }
  if j.chol then
    let low := decide (p.1 < j.floor)
    let v := if low then j.floor else p.1
    let f := if low then f.floorAt i else f
    let f := { f with notDef := f.notDef || decide (p.1 ≤ -j.floor) }
    let r := croot v.toNat j.nA j.nL
    let f := if r.1 = 0 then f.floorAt i else f
    { f with piv := kset 0 f.piv i v, diag := kset 0 f.diag i (if r.1 = 0 then 1 else r.1), sats := f.sats + r.2 }
  else
    let low := decide ((p.1.natAbs : Int) < j.floor)
    let v := if low then (if p.1 < 0 then -j.floor else j.floor) else p.1
    let f := if low then f.floorAt i else f
    { f with piv := kset 0 f.piv i v }

/-- A matrix to factorise: the columns below the diagonal that each row of the factor has, and the entries. -/
structure Mat where
  cols : List (List Nat)
  val : Store Int
deriving DecidableEq, Repr

/-- The factorisation, row by row. -/
def factorise (j : Job) (m : Mat) : Factor :=
  (List.range m.cols.length).foldl (fun f i =>
    let cs := m.cols.getD i []
    let f := cs.foldl (fun f k =>
      f.off j i k (kget 0 m.val (fkey i k)) ((m.cols.getD k []).filter (fun x => cs.contains x))) f
    f.pivot j i (kget 0 m.val (fkey i i)) cs) Factor.start

/-- Solves one right-hand side in N_X (R315). -/
def Factor.solve (j : Job) (m : Mat) (f : Factor) (b : List Int) : List Int × Nat :=
  let n := m.cols.length
  let fs := max j.nB (j.nL + j.nX)
  let fwd := (List.range n).foldl (fun (s : List Int × Nat) i =>
    let acc := (m.cols.getD i []).foldl (fun acc k => cadd fs acc (-(kget 0 f.l (fkey i k) * s.1.getD k 0)) (j.nL + j.nX))
      (cadd fs (0, 0) (b.getD i 0) j.nB)
    let y := if j.chol then cquot acc fs (kget 0 f.diag i) j.nL j.nX else cwrite fs j.nX acc
    (s.1 ++ [y.1], s.2 + y.2)) ([], 0)
  let mid : List Int × Nat :=
    if j.chol then fwd
    else (List.range n).foldl (fun (s : List Int × Nat) i =>
      let y := cquot (fwd.1.getD i 0, 0) j.nX (kget 0 f.piv i) j.nA j.nX
      (s.1 ++ [y.1], s.2 + y.2)) ([], fwd.2)
  let fb := j.nL + j.nX
  let back := (List.range n).reverse.foldl (fun (s : Store Int × Nat) i =>
    let acc := ((List.range n).filter (fun k => (m.cols.getD k []).contains i)).foldl
      (fun acc k => cadd fb acc (-(kget 0 f.l (fkey k i) * kget 0 s.1 k)) fb) (cadd fb (0, 0) (mid.1.getD i 0) j.nX)
    let x := if j.chol then cquot acc fb (kget 0 f.diag i) j.nL j.nX else cwrite fb j.nX acc
    (kset 0 s.1 i x.1, s.2 + x.2)) ([], mid.2)
  ((List.range n).map (fun i => kget 0 back.1 i), back.2)

/-- What a direct job delivers. -/
structure Solved where
  vals : List Int
  sats : Nat
  floored : Nat
  first : Option Nat
  notDef : Bool
deriving DecidableEq, Repr

/-- A matrix with its right-hand sides. -/
def solveAll (j : Job) (m : Mat) (bs : List (List Int)) : Solved × Factor :=
  let f := factorise j m
  let xs := bs.map (f.solve j m)
  ({ vals := xs.flatMap Prod.fst, sats := f.sats + (xs.map Prod.snd).sum, floored := f.floored, first := f.first, notDef := f.notDef }, f)

/-! ## Operands -/

/-- Right-hand side `b` of block `k`: dimension 0 the unknowns, 1 the right-hand sides, 2 the blocks (log 26). -/
def Dev.rhsOf (d : Dev) (j : Job) (n k b : Nat) : List Int :=
  let t := d.tdescAt none j.rhs
  (List.range n).map (fun u => d.eltInt none t [u, b, k, 0, 0])

/-- The dense lower triangle of block `k`: dimension 0 the columns, 1 the rows, 2 the blocks (log 26). -/
def Dev.denseMat (d : Dev) (j : Job) (n k : Nat) : Mat :=
  let t := d.tdescAt none j.str
  { cols := (List.range n).map List.range,
    val := (List.range n).foldl (fun m r => (List.range (r + 1)).foldl (fun m c => kset 0 m (fkey r c) (d.eltInt none t [c, r, k, 0, 0])) m) [] }

/-- A U32 of a table. -/
def Dev.u32At (d : Dev) (a i : Nat) : Nat := leNat (d.loadA none (a + 4 * i) 4)
/-- A U16 of a table. -/
def Dev.u16At (d : Dev) (a i : Nat) : Nat := leNat (d.loadA none (a + 2 * i) 2)

/-- Column of matrix entry e. -/
def Dev.colA (d : Dev) (h : Struc) (e : Nat) : Nat := fld (d.u16At h.idxA e) 11 0
/-- LIVE of matrix entry e. -/
def Dev.liveA (d : Dev) (h : Struc) (e : Nat) : Bool := nbit (d.u16At h.idxA e) 15

/-- Value of a position in a copy's bank; the package's initial value where nothing has changed it. -/
def Dev.bankVal (d : Dev) (f : Fusion) (h : Struc) (e : Nat) : Int :=
  (kget none f.bank (2 ^ 20 * h.bank0 + e)).getD (sgn 32 (leNat (d.loadA none (h.bank0 + 4 * e) 4)))

/-- The rows of a delta list (R313). -/
def Dev.deltaRows (d : Dev) (j : Job) : List (Nat × Int) :=
  if j.delta = 0 then []
  else
    let t := d.tdescAt none j.delta
    (List.range (t.dim 1)).map (fun r => (d.eltGet none t [0, r, 0, 0, 0], d.eltInt none t [1, r, 0, 0, 0]))

/-- R313: positions strictly ascending and below a, every LIVE entry named. -/
def Dev.deltaOk (d : Dev) (h : Struc) (l : List (Nat × Int)) : Bool :=
  (l.zip (l.drop 1)).all (fun x => decide (x.1.1 < x.2.1)) && l.all (fun x => decide (x.1 < h.a)) &&
    (List.range h.a).all (fun e => !d.liveA h e || l.any (fun x => x.1 == e))

/-- The candidate bank: the committed one with the delta list's entries (R312). -/
def Dev.mergeBank (d : Dev) (h : Struc) (l : List (Nat × Int)) : Dev :=
  let base := (d.fusC.bank.filter (fun x => x.1 / 2 ^ 20 == h.bank0))
  let merged := fun (old : Store (Option Int)) =>
    l.foldl (fun m x => kset none m (2 ^ 20 * h.bank0 + x.1) (some x.2))
      (base.foldl (fun m x => kset none m x.1 x.2) (old.filter (fun x => x.1 / 2 ^ 20 != h.bank0)))
  d.modFusN (fun f => { f with bank := merged f.bank })

/-- Entries of a sparse matrix by row: column and position. -/
def Dev.rowsA (d : Dev) (h : Struc) : List (List (Nat × Nat)) :=
  (List.range h.n).map (fun i => (List.range (d.u32At h.rowPtr (i + 1) - d.u32At h.rowPtr i)).map (fun k =>
    let e := d.u32At h.rowPtr i + k
    (d.colA h e, e)))

/-- Rows of the factor pattern: column and position; the row offsets follow the column indices (R311). -/
def Dev.rowsL (d : Dev) (h : Struc) : List (List (Nat × Nat)) :=
  let off := fun i => d.u32At (h.idxL + 2 * h.z) i
  (List.range h.n).map (fun i => (List.range (off (i + 1) - off i)).map (fun k => (d.u16At h.idxL (off i + k), off i + k)))

/-- The matrix of kinds 1 and 2: entries placed in the factor pattern by MAP. -/
def Dev.sparseMat (d : Dev) (h : Struc) : Mat :=
  let rows := d.rowsL h
  let at_ : Store Int := (List.range h.a).foldl (fun m e => kset 0 m (d.u32At h.map e) (d.bankVal d.fusN h e)) []
  { cols := rows.zipIdx.map (fun r => (r.1.map Prod.fst).filter (fun c => decide (c < r.2))),
    val := rows.zipIdx.foldl (fun m r => r.1.foldl (fun m c => kset 0 m (fkey r.2 c.1) (kget 0 at_ c.2)) m) [] }

/-- The factor bank: z values, D at the diagonal of kind 1 (R311). -/
def Dev.storeFactor (d : Dev) (j : Job) (h : Struc) (f : Factor) : Dev :=
  d.storeA none h.factor ((d.rowsL h).zipIdx.flatMap (fun r => r.1.flatMap (fun c =>
    leBytes 4 (pat 32 (if c.1 = r.2 then (if j.chol then kget 0 f.diag r.2 else kget 0 f.piv r.2) else kget 0 f.l (fkey r.2 c.1))))))

/-! ## Iterative kinds (R319, R320, R328) -/

/-- The iterate of one right-hand side. -/
structure Iter where
  x : List Int
  r : List Int
  p : List Int
  rz : Int
  sats : Nat
deriving DecidableEq, Repr

/-- A sparse system: rows of column and value, and the diagonal after the floor rule. -/
structure Sys where
  rows : List (List (Nat × Int))
  diag : List Int
  floored : Nat
  first : Option Nat
deriving DecidableEq, Repr

/-- The system of a structure with the candidate bank's values. `floorD` applies R316 to the diagonal. -/
def Dev.sysOf (d : Dev) (j : Job) (h : Struc) (floorD : Bool) : Sys :=
  let rows := (d.rowsA h).map (fun r => r.map (fun c => (c.1, d.bankVal d.fusN h c.2)))
  let raw := rows.zipIdx.map (fun r => ((r.1.find? (fun c => c.1 == r.2)).map Prod.snd).getD 0)
  let low := fun (v : Int) => floorD && decide ((v.natAbs : Int) < j.floor)
  let bad := (raw.zipIdx.filter (fun v => low v.1)).map Prod.snd
  { rows := rows, floored := bad.length, first := bad.head?,
    diag := raw.map (fun v => if low v then (if v < 0 then -j.floor else j.floor) else v) }

/-- One forward sweep (R319). -/
def sweep (j : Job) (s : Sys) (b : List Int) (it : Iter) : Iter :=
  let f := max j.nB (j.nA + j.nX)
  s.rows.zipIdx.foldl (fun (it : Iter) r =>
    let acc := (r.1.filter (fun c => decide (c.1 ≠ r.2))).foldl (fun acc c => cadd f acc (-(c.2 * it.x.getD c.1 0)) (j.nA + j.nX))
      (cadd f (0, 0) (b.getD r.2 0) j.nB)
    let v := cquot acc f (s.diag.getD r.2 0) j.nA j.nX
    { it with x := lmod it.x r.2 (fun _ => v.1), sats := it.sats + v.2 }) it

/-- Formats of conjugate gradients: z and p, A p, α, β, the reciprocal diagonal; R320 does not give them (log 8). -/
structure CgFmt where
  z : Nat
  ap : Nat
  al : Nat
  be : Nat
  rd : Nat
deriving DecidableEq, Repr

def cgFmt (j : Job) (w : List Word) : CgFmt :=
  let f := fun k => Config.cgFrac w k % 32
  { z := if j.precond then f 0 else j.nB, ap := f 1, al := f 2, be := f 3, rd := f 4 }

/-- A dot product in 64 bits: `f` fraction bits. -/
def cdot (a b : List Int) : Cnt := (a.zip b).foldl (fun acc x => cadd 0 acc (x.1 * x.2) 0) (0, 0)

/-- A product with the matrix, written to `n` fraction bits from factors of `fa` and `fx`. -/
def Sys.times (s : Sys) (fa fx n : Nat) (x : List Int) : List Int × Nat :=
  let l := s.rows.map (fun r => cwrite (fa + fx) n (r.foldl (fun acc c => cadd (fa + fx) acc (c.2 * x.getD c.1 0) (fa + fx)) (0, 0)))
  (l.map Prod.fst, (l.map Prod.snd).sum)

/-- A list of counted values. -/
def cmap (l : List Cnt) : List Int × Nat := (l.map Prod.fst, (l.map Prod.snd).sum)

/-- z from r: scaled by the reciprocals of the diagonal with PRECOND. -/
def cgScale (j : Job) (k : CgFmt) (s : Sys) (r : List Int) : List Int × Nat :=
  if j.precond then
    cmap ((r.zip s.diag).map (fun x =>
      let q := cquot (1, 0) 0 x.2 j.nA k.rd
      let v := cwrite (j.nB + k.rd) k.z (x.1 * q.1, q.2)
      v))
  else (r, 0)

/-- The start of conjugate gradients. -/
def cgStart (j : Job) (k : CgFmt) (s : Sys) (b x : List Int) : Iter :=
  let f := max j.nB (j.nA + j.nX)
  let r := cmap (s.rows.zipIdx.map (fun row =>
    cwrite f j.nB (row.1.foldl (fun acc c => cadd f acc (-(c.2 * x.getD c.1 0)) (j.nA + j.nX)) (cadd f (0, 0) (b.getD row.2 0) j.nB))))
  let z := cgScale j k s r.1
  let rz := cdot r.1 z.1
  { x := x, r := r.1, p := z.1, rz := rz.1, sats := r.2 + z.2 + rz.2 }

/-- One iteration (R320): a denominator below the floor sets its step or β to 0. -/
def cgStep (j : Job) (k : CgFmt) (s : Sys) (it : Iter) : Iter :=
  let below := fun (v : Int) (f : Nat) => decide ((v.natAbs : Int) * (2 ^ j.nA : Nat) < j.floor * (2 ^ f : Nat))
  let ap := s.times j.nA k.z k.ap it.p
  let den := cdot it.p ap.1
  let al := if below den.1 (k.z + k.ap) then (0, 0) else cquot (it.rz, 0) (j.nB + k.z) den.1 (k.z + k.ap) k.al
  let fx := max j.nX (k.al + k.z)
  let x := cmap ((it.x.zip it.p).map (fun v => cwrite fx j.nX (cadd fx (cadd fx (0, 0) v.1 j.nX) (al.1 * v.2) (k.al + k.z))))
  let fr := max j.nB (k.al + k.ap)
  let r := cmap ((it.r.zip ap.1).map (fun v => cwrite fr j.nB (cadd fr (cadd fr (0, 0) v.1 j.nB) (-(al.1 * v.2)) (k.al + k.ap))))
  let z := cgScale j k s r.1
  let rz := cdot r.1 z.1
  let be := if below it.rz (j.nB + k.z) then (0, 0) else cquot (rz.1, 0) (j.nB + k.z) it.rz (j.nB + k.z) k.be
  let fp := max k.z (k.be + k.z)
  let p := cmap ((z.1.zip it.p).map (fun v => cwrite fp k.z (cadd fp (cadd fp (0, 0) v.1 k.z) (be.1 * v.2) (k.be + k.z))))
  { x := x.1, r := r.1, p := p.1, rz := rz.1, sats := it.sats + ap.2 + den.2 + al.2 + x.2 + r.2 + z.2 + rz.2 + be.2 + p.2 }

/-- Runs a step n times. -/
def iterateN (f : Iter → Iter) : Nat → Iter → Iter
  | 0, s => s
  | n + 1, s => iterateN f n (f s)

/-- The context area of a segmented job (R322, R328): of each right-hand side 16 n bytes, the iterate x and, for kind 4, the CG vectors r,
p and z as 32-bit values (log 73). -/
def contextBytesOf (j : Job) (k : CgFmt) (s : Sys) (l : List Iter) : List Byte :=
  l.flatMap (fun it =>
    (it.x ++ (if j.kind = 4 then it.r ++ it.p ++ (cgScale j k s it.r).1 else List.replicate (3 * it.x.length) 0)).flatMap
      (fun v => leBytes 4 (pat 32 v)))

/-- The iterates of a context area, with the saturations counted so far. -/
def contextIters (j : Job) (n : Nat) (b : List Byte) (sats : List Nat) : List Iter :=
  sats.zipIdx.map (fun q =>
    let v := fun (i : Nat) => (List.range n).map (fun u => sgn 32 (leNat ((b.drop (16 * n * q.2 + 4 * (n * i + u))).take 4)))
    if j.kind = 4 then { x := v 0, r := v 1, p := v 2, rz := (cdot (v 1) (v 3)).1, sats := q.1 }
    else { x := v 0, r := [], p := [], rz := 0, sats := q.1 })

/-! ## Completion (R323 to R326) -/

/-- What a completion record tells. -/
structure Done where
  cause : Nat
  status : Nat
  floored : Bool
  sat : Bool
  notDef : Bool
  noSol : Bool
  done : Nat
  first : Nat
  floorCount : Nat
  tv : Int
  told : Int
  satCount : Nat
  count2 : Nat
  residual : Int
deriving DecidableEq, Repr

def Done.plain : Done :=
  { cause := 0, status := 0, floored := false, sat := false, notDef := false, noSol := false, done := 0, first := 0, floorCount := 0,
    tv := 0, told := 0, satCount := 0, count2 := 0, residual := 0 }

/-- The 40 bytes of R325. -/
def Done.words (r : Done) : List Word :=
  [packW [(16, r.cause), (4, r.status), (1, b2n r.floored), (1, b2n r.sat), (1, b2n r.notDef), (1, b2n r.noSol), (8, r.done),
          (16, r.first), (16, satU 16 r.floorCount)],
   BitVec.ofInt 64 r.tv, BitVec.ofInt 64 r.told, packW [(32, satU 32 r.satCount), (32, satU 32 r.count2)],
   BitVec.ofInt 64 (satS 64 r.residual)]

/-- Solution copy of a buffer. -/
def Fusion.sol (f : Fusion) (a : Nat) : Solution := kget Solution.reset f.sols a

/-- Address of copy `b` of a solution buffer: its tensor descriptor of 80 bytes, then its solved instant (R324; log 65). -/
def Job.copyAt (j : Job) (b : Nat) : Nat := j.sol + 96 * b

/-- The descriptor of the candidate copy, whose elements are 32-bit values (R308, R324). -/
def Dev.solDesc (d : Dev) (j : Job) : TDesc := { d.tdescAt none (j.copyAt d.candBank) with ty := 8 }

/-- Index of value `i` of a solution: unknowns, right-hand sides, blocks (log 26). -/
def Job.solIndex (j : Job) (n i : Nat) : List Nat := [i % n, i / n % j.rhsN, i / (n * j.rhsN), 0, 0]

/-- Writes the candidate copy: its values, the producer's fields of its descriptor, its solved instant (R124, R126, R324). -/
def Dev.putSol (d : Dev) (j : Job) (x : Solution) (t : Option Times) : Dev :=
  let td := d.solDesc j
  let n := d.jobN j
  let vals := if x.none then List.replicate (n * j.rhsN * j.blocks) 0 else x.vals
  let l := (vals.zipIdx.map (fun v => (j.solIndex n v.2, v.1))).filter (fun v => inExt td (v.1.map Int.ofNat))
  let d := (l.foldl (fun d v => d.eltPut none td v.1 (pat 32 v.2)) d).healElts none td (l.map Prod.fst)
  let d := (d.putTimes none (j.copyAt d.candBank) t x.faulted).storeA none (j.copyAt d.candBank + 80) (leBytes 8 (pat 64 x.solved))
  d.modFusN (fun f => { f with sols := kset Solution.reset f.sols j.sol x })

/-- The engine's entry ends: the record is written, then the sync object of the entry is signalled (R201, R325). -/
def Dev.endJob (d : Dev) (e : Nat) (r : RunJob) (rec : Option Done) (err : Bool) : Dev :=
  let d := d.modSolver e (fun s => { s with job := none })
  let d := (match rec with
    | some x => d.storeA none (jobOf r.words).cpl (wordsLe x.words)
    | none => d)
  let cause := match rec with | some x => x.cause | none => 0
  d.finish r.ticket (some r.partition) (err || r.ticket.bad) (if cause = 0 then r.ticket.cause else cause)

/-- A FAULTED job (R309, R313, R326): the record, and FAULTED in the candidate copy's descriptor. -/
def Dev.faultJob (d : Dev) (e : Nat) (r : RunJob) (cause : Nat) : Dev :=
  let j := jobOf r.words
  let d := d.markFaulted none (j.copyAt d.candBank)
  let d := d.modFusN (fun f => { f with sols := kset Solution.reset f.sols j.sol { f.sol j.sol with faulted := true } })
  d.endJob e r (some { Done.plain with cause := cause, status := 5 }) true

/-- The engine goes out of service (R329). -/
def Dev.engineOut (d : Dev) (e : Nat) : Dev :=
  if (d.solver e).out then d
  else
    let d := d.raise 0x0A0A e 0
    let d := d.modSolver e (fun s => { s with out := true })
    match (d.solver e).job with
    | some r => d.faultJob e r 0x0A0A
    | none => d

/-- The write term S of a job in clocks (R297, R322, R323). -/
def Dev.storeTerm (d : Dev) (j : Job) : Nat :=
  let n := d.jobN j
  if j.kind = 9 then
    let h := d.loadW none j.str
    64 + ceilDiv (4 * wfld h 63 48) 64 + ceilDiv (4 * wfld h 47 32) 64
  else if j.batch then 64 + ceilDiv (4 * j.rhsN * n * j.blocks + j.blocks) 128
  else 64 + ceilDiv (8 * j.rhsN * n) 128

/-- The cut time has come (R323): DEADLINE minus S + 64 clocks of 1.4 GHz, in ticks rounded down. -/
def Dev.cutDue (d : Dev) (e : Nat) (r : RunJob) : Bool :=
  let deadline := entryDeadline (d.entry r.ticket.table r.ticket.entry)
  decide (deadline ≠ 0) && decide (7 * ((d.pass (24 + e)).tick + deadline) ≤ 7 * d.tick + 2 * (d.storeTerm (jobOf r.words) + 64) + 6)

/-- Times of the solution: those of the inputs (R126, R314). -/
def Job.inputs (j : Job) : List Nat :=
  (if j.kind = 9 then [] else [j.rhs]) ++ (if j.sparse then (if j.delta = 0 then [] else [j.delta]) else if j.kind = 9 then [] else [j.str])

/-- The cycle the engine works on. -/
def Dev.jobCycle (d : Dev) : Nat × Int := match d.computing with | some c => (c.number, c.tv) | none => (d.cyc.number.toNat, d.cyc.tv)

/-- A solution of the job's values with its inputs' times. -/
def Dev.freshSol (d : Dev) (j : Job) (vals : List Int) : Solution :=
  match joinAll (d.inputTimes none (j.inputs)) with
  | some t => { vals := vals, solved := t.tv, tv := t.tv, told := t.told, cycle := t.cycle, faulted := t.faulted, none := false }
  | none => { vals := vals, solved := d.jobCycle.2, tv := d.jobCycle.2, told := d.jobCycle.2, cycle := d.jobCycle.1, faulted := false, none := false }

/-- The committed solution under the current cycle's T_V and CYCLE (R324). -/
def Dev.committedSol (d : Dev) (j : Job) : Solution :=
  let c := d.fusC.sol j.sol
  { c with tv := d.jobCycle.2, cycle := d.jobCycle.1, told := if c.none then d.jobCycle.2 else c.told }

/-- The producer's fields of a fresh result: the inputs' joined (R126, R314). -/
def Dev.freshTimes (d : Dev) (j : Job) : Option Times := joinAll (d.inputTimes none j.inputs)

/-- The producer's fields of a copied result: the committed copy's, under the cycle's T_V and CYCLE and with the copy's T_OLD (R324). -/
def Dev.staleTimes (d : Dev) (j : Job) (x : Solution) : Option Times :=
  some { d.timesAt none (j.copyAt (1 - d.candBank)) with tv := pat 64 x.tv, told := pat 64 x.told, cycle := x.cycle, faulted := x.faulted }

/-- A job delivers: causes of R316 to R318 and R323 (0x0A04 of every cut iterate), the solution and its record. -/
def Dev.deliver (d : Dev) (e : Nat) (r : RunJob) (x : Solution) (t : Option Times) (cut : Bool) (k : Done) : Dev :=
  let j := jobOf r.words
  let x := { x with faulted := x.faulted || r.ticket.bad }
  let causes := (if k.floored then [0x0A01] else []) ++ (if k.sat then [0x0A02] else []) ++ (if k.notDef then [0x0A03] else []) ++
    (if cut then [0x0A04] else []) ++ (if k.status = 4 then [0x0A05] else [])
  let d := causes.foldl (fun d c => d.raise c e 0) d
  let d := if k.sat || k.notDef then d.occur 0x6800 3 else d
  let d := d.putSol j x t
  d.endJob e r (some { k with cause := if k.cause ≠ 0 then k.cause else causes.headD 0, tv := x.solved, told := x.told,
                              noSol := x.none }) x.faulted

/-- An aborted job delivers the committed solution with status STALE (R323, R324). -/
def Dev.abortJob (d : Dev) (e : Nat) (r : RunJob) : Dev := 
  let j := jobOf r.words
  d.deliver e r (d.committedSol j) (d.staleTimes j (d.committedSol j)) false { Done.plain with status := 4 }

/-- The rows of the auction's job: end of the job with the assignment (R295). -/
def Dev.deliverAuction (d : Dev) (e : Nat) (r : RunJob) (s : Auction) (m : CostMatrix) (status phases rounds : Nat) (cut : Bool) : Dev :=
  let open_ := (s.active m).length
  let d := match r.track with | some k => d.endAuction k m s status | none => d
  let d := d.raiseIf cut 0x0A04 e 0
  let code := if status = 1 then 1 else if status = 2 then 2 else if status = 3 then 3 else 0
  d.endJob e r (some { Done.plain with
    cause := if status = 0 then 0 else 0x0903 + status, status := code, sat := s.sat, done := phases, satCount := rounds, count2 := open_,
    tv := d.jobCycle.2, told := d.jobCycle.2 }) false

/-- Runs an auction to its end or to a cut. -/
def Dev.runAuction (d : Dev) (e : Nat) (r : RunJob) (cut : Option (Nat × Nat)) : Dev :=
  let m := d.costMatrix (jobOf r.words).str
  let a := d.auctionSet
  match cut with
  | some (done, rounds) =>
    let s := Auction.cutAt a m done rounds
    d.deliverAuction e r s m (if s.sat then 3 else 2) done rounds true
  | none =>
    let x := Auction.run a m a.phases
    d.deliverAuction e r x.1 m (if x.1.sat then 3 else if (x.1.active m).isEmpty then 0 else 1) a.phases x.2 false

/-- Merges the delta list; a violation of R313 stops the job (answer false). -/
def Dev.mergeDelta (d : Dev) (j : Job) : Dev × Bool :=
  let h := d.strucAt j.str
  let l := d.deltaRows j
  if d.deltaOk h l then (d.mergeBank h l, true) else (d, false)

/-- A direct job on a resident structure (kinds 1 and 2). -/
def Dev.runSparse (d : Dev) (e : Nat) (r : RunJob) : Dev :=
  let j := jobOf r.words
  let x := d.mergeDelta j
  if x.2 = false then (x.1.raise 0x0A06 e 0).faultJob e r 0x0A06
  else
    let d := x.1
    let h := d.strucAt j.str
    let s := solveAll j (d.sparseMat h) ((List.range j.rhsN).map (d.rhsOf j h.n 0))
    let d := d.storeFactor j h s.2
    let bad := decide (0 < s.1.sats) || s.1.notDef
    d.deliver e r (d.freshSol j s.1.vals) (d.freshTimes j) false
      { Done.plain with
        status := if bad then 3 else 0, floored := decide (0 < s.1.floored), sat := decide (0 < s.1.sats), notDef := s.1.notDef,
        first := s.1.first.getD 0, floorCount := s.1.floored, satCount := s.1.sats }

/-- A dense job, or a batch of blocks (kinds 5 to 8, R321). -/
def Dev.runDense (d : Dev) (e : Nat) (r : RunJob) : Dev :=
  let j := jobOf r.words
  let n := d.jobN j
  let l := (List.range j.blocks).map (fun k => (solveAll j (d.denseMat j n k) ((List.range j.rhsN).map (d.rhsOf j n k))).1)
  let bad := fun (s : Solved) => decide (0 < s.sats) || s.notDef
  let d := if j.batch then
      let t := d.tdescAt none j.aux
      (l.zipIdx.foldl (fun d x => d.eltPut none t [x.2, 0, 0, 0, 0]
        (b2n (decide (0 < x.1.floored)) + 2 * b2n (bad x.1) + 4 * b2n x.1.notDef)) d).healElts none t
          ((List.range l.length).map (fun i => [i, 0, 0, 0, 0])) |>.putTimes none j.aux (d.freshTimes j) false
    else d
  let sats := (l.map Solved.sats).sum
  let fl := (l.map Solved.floored).sum
  d.deliver e r (d.freshSol j (l.flatMap Solved.vals)) (d.freshTimes j) false
    { Done.plain with
      status := if l.any bad then 3 else 0, floored := decide (0 < fl), sat := decide (0 < sats), notDef := l.any Solved.notDef,
      first := (l.findSome? Solved.first).getD 0, floorCount := fl, satCount := sats, count2 := (l.filter bad).length }

/-- The iterates at the start: zero, or the committed solution with WARM (R308, R324). -/
def Dev.startIters (d : Dev) (w : List Word) (j : Job) (h : Struc) (s : Sys) : List Iter :=
  let c := (d.fusC.sol j.sol).vals
  (List.range j.rhsN).map (fun b =>
    let x := (List.range h.n).map (fun u => if j.warm then c.getD (b * h.n + u) 0 else 0)
    if j.kind = 4 then cgStart j (cgFmt j w) s (d.rhsOf j h.n 0 b) x else { x := x, r := [], p := [], rz := 0, sats := 0 })

/-- Runs `n` iterations of every right-hand side. -/
def Dev.stepIters (d : Dev) (w : List Word) (j : Job) (h : Struc) (s : Sys) (n : Nat) (l : List Iter) : List Iter :=
  l.zipIdx.map (fun x => iterateN (if j.kind = 4 then cgStep j (cgFmt j w) s else sweep j s (d.rhsOf j h.n 0 x.2)) n x.1)

/-- The end of an iterative job with `done` iterations. -/
def Dev.deliverIters (d : Dev) (e : Nat) (r : RunJob) (j : Job) (s : Sys) (l : List Iter) (done : Nat) (cut : Bool) : Dev :=
  let sats := (l.map Iter.sats).sum
  let x := d.freshSol j (l.flatMap Iter.x)
  let x := if cut && done == 0 then
      (let c := d.committedSol j; { x with solved := c.solved, told := c.told, none := c.none }) else x
  let t := if cut && done == 0 then d.staleTimes j x else d.freshTimes j
  let d := d.modSolver e (fun v => { v with saved := kset [] v.saved j.aux [] })
  d.deliver e r x t cut
    { Done.plain with
      status := if 0 < sats then 3 else if cut then 2 else 0, floored := decide (0 < s.floored), sat := decide (0 < sats), done := done,
      first := s.first.getD 0, floorCount := s.floored, satCount := sats,
      residual := if j.kind = 4 then (match l with | [] => 0 | it :: _ => (cdot it.r it.r).1) else 0 }

/-- An iterative job or one of its segments (kinds 3 and 4). `cut` gives the iterations this segment completed. -/
def Dev.runIters (d : Dev) (e : Nat) (r : RunJob) (cut : Option Nat) : Dev :=
  let j := jobOf r.words
  let saved := kget [] (d.solver e).saved j.aux
  let seg := saved.getD 0 0
  let prev := saved.getD 1 0
  if saved.length = 2 then
    -- a segment after the cut that ended the job: its context holds no iterates
    let d := d.modSolver e (fun v => { v with saved := kset [] v.saved j.aux (if seg + 1 < j.segs then [seg + 1, prev] else []) })
    d.endJob e r none false
  else
    let x := if seg = 0 then d.mergeDelta j else (d, true)
    if x.2 = false then (x.1.raise 0x0A06 e 0).faultJob e r 0x0A06
    else
      let d := x.1
      let h := d.strucAt j.str
      let s := d.sysOf j h (j.kind == 3 || j.precond)
      let start := if seg = 0 then d.startIters r.words j h s
        else contextIters j h.n (d.loadA none j.aux (16 * h.n * j.rhsN)) ((saved.drop 2).take j.rhsN)
      let each := j.iters / j.segs
      match cut with
      | some k =>
        let l := d.stepIters r.words j h s (min k each) start
        let d := d.deliverIters e r j s l (prev + min k each) true
        if seg + 1 < j.segs then d.modSolver e (fun v => { v with saved := kset [] v.saved j.aux [seg + 1, prev + min k each] }) else d
      | none =>
        let l := d.stepIters r.words j h s each start
        if seg + 1 < j.segs then
          ((d.storeA none j.aux (contextBytesOf j (cgFmt j r.words) s l)).modSolver e (fun v => { v with
            saved := kset [] v.saved j.aux ([seg + 1, prev + each] ++ l.map Iter.sats) })).endJob e r none false
        else d.deliverIters e r j s l (prev + each) false

/-- The job runs to its end. -/
def Dev.runJob (d : Dev) (e : Nat) (r : RunJob) : Dev :=
  let k := (jobOf r.words).kind
  if k = 9 then d.runAuction e r none
  else if k = 3 ∨ k = 4 then d.runIters e r none
  else if k ≤ 2 then d.runSparse e r
  else d.runDense e r

/-- The job is cut (R323). -/
def Dev.cutJob (d : Dev) (e : Nat) (r : RunJob) (done rounds : Nat) : Dev :=
  let k := (jobOf r.words).kind
  if k = 9 then d.runAuction e r (some (done, rounds))
  else if k = 3 ∨ k = 4 then d.runIters e r (some done)
  else d.abortJob e r

/-! ## Commands -/

/-- R127, R195: `n` bytes that a job writes belong to its partition: a scratchpad of one of its logical Pods, or its Hoard ranges. -/
def Dev.solverMay (d : Dev) (part a n : Nat) : Bool :=
  (d.physRanges none a (a + (n - 1))).isSome &&
    (if fld a 47 44 = 1 then (match d.prog.prog with
       | some p => (p.partitionPods.getD part []).contains (fld a 43 39)
       | none => false)
     else d.partitionMay part true a n)

/-- The bytes a job writes: both copies' heads, the candidate's values, the record, the block status and the context area (R308). -/
def Dev.jobWrites (d : Dev) (j : Job) : List (Nat × Nat) :=
  let rows := fun (t : TDesc) => t.boxRows [0, 0, 0, 0, 0] (t.ext.map Int.ofNat)
  [(j.copyAt d.candBank, 88), (j.cpl, 40)] ++ (if j.kind = 9 then [] else rows (d.solDesc j)) ++
    (if j.aux = 0 then []
     else if j.batch then (j.aux, 80) :: rows (d.tdescAt none j.aux)
     else [(j.aux, 16 * d.jobN j * j.rhsN)])

def solve (e : Nat) (w : List Word) (part work : Nat) (track : Option Nat) (d : Dev) : Dev :=
  let s := d.solver e
  if s.out then
    (match d.nextOf (24 + e) 6 with | some i => d.skipEntry (24 + e) i 0x0602 | none => d)
  else if s.job.isSome ∨ d.inRun = false then d
  else
    match d.starts (24 + e) 6 work with
    | some i =>
      let r : RunJob := { words := w, ticket := d.ticket (24 + e) i, partition := part, track := track }
      let d := d.startEntry (24 + e) i
      let c := d.jobRefusal w (entryClass (d.entry (24 + e) i))
      if c ≠ 0 then (d.raise c e 0).faultJob e r c
      else if !((d.jobWrites (jobOf w)).all (fun x => d.solverMay part x.1 x.2)) then (d.raise 0x0407 e 0).faultJob e r 0x0407
      else if d.cutDue e r then d.cutJob e r 0 0
      else d.modSolver e (fun s => { s with job := some r })
    | none => d

/-- SOLVE (R127, R201, R307, R309, R323, R329): the engine takes the job of its table's next ready entry; a job that would write bytes of
another partition is refused as the mover refuses it (log 65). -/
def execSolve (e : Fin 4) (job : List Word) (partition : Fin 8) (work : Nat) (trackClass : Option (Fin 8)) (s : State) : Out :=
  s.next (solve e job partition.val work (trackClass.map Fin.val) s.dev)

/-- R326, R329: a lost compare; two within 64 cycles take the engine out. -/
def Dev.engineCompare (d : Dev) (e : Nat) : Dev :=
  let c := d.cyc.number.toNat
  let l := (c :: (d.solver e).compares).filter (fun x => decide (c < x + 64))
  let d := (d.raise 0x0A08 e 0).occur 0x6802 (e + 1)
  let d := d.modSolver e (fun s => { s with compares := l })
  if 2 ≤ l.length then d.engineOut e else d

/-- Keys of what a job reads: its input tensors with their descriptors; of a structure the header, the row offsets, the indices, the map
and value bank 0; the cost matrix (R291, R308, R311, R326). -/
def Dev.jobKeys (d : Dev) (e : Nat) (j : Job) : List (Nat × Nat) :=
  let h := d.strucAt j.str
  j.inputs.flatMap (fun a => d.rowKeys none [(a, 80)] ++ d.tensorKeys none (d.tdescAt none a)) ++
    d.rowKeys none ((if j.sparse then
        [(j.str, 80), (h.rowPtr, 4 * (h.n + 1)), (h.idxA, 2 * h.a), (h.bank0, 4 * h.a)] ++
          (if j.kind ≤ 2 then [(h.idxL, 2 * h.z + 4 * (h.n + 1)), (h.map, 4 * h.a)]
           else if j.aux ≠ 0 ∧ 2 < (kget [] (d.solver e).saved j.aux).length then [(j.aux, 16 * h.n * j.rhsN)] else [])
      else if j.kind = 9 then
        [(j.str, 8 + 4 * (wfld (d.loadW none j.str) 63 48 + 1) + 8 * wfld (d.loadW none j.str) 31 0)]
      else []).filter (fun r => decide (r.2 ≠ 0)))

def solverJobComplete (e : Nat) (lost parity : Bool) (ecc : List EccEvent) (d : Dev) : Dev :=
  match (d.solver e).job with
  | none => d
  | some r =>
    let j := jobOf r.words
    let x := d.readKeys (d.jobKeys e j) ecc
    let d := x.1
    let poison := x.2
    if lost then (d.faultJob e r 0x0A08).engineCompare e
    else if poison ≠ 0 then d.faultJob e r poison
    else if timesMismatch false (d.inputTimes none (j.inputs)) then (d.raise 0x0406 e 0).faultJob e r 0x0406
    else if parity then (d.faultJob e r (d.freeNat 12 65536)).bumpFree
    else d.runJob e r

/-- SOLVER_JOB_COMPLETE (R295, R312 to R326): the result, the record and the signal; poison, a parity error or a lost compare
makes the job FAULTED. -/
def execSolverJobComplete (e : Fin 4) (compareLost parity : Bool) (ecc : List EccEvent) (s : State) : Out :=
  s.next (solverJobComplete e compareLost parity ecc s.dev)

def solverCut (e done rounds : Nat) (d : Dev) : Dev :=
  match (d.solver e).job with
  | some r => if d.cutDue e r then d.cutJob e r done rounds else d
  | none => d

/-- SOLVER_CUT (R323, R324, R327): the progress reached by the cut time. -/
def execSolverCut (e : Fin 4) (done rounds : Nat) (s : State) : Out := s.next (solverCut e done rounds s.dev)

def solverSelftest (e : Nat) (ok : Bool) (d : Dev) : Dev :=
  if (d.solver e).out = true ∨ d.up = false ∨ d.chunkRuns 5 e = false then d
  else if ok then d.tested 5 e
  else (((d.dropChunk 5 e).raise 0x0A09 e 0).occur 0x6802 (e + 1)).engineOut e

/-- SOLVER_SELFTEST (R211 kind 5, R212, R329): the engine's admitted chunk with the expected digest moves its engine's pass on; a digest that
differs takes the engine out of service. -/
def execSolverSelftest (e : Fin 4) (digestOk : Bool) (s : State) : Out := s.next (solverSelftest e digestOk s.dev)

/-! ## Loss of a PLL (R449) -/

def pllLossOfLock (pll : Nat) (d : Dev) : Dev :=
  if d.up = false then d
  else if pll < 25 then
    (if (d.pod pll).state = .out ∨ podsOf d.code ≤ pll then d else (d.raise 0x030A pll 0).takeOut pll)
  else if pll < 29 then d.engineOut (pll - 25)
  else if pll < 31 then hullLockstep d
  else d.refFault 0x0109 srcRefClock

/-- PLL_LOSS_OF_LOCK (R449): 0–24 the Pods, 25–28 the solver engines, 29 and 30 the Hull halves, 31 the time unit. -/
def execPllLossOfLock (pll : Fin 32) (s : State) : Out := s.next (pllLossOfLock pll.val s.dev)

end Sys2Proof.Machine
end

