-- ==== Sys2Proof/Machine/Image.lean ====
section
/-! DEFINITION. Reading a program package from the bytes of its slot: the header, the section table, the window tables and the range
records (R154, R179 to R182, R191). Words lie little-endian, as in memory (log 66). -/

namespace Sys2Proof.Machine

open Sys2Proof

/-- `n` bytes from a place on. -/
def bytesFrom (l : List Byte) (off n : Nat) : List Byte := (l.drop off).take n

/-- The header (R180). -/
def pkgHeader (img : List Byte) : PkgHeader :=
  let ws := leWords 32 (bytesFrom img 0 256)
  let w := wat ws
  { magic := wfld (w 0) 63 32, format := wfld (w 0) 31 16, hdrLen := wfld (w 0) 15 0, contractMajor := wfld (w 1) 63 48,
    contractMinor := wfld (w 1) 47 32, minStep := wfld (w 1) 31 16, target := wfld (w 1) 15 8, keySlot := wfld (w 1) 7 0,
    secVersion := wfld (w 2) 63 32, sections := wfld (w 2) 31 0, bodyLen := (w 3).toNat, periodMin := wfld (w 4) 63 32,
    periodMax := wfld (w 4) 31 0, buildId := w 5,
    digest := BitVec.ofNat 256 ((((w 6).toNat * 2 ^ 64 + (w 7).toNat) * 2 ^ 64 + (w 8).toNat) * 2 ^ 64 + (w 9).toNat),
    partitions := wfld (w 10) 63 56, reservedZero := decide (wfld (w 10) 55 0 = 0) && (ws.drop 11).all (· == 0) }

/-- Entry `i` of the section table (R181). -/
def pkgSection (img : List Byte) (i : Nat) : PkgSection :=
  let w := wat (leWords 4 (bytesFrom img (256 + 32 * i) 32))
  { type := wfld (w 0) 63 56, part := wfld (w 0) 55 48, dest := wfld (w 0) 47 0, offset := (w 1).toNat, length := (w 2).toNat,
    reservedZero := w 3 == 0 }

/-- The bytes of a section. -/
def PkgSection.bytes (s : PkgSection) (img : List Byte) : List Byte := bytesFrom img (256 + s.offset) s.length

/-- The logical Pods of a partition in ascending order. -/
def podsOfPart (c : PkgContent) (part : Nat) : List Nat := (List.range 24).filter (fun l => (c.partitionPods.getD part []).contains l)

/-- The entries of a window section (R154): 64 of 16 bytes for each logical Pod of the partition in turn (log 66). -/
def windowEntries (pods : List Nat) (l : List Byte) : List WinEntry :=
  let ws := leWords (l.length / 8) l
  (List.range (l.length / 16)).map (fun i =>
    let a := wat ws (2 * i)
    let b := wat ws (2 * i + 1)
    { pod := pods.getD (i / 64) 24, win := i % 64, base := wfld a 63 40, size := wfld a 39 16, en := wbit a 0, stp := wfld b 39 16,
      reservedZero := decide (wfld a 15 1 = 0) && decide (wfld b 15 0 = 0) })

/-- The engine operations of a list of logical Pods: Pod and place in its table. -/
def engineOps (c : PkgContent) (pods : List Nat) : List (Nat × Nat) :=
  pods.flatMap (fun l => (((c.tables.find? (fun t => tableNo t.1 == l)).map Prod.snd).getD []).zipIdx.filterMap (fun e =>
    if entryKind e.1 = 1 then some (l, e.2) else none))

/-- The records of a range section (R191), one for each engine operation of the partition in turn (log 66). -/
def rangeRecords (ops : List (Nat × Nat)) (l : List Byte) : List RangeRec :=
  let ws := leWords (l.length / 8) l
  (List.range (l.length / 16)).map (fun i =>
    let a := wat ws (2 * i)
    let b := wat ws (2 * i + 1)
    { pod := (ops.getD i (24, 0)).1, op := wfld a 63 32, satLimit := wfld a 31 16, kind := wfld a 15 14, action := wfld a 13 12,
      cls := wfld a 11 10, lo := wfld b 63 32, hi := wfld b 31 0, reservedZero := decide (wfld a 9 0 = 0) })

/-- A package as the device reads it from its slot. -/
def readPackage (img : List Byte) (c : PkgContent) : Package :=
  let h := pkgHeader img
  let secs := (List.range (min 64 h.sections)).map (pkgSection img)
  let ofType := fun (t : Nat) => secs.filter (fun s => s.type == t)
  { toPkgContent := c, toPkgHeader := h, total := img.length, sectionTable := secs,
    windows := (ofType 4).flatMap (fun s => windowEntries (podsOfPart c s.part) (s.bytes img)),
    ranges := (ofType 8).flatMap (fun s => rangeRecords (engineOps c (podsOfPart c s.part)) (s.bytes img)),
    loads := (secs.filter (fun s => decide (s.dest ≠ 0))).map (fun s => (s.dest, s.bytes img)) }

/-- The package in a slot. -/
def PkgSlot.pkg (x : PkgSlot) : Option Package := x.content.map (readPackage x.image)

/-! ## Checks of what was read (R121, R154, R182, R183, R310) -/

/-- Two ranges, each an offset and a length, share no byte. -/
def apart (a b : Nat × Nat) : Bool := decide (a.1 + a.2 ≤ b.1) || decide (b.1 + b.2 ≤ a.1) || decide (a.2 = 0) || decide (b.2 = 0)

/-- No two ranges of a list overlap. -/
def allApart : List (Nat × Nat) → Bool
  | [] => true
  | x :: t => t.all (apart x) && allApart t

/-- The sections that R182 wants once each, for the device; every other type at most once for each partition. Check 1 takes the counts
(log 66). -/
def Package.countsOk (p : Package) : Bool :=
  let n := fun (t q : Nat) => (p.sectionTable.filter (fun s => s.type == t && s.part == q)).length
  [1, 2, 9, 10, 11, 12].all (fun t => n t 255 == 1) &&
    [3, 4, 5, 6, 7, 8].all (fun t => (List.range p.partitions).all (fun q => decide (n t q ≤ 1))) &&
    p.sectionTable.all (fun s => if [1, 2, 9, 10, 11, 12].contains s.type then s.part == 255
      else decide (3 ≤ s.type) && decide (s.type ≤ 8) && decide (s.part < p.partitions))

/-- `n` bytes from a device address lie in one space, at offsets it has (R121, R153). -/
def Dev.addrRange (d : Dev) (a n : Nat) : Bool :=
  let off := fld a 43 0
  match fld a 47 44 with
  | 0 => decide (off + n ≤ 12 * 2 ^ 20)
  | 1 => decide (fld a 43 39 < 24) && decide (fld a 38 0 + n ≤ 12 * 2 ^ 20)
  | 2 => decide (off + n ≤ 96 * 2 ^ 20)
  | 3 => decide (off + n ≤ d.ddrSize)
  | 4 => decide (off + n ≤ 0x800000) || (decide (0x1000000 ≤ off) && decide (off + n ≤ 0x1400000))
  | _ => false

/-- Words that the package loads at an address; none where it loads nothing there. -/
def Package.wordsAt (p : Package) (a n : Nat) : Option (List Word) :=
  (p.loads.find? (fun l => decide (l.1 ≤ a) && decide (a + 8 * n ≤ l.1 + l.2.length))).map (fun l => leWords n (bytesFrom l.2 (a - l.1) (8 * n)))

/-- The addresses of a tensor descriptor that the package loads: base, validity mask and auxiliary table. -/
def Package.tensorAddrs (p : Package) (a : Nat) : List Nat :=
  match p.wordsAt a 10 with
  | some w =>
    let t := tdesc w
    t.base :: (if t.vmKind = 0 then [] else [t.vmAddr]) ++ (if t.auxKind = 0 then [] else [t.auxAddr])
  | none => []

/-- Tensor descriptors that the package's other parts name. -/
def Package.tensors (p : Package) : List Nat :=
  p.descriptors.flatMap (fun w => [(mdesc w).src, (mdesc w).dst]) ++ p.outputs.flatMap (fun o => o.2.2) ++ p.intakeDests.map Prod.snd ++
    p.jobs.flatMap (fun w => let j := jobOf w; (if j.kind = 9 ∨ j.sparse then [] else [j.str]) ++ (if j.kind = 9 then [] else [j.rhs]) ++
      (if j.delta = 0 then [] else [j.delta]))

/-- Every address that a static descriptor names (R183 check 7). -/
def Package.staticAddrs (p : Package) : List Nat :=
  p.tensors ++ p.tensors.flatMap p.tensorAddrs ++ p.descriptors.map (fun w => (mdesc w).cpl) ++
    p.jobs.flatMap (fun w => let j := jobOf w; [j.str, j.sol, j.cpl] ++ (if j.aux = 0 then [] else [j.aux]))

/-- A job of the package keeps to the limits of R310; the structure header or the matrix descriptor it names is in the package. -/
def Package.jobFits (p : Package) (w : List Word) : Bool :=
  let j := jobOf w
  if j.kind = 9 then true
  else if j.sparse then
    (match p.wordsAt j.str 10 with
    | some h => jobLimits j (wfld (wat h 0) 63 48) (wfld (wat h 1) 63 32) (wfld (wat h 0) 31 0)
    | none => false)
  else
    (match p.wordsAt j.str 10 with
    | some t => jobLimits j ((tdesc t).dim 0) 0 0
    | none => false)

/-- Memory within what is installed: the ranges of the partitions, the Pod save area left free, the retained ranges within 192 KiB a Pod
(R152, R183 check 5). -/
def Dev.pkgMemory (d : Dev) (p : Package) : Bool :=
  p.partitionRanges.flatten.all (fun r =>
    if fld r.1 47 44 = 2 then decide (fld r.1 43 0 + r.2 ≤ 0x59C0000)
    else decide (fld r.1 47 44 = 3) && decide (fld r.1 43 0 + r.2 ≤ d.ddrSize)) &&
  p.loads.all (fun l => decide (fld l.1 47 44 ≠ 2) || decide (fld l.1 43 0 + l.2.length ≤ 0x59C0000)) &&
  (List.range 24).all (fun l => decide (((p.retained.filter (fun r => r.1 == l)).map (fun r => r.2.2.2)).sum ≤ 192 * 1024)) &&
  p.retained.all (fun r => match r.2.1 with
    | none => decide (r.2.2.1 + r.2.2.2 ≤ 12 * 2 ^ 20)
    | some c => decide (c < 4) && decide (r.2.2.1 + r.2.2.2 ≤ 2 ^ 18))

/-- Rules of R154 on one window entry. -/
def windowOk (w : WinEntry) : Bool :=
  w.reservedZero && (!w.en || (decide (w.pod < 24) && decide (w.base % 64 = 0) && decide (w.size % 64 = 0) && decide (64 ≤ w.size) &&
    decide (w.size ≤ 0xC00000) && decide (w.base + w.size ≤ 0xC00000) && decide (w.stp % 64 = 0) && decide (w.stp < w.size)))

/-- The enabled windows of each Pod lie apart. -/
def windowsOk (l : List WinEntry) : Bool :=
  l.all windowOk && (List.range 24).all (fun p => allApart ((l.filter (fun w => w.en && w.pod == p)).map (fun w => (w.base, w.size))))

/-- No two partitions share a logical Pod, a range, a sync object or an output stream (R194). -/
def Package.partitionsOk (p : Package) : Bool :=
  decide (1 ≤ p.partitions) && decide (p.partitions ≤ 8) && decide (p.partitionPods.flatten.Nodup) &&
    p.partitionRanges.flatten.all (fun r => decide (r.1 % 65536 = 0) && decide (r.2 % 65536 = 0)) && allApart p.partitionRanges.flatten &&
    allApart p.syncRanges && p.syncRanges.all (fun r => decide (r.1 + r.2 ≤ 16384)) &&
    allApart p.streamRanges && p.streamRanges.all (fun r => decide (r.1 + r.2 ≤ 64))

end Sys2Proof.Machine
end

