-- ==== Sys2Proof/Machine/Package.lean ====
section
/-! DEFINITION. Program packages: the checks, loading, activation, Confirm and start-up (R178 to R190, R222, R224, R256,
R262, R282, R291, R294, R345). -/

namespace Sys2Proof.Machine

open Sys2Proof

/-! ## What a write of an object brings with it -/

/-- A slot follows its Enable object (R59): DISABLED, or WAIT_LINK and at once SYNCING where the link is up; FAULT where the
port's configuration has failed. -/
def Dev.syncSlot (d : Dev) (n : Nat) : Dev :=
  let src := d.cfg (0x3000 + n) 2
  if d.slotOn n = false then
    d.modSlot n (fun s => { s with state := .disabled, causes := [], absentSince := none, silent := 0 }.dropArrival)
  else if (d.slot n).state = .disabled then
    let d := d.modSlot n (fun s => { s with state := if d.intake.linkUp.contains src then .syncing else .waitLink })
    if d.intake.cfgFailed.contains src then d.slotFault n 0x0F09 else d
  else d

/-- Step 9 of start-up has passed, or start-up has ended. -/
def Dev.slotsStarted (d : Dev) : Bool := match d.start.step with | some n => decide (10 ≤ n) | none => true

/-- Effects of a written value beyond the value: slots (R59), TRIG pins (R54), time domains (R41), corrections (R242), geometry
(R225), addresses after 1 s (R397). -/
def Dev.wrote (d : Dev) (idx sub : Nat) : Dev :=
  if 0x3000 ≤ idx ∧ idx ≤ 0x300F ∧ sub = 1 then (if d.slotsStarted then d.syncSlot (idx - 0x3000) else d)
  else if 0x3000 ≤ idx ∧ idx ≤ 0x300F ∧ sub = 0x20 then d.adoptTrigs
  else if idx = 0x4010 ∧ sub = 1 then d.syncDomain .a
  else if idx = 0x4011 ∧ sub = 1 then d.syncDomain .b
  else if 0x5100 ≤ idx ∧ idx ≤ 0x510F ∧ (sub = 1 ∨ sub = 2) then
    { d with fus := { d.fus with zeroReq := sins (idx - 0x5100) d.fus.zeroReq } }
  else if idx = 0x5010 ∧ (sub = 2 ∨ sub = 5 ∨ sub = 6) then { d with fus := { d.fus with geometry := true } }
  else if (idx = 0x1011 ∨ idx = 0x1012) ∧ 2 ≤ sub ∧ sub ≤ 6 then
    { d with palca := { d.palca with
        waiting := d.palca.waiting.filter (fun w => w.1 != okey idx sub) ++ [(okey idx sub, d.tick + sTicks 1)] } }
  else d

/-! ## The checks of R183 -/

/-- Length of a package, its signature included (R179). -/
def pkgBytes (p : Package) : Nat := 256 + p.bodyLen + 2820

/-- Check 1. -/
def pkgFormat (p : Package) : Bool :=
  decide (p.magic = 0x47515750) && decide (p.format = 1) && decide (p.hdrLen = 256) && p.reservedZero && decide (1 ≤ p.sections) &&
    decide (p.sections ≤ 64) && decide (32 * p.sections ≤ p.bodyLen) && p.sectionTable.all (fun s => s.reservedZero &&
      decide (32 * p.sections ≤ s.offset) && decide (s.offset + s.length ≤ p.bodyLen)) &&
    allApart (p.sectionTable.map (fun s => (s.offset, s.length))) && p.countsOk && decide (p.total = pkgBytes p) && decide (p.total ≤ 2 ^ 30)

/-- Check 2. -/
def Dev.pkgSigned (d : Dev) (p : Package) : Bool := d.keyValid p.keySlot && p.signatureOk && p.bodyOk

/-- Check 3. -/
def Dev.pkgTarget (d : Dev) (p : Package) : Bool := decide (p.target = d.code) && decide (p.minStep ≤ d.start.stepping)

/-- Check 4. -/
def Dev.pkgVersion (d : Dev) (p : Package) : Bool :=
  decide (p.contractMajor = 1) && decide (p.contractMinor ≤ d.cfg 0xC000 9) && decide (d.cfg 0xC000 7 ≤ p.secVersion)

/-- A number between two bounds. -/
def within (lo hi v : Nat) : Bool := decide (lo ≤ v) && decide (v ≤ hi)

/-- Grid limits of R222 and R224; a package without a grid names none. -/
def gridOk (g : List Nat) : Bool :=
  let x := g.getD 0 0
  let y := g.getD 1 0
  let cols := g.getD 4 0
  let rows := g.getD 5 0
  g.isEmpty || (within 16 1024 x && within 16 1024 y && within 1 24 (g.getD 2 0) && within 16 256 (g.getD 3 0) &&
    decide (1 ≤ cols) && decide (1 ≤ rows) && decide (cols * rows ≤ 24) && decide (x % (16 * cols) = 0) && decide (y % (16 * rows) = 0))

/-- Attention limits of R256, R261 and R262; a package without attention names none. -/
def attentionOk (g a : List Nat) : Bool :=
  let regions := g.getD 4 0 * g.getD 5 0
  let t := a.getD 8 0
  let w := a.getD 4 0
  let pe := a.getD 13 0
  let pr := a.getD 14 0
  a.isEmpty || (decide (a.getD 0 0 ≤ 1) && (List.range 10).any (fun i => a.getD 1 0 == 2 ^ (12 + i)) && within 1 64 w &&
    within 1 8 (a.getD 5 0) && decide (a.getD 5 0 ≤ w) && decide (a.getD 6 0 ≤ w) && decide (a.getD 7 0 ≤ 8) && [1, 2, 4, 8].contains t &&
    decide (g.getD 0 0 / max 1 (g.getD 4 0) % max 1 t = 0) && decide (g.getD 1 0 / max 1 (g.getD 5 0) % max 1 t = 0) &&
    decide (a.getD 9 0 ≤ 3) && within 1 16 (a.getD 10 0) && [32, 64, 128].contains (a.getD 11 0) &&
    decide (a.getD 10 0 * a.getD 11 0 ≤ 256) && within 1 4 (a.getD 12 0) &&
    decide (regions * (w * pe + (a.getD 6 0 + 1) * pr) ≤ a.getD 2 0) && decide (regions * a.getD 5 0 * pe ≤ a.getD 3 0) &&
    decide (a.getD 2 0 * a.getD 1 0 ≤ 2 ^ 35))

/-- Limits of the track classes (R282, R291). -/
def classesOk (l : List (List Nat)) : Bool :=
  decide (l.length ≤ 8) && l.all (fun c => within 1 2048 (c.getD 1 0) && within 1 2048 (c.getD 2 0) &&
    decide (c.getD 2 0 * c.getD 3 0 ≤ 65536) && decide (c.getD 0 0 + c.getD 1 0 ≤ 12288)) &&
    allApart (l.map (fun c => (c.getD 0 0, c.getD 1 0)))

/-- The last phase of the auctions reaches the final ε (R294). -/
def auctionOk (a : List Nat) : Bool :=
  let s : AuctionSet :=
    { eps0 := sgn 32 (a.getD 0 0), epsF := sgn 32 (a.getD 1 0), div := max 1 (a.getD 2 0), phases := a.getD 3 0, rounds := a.getD 4 0 }
  a.isEmpty || (within 2 16 (a.getD 2 0) && within 1 16 s.phases && within 1 1024 s.rounds && decide (s.eps (s.phases - 1) = s.epsF))

/-- Check 5. -/
def Dev.pkgResource (d : Dev) (p : Package) : Bool :=
  p.partitionPods.flatten.all (fun l => decide (l < podsOf d.code - 1)) && decide (p.syncObjects ≤ 16384) && decide (p.streams ≤ 64) &&
    decide (p.trackSlots ≤ 12288) && decide (p.zones ≤ 64) && decide (p.pairs ≤ 256) && p.jobs.all p.jobFits && d.pkgMemory p &&
    decide (p.floorA + 60 ≤ d.cfg 0x8000 1) && gridOk p.grid && attentionOk p.grid p.attention && classesOk p.classes &&
    auctionOk p.auction

/-- The value an object has once the package's values are in place: those of its sections, else the stored one. -/
def Dev.withPackage (d : Dev) (p : Package) (idx sub : Nat) : Nat :=
  (((p.streamMap ++ p.defaults).find? (fun x => x.1 == okey idx sub)).map (fun x => x.2.headD 0)).getD (d.cfg idx sub)

/-- The time-slice table of the package covers every enabled slot (R74). -/
def Dev.pkgSlices (d : Dev) (p : Package) : Bool :=
  let named := (List.range (d.withPackage p 0x3200 1)).map (fun i => d.withPackage p 0x3200 (0x10 + i) / 256)
  (List.range (slotsOf d.code)).all (fun n => decide (d.cfg (0x3000 + n) 1 = 0) || named.contains n)

/-- Check 6. -/
def Dev.pkgSchedule (d : Dev) (p : Package) : Bool :=
  let compute := p.toUs - d.cfg 0x5000 2
  decide (compute ≤ 4000) && decide (compute ≤ d.cfg 0x5000 1) && within p.periodMin p.periodMax (d.cfg 0x5000 1) &&
    d.pkgSlices p &&
    decide (0 < p.commitUs) && decide (3656 ≤ (p.commitUs - p.summaryUs) * 100)

/-- Check 7. -/
def Dev.pkgLayout (d : Dev) (p : Package) : Bool :=
  windowsOk p.windows && p.sectionTable.all (fun s => decide (s.dest = 0) || (decide (fld s.dest 47 44 ≠ 0) && d.addrRange s.dest s.length)) &&
    p.staticAddrs.all (fun a => d.addrRange a 1) && p.partitionsOk

/-- Check 8: an engine operation is an entry of kind 1 of a Pod's table; its operation index is the entry's place (R191). -/
def pkgRanges (p : Package) : Bool :=
  p.ranges.all (fun r => r.reservedZero && decide (r.action ≤ 1) && decide (r.kind ≤ 2) && (decide (r.kind ≤ 1) || decide (2 ≤ r.cls))) &&
    p.tables.all (fun t => decide (24 ≤ tableNo t.1) || t.2.zipIdx.all (fun e =>
      decide (entryKind e.1 ≠ 1) || decide (2 ≤ entryClass e.1) ||
        p.ranges.any (fun r => r.pod == tableNo t.1 && r.op == e.2 && decide (r.kind ≤ 1))))

/-- The value a default gives an object, or the stored one. -/
def Dev.withDefault (d : Dev) (p : Package) (idx sub : Nat) : Nat :=
  ((p.defaults.find? (fun x => x.1 == okey idx sub)).map (fun x => x.2.headD 0)).getD (d.cfg idx sub)

/-- Check 9, with the ranges of R38, R79 and R438 that depend on other objects. -/
def Dev.pkgDefaults (d : Dev) (p : Package) : Bool :=
  p.defaults.all (fun x => match objRow d.code (x.1 / 256) (x.1 % 256) with
    | some r => r.acc.writable && decide (x.2.length = r.ty.count) && x.2.all (fun v => decide (v < 256 ^ r.ty.width)) && r.chk.ok x.2
    | none => false) &&
    decide (2 * d.withDefault p 0x5000 2 ≤ d.withDefault p 0x5000 1) && decide (200 ≤ d.withDefault p 0x5000 2) &&
    (p.grid.isEmpty || decide (d.withDefault p 0x5010 0x0B + 1 ≤ p.grid.getD 2 0) ||
      !p.defaults.any (fun x => x.1 == okey 0x5010 0x0B)) &&
    decide (d.withDefault p 0x4010 2 ≠ d.withDefault p 0x4011 2)

/-- The first failing check of the first `upto` ones (R183). -/
def Dev.pkgCheck (d : Dev) (p : Package) (upto : Nat) : Option Nat :=
  let checks : List Bool :=
    [pkgFormat p, d.pkgSigned p, d.pkgTarget p, d.pkgVersion p, d.pkgResource p, d.pkgSchedule p, d.pkgLayout p, pkgRanges p, d.pkgDefaults p]
  (((checks.take upto).zipIdx).find? (fun c => !c.1)).map (fun c => 0x0F40 + c.2)

/-! ## Slots (R185, R186) -/

/-- A package slot. -/
def Dev.pkgSlot (d : Dev) (s : Nat) : PkgSlot := kget PkgSlot.reset d.prog.slots s

/-- Updates a package slot. -/
def Dev.modPkgSlot (d : Dev) (s : Nat) (f : PkgSlot → PkgSlot) : Dev :=
  { d with prog := { d.prog with slots := kmod PkgSlot.reset d.prog.slots s f } }

/-- A slot is REFUSED: its cause, with 0x1102 where the key is not valid (R513). -/
def Dev.refusePkg (d : Dev) (s cause : Nat) : Dev :=
  let badKey := match (d.pkgSlot s).pkg with | some p => cause == 0x0F41 && !d.keyValid p.keySlot | none => false
  ((d.modPkgSlot s (fun x => { x with state := .refused, cause := cause })).raiseIf badKey 0x1102 s 0).raise cause s 0

/-- A refused package command (R186). -/
def Dev.pkgRefused (d : Dev) : Dev × Reply := (d.raise 0x0F4B 0 0, .cause 0x0F4B)

/-- A load into a slot is acceptable (R186). -/
def Dev.loadFits (d : Dev) (s : Nat) : Bool :=
  let st := (d.pkgSlot s).state
  let other := (d.pkgSlot (1 - s)).state
  st != .trial && st != .active && !(st == .fallback && other == .trial) && d.prog.slots.all (fun x => x.2.state != .loading)

/-- A write to [C010.01] names the slot of the next load (R186); there are two slots (R185). -/
def writeLoadSlot (v : List Nat) (d : Dev) : Dev × Reply :=
  if v.headD 0 < 2 ∧ d.loadFits (v.headD 0) = true then ({ d with prog := { d.prog with loadSlot := some (v.headD 0) } }, .good []) else d.pkgRefused

def loadSlot (r : Req) (slot : Byte) (d : Dev) : Dev := d.writeWith r 0xC010 1 false [slot] writeLoadSlot

/-- LOAD_SLOT (R186). -/
def execLoadSlot (r : Req) (slot : Byte) (s : State) : Out := s.next (loadSlot r slot s.dev)

/-- The transfer to [C010.02] starts: the slot is LOADING, and no longer a fallback (R186, R189). -/
def Dev.startLoad (d : Dev) (s : Nat) : Dev :=
  let d := d.modPkgSlot s (fun _ => { state := .loading, image := [], content := none, cause := 0 })
  { d with prog := { d.prog with selFallback := if d.prog.selFallback = some s then none else d.prog.selFallback } }

/-- The transfer is complete: the slot holds its bytes, and checks 1 to 4 run (R183). -/
def Dev.endLoad (d : Dev) (s : Nat) (image : List Byte) (content : Option PkgContent) : Dev :=
  let d := { d with prog := { d.prog with loadSlot := none } }.modPkgSlot s (fun x => { x with image := image, content := content })
  match content.map (readPackage image) with
  | none => d.refusePkg s 0x0F40
  | some p => match d.pkgCheck p 4 with
    | some c => d.refusePkg s c
    | none => d.modPkgSlot s (fun x => { x with state := .verified, cause := 0 })

/-- The transfer ended early: the slot is EMPTY (R410). -/
def Dev.dropLoad (d : Dev) : Dev :=
  let d := { d with prog := { d.prog with loadSlot := none } }
  [0, 1].foldl (fun d s => d.modPkgSlot s (fun x => if x.state = .loading then PkgSlot.reset else x)) d

/-- A transfer that ends early raises 0x0D07 and keeps nothing; a slot it was loading is EMPTY (R410). One that has all its bytes waits for
its check and does not end early. -/
def Dev.abortTransfer (d : Dev) (x : Transfer) : Dev :=
  if x.got.length = x.total then d else
  let d := { d with palca := { d.palca with transfers := d.palca.transfers.filter (fun y => !(y.idx == x.idx && y.sub == x.sub)) } }
  (if x.idx = 0xC010 ∧ x.sub = 2 then d.dropLoad else d).raise 0x0D07 0 0

/-- Every transfer in progress ends: the device leaves the state they started in, or resets (R410, R432). -/
def Dev.endTransfers (d : Dev) : Dev := d.palca.transfers.foldl Dev.abortTransfer d

/-- The device reaches another state (R410, R443). -/
def Dev.reach (d : Dev) (st : PowerState) : Dev := (d.endTransfers).modPower (fun p => { p with state := st })

/-! ## Activation (R187, R188) -/

/-- Stores one default; an RWP object's persisted copy is replaced as well. The minimum security version is never lowered (R190). -/
def Dev.storeDefault (d : Dev) (all : Bool) (x : Nat × List Nat) : Dev :=
  let idx := x.1 / 256
  let sub := x.1 % 256
  match objRow d.code idx sub with
  | none => d
  | some r =>
    if (all = false ∧ r.acc = .rwp) ∨ (x.1 = okey 0xC000 7 ∧ x.2.headD 0 < d.cfg 0xC000 7) then d
    else
      let d := d.setObj idx sub x.2
      let d := if r.acc = .rwp then d.persist x.1 x.2 else d
      d.wrote idx sub

/-- Sets objects from consecutive subindices on. -/
def Dev.setFrom (d : Dev) (idx sub : Nat) (l : List Nat) : Dev := l.zipIdx.foldl (fun d x => d.setObj idx (sub + x.2) [x.1]) d

/-- The read-only objects that report the package (R225, R256, R282, R294, R438, R453). -/
def Dev.reportPackage (d : Dev) (p : Package) : Dev :=
  let g := fun (i : Nat) => p.grid.getD i 0
  let d := (d.setObj 0x5000 6 [p.commitUs]).setObj 0x5000 7 [p.intakeUs]
  let d := (((d.setObj 0x5010 1 [g 0]).setObj 0x5010 3 [g 1]).setObj 0x5010 4 [g 2]).setObj 0x5010 7 [g 3]
  let d := d.setFrom 0x5010 8 [g 4, g 5, g 6]
  let d := d.setFrom 0x5800 1 ((List.range 13).map (fun i => p.attention.getD i 0))
  let d := d.setObj 0x6000 2 [p.classes.length]
  let d := (List.range 8).foldl (fun d k =>
    let c := fun (i : Nat) => (p.classes.getD k []).getD i 0
    ((d.setFrom (0x6001 + k) 1 [c 0, c 1, c 2, c 3]).setObj (0x6001 + k) 0x11 [c 4]).setObj (0x6001 + k) 0x18 [c 5]) d
  (d.setFrom 0x6010 1 ((List.range 5).map (fun i => p.auction.getD i 0))).setObj 0x8000 2 [p.floorA]

/-- Window tables with HEAD 0 (R154), by logical Pod. -/
def Dev.loadWindows (d : Dev) (p : Package) : Dev :=
  let tab := fun (l : Nat) => (p.windows.filter (fun w => w.pod == l)).foldl (fun m w =>
    kset Window.reset m w.win { base := w.base, size := w.size, en := w.en, head := 0, stp := w.stp }) []
  (List.range 25).foldl (fun d i => match (d.pod i).logical with
    | some l => d.modPod i (fun x => { x with windows := tab l })
    | none => d) d

/-- The sections of a package in force: memory, tables, windows, sync objects and what it reports; solver banks and
solutions take their initial values (R187, R312, R324), and another program empties the rings (R267). -/
def Dev.loadPackage (d : Dev) (p : Package) : Dev :=
  let d := { d with prog := { d.prog with prog := some p } }
  let d := p.loads.foldl (fun d x => d.storeA none x.1 x.2) d
  let d := { d with
    sched := { tables := p.tables.foldl (fun (m : Store (List (List Word))) (t : TableId × List (List Word)) => kset [] m (tableNo t.1) t.2) [], passes := [], idle := [], claims := [] },
    sync := { objs := [], waiters := [] },
    fus := { d.fus with copy0 := { d.fus.copy0 with bank := [], sols := [] }, copy1 := { d.fus.copy1 with bank := [], sols := [] } } }
  let d := (d.loadWindows p).reportPackage p
  let d : Dev := p.streamMap.foldl (fun (d : Dev) x => d.setObj (x.1 / 256) (x.1 % 256) x.2) d
  if d.prog.lastDigest = some p.digest then d else d.emptyRings

/-- Steps 1 and 2 of R187 on slot `s`: the checks, then sections and defaults; answers whether it succeeded. -/
def Dev.activateSlot (d : Dev) (s : Nat) : Dev × Bool :=
  match (d.pkgSlot s).pkg with
  | none => (d.refusePkg s 0x0F40, false)
  | some p =>
    match d.pkgCheck p 9 with
    | some c => (d.refusePkg s c, false)
    | none =>
      let all := decide (d.prog.lastDigest ≠ some p.digest)
      let d := d.loadPackage p
      let d := p.defaults.foldl (fun d x => d.storeDefault all x) d
      let d := { d with prog := { d.prog with active := some s, lastDigest := some p.digest, committed := false } }
      let d := d.recomputeCrc
      (d.raiseIf d.sourceConflict 0x0201 0 0, true)

/-- A write to [C000.04] (R186). A request for RUN that waits comes before the activation and ends with it: the device stays in READY until
a later one (R187; log 67). -/
def writeActivate (v : List Nat) (d : Dev) : Dev × Reply :=
  let s := v.headD 0
  let st := (d.pkgSlot s).state
  if d.inReady = true ∧ s < 2 ∧ (st = .verified ∨ st = .fallback) ∧ d.prog.activating = none then
    let d := { d with prog := { d.prog with activating := some s }, cyc := { d.cyc with next := none } }
    (d.modPower (fun p => { p with target := if p.target = some .run then none else p.target }), .good [])
  else d.pkgRefused

def activate (r : Req) (slot : Byte) (d : Dev) : Dev := d.writeWith r 0xC000 4 false [slot] writeActivate

/-- ACTIVATE (R186): accepted or refused; its steps run with ACTIVATION_COMPLETE. -/
def execActivate (r : Req) (slot : Byte) (s : State) : Out := s.next (activate r slot s.dev)

/-- Steps 3 and 4 of R187: the selection record and the slot states. -/
def Dev.markTrial (d : Dev) (s : Nat) (prev : Option Nat) : Dev :=
  let prev := if prev = some s then none else prev
  let d := d.modPkgSlot (1 - s) (fun x => match prev with
    | some _ => { x with state := .fallback }
    | none => if x.state = .fallback then { x with state := .verified } else x)
  let d := d.modPkgSlot s (fun x => { x with state := .trial, cause := 0 })
  { d with prog := { d.prog with selActive := none, selTrial := some s, selFallback := prev } }

def activationComplete (d : Dev) : Dev :=
  match d.prog.activating with
  | none => d
  | some s =>
    let prev := d.prog.active
    let d := { d with prog := { d.prog with activating := none } }
    if d.inReady = false then d
    else
      let r := d.activateSlot s
      if r.2 then r.1.markTrial s prev else r.1

/-- ACTIVATION_COMPLETE (R187, R188): TRIAL, or REFUSED with its cause; the previous package then stays. -/
def execActivationComplete (s : State) : Out := s.next (activationComplete s.dev)

/-! ## Confirm, security version (R186, R189, R190) -/

/-- A write to [C000.05]. -/
def writeConfirm (v : List Nat) (d : Dev) : Dev × Reply :=
  match d.prog.selTrial with
  | some t =>
    if v.headD 0 = 1 ∧ (d.pkgSlot t).state = .trial ∧ d.prog.committed = true then
      let d := d.modPkgSlot t (fun x => { x with state := .active })
      ({ d with prog := { d.prog with selActive := some t, selTrial := none } }, .good [])
    else d.pkgRefused
  | none => d.pkgRefused

def confirm (r : Req) (value : Byte) (d : Dev) : Dev := d.writeWith r 0xC000 5 false [value] writeConfirm

/-- CONFIRM (R186, R189). -/
def execConfirm (r : Req) (value : Byte) (s : State) : Out := s.next (confirm r value s.dev)

/-- A write to [C000.07] (R190). -/
def writeSecVersion (v : List Nat) (d : Dev) : Dev × Reply :=
  if v.headD 0 < d.cfg 0xC000 7 then d.pkgRefused else (d.put 0xC000 7 v, .good [])

def minimumSecurityVersion (r : Req) (value : Nat) (d : Dev) : Dev := d.writeWith r 0xC000 7 false (beBytes 4 value) writeSecVersion

/-- MINIMUM_SECURITY_VERSION (R190): it can only be raised. -/
def execMinimumSecurityVersion (r : Req) (value : BitVec 32) (s : State) : Out := s.next (minimumSecurityVersion r value.toNat s.dev)

/-! ## Start-up (R189) -/

/-- A trial that was not confirmed does not survive a reset: its slot is VERIFIED, and the fallback is chosen. -/
def Dev.dropTrial (d : Dev) : Dev :=
  match d.prog.selTrial with
  | some t =>
    let d := d.modPkgSlot t (fun x => { x with state := .verified })
    { d with prog := { d.prog with selActive := d.prog.selFallback, selTrial := none, selFallback := none } }.raise 0x0F49 t 0
  | none => d

/-- A slot runs as ACTIVE. -/
def Dev.runAs (d : Dev) (s : Nat) : Dev := d.modPkgSlot s (fun x => { x with state := .active, cause := 0 })

/-- Step 8 of start-up: the slot to run; answers whether one passed. -/
def Dev.bootPackage (d : Dev) : Dev × Bool :=
  let d := d.dropTrial
  match d.prog.selActive with
  | none => (d.raise 0x0F08 0 0, false)
  | some s =>
    let r := d.activateSlot s
    if r.2 then (r.1.runAs s, true)
    else
      let d := r.1
      let o' := 1 - s
      if (d.pkgSlot o').state = .active ∨ (d.pkgSlot o').state = .fallback then
        let r := d.activateSlot o'
        if r.2 then
          let d := r.1.runAs o'
          ({ d with prog := { d.prog with selActive := some o', selTrial := none, selFallback := none } }.raise 0x0F49 s 0, true)
        else (r.1.raise 0x0F08 0 0, false)
      else (d.raise 0x0F08 0 0, false)

end Sys2Proof.Machine
end

