-- ==== Sys2Proof/Machine/Twin.lean ====
section
/-! DEFINITION. The Twin link and the device pair (R353 to R361, R476 to R478, R521). -/

namespace Sys2Proof.Machine

/-- The pair is enabled on a device that has the link (R2, R353). -/
def Dev.pairEnabled (d : Dev) : Bool := hasTwin d.code && decide (d.cfg 0x7100 1 = 1) && d.up

/-! ## Use of a safety frame (R355) -/

/-- R355: whether a safety frame is used, with the faults of its lanes and sequence. -/
def Dev.useFrame (d : Dev) (f : TwinFrame) : Dev × Bool :=
  if !d.pairEnabled || !d.twin.up then (d, false)
  else if f.lanes ≠ .agree then (d.raise 0x0C07 0 0, false)
  else match d.twin.rxSeq with
    | none => ({ d with twin := { d.twin with rxSeq := some f.seq, lastUsed := d.tick } }, true)
    | some last =>
      let diff := (f.seq - last).toNat
      if 1 ≤ diff ∧ diff ≤ 32767 then
        let d := { d with twin := { d.twin with rxSeq := some f.seq, lastUsed := d.tick } }
        (d.raiseIf (decide (1 < diff)) 0x0C07 0 0, true)
      else (d, false)

/-! ## Heartbeats (R356, R357) -/

def twinHeartbeatSend (d : Dev) : Dev :=
  if d.pairEnabled && d.paired && decide (d.twin.beatTick + usTicks 100 ≤ d.tick) then
    { d with twin := { d.twin with beatTick := d.tick } }.sendTwin 1 []
  else d

/-- TWIN_HEARTBEAT_SEND (R356): every 100 µs. -/
def execTwinHeartbeatSend (s : State) : Out := s.next (twinHeartbeatSend s.dev)

def heartbeat (f : TwinFrame) (d : Dev) : Dev :=
  let (d, used) := d.useFrame f
  if used then
    let delay := d.freeNat 300 300000
    { d with twin := { d.twin with offset := (f.stamp.toNat : Int) + delay - d.now } }.bumpFree
  else d

/-- HEARTBEAT (R355, R357): a used one gives the partner counter's offset; the link delay of the round trip is a free
value (log 8). -/
def execHeartbeat (f : TwinFrame) (s : State) : Out := s.next (heartbeat f s.dev)

/-! ## Cross-check (R357 to R360) -/

/-- R357: the own cycle whose instant lies within P/2 of a partner's, on the partner's scale less its offset. -/
def Dev.pairsWith (d : Dev) (tv : Int) (x : Decided) : Bool :=
  decide (2 * ((tv - d.twin.offset - x.tv).natAbs : Int) ≤ d.period)

/-- R359, R360: the demand of a discrepancy. -/
def Dev.mismatch (d : Dev) : Dev :=
  let d := { d with twin := { d.twin with discrepant := d.twin.discrepant + 1 } }
  if d.cfg 0x7100 4 ≤ d.twin.discrepant ∧ kget 0 d.hull.demands srcMismatch = 0 then
    let d := { d with hull := { d.hull with needReset := true } }
    ((d.raise 0x0C03 0 0).recEvent 0x0C03).demand srcMismatch 3 0x0C03
  else d

/-- A compared cycle that agrees (R359). -/
def Dev.agreed (d : Dev) : Dev :=
  let d := { d with twin := { d.twin with discrepant := 0 } }
  if kget 0 d.hull.demands srcMismatch = 0 then d else d.demand srcMismatch 0 0x0C03

/-- R360: one value inside the tolerance. -/
def Dev.inTolerance (d : Dev) (a b : Nat) : Bool :=
  decide (max a b - min a b ≤ d.cfg 0x7100 5 + d.cfg 0x7100 6 * max a b / 256)

/-- R360: the values of every enabled pair lie inside the tolerance. -/
def Dev.valuesAgree (d : Dev) (own theirs : Store PairEntry) : Bool :=
  d.pairsOn.all (fun p =>
    let a := kget PairEntry.reset own p
    let b := kget PairEntry.reset theirs p
    (if a.dist = 0xFFFFFFFF ∨ b.dist = 0xFFFFFFFF then decide (a.dist = b.dist) else d.inTolerance a.dist b.dist) && d.inTolerance a.vh b.vh)

/-- R360: the counts of cycles out of and in tolerance. -/
def Dev.tolerance (d : Dev) (ok : Bool) : Dev :=
  if ok then
    let d := { d with twin := { d.twin with tolBad := 0, tolGood := d.twin.tolGood + 1 } }
    if kget 0 d.hull.demands srcTolerance ≠ 0 ∧ d.cfg 0x7000 5 ≤ d.twin.tolGood then d.demand srcTolerance 0 0x0C04 else d
  else
    let d := { d with twin := { d.twin with tolBad := d.twin.tolBad + 1, tolGood := 0 } }
    if d.cfg 0x7100 7 ≤ d.twin.tolBad ∧ kget 0 d.hull.demands srcTolerance = 0 then
      ((d.raise 0x0C04 0 0).recEvent 0x0C04).demand srcTolerance (d.cfg 0x7100 8) 0x0C04 else d

/-- Marks own decisions that match as compared. -/
def Dev.markCompared (d : Dev) (p : Decided → Bool) : Dev :=
  { d with twin := { d.twin with own := d.twin.own.map (fun x => if p x then { x with compared := true } else x) } }

/-- R359: compares a partner decision with its own paired one, if there is one that waits. -/
def Dev.crossCheck (d : Dev) (t : Decided) : Dev :=
  match d.twin.own.find? (fun x => d.pairsWith t.tv x && !x.compared) with
  | some x =>
    let d := d.markCompared (fun y => y.cycle == x.cycle)
    if x.discarded || t.discarded then d
    else if x.zones == t.zones && x.tiers == t.tiers then d.agreed else d.mismatch
  | none => d

/-- The fields of a DECISION payload (R356). -/
def decisionOf (ws : List Word) (tick : Nat) : Decided :=
  let tiers := (List.range 256).foldl (fun m p => kset 0 m p (wfld (wat ws (3 + p / 32)) (2 * (p % 32) + 1) (2 * (p % 32)))) []
  { cycle := wfld (wat ws 1) 63 16, tick := tick, tv := (wat ws 0).toInt, discarded := wbit (wat ws 1) 0, zones := wat ws 2,
    tiers := tiers, vals := [], compared := false }

/-- R357: a partner cycle that pairs with no own cycle. -/
def Dev.alignment (d : Dev) (tv : Int) : Dev :=
  let near := d.twin.own.any (d.pairsWith tv) ||
    d.cyc.flight.any (fun c => decide (2 * ((tv - d.twin.offset - c.tv).natAbs : Int) ≤ d.period))
  if near then
    let d := { d with twin := { d.twin with unpaired := 0 } }
    if kget 0 d.hull.demands srcAlign = 0 then d else d.demand srcAlign 0 0x0C08
  else
    let d := { d with twin := { d.twin with unpaired := d.twin.unpaired + 1 } }
    if d.twin.unpaired = 3 then (d.raise 0x0C08 0 0).demand srcAlign 3 0x0C08 else d

def decision (f : TwinFrame) (d : Dev) : Dev :=
  let (d, used) := d.useFrame f
  if used && d.paired then
    let t := decisionOf f.payload d.tick
    let new := match d.twin.theirs with | x :: _ => x.cycle != t.cycle | [] => true
    let d := d.demand srcPartner (wfld (wat f.payload 1) 15 8 % 4) 0
    let d := if new && d.twin.since.isSome then d.alignment t.tv else d
    let d := if new then { d with twin := { d.twin with theirs := (t :: d.twin.theirs).take 8 } } else d
    d.crossCheck t
  else d

/-- DECISION (R355 to R359): the partner's output tier becomes a demand, and its paired cycle is compared. -/
def execDecision (f : TwinFrame) (s : State) : Out := s.next (decision f s.dev)

/-- Pair entries of a VALUES payload (R356). -/
def valuesOf (ws : List Word) : Store PairEntry :=
  (List.range 256).foldl (fun m p =>
    let w := wat ws (1 + p)
    kset PairEntry.reset m p { dist := wfld w 63 32, vh := wfld w 31 16, sigma := wfld w 15 0, trackId := 0, predOnly := false }) []

def values (f : TwinFrame) (d : Dev) : Dev :=
  let (d, used) := d.useFrame f
  if used && d.paired then
    let tv := (wat f.payload 0).toInt
    match d.twin.own.find? (fun x => d.pairsWith tv x && !x.discarded) with
    | some x => d.tolerance (d.valuesAgree x.vals (valuesOf f.payload))
    | none =>
      if d.twin.own.any (d.pairsWith tv) then d
      else { d with twin := { d.twin with theirVals := ((tv, valuesOf f.payload) :: d.twin.theirVals).take 8 } }
  else d

/-- VALUES (R360): distances and speeds of the paired cycle against the tolerance. -/
def execValues (f : TwinFrame) (s : State) : Out := s.next (values f s.dev)

def crossCheckWindowExpiry (c : Nat) (d : Dev) : Dev :=
  match d.twin.own.find? (fun x => x.cycle == c) with
  | some x =>
    if d.paired = true ∧ x.compared = false ∧ x.discarded = false ∧ x.tick + usTicks (d.cfg 0x7100 0x0A) ≤ d.tick then
      (d.markCompared (fun y => y.cycle == c)).mismatch
    else d
  | none => d

/-- CROSS_CHECK_WINDOW_EXPIRY (R359): a missing frame counts one discrepant cycle. -/
def execCrossCheckWindowExpiry (cycle : BitVec 48) (s : State) : Out := s.next (crossCheckWindowExpiry cycle.toNat s.dev)

/-- R360: the partner's values of a cycle that came before the own commit. -/
def Dev.earlyValues (d : Dev) (x : Decided) : Dev :=
  match d.twin.theirVals.find? (fun v => d.pairsWith v.1 x) with
  | some v =>
    let d := { d with twin := { d.twin with theirVals := d.twin.theirVals.filter (fun y => y.1 != v.1) } }
    if x.discarded then d else d.tolerance (d.valuesAgree x.vals v.2)
  | none => d

/-- The own decision of a cycle that pairs (R478), kept for the cross-check and compared with partner frames that came first. -/
def Dev.keepDecision (d : Dev) (x : Decided) : Dev :=
  if d.paired = true ∧ (match d.twin.since with | some v => decide (v ≤ x.tv) | none => false) = true then
    let d := { d with twin := { d.twin with own := (x :: d.twin.own).take 8 } }
    let d := (match d.twin.theirs.find? (fun t => d.pairsWith t.tv x) with
      | some t => d.crossCheck t
      | none => d)
    d.earlyValues x
  else d

/-- R478: the two devices pair from the next instant; the link-loss demand ends at that moment. -/
def Dev.pairFrom (d : Dev) (tv : Int) : Dev :=
  if d.paired = true ∧ d.twin.since = none then
    ({ d with twin := { d.twin with since := some tv } } : Dev).demand srcLinkLoss 0 0x0C02
  else d

/-! ## Discovery and loss (R361, R476 to R478) -/

/-- R361: the device runs as a single channel. -/
def Dev.single (d : Dev) : Dev := (d.raise 0x0C02 0 0).demand srcLinkLoss (d.cfg 0x7100 9) 0x0C02

def twinLinkLost (d : Dev) : Dev :=
  if d.paired = true ∧ d.twin.lastUsed + usTicks 300 ≤ d.tick then
    let d := { d with twin := { d.twin with partner := 2, rxSeq := none, up := false, seen := false, discovering := true, own := [],
                                            theirs := [], theirVals := [], since := none } }
    let d := d.demand srcPartner 0 0
    d.single
  else d

/-- TWIN_LINK_LOST (R361): no safety frame used for 300 µs. -/
def execTwinLinkLost (s : State) : Out := s.next (twinLinkLost s.dev)

/-- The IDENTITY payload (R477). -/
def Dev.identityWords (d : Dev) : List Word :=
  let f := d.sec.fingerprint.toNat
  [BitVec.ofNat 64 (fld f 255 192), BitVec.ofNat 64 (fld f 191 128), BitVec.ofNat 64 (fld f 127 64), BitVec.ofNat 64 (fld f 63 0),
   packW [(32, d.cfg 0x7000 1), (32, d.cfg 0x5000 1)], packW [(32, d.start.firmware), (8, d.code), (24, 0)], d.sec.serial,
   packW [(63, 0), (1, b2n d.twin.seen)]]

def identitySend (d : Dev) : Dev :=
  if d.pairEnabled && d.twin.up && !d.paired && d.twin.discovering && decide (d.twin.idTick + msTicks 10 ≤ d.tick) then
    { d with twin := { d.twin with idTick := d.tick } }.sendTwin 4 d.identityWords
  else d

/-- IDENTITY_SEND (R476): every 10 ms during discovery. -/
def execIdentitySend (s : State) : Out := s.next (identitySend s.dev)

/-- R476, R478: the partner is discovered; in RUN the link-loss demand stands until the next instant. -/
def Dev.discovered (d : Dev) : Dev :=
  let d := { d with twin := { d.twin with partner := 1, discovering := false, discrepant := 0, unpaired := 0, tolBad := 0, tolGood := 0,
                                          own := [], theirs := [], theirVals := [], since := none } }
  let d := d.demand srcConfig 0 0x0C05
  if d.inRun then d else d.demand srcLinkLoss 0 0x0C02

/-- A check of R476 fails: the partner is absent, and step 10 ends. -/
def Dev.checkFails (d : Dev) (cause : Nat) : Dev :=
  { d with twin := { d.twin with partner := 0, checkFailed := d.twin.checkFailed || decide (d.start.step = some 10) } }.raise cause 0 0

def identity (f : TwinFrame) (d : Dev) : Dev :=
  let (d, used) := d.useFrame f
  if used && !d.paired then
    let w := wat f.payload
    let fp := packN [(64, (w 0).toNat), (64, (w 1).toNat), (64, (w 2).toNat), (64, (w 3).toNat)]
    if f.role = decide (d.cfg 0x7100 2 = 1) ∨ wfld (w 4) 63 32 ≠ d.cfg 0x7000 1 ∨ wfld (w 4) 31 0 ≠ d.cfg 0x5000 1 then
      (d.checkFails 0x0C05).demand srcConfig 3 0x0C05
    else if fp ≠ d.sec.partner.toNat ∨ fp = 0 then d.checkFails 0x1108
    else
      let d := { d with twin := { d.twin with seen := true } }
      if wbit (w 7) 0 then d.discovered else d
  else d

/-- IDENTITY (R353, R476, R477, R521): role, configuration and period, then the fingerprint; discovery once each has
used the other's frame. -/
def execIdentity (f : TwinFrame) (s : State) : Out := s.next (identity f s.dev)

def bulk (f : TwinFrame) (d : Dev) : Dev := d.raiseIf (d.pairEnabled && d.twin.up && decide (f.lanes = .single)) 0x0C07 0 0

/-- BULK (R355): never takes part in a safety decision. -/
def execBulk (f : TwinFrame) (s : State) : Out := s.next (bulk f s.dev)

def twinLaneTraining (byPartner : Bool) (d : Dev) : Dev :=
  if d.pairEnabled && !d.twin.up && (byPartner || (d.twin.partner != 1 && decide (d.twin.trainTick + sTicks 1 ≤ d.tick))) then
    { d with twin := { d.twin with discovering := true, trainTick := if byPartner then d.twin.trainTick else d.tick } }
  else d

/-- TWIN_LANE_TRAINING (R478): lanes that are down are trained, by this device every 1 s or in answer to the partner at any moment. -/
def execTwinLaneTraining (byPartner : Bool) (s : State) : Out := s.next (twinLaneTraining byPartner s.dev)

def twinLanesUp (d : Dev) : Dev :=
  if d.pairEnabled && !d.twin.up then
    { d with twin := { d.twin with up := true, rxSeq := none, seen := false, discovering := true } }
  else d

/-- TWIN_LANES_UP (R355, R476): the next safety frame is accepted with any SEQ. -/
def execTwinLanesUp (s : State) : Out := s.next (twinLanesUp s.dev)

def partnerDiscovery (d : Dev) : Dev :=
  if d.start.step = some 10 ∧ d.pairEnabled = true ∧ d.paired = false ∧ d.start.stepTick + msTicks 200 ≤ d.tick ∧
      kget 0 d.hull.demands srcLinkLoss = 0 then
    ({ d with twin := { d.twin with partner := 0 } }.raise 0x0F0A 0 0).single
  else d

/-- PARTNER_DISCOVERY (R476, R478): 200 ms of step 10 without discovery. -/
def execPartnerDiscovery (s : State) : Out := s.next (partnerDiscovery s.dev)

end Sys2Proof.Machine
end

