-- ==== Sys2Proof/Machine/Startup.lean ====
section
/-! DEFINITION. Power-on, resets and pins, and the start-up sequence (R20, R430, R446, R464 to R475, R480, R503, R511,
R518, R519). -/

namespace Sys2Proof.Machine

open Sys2Proof

/-- Updates the start-up sequencer. -/
def Dev.modStart (d : Dev) (f : Startup → Startup) : Dev := { d with start := f d.start }

/-! ## Power and pins (R446, R464, R465, R480) -/

def powerOn (d : Dev) : Dev :=
  if d.power.vhusk then d
  else (d.modPower (fun p => { p with vhusk := true, state := .husk, resetKind := 0, retained := [], wdCount := 0, wdStep := 0 })).modStart
    (fun s => { s with due := true })

/-- POWER_ON (R446, R465): the Husk starts with a cleared retained record and waits for its start moment. -/
def execPowerOn (s : State) : Out := s.next (powerOn s.dev)

def vhuskRemoved (d : Dev) : Dev :=
  if d.power.vhusk = false then d
  else
    let d := d.powerDown .off false false
    d.modPower (fun p => { p with vhusk := false, crystal := false, retained := [], wdCount := 0, wdStep := 0 })

/-- VHUSK_REMOVED (R446): the device goes OFF from any state. -/
def execVhuskRemoved (s : State) : Out := s.next (vhuskRemoved s.dev)

/-- The Husk may begin a sequence: in HUSK, with good supplies and RESET_N high (R464, R466). -/
def Dev.mayStart (d : Dev) : Bool :=
  decide (d.power.state = .husk) && d.power.vhusk && d.power.pwrOk && d.power.resetN && d.start.step.isNone

/-- Step 1 begins. -/
def Dev.beginStart (d : Dev) : Dev := d.modStart (fun s => { s with step := some 1, due := false, last := 0, attempts := 0 })

def startMoment (d : Dev) : Dev := if d.mayStart && d.start.due then d.beginStart else d

/-- START_MOMENT (R464, R467): Sprout begins step 1. -/
def execStartMoment (s : State) : Out := s.next (startMoment s.dev)

def wakeN (d : Dev) : Dev := if d.mayStart && !d.start.due then d.beginStart else d

/-- WAKE_N (R446): low for 1 ms in HUSK; the start-up steps run (log 30). -/
def execWakeN (s : State) : Out := s.next (wakeN s.dev)

/-- A start moment is awaited where the Husk stands in HUSK with no sequence running. -/
def Dev.awaitStart (d : Dev) : Dev :=
  if d.power.state = .husk ∧ d.start.step = none then d.modStart (fun s => { s with due := true }) else d

def pwrOkRising (d : Dev) : Dev :=
  let d := d.modPower (fun p => { p with pwrOk := true })
  if d.power.resetN then d.awaitStart else d

/-- PWR_OK_RISING (R464). -/
def execPwrOkRising (s : State) : Out := s.next (pwrOkRising s.dev)

def pwrOkFalling (d : Dev) : Dev :=
  let d := d.modPower (fun p => { p with pwrOk := false })
  if d.up = true ∨ d.start.step.isSome = true then d.toHusk [] false true else d

/-- PWR_OK_FALLING (R480, R505): the stop is forced, the recorder flushes, and the device enters HUSK. -/
def execPwrOkFalling (s : State) : Out := s.next (pwrOkFalling s.dev)

def resetNAssert (d : Dev) : Dev :=
  let d := if d.power.vhusk then d.resetDevice 1 [] false else d
  d.modPower (fun p => { p with resetN := false, wdCount := 0 })

/-- RESET_N_ASSERT (R465, R466, R474): HUSK while it stays low. -/
def execResetNAssert (s : State) : Out := s.next (resetNAssert s.dev)

def resetNRelease (d : Dev) : Dev := (d.modPower (fun p => { p with resetN := true })).awaitStart

/-- RESET_N_RELEASE (R446, R464). -/
def execResetNRelease (s : State) : Out := s.next (resetNRelease s.dev)

def debugReset (d : Dev) : Dev := if d.up && d.sec.debug then d.resetDevice 5 [] true else d

/-- DEBUG_RESET (R465, R522). -/
def execDebugReset (s : State) : Out := s.next (debugReset s.dev)

/-! ## Steps 1 to 6 (R467, R475) -/

/-- A step is complete and the next one begins. -/
def Dev.stepDone (d : Dev) (n : Nat) : Dev := d.modStart (fun s => { s with last := n, step := some (n + 1), stepTick := d.tick })

/-- The sequence stops where it is. -/
def Dev.stopStart (d : Dev) : Dev := d.modStart (fun s => { s with step := none })

/-- A cause of the retained record before step 2 has ended. -/
def Dev.retain (d : Dev) (c : Nat) : Dev := d.modPower (fun p => { p with retained := p.retained ++ [c] })

/-- Worst time of a step in ms (R467). -/
def stepWorstMs (n : Nat) : Nat := [0, 5, 20, 10, 15, 100, 650, 245, 920, 150, 200, 85].getD n 0

/-- Ticks by which packages over 320 MiB extend step 8: 1.32 ms for every MiB of each slot that holds one (R468; log 74). -/
def Dev.step8Extra (d : Dev) : Nat :=
  (d.prog.slots.map (fun x => (ceilDiv x.2.image.length (2 ^ 20) - 320) * usTicks 1320)).sum

/-- The step watchdog has expired (R474). The Husk's clock is not modelled, so nothing holds back steps 1 and 2, in which the local tick
count does not run (log 74). -/
def Dev.watchdogDue (d : Dev) (n : Nat) : Bool :=
  decide (n ≤ 2) || decide (d.start.stepTick + msTicks (2 * stepWorstMs n) + (if n = 8 then d.step8Extra else 0) ≤ d.tick)

def watchdogReset (d : Dev) : Dev :=
  match d.start.step with
  | none => d
  | some n =>
    if d.watchdogDue n then
      (d.modPower (fun p => { p with wdCount := p.wdCount + 1, wdStep := n })).resetDevice 2 [0x0F0C] true
    else d

/-- WATCHDOG_RESET (R474): the step number is kept for DETAIL. -/
def execWatchdogReset (s : State) : Out := s.next (watchdogReset s.dev)

/-- Step 1: LDO, OTP and self-check. -/
def step1 (r : StepResult) (d : Dev) : Dev :=
  if r.ok then (d.modPower (fun p => { p with ldoNormal := true })).stepDone 1 else (d.retain 0x0F01).stopStart

/-- The causes that the retained record brings to the fault log (R448, R474). -/
def Dev.reportRetained (d : Dev) : Dev :=
  let l := d.power.retained
  let d := d.modPower (fun p => { p with retained := [] })
  l.foldl (fun d c => d.raise c 0 (if c = 0x0F0C then d.power.wdStep else 0)) d

/-- Step 2: I/O die, Hull and time unit (R470, R471, R474). -/
def step2 (r : StepResult) (d : Dev) : Dev :=
  if r.ok then
    let d := d.modPower (fun p => { p with state := .standby, enIod := true })
    let d := { d with hull := { d.hull with override := false } }
    let d := (d.modStart (fun s => { s with attempts := 0 })).stepDone 2
    let d := d.reportRetained
    if 3 ≤ d.power.wdCount then (d.modStart (fun s => { s with held := true })).stopStart else d
  else
    let d := d.retain 0x0F02
    if d.start.attempts < 2 then d.modStart (fun s => { s with attempts := s.attempts + 1, step := some 1 }) else d.stopStart

/-- Step 3: edge die; nothing to do on a code without one. -/
def step3 (r : StepResult) (d : Dev) : Dev :=
  if hasEdge d.code = false then d.stepDone 3
  else if r.ok then ((d.modStart (fun s => { s with edgeFound := true })).sendCommand).stepDone 3
  else ((d.modStart (fun s => { s with readyAtMost := true })).raise 0x0F03 0 0).stepDone 3

/-- Step 4: core die; one or two links that fail training are removed. -/
def step4 (r : StepResult) (d : Dev) : Dev :=
  if r.ok = false ∨ 2 < r.units.length then (d.raise 0x0F04 0 0).stopStart
  else
    let d := r.units.foldl (fun (d : Dev) l => { d with pods := { d.pods with coreDown := sins l d.pods.coreDown } }.raise 0x040A l 0) d
    (d.modPower (fun p => { p with enCore := true })).stepDone 4

/-- Logical numbers in ascending order on the good Pods; with one to spare, the highest rests (R20; log 31). -/
def Dev.placePods (d : Dev) (good : List Nat) : Dev :=
  let n := podsOf d.code - 1
  let rest := if n < good.length then good.getLast? else none
  let hosts := good.filter (fun p => some p != rest)
  let d := hosts.zipIdx.foldl (fun (d : Dev) x => d.modPod x.1 (fun q => { q with state := .gated, logical := some x.2, pll := false })) d
  let d := match rest with
    | some p => d.modPod p (fun q => { q with state := .resting, logical := none, golden := 0 })
    | none => d
  { d with pods := { d.pods with lost := (List.range n).filter (fun l => decide (hosts.length ≤ l)) } }

/-- Step 5: the Pods that fail are OUT. -/
def step5 (r : StepResult) (d : Dev) : Dev :=
  let bad := d.enabledPods.filter (fun p => r.units.contains p)
  let good := d.enabledPods.filter (fun p => !r.units.contains p)
  let d := bad.foldl (fun (d : Dev) p => (d.modPod p (fun q => { q with state := .out, logical := none })).raise 0x0F05 p 0) d
  let d := d.placePods good
  let n := podsOf d.code - 1
  let d :=
    if good.length = n then d.raise 0x030D 0 0
    else if good.length < n then ((d.modStart (fun s => { s with readyAtMost := true })).raise 0x030F 0 0).protect srcShortage 3 0x030F
    else d
  d.stepDone 5

/-- Step 6: DDR5 (R167): a stored result of the same data rate whose verify succeeds is restored; else full training, whose result is
stored. -/
def step6 (r : StepResult) (d : Dev) : Dev :=
  if r.ok then
    let rate := (d.persisted (okey 0x2030 1)).headD 6400
    let d := d.modPower (fun p => { p with enDdr := true })
    let restored := r.trained && d.ddr.stored == some rate
    { d with ddr := { d.ddr with training := if restored then 2 else 1, stored := some rate, rate := rate, passStart := d.tick } }.stepDone 6
  else ((d.raise 0x0508 0 0).raise 0x0F06 0 0).stopStart

/-! ## Step 7 (R430, R472, R473, R475, R487, R503, R505, R511, R518, R519) -/

/-- A persisted object is restored, or takes its default with 0x1001 (R430). -/
def Dev.restoreKept (d : Dev) (lost : List Nat) (x : Nat × List Nat) : Dev :=
  let good := match objRow d.code (x.1 / 256) (x.1 % 256) with | some r => r.chk.ok x.2 | none => false
  if good && !lost.contains x.1 then d.setObj (x.1 / 256) (x.1 % 256) x.2
  else (d.persist x.1 []).raise 0x1001 0 x.1

/-- The addresses in force are the restored ones (R397). -/
def Dev.forceAddresses (d : Dev) : Dev :=
  let keys := [0x1011, 0x1012].flatMap (fun i => [2, 3, 4, 5, 6].map (fun s => (i, s)))
  { d with palca := { d.palca with
      inForce := keys.foldl (fun m k => kset [] m (okey k.1 k.2) (d.cfgList k.1 k.2)) [], waiting := [] } }

/-- Every persisted object and the calibration corrections. -/
def Dev.restoreAll (d : Dev) (lost : List Nat) : Dev :=
  let all := d.persistedAll
  let gone := ((d.recd.store.map JEntry.key).eraseDups).filter (fun k => !(d.readable .store).any (fun e => e.key == k))
  let extra := (lost ++ gone).eraseDups.filter (fun k => !all.any (fun x => x.1 == k))
  let d := all.foldl (fun (d : Dev) x => d.restoreKept lost x) d
  let d := extra.foldl (fun (d : Dev) k => d.raise 0x1001 0 k) d
  let c := d.fus.savedCalib
  let d := { d with fus := { d.fus with copy0 := { d.fus.copy0 with calib := c }, copy1 := { d.fus.copy1 with calib := c } } }
  d.forceAddresses.recomputeCrc

/-- The leaf block reserved before any signature (R518, R519). -/
def Dev.bootLeaf (d : Dev) (r : StepResult) : Dev :=
  let known := if r.leafReads then (d.readable .control).find? (fun e => e.key == ctlReservation) else none
  match known with
  | some e => d.reserve (e.value.headD 0 + 1)
  | none =>
    let e := d.sec.epochs
    ((d.burnEpochs (e + 1)).reserve (e * 2 ^ 20)).raise 0x1104 0 2

/-- A 256-bit value of the control area, 0 where no copy reads (R521). -/
def Dev.controlValue (d : Dev) (key : Nat) : BitVec 256 :=
  match (d.readable .control).find? (fun e => e.key == key) with
  | some e => val256 (e.value.map (BitVec.ofNat 64)) 0
  | none => 0

/-- The commissioned and the partner fingerprint come from the control area (R521). -/
def Dev.restoreControl (d : Dev) : Dev :=
  d.modSec (fun s => { s with commissioned := d.controlValue ctlCommissioned, partner := d.controlValue ctlPartner })

/-- A copy of a firmware stage failed (R487, R511). -/
def Dev.badStage (d : Dev) (n : Nat) : Dev := (d.raise 0x1008 n 0).raise 0x1101 0 n

/-- The recorder continues its ring; before the first segment PREV_H follows the identity, and an unsealed segment is
closed (R503, R505). -/
def Dev.bootRecorder (d : Dev) (r : StepResult) : Dev :=
  let first := Config.shake256 (beBytes 32 d.sec.fingerprint.toNat ++ beBytes 8 d.sec.serial.toNat)
  let d := if d.recd.segment = 1 ∧ d.recd.prevH = 0 then d.modRec (fun x => { x with prevH := first }) else d
  if r.unsealed = true ∧ d.recd.sealing = none then d.endSegment true else d

/-- The first start-up formats every area but the boot area and the firmware (R486): factory marks, empty slots and journals, an erased ring;
none where the ring would have fewer than 2 GiB (R484). -/
def Dev.formatNand (d : Dev) (bad : List Nat) : Dev :=
  let d : Dev := { d with prog := { d.prog with slots := [], selActive := none, selTrial := none, selFallback := none } }
  d.modRec (fun r => { r with
    formatted := true, blocks := bad.foldl (fun m b => kmod NandBlock.reset m b (fun x => { x with bad := true })) r.blocks,
    bad := bad.eraseDups.length, pages := [], heads := [], store := [], control := [], remap := [], again := [], refresh := [],
    sealed := [], segStart := [], ringPos := 0, segment := 1, prevH := 0 })

/-- The NAND cannot be used: no anchor copy passes its CRC, or the first start-up finds too small a ring (R484, R486). -/
def Dev.nandUnfit (d : Dev) (r : StepResult) : Bool :=
  !r.anchor || (!d.recd.formatted && decide ((d.recd.ringBlocks - r.factoryBad.length) * d.recd.blockMiB < 2048))

/-- Step 7: firmware and persisted state. -/
def step7 (r : StepResult) (d : Dev) : Dev :=
  let d := r.oneBad.foldl Dev.badStage d
  if d.nandUnfit r then (d.raise 0x0F07 0 0).stopStart
  else if r.twoBad ≠ [] then ((r.twoBad.foldl (fun (d : Dev) n => (d.badStage n).badStage n) d).raise 0x0F07 0 0).stopStart
  else
    let d := (d.modStart (fun s => { s with firmware := r.firmware, repair := r.oneBad, bootRom := false })).modSec
      (fun s => { s with fwSec := r.secVersion, stageFloor := r.floor, traversal := !r.traversalOk })
    let d := (if d.recd.formatted then d else d.formatNand r.factoryBad).eraseAgain
    let d := ((d.restoreAll r.lostObjects).syncDomain .a).syncDomain .b
    let d := (d.restoreControl.bootLeaf r).bootRecorder r
    let sup := (List.range 16).filter (fun n => hasEdge d.code && decide (d.cfg 0x3300 (n + 1) = 1))
    (d.modStart (fun s => { s with supplies := sup })).stepDone 7

/-! ## Steps 8 to 11 (R467, R470, R475) -/

/-- Step 8: the program package; without one the device stops in READY (R470; log 32). -/
def step8 (d : Dev) : Dev :=
  let (d, ok) := d.bootPackage
  let d := (d.reach .ready).repairRows.stepDone 8
  if ok then d else d.stopStart

/-- Step 9: ports that do not answer configuration; the FIFO pointers are compared (R72); enabled slots enter WAIT_LINK. -/
def step9 (r : StepResult) (d : Dev) : Dev :=
  let d : Dev := { d with intake := { d.intake with
    cfgFailed := r.units.foldl (fun l p => sins p l) d.intake.cfgFailed, cfgTick := r.units.foldl (fun m p => kset 0 m p d.tick) d.intake.cfgTick } }
  let d := r.units.foldl (fun (d : Dev) p => d.raise 0x0F09 p 0) d
  let d := d.stepDone 9
  let d : Dev := (List.range (slotsOf d.code)).foldl (fun (d : Dev) n => d.syncSlot n) d.comparePointers
  { d with twin := { d.twin with discovering := d.twin.discovering || d.pairEnabled } }

/-- Partner discovery has ended: the pair is formed or not enabled, a check failed, or the 200 ms have passed (R476). -/
def Dev.step10Over (d : Dev) : Bool :=
  !d.pairEnabled || d.paired || d.twin.checkFailed || decide (kget 0 d.hull.demands srcLinkLoss ≠ 0)

/-- Step 10: once partner discovery has ended, the sequence goes on to RUN, or ends. -/
def step10 (d : Dev) : Dev :=
  if d.step10Over then
    let d := if d.pairEnabled && !d.paired && decide (kget 0 d.hull.demands srcLinkLoss = 0) then d.single else d
    let d := (d.modPower (fun p => { p with wdCount := 0 })).stepDone 10
    if d.cfg 0x8010 3 = 4 ∧ d.start.readyAtMost = false ∧ d.power.target = none ∧ d.inReady = true then
      d.modPower (fun p => { p with target := some .run })
    else d.stopStart
  else d

/-- Step 11: the checks of R445; the step itself ends with the first commit. An activation comes first, and a request for RUN that it
ended is not taken up again (R187). -/
def step11 (d : Dev) : Dev :=
  if d.cyc.next.isSome ∨ d.prog.activating.isSome then d
  else if d.power.target ≠ some .run then d.stopStart
  else match d.runRefusal with
    | some c => ((d.raise c 0 0).modPower (fun p => { p with target := none })).stopStart
    | none => d.enterRun

def startupStepComplete (r : StepResult) (d : Dev) : Dev :=
  match d.start.step with
  | some 1 => step1 r d
  | some 2 => step2 r d
  | some 3 => step3 r d
  | some 4 => step4 r d
  | some 5 => step5 r d
  | some 6 => step6 r d
  | some 7 => step7 r d
  | some 8 => step8 d
  | some 9 => step9 r d
  | some 10 => step10 d
  | some 11 => step11 d
  | _ => d

/-- STARTUP_STEP_COMPLETE (R467, R475). -/
def execStartupStepComplete (res : StepResult) (s : State) : Out := s.next (startupStepComplete res s.dev)

/-! ## Sensor supplies (R473, R541) -/

def supplySwitchOn (d : Dev) : Dev :=
  match d.start.supplies with
  | _ :: t =>
    if d.start.supplyTick + msTicks 1 ≤ d.tick then (d.modStart (fun s => { s with supplies := t, supplyTick := d.tick })).sendCommand else d
  | [] => d

/-- SUPPLY_SWITCH_ON (R473): every 1 ms the next enabled supply switches on. -/
def execSupplySwitchOn (s : State) : Out := s.next (supplySwitchOn s.dev)

/-- A write to [3300]. -/
def writeSupply (n : Nat) (v : List Nat) (d : Dev) : Dev × Reply := ((d.put 0x3300 (n + 1) v).sendCommand, .good [])

def supplyEnable (r : Req) (n : Nat) (value : Byte) (d : Dev) : Dev := d.writeWith r 0x3300 (n + 1) false [value] (writeSupply n)

/-- SUPPLY_ENABLE (R437, R541): the supply's command bit follows; 0 and then 1 re-arms one that a short switched off. -/
def execSupplyEnable (r : Req) (n : Fin 16) (value : Byte) (s : State) : Out := s.next (supplyEnable r n value s.dev)

end Sys2Proof.Machine
end

