-- ==== Sys2Proof/Machine/Transitions.lean ====
section
/-! DEFINITION. State requests, the legs of a transition, reset requests and the restoring of defaults (R170, R171, R242,
R408, R432, R433, R444 to R446). -/

namespace Sys2Proof.Machine

open Sys2Proof

/-! ## State requests (R436, R445) -/

/-- Start-up has ended step 8 (R470). -/
def Dev.pastStep8 (d : Dev) : Bool :=
  match d.start.step with
  | some n => decide (8 < n)
  | none => decide (8 ≤ d.start.last)

/-- State of a code of [2000.02]. -/
def stateOfCode (v : Nat) : PowerState :=
  match v with | 1 => .husk | 2 => .standby | 3 => .ready | _ => .run

/-- A write to [2000.02]. A request that leaves RUN lets no further instant come (R446). -/
def writeState (v : List Nat) (d : Dev) : Dev × Reply :=
  let st := stateOfCode (v.headD 0)
  if d.pastStep8 = false ∨ d.power.target ≠ none then (d, .refuse 6)
  else if st = d.power.state then (d, .good [])
  else if st = .run then
    match d.runRefusal with
    | some c => (d.raiseRefusal c, .cause c)
    | none => (d.modPower (fun p => { p with target := some .run }), .good [])
  else
    let d := d.modPower (fun p => { p with target := some st })
    (if d.inRun then { d with cyc := { d.cyc with next := none } } else d, .good [])

/-- A request for the state of a code. -/
def stateRequest (r : Req) (code : Byte) (d : Dev) : Dev := d.writeWith r 0x2000 2 false [code] writeState

/-- STATE_REQUEST_HUSK (R445, R446). -/
def execStateRequestHusk (r : Req) (s : State) : Out := s.next (stateRequest r 1 s.dev)

/-- STATE_REQUEST_STANDBY (R445, R446). -/
def execStateRequestStandby (r : Req) (s : State) : Out := s.next (stateRequest r 2 s.dev)

/-- STATE_REQUEST_READY (R445, R446). -/
def execStateRequestReady (r : Req) (s : State) : Out := s.next (stateRequest r 3 s.dev)

/-- STATE_REQUEST_RUN (R445, R446). -/
def execStateRequestRun (r : Req) (s : State) : Out := s.next (stateRequest r 4 s.dev)

/-! ## The core die goes off and comes back (R162, R170, R171, R444) -/

/-- Key of a byte of the Hoard. -/
def hoardKey (off : Nat) : Nat := 2 * 2 ^ 44 + off

/-- Ranges of the Hoard that the package declares resident. -/
def Dev.residentRanges (d : Dev) : List (Nat × Nat) := match d.prog.prog with | some p => p.resident | none => []

/-- Where the resident image begins: it ends at the firmware region, the top 256 MiB of DDR5 (R383, R444). -/
def Dev.imageKey (d : Dev) : Nat := 3 * 2 ^ 44 + d.ddrSize - 2 ^ 28 - (d.residentRanges.map Prod.snd).sum

/-- Places of the ranges in the image, in their order (log 33). -/
def imagePlaces : Nat → List (Nat × Nat) → List (Nat × Nat × Nat)
  | _, [] => []
  | k, r :: t => (k, r.1, r.2) :: imagePlaces (k + r.2) t

/-- The resident ranges are copied to DDR5 (R444). -/
def Dev.saveResident (d : Dev) : Dev :=
  (imagePlaces d.imageKey d.residentRanges).foldl (fun (d : Dev) x => d.store x.1 (d.mem.readN (hoardKey x.2.1) x.2.2)) d

/-- The image comes back to the Hoard (R446). -/
def Dev.restoreResident (d : Dev) : Dev :=
  (imagePlaces d.imageKey d.residentRanges).foldl (fun (d : Dev) x => d.store (hoardKey x.2.1) (d.mem.readN x.1 x.2.2)) d

/-- The core die's memories are cleared as power returns (R162). -/
def Memory.clearCore (m : Memory) : Memory :=
  (m.clearRange (2 ^ 44) (3 * 2 ^ 44)).clearRange (5 * 2 ^ 44) (6 * 2 ^ 44)

/-- STANDBY to READY (R446): core die and DDR5 return, the resident image, Pods GATED, row repairs. -/
def Dev.coreOn (d : Dev) : Dev :=
  let good := d.enabledPods.filter (fun p => (d.pod p).state != .out)
  let d := d.modPower (fun p => { p with enCore := true })
  let d : Dev := { d with mem := d.mem.clearCore, ddr := { d.ddr with selfRefresh := false } }
  let d := d.restoreResident.placePods good
  let d := match d.prog.prog with | some p => d.loadWindows p | none => d
  d.repairRows

/-- A Pod without power. -/
def Pod.unpowered (p : Pod) : Pod := { Pod.reset with state := if p.state = .out then .out else .off, faults := p.faults, goldenTick := p.goldenTick }

/-- READY to STANDBY (R242, R444, R493): calibration, read counts and resident image are saved, DDR5 holds itself, the core
rails go off. -/
def Dev.coreOff (d : Dev) : Dev :=
  let d := d.saveCalib.journalReads.saveResident
  let d : Dev := { d with
    pods := { d.pods with pods := d.enabledPods.foldl (fun m p => kmod Pod.reset m p Pod.unpowered) d.pods.pods, replace := none, due := none },
    movers := [], solvers := d.solvers.filterMap (fun x => if x.2.out then some (x.1, { Solver.reset with out := true }) else none),
    ddr := { d.ddr with selfRefresh := true } }
  d.modPower (fun p => { p with enCore := false, grants := [], clocks := [], droops := [], droopEpoch := false })

/-! ## Legs (R446) -/

/-- The target is reached. -/
def Dev.arrived (d : Dev) : Dev :=
  if d.power.target = some d.power.state then d.modPower (fun p => { p with target := none }) else d

/-- READY to RUN: the checks once more, then the first instant is set; RUN begins with it. -/
def Dev.legRun (d : Dev) : Dev :=
  if d.cyc.next.isSome ∨ d.start.step = some 11 then d
  else match d.runRefusal with
    | some c => (d.raiseRefusal c).modPower (fun p => { p with target := none })
    | none => d.enterRun

/-- RUN to READY: every cycle whose instant has passed has come to its commit or discard (R446), and no Pod works any more: a running
operation, step or move is not cut off (R91, R116). -/
def Dev.legOutOfRun (d : Dev) : Dev :=
  if d.cyc.flight = [] ∧ d.anyBusy = false then
    (((d.endTransfers).leaveRun .ready).repairRows.modStart (fun s => { s with step := if s.step = some 11 then none else s.step })).arrived
  else d

def stateTransitionComplete (d : Dev) : Dev :=
  match d.power.target, d.prog.activating with
  | none, _ => d
  | some _, some _ => d
  | some t, none =>
    match d.power.state with
    | .standby => if t = .husk then d.toHusk [] true false else (d.coreOn.reach .ready).arrived
    | .ready => if t = .run then d.legRun else if d.anyBusy then d else (d.coreOff.reach .standby).arrived
    | .run => d.legOutOfRun
    | _ => d

/-- STATE_TRANSITION_COMPLETE (R444 to R446): one leg of the transition to the target state; the device stays
in READY while an activation runs (R187). -/
def execStateTransitionComplete (s : State) : Out := s.next (stateTransitionComplete s.dev)

/-! ## Reset requests (R432) -/

/-- A write passes every check up to its own rule, and is no repeat (R395 to R408). -/
def Dev.takesWrite (d : Dev) (r : Req) (idx sub : Nat) (part : Bool) (payload : List Byte) : Bool :=
  let content := [2, idx, sub, b2n part, 0] ++ byteNats payload
  d.up && d.datagramTaken r.port r.addr && (decide (r.port = .spi) || decide (d.hostFilter (portNo r.port) (mappedV4 r.addr) r.frame = 0)) &&
    framed r && !d.start.bootRom && (d.repeatOf r content).isNone && (d.heldOf r content).isNone &&
    (match d.rightsOf r.port r.addr with | some rt => (d.checkWrite r.port rt idx sub payload).isNone | none => false)

/-- The response leaves first; then the device resets, and its transfers end (R410, R432). -/
def resetRequest (r : Req) (part : Bool) (payload : List Byte) (d : Dev) : Dev :=
  let d' := d.writeWith r 0x2000 5 part payload (fun _ d => (d, .good []))
  if d.takesWrite r 0x2000 5 part payload then d'.endTransfers.resetDevice 3 [] true else d'

/-- RESET_REQUEST (R432, R465). -/
def execResetRequest (r : Req) (value : Byte) (s : State) : Out := s.next (resetRequest r false [value] s.dev)

/-! ## Restore defaults (R429, R433) -/

/-- Objects that keep their values. -/
def keepsValue (idx sub : Nat) : Bool :=
  idx == 0x1011 || idx == 0x1012 || (idx == 0x1020 && decide (1 ≤ sub) && decide (sub ≤ 4)) || (idx == 0x2001 && sub == 1) ||
    (decide (0x5100 ≤ idx) && decide (idx ≤ 0x510F) && decide (1 ≤ sub) && decide (sub ≤ 3)) || (idx == 0x7000 && sub == 2) ||
    (idx == 0xC000 && sub == 7) || idx == 0xA000

/-- The value the active package gives an object; empty where it gives none. -/
def Dev.packageValue (d : Dev) (k : Nat) : List Nat :=
  match d.prog.prog with
  | some p => (((p.defaults ++ p.streamMap).find? (fun x => x.1 == k)).map Prod.snd).getD []
  | none => []

/-- One object takes its default. -/
def Dev.restoreObj (d : Dev) (k : Nat) : Dev :=
  match objRow d.code (k / 256) (k % 256) with
  | some r =>
    if (r.acc = .rwr ∨ r.acc = .rwp) ∧ keepsValue (k / 256) (k % 256) = false then
      let d := { d with dict := { d.dict with vals := kset [] d.dict.vals k (if r.dflt = .package then d.packageValue k else []) } }
      if r.acc = .rwp then d.persist k [] else d
    else d
  | none => d

/-- A write of 1 to [2000.06]: slots, supplies, geometry and the configuration CRC follow the restored values. -/
def writeRestore (_v : List Nat) (d : Dev) : Dev × Reply :=
  if d.inReady = false then (d, .refuse 3)
  else
    let pkg := match d.prog.prog with | some p => (p.defaults ++ p.streamMap).map Prod.fst | none => []
    let d := (d.dict.vals.map Prod.fst ++ d.persistedAll.map Prod.fst ++ pkg).eraseDups.foldl Dev.restoreObj d
    let d := (List.range (slotsOf d.code)).foldl (fun (d : Dev) n => d.wrote (0x3000 + n) 1) d
    let d := ((((d.wrote 0x5010 2).syncDomain .a).syncDomain .b).adoptTrigs).sendCommand.recomputeCrc
    (d.raiseIf d.sourceConflict 0x0201 0 0, .good [])

def restoreDefaults (r : Req) (value : Byte) (d : Dev) : Dev := d.writeWith r 0x2000 6 false [value] writeRestore

/-- RESTORE_DEFAULTS (R433). -/
def execRestoreDefaults (r : Req) (value : Byte) (s : State) : Out := s.next (restoreDefaults r value s.dev)

end Sys2Proof.Machine
end

