-- ==== Sys2Proof/Machine/Cycle.lean ====
section
/-! DEFINITION. The cycle: its instant with the first-lock step, the close of its acceptance window, and its commit or
discard (R25, R27, R36, R37, R60, R81, R202, R236, R334, R345 to R348, R356, R362, R373 to R378, R467, R469, R479, R512). -/

namespace Sys2Proof.Machine

open Sys2Proof

/-! ## The instant (R9, R36, R37, R202, R385, R446) -/

/-- Offset of a domain now, from its newest estimate (R41). -/
def Dev.offsetNow (d : Dev) (x : Dom) : Int :=
  match d.corrected (d.dom x) with | p :: _ => p.2 | [] => (d.dom x).offset

/-- A domain after the counter moved by so much, with its offset as it was just before. -/
def Domain.stepped (v : Domain) (offset by_ : Int) : Domain := { v with offset := offset - by_ }

/-- The domain whose first selection the counter has not followed yet (R36). -/
def Dev.lockDue (d : Dev) : Option Dom := if d.time.epoch then none else d.time.selected

/-- R37: a sample that waits for a cycle after the step, on the scale after it. -/
def Sample.shift (s : Sample) (by_ : Int) : Sample :=
  { s with tv := s.tv + by_, told := s.told + by_, ref := s.ref + by_, epoch := true,
           points := s.points.map (fun q => { q with time := q.time + by_ }) }

/-- R37: what a slot holds for cycles from `c` on, and the points of its sample in arrival, on the scale after the step. -/
def Slot.shift (s : Slot) (c : Int) (by_ : Int) : Slot :=
  { s with points := s.points.map (fun q => { q with time := q.time + by_ }),
           samples := s.samples.map (fun x => if c ≤ x.sink ∧ x.epoch = false then x.shift by_ else x) }

/-- The first-lock step (R36, R37): Δ in one tick, EPOCH, and the end of start-up step 12; cycles in flight complete on the old
time scale, samples for later cycles move to the new one. -/
def Dev.lockStep (d : Dev) (x : Dom) : Dev :=
  let delta := d.offsetNow x
  let oa := d.offsetNow .a
  let ob := d.offsetNow .b
  let d : Dev := { d with
    time := { d.time with
      counter := d.time.counter + BitVec.ofInt 96 delta, epoch := true, delta := delta,
      domA := d.time.domA.stepped oa delta, domB := d.time.domB.stepped ob delta },
    cyc := { d.cyc with flight := d.cyc.flight.map (fun (c : CycleCtx) => { c with epoch := true }) } }
  let d := (List.range 16).foldl (fun (d : Dev) n => d.modSlot n (fun s => s.shift (d.cyc.number.toNat + 1) d.deltaNs)) d
  let d := d.setTimeState
  if d.start.last = 12 then d.modStart (fun s => { s with last := 0xFF }) else d

/-- RUN begins with its first instant (R420, R446, R470). -/
def Dev.beginRun (d : Dev) : Dev :=
  if d.inRun then d
  else
    let d := (d.reach .run).modPower (fun p => { p with target := none })
    { d with hull := { d.hull with cmdTick := d.tick } }

/-- Every ACTIVE slot has been silent for one instant more (R59). -/
def Dev.countSilence (d : Dev) : Dev :=
  (List.range (slotsOf d.code)).foldl (fun (d : Dev) n =>
    if (d.slot n).state = .active then d.modSlot n (fun s => { s with silent := s.silent + 1 }) else d) d

/-- The new cycle with instant `tv` and the instant after it. -/
def Dev.openCycleAt (d : Dev) (tv nx : Int) : Dev :=
  let c := d.cyc.number + 1
  let ctx : CycleCtx :=
    { number := c.toNat, tv := tv, tick := d.tick, closed := false, intakeDone := false, intakeEnded := false, masked := 0, tstate := d.time.state, epoch := false,
      excursion := false, sats := [], vals := d.dict.vals }
  { d with
    cyc := { d.cyc with number := c, tv := tv, next := some nx, flight := d.cyc.flight ++ [ctx] },
    intake := { d.intake with deliv := d.intake.deliv.filter (fun x => decide (c.toNat ≤ x.1 + 2)) } }

/-- Instants follow each other at the cycle period; the step stretches one cycle to a multiple of it (R37). -/
def Dev.nextInstant (d : Dev) (n : Int) : Dev :=
  match d.lockDue with
  | some x =>
    let d := d.lockStep x
    let tv := n + d.deltaNs
    let nx : Int := (nextMultiple (tv + d.period).toNat (max 1 d.period) : Nat)
    let d := d.openCycleAt tv nx
    { d with cyc := { d.cyc with stretch := some (d.cyc.number.toNat, nx - tv - d.period) } }.rescheduleTrigs
  | none => d.openCycleAt n (n + d.period)

def cycleInstant (d : Dev) : Dev :=
  match d.cyc.next with
  | none => d
  | some n =>
    if n ≤ d.now ∧ d.cyc.flight.length < 2 ∧ (d.inRun = true ∨ d.inReady = true) then
      let d := d.beginRun.nextInstant n
      let d := (d.pairFrom d.cyc.tv).countSilence.takeReplacement
      (List.range 30).foldl (fun (d : Dev) t => d.armPass t) d
    else d

/-- CYCLE_INSTANT (R9, R25, R36, R37, R202): the scheduled instant arrives. -/
def execCycleInstant (s : State) : Out := s.next (cycleInstant s.dev)

/-! ## Window close (R60, R81, R236, R268, R377) -/

/-- Masked slots of the committed copy. -/
def Dev.committedMasks (d : Dev) : BitVec 16 :=
  BitVec.ofNat 16 (maskOf ((List.range 16).filter (fun n => (d.fusC.slotHealth n).masked)))

/-- The candidate copy starts from the committed one, with no residual yet (R236, R377). -/
def Dev.startCandidate (d : Dev) : Dev :=
  let f := (List.range 16).foldl (fun (f : Fusion) n => f.modHealth n (fun h => { h with rho := none })) d.fusC
  (d.setFusN f).modCand (fun _ => { Candidate.reset with excluded := d.committedMasks })

def acceptanceWindowClose (d : Dev) : Dev :=
  match d.cyc.flight with
  | [] => d
  | c :: rest =>
    if c.closed = false ∧ c.tv + (if c.epoch then d.deltaNs else 0) + d.margin ≤ (d.now : Int) then
      let d : Dev := { d with cyc := { d.cyc with flight := { c with closed := true, masked := d.committedMasks } :: rest } }
      ((d.startCandidate.planAttention c.number c.tv).remark c.number).checkIntake
    else d

/-- ACCEPTANCE_WINDOW_CLOSE (R60, R81, R268): the oldest cycle begins to compute. -/
def execAcceptanceWindowClose (s : State) : Out := s.next (acceptanceWindowClose s.dev)

/-! ## Commit (R242, R265, R334, R346, R348, R376) -/

/-- Commits with the demanded tier at or below 0, 1 and 2 (R334). -/
def Dev.countRelease (d : Dev) : Dev :=
  { d with hull := { d.hull with rel := (List.range 3).map (fun t => if d.demanded ≤ t then d.hull.rel.getD t 0 + 1 else 0) } }

/-- The decision latches take the candidate, and g its number (R346, R376). -/
def Dev.latchCommit (d : Dev) (c : CycleCtx) (zones : BitVec 64) (tiers : Store Nat) : Dev :=
  let exc := if c.excursion || d.fus.cand.excursion then d.cfg 0x7000 7 else 0
  let d : Dev := { d with
    cyc := { d.cyc with flight := d.cyc.flight.drop 1 },
    hull := { d.hull with
      g := d.hull.g + 1, zones := zones, zoneTier := d.zonesTier zones, pairTiers := tiers, discards := 0, genFault := none, lastCycle := c.number, lastDiscarded := false,
      lastTv := c.tv, firstCommit := true, demands := kset 0 (kset 0 d.hull.demands srcDiscard 0) srcExcursion exc } }
  d.countRelease.count 0xB000 1

/-- The output tier after the commit edge (R334, R351). -/
def Dev.settleTier (d : Dev) : Dev :=
  let d := (d.retier 0).lower
  let d' := d.restoreOutputs
  if d'.hull.offDone = d.hull.offDone then d else d'.sendCommand

/-- What the first commit since start-up brings (R467, R479, R512). -/
def Dev.firstCommitDone (d : Dev) : Dev :=
  let d := d.raiseIf (decide (d.time.state ≠ .locked)) 0x0F0B 0 0
  d.modSec (fun s => { s with floor := max s.floor (min 64 s.stageFloor) })

/-- Start-up step 11 ends with its first commit (R467). -/
def Dev.endStep11 (d : Dev) : Dev :=
  if d.start.step = some 11 then d.modStart (fun s => { s with step := none, last := if d.time.epoch then 0xFF else 12 }) else d

/-- A trial slot has committed a cycle (R186). -/
def Dev.trialCommitted (d : Dev) : Dev :=
  if d.prog.selTrial.isSome && d.prog.selTrial == d.prog.active then { d with prog := { d.prog with committed := true } } else d

/-- One status PDU and one DECISION frame for a cycle's end, where a change of tier on the same edge has not sent them
(R356, R362, R416). -/
def Dev.announce (d : Dev) (statusSeq txSeq : BitVec 16) : Dev :=
  let d := if d.twin.txSeq = txSeq then d.sendDecision else d
  if d.hull.statusSeq = statusSeq then d.sendStatus else d

/-- VALUES payload (R356). -/
def valuesWords (tv : Int) (vals : Store PairEntry) : List Word :=
  BitVec.ofInt 64 tv :: (List.range 256).map (fun p =>
    let e := kget PairEntry.reset vals p
    packW [(32, e.dist), (16, e.vh), (16, e.sigma)])

/-- Sends a VALUES frame while a partner is paired. -/
def Dev.sendValues (d : Dev) (tv : Int) (vals : Store PairEntry) : Dev := if d.paired then d.sendTwin 3 (valuesWords tv vals) else d

/-- Records of the ended cycle: recorder and streams (R250, R414, R499). -/
def Dev.cycleRecords (d : Dev) (c : CycleCtx) (discarded : Bool) : Dev :=
  let f := d.fusC
  ((d.holdCycle f c discarded d.fus.cand.arrived).dueRecords f c discarded).closeIfSent

def commitCycle (c : CycleCtx) (zones : BitVec 64) (tiers : Store Nat) (vals : Store PairEntry) (d : Dev) : Dev :=
  let first := !d.hull.firstCommit
  let status := d.hull.statusSeq
  let tx := d.twin.txSeq
  let d := (d.commitGrid.resolveParents c.number).commitAttention c.number
  let d := (d.latchCommit c zones tiers).settleTier
  let d := ((if first then d.firstCommitDone else d).endStep11.trialCommitted.announce status tx).sendValues c.tv vals
  let own : Decided :=
    { cycle := c.number, tick := d.tick, tv := c.tv, discarded := false, zones := zones, tiers := tiers, vals := vals, compared := false }
  (d.keepDecision own).cycleRecords c false

/-! ## Discard (R27, R347, R392) -/

/-- Entries of the causes that kept the generation from its commit take EFFECT 1. -/
def Dev.blameDiscard (d : Dev) : Dev :=
  let d := match d.hull.genFault with | some k => d.effect k 1 | none => d
  if d.fus.cand.bad then d.effect 0x0B03 1 else d

/-- The Hull's count of discards, and its limit. -/
def Dev.countDiscard (d : Dev) (c : CycleCtx) : Dev :=
  let d := ((d.raise 0x0B04 0 0).effect 0x0B04 1).count 0xB000 2
  let d : Dev := { d with
    cyc := { d.cyc with flight := d.cyc.flight.drop 1 },
    hull := { d.hull with
      discards := satU 8 (d.hull.discards + 1), genFault := none, lastCycle := c.number, lastDiscarded := true, lastTv := c.tv,
      rel := [0, 0, 0] } }
  if d.cfg 0x7000 4 < d.hull.discards then (d.raise 0x0B05 0 0).demand srcDiscard 3 0x0B05 else d

def discardCycle (c : CycleCtx) (d : Dev) : Dev :=
  let status := d.hull.statusSeq
  let tx := d.twin.txSeq
  let d := (d.discardAttention.blameDiscard.countDiscard c).comparePointers.announce status tx
  let own : Decided :=
    { cycle := c.number, tick := d.tick, tv := c.tv, discarded := true, zones := d.hull.zones, tiers := d.hull.pairTiers, vals := [], compared := false }
  (d.keepDecision own).cycleRecords c true

def commitDeadline (d : Dev) : Dev :=
  match d.cyc.flight with
  | [] => d
  | c :: _ =>
    if c.closed = true ∧ c.tick + usTicks (d.cfg 0x5000 6) ≤ d.tick then
      match d.fus.cand.summary with
      | some (zones, tiers, vals) =>
        if d.fus.cand.bad = false ∧ d.hull.genFault = none ∧ d.fus.cand.evalEnd ≤ c.tick + usTicks (d.cfg 0x5000 6) then commitCycle c zones tiers vals d else discardCycle c d
      | none => discardCycle c d
    else d

/-- COMMIT_DEADLINE (R27, R345 to R347): the Hull commits a complete and good candidate, and discards every other. -/
def execCommitDeadline (s : State) : Out := s.next (commitDeadline s.dev)

end Sys2Proof.Machine
end

