-- ==== Sys2Proof/Machine/Patrol.lean ====
section
/-! DEFINITION. The patrol scrub of DDR5 (R165, R169 to R171, R271). -/

namespace Sys2Proof.Machine

open Sys2Proof

/-- Words of the burst at a key. -/
def burstWords (k : Nat) : List Nat := (List.range 8).map (fun i => k / 8 + i)

/-- Marks a row that the patrol corrected: a second pass makes it due for repair (R170). -/
def markWeak (m : Store Nat) (row : Nat) : Store Nat := kmod 0 m row (fun x => if x = 0 then 3 else if x = 1 then 2 else x)

/-- A pass has ended: rows corrected in it count as corrected in an earlier pass. -/
def agePass (m : Store Nat) : Store Nat := m.map (fun x => (x.1, if x.2 = 3 then 1 else x.2))

/-- A corrected burst is counted; its write-back is cancelled where a functional write waits for it (R165, R169). -/
def Dev.patrolCorrected (d : Dev) (k : Nat) (writePending : Bool) : Dev :=
  { d with
    mem := { d.mem with
      corrected := kmod 0 d.mem.corrected (memUnit d.code (k / 8)) (fun c => satU 64 (c + 1)),
      backs := if writePending then d.mem.backs.filter (fun w => !(burstWords k).contains w) else sins (k / 8) d.mem.backs },
    ddr := { d.ddr with weakRows := markWeak d.ddr.weakRows (ddrRow d.code k) } }

/-- An uncorrectable burst is left as it is, and every later read of it is poisoned; a page of the attention history it lies
in retires (R148, R169, R271). -/
def Dev.patrolBad (d : Dev) (k : Nat) : Dev :=
  let d : Dev := { d with mem := { d.mem with poisoned := (burstWords k).foldl (fun l w => sins w l) d.mem.poisoned } }
  let d := (d.badRow k).raise 0x0506 (memUnit d.code (k / 8)) (k % 2 ^ 48)
  if d.kvW = 0 then d
  else match d.kvPage (k / 8) with
    | some (h, p) => (d.retirePage h p).sweepRuns
    | none => d

/-- The patrol moves to the next burst; after the last one a new pass begins. -/
def Dev.patrolNext (d : Dev) (addr : Nat) : Dev :=
  if addr + 64 < d.ddrSize then { d with ddr := { d.ddr with patrol := addr + 64 } }
  else { d with ddr := { d.ddr with
    patrol := 0, lastPass := satU 32 ((d.tick - d.ddr.passStart) / sTicks 1), passStart := d.tick, late := false,
    weakRows := agePass d.ddr.weakRows } }

def patrolRead (addr : Nat) (r : BurstResult) (writePending : Bool) (d : Dev) : Dev :=
  if d.ddrLive = true ∧ addr = d.ddr.patrol then
    let k := 3 * 2 ^ 44 + addr
    let d := match r with
      | .good => d
      | .corrected => d.patrolCorrected k writePending
      | .uncorrectable => d.patrolBad k
    d.patrolNext addr
  else d

/-- PATROL_READ (R165, R169 to R171, R271): bursts in address order. -/
def execPatrolRead (addr : Nat) (r : BurstResult) (writePending : Bool) (s : State) : Out := s.next (patrolRead addr r writePending s.dev)

end Sys2Proof.Machine
end

