-- ==== Sys2Proof/Machine/ReadOut.lean ====
section
/-! DEFINITION. What a READ returns: the values of the objects that the device computes, and the BLOBs (R402, R403, R407,
R424, R431, R434 to R442). -/

namespace Sys2Proof.Machine

open Sys2Proof

/-! ## Parts of the answer -/

/-- Code of a domain state (R41, R56). -/
def DomState.code : DomState → Nat
  | .absent => 0 | .acquiring => 1 | .tracking => 2 | .disabled => 3

/-- Code of a slot state (R59). -/
def SlotState.code : SlotState → Nat
  | .disabled => 0 | .waitLink => 1 | .syncing => 2 | .active => 3 | .fault => 4

/-- Code of a Pod state (R115). -/
def PodState.code : PodState → Nat
  | .off => 0 | .collapsed => 1 | .gated => 2 | .active => 3 | .resting => 4 | .out => 5

/-- Code of a package slot's state (R185). -/
def PkgState.code : PkgState → Nat
  | .empty => 0 | .loading => 1 | .verified => 2 | .trial => 3 | .active => 4 | .fallback => 5 | .refused => 6

/-- Characters of a name. -/
def chars (s : String) : List Nat := s.toList.map Char.toNat

/-- Name of an ordering code (R2). -/
def deviceName (code : Nat) : String :=
  if code = 2 then "CQ-2480-N" else if code = 3 then "CQ-0840-A" else if code = 4 then "CQ-0420-A" else "CQ-2480-A"

/-- A number in place of one that may be missing: 0xFF (R56, R198, R393). -/
def orFF (x : Option Nat) : Nat := x.getD 0xFF

/-- The state of safety output q (R439). -/
def Dev.outputState (d : Dev) (q : Nat) : Nat :=
  let ch := fun (c : Nat) => kget SqChannel.reset d.edge.sq c
  if (ch (2 * q)).latched ≠ 0 ∨ (ch (2 * q + 1)).latched ≠ 0 then 3
  else if (kget none d.hull.offDelay q).isSome then 2
  else if (ch (2 * q)).cmd = true ∧ (ch (2 * q + 1)).cmd = true then 1
  else 0

/-- Check status of a stream (R253). -/
def checkStatus (h : Health) (need : Nat) : Nat :=
  b2n (decide (0 < h.temporal)) + 2 * b2n (decide (0 < h.cross)) + 4 * b2n (decide (0 < h.residual)) +
    8 * b2n (h.masked && decide (need ≤ h.unmask))

/-- The first leaf that may still be used (R442, R518). -/
def Dev.nextLeaf (d : Dev) : Nat :=
  let fresh := match d.sec.reserved, d.sec.block with
    | some r, _ => blockLeaves * r
    | none, some b => blockLeaves * (b + 1)
    | none, none => blockLeaves * d.lowestBlock
  match d.sec.block with
  | some b => if d.sec.leaf < blockLeaves * (b + 1) then d.sec.leaf else fresh
  | none => fresh

/-- The reserved block of leaves (R442, R518). -/
def Dev.leafBlock (d : Dev) : Nat :=
  match d.sec.reserved, d.sec.block with
  | some r, _ => r
  | none, some b => b
  | none, none => 0

/-- The transfer of a package that is being loaded (R198). -/
def Dev.loadedBytes (d : Dev) : Nat :=
  match d.palca.transfers.find? (fun x => x.idx == 0xC010 && x.sub == 2) with
  | some x => x.got.length
  | none => 0

/-! ## Objects that the device computes -/

/-- Identity and host link (R424, R435). SQI is open while a link is up (log 8). -/
def Dev.roHost (d : Dev) (idx sub : Nat) : Option (List Nat) :=
  if idx = 0x1008 then some (chars (deviceName d.code))
  else if idx = 0x1009 then some [d.start.stepping / 256, d.start.stepping % 256]
  else if idx = 0x100A then some [d.start.firmware]
  else if idx = 0x1010 then some [kget 0 d.sec.macs (sub - 1)]
  else if idx = 0x1011 ∨ idx = 0x1012 then
    (match sub with
      | 8 => some [b2n (d.palca.up.contains (idx - 0x1011))]
      | 9 => some [if d.palca.up.contains (idx - 0x1011) then d.freeNat (700 + (idx - 0x1011)) 8 else 0]
      | _ => none)
  else if idx = 0x1018 then
    (match sub with
      | 2 => some [d.code]
      | 3 => some [d.start.stepping * 65536 + d.start.firmware % 65536]
      | 4 => some [d.sec.serial.toNat]
      | _ => none)
  else if idx = 0x1030 ∧ sub = 1 then some [d.palca.subs.length]
  else if 0x1100 ≤ idx ∧ idx ≤ 0x113F ∧ sub = 0x0A then some [d.streamLoad (idx - 0x1100)]
  else none

/-- Device state, Pods, memory (R119, R172, R436). -/
def Dev.roDevice (d : Dev) (idx sub : Nat) : Option (List Nat) :=
  match idx with
  | 0x2000 => (match sub with
    | 1 => some [d.power.state.code]
    | 3 => some [d.start.last]
    | 4 => some [d.power.resetKind]
    | 7 => some [d.tick * 5 / 2 % 2 ^ 64]
    | _ => none)
  | 0x2020 => some [(d.pod (sub - 1)).state.code]
  | 0x2021 => some [orFF (d.physOf (sub - 1))]
  | 0x2030 => (match sub with
    | 2 => some [d.ddrSize / 2 ^ 20]
    | 3 => some [b2n d.ddr.doubled]
    | 4 => some [d.ddr.training]
    | 6 => some [d.ddr.lastPass]
    | _ => none)
  | 0x2031 => some [kget 0 d.mem.corrected (sub - 1)]
  | 0x2033 => (match sub with
    | 1 => some [satU 16 (d.mem.spares.map Prod.snd).sum]
    | 2 => some [d.mem.tested]
    | _ => some [d.ddr.repaired])
  | _ => none

/-- A time domain (R56). -/
def Dev.roDomain (d : Dev) (v : Domain) (sub : Nat) : Option (List Nat) :=
  let v := v.aged d.tick
  match sub with
  | 3 => some [v.state.code]
  | 4 => some [orFF v.port]
  | 5 => some [pat 32 (satS 32 (v.offset / 2 ^ 32))]
  | 6 => some [pat 32 (satS 32 v.rate)]
  | 7 => some [v.gm.toNat]
  | 8 => some [match v.port with | some p => satU 32 ((kget PortDelay.reset d.time.delays p).delay / 2 ^ 32).toNat | none => 0]
  | 9 => some [pat 32 v.syncInterval]
  | _ => none

/-- Slots, channels, supplies and time (R56, R84, R437). -/
def Dev.roSense (d : Dev) (idx sub : Nat) : Option (List Nat) :=
  if 0x3000 ≤ idx ∧ idx ≤ 0x300F then
    (match sub with
      | 5 => some [(d.slot (idx - 0x3000)).state.code]
      | 6 => some [b2n (d.fusC.slotHealth (idx - 0x3000)).masked]
      | 0x36 => some (d.slot (idx - 0x3000)).late
      | _ => none)
  else if 0x3100 ≤ idx ∧ idx ≤ 0x311F ∧ sub = 0x36 then some (d.kin (idx - 0x3100)).late
  else match idx with
    | 0x3301 => some [kget 0 d.edge.supplies (sub - 1)]
    | 0x4000 => (match sub with
      | 1 => some [d.time.state.code]
      | 2 => some [d.now]
      | 3 => some [d.time.inc.toNat]
      | 5 => some [match d.time.selected with | some .a => 0 | some .b => 1 | none => 0xFF]
      | 0x0C => some [d.uncertaintyRead]
      | _ => none)
    | 0x4010 => d.roDomain d.time.domA sub
    | 0x4011 => d.roDomain d.time.domB sub
    | _ => none

/-- Cycle, calibration, health, attention, tracks, solvers (R220, R252, R253, R279, R304, R330). -/
def Dev.roFusion (d : Dev) (idx sub : Nat) : Option (List Nat) :=
  if 0x5100 ≤ idx ∧ idx ≤ 0x510F then
    let c := kget Calib.reset d.fusC.calib (idx - 0x5100)
    (match sub with
      | 4 => some (c.rot.map (pat 32))
      | 5 => some (c.tr.map (pat 32))
      | 0x0B => some [match (d.fusC.slotHealth (idx - 0x5100)).rho with | some r => satU 32 r | none => 0xFFFFFFFF]
      | _ => none)
  else if 0x6001 ≤ idx ∧ idx ≤ 0x6008 ∧ sub = 0x17 then some [d.liveTracks (idx - 0x6001)]
  else match idx with
    | 0x5000 => if sub = 5 then some [d.cyc.number.toNat] else none
    | 0x5201 => some [(d.fusC.slotHealth (sub - 1)).weight]
    | 0x5202 => some [checkStatus (d.fusC.slotHealth (sub - 1)) (d.cfg 0x5200 0x15)]
    | 0x5800 => (match sub with
      | 0x10 => some [d.kv.freePool]
      | 0x11 => some [d.kv.hotRetired.length + d.kv.poolRetired.length]
      | _ => none)
    | 0x5801 => some [kget 0 d.kv.masked (sub - 1)]
    | 0x6000 => if sub = 4 then some [d.fusC.nextId] else none
    | 0x6801 => some [b2n (d.solver (sub - 1)).out]
    | _ => none

/-- Safety and the edge die (R363 to R366, R439). -/
def Dev.roSafety (d : Dev) (idx sub : Nat) : Option (List Nat) :=
  if 0x7010 ≤ idx ∧ idx ≤ 0x704F ∧ sub = 6 then some [b2n (d.hull.zones.getLsbD (idx - 0x7010))]
  else if 0x7400 ≤ idx ∧ idx ≤ 0x74FF then
    (match sub with
      | 0x11 => some [kget 0 d.hull.pairTiers (idx - 0x7400)]
      | 0x12 => some [kget 0 d.hull.sp (idx - 0x7400)]
      | _ => none)
  else match idx with
    | 0x7000 => (match sub with
      | 3 => some [d.hull.tier]
      | 0x0D => some [satU 32 d.responseBound]
      | 0x11 => some [d.hull.stopCause]
      | 0x12 => some [d.hull.discards]
      | _ => none)
    | 0x7100 => if sub = 0x0B then some [d.twin.partner] else none
    | 0x7200 => if 9 ≤ sub ∧ sub ≤ 0x0C then some [d.outputState (sub - 9)] else none
    | 0x7201 => (match sub with
      | 1 => some [d.edge.vedge]
      | 2 => some [d.edge.vsens]
      | 3 => some [pat 32 d.edge.temp]
      | 4 => some [d.edge.errors]
      | _ => none)
    | 0x7300 =>
      if 0x11 ≤ sub ∧ sub ≤ 0x18 then some [(kget InputPair.reset d.edge.pairs (sub - 0x11)).state]
      else if sub = 0x19 then some [d.edge.terminals.toNat] else none
    | _ => none

/-- Identity of the package in a slot (R198); zeros for an empty slot. -/
def Dev.roPackage (d : Dev) (s sub : Nat) : Option (List Nat) :=
  let x := d.pkgSlot s
  let f := fun (g : Package → Nat) => some [match x.pkg with | some p => g p | none => 0]
  match sub with
  | 1 => some (byteNats (beBytes 32 (match x.pkg with | some p => p.digest.toNat | none => 0)))
  | 2 => f (fun p => p.contractMajor * 65536 + p.contractMinor)
  | 3 => f (fun p => p.target)
  | 4 => f (fun p => p.secVersion)
  | 5 => f (fun p => p.buildId.toNat)
  | 6 => f (fun p => p.keySlot)
  | 7 => f pkgBytes
  | 8 => some [x.cause]
  | _ => none

/-- Power, storage, security, diagnostics and packages (R198, R393, R440 to R442). -/
def Dev.roSystem (d : Dev) (idx sub : Nat) : Option (List Nat) :=
  match idx with
  | 0x8000 => (match sub with
    | 3 => some [d.power.setMv]
    | 4 => some [pat 32 d.power.coreTemp]
    | 5 => some [pat 32 d.power.iodTemp]
    | _ => none)
  | 0x9000 => (match sub with
    | 1 => some [d.recd.capacity]
    | 2 => some [d.recd.chips]
    | 3 => some [d.recd.bad]
    | 4 => some [d.recd.spares]
    | 9 => some [d.recd.ringBlocks * d.recd.blockMiB]
    | _ => none)
  | 0x9010 => (match sub with
    | 3 => some [(d.recd.sealed.map Prod.fst).headD 0]
    | 4 => some [(d.recd.sealed.map Prod.fst).getLastD 0]
    | _ => none)
  | 0xA000 => (match sub with
    | 1 => some (byteNats (beBytes 32 d.sec.fingerprint.toNat))
    | 4 => some [2 ^ 40 - d.nextLeaf]
    | 5 => some [blockLeaves * d.leafBlock]
    | 6 => some ((List.range 4).map d.keyState)
    | 8 => some (byteNats (beBytes 32 d.sec.commissioned.toNat))
    | 9 => some (byteNats (beBytes 32 d.sec.partner.toNat))
    | 0x0A => some [b2n d.sec.debug]
    | 0x0C => some [d.sec.fwSec]
    | _ => none)
  | 0xB100 => (match sub with
    | 1 => some [d.log.seq]
    | 4 => some [satU 32 d.log.overwritten]
    | _ => none)
  | 0xB202 => some [satU 32 (d.coverAge (sub - 1) / 400000)]
  | 0xB210 => (match sub with
    | 2 => some [orFF d.resting]
    | 3 => some [d.pods.lastRotation]
    | _ => none)
  | 0xC000 => (match sub with
    | 1 => some [orFF d.prog.active]
    | 2 => some [(d.pkgSlot 0).state.code]
    | 3 => some [(d.pkgSlot 1).state.code]
    | _ => none)
  | 0xC001 => d.roPackage 0 sub
  | 0xC002 => d.roPackage 1 sub
  | 0xC010 => if sub = 3 then some [d.loadedBytes] else none
  | 0xC030 => some [match d.prog.prog with | some p => p.partitions | none => 0]
  | _ => none

/-- Value of a read-only object, a set's highest subindex among them: from the block that holds it, from its counter, or
its constant. -/
def Dev.roValue (d : Dev) (idx sub : Nat) : List Nat :=
  if sub = 0 ∧ (rowOf idx 0).isNone then d.cfgList idx 0
  else
    let x := if idx < 0x2000 then d.roHost idx sub
      else if idx < 0x3000 then d.roDevice idx sub
      else if idx < 0x5000 then d.roSense idx sub
      else if idx < 0x7000 then d.roFusion idx sub
      else if idx < 0x8000 then d.roSafety idx sub
      else d.roSystem idx sub
    match x with
    | some v => v
    | none => if kget 0 d.dict.counters (okey idx sub) = 0 then d.cfgList idx sub else [d.counter idx sub]

/-! ## BLOBs of variable length -/

/-- The newest up to 32 entries from a SEQ on, in ascending order (R393). -/
def Dev.logFrom (d : Dev) (seq : Nat) : List Byte :=
  ((d.log.entries.reverse.filter (fun e => decide (seq ≤ e.seq))).take 32).flatMap (fun e => wordsBe e.words)

/-- Bytes of a BLOB of variable length (R393, R441, R442). -/
def Dev.blobBytes (d : Dev) (idx sub : Nat) : List Byte :=
  if idx = 0x9010 ∧ sub = 2 then kget [] d.recd.sealed (d.cfg 0x9010 1)
  else if idx = 0xA000 ∧ sub = 3 then d.sec.message
  else if idx = 0xB100 ∧ sub = 3 then d.palca.logRead
  else []

/-! ## The READ request -/

/-- A slice of a BLOB: up to 1,408 bytes from OFFSET (R402). -/
def slice (l : List Byte) (off : Nat) : List Byte := (l.drop off).take 1408

/-- Bytes of a value as READ carries it (R402, R403). -/
def Dev.readValue (d : Dev) (r : DRow) (idx sub off : Nat) : List Byte :=
  let v := if r.acc = .ro then d.roValue idx sub else d.cfgList idx sub
  match r.ty with
  | .blobVar => slice (d.blobBytes idx sub) off
  | .blob _ => slice (toWire r v) off
  | _ => toWire r v

/-- Bytes of an event object's part (R407). -/
def Dev.readEv (d : Dev) (idx sub : Nat) (part : Bool) : List Byte :=
  let e := d.ev idx sub
  if part then beBytes 4 e.count else beBytes 1 (b2n e.pending)

/-- A READ after the header checks (R404). -/
def Dev.readObj (d : Dev) (rt idx sub : Nat) (part : Bool) (off len : Nat) : Reply :=
  if nbit rt 0 = false then .refuse 5
  else match objRow d.code idx sub with
    | none => .refuse 1
    | some r =>
      if r.acc = .wo then .refuse 2
      else if len ≠ 0 then .refuse 4
      else if r.ty = .ev then .good (d.readEv idx sub part)
      else if idx = 0xA000 ∧ sub = 3 ∧ (d.sec.waiting.isSome ∨ d.sec.signing.any (fun x => !x.1) = true) then .refuse 6
      else .good (d.readValue r idx sub off)

def readRequest (r : Req) (idx sub : Nat) (part : Bool) (off : Nat) (d : Dev) : Dev :=
  d.serve r 1 idx sub part off [] (fun rt d =>
    (if (idx = 0x1011 ∨ idx = 0x1012) ∧ sub = 9 then d.bumpFree else d, some (d.readObj rt idx sub part off r.length)))

/-- READ (R402 to R404, R407, R431). -/
def execRead (r : Req) (idx : BitVec 16) (sub : Byte) (part : Bool) (offset : BitVec 32) (s : State) : Out :=
  s.next (readRequest r idx.toNat sub.toNat part offset.toNat s.dev)

end Sys2Proof.Machine
end

