-- ==== Sys2Proof/Machine/Requests.lean ====
section
/-! DEFINITION. The write requests, block transfers, events and subscriptions of the service port (R38, R49, R58, R79, R186,
R212, R225, R251, R364, R393, R400, R402 to R411, R438, R453). -/

namespace Sys2Proof.Machine

open Sys2Proof

/-! ## The own rules of the objects (check 8 of R404) -/

/-- Enabled slot `n` shares port and filter with another enabled one (R58). -/
def Dev.slotConflict (d : Dev) (n : Nat) : Bool :=
  match d.slotFilter n with
  | none => false
  | some f => (List.range 16).any (fun m => m != n && d.slotFilter m == some f)

/-- A source that the ordering code has (R58). -/
def sourceExists (code v : Nat) : Bool :=
  decide (v < csiOf code) || (decide (16 ≤ v) && decide (v < 16 + senOf code)) || decide (v = 0xFF)

/-- Host entries with the safety right once entry `sub` holds `v` (R400). -/
def Dev.safetyHosts (d : Dev) (sub : Nat) (v : List Nat) : Nat :=
  (((List.range 4).map (fun i => if i + 1 = sub then v else d.cfgList 0x1020 (i + 1))).filter (fun e => nbit (hostRights e) 2)).length

/-- Microseconds that a pass of a self-test kind takes at a chunk interval (R211, R212). -/
def passUs (kind interval : Nat) : Nat := interval * passChunks kind

/-- A value that lies outside the object's range for a reason beyond its own table row. -/
def Dev.outOfRange (d : Dev) (idx sub : Nat) (v : List Nat) : Bool :=
  let x := v.headD 0
  if idx = 0x1020 then decide (2 < d.safetyHosts sub v)
  else if 0x3000 ≤ idx ∧ idx ≤ 0x300F ∧ sub = 2 then !sourceExists d.code x
  else if idx = 0x3200 ∧ 0x10 ≤ sub ∧ sub ≤ 0x4F then decide (x % 256 = 0)
  else if idx = 0x4000 ∧ sub = 0x1A then decide (2 ^ senOf d.code ≤ x)
  else if idx = 0x4010 ∧ sub = 2 then decide (x = d.cfg 0x4011 2)
  else if idx = 0x4011 ∧ sub = 2 then decide (x = d.cfg 0x4010 2)
  else if idx = 0x5000 ∧ sub = 1 then decide (x < 2 * d.cfg 0x5000 2)
  else if idx = 0x5000 ∧ sub = 2 then decide (x < 200) || decide (d.cfg 0x5000 1 < 2 * x)
  else if idx = 0x5010 ∧ sub = 0x0B then decide (d.cfg 0x5010 4 ≠ 0) && decide (d.cfg 0x5010 4 ≤ x)
  else if 0x7010 ≤ idx ∧ idx ≤ 0x704F ∧ sub = 2 then decide (x = 0) && decide (d.cfg idx 1 ≠ 0)
  else if idx = 0x8000 ∧ sub = 1 then decide (x < d.cfg 0x8000 2 + 60)
  else false

/-- A value of an object with no behaviour of its own: its range, the sources of R58, the chunk intervals of R212; then it
is stored. -/
def writePlain (idx sub : Nat) (v : List Nat) (d : Dev) : Dev × Reply :=
  if d.outOfRange idx sub v then (d, .refuse 4)
  else if 0x3000 ≤ idx ∧ idx ≤ 0x300F ∧ sub ≤ 4 ∧ (d.setObj idx sub v).slotConflict (idx - 0x3000) = true then
    (d.raise 0x0201 (idx - 0x3000) 0, .cause 0x0201)
  else if idx = 0xB200 ∧ d.cfg 0xB201 sub * 1000 < passUs (sub - 1) (v.headD 0) then (d.raise 0x060A (sub - 1) 0, .cause 0x060A)
  else
    let d := (d.put idx sub v).wrote idx sub
    (if idx = 0xB100 ∧ sub = 2 then { d with palca := { d.palca with logRead := d.logFrom (v.headD 0) } } else d, .good [])

/-- The own rule and the effect of a write to any object. -/
def ownWrite (idx sub : Nat) (v : List Nat) (d : Dev) : Dev × Reply :=
  if idx = 0x2000 ∧ sub = 2 then writeState v d
  else if idx = 0x2000 ∧ sub = 6 then writeRestore v d
  else if idx = 0x3300 then writeSupply (sub - 1) v d
  else if idx = 0x5010 ∧ (sub = 2 ∨ sub = 5 ∨ sub = 6) then writeGeometry sub v d
  else if 0x5100 ≤ idx ∧ idx ≤ 0x510F ∧ (sub = 1 ∨ sub = 2 ∨ sub = 0x0E) then writeReference (idx - 0x5100) sub v d
  else if idx = 0x5203 then writeUnmask (sub - 1) d
  else if idx = 0xA000 ∧ sub = 2 then writeNonce v d
  else if idx = 0xC000 ∧ sub = 4 then writeActivate v d
  else if idx = 0xC000 ∧ sub = 5 then writeConfirm v d
  else if idx = 0xC000 ∧ sub = 7 then writeSecVersion v d
  else if idx = 0xC010 ∧ sub = 1 then writeLoadSlot v d
  else writePlain idx sub v d

/-- A WRITE request (R405); a reset request resets the device once its response is sent (R432). -/
def writeRequest (r : Req) (idx sub : Nat) (part : Bool) (payload : List Byte) (d : Dev) : Dev :=
  if idx = 0x2000 ∧ sub = 5 then resetRequest r part payload d else d.writeWith r idx sub part payload (ownWrite idx sub)

/-- WRITE (R402 to R408). -/
def execWrite (r : Req) (idx : BitVec 16) (sub : Byte) (part : Bool) (payload : List Byte) (s : State) : Out :=
  s.next (writeRequest r idx.toNat sub.toNat part payload s.dev)

def evClear (r : Req) (idx sub : Nat) (sameClock : Bool) (d : Dev) : Dev :=
  d.writeWith r idx sub false [0] (ownWrite idx sub) sameClock

/-- EV_CLEAR (R219, R407): a write of 0 with PART 0; an occurrence in the same clock keeps the bit. -/
def execEvClear (r : Req) (idx : BitVec 16) (sub : Byte) (sameClock : Bool) (s : State) : Out :=
  s.next (evClear r idx.toNat sub.toNat sameClock s.dev)

def configurationLock (r : Req) (value : Byte) (d : Dev) : Dev := d.writeWith r 0x2001 1 false [value] (ownWrite 0x2001 1)

/-- CONFIGURATION_LOCK (R408). -/
def execConfigurationLock (r : Req) (value : Byte) (s : State) : Out := s.next (configurationLock r value s.dev)

/-! ## Block transfer (R409, R410) -/

/-- The transfer of an object. -/
def Dev.transferOf (d : Dev) (idx sub : Nat) : Option Transfer := d.palca.transfers.find? (fun x => x.idx == idx && x.sub == sub)

/-- A transfer to the same object ends; a load keeps the slot that [C010.01] named (log 19). -/
def Dev.endSame (d : Dev) (idx sub : Nat) : Dev :=
  match d.transferOf idx sub with
  | some x =>
    let s := d.prog.loadSlot
    let d := d.abortTransfer x
    if idx = 0xC010 ∧ sub = 2 then { d with prog := { d.prog with loadSlot := s } } else d
  | none => d

/-- Starts a transfer once every check has passed; one of no bytes is complete at once. -/
def Dev.startTransfer (d : Dev) (r : Req) (idx sub total : Nat) : Dev :=
  let d := d.endSame idx sub
  let isPkg := idx == 0xC010 && sub == 2
  let s := d.prog.loadSlot.getD 0
  let d := if isPkg then d.startLoad s else d
  if total = 0 then (if isPkg then d.endLoad s [] none else d)
  else
    let x : Transfer := { idx := idx, sub := sub, port := r.port, total := total, got := [], tick := d.tick }
    { d with palca := { d.palca with transfers := d.palca.transfers ++ [x] } }

/-- R186: a load may start: its slot has been named and can take it. -/
def Dev.mayLoad (d : Dev) : Bool :=
  match (d.endSame 0xC010 2).prog.loadSlot with
  | some s => (d.endSame 0xC010 2).loadFits s
  | none => false

/-- BLOCK_START after the header checks (R404, R409). -/
def Dev.blockStartChecked (d : Dev) (r : Req) (rt idx sub total : Nat) : Dev × Reply :=
  if nbit rt 1 = false then (d, .refuse 5)
  else match objRow d.code idx sub with
    | none => (d, .refuse 1)
    | some row =>
      if row.ty ≠ .blobVar ∨ row.acc = .ro then (d, .refuse 2)
      else if d.locked then (d, .cause 0x0D03)
      else if r.length ≠ 8 then (d, .refuse 4)
      else if (d.transferOf idx sub).any (fun x => x.got.length == x.total) then (d, .refuse 6)
      else if idx = 0xC010 ∧ sub = 2 ∧ d.mayLoad = false then d.pkgRefused
      else (d.startTransfer r idx sub total, .good [])

def blockStart (r : Req) (idx sub total : Nat) (d : Dev) : Dev :=
  d.serve r 3 idx sub false 0 (beBytes 8 total) (fun rt d => let x := d.blockStartChecked r rt idx sub total; (x.1, some x.2))

/-- BLOCK_START (R404, R409, R410). -/
def execBlockStart (r : Req) (idx : BitVec 16) (sub : Byte) (total : Word) (s : State) : Out :=
  s.next (blockStart r idx.toNat sub.toNat total.toNat s.dev)

/-- A refused segment names the next offset (R409). -/
def refuseBlock (reason expect : Nat) : Reply := { status := 0x0D02, reason := reason, expect := expect, data := [] }

/-- The last segment: a package load completes; the response of an act or token waits for its check (R515; log 19). -/
def Dev.lastSegment (d : Dev) (r : Req) (idx sub off : Nat) (seg image : List Byte) (pkg : Option PkgContent) : Dev × Option Reply :=
  let done : Reply := { status := 0, reason := 0, expect := image.length, data := [] }
  if idx = 0xC010 then
    let d := { d with palca := { d.palca with transfers := d.palca.transfers.filter (fun x => !(x.idx == idx && x.sub == sub)) } }
    (match d.prog.loadSlot with | some s => d.endLoad s image pkg | none => d, some done)
  else
    let h : HeldReply := { req := r, content := [4, idx, sub, 0, off] ++ byteNats seg, bytes := [], ticket := actTicket sub }
    ({ d with palca := { d.palca with held := d.palca.held ++ [h] } }, none)

/-- BLOCK_DATA after the header checks (R408, R409). -/
def Dev.blockDataChecked (d : Dev) (r : Req) (rt idx sub off : Nat) (seg : List Byte) (pkg : Option PkgContent) : Dev × Option Reply :=
  if nbit rt 1 = false then (d, some (.refuse 5))
  else if d.locked then (d, some (.cause 0x0D03))
  else match d.transferOf idx sub with
    | none => (d, some (refuseBlock 7 0))
    | some x =>
      let n := x.got.length
      if seg = [] ∨ 1408 < seg.length then (d, some (refuseBlock 4 n))
      else if off ≠ n ∨ x.total < n + seg.length then (d, some (refuseBlock 7 n))
      else
        let y : Transfer := { x with got := x.got ++ seg, tick := d.tick }
        let ts := d.palca.transfers.map (fun (z : Transfer) => if z.idx = idx ∧ z.sub = sub then y else z)
        let d := { d with palca := { d.palca with transfers := ts } }
        if n + seg.length = x.total then d.lastSegment r idx sub off seg y.got pkg
        else (d, some { status := 0, reason := 0, expect := n + seg.length, data := [] })

def blockData (r : Req) (idx sub off : Nat) (seg : List Byte) (pkg : Option PkgContent) (d : Dev) : Dev :=
  d.serve r 4 idx sub false off seg (fun rt d => d.blockDataChecked r rt idx sub off seg pkg)

/-- BLOCK_DATA (R408, R409). -/
def execBlockData (r : Req) (idx : BitVec 16) (sub : Byte) (offset : BitVec 32) (segment : List Byte) (pkg : Option PkgContent)
    (s : State) : Out := s.next (blockData r idx.toNat sub.toNat offset.toNat segment pkg s.dev)

def transferAborted (idx sub : Nat) (d : Dev) : Dev :=
  match d.transferOf idx sub with
  | some x => if x.got.length < x.total ∧ x.tick + sTicks 5 ≤ d.tick then d.abortTransfer x else d
  | none => d

/-- TRANSFER_ABORTED (R410): no accepted segment for 5 s. -/
def execTransferAborted (idx : BitVec 16) (sub : Byte) (s : State) : Out := s.next (transferAborted idx.toNat sub.toNat s.dev)

/-! ## Subscriptions (R411) -/

/-- A subscription as it stands. -/
def Sub.isFor (x : Sub) (addr : BitVec 128) (dport : BitVec 16) (key : Nat) : Bool :=
  decide (x.addr = addr) && decide (x.dport = dport) && decide (x.key = key)

/-- SUBSCRIBE after the header checks. -/
def Dev.subscribeChecked (d : Dev) (r : Req) (rt idx sub : Nat) (dport : BitVec 16) : Dev × Reply :=
  if nbit rt 1 = false then (d, .refuse 5)
  else match objRow d.code idx sub with
    | none => (d, .refuse 1)
    | some row =>
      if row.ty ≠ .ev ∨ r.port = .spi then (d, .refuse 2)
      else if r.length ≠ 2 then (d, .refuse 4)
      else
        let k := okey idx sub
        let p := if dport = 0 then r.udp else dport
        if d.palca.subs.any (fun x => x.isFor r.addr p k) then
          let l := d.palca.subs.map (fun x => if x.isFor r.addr p k then { x with renewed := d.tick, port := r.port } else x)
          ({ d with palca := { d.palca with subs := l } }, .good [])
        else if d.palca.subs.length < 64 then
          let x : Sub :=
            { port := r.port, addr := r.addr, dport := p, key := k, renewed := d.tick, sentCount := (d.ev idx sub).count, sentTick := 0 }
          ({ d with palca := { d.palca with subs := d.palca.subs ++ [x] } }, .good [])
        else (d, .cause 0x0D06)

def subscribe (r : Req) (idx sub : Nat) (dport : BitVec 16) (d : Dev) : Dev :=
  d.serve r 5 idx sub false 0 (beBytes 2 dport.toNat) (fun rt d => let x := d.subscribeChecked r rt idx sub dport; (x.1, some x.2))

/-- SUBSCRIBE (R404, R411). -/
def execSubscribe (r : Req) (idx : BitVec 16) (sub : Byte) (dport : BitVec 16) (s : State) : Out :=
  s.next (subscribe r idx.toNat sub.toNat dport s.dev)

/-- The host's subscriptions to an object end; the request names no UDP port (log 19). -/
def Dev.unsubscribed (d : Dev) (r : Req) (idx sub : Nat) : Dev :=
  { d with palca := { d.palca with subs := d.palca.subs.filter (fun x => !(decide (x.addr = r.addr) && decide (x.key = okey idx sub))) } }

def unsubscribe (r : Req) (idx sub : Nat) (d : Dev) : Dev :=
  d.serve r 6 idx sub false 0 [] (fun _ d => (if r.port = .spi then d else d.unsubscribed r idx sub, some (.good [])))

/-- UNSUBSCRIBE (R411). -/
def execUnsubscribe (r : Req) (idx : BitVec 16) (sub : Byte) (s : State) : Out := s.next (unsubscribe r idx.toNat sub.toNat s.dev)

/-- An EVENT frame (R401, R402, R411); no request gives it a TAG (log 19). -/
def Dev.eventBytes (d : Dev) (key : Nat) : List Nat :=
  let e := d.ev (key / 256) (key % 256)
  byteNats (wordsBe
    [packW [(16, 0x5041), (8, 1), (8, 0x87), (16, 0), (16, 8)], packW [(16, key / 256), (8, key % 256), (40, 0)], 0,
     packW [(8, b2n e.pending), (24, 0), (32, e.count)]])

/-- A change of the count is still to be reported, and the last frame is 1 ms old. -/
def Dev.eventDue (d : Dev) (x : Sub) : Bool :=
  decide ((d.ev (x.key / 256) (x.key % 256)).count ≠ x.sentCount) && (decide (x.sentTick = 0) || decide (x.sentTick + msTicks 1 ≤ d.tick))

/-- Subscription `i`'s frame goes out. -/
def Dev.sendEvent (d : Dev) (i : Nat) (x : Sub) : Dev :=
  let c := (d.ev (x.key / 256) (x.key % 256)).count
  let l := d.palca.subs.zipIdx.map (fun y => if y.2 = i then { y.1 with sentCount := c, sentTick := d.tick } else y.1)
  let d := { d with palca := { d.palca with subs := l } }
  if d.palca.up.contains (portNo x.port) then d.sendService .eventFrame (portNo x.port) ([x.addr.toNat, x.dport.toNat] ++ d.eventBytes x.key) else d

def event (i : Nat) (d : Dev) : Dev :=
  match d.palca.subs[i]? with
  | some x => if d.up = true ∧ d.eventDue x = true then d.sendEvent i x else d
  | none => d

/-- EVENT (R411). -/
def execEvent (i : Nat) (s : State) : Out := s.next (event i s.dev)

def subscriptionLeaseExpiry (i : Nat) (d : Dev) : Dev :=
  match d.palca.subs[i]? with
  | some x =>
    if x.renewed + sTicks (d.cfg 0x1030 2) ≤ d.tick then { d with palca := { d.palca with subs := d.palca.subs.eraseIdx i } } else d
  | none => d

/-- SUBSCRIPTION_LEASE_EXPIRY (R411). -/
def execSubscriptionLeaseExpiry (i : Nat) (s : State) : Out := s.next (subscriptionLeaseExpiry i s.dev)

end Sys2Proof.Machine
end

