-- ==== Sys2Proof/Machine/Ports.lean ====
section
/-! DEFINITION. Host ports, cable tests, the SPI target port and the safety channel's commands (R396 to R398, R416 to R423,
R544). -/

namespace Sys2Proof.Machine

open Sys2Proof

/-! ## Addresses (R397, R398) -/

/-- The written value of one waiting address takes its place. -/
def Dev.forceAddress (d : Dev) (k : Nat) : Dev :=
  { d with palca := { d.palca with inForce := kset [] d.palca.inForce k (d.cfgList (k / 256) (k % 256)) } }

def addressChangeEffect (port : Nat) (d : Dev) : Dev :=
  let due := fun (w : Nat × Nat) => w.1 / 256 == 0x1011 + port && decide (w.2 ≤ d.tick)
  let l := d.palca.waiting
  (l.filter due).foldl (fun (d : Dev) w => d.forceAddress w.1) { d with palca := { d.palca with waiting := l.filter (fun w => !due w) } }

/-- ADDRESS_CHANGE_EFFECT (R397): 1 s after the response to the write. -/
def execAddressChangeEffect (port : Fin 2) (s : State) : Out := s.next (addressChangeEffect port.val s.dev)

/-- MAC address of a host port. -/
def Dev.mac (d : Dev) (port : Nat) : Nat := kget 0 d.sec.macs port

/-- IPv6 address of a host port; 0 leaves the link-local one only. -/
def Dev.ipv6 (d : Dev) (port : Nat) : Nat := beNat (natBytes (d.addrInForce port 5))

/-- The link-local address of a MAC by modified EUI-64. -/
def linkLocal (mac : Nat) : Nat :=
  0xFE80 * 2 ^ 112 + Nat.xor (mac / 2 ^ 24) 0x020000 * 2 ^ 40 + 0xFFFE * 2 ^ 24 + mac % 2 ^ 24

/-- The port is served: STANDBY or above and its link up. -/
def Dev.portServed (d : Dev) (port : Nat) : Bool := d.up && d.palca.up.contains port

/-- Neighbour discovery and ARP come as multicast and broadcast, which their filters let pass (R398). -/
def HostFrame.toAll (f : HostFrame) : HostFrame := { f with multicast := false }

def arpRequest (port : Nat) (f : HostFrame) (target sender : Nat) (d : Dev) : Dev :=
  if d.portServed port then
    d.hostReceive port false (HostFrame.toAll f) (fun d =>
      if d.ipv4 port ≠ 0 ∧ target = d.ipv4 port then d.sendService .arpReply port [target, d.mac port, sender] else d)
  else d

/-- ARP_REQUEST (R397 to R399). -/
def execArpRequest (port : Fin 2) (frame : HostFrame) (target : BitVec 32) (sender : BitVec 32) (s : State) : Out :=
  s.next (arpRequest port.val frame target.toNat sender.toNat s.dev)

def neighbourDiscovery (port : Nat) (f : HostFrame) (target sender : Nat) (d : Dev) : Dev :=
  if d.portServed port then
    d.hostReceive port false (HostFrame.toAll f) (fun d =>
      if target = linkLocal (d.mac port) ∨ d.ipv6 port ≠ 0 ∧ target = d.ipv6 port then d.sendService .ndReply port [target, d.mac port, sender]
      else d)
  else d

/-- NEIGHBOUR_DISCOVERY (R397 to R399). -/
def execNeighbourDiscovery (port : Fin 2) (frame : HostFrame) (target : BitVec 128) (sender : BitVec 128) (s : State) : Out :=
  s.next (neighbourDiscovery port.val frame target.toNat sender.toNat s.dev)

/-- Echoes answered in the second that runs on a port, and the second's start. -/
def Dev.echoWindow (d : Dev) (port : Nat) : Nat × Nat :=
  match kget [] d.palca.echoes port with
  | [n, t] => if d.tick < t + sTicks 1 then (n, t) else (0, d.tick)
  | _ => (0, d.tick)

def echoRequest (port : Nat) (f : HostFrame) (v6 : Bool) (sender : Nat) (data : List Byte) (d : Dev) : Dev :=
  if d.portServed port && (v6 || decide (d.ipv4 port ≠ 0)) then
    d.hostReceive port (!v6) f (fun d =>
      let w := d.echoWindow port
      if w.1 < 100 then
        { d with palca := { d.palca with echoes := kset [] d.palca.echoes port [w.1 + 1, w.2] } }.sendService .echoReply port
          ([b2n v6, sender] ++ byteNats data)
      else d)
  else d

/-- ECHO_REQUEST (R398, R399): at most 100 a second on a port. -/
def execEchoRequest (port : Fin 2) (frame : HostFrame) (v6 : Bool) (sender : BitVec 128) (data : List Byte) (s : State) : Out :=
  s.next (echoRequest port.val frame v6 sender.toNat data s.dev)

/-! ## Links (R396, R410, R414, R544) -/

def hostLinkUp (port : Nat) (d : Dev) : Dev :=
  if d.up then { d with palca := { d.palca with up := sins port d.palca.up } } else d

/-- HOST_LINK_UP (R396). -/
def execHostLinkUp (port : Fin 2) (s : State) : Out := s.next (hostLinkUp port.val s.dev)

/-- The transfers a port carries end (R410). -/
def Dev.abortPort (d : Dev) (port : Nat) : Dev :=
  (d.palca.transfers.filter (fun x => decide (portNo x.port = port))).foldl Dev.abortTransfer d

def hostLinkDown (port : Nat) (d : Dev) : Dev :=
  if d.portServed port then
    let d := (d.raise 0x0D05 port 0).occur (0x1011 + port) 0x0B
    let d := { d with palca := { d.palca with up := sdel port d.palca.up } }
    (d.abortPort port).dropPort port
  else d

/-- HOST_LINK_DOWN (R396, R410, R414). -/
def execHostLinkDown (port : Fin 2) (s : State) : Out := s.next (hostLinkDown port.val s.dev)

/-- Writes DETAIL of the newest entry of a cause and an instance. -/
def setDetail (cause inst detail : Nat) : List LogEntry → List LogEntry
  | [] => []
  | e :: t => if e.cause = cause ∧ e.inst = inst then { e with detail := detail } :: t else e :: setDetail cause inst detail t

/-- A host or sensor port is down (R396, R64). -/
def Dev.portDown (d : Dev) (port : Nat) : Bool :=
  if port < 2 then !d.palca.up.contains port else !d.intake.linkUp.contains (0x10 + (port - 2))

def cableTest (port code distance : Nat) (d : Dev) : Dev :=
  let detail := packN [(8, code), (24, 0), (16, distance)]
  let k : Nat × Nat := if port < 2 then (0x0D05, port) else (0x0204, port - 2)
  if d.portDown port = false then d
  else { d with log := { d.log with entries := setDetail k.1 k.2 detail d.log.entries } }

/-- CABLE_TEST (R544) of a port that is down: the result goes to DETAIL of the port's fault entry; port 0 and 1 are HOST0 and HOST1, 2 to 5 SEN0 to
SEN3. -/
def execCableTest (port : Fin 6) (code : Fin 4) (distance : BitVec 16) (s : State) : Out :=
  s.next (cableTest port.val code.val distance.toNat s.dev)

/-! ## Commands of the safety channel (R417 to R420) -/

/-- Word `i` of a big-endian PDU. -/
def beWord (l : List Byte) (i : Nat) : Word := BitVec.ofNat 64 (beNat ((l.drop (8 * i)).take 8))

/-- MAGIC, VERSION, KIND, LENGTH, CONN and CRC of a command PDU (R417 to R419). -/
def Dev.commandGood (d : Dev) (pdu : List Byte) : Bool :=
  let w := beWord pdu 0
  decide (pdu.length = 32) && decide (wfld w 63 48 = 0x5346) && decide (wfld w 47 40 = 1) && decide (wfld w 39 32 = 2) &&
    decide (wfld w 15 0 = 32) && decide (wfld (beWord pdu 1) 63 32 = d.cfg 0x7000 0x13) &&
    decide (beNat (pdu.drop 28) = (crc32c (pdu.take 28)).toNat)

/-- What a command's SEQ makes of it: 0 used, 1 a copy, 2 a failure (R419). -/
def Dev.seqCheck (d : Dev) (seq : BitVec 16) : Nat :=
  match d.hull.cmdSeq with
  | none => 0
  | some l =>
    if d.hull.watchdog then 0
    else if seq = l then 1
    else if (seq - l).toNat ≤ 8 then 0 else 2

/-- A used command (R420): the watchdog restarts, the host's demand stands, and a reset may be taken. -/
def Dev.useCommand (d : Dev) (pdu : List Byte) : Dev :=
  let w2 := beWord pdu 2
  let taken := wbit w2 6 && d.hull.sawClear
  let d := { d with hull := { d.hull with
    cmdSeq := some (BitVec.ofNat 16 (wfld (beWord pdu 0) 31 16)), cmdTick := d.tick, watchdog := false, sawClear := !wbit w2 6 } }
  let d := if kget 0 d.hull.demands srcWatchdog = 0 then d else d.demand srcWatchdog 0 0x0B09
  let d := d.demand srcHost (if wbit w2 7 then 3 else min 3 (wfld w2 15 8)) 0
  if taken then d.acceptReset else d

/-- The Hull's current cycle: the one it computes (R345), or else the last one it ended. -/
def Dev.hullCycle (d : Dev) : Nat := match d.cyc.flight with | c :: _ => c.number | [] => d.hull.lastCycle

def safetyCommand (port : ReqPort) (f : HostFrame) (addr : BitVec 128) (pdu : List Byte) (d : Dev) : Dev :=
  d.datagram port addr f (fun d => match d.rightsOf port addr with
    | none => d.raise 0x0D02 (portNo port) 0
    | some rt =>
      if d.inRun = false ∨ d.cfg 0x7000 0x13 = 0 then d
      else if nbit rt 2 = false ∨ d.commandGood pdu = false then d.raise 0x0B0A 0 0
      else match d.seqCheck (BitVec.ofNat 16 (wfld (beWord pdu 0) 31 16)) with
        | 0 => if d.hullCycle ≤ wfld (beWord pdu 2) 63 16 + 3 then d.useCommand pdu else d.raise 0x0B0A 0 0
        | 1 => d
        | _ => d.raise 0x0B0A 0 0)

/-- SAFETY_COMMAND (R362, R395, R397 to R399, R417 to R420). -/
def execSafetyCommand (port : ReqPort) (frame : HostFrame) (addr : BitVec 128) (pdu : List Byte) (s : State) : Out :=
  s.next (safetyCommand port frame addr pdu s.dev)

/-! ## The SPI target port (R421 to R423) -/

/-- Objects of [1030.03]: index times 256 plus subindex, 0 for none (log 19). -/
def Dev.mappedEvents (d : Dev) : List Nat := d.cfgList 0x1030 3

/-- The mask of mapped events whose count has changed since the last READ_EVENTS. -/
def Dev.changedMask (d : Dev) : Nat :=
  maskOf ((d.mappedEvents.zipIdx.filter (fun x => x.1 != 0 && isEv d.code (x.1 / 256) (x.1 % 256) &&
    (d.ev (x.1 / 256) (x.1 % 256)).count != kget 0 d.palca.spiCounts x.1)).map Prod.snd)

/-- The status byte (R422). -/
def Dev.spiStatusByte (d : Dev) : Nat :=
  b2n (!d.palca.spiQueue.isEmpty) + 2 * b2n (decide (d.changedMask ≠ 0)) + 4 * b2n d.palca.spiStatus.isSome +
    8 * b2n (d.palca.sending.any (fun x => x.port == 2)) + 16 * b2n d.palca.spiOverflow

/-- SPIT_IRQ_N is held low (R421). -/
def Dev.spitIrq (d : Dev) : Bool := d.up && decide (d.spiStatusByte % 16 ≠ 0)

/-- A frame as the port returns it: U16 length, the frame, CRC-32C over both. -/
def spiFrame (l : List Byte) : List Nat :=
  let b := beBytes 2 l.length ++ l
  byteNats (b ++ beBytes 4 (crc32c b).toNat)

def status (d : Dev) : Dev :=
  if d.up then { d with palca := { d.palca with spiOverflow := false } }.emit .spiReply 0 [d.spiStatusByte] else d

/-- STATUS (R422); the overflow bit is cleared once read (log 19). -/
def execStatus (s : State) : Out := s.next (status s.dev)

/-- The service header of a frame on the SPI target port (R401). -/
def spiReq (frame : List Byte) : Req :=
  let w := beWord frame 0
  { port := .spi, frame := .plain, addr := 0, udp := 0, tag := BitVec.ofNat 16 (wfld w 31 16), magic := BitVec.ofNat 16 (wfld w 63 48),
    version := BitVec.ofNat 8 (wfld w 47 40), length := wfld w 15 0, size := frame.length }

/-- A service frame runs as its OPCODE says; an unknown OPCODE is answered with 0x0D01 (R401, R402). -/
def Dev.serviceFrame (d : Dev) (frame : List Byte) (pkg : Option PkgContent) : Dev :=
  let r := spiReq frame
  let op := wfld (beWord frame 0) 39 32
  let w1 := beWord frame 1
  let idx := wfld w1 63 48
  let sub := wfld w1 47 40
  let part := wbit w1 32
  let off := wfld w1 31 0
  let body := frame.drop 24
  match op with
  | 1 => readRequest r idx sub part off d
  | 2 => writeRequest r idx sub part body d
  | 3 => blockStart r idx sub (beNat body) d
  | 4 => blockData r idx sub off body pkg d
  | 5 => subscribe r idx sub (BitVec.ofNat 16 (beNat body)) d
  | 6 => unsubscribe r idx sub d
  | _ => d.serve r op idx sub part off body (fun _ d => (d, some (.cause 0x0D01)))

/-- The frame of a transaction's bytes: U16 length, at most 1,536 bytes of frame, CRC-32C over both; none where it is cut short or its CRC
differs (R422, R423). -/
def spiPayload (bytes : List Byte) : Option (List Byte) :=
  let n := beNat (bytes.take 2)
  if bytes.length < 2 + n + 4 ∨ 1536 < n ∨ beNat ((bytes.drop (2 + n)).take 4) ≠ (crc32c (bytes.take (2 + n))).toNat then none
  else some ((bytes.drop 2).take n)

def writeFrame (bytes : List Byte) (pkg : Option PkgContent) (known : Bool) (d : Dev) : Dev :=
  if d.up = false then d
  else match (if known then spiPayload bytes else none) with
    | none => d.raise 0x0D08 0 0
    | some frame =>
      if beNat (frame.take 2) = 0x5346 then safetyCommand .spi .plain 0 frame d
      else if frame.length < 24 then d.raise 0x0D01 (portNo .spi) 0
      else d.serviceFrame frame pkg

/-- WRITE_FRAME (R422, R423): a service frame or a command PDU from the bytes that follow a command byte; a bad transaction or an unknown
command is discarded with 0x0D08. -/
def execWriteFrame (bytes : List Byte) (pkg : Option PkgContent) (known : Bool) (s : State) : Out :=
  s.next (writeFrame bytes pkg known s.dev)

def readFrame (d : Dev) : Dev :=
  if d.up then
    (match d.palca.spiStatus, d.palca.spiQueue with
      | some x, _ => { d with palca := { d.palca with spiStatus := none } }.emit .spiReply 1 (spiFrame (natBytes x))
      | none, x :: t => { d with palca := { d.palca with spiQueue := t } }.emit .spiReply 1 (spiFrame (natBytes x))
      | none, [] => d.emit .spiReply 1 (spiFrame []))
  else d

/-- READ_FRAME (R422): status PDUs first, then responses. -/
def execReadFrame (s : State) : Out := s.next (readFrame s.dev)

def readStream (n : Nat) (d : Dev) : Dev :=
  if d.up then
    (match d.palca.sending.find? (fun x => x.stream == n && x.port == 2) with
      | some r => let x := d.takeFragment r; x.1.emit .spiReply 2 (spiFrame x.2.fragment)
      | none => d.emit .spiReply 2 (spiFrame []))
  else d

/-- READ_STREAM (R413, R422). -/
def execReadStream (stream : Fin 64) (s : State) : Out := s.next (readStream stream.val s.dev)

def readEvents (d : Dev) : Dev :=
  if d.up then
    let counts := d.mappedEvents.foldl (fun m k => kset 0 m k (d.ev (k / 256) (k % 256)).count) d.palca.spiCounts
    { d with palca := { d.palca with spiCounts := counts } }.emit .spiReply 3 (byteNats (beBytes 8 d.changedMask))
  else d

/-- READ_EVENTS (R422). -/
def execReadEvents (s : State) : Out := s.next (readEvents s.dev)

end Sys2Proof.Machine
end

