-- ==== Sys2Proof/Machine/Dispatch.lean ====
section
/-! DEFINITION. One arm per command: a direct call of its meaning. -/

namespace Sys2Proof.Machine

open Sys2Proof

def exec (i : Instr) (s : State) : Host.Outcome State Fault Refusal :=
  match i with
  | .servoUpdate => Sys2Proof.Machine.execServoUpdate s
  | .holdoverExceeded => Sys2Proof.Machine.execHoldoverExceeded s
  | .slewSaturated => Sys2Proof.Machine.execSlewSaturated s
  | .revertHoldOffExpiry => Sys2Proof.Machine.execRevertHoldOffExpiry s
  | .ptpSync port dn logInt seq twoStep origin => Sys2Proof.Machine.execPtpSync port dn logInt seq twoStep origin s
  | .ptpFollowUp port dn logInt seq origin => Sys2Proof.Machine.execPtpFollowUp port dn logInt seq origin s
  | .ptpAnnounce port dn logInt identity gm clockClass => Sys2Proof.Machine.execPtpAnnounce port dn logInt identity gm clockClass s
  | .domainReceiptTimeout d => Sys2Proof.Machine.execDomainReceiptTimeout d s
  | .pdelayInterval port => Sys2Proof.Machine.execPdelayInterval port s
  | .pdelayResponse port seq t2 t3 => Sys2Proof.Machine.execPdelayResponse port seq t2 t3 s
  | .pdelayReq port seq => Sys2Proof.Machine.execPdelayReq port seq s
  | .sensorPortSync p => Sys2Proof.Machine.execSensorPortSync p s
  | .sensorPortAnnounce p => Sys2Proof.Machine.execSensorPortAnnounce p s
  | .trigEdge pin => Sys2Proof.Machine.execTrigEdge pin s
  | .trigPulseEnd pin => Sys2Proof.Machine.execTrigPulseEnd pin s
  | .refClockWindow edges => Sys2Proof.Machine.execRefClockWindow edges s
  | .cycleInstant => Sys2Proof.Machine.execCycleInstant s
  | .acceptanceWindowClose => Sys2Proof.Machine.execAcceptanceWindowClose s
  | .slotLinkUp p => Sys2Proof.Machine.execSlotLinkUp p s
  | .slotSilent n => Sys2Proof.Machine.execSlotSilent n s
  | .slotFaultHoldExpiry n => Sys2Proof.Machine.execSlotFaultHoldExpiry n s
  | .streamPortConfigRetry p answers => Sys2Proof.Machine.execStreamPortConfigRetry p answers s
  | .csiFrameStart p vc h => Sys2Proof.Machine.execCsiFrameStart p vc h s
  | .csiLongPacket p vc dt line lineStart data crcOk cut h => Sys2Proof.Machine.execCsiLongPacket p vc dt line lineStart data crcOk cut h s
  | .csiFrameEnd p vc h => Sys2Proof.Machine.execCsiFrameEnd p vc h s
  | .csiLaneFault p obs => Sys2Proof.Machine.execCsiLaneFault p obs s
  | .senFrame p f upsets => Sys2Proof.Machine.execSenFrame p f upsets s
  | .senPhyFault p => Sys2Proof.Machine.execSenPhyFault p s
  | .canFrame c id ext data upsets => Sys2Proof.Machine.execCanFrame c id ext data upsets s
  | .canBusFault c => Sys2Proof.Machine.execCanBusFault c s
  | .spiPoll k => Sys2Proof.Machine.execSpiPoll k s
  | .spiFrameReceived k data upsets => Sys2Proof.Machine.execSpiFrameReceived k data upsets s
  | .encoderLatch e steps phaseError zEdge upsets => Sys2Proof.Machine.execEncoderLatch e steps phaseError zEdge upsets s
  | .fifoReadResume n => Sys2Proof.Machine.execFifoReadResume n s
  | .fifoPointerCompare n differ => Sys2Proof.Machine.execFifoPointerCompare n differ s
  | .timesliceEntry upsets => Sys2Proof.Machine.execTimesliceEntry upsets s
  | .sampleConversionComplete n => Sys2Proof.Machine.execSampleConversionComplete n s
  | .intakeCompletionDeadline => Sys2Proof.Machine.execIntakeCompletionDeadline s
  | .entryRelease t j word => Sys2Proof.Machine.execEntryRelease t j word s
  | .op l d => Sys2Proof.Machine.execOp l d s
  | .opComplete l upsets ecc => Sys2Proof.Machine.execOpComplete l upsets ecc s
  | .pipStep l p forbidden => Sys2Proof.Machine.execPipStep l p forbidden s
  | .pipStepComplete l core flips ecc => Sys2Proof.Machine.execPipStepComplete l core flips ecc s
  | .pipOverrun l core => Sys2Proof.Machine.execPipOverrun l core s
  | .move m issuer partition descs => Sys2Proof.Machine.execMove m issuer partition descs s
  | .fenceGroupComplete m tileBad ecc => Sys2Proof.Machine.execFenceGroupComplete m tileBad ecc s
  | .advance l w => Sys2Proof.Machine.execAdvance l w s
  | .solve e job partition work trackClass => Sys2Proof.Machine.execSolve e job partition work trackClass s
  | .solverJobComplete e compareLost parity ecc => Sys2Proof.Machine.execSolverJobComplete e compareLost parity ecc s
  | .solverCut e done rounds => Sys2Proof.Machine.execSolverCut e done rounds s
  | .entryDeadline t j => Sys2Proof.Machine.execEntryDeadline t j s
  | .podWakeRequest l => Sys2Proof.Machine.execPodWakeRequest l s
  | .podWakeComplete p => Sys2Proof.Machine.execPodWakeComplete p s
  | .idleItemStart t j => Sys2Proof.Machine.execIdleItemStart t j s
  | .promotion t j => Sys2Proof.Machine.execPromotion t j s
  | .meshAgePromotion router m desc => Sys2Proof.Machine.execMeshAgePromotion router m desc s
  | .selftestChunkDue kind unit => Sys2Proof.Machine.execSelftestChunkDue kind unit s
  | .memtestRegionComplete b region fails ecc => Sys2Proof.Machine.execMemtestRegionComplete b region fails ecc s
  | .hullCheckerTest pass => Sys2Proof.Machine.execHullCheckerTest pass s
  | .solverSelftest e digestOk => Sys2Proof.Machine.execSolverSelftest e digestOk s
  | .syncFabricTest block pass => Sys2Proof.Machine.execSyncFabricTest block pass s
  | .coverageLate kind => Sys2Proof.Machine.execCoverageLate kind s
  | .diagIntervalExceeded kind => Sys2Proof.Machine.execDiagIntervalExceeded kind s
  | .syncSignal who obj inc err cause => Sys2Proof.Machine.execSyncSignal who obj inc err cause s
  | .syncWait who obj threshold timeout => Sys2Proof.Machine.execSyncWait who obj threshold timeout s
  | .syncReset who obj value => Sys2Proof.Machine.execSyncReset who obj value s
  | .syncRead obj => Sys2Proof.Machine.execSyncRead obj s
  | .barrierArrive who group err => Sys2Proof.Machine.execBarrierArrive who group err s
  | .syncTimeout who obj => Sys2Proof.Machine.execSyncTimeout who obj s
  | .correctedWriteBack word => Sys2Proof.Machine.execCorrectedWriteBack word s
  | .ddrWriteCrcAlert m desc addr retriesFail => Sys2Proof.Machine.execDdrWriteCrcAlert m desc addr retriesFail s
  | .ddrOscillatorRead corrections => Sys2Proof.Machine.execDdrOscillatorRead corrections s
  | .zqCalibration => Sys2Proof.Machine.execZqCalibration s
  | .ddrTemperatureRead temps maxOperating => Sys2Proof.Machine.execDdrTemperatureRead temps maxOperating s
  | .patrolRead addr r writePending => Sys2Proof.Machine.execPatrolRead addr r writePending s
  | .patrolLate => Sys2Proof.Machine.execPatrolLate s
  | .summaryArrival bytes faulted clocks => Sys2Proof.Machine.execSummaryArrival bytes faulted clocks s
  | .commitDeadline => Sys2Proof.Machine.execCommitDeadline s
  | .kvWriteBackComplete region faulted => Sys2Proof.Machine.execKvWriteBackComplete region faulted s
  | .speedSettleExpiry pair => Sys2Proof.Machine.execSpeedSettleExpiry pair s
  | .hullLockstep => Sys2Proof.Machine.execHullLockstep s
  | .stopDarkTest pinB readsLow => Sys2Proof.Machine.execStopDarkTest pinB readsLow s
  | .stopPinReadback pinB high => Sys2Proof.Machine.execStopPinReadback pinB high s
  | .offDelayExpiry q => Sys2Proof.Machine.execOffDelayExpiry q s
  | .safetyChannelTimeout => Sys2Proof.Machine.execSafetyChannelTimeout s
  | .statusInterval => Sys2Proof.Machine.execStatusInterval s
  | .safetyCommand port frame addr pdu => Sys2Proof.Machine.execSafetyCommand port frame addr pdu s
  | .twinHeartbeatSend => Sys2Proof.Machine.execTwinHeartbeatSend s
  | .heartbeat f => Sys2Proof.Machine.execHeartbeat f s
  | .decision f => Sys2Proof.Machine.execDecision f s
  | .values f => Sys2Proof.Machine.execValues f s
  | .identity f => Sys2Proof.Machine.execIdentity f s
  | .bulk f => Sys2Proof.Machine.execBulk f s
  | .crossCheckWindowExpiry cycle => Sys2Proof.Machine.execCrossCheckWindowExpiry cycle s
  | .twinLinkLost => Sys2Proof.Machine.execTwinLinkLost s
  | .identitySend => Sys2Proof.Machine.execIdentitySend s
  | .twinLaneTraining byPartner => Sys2Proof.Machine.execTwinLaneTraining byPartner s
  | .partnerDiscovery => Sys2Proof.Machine.execPartnerDiscovery s
  | .read r idx sub part offset => Sys2Proof.Machine.execRead r idx sub part offset s
  | .write r idx sub part payload => Sys2Proof.Machine.execWrite r idx sub part payload s
  | .blockStart r idx sub total => Sys2Proof.Machine.execBlockStart r idx sub total s
  | .blockData r idx sub offset segment pkg => Sys2Proof.Machine.execBlockData r idx sub offset segment pkg s
  | .subscribe r idx sub dport => Sys2Proof.Machine.execSubscribe r idx sub dport s
  | .unsubscribe r idx sub => Sys2Proof.Machine.execUnsubscribe r idx sub s
  | .event j => Sys2Proof.Machine.execEvent j s
  | .subscriptionLeaseExpiry j => Sys2Proof.Machine.execSubscriptionLeaseExpiry j s
  | .transferAborted idx sub => Sys2Proof.Machine.execTransferAborted idx sub s
  | .evClear r idx sub sameClock => Sys2Proof.Machine.execEvClear r idx sub sameClock s
  | .configurationLock r value => Sys2Proof.Machine.execConfigurationLock r value s
  | .addressChangeEffect port => Sys2Proof.Machine.execAddressChangeEffect port s
  | .fragmentTransmit port => Sys2Proof.Machine.execFragmentTransmit port s
  | .arpRequest port frame target sender => Sys2Proof.Machine.execArpRequest port frame target sender s
  | .neighbourDiscovery port frame target sender => Sys2Proof.Machine.execNeighbourDiscovery port frame target sender s
  | .echoRequest port frame v6 sender data => Sys2Proof.Machine.execEchoRequest port frame v6 sender data s
  | .hostLinkUp port => Sys2Proof.Machine.execHostLinkUp port s
  | .hostLinkDown port => Sys2Proof.Machine.execHostLinkDown port s
  | .cableTest port code distance => Sys2Proof.Machine.execCableTest port code distance s
  | .status => Sys2Proof.Machine.execStatus s
  | .writeFrame bytes pkg known => Sys2Proof.Machine.execWriteFrame bytes pkg known s
  | .readFrame => Sys2Proof.Machine.execReadFrame s
  | .readStream stream => Sys2Proof.Machine.execReadStream stream s
  | .readEvents => Sys2Proof.Machine.execReadEvents s
  | .stateRequestHusk r => Sys2Proof.Machine.execStateRequestHusk r s
  | .stateRequestStandby r => Sys2Proof.Machine.execStateRequestStandby r s
  | .stateRequestReady r => Sys2Proof.Machine.execStateRequestReady r s
  | .stateRequestRun r => Sys2Proof.Machine.execStateRequestRun r s
  | .stateTransitionComplete => Sys2Proof.Machine.execStateTransitionComplete s
  | .resetRequest r value => Sys2Proof.Machine.execResetRequest r value s
  | .restoreDefaults r value => Sys2Proof.Machine.execRestoreDefaults r value s
  | .loadSlot r slot => Sys2Proof.Machine.execLoadSlot r slot s
  | .activate r slot => Sys2Proof.Machine.execActivate r slot s
  | .activationComplete => Sys2Proof.Machine.execActivationComplete s
  | .confirm r value => Sys2Proof.Machine.execConfirm r value s
  | .minimumSecurityVersion r value => Sys2Proof.Machine.execMinimumSecurityVersion r value s
  | .unmaskRequest r n value => Sys2Proof.Machine.execUnmaskRequest r n value s
  | .resetCorrection r n sub payload => Sys2Proof.Machine.execResetCorrection r n sub payload s
  | .gridGeometryWrite r sub payload => Sys2Proof.Machine.execGridGeometryWrite r sub payload s
  | .calibrationPersist => Sys2Proof.Machine.execCalibrationPersist s
  | .supplyEnable r n value => Sys2Proof.Machine.execSupplyEnable r n value s
  | .attestationNonce r nonce => Sys2Proof.Machine.execAttestationNonce r nonce s
  | .attestationSignatureComplete selfVerified => Sys2Proof.Machine.execAttestationSignatureComplete selfVerified s
  | .commissioningAct signatureOk => Sys2Proof.Machine.execCommissioningAct signatureOk s
  | .partnerBindingAct signatureOk => Sys2Proof.Machine.execPartnerBindingAct signatureOk s
  | .keyRevocationAct signatureOk => Sys2Proof.Machine.execKeyRevocationAct signatureOk s
  | .debugUnlockToken signatureOk => Sys2Proof.Machine.execDebugUnlockToken signatureOk s
  | .otpProgram slot key => Sys2Proof.Machine.execOtpProgram slot key s
  | .otpClose => Sys2Proof.Machine.execOtpClose s
  | .extest intest => Sys2Proof.Machine.execExtest intest s
  | .leafReservationRetry written => Sys2Proof.Machine.execLeafReservationRetry written s
  | .traversalStateRecompute => Sys2Proof.Machine.execTraversalStateRecompute s
  | .segmentEnd => Sys2Proof.Machine.execSegmentEnd s
  | .seal => Sys2Proof.Machine.execSeal s
  | .nandOperationComplete place outcome otherCopyOk => Sys2Proof.Machine.execNandOperationComplete place outcome otherCopyOk s
  | .nandTimeout place otherCopyOk => Sys2Proof.Machine.execNandTimeout place otherCopyOk s
  | .blockRefresh block => Sys2Proof.Machine.execBlockRefresh block s
  | .readCountJournal => Sys2Proof.Machine.execReadCountJournal s
  | .retentionScan aged soft => Sys2Proof.Machine.execRetentionScan aged soft s
  | .wearLevelling => Sys2Proof.Machine.execWearLevelling s
  | .firmwareCopyRepair stage => Sys2Proof.Machine.execFirmwareCopyRepair stage s
  | .rotationDue => Sys2Proof.Machine.execRotationDue s
  | .handover => Sys2Proof.Machine.execHandover s
  | .rotationStalled => Sys2Proof.Machine.execRotationStalled s
  | .goldenFrame p digestOk detected => Sys2Proof.Machine.execGoldenFrame p digestOk detected s
  | .meshTransferCrcFail router dir allResendsFail lost => Sys2Proof.Machine.execMeshTransferCrcFail router dir allResendsFail lost s
  | .coreIoTransferCrcFail link allResendsFail lost => Sys2Proof.Machine.execCoreIoTransferCrcFail link allResendsFail lost s
  | .budgetEpoch => Sys2Proof.Machine.execBudgetEpoch s
  | .droop u => Sys2Proof.Machine.execDroop u s
  | .droopRecovery u => Sys2Proof.Machine.execDroopRecovery u s
  | .temperatureRead core iod => Sys2Proof.Machine.execTemperatureRead core iod s
  | .avsVoltageStep target => Sys2Proof.Machine.execAvsVoltageStep target s
  | .avsReadback answers => Sys2Proof.Machine.execAvsReadback answers s
  | .railOutOfRange rail => Sys2Proof.Machine.execRailOutOfRange rail s
  | .pllLossOfLock pll => Sys2Proof.Machine.execPllLossOfLock pll s
  | .huskBrownout => Sys2Proof.Machine.execHuskBrownout s
  | .crystalStable => Sys2Proof.Machine.execCrystalStable s
  | .crystalFault => Sys2Proof.Machine.execCrystalFault s
  | .powerOn => Sys2Proof.Machine.execPowerOn s
  | .vhuskRemoved => Sys2Proof.Machine.execVhuskRemoved s
  | .wakeN => Sys2Proof.Machine.execWakeN s
  | .pwrOkRising => Sys2Proof.Machine.execPwrOkRising s
  | .pwrOkFalling => Sys2Proof.Machine.execPwrOkFalling s
  | .resetNAssert => Sys2Proof.Machine.execResetNAssert s
  | .resetNRelease => Sys2Proof.Machine.execResetNRelease s
  | .startMoment => Sys2Proof.Machine.execStartMoment s
  | .startupStepComplete res => Sys2Proof.Machine.execStartupStepComplete res s
  | .watchdogReset => Sys2Proof.Machine.execWatchdogReset s
  | .supplySwitchOn => Sys2Proof.Machine.execSupplySwitchOn s
  | .edgeCommandFrameSend => Sys2Proof.Machine.execEdgeCommandFrameSend s
  | .edgeCommandFrame lanes sq sp => Sys2Proof.Machine.execEdgeCommandFrame lanes sq sp s
  | .edgeStatusFrame lanes => Sys2Proof.Machine.execEdgeStatusFrame lanes s
  | .edgeCommandTimeout => Sys2Proof.Machine.execEdgeCommandTimeout s
  | .edgeLinkLost => Sys2Proof.Machine.execEdgeLinkLost s
  | .switchOffTurn fell => Sys2Proof.Machine.execSwitchOffTurn fell s
  | .testFrame => Sys2Proof.Machine.execTestFrame s
  | .darkPulse ch fell => Sys2Proof.Machine.execDarkPulse ch fell s
  | .darkPulseSample ch high terminals => Sys2Proof.Machine.execDarkPulseSample ch high terminals s
  | .sqOffReadbackHigh ch => Sys2Proof.Machine.execSqOffReadbackHigh ch s
  | .sqShort0v ch => Sys2Proof.Machine.execSqShort0v ch s
  | .sqOpenLoad ch => Sys2Proof.Machine.execSqOpenLoad ch s
  | .crossShortWatchExpiry ch fell => Sys2Proof.Machine.execCrossShortWatchExpiry ch fell s
  | .terminalStateChange j on => Sys2Proof.Machine.execTerminalStateChange j on s
  | .siDiscrepancy p => Sys2Proof.Machine.execSiDiscrepancy p s
  | .spShort n => Sys2Proof.Machine.execSpShort n s
  | .spOpenLoad n => Sys2Proof.Machine.execSpOpenLoad n s
  | .spReverse n => Sys2Proof.Machine.execSpReverse n s
  | .edgeSupplyMeasure vedge vsens temp => Sys2Proof.Machine.execEdgeSupplyMeasure vedge vsens temp s
  | .vedgeOutOfRange => Sys2Proof.Machine.execVedgeOutOfRange s
  | .vsensRecovery => Sys2Proof.Machine.execVsensRecovery s
  | .edgeTemperatureResume => Sys2Proof.Machine.execEdgeTemperatureResume s
  | .slotFaultCauseEnd n lane => Sys2Proof.Machine.execSlotFaultCauseEnd n lane s
  | .canBusRecovered c => Sys2Proof.Machine.execCanBusRecovered c s
  | .spOpenLoadEnd n => Sys2Proof.Machine.execSpOpenLoadEnd n s
  | .spReverseEnd n => Sys2Proof.Machine.execSpReverseEnd n s
  | .sqFaultGone ch => Sys2Proof.Machine.execSqFaultGone ch s
  | .debugReset => Sys2Proof.Machine.execDebugReset s
  | .twinLanesUp => Sys2Proof.Machine.execTwinLanesUp s

end Sys2Proof.Machine
end

