-- ==== Sys2Proof/Machine/Step.lean ====
section
/-! DEFINITION. One step: the command at the front of the queue, or a tick of the time unit when none waits. -/

namespace Sys2Proof.Machine

/-- Takes the command at the front of the queue and runs it with the rest; on an empty queue time passes by one
tick (DESIGN CHOICE, log 4). -/
def step (s : State) : Out :=
  match s.pending with
  | [] => .next { s with dev := s.dev.tickOnce }
  | c :: rest => exec c { s with pending := rest }

/-- The state with the command that a word spells put at the front of the queue; the table gives its rows no bits, so
no word spells one. -/
def State.withFetchWord (s : State) (nbits w : Nat) : State :=
  match decodeTableWord nbits w with
  | some c => { s with pending := c :: s.pending }
  | none => s

end Sys2Proof.Machine
end

