-- ==== Sys2Proof/Safety.lean ====
section
/-! DEFINITION. The terms in which claims about the block are stated: the parts of the device and which of them a
command leaves unchanged, the canonical form of memory, the invariant of the device, and what a report leaves in the
fault log. -/

namespace Sys2Proof.Machine

open Sys2Proof

/-- The parts of the device: the fields of Dev. -/
inductive Part where
  | code | time | log | dict | cyc | intake | pods | movers | mem | ddr | prog | sched | sync | cover | fus | kv
  | solvers | hull | twin | palca | power | start | recd | sec | edge | out | free
deriving DecidableEq, Repr

/-- A part holds the same in two devices. -/
def Dev.Same (a b : Dev) : Part → Prop
  | .code => b.code = a.code
  | .time => b.time = a.time
  | .log => b.log = a.log
  | .dict => b.dict = a.dict
  | .cyc => b.cyc = a.cyc
  | .intake => b.intake = a.intake
  | .pods => b.pods = a.pods
  | .movers => b.movers = a.movers
  | .mem => b.mem = a.mem
  | .ddr => b.ddr = a.ddr
  | .prog => b.prog = a.prog
  | .sched => b.sched = a.sched
  | .sync => b.sync = a.sync
  | .cover => b.cover = a.cover
  | .fus => b.fus = a.fus
  | .kv => b.kv = a.kv
  | .solvers => b.solvers = a.solvers
  | .hull => b.hull = a.hull
  | .twin => b.twin = a.twin
  | .palca => b.palca = a.palca
  | .power => b.power = a.power
  | .start => b.start = a.start
  | .recd => b.recd = a.recd
  | .sec => b.sec = a.sec
  | .edge => b.edge = a.edge
  | .out => b.out = a.out
  | .free => b.free = a.free

/-- Every part of the device but the listed ones is unchanged: registers, tables, memory and outbox alike. -/
def Dev.Frame (l : List Part) (a b : Dev) : Prop := ∀ p, p ∉ l → Dev.Same a b p

/-- The parts a raised cause reaches: the fault log and its recorder copy, the event objects, and below STANDBY the
retained record of the Husk (R391, R392, R448). -/
def Part.report : List Part := [.log, .dict, .power, .recd]

/-- The parts a protective request reaches: besides the report, the Hull, and what leaves the device when the output
tier changes (R332 to R335, R356, R362, R389, R530). -/
def Part.protect : List Part := [.log, .dict, .hull, .twin, .palca, .power, .recd, .out]

/-- The parts of the device that a command may change: the registers and tables it writes, the memory it stores to, and what a
raised cause and a changed output tier bring with them (R334, R391). Every other part stays as it is. -/
def partsOf : Instr → List Part
  | .servoUpdate => [.time, .log, .dict, .power, .recd, .free]
  | .holdoverExceeded | .slewSaturated | .revertHoldOffExpiry | .domainReceiptTimeout .. | .trigPulseEnd .. =>
    [.time, .log, .dict, .power, .recd]
  | .ptpSync .. | .ptpFollowUp .. | .ptpAnnounce .. | .pdelayResponse .. | .trigEdge .. => [.time]
  | .pdelayInterval .. => [.time, .log, .dict, .power, .recd, .out]
  | .pdelayReq .. | .sensorPortAnnounce .. | .syncRead .. => [.out]
  | .sensorPortSync .. => [.time, .out]
  | .refClockWindow .. | .speedSettleExpiry .. | .hullLockstep | .stopDarkTest .. | .stopPinReadback .. |
    .safetyChannelTimeout | .decision .. | .values .. | .identity .. | .crossCheckWindowExpiry .. |
    .twinLinkLost | .partnerDiscovery | .railOutOfRange .. | .crystalFault => Part.protect
  | .cycleInstant =>
    [.time, .log, .dict, .cyc, .intake, .pods, .prog, .sched, .hull, .twin, .palca, .power, .start, .recd, .out]
  | .acceptanceWindowClose => [.log, .dict, .cyc, .intake, .mem, .sync, .fus, .kv, .hull, .power, .recd, .out]
  | .slotLinkUp .. | .slotFaultHoldExpiry .. | .streamPortConfigRetry .. | .fifoReadResume .. |
    .slotFaultCauseEnd .. | .canBusRecovered .. => [.intake]
  | .slotSilent .. | .csiFrameStart .. | .csiLongPacket .. | .csiFrameEnd .. | .csiLaneFault .. |
    .senPhyFault .. | .canBusFault .. | .timesliceEntry .. => [.log, .dict, .intake, .power, .recd]
  | .senFrame .. | .canFrame .. | .spiFrameReceived .. | .encoderLatch .. =>
    [.log, .dict, .intake, .power, .recd, .free]
  | .spiPoll .. => [.intake, .out]
  | .fifoPointerCompare .. => [.log, .dict, .intake, .cover, .hull, .twin, .palca, .power, .recd, .out]
  | .sampleConversionComplete .. => [.log, .dict, .cyc, .intake, .mem, .sync, .hull, .power, .recd, .out]
  | .intakeCompletionDeadline => [.log, .dict, .cyc, .intake, .sync, .hull, .power, .recd, .out]
  | .entryRelease .. => [.log, .dict, .pods, .mem, .ddr, .sched, .sync, .hull, .power, .recd, .out]
  | .op .. => [.log, .dict, .pods, .mem, .sched, .sync, .hull, .power, .recd, .out]
  | .opComplete .. =>
    [.log, .dict, .cyc, .pods, .movers, .mem, .ddr, .sched, .sync, .hull, .twin, .palca, .power, .recd, .out, .free]
  | .pipStep .. | .pipOverrun .. | .move .. =>
    [.log, .dict, .pods, .movers, .mem, .sched, .sync, .hull, .power, .recd, .out]
  | .pipStepComplete .. =>
    [.log, .dict, .pods, .movers, .mem, .ddr, .sched, .sync, .fus, .kv, .hull, .power, .recd, .out, .free]
  | .fenceGroupComplete .. => [.log, .dict, .pods, .movers, .mem, .sched, .sync, .hull, .power, .recd, .out, .free]
  | .advance .. | .idleItemStart .. => [.log, .dict, .pods, .sched, .sync, .hull, .power, .recd, .out]
  | .solve .. | .solverCut .. => [.log, .dict, .mem, .sched, .sync, .fus, .solvers, .hull, .power, .recd, .out]
  | .solverJobComplete .. =>
    [.log, .dict, .mem, .ddr, .sched, .sync, .fus, .solvers, .hull, .power, .recd, .out, .free]
  | .entryDeadline .. => [.log, .dict, .mem, .sched, .sync, .hull, .power, .recd, .out]
  | .podWakeRequest .. | .rotationDue => [.pods]
  | .podWakeComplete .. => [.log, .dict, .pods, .mem, .power, .recd]
  | .promotion .. => [.dict, .sched]
  | .meshAgePromotion .. => [.dict, .movers]
  | .selftestChunkDue .. => [.dict, .cover]
  | .memtestRegionComplete .. =>
    [.log, .dict, .pods, .movers, .mem, .ddr, .sched, .sync, .cover, .hull, .twin, .palca, .power, .recd, .out]
  | .hullCheckerTest .. | .diagIntervalExceeded .. => [.log, .dict, .cover, .hull, .twin, .palca, .power, .recd, .out]
  | .solverSelftest .. =>
    [.log, .dict, .mem, .sched, .sync, .cover, .fus, .solvers, .hull, .twin, .palca, .power, .recd, .out]
  | .syncFabricTest .. => [.log, .dict, .cover, .hull, .twin, .palca, .recd, .out]
  | .coverageLate .. => [.log, .dict, .cover, .power, .recd]
  | .syncSignal .. | .barrierArrive .. => [.log, .dict, .sync, .hull, .power, .recd, .out]
  | .syncWait .. | .syncReset .. | .syncTimeout .. => [.log, .dict, .sync, .power, .recd, .out]
  | .correctedWriteBack .. => [.mem]
  | .ddrWriteCrcAlert .. => [.log, .dict, .movers, .power, .recd]
  | .ddrOscillatorRead .. | .zqCalibration => [.ddr]
  | .ddrTemperatureRead .. => [.log, .dict, .ddr, .hull, .twin, .palca, .power, .recd, .out]
  | .patrolRead .. => [.log, .dict, .mem, .ddr, .kv, .power, .recd]
  | .patrolLate => [.log, .dict, .ddr, .power, .recd]
  | .summaryArrival .. => [.log, .dict, .fus, .hull, .twin, .palca, .power, .recd, .out]
  | .commitDeadline =>
    [.log, .dict, .cyc, .intake, .prog, .fus, .kv, .hull, .twin, .palca, .power, .start, .recd, .sec, .out]
  | .kvWriteBackComplete .. => [.mem, .kv]
  | .offDelayExpiry .. | .extest .. => [.hull, .out]
  | .statusInterval => [.hull, .palca, .out]
  | .safetyCommand .. | .edgeStatusFrame .. | .edgeLinkLost =>
    [.log, .dict, .hull, .twin, .palca, .power, .recd, .edge, .out]
  | .twinHeartbeatSend | .identitySend => [.twin, .out]
  | .heartbeat .. => [.log, .dict, .twin, .power, .recd, .free]
  | .bulk .. | .blockRefresh .. | .retentionScan .. | .droop .. | .avsReadback .. => Part.report
  | .twinLaneTraining .. | .twinLanesUp => [.twin]
  | .read .. => [.log, .dict, .palca, .power, .recd, .out, .free]
  | .write .. | .stateTransitionComplete | .resetRequest .. | .temperatureRead .. | .huskBrownout |
    .vhuskRemoved | .pwrOkFalling | .resetNAssert | .watchdogReset | .debugReset =>
    [.time, .log, .dict, .cyc, .intake, .pods, .movers, .mem, .ddr, .prog, .sched, .sync, .cover, .fus, .kv, .solvers, .hull, .twin, .palca, .power, .start, .recd, .sec, .edge, .out]
  | .blockStart .. | .blockData .. | .loadSlot .. | .confirm .. => [.log, .dict, .prog, .palca, .power, .recd, .out]
  | .subscribe .. | .unsubscribe .. | .fragmentTransmit .. | .readStream .. | .minimumSecurityVersion .. |
    .supplyEnable .. => [.log, .dict, .palca, .power, .recd, .out]
  | .event .. | .status | .readFrame | .readEvents => [.palca, .out]
  | .subscriptionLeaseExpiry .. | .addressChangeEffect .. | .hostLinkUp .. => [.palca]
  | .transferAborted .. | .hostLinkDown .. => [.log, .dict, .prog, .palca, .power, .recd]
  | .evClear .. | .configurationLock .. =>
    [.time, .log, .dict, .cyc, .intake, .prog, .fus, .palca, .power, .recd, .sec, .out]
  | .arpRequest .. | .neighbourDiscovery .. | .echoRequest .. => [.dict, .palca, .out]
  | .cableTest .. => [.log]
  | .writeFrame .. =>
    [.time, .log, .dict, .cyc, .intake, .pods, .movers, .mem, .ddr, .prog, .sched, .sync, .cover, .fus, .kv, .solvers, .hull, .twin, .palca, .power, .start, .recd, .sec, .edge, .out, .free]
  | .stateRequestHusk .. | .stateRequestStandby .. | .stateRequestReady .. | .stateRequestRun .. =>
    [.log, .dict, .cyc, .palca, .power, .recd, .out]
  | .restoreDefaults .. => [.time, .log, .dict, .intake, .fus, .palca, .power, .recd, .out]
  | .activate .. => [.log, .dict, .cyc, .prog, .palca, .power, .recd, .out]
  | .activationComplete =>
    [.time, .log, .dict, .intake, .pods, .mem, .prog, .sched, .sync, .fus, .kv, .palca, .power, .recd]
  | .unmaskRequest .. | .resetCorrection .. | .gridGeometryWrite .. =>
    [.log, .dict, .fus, .palca, .power, .recd, .out]
  | .calibrationPersist => [.fus]
  | .attestationNonce .. | .commissioningAct .. | .partnerBindingAct .. | .keyRevocationAct .. |
    .debugUnlockToken .. => [.log, .dict, .palca, .power, .recd, .sec, .out]
  | .attestationSignatureComplete .. | .leafReservationRetry .. | .seal => [.log, .dict, .power, .recd, .sec]
  | .otpProgram .. | .otpClose | .traversalStateRecompute => [.sec]
  | .segmentEnd | .readCountJournal | .wearLevelling => [.recd]
  | .nandOperationComplete .. => [.log, .dict, .prog, .palca, .power, .recd, .sec, .out]
  | .nandTimeout .. => [.log, .dict, .prog, .power, .recd, .sec]
  | .firmwareCopyRepair .. | .wakeN | .startMoment => [.start]
  | .handover => [.dict, .pods, .mem]
  | .rotationStalled => [.log, .dict, .pods, .power, .recd]
  | .goldenFrame .. =>
    [.log, .dict, .pods, .movers, .mem, .sched, .sync, .cover, .hull, .twin, .palca, .power, .recd, .out]
  | .meshTransferCrcFail .. =>
    [.log, .dict, .pods, .movers, .mem, .sched, .sync, .hull, .twin, .palca, .power, .recd, .out]
  | .coreIoTransferCrcFail .. => [.log, .dict, .pods, .movers, .power, .recd]
  | .budgetEpoch => [.log, .dict, .pods, .hull, .twin, .palca, .power, .recd, .out]
  | .droopRecovery .. | .crystalStable => [.power]
  | .avsVoltageStep .. => [.power, .out]
  | .pllLossOfLock .. =>
    [.log, .dict, .pods, .movers, .mem, .sched, .sync, .fus, .solvers, .hull, .twin, .palca, .power, .recd, .out]
  | .powerOn | .pwrOkRising | .resetNRelease => [.power, .start]
  | .startupStepComplete .. =>
    [.time, .log, .dict, .cyc, .intake, .pods, .mem, .ddr, .prog, .sched, .sync, .fus, .kv, .hull, .twin, .palca, .power, .start, .recd, .sec, .out]
  | .supplySwitchOn => [.start, .out]
  | .edgeCommandFrameSend => [.hull, .edge, .out]
  | .edgeCommandFrame .. | .edgeCommandTimeout | .switchOffTurn .. | .testFrame | .darkPulse .. |
    .darkPulseSample .. | .sqOffReadbackHigh .. | .sqShort0v .. | .sqOpenLoad .. | .crossShortWatchExpiry .. |
    .terminalStateChange .. | .siDiscrepancy .. | .spShort .. | .spOpenLoad .. | .spReverse .. |
    .vedgeOutOfRange | .vsensRecovery | .spOpenLoadEnd .. | .spReverseEnd .. => [.edge]
  | .edgeSupplyMeasure .. | .edgeTemperatureResume | .sqFaultGone .. =>
    [.log, .dict, .hull, .twin, .palca, .recd, .edge, .out]

/-- The canonical form of memory: keys strictly rising, no listed byte 0. -/
def Memory.wf (m : Memory) : Bool := kwf 0 m.bytes

/-- Cause, instance and cycle of the newest fault-log entry. -/
def Dev.newest (d : Dev) : Option (Nat × Nat × Nat) := d.log.entries.head?.map (fun e => (e.cause, e.inst, e.cycle))

/-- The device has entered this cause and instance in the fault log, in the running cycle, as the newest entry
(R391, R392). -/
def Dev.Reports (d : Dev) (cause inst : Nat) : Prop := d.newest = some (cause, inst, d.cyc.number.toNat)

/-- The device is stopped: output tier 3, the stop latch set, both stop pins low (R332, R335). -/
def Dev.Stopped (d : Dev) : Prop := d.hull.tier = 3 ∧ d.hull.latch = true ∧ d.hull.pinA = false ∧ d.hull.pinB = false

/-- The frame reaches the service of its port: the device is up, and no filter of a host port drops it (R395, R397 to R399). -/
def Dev.Takes (d : Dev) (port : ReqPort) (addr : BitVec 128) (f : HostFrame) : Prop :=
  d.up = true ∧ d.datagramTaken port addr = true ∧ (port = .spi ∨ d.hostFilter (portNo port) (mappedV4 addr) f = 0)

/-- What a request says, as a repeat of it says again (R406). -/
def contentOf (op idx sub : Nat) (part : Bool) (off : Nat) (payload : List Byte) : List Nat := [op, idx, sub, b2n part, off] ++ byteNats payload

/-- The device serves the request with rights `rt`: its frame is taken, the device is past its boot ROM, the header is good, the
sender is known, and the request is no repeat (R400, R401, R406, R470). -/
def Dev.Serves (d : Dev) (r : Req) (op idx sub : Nat) (part : Bool) (off : Nat) (payload : List Byte) (rt : Nat) : Prop :=
  d.Takes r.port r.addr r.frame ∧ framed r = true ∧ d.start.bootRom = false ∧
    d.repeatOf r (contentOf op idx sub part off payload) = none ∧ d.heldOf r (contentOf op idx sub part off payload) = none ∧
    d.rightsOf r.port r.addr = some rt

/-- The device takes a WRITE up to the object's own rule, check 8 of R404. -/
def Dev.TakesWrite (d : Dev) (r : Req) (idx sub : Nat) (part : Bool) (payload : List Byte) : Prop :=
  ∃ rt, d.Serves r 2 idx sub part 0 payload rt ∧ isEv d.code idx sub = false ∧ d.checkWrite r.port rt idx sub payload = none

/-- The last thing the device has sent to the request's source is this response; on the SPI target port it waits to be read, and on a
host port that still has stream fragments to send it waits behind them (R399, R401, R406, R422). -/
def Dev.Answered (d : Dev) (r : Req) (bytes : List Nat) : Prop :=
  if r.port = .spi then d.palca.spiQueue.getLast? = some bytes
  else
    let o : Output :=
      { kind := .response, unit := portNo r.port, tag := d.hostTag (portNo r.port) 1, data := r.addr.toNat :: r.udp.toNat :: bytes }
    d.out.head? = some o ∨ d.palca.waitingOut.getLast? = some o

/-- The device sends a frame of the service queue on a host port: at once, or behind the stream fragments that the port still has to
send (R399). -/
def Dev.Queues (a d : Dev) (k : OutKind) (port : Nat) (data : List Nat) : Prop :=
  let o : Output := { kind := k, unit := port, tag := a.hostTag port 1, data := data }
  if a.palca.sending.any (fun x => x.port == port) then d.out = a.out ∧ d.palca.waitingOut = a.palca.waitingOut ++ [o]
  else d.out = o :: a.out

/-- The response waits until the newest journal entry is in both copies (R405). -/
def Dev.Awaits (d : Dev) (r : Req) (content bytes : List Nat) : Prop :=
  d.palca.held.getLast? = some { req := r, content := content, bytes := bytes, ticket := d.recd.jseq }

/-- The device uses the safety frame: the link is up, its lanes agree and its SEQ is a new one (R355). -/
def Dev.Usable (d : Dev) (f : TwinFrame) : Prop :=
  d.pairEnabled = true ∧ d.twin.up = true ∧ f.lanes = .agree ∧
    (d.twin.rxSeq = none ∨ ∃ l, d.twin.rxSeq = some l ∧ 1 ≤ (f.seq - l).toNat ∧ (f.seq - l).toNat ≤ 32767)

/-- What an operation takes in as it ends: its operands with the types it names, and what disturbed it. -/
def Dev.opFeed (d : Dev) (l : Nat) (o : OpDesc) (upsets : List EngineUpset) : Feed :=
  { own := some l, desc := o, ta := { d.tdescAt (some l) o.aDesc with ty := o.aType },
    tw := { d.tdescAt (some l) o.wDesc with ty := o.wType }, upsets := upsets }

/-- What an operation that ends comes to: its rows, counts and failed checks, free where an operand carries poison. -/
def Dev.opOutcome (d : Dev) (l : Nat) (o : OpDesc) (upsets : List EngineUpset) (ecc : List EccEvent) : OpResult :=
  let f := d.opFeed l o upsets
  let x := d.readKeys (d.opKeys f) ecc
  if x.2 = 0 then x.1.runOp f else x.1.freeOp f

/-- A partition may name a sync object; work of a shared table may name any (R194 to R196, R216). -/
def Dev.mayName (d : Dev) (part : Option Nat) (o : Nat) : Bool :=
  match part with | some p => d.syncOwned p o | none => decide (o < 16384)

/-- The command completes: exec answers a next state in which only the device has changed, the waiting commands stay,
and the device is as `post` says. -/
def Completes (c : Instr) (s : State) (post : Dev → Prop) : Prop :=
  ∃ d, exec c s = .next { s with dev := d } ∧ post d

/-- The invariant of the device: memory is canonical; the ordering code is one of R2; at most two cycles are in
flight (R25); the output tier is 0 to 3, and at tier 3 the stop latch is set and both stop pins are low
(R332, R335). -/
def Dev.Inv (d : Dev) : Prop :=
  d.mem.wf = true ∧ (1 ≤ d.code ∧ d.code ≤ 4) ∧ d.cyc.flight.length ≤ 2 ∧ d.hull.tier ≤ 3 ∧
    (d.hull.tier = 3 → d.hull.latch = true ∧ d.hull.pinA = false ∧ d.hull.pinB = false)

end Sys2Proof.Machine
end

