-- ==== Sys2Proof/Certificates/Slice0/Obligations.lean ====
section
/-! DEFINITION. The statements about the model. Each says that commands complete, and with what effect, from conditions on the
state and the operands alone; `Completes c s post` is `∃ d, exec c s = .next { s with dev := d } ∧ post d`. -/

open Sys2Proof Sys2Proof.Machine

/-- R42, R44: a servo update of a powered I/O die leaves the domain that rules 1 to 4 choose selected, and the time state
that R44 gives for it. R46, R47: the first time in a holdover that the uncertainty exceeds its bound, the time is UNLOCKED
with 0x0105; the eighth servo update out of bound raises 0x0107 and starts the count anew. An idle step of a powered I/O
die is one tick of 2.5 ns, which advances the tick count by 1 and the counter by the increment (R31 to R33; that an idle
step is a tick is the model's choice, log 4). -/
def Obligations.TimeServo : Prop :=
  (∀ s : State, s.dev.up = true → Completes .servoUpdate s (fun d =>
    d.time.state = d.timeState ∧ d.time.selected = ((s.dev.evalDom .a).evalDom .b).choose)) ∧
  (∀ s : State, s.dev.up = true → s.dev.holding = true → s.dev.time.exceeded = false →
    s.dev.cfg 0x4000 0x0A < s.dev.uncertaintyNow →
    Completes .holdoverExceeded s (fun d => d.Reports 0x0105 0 ∧ d.time.state = .unlocked ∧ d.time.exceeded = true)) ∧
  (∀ s : State, s.dev.up = true → 8 ≤ s.dev.time.satRun →
    Completes .slewSaturated s (fun d => d.Reports 0x0107 0 ∧ d.time.satRun = 0)) ∧
  (∀ s : State, s.pending = [] → s.dev.up = true → ∃ d, step s = .next { s with dev := d } ∧ d.time.ticks = s.dev.time.ticks + 1 ∧
    d.time.counter = s.dev.time.counter + s.dev.time.inc.zeroExtend 96 ∧ Dev.Frame [.time] s.dev d)

/-- R42 rule 3, R41: a preferred domain that has tracked for the hold-off takes over from the other; a domain without a
valid message for three sync intervals becomes ABSENT with its cause. -/
def Obligations.DomainChanges : Prop :=
  (∀ (s : State) (x : Dom), s.dev.up = true → s.dev.time.selected = some x → x ≠ s.dev.preferred →
    s.dev.tracks s.dev.preferred = true → s.dev.revertDue = true →
    Completes .revertHoldOffExpiry s (fun d => d.time.selected = some s.dev.preferred ∧
      d.Reports 0x0103 (match s.dev.preferred with | .a => 0 | .b => 1))) ∧
  (∀ (s : State) (x : Dom), s.dev.up = true → ((s.dev.dom x).state = .acquiring ∨ (s.dev.dom x).state = .tracking) →
    (s.dev.dom x).lastRx + 3 * intervalTicks (s.dev.dom x).syncInterval ≤ s.dev.tick →
    Completes (.domainReceiptTimeout x) s (fun d => (d.dom x).state = .absent ∧ (d.dom x).port = none ∧
      d.Reports (match x with | .a => 0x0101 | .b => 0x0102) 0))

/-- R38, R41: what a domain takes from its messages. A Sync or Follow_Up on the receiving port sets the receipt time, and
a one-step Sync or the Follow_Up of the waiting Sync adds an estimate; an Announce settles the receiving port. -/
def Obligations.DomainMessages : Prop :=
  (∀ (s : State) (p : Fin 2) (dn : Nat) (li : Int) (seq : BitVec 16) (two : Bool) (origin : Int) (x : Dom),
    s.dev.domOf dn = some x → s.dev.takes x p.val li = true →
    Completes (.ptpSync p dn li seq two origin) s (fun d => (d.dom x).lastRx = s.dev.tick ∧ (d.dom x).syncInterval = li ∧
      (if two then (d.dom x).waiting = some { port := p.val, seq := seq, stamp := s.dev.counterI, tick := s.dev.tick, adj := s.dev.steered }
       else (d.dom x).waiting = none ∧ (d.dom x).ests.head? = some
        { tick := s.dev.tick, adj := s.dev.steered,
          offset := origin * 2 ^ 16 + (s.dev.delay p.val).delay + s.dev.asymmetry p.val - s.dev.counterI }))) ∧
  (∀ (s : State) (p : Fin 2) (dn : Nat) (li : Int) (seq : BitVec 16) (origin : Int) (x : Dom) (w : SyncWaiting),
    s.dev.domOf dn = some x → s.dev.takes x p.val li = true → ((s.dev.dom x).aged s.dev.tick).waiting = some w → w.port = p.val → w.seq = seq →
    Completes (.ptpFollowUp p dn li seq origin) s (fun d => (d.dom x).waiting = none ∧ (d.dom x).ests.head? = some
      { tick := w.tick, adj := w.adj, offset := origin * 2 ^ 16 + (s.dev.delay p.val).delay + s.dev.asymmetry p.val - w.stamp })) ∧
  (∀ (s : State) (p : Fin 2) (dn : Nat) (li : Int) (ident : Nat) (gm : Word) (cc : Nat) (x : Dom),
    s.dev.domOf dn = some x → s.dev.up = true → (s.dev.delay p.val).capable = true → (s.dev.dom x).state ≠ .disabled →
    Completes (.ptpAnnounce p dn li ident gm cc) s (fun d => (d.dom x).port = betterPort (d.dom x).ann0 (d.dom x).ann1 ∧
      (if p.val = 0 then (d.dom x).ann0 else (d.dom x).ann1) = some
        { identity := ident, gm := gm, clockClass := cc, interval := li, tick := s.dev.tick }))

/-- R38 to R40: a measured port sends Pdelay_Req each interval, takes half the round trip as its delay once both messages
of the response are in, and answers a partner's request in two steps. R49: a serving sensor port sends its two-step Sync,
once an interval has passed, with the time counter, and announces the clockClass of R49. -/
def Obligations.PeerAndServedTime : Prop :=
  (∀ (s : State) (p : Fin 6), s.dev.pdelayOn p.val = true →
    Completes (.pdelayInterval p) s (fun d =>
      d.out.head? = some { kind := .pdelayReq, unit := p.val, tag := 0, data := [((s.dev.delay p.val).seq + 1).toNat] })) ∧
  (∀ (s : State) (p : Fin 6) (t1 t2 t3 : Int), s.dev.pdelayOn p.val = true →
    (s.dev.delay p.val).sent = some t1 →
    Completes (.pdelayResponse p (s.dev.delay p.val).seq (some t2) (some t3)) s (fun d => (d.delay p.val).capable = true ∧
      (d.delay p.val).delay = ((s.dev.counterI - t1) - (t3 * 2 ^ 16 - t2 * 2 ^ 16)) / 2)) ∧
  (∀ (s : State) (p : Fin 6) (seq : BitVec 16), s.dev.pdelayOn p.val = true →
    Completes (.pdelayReq p seq) s (fun d => d.out =
      { kind := .pdelayRespFollowUp, unit := p.val, tag := 0, data := [seq.toNat, (s.dev.portStamp p.val).toNat] } ::
      { kind := .pdelayResp, unit := p.val, tag := 0, data := [seq.toNat, (s.dev.portStamp p.val).toNat] } :: s.dev.out)) ∧
  (∀ (s : State) (p : Fin 4), s.dev.serves p.val = true →
    kget 0 s.dev.time.senTick p.val + intervalTicks (sgn 32 (s.dev.cfg 0x4000 0x19)) ≤ s.dev.tick →
    Completes (.sensorPortSync p) s (fun d => d.out = [
      { kind := .ptpFollowUp, unit := p.val, tag := 0, data := [s.dev.cfg 0x4000 0x18, kget 0 s.dev.time.senSeq p.val, s.dev.time.counter.toNat] },
      { kind := .ptpSync, unit := p.val, tag := 0, data := [s.dev.cfg 0x4000 0x18, kget 0 s.dev.time.senSeq p.val, s.dev.cfg 0x4000 0x19] }] ++ s.dev.out)) ∧
  (∀ (s : State) (p : Fin 4), s.dev.serves p.val = true →
    Completes (.sensorPortAnnounce p) s (fun d => d.out =
      { kind := .ptpAnnounce, unit := p.val, tag := 0, data := [s.dev.cfg 0x4000 0x18, s.dev.servedClass] } :: s.dev.out))

/-- R50, R54: a scheduled edge is driven and stamped with its pin's number; the pulse ends after its width, with a stamp
of its falling edge. R388: at the end of a window of 8 crystal periods, a count of reference edges outside its bounds
forces the stop, requests tier 3 and reports 0x0109; a count inside them only begins the next window. -/
def Obligations.TriggersAndReference : Prop :=
  (∀ (s : State) (pin : Fin 16) (e : Int), s.dev.up = true →
    (s.dev.trig pin.val).edge = some e → e ≤ s.dev.nowPs →
    Completes (.trigEdge pin) s (fun d => (d.trig pin.val).high = true ∧ (d.trig pin.val).edge = none ∧
      (d.trig pin.val).stamps.head? = some (s.dev.stampOf 7 pin.val))) ∧
  (∀ (s : State) (pin : Fin 16) (st : BitVec 96) (n : Nat),
    (s.dev.trig pin.val).high = true → (s.dev.trig pin.val).stamps.head? = some st →
    s.dev.trigSlot pin.val = some n → s.dev.stampPsNow st + (s.dev.cfg (0x3000 + n) 0x24 : Int) * 1000 ≤ s.dev.nowPs →
    Completes (.trigPulseEnd pin) s (fun d => (d.trig pin.val).high = false ∧
      (d.trig pin.val).fall = some (s.dev.stampOf 7 pin.val))) ∧
  (∀ (s : State) (n : Nat), s.dev.Inv → s.dev.up = true → s.dev.power.refTick + 97656 ≤ s.dev.tick → edgesOk n = false →
    Completes (.refClockWindow n) s (fun d => d.Stopped ∧ d.hull.override = true ∧ d.Reports 0x0109 0)) ∧
  (∀ (s : State) (n : Nat), s.dev.up = true → s.dev.power.refTick + 97656 ≤ s.dev.tick → edgesOk n = true →
    Completes (.refClockWindow n) s (fun d => d = { s.dev with power := { s.dev.power with refTick := s.dev.tick } }))

/-- R59, R548: how a slot leaves WAIT_LINK, ACTIVE and FAULT. A link up takes the port's waiting slots to SYNCING, silence
an ACTIVE slot, with 0x0205; with the end of its last cause a slot in FAULT starts its wait, and 100 ms later it waits for
its link again. R59, R62, R64, R548: what takes a port's slots into FAULT, and what a successful configuration retry, no
sooner than 1 s after the last attempt, ends. -/
def Obligations.SlotStates : Prop :=
  (∀ (s : State) (p : SPort), Completes (.slotLinkUp p) s (fun d => sportCode p ∈ d.intake.linkUp ∧
    ∀ n, n ∈ s.dev.slotsAt (sportCode p) → (s.dev.slot n).state = .waitLink → (d.slot n).state = .syncing)) ∧
  (∀ (s : State) (n : Fin 16), s.dev.up = true → (s.dev.slot n.val).state = .active →
    s.dev.cfg (0x3000 + n.val) 8 < (s.dev.slot n.val).silent →
    Completes (.slotSilent n) s (fun d => (d.slot n.val).state = .syncing ∧ (d.slot n.val).silent = 0 ∧ d.Reports 0x0205 n.val)) ∧
  (∀ (s : State) (n : Fin 16) (lane : Bool), (s.dev.slot n.val).state = .fault →
    (s.dev.slot n.val).causes = [if lane then 0x0202 else 0x0204] →
    Completes (.slotFaultCauseEnd n lane) s (fun d => (d.slot n.val).causes = [] ∧ (d.slot n.val).absentSince = some s.dev.tick)) ∧
  (∀ (s : State) (n : Fin 16) (t : Nat), (s.dev.slot n.val).state = .fault → (s.dev.slot n.val).causes = [] →
    (s.dev.slot n.val).absentSince = some t → t + msTicks 100 ≤ s.dev.tick →
    Completes (.slotFaultHoldExpiry n) s (fun d => (d.slot n.val).state = .waitLink ∧ (d.slot n.val).absentSince = none)) ∧
  (∀ (s : State) (p : Fin 12) (obs : Fin 3), Completes (.csiLaneFault p obs) s (fun d => p.val ∉ d.intake.linkUp ∧
    ∀ n, n ∈ s.dev.slotsAt p.val → (s.dev.slot n).state ≠ .disabled → (d.slot n).state = .fault ∧ 0x0202 ∈ (d.slot n).causes)) ∧
  (∀ (s : State) (p : Fin 4), s.dev.up = true → Completes (.senPhyFault p) s (fun d => 0x10 + p.val ∉ d.intake.linkUp ∧ d.Reports 0x0204 p.val ∧
    ∀ n, n ∈ s.dev.slotsAt (0x10 + p.val) → (s.dev.slot n).state ≠ .disabled → (d.slot n).state = .fault ∧ 0x0204 ∈ (d.slot n).causes)) ∧
  (∀ (s : State) (p : SPort), sportCode p ∈ s.dev.intake.cfgFailed →
    kget 0 s.dev.intake.cfgTick (sportCode p) + sTicks 1 ≤ s.dev.tick →
    Completes (.streamPortConfigRetry p true) s (fun d => sportCode p ∉ d.intake.cfgFailed ∧
      ∀ n, n ∈ s.dev.slotsAt (sportCode p) → (s.dev.slot n).state = .fault → (s.dev.slot n).causes = [0x0F09] →
        (d.slot n).causes = [] ∧ (d.slot n).absentSince = some s.dev.tick))

/-- R50, R51, R61, R62, R69: a frame of the one slot that takes a virtual channel (R58 allows no two) opens with its frame
start's stamp and the stamp of the edge that exposed it, marks each good whole line, and closes at its frame end. -/
def Obligations.CameraFrame : Prop :=
  (∀ (s : State) (p : Fin 12) (vc : Fin 16) (h : HdrEcc) (n : Nat), h ≠ .bad → s.dev.csiSlots p.val vc.val = [n] →
    (s.dev.slot n).frame = none →
    Completes (.csiFrameStart p vc h) s (fun d => (d.slot n).seq = (s.dev.slot n).seq + 1 ∧ (d.slot n).frame =
      some { stamp := s.dev.stampOf 2 p.val, edge := s.dev.exposedBy n (s.dev.stampOf 2 p.val), valid := [], paid := 0 })) ∧
  (∀ (s : State) (p : Fin 12) (vc : Fin 16) (dt : Byte) (line : Nat) (ls : Option Nat) (data : List Byte) (ok cut : Bool) (h : HdrEcc)
    (n : Nat) (f : Frame), h ≠ .bad → pixelType dt.toNat = true → s.dev.csiSlots p.val vc.val = [n] → (s.dev.slot n).frame = some f →
    line < s.dev.slotRows n → (s.dev.slot n).fifo.blocked (s.dev.maxItem n) = false →
    Completes (.csiLongPacket p vc dt line ls data ok cut h) s (fun d =>
      (d.slot n).frame = some { f with valid := setLine f.valid line (ok && !cut) })) ∧
  (∀ (s : State) (p : Fin 12) (vc : Fin 16) (h : HdrEcc) (n : Nat), h ≠ .bad → s.dev.csiSlots p.val vc.val = [n] →
    Completes (.csiFrameEnd p vc h) s (fun d => (d.slot n).frame = none))

/-- R65: kinematic sources. A bus fault marks its controller and recovery clears the mark; a poll that is due stamps chip
select and sends the command word, and its frame ends the transaction; an encoder latch moves the signed 32-bit count.
R53, R65 to R67, R81: a CAN FD frame of the one channel that matches it becomes its newest sample, with the decoded fields
and the reference time, unless it lies in the future or a field reaches past its end. -/
def Obligations.KinematicSources : Prop :=
  (∀ (s : State) (c : Fin 4), Completes (.canBusFault c) s (fun d => c.val ∈ d.intake.canBad)) ∧
  (∀ (s : State) (c : Fin 4), Completes (.canBusRecovered c) s (fun d => c.val ∉ d.intake.canBad)) ∧
  (∀ (s : State) (k : Fin 32), isSpi (s.dev.cfg (0x3100 + k.val) 1) = true → s.dev.up = true → s.dev.pollDue k.val = true →
    Completes (.spiPoll k) s (fun d => (d.kin k.val).select = some (s.dev.stampOf 5 (s.dev.cfg (0x3100 + k.val) 1 - 0x10)) ∧
      (d.kin k.val).polled = some s.dev.tick ∧
      d.out.head? = some { kind := .spiCommand, unit := s.dev.cfg (0x3100 + k.val) 1 - 0x10, tag := 0, data := [k.val, s.dev.cfg (0x3100 + k.val) 7, s.dev.cfg (0x3100 + k.val) 5, s.dev.cfg (0x3100 + k.val) 6] })) ∧
  (∀ (s : State) (k : Fin 32) (data : List Byte) (ups : List Upset) (st : BitVec 96), (s.dev.kin k.val).select = some st →
    Completes (.spiFrameReceived k data ups) s (fun d => (d.kin k.val).select = none)) ∧
  (∀ (s : State) (e : Fin 8) (n : Int) (ph z : Bool) (ups : List Upset), Completes (.encoderLatch e n ph z ups) s (fun d =>
    kget 0 d.intake.encoders e.val = sgn 32 (pat 32 (kget 0 s.dev.intake.encoders e.val + n)))) ∧
  (∀ (s : State) (c : Fin 4) (id : BitVec 29) (ext : Bool) (data : List Byte) (k : Nat),
    s.dev.kinsAt c.val = [k] → s.dev.canMatch k id.toNat ext = true →
    ((List.range 8).map (fun j => s.dev.cfg (0x3100 + k) (8 + j))).any (fun x => fieldPast x data) = false →
    (List.range 8).all (fun j => fld (s.dev.cfg (0x3100 + k) (8 + j)) 31 30 != 3) = true →
    (stampNs (s.dev.stampOf 4 c.val) : Int) - s.dev.cfgI (0x3100 + k) 0x20 ≤ s.dev.now →
    stampEpoch (s.dev.stampOf 4 c.val) = s.dev.time.epoch →
    Completes (.canFrame c id ext data []) s (fun d => ∃ x rest, (d.kin k).ring = x :: rest ∧ x.stamp = s.dev.stampOf 4 c.val ∧
      x.tv = (stampNs (s.dev.stampOf 4 c.val) : Int) - s.dev.cfgI (0x3100 + k) 0x20 ∧ x.tick = s.dev.tick ∧
      x.values = (List.range 8).map (fun j => s.dev.fieldValue j (s.dev.cfg (0x3100 + k) (8 + j)) data)))

/-- R52, R63, R66, R69, R77: a sensor frame that the MAC does not take is dropped and counted; one that the slot's decoder
does not match is counted as discarded by the one slot that takes its source; the points of a packet that ends no sample
join the sample in arrival with their times, and those that its fields cannot give are counted. -/
def Obligations.SensorFrames : Prop :=
  (∀ (s : State) (p : Fin 4) (f : EthFrame) (ups : List Upset), ethOk f = false →
    Completes (.senFrame p f ups) s (fun d => d = { s.dev with intake := { s.dev.intake with dropped := s.dev.intake.dropped + 1 } })) ∧
  (∀ (s : State) (p : Fin 4) (f : EthFrame) (ups : List Upset) (n : Nat), ethOk f = true → s.dev.kinsAt (0x30 + p.val) = [] →
    s.dev.senSlots p.val f.src = [n] →
    (packetMatches (s.dev.decoder n) (ethContent f) && headerWhole (s.dev.decoder n) (ethContent f)) = false →
    Completes (.senFrame p f ups) s (fun d => (d.slot n).discarded = (s.dev.slot n).discarded + 1)) ∧
  (∀ (s : State) (p : Fin 4) (f : EthFrame) (ups : List Upset) (n : Nat), ethOk f = true → s.dev.kinsAt (0x30 + p.val) = [] →
    s.dev.senSlots p.val f.src = [n] → packetMatches (s.dev.decoder n) (ethContent f) = true →
    headerWhole (s.dev.decoder n) (ethContent f) = true → (s.dev.slot n).fifo.blocked (s.dev.maxItem n) = false →
    ((wfld ((s.dev.decoder n).getD 12 0) 63 62 = 1 ∧ (s.dev.slot n).packets + 1 < wfld ((s.dev.decoder n).getD 12 0) 31 16) ∨
      (wfld ((s.dev.decoder n).getD 12 0) 63 62 = 2 ∧ endFlag (s.dev.decoder n) (ethContent f) = false)) →
    Completes (.senFrame p f ups) s (fun d =>
      (d.slot n).points = (s.dev.slot n).points ++ s.dev.pointTimes n
        ((decodePacket (s.dev.decoder n) s.dev.free (s.dev.slot n).tag (ethContent f)).map Prod.fst) ∧
      (d.slot n).packets = (s.dev.slot n).packets + 1 ∧
      (d.slot n).discarded = (s.dev.slot n).discarded + invalidPoints (s.dev.decoder n) s.dev.free (ethContent f)))

/-- R70 to R74, R211: the ping-pong FIFO. The intake chunk compares the pointers of the next slot: a difference empties
its queue and puts it in FAULT, agreement changes no slot, and either way the pass moves on. A stalled read ends once an
item is visible or the queue was reset. The engine passes to the next entry of its table whose slot has work: it reads
every item of the bank it is on, releases a bank that the writer has left, and spends the entry's clocks, 256 for each
unit of its length, on the samples in order; an idle entry gates its clock. -/
def Obligations.FifoAndSlices : Prop :=
  (∀ (s : State) (n : Fin 16) (differ : Bool), s.dev.chunkRuns 3 0 = true → (s.dev.coverOf 3 0).pos = n.val →
    (s.dev.slot n.val).state ≠ .disabled →
    Completes (.fifoPointerCompare n differ) s (fun d =>
      (d.coverOf 3 0).pos = (n.val + 1) % 16 ∧ d.chunkRuns 3 0 = false ∧
      (if differ = true ∨ (s.dev.slot n.val).fifo.differ = true then (d.slot n.val).state = .fault ∧
        (d.slot n.val).fifo = { Fifo.reset with resetRead := (s.dev.slot n.val).fifo.stalled }
       else d.intake = s.dev.intake))) ∧
  (∀ (s : State) (n : Fin 16), ((s.dev.slot n.val).fifo.resetRead = true ∨ (s.dev.slot n.val).fifo.stalled = true ∧
      ((s.dev.slot n.val).fifo.bank (s.dev.slot n.val).fifo.rBank).isEmpty = false) →
    Completes (.fifoReadResume n) s (fun d => d.slot n.val = { s.dev.slot n.val with
      fifo := { (s.dev.slot n.val).fifo with stalled := false, resetRead := false } })) ∧
  (∀ (s : State) (ups : List Upset) (e : Nat), s.dev.nextEntry = some e → s.dev.sliceAt e / 256 = 0xFF →
    Completes (.timesliceEntry ups) s (fun d =>
      d = { s.dev with intake := { s.dev.intake with entry := e, gated := true } })) ∧
  (∀ (s : State) (ups : List Upset) (e n : Nat), s.dev.nextEntry = some e → s.dev.sliceAt e / 256 = n → n ≠ 0xFF →
    Completes (.timesliceEntry ups) s (fun d => d.intake.entry = e ∧ d.intake.gated = false ∧
      (d.slot n).fifo.bank (s.dev.slot n).fifo.rBank = [] ∧
      ((s.dev.slot n).fifo.rBank ≠ (s.dev.slot n).fifo.wBank →
        (d.slot n).fifo.rBank = !(s.dev.slot n).fifo.rBank ∧ (d.slot n).fifo.otherFree = true) ∧
      (((s.dev.slot n).fifo.bank (s.dev.slot n).fifo.rBank) = [] →
        (d.slot n).samples = (spend (256 * (s.dev.sliceAt e % 256)) (s.dev.slot n).samples).1)))

/-- R62, R75, R76, R374: a camera sample whose clocks are spent and whose items are read becomes the slot's tensor of the
cycle that takes it; at the intake deadline what still waits goes to the following cycle or beyond, and the cycle's intake
is complete. -/
def Obligations.IntakeConversion : Prop :=
  (∀ (s : State) (n : Fin 16) (x : Sample) (rest : List Sample), (s.dev.slot n.val).samples = x :: rest → x.camera = true →
    (s.dev.slot n.val).converted x = true →
    invalidLines (s.dev.slotRows n.val) x.lines ≤ s.dev.cfg (0x3000 + n.val) 7 →
    Completes (.sampleConversionComplete n) s (fun d => (d.slot n.val).samples = rest ∧
      ∃ t, (d.slot n.val).tensor = some t ∧ t.cycle = x.sink.toNat ∧ t.tv = x.tv ∧ t.told = x.told ∧ t.lines = x.lines ∧
        t.tstate = x.tstate ∧ t.lateness = x.lateness.toNat ∧ t.masked = s.dev.maskedIn x.sink.toNat n.val)) ∧
  (∀ (s : State) (x : CycleCtx), s.dev.deadlineCycle = some x → x.tick + usTicks (s.dev.cfg 0x5000 7) ≤ s.dev.tick →
    Completes .intakeCompletionDeadline s (fun d =>
      (∀ y, y ∈ d.cyc.flight → y.number = x.number → y.intakeEnded = true ∧ (x.intakeDone = false → y.intakeDone = true)) ∧
      (∀ n, n < slotsOf s.dev.code → ∀ y, y ∈ (d.slot n).samples → (x.number : Int) < y.sink)))

/-- R214, R215: SIGNAL on an object that the issuer may name. The count rises with saturation, ERR is kept or set, the
first cause stands, and no waiter whose threshold is met keeps waiting. R214 to R216: a WAIT whose threshold is met
returns at once, another one waits; RESET sets the count alone; READ returns the word and changes no object; a wait that
times out leaves the list with 0x0608. R218: an arrival at a barrier adds 1 to the group's object. -/
def Obligations.SyncWords : Prop :=
  (∀ (s : State) (who : SyncIssuer) (obj inc : Nat) (err : Bool) (cause : BitVec 16), s.dev.syncOwned who.partition obj = true →
    Completes (.syncSignal who obj inc err cause) s (fun d =>
      d.syncObj obj = syncWord
        (if err = true ∧ syncCause (s.dev.syncObj obj) = 0 then cause.toNat else syncCause (s.dev.syncObj obj))
        (syncErr (s.dev.syncObj obj) || err) (satU 32 (syncCount (s.dev.syncObj obj) + inc)) ∧
      ∀ w, w ∈ d.sync.waiters → w ∈ s.dev.sync.waiters ∧ (w.obj = obj → waitResult (d.syncObj obj) w.threshold = none))) ∧
  (∀ (s : State) (who : SyncIssuer) (obj th to_ : Nat), s.dev.syncOwned who.partition obj = true →
    Completes (.syncWait who obj th to_) s (fun d => match waitResult (s.dev.syncObj obj) th with
      | some r => d.out = { kind := .syncResult, unit := who.number, tag := 0, data := [obj, r] } :: s.dev.out ∧ d.sync = s.dev.sync
      | none => d.out = s.dev.out ∧ d.sync.waiters = s.dev.sync.waiters ++
          [{ who := who.number, obj := obj, threshold := th, due := if to_ = 0 then none else some (s.dev.tick + to_) }])) ∧
  (∀ (s : State) (who : SyncIssuer) (obj : Nat) (v : BitVec 32), s.dev.syncOwned who.partition obj = true →
    Completes (.syncReset who obj v) s (fun d => d.syncObj obj = syncWord 0 false v.toNat)) ∧
  (∀ (s : State) (obj : Nat), Completes (.syncRead obj) s (fun d => d.sync = s.dev.sync ∧
    d.out = { kind := .syncResult, unit := 0xFFFF, tag := 0, data := [obj, (s.dev.syncObj obj).toNat] } :: s.dev.out)) ∧
  (∀ (s : State) (who : SyncIssuer) (obj : Nat) (w : Waiter) (t : Nat), s.dev.up = true → w ∈ s.dev.sync.waiters → w.who = who.number →
    w.obj = obj → w.due = some t → t ≤ s.dev.tick → waitResult (s.dev.syncObj obj) w.threshold = none →
    Completes (.syncTimeout who obj) s (fun d => w ∉ d.sync.waiters ∧ d.Reports 0x0608 who.number ∧
      d.out.head? = some { kind := .syncResult, unit := who.number, tag := 0, data := [obj, waitTimeout] })) ∧
  (∀ (s : State) (who : SyncIssuer) (g : Nat) (err : Bool) (o n : Nat), s.dev.prog.prog.bind (fun p => p.barriers[g]?) = some (o, n) →
    Completes (.barrierArrive who g err) s (fun d => d.syncObj o = syncWord
      (if err = true ∧ syncCause (s.dev.syncObj o) = 0 then 0x0602 else syncCause (s.dev.syncObj o))
      (syncErr (s.dev.syncObj o) || err) (satU 32 (syncCount (s.dev.syncObj o) + 1))))

/-- R216. An issuer that names an object outside its partition changes no object but, by a refused SIGNAL, its own
SIG_OBJ, which takes a signal with error; the access raises 0x0609, and a refused WAIT returns ERROR. -/
def Obligations.SyncRange : Prop :=
  (∀ (s : State) (who : SyncIssuer) (obj inc : Nat) (err : Bool) (cause : BitVec 16), s.dev.up = true →
    s.dev.syncOwned who.partition obj = false →
    Completes (.syncSignal who obj inc err cause) s (fun d =>
      (∀ o, o ≠ who.sigObj → d.syncObj o = s.dev.syncObj o) ∧
      d.syncObj who.sigObj = syncWord
        (if syncCause (s.dev.syncObj who.sigObj) = 0 then 0x0609 else syncCause (s.dev.syncObj who.sigObj)) true
        (satU 32 (syncCount (s.dev.syncObj who.sigObj) + inc)) ∧
      (syncCount (s.dev.syncObj who.sigObj) + inc < 2 ^ 32 → d.Reports 0x0609 who.number) ∧
      ∃ e, e ∈ d.log.entries ∧ e.cause = 0x0609 ∧ e.inst = who.number ∧ e.cycle = s.dev.cyc.number.toNat)) ∧
  (∀ (s : State) (who : SyncIssuer) (obj th to_ : Nat), s.dev.up = true → s.dev.syncOwned who.partition obj = false →
    Completes (.syncWait who obj th to_) s (fun d => d.sync = s.dev.sync ∧ d.Reports 0x0609 who.number ∧
      d.out = { kind := .syncResult, unit := who.number, tag := 0, data := [obj, waitError] } :: s.dev.out)) ∧
  (∀ (s : State) (who : SyncIssuer) (obj : Nat) (v : BitVec 32), s.dev.up = true → s.dev.syncOwned who.partition obj = false →
    Completes (.syncReset who obj v) s (fun d => d.sync = s.dev.sync ∧ d.Reports 0x0609 who.number))

/-- R158, R159, R161, R211, R212, R329: a self-test chunk that runs and passes ends and moves its pass on by one position,
of the chunks that R211 gives the kind; the memory test leaves every byte. A chunk that falls due starts if it fits, and
is deferred and counted if it does not. R160, R329, R348 (with the cause that log 15 takes for a failed checker): what a
failed self-test does. A region takes a spare while its bank has one and is reported; an engine goes out of service; a
failed checker stops the device. R212: a coverage age of 75 % of the diagnostic interval raises 0x0605, one of the whole
interval 0x0606, once each. -/
def Obligations.SelfTests : Prop :=
  (∀ (s : State) (b : Bank) (region : Nat) (ecc : List EccEvent),
    s.dev.chunkRuns (bankInfo b).2.2.2.1 (bankInfo b).2.2.2.2 = true →
    s.dev.nextRegion (bankInfo b).2.2.2.1 (bankInfo b).2.2.2.2 = ((bankInfo b).1 * 4096 + region, false) →
    Completes (.memtestRegionComplete b region false ecc) s (fun d => d.mem.tested = satU 64 (s.dev.mem.tested + 1) ∧
      d.mem.bytes = s.dev.mem.bytes ∧ kget 0 d.mem.hits ((bankInfo b).1 * 4096 + region) = 0 ∧
      d.chunkRuns (bankInfo b).2.2.2.1 (bankInfo b).2.2.2.2 = false ∧
      (d.coverOf (bankInfo b).2.2.2.1 (bankInfo b).2.2.2.2).pos =
        ((s.dev.coverOf (bankInfo b).2.2.2.1 (bankInfo b).2.2.2.2).pos + 1) % passChunks (bankInfo b).2.2.2.1)) ∧
  (∀ (s : State) (b : Bank) (region : Nat) (ecc : List EccEvent),
    s.dev.chunkRuns (bankInfo b).2.2.2.1 (bankInfo b).2.2.2.2 = true →
    s.dev.nextRegion (bankInfo b).2.2.2.1 (bankInfo b).2.2.2.2 = ((bankInfo b).1 * 4096 + region, true) →
    Completes (.memtestRegionComplete b region false ecc) s (fun d => d.mem.tested = satU 64 (s.dev.mem.tested + 1) ∧
      kget 0 d.mem.hits ((bankInfo b).1 * 4096 + region) = 0 ∧
      (d.coverOf (bankInfo b).2.2.2.1 (bankInfo b).2.2.2.2).pos = (s.dev.coverOf (bankInfo b).2.2.2.1 (bankInfo b).2.2.2.2).pos)) ∧
  (∀ s : State, s.dev.chunkRuns 4 0 = true →
    Completes (.hullCheckerTest true) s (fun d => (d.coverOf 4 0).pos = ((s.dev.coverOf 4 0).pos + 1) % 40)) ∧
  (∀ (s : State) (e : Fin 4), s.dev.up = true → (s.dev.solver e.val).out = false → s.dev.chunkRuns 5 e.val = true →
    Completes (.solverSelftest e true) s (fun d => (d.coverOf 5 e.val).pos = ((s.dev.coverOf 5 e.val).pos + 1) % 64)) ∧
  (∀ (s : State) (k : Fin 64), s.dev.chunkRuns 6 0 = true → (s.dev.coverOf 6 0).pos = k.val →
    Completes (.syncFabricTest k true) s (fun d => (d.coverOf 6 0).pos = (k.val + 1) % 64)) ∧
  (∀ (s : State) (kind : Fin 8) (unit : Fin 25), s.dev.up = true → (s.dev.testUnits kind.val).contains unit.val = true →
    s.dev.chunkRuns kind.val unit.val = false →
    (s.dev.coverOf kind.val unit.val).due + usTicks (s.dev.cfg 0xB200 (kind.val + 1)) ≤ s.dev.tick →
    Completes (.selftestChunkDue kind unit) s (fun d => (d.coverOf kind.val unit.val).due = s.dev.tick ∧
      (d.coverOf kind.val unit.val).admitted = s.dev.chunkFits kind.val unit.val ∧
      (d.coverOf kind.val unit.val).deferred = !s.dev.chunkFits kind.val unit.val ∧
      (d.ev 0xB203 (kind.val + 1)).count = (if s.dev.chunkFits kind.val unit.val then (s.dev.ev 0xB203 (kind.val + 1)).count
        else ((s.dev.ev 0xB203 (kind.val + 1)).count + 1) % 2 ^ 32))) ∧
  (∀ (s : State) (b : Bank) (region : Nat) (ecc : List EccEvent) (early : Bool), s.dev.up = true →
    s.dev.chunkRuns (bankInfo b).2.2.2.1 (bankInfo b).2.2.2.2 = true →
    s.dev.nextRegion (bankInfo b).2.2.2.1 (bankInfo b).2.2.2.2 = ((bankInfo b).1 * 4096 + region, early) →
    kget 0 s.dev.mem.spares (bankInfo b).1 < (bankInfo b).2.2.1 →
    Completes (.memtestRegionComplete b region true ecc) s (fun d => d.Reports 0x0503 (bankInst b) ∧
      kget 0 d.mem.spares (bankInfo b).1 = kget 0 s.dev.mem.spares (bankInfo b).1 + 1)) ∧
  (∀ (s : State) (e : Fin 4), s.dev.up = true → (s.dev.solver e.val).out = false → s.dev.chunkRuns 5 e.val = true →
    Completes (.solverSelftest e false) s (fun d => (d.solver e.val).out = true)) ∧
  (∀ s : State, s.dev.Inv → s.dev.up = true → s.dev.chunkRuns 4 0 = true →
    Completes (.hullCheckerTest false) s (fun d => d.Stopped ∧ d.hull.fault = true ∧ d.Reports 0x0B01 0)) ∧
  (∀ (s : State) (kind : Fin 8), s.dev.up = true → s.dev.diagTicks kind.val * 3 ≤ s.dev.coverAge kind.val * 4 →
    (s.dev.coverOf kind.val 31).late = false →
    Completes (.coverageLate kind) s (fun d => d.Reports 0x0605 kind.val ∧ (d.coverOf kind.val 31).late = true)) ∧
  (∀ (s : State) (kind : Fin 8), s.dev.up = true → s.dev.diagTicks kind.val ≤ s.dev.coverAge kind.val →
    (s.dev.coverOf kind.val 31).exceeded = false →
    Completes (.diagIntervalExceeded kind) s (fun d => d.Reports 0x0606 kind.val ∧ (d.coverOf kind.val 31).exceeded = true))

/-- R20, R380, R382, R384: the rotation of the resting Pod. It falls due, is handed over with the outgoing Pod's logical
number and windows, and is reported once after it has stalled for two periods; a golden frame with its digest counts, one
without takes the Pod OUT. R143, R387: resends of a link are counted, a link whose resends all fail is removed, and the
descriptor whose transfer is lost will end FAULTED. -/
def Obligations.PodsAndLinks : Prop :=
  (∀ s : State, s.dev.up = true → s.dev.resting.isSome = true → s.dev.pods.due = none →
    s.dev.pods.lastDue + msTicks (s.dev.cfg 0xB210 1) ≤ s.dev.tick →
    Completes .rotationDue s (fun d => d.pods.due = some s.dev.tick)) ∧
  (∀ (s : State) (t r o l : Nat), s.dev.pods.due = some t → s.dev.resting = some r → s.dev.outgoing = some o → r ≠ o →
    (s.dev.pod o).logical = some l → s.dev.handoverFits l = true → (s.dev.pod o).engine = none →
    (s.dev.pod o).cores.all (fun c => c.2.isNone) = true → s.dev.mover o = Mover.reset → s.dev.pods.replace = none →
    Completes .handover s (fun d => d.pods.due = none ∧ (d.pod r).state = .active ∧ (d.pod r).logical = some l ∧
      (d.pod r).windows = (s.dev.pod o).windows ∧ (d.pod o).state = .resting ∧ (d.pod o).logical = none)) ∧
  (∀ (s : State) (t : Nat), s.dev.up = true → s.dev.pods.due = some t → t + 2 * msTicks (s.dev.cfg 0xB210 1) ≤ s.dev.tick →
    s.dev.pods.stalled = false →
    Completes .rotationStalled s (fun d => d.Reports 0x030E 0 ∧ d.pods.stalled = true)) ∧
  (∀ (s : State) (p : Fin 25), s.dev.goldenRuns p.val = true → (s.dev.pod p.val).golden + 1 ≠ 2048 →
    Completes (.goldenFrame p true true) s (fun d => (d.pod p.val).golden = (s.dev.pod p.val).golden + 1)) ∧
  (∀ (s : State) (p : Fin 25) (ok seen : Bool), p.val < podsOf s.dev.code → s.dev.goldenRuns p.val = true → (ok && seen) = false →
    Completes (.goldenFrame p ok seen) s (fun d => (d.pod p.val).state = .out)) ∧
  (∀ (s : State) (r : Fin 25) (dir : Fin 4) (lost : Option (Fin 27 × Nat)), (4 * r.val + dir.val) ∉ s.dev.pods.meshDown →
    Completes (.meshTransferCrcFail r dir true lost) s (fun d => (4 * r.val + dir.val) ∈ d.pods.meshDown)) ∧
  (∀ (s : State) (k : Fin 8) (lost : Option (Fin 27 × Nat)), s.dev.up = true → k.val ∉ s.dev.pods.coreDown →
    Completes (.coreIoTransferCrcFail k true lost) s (fun d => k.val ∈ d.pods.coreDown ∧ d.Reports 0x040A k.val ∧
      d.counter 0xB000 8 = satU 64 (s.dev.counter 0xB000 8 + 4) ∧
      ∀ m i a, lost = some (m, i) → (s.dev.mover m.val).groups.head?.bind (fun g => g.descs[i]?) = some a → a.lost = 0 →
        (d.mover m.val).groups.head?.bind (fun g => g.descs[i]?) = some { a with lost := 0x040A })) ∧
  (∀ (s : State) (k : Fin 8) (lost : Option (Fin 27 × Nat)), k.val ∉ s.dev.pods.coreDown →
    Completes (.coreIoTransferCrcFail k false lost) s (fun d => d.counter 0xB000 8 = satU 64 (s.dev.counter 0xB000 8 + 1)))

/-- R148, R165 to R169: upkeep of the memories. A corrected word is written back; a write of a mover's oldest group whose
three retries fail is reported, leaves memory as it was and marks the burst with its descriptor; the oscillators'
corrections are taken each 16 ms; the patrol reads bursts in address order and counts what it corrects; a late pass is
reported once; the impedance calibration changes nothing but its own time. R168: the DDR5 temperatures are read each 16
ms; one above the maximum operating value makes the memory hot, one of 85 °C or more doubles its refresh rate. -/
def Obligations.MemoryUpkeep : Prop :=
  (∀ (s : State) (w : Nat), Completes (.correctedWriteBack w) s (fun d => w ∉ d.mem.backs ∧ d.mem.bytes = s.dev.mem.bytes)) ∧
  (∀ (s : State) (m : Fin 27) (i addr n : Nat) (g : FenceGroup) (t : List FenceGroup) (a : Accepted), s.dev.up = true → 3 ≤ n →
    (s.dev.mover m.val).groups = g :: t → g.descs[i]? = some a → a.cause = 0 →
    (s.dev.rowKeys (s.dev.moverOwn m.val) ((s.dev.tdescAt (s.dev.moverOwn m.val) (mdesc a.words).dst).boxRows (mdesc a.words).dd
      ((mdesc a.words).dstExt.map Int.ofNat))).any (fun r =>
        decide (r.1 < 3 * 2 ^ 44 + addr / 64 * 64 + 64) && decide (3 * 2 ^ 44 + addr / 64 * 64 < r.2)) = true →
    Completes (.ddrWriteCrcAlert m i addr n) s (fun d => d.Reports 0x0507 (27 + ddrChannel s.dev.code addr) ∧ d.mem = s.dev.mem ∧
      (d.mover m.val).groups.head?.bind (fun g => g.descs[i]?) =
        some { a with bursts := sins (3 * 2 ^ 44 + addr / 64 * 64) a.bursts })) ∧
  (∀ (s : State) (l : List Int), s.dev.ddrLive = true → s.dev.ddr.oscTick + msTicks 16 ≤ s.dev.tick →
    Completes (.ddrOscillatorRead l) s (fun d => d.ddr.lanes = l ∧ d.ddr.oscTick = s.dev.tick)) ∧
  (∀ s : State, s.dev.ddrLive = true → s.dev.ddr.zqTick + msTicks 128 ≤ s.dev.tick →
    Completes .zqCalibration s (fun d => d = { s.dev with ddr := { s.dev.ddr with zqTick := s.dev.tick } })) ∧
  (∀ (s : State) (addr : Nat) (wp : Bool), s.dev.ddrLive = true → addr = s.dev.ddr.patrol → addr + 64 < s.dev.ddrSize →
    Completes (.patrolRead addr .good wp) s (fun d => d = { s.dev with ddr := { s.dev.ddr with patrol := addr + 64 } })) ∧
  (∀ (s : State) (addr : Nat) (wp : Bool), s.dev.ddrLive = true → addr = s.dev.ddr.patrol →
    Completes (.patrolRead addr .corrected wp) s (fun d =>
      kget 0 d.mem.corrected (memUnit s.dev.code ((3 * 2 ^ 44 + addr) / 8)) =
        satU 64 (kget 0 s.dev.mem.corrected (memUnit s.dev.code ((3 * 2 ^ 44 + addr) / 8)) + 1))) ∧
  (∀ s : State, s.dev.up = true → s.dev.ddrLive = true → s.dev.ddr.late = false →
    s.dev.ddr.passStart + sTicks (s.dev.cfg 0x2030 5) ≤ s.dev.tick →
    Completes .patrolLate s (fun d => d.Reports 0x050B 0 ∧ d.ddr.late = true)) ∧
  (∀ (s : State) (l : List Int) (m : Int), s.dev.power.enDdr = true → s.dev.ddr.tempTick + msTicks 16 ≤ s.dev.tick →
    Completes (.ddrTemperatureRead l m) s (fun d => d.ddr.doubled = l.any (fun t => decide (85 ≤ t)) ∧ d.ddr.tempTick = s.dev.tick ∧
      (l.any (fun t => decide (m < t)) = true → d.ddr.hot = true ∧ (s.dev.up = true → s.dev.ddr.hot = false → d.Reports 0x050A 0))))

/-- R147, R201 to R210: the schedule. The sequencer runs a SIGNAL entry at its release and hands on the error its wait was
met with; a running entry past its deadline is reported, once; a Pod wakes ahead of its next release, and a gate of the
same epoch loses; an idle item that fits leaves the list and is admitted; a starved one is promoted; traffic of class M or
B that has waited too long at a router goes one hop. -/
def Obligations.Schedule : Prop :=
  (∀ (s : State) (t : TableId) (i o n : Nat) (word : BurstResult), word ≠ .uncorrectable →
    (s.dev.passEntries (tableNo t)).contains i = true → entryKind (s.dev.entry (tableNo t) i) = 5 →
    s.dev.entryWaits (tableNo t) i = true →
    s.dev.cyc.flight.any (fun c => decide ((s.dev.pass (tableNo t)).cycle < c.number) &&
      decide (c.tick + entryRelease (s.dev.entry (tableNo t) i) ≤ s.dev.tick)) = false →
    (s.dev.pass (tableNo t)).tick + entryRelease (s.dev.entry (tableNo t) i) ≤ s.dev.tick →
    s.dev.waitMet (s.dev.entry (tableNo t) i) = true → entrySignal (s.dev.entry (tableNo t) i) = some (o, n) →
    s.dev.mayName (s.dev.tablePart (tableNo t)) o = true →
    Completes (.entryRelease t i word) s (fun d =>
      let k := s.dev.ticket (tableNo t) i
      d.syncObj o = syncWord (if k.bad = true ∧ syncCause (s.dev.syncObj o) = 0 then k.cause else syncCause (s.dev.syncObj o))
        (syncErr (s.dev.syncObj o) || k.bad) (satU 32 (syncCount (s.dev.syncObj o) + n)))) ∧
  (∀ (s : State) (t : TableId) (i : Nat), s.dev.up = true → entryTimed (s.dev.entry (tableNo t) i) = true →
    (s.dev.passEntries (tableNo t)).contains i = true → entryDeadline (s.dev.entry (tableNo t) i) ≠ 0 →
    (s.dev.pass (tableNo t)).ended = false →
    (s.dev.pass (tableNo t)).tick + entryDeadline (s.dev.entry (tableNo t) i) ≤ s.dev.tick →
    (s.dev.pass (tableNo t)).skipped.contains i = false → (s.dev.pass (tableNo t)).done.contains i = false →
    (s.dev.pass (tableNo t)).started.contains i = true →
    Completes (.entryDeadline t i) s (fun d => if (s.dev.pass (tableNo t)).late.contains i = true then d = s.dev
      else d.Reports 0x0601 (tableNo t) ∧ i ∈ (d.pass (tableNo t)).late)) ∧
  (∀ (s : State) (l : Fin 24) (p g : Nat), s.dev.physOf l.val = some p → s.dev.gapOf l.val = some g →
    (s.dev.pod p).state = .gated → (s.dev.pod p).waking = false →
    g ≤ max (nsTicks (s.dev.cfg 0x5000 4)) ((s.dev.pod p).wakeTicks + usTicks 2) →
    Completes (.podWakeRequest l) s (fun d => (d.pod p).pll = true ∧
      (if (s.dev.pod p).gatedNow = true then (d.pod p).state = .active else (d.pod p).waking = true))) ∧
  (∀ (s : State) (p : Fin 25), (s.dev.pod p.val).waking = true → ((s.dev.pod p.val).state = .gated ∨ (s.dev.pod p.val).state = .collapsed) →
    Completes (.podWakeComplete p) s (fun d => (d.pod p.val).state = .active ∧ (d.pod p.val).waking = false)) ∧
  (∀ (s : State) (t : TableId) (i : Nat) (x : IdleItem), s.dev.idleAt (tableNo t) i = some x →
    s.dev.executorFree (tableNo t) (entryKind (s.dev.entry (tableNo t) i)) = true →
    s.dev.itemFits (tableNo t) (entryKind (s.dev.entry (tableNo t) i))
      (s.dev.tick + wcetTicks (entryWcet (s.dev.entry (tableNo t) i))) x.promoted = true →
    s.dev.nextIdle (tableNo t) (entryKind (s.dev.entry (tableNo t) i)) = some x →
    s.dev.waitMet (s.dev.entry (tableNo t) i) = true → unitKind (entryKind (s.dev.entry (tableNo t) i)) ≠ 0 →
    Completes (.idleItemStart t i) s (fun d => d.idleAt (tableNo t) i = none ∧
      d.sched.claims = s.dev.sched.claims ++ [(tableNo t, i, x.promoted)])) ∧
  (∀ (s : State) (t : TableId) (i : Nat) (x : IdleItem), s.dev.idleAt (tableNo t) i = some x → x.promoted = false →
    x.ready + msTicks (if entryClass (s.dev.entry (tableNo t) i) = 2 then s.dev.cfg 0x2040 1 else s.dev.cfg 0x2040 2) < s.dev.tick →
    Completes (.promotion t i) s (fun d => d.idleAt (tableNo t) i = some { x with promoted := true } ∧
      (d.ev 0x2040 4).count = ((s.dev.ev 0x2040 4).count + 1) % 2 ^ 32)) ∧
  (∀ (s : State) (r : Fin 25) (m : Fin 27) (i : Nat) (g : FenceGroup) (rest : List FenceGroup) (a : Accepted),
    (s.dev.mover m.val).groups = g :: rest → g.descs[i]? = some a → a.cause = 0 → a.at_ = r.val → 2 ≤ s.dev.groupClass g →
    2 * s.dev.cfg 0x2040 3 < 7 * (s.dev.tick - a.since) → s.dev.safetyWaits r.val a.ahead.head? = false →
    Completes (.meshAgePromotion r m i) s (fun d =>
      (d.mover m.val).groups.head?.bind (fun g => g.descs[i]?) =
        some { a with at_ := a.ahead.headD a.at_, ahead := a.ahead.drop 1, since := s.dev.tick } ∧
      (d.ev 0x2040 4).count = ((s.dev.ev 0x2040 4).count + 1) % 2 ^ 32))

/-- R90, R93, R110, R113, R114, R178, R201: an operation or a Pip step that a ready entry names and that is accepted
occupies its engine or cores; its end, by completion or by overrun, frees them. An operation that no check finds wrong
signals its entry's sync object. -/
def Obligations.PodWork : Prop :=
  (∀ (s : State) (l : Fin 24) (o : OpDesc) (p : Nat), s.dev.physOf l.val = some p → (s.dev.pod p).state = .active →
    (s.dev.pod p).engine = none → s.dev.starts l.val 1 o.work = some o.index → s.dev.opRefusal (some l.val) o = 0 →
    Completes (.op l o) s (fun d => (d.pod p).engine = some { desc := o, ticket := s.dev.ticket l.val o.index })) ∧
  (∀ (s : State) (l : Fin 24) (ups : List EngineUpset) (ecc : List EccEvent) (p : Nat) (r : RunOp), s.dev.physOf l.val = some p →
    (s.dev.pod p).engine = some r → Completes (.opComplete l ups ecc) s (fun d => (d.pod p).engine = none)) ∧
  (∀ (s : State) (l : Fin 24) (ups : List EngineUpset) (ecc : List EccEvent) (p o n : Nat) (r : RunOp), s.dev.physOf l.val = some p →
    (s.dev.pod p).engine = some r → (s.dev.opOutcome l.val r.desc ups ecc).causes = [] →
    entrySignal (s.dev.entry r.ticket.table r.ticket.entry) = some (o, n) → s.dev.mayName (s.dev.tablePart l.val) o = true →
    Completes (.opComplete l ups ecc) s (fun d => ∃ c f, d.syncObj o = syncWord c f (satU 32 (syncCount (s.dev.syncObj o) + n)))) ∧
  (∀ (s : State) (l : Fin 24) (x : PipStep) (p i : Nat), s.dev.physOf l.val = some p → s.dev.starts l.val 2 x.number = some i →
    (s.dev.pod p).state = .active →
    let y := { x with checked := x.checked || decide (entryClass (s.dev.entry l.val i) ≤ 1) || decide (x.work ≠ .program) }
    (pipCores y).all (fun c => (s.dev.stepOn p c).isNone) = true → s.dev.pipRefusal l.val y false = 0 →
    Completes (.pipStep l x false) s (fun d => ∀ c, c ∈ pipCores y →
      d.stepOn p c = some { step := y, ticket := s.dev.ticket l.val i, tick := s.dev.tick })) ∧
  (∀ (s : State) (l : Fin 24) (core : Fin 4) (flips : List Byte) (ecc : List EccEvent) (p : Nat) (r : RunStep),
    s.dev.physOf l.val = some p → s.dev.stepOn p core.val = some r →
    Completes (.pipStepComplete l core flips ecc) s (fun d => ∀ c, c ∈ pipCores r.step → d.stepOn p c = none)) ∧
  (∀ (s : State) (l : Fin 24) (core : Fin 4) (p : Nat) (r : RunStep), s.dev.physOf l.val = some p → s.dev.stepOn p core.val = some r →
    2 * r.step.wcet ≤ 7 * (s.dev.tick - r.tick) →
    Completes (.pipOverrun l core) s (fun d => ∀ c, c ∈ pipCores r.step → d.stepOn p c = none))

/-- R114, R118, R176, R231, R235, R275, R283, R284: a Pip step that ends. On good operands a contract step's own work is
done, and reaches the candidate copy. What program code writes is a function of the package, the step and its input bytes;
of a checked step's two results no word is written from the first difference on. A masked key has no share in a softmax.
The cell-state step gives each cell the state, confidence and observation time of R231, R232 and R246. -/
def Obligations.FusionSteps : Prop :=
  (∀ (s : State) (l : Fin 24) (core : Fin 4) (flips : List Byte) (ecc : List EccEvent) (p : Nat) (r : RunStep), s.dev.physOf l.val = some p →
    s.dev.stepOn p core.val = some r → r.step.work ≠ .program → (s.dev.readKeys (s.dev.pipKeys l.val r.step) ecc).2 = 0 →
    (r.step.checked = false ∨ flips.all (fun x => x == 0) = true) →
    Completes (.pipStepComplete l core flips ecc) s (fun d =>
      let x := (s.dev.readKeys (s.dev.pipKeys l.val r.step) ecc).1.bumpFree.pipWork (some l.val) r.step.outAddr r.step.outLen r.step.work
      d.fus = x.1.fus ∧ d.kv = x.1.kv)) ∧
  (∀ (d e : Dev) (l : Nat) (s : PipStep), d.prog.prog.map (fun p => p.digest) = e.prog.prog.map (fun p => p.digest) →
    (d.pipKeys l s).flatMap (fun r => d.mem.readN r.1 (r.2 - r.1)) = (e.pipKeys l s).flatMap (fun r => e.mem.readN r.1 (r.2 - r.1)) →
    d.pipBytes l s false = e.pipBytes l s false) ∧
  (∀ a b : List Byte, agreeing a b <+: a ∧ agreeing a b <+: b) ∧
  (∀ (scores : List Nat) (mask : List Bool), mask.length = scores.length →
    (softmaxRow scores mask).2.1.length = scores.length ∧
    (∀ j, mask.getD j false = false → (softmaxRow scores mask).2.1.getD j 0 = 0) ∧
    ((∀ b, b ∈ mask → b = false) → (softmaxRow scores mask).1 = 0 ∧ (softmaxRow scores mask).2.2 = 0)) ∧
  (∀ (d : Dev) (c : CycleCtx) (ev : List Evidence) (occ : List (Nat × Byte)) (i : Nat), d.computing = some c → i < d.gridX * d.gridY →
    let e := d.evalCell c.tv (ev.filter (fun e => !d.excluded e.slot.val && d.slotLive e.slot.val)) occ i
    let x := (d.cellState ev occ).fusN.cell i
    x.state = e.state ∧ x.conf = e.conf ∧ x.tobs = e.tobs)

/-- R127, R131 to R133, R139, R140, R157: the descriptor of a ready MOVE entry joins the mover's open group, which
FENCE_END or its 64th descriptor closes; the oldest waiting group leaves as it completes; ADVANCE turns a window's HEAD by
its STEP once its Pod is idle. -/
def Obligations.Movers : Prop :=
  (∀ (s : State) (m : Fin 27) (work : Nat) (part : Fin 8) (ws : List Word) (t i : Nat),
    s.dev.moverTable m.val = some t → s.dev.starts t 3 work = some i →
    Completes (.move m (.schedule work) part [ws]) s (fun d =>
      let q := s.dev.moverPart m.val part.val
      let c := (s.dev.startEntry t i).acceptCause m.val q none (s.dev.mover m.val).opened ws
      if (mdesc ws).fence = true ∨ 63 ≤ (s.dev.mover m.val).opened.length then
        (d.mover m.val).opened = [] ∧ ∃ g, (d.mover m.val).groups = (s.dev.mover m.val).groups ++ [g] ∧
          g.ticket = some (s.dev.ticket t i) ∧
          g.descs.map (fun a => (a.words, a.cause)) = (s.dev.mover m.val).opened.map (fun a => (a.words, a.cause)) ++ [(ws, c)]
      else (d.mover m.val).groups = (s.dev.mover m.val).groups ∧ (d.mover m.val).ticket = some (s.dev.ticket t i) ∧
        (d.mover m.val).opened = (s.dev.mover m.val).opened ++
          [{ words := ws, cause := c, core := none, part := q, bursts := [], lost := 0, at_ := 0, ahead := [], since := 0 }])) ∧
  (∀ (s : State) (m : Fin 27) (bad : List Nat) (ecc : List EccEvent) (g : FenceGroup) (rest : List FenceGroup),
    (s.dev.mover m.val).groups = g :: rest →
    Completes (.fenceGroupComplete m bad ecc) s (fun d =>
      (d.mover m.val).groups.map (fun g => (g.ticket, g.descs.map Accepted.words)) =
        rest.map (fun g => (g.ticket, g.descs.map Accepted.words)))) ∧
  (∀ (s : State) (l : Fin 24) (w : Fin 64) (p i : Nat), s.dev.physOf l.val = some p →
    (s.dev.passEntries l.val).find? (fun i => entryKind (s.dev.entry l.val i) == 4 && entryWork (s.dev.entry l.val i) % 64 == w.val &&
      s.dev.entryWaits l.val i) = some i →
    (s.dev.pass l.val).tick + entryRelease (s.dev.entry l.val i) ≤ s.dev.tick → s.dev.waitMet (s.dev.entry l.val i) = true →
    s.dev.podBusy p = false → (kget Window.reset (s.dev.pod p).windows w.val).size ≠ 0 →
    Completes (.advance l w) s (fun d => (kget Window.reset (d.pod p).windows w.val).head =
      ((kget Window.reset (s.dev.pod p).windows w.val).head + (kget Window.reset (s.dev.pod p).windows w.val).stp) %
        (kget Window.reset (s.dev.pod p).windows w.val).size))

/-- R127, R309, R323, R326, R329: a solver engine in service takes the valid job of its table's ready entry, and the job's
end, by completion or at its cut time, frees the engine. -/
def Obligations.SolverJobs : Prop :=
  (∀ (s : State) (e : Fin 4) (w : List Word) (part : Fin 8) (work i : Nat) (tr : Option (Fin 8)), s.dev.inRun = true →
    (s.dev.solver e.val).out = false → (s.dev.solver e.val).job = none → s.dev.starts (24 + e.val) 6 work = some i →
    let r : RunJob := { words := w, ticket := s.dev.ticket (24 + e.val) i, partition := part.val, track := tr.map Fin.val }
    let b := s.dev.startEntry (24 + e.val) i
    b.jobRefusal w (entryClass (s.dev.entry (24 + e.val) i)) = 0 →
    (b.jobWrites (jobOf w)).all (fun x => b.solverMay part.val x.1 x.2) = true → b.cutDue e.val r = false →
    Completes (.solve e w part work tr) s (fun d => (d.solver e.val).job = some r)) ∧
  (∀ (s : State) (e : Fin 4) (lost par : Bool) (ecc : List EccEvent) (r : RunJob), (s.dev.solver e.val).job = some r →
    Completes (.solverJobComplete e lost par ecc) s (fun d => (d.solver e.val).job = none)) ∧
  (∀ (s : State) (e : Fin 4) (n k : Nat) (r : RunJob), (s.dev.solver e.val).job = some r → s.dev.cutDue e.val r = true →
    Completes (.solverCut e n k) s (fun d => (d.solver e.val).job = none))

/-- R25, R36, R37, R202, R420: an instant that is due opens the next cycle and sets the instant after it, a period later
once the counter has followed the selected domain; the first one puts the device into RUN; the first after a selection
steps the counter by the offset from the newest estimate. -/
def Obligations.CycleInstants : Prop :=
  (∀ (s : State) (n : Int), s.dev.cyc.next = some n → n ≤ s.dev.now → s.dev.cyc.flight.length < 2 → s.dev.inRun = true →
    s.dev.lockDue = none →
    Completes .cycleInstant s (fun d => d.cyc.number = s.dev.cyc.number + 1 ∧ d.cyc.tv = n ∧ d.cyc.next = some (n + s.dev.period) ∧
      d.cyc.flight.length = s.dev.cyc.flight.length + 1)) ∧
  (∀ (s : State) (n : Int), s.dev.cyc.next = some n → n ≤ s.dev.now → s.dev.cyc.flight.length < 2 → s.dev.inReady = true →
    Completes .cycleInstant s (fun d => d.inRun = true ∧ d.cyc.number = s.dev.cyc.number + 1)) ∧
  (∀ (s : State) (n : Int) (x : Dom), s.dev.cyc.next = some n → n ≤ s.dev.now → s.dev.cyc.flight.length < 2 → s.dev.inRun = true →
    s.dev.lockDue = some x →
    Completes .cycleInstant s (fun d => d.time.epoch = true ∧
      d.time.counter = s.dev.time.counter + BitVec.ofInt 96 (s.dev.offsetNow x)))

/-- R27, R60, R81, R345 to R347, R376: the oldest cycle in flight closes its window, and at its commit deadline it is
committed where the candidate is complete, evaluated in time and good, with the summary's zones and pair tiers and the
next generation number; any other candidate is discarded, counted, and leaves zones, pair tiers and generation as they
were. -/
def Obligations.CycleEnd : Prop :=
  (∀ (s : State) (c : CycleCtx) (rest : List CycleCtx), s.dev.cyc.flight = c :: rest → c.closed = false → c.epoch = false →
    c.tv + s.dev.margin ≤ (s.dev.now : Int) →
    Completes .acceptanceWindowClose s (fun d => ∃ c', d.cyc.flight.head? = some c' ∧ c'.closed = true ∧ c'.number = c.number ∧
      c'.masked = s.dev.committedMasks)) ∧
  (∀ (s : State) (c : CycleCtx) (rest : List CycleCtx) (z : BitVec 64) (t : Store Nat) (v : Store PairEntry),
    s.dev.cyc.flight = c :: rest → c.closed = true → c.tick + usTicks (s.dev.cfg 0x5000 6) ≤ s.dev.tick →
    s.dev.fus.cand.summary = some (z, t, v) → s.dev.fus.cand.bad = false → s.dev.hull.genFault = none →
    s.dev.fus.cand.evalEnd ≤ c.tick + usTicks (s.dev.cfg 0x5000 6) →
    Completes .commitDeadline s (fun d => d.cyc.flight = rest ∧ d.hull.g = s.dev.hull.g + 1 ∧ d.hull.zones = z ∧ d.hull.pairTiers = t ∧
      d.hull.lastCycle = c.number ∧ d.hull.lastDiscarded = false ∧ d.hull.discards = 0 ∧
      d.fusC = (s.dev.commitGrid.resolveParents c.number).fusN)) ∧
  (∀ (s : State) (c : CycleCtx) (rest : List CycleCtx),
    s.dev.cyc.flight = c :: rest → c.closed = true → c.tick + usTicks (s.dev.cfg 0x5000 6) ≤ s.dev.tick →
    (s.dev.fus.cand.summary = none ∨ s.dev.fus.cand.bad = true ∨ s.dev.hull.genFault.isSome = true ∨
      c.tick + usTicks (s.dev.cfg 0x5000 6) < s.dev.fus.cand.evalEnd) →
    Completes .commitDeadline s (fun d => d.cyc.flight = rest ∧ d.hull.g = s.dev.hull.g ∧ d.hull.zones = s.dev.hull.zones ∧
      d.hull.pairTiers = s.dev.hull.pairTiers ∧ d.hull.lastDiscarded = true ∧ d.hull.discards = satU 8 (s.dev.hull.discards + 1) ∧
      d.fusC = s.dev.fusC ∧ (s.dev.Inv → s.dev.cfg 0x7000 4 < satU 8 (s.dev.hull.discards + 1) → d.Stopped)))

/-- R337, R345: a safety summary whose CRC, cycle, instant and generation agree is evaluated within the bound of R345; any
other one makes the candidate bad and is reported. -/
def Obligations.SummaryChecks : Prop :=
  (∀ (s : State) (c : CycleCtx) (rest : List CycleCtx) (bytes : List Byte) (faulted : Bool) (clocks : Nat), s.dev.up = true →
    s.dev.cyc.flight = c :: rest →
    (faulted = true ∨ bytes.length ≠ 4640 ∨ wfld (wat (leWords 580 bytes) 579) 31 0 ≠ (crc32c (bytes.take 4632)).toNat ∨
      wfld (wat (leWords 580 bytes) 0) 63 16 ≠ c.number ∨ (wat (leWords 580 bytes) 1).toNat ≠ (c.tv % 2 ^ 64).toNat ∨
      wfld (wat (leWords 580 bytes) 2) 63 32 ≠ (s.dev.hull.g + 1).toNat) →
    Completes (.summaryArrival bytes faulted clocks) s (fun d => d.fus.cand.bad = true ∧ d.Reports 0x0B03 0)) ∧
  (∀ (s : State) (c : CycleCtx) (rest : List CycleCtx) (bytes : List Byte) (clocks : Nat), s.dev.cyc.flight = c :: rest → bytes.length = 4640 →
    wfld (wat (leWords 580 bytes) 579) 31 0 = (crc32c (bytes.take 4632)).toNat → wfld (wat (leWords 580 bytes) 0) 63 16 = c.number →
    (wat (leWords 580 bytes) 1).toNat = (c.tv % 2 ^ 64).toNat → wfld (wat (leWords 580 bytes) 2) 63 32 = (s.dev.hull.g + 1).toNat →
    s.dev.hull.genFault = none →
    Completes (.summaryArrival bytes false clocks) s (fun d =>
      (∃ t v, d.fus.cand.summary = some (s.dev.activeZones (leWords 580 bytes), t, v)) ∧ d.fus.cand.bad = s.dev.fus.cand.bad ∧
      s.dev.tick ≤ d.fus.cand.evalEnd ∧ d.fus.cand.evalEnd ≤ s.dev.tick + s.dev.evalClocks ∧
      d.fus.cand.excursion = wbit (wat (leWords 580 bytes) 0) 12))

/-- R332, R342, R348, R350: what stops the device at once: a lockstep difference of the Hull; a stop pin that does not
confirm its dark pulse, or whose readback differs from what is driven; a pair faster than the tier's speed for longer than
the settle time. -/
def Obligations.HullStops : Prop :=
  (∀ s : State, s.dev.Inv → s.dev.up = true →
    Completes .hullLockstep s (fun d => d.Stopped ∧ d.hull.fault = true ∧ d.Reports 0x0B01 0)) ∧
  (∀ (s : State) (b : Bool), s.dev.Inv → s.dev.up = true → s.dev.pinHigh b = true → s.dev.cfg 0x7000 0x0E = 1 →
    s.dev.darkDue b = true →
    Completes (.stopDarkTest b false) s (fun d => d.Stopped ∧ d.hull.fault = true ∧ d.Reports 0x0B02 (b2n b))) ∧
  (∀ (s : State) (b : Bool), s.dev.pinHigh b = true → s.dev.cfg 0x7000 0x0E = 1 → s.dev.darkDue b = true →
    Completes (.stopDarkTest b true) s (fun d => Dev.Frame [.hull] s.dev d ∧ d.hull.tier = s.dev.hull.tier ∧
      (if b then d.hull.darkB = s.dev.tick else d.hull.darkA = s.dev.tick))) ∧
  (∀ (s : State) (b high : Bool), s.dev.Inv → s.dev.up = true → high ≠ s.dev.pinHigh b →
    Completes (.stopPinReadback b high) s (fun d => d.Stopped ∧ d.hull.fault = true ∧ d.Reports 0x0B02 (b2n b))) ∧
  (∀ (s : State) (b : Bool), Completes (.stopPinReadback b (s.dev.pinHigh b)) s (fun d => d = s.dev)) ∧
  (∀ (s : State) (p : Fin 256) (t lim v : Nat), s.dev.Inv → s.dev.inRun = true → kget none s.dev.hull.exceeded p.val = some (t, lim) →
    s.dev.tierSpeed = some v → s.dev.pairOn p.val = true → t + usTicks (s.dev.cfg 0x7000 0x0A) < s.dev.tick → v < s.dev.speedOf p.val →
    kget 0 s.dev.hull.demands (srcSpeed p.val) = 0 →
    Completes (.speedSettleExpiry p) s (fun d => d.Stopped ∧ d.Reports 0x0B0D p.val))

/-- R348, R351, R416, R420: an off delay that has run out switches its output off; a silent safety channel is reported and
takes the host's demand away; the status PDU leaves on its interval; the pulses of the stop pins are stated with the
stops. -/
def Obligations.HullTimers : Prop :=
  (∀ (s : State) (q : Fin 4) (t : Nat), kget none s.dev.hull.offDelay q.val = some t → t ≤ s.dev.tick →
    Completes (.offDelayExpiry q) s (fun d => kget none d.hull.offDelay q.val = none ∧ q.val ∈ d.hull.offDone)) ∧
  (∀ s : State, s.dev.cfg 0x7000 0x13 ≠ 0 → s.dev.inRun = true → s.dev.hull.watchdog = false →
    s.dev.hull.cmdTick + msTicks (s.dev.cfg 0x7000 0x0B) ≤ s.dev.tick →
    Completes .safetyChannelTimeout s (fun d => d.hull.watchdog = true ∧ kget 0 d.hull.demands srcHost = 0 ∧
      kget 0 d.hull.demands srcWatchdog = s.dev.cfg 0x7000 0x0C ∧ s.dev.hull.tier ≤ d.hull.tier ∧ d.Reports 0x0B09 0)) ∧
  (∀ s : State, s.dev.cfg 0x7000 0x13 ≠ 0 → s.dev.hull.firstCommit = true →
    s.dev.hull.statusTick + msTicks (s.dev.cfg 0x7000 0x14) ≤ s.dev.tick →
    Completes .statusInterval s (fun d => d.hull.statusSeq = s.dev.hull.statusSeq + 1 ∧ d.hull.statusTick = s.dev.tick ∧
      d.palca.spiStatus.isSome = true))

/-- R19, R351, R530, R531, R541: the edge-die link. Every 100 µs a command frame leaves with the outputs and supplies that
are to be on; one whose lanes agree is acted on, and every channel that is on and is not commanded on has its turn to
open; one whose lanes differ is counted and reported, and its outputs go off, as they do after 500 µs without a frame.
R19, R352, R530, R534, R547: a status frame whose lanes agree hands every report and input state to the Hull, and a short
to 24 V of a channel, VEDGE out of range and over-temperature are standing demands; one whose lanes differ, and 500 µs
without a frame, stop the device. -/
def Obligations.EdgeLink : Prop :=
  (∀ s : State, hasEdge s.dev.code = true → s.dev.edge.sendTick + usTicks 100 ≤ s.dev.tick →
    Completes .edgeCommandFrameSend s (fun d =>
      d.out = { kind := .edgeCommand, unit := 0, tag := 0, data := [s.dev.restoreOutputs.sqMask, s.dev.restoreOutputs.spMask] } :: s.dev.out)) ∧
  (∀ (s : State) (sq : BitVec 8) (sp : BitVec 16), hasEdge s.dev.code = true →
    Completes (.edgeCommandFrame .agree sq sp) s (fun d => d.edge.cmdTick = s.dev.tick ∧
      (∀ c, c < 8 → sq.getLsbD c = true → (s.dev.sq c).latched = 0 → s.dev.edgeMay = true → (s.dev.sq c).pulse = false → (d.sq c).on = true) ∧
      (∀ c, c < 8 → sq.getLsbD c = false → (d.sq c).on = true → c ∈ d.edge.turns) ∧
      (∀ n, n < 16 → sp.getLsbD n = false → kget 0 d.edge.supplies n = 0) ∧
      (∀ n, n < 16 → sp.getLsbD n = true → kget 0 s.dev.edge.supplies n = 0 → s.dev.edge.hot = false → s.dev.edge.vsensOver = false →
        kget 0 d.edge.supplies n = 1))) ∧
  (∀ (s : State) (l : Lanes) (sq : BitVec 8) (sp : BitVec 16), hasEdge s.dev.code = true → l ≠ .agree →
    Completes (.edgeCommandFrame l sq sp) s (fun d => d.edge.errors = (s.dev.edge.errors + 1) % 2 ^ 32 ∧
      d.edge.reports = s.dev.edge.reports ++ [(0x120B, 0, 0)] ∧ ∀ c, c < 8 → (d.sq c).on = true → c ∈ d.edge.turns)) ∧
  (∀ s : State, hasEdge s.dev.code = true → s.dev.edge.cmdTick + usTicks 500 ≤ s.dev.tick →
    Completes .edgeCommandTimeout s (fun d => ∀ c, c < 8 → (d.sq c).on = true → c ∈ d.edge.turns)) ∧
  (∀ s : State, hasEdge s.dev.code = true →
    Completes (.edgeStatusFrame .agree) s (fun d => d.edge.statusTick = s.dev.tick ∧ d.edge.lost = false ∧ d.edge.reports = [] ∧
      ∀ p, p < 8 → d.pairIn p = (kget InputPair.reset s.dev.edge.pairs p).state)) ∧
  (∀ (s : State) (k u x : Nat), hasEdge s.dev.code = true → s.dev.Inv → s.dev.edge.reports = [(k, u, x)] →
    k ∈ [0x1201, 0x1202, 0x1203, 0x1204, 0x120A, 0x120B, 0x120D] →
    Completes (.edgeStatusFrame .agree) s (fun d => d.Stopped ∧ (k = 0x1201 ∨ k = 0x1203 → kget 0 d.hull.demands (srcSqShort u) = 3) ∧
      (k = 0x120A → kget 0 d.hull.demands srcVedge = 3) ∧ (k = 0x120D → kget 0 d.hull.demands srcEdgeHot = 3))) ∧
  (∀ (s : State) (l : Lanes), hasEdge s.dev.code = true → s.dev.Inv → s.dev.up = true → l ≠ .agree →
    Completes (.edgeStatusFrame l) s (fun d => d.Stopped ∧ d.Reports 0x120B 1 ∧ d.edge.errors = (s.dev.edge.errors + 1) % 2 ^ 32)) ∧
  (∀ s : State, hasEdge s.dev.code = true → s.dev.Inv → s.dev.up = true → s.dev.edge.lost = false →
    s.dev.edge.statusTick + usTicks 500 ≤ s.dev.tick →
    Completes .edgeLinkLost s (fun d => d.Stopped ∧ d.Reports 0x120C 0 ∧ d.edge.lost = true))

/-- R531, R533 to R537, R547: the safety output channels. A channel opens in its turn, 10 µs after the one before; a pulse
begins in its slot of the test frame; a pulse that its readback does not confirm, a high readback while off, a short to 0
V and an open load latch it off under their causes; a fault that is gone may be reset and demands nothing; two channels of
which one pulls the other are latched together. -/
def Obligations.SafetyOutputs : Prop :=
  (∀ (s : State) (fell : List (Fin 8)) (c : Nat) (rest : List Nat), hasEdge s.dev.code = true → s.dev.edge.turns = c :: rest →
    s.dev.edge.turnTick + usTicks 10 ≤ s.dev.tick →
    Completes (.switchOffTurn fell) s (fun d => (d.sq c).on = false ∧ (fell = [] → d.edge.turns = rest))) ∧
  (∀ (s : State) (ch : Fin 12), hasEdge s.dev.code = true → ch.val < 8 → (s.dev.sq ch.val).on = true → s.dev.pulseDue ch.val = true →
    Completes (.darkPulse ch []) s (fun d => (d.sq ch.val).pulse = true ∧ (d.sq ch.val).on = true)) ∧
  (∀ (s : State) (ch : Fin 12) (raw : BitVec 16), hasEdge s.dev.code = true → ch.val < 8 → (s.dev.sq ch.val).pulse = true →
    (s.dev.sq ch.val).void = false → 19200 ≤ s.dev.edge.vedge → s.dev.sampleDue (s.dev.sq ch.val).opened = true →
    Completes (.darkPulseSample ch true raw) s (fun d => (d.sq ch.val).latched = 0x1201 ∧ (d.sq ch.val).on = false ∧
      d.edge.reports = s.dev.edge.reports ++ [(0x1201, ch.val, 0)])) ∧
  (∀ (s : State) (ch : Fin 12) (raw : BitVec 16), hasEdge s.dev.code = true → ch.val < 8 → (s.dev.sq ch.val).pulse = true →
    s.dev.sampleDue (s.dev.sq ch.val).opened = true →
    Completes (.darkPulseSample ch false raw) s (fun d => (d.sq ch.val).pulse = false ∧ (d.sq ch.val).on = (s.dev.sq ch.val).on ∧
      d.edge.reports = s.dev.edge.reports)) ∧
  (∀ (s : State) (c : Fin 8), hasEdge s.dev.code = true → (s.dev.sq c.val).on = false → (s.dev.sq c.val).latched = 0 →
    (∀ t, (s.dev.sq c.val).opened = some t → t + msTicks 1 ≤ s.dev.tick) →
    Completes (.sqOffReadbackHigh c) s (fun d => (d.sq c.val).latched = 0x1201 ∧
      d.edge.reports = s.dev.edge.reports ++ [(0x1201, c.val, 0)])) ∧
  (∀ (s : State) (c : Fin 8), hasEdge s.dev.code = true → (s.dev.sq c.val).on = true →
    (s.dev.sq c.val).onTick + msTicks 5 ≤ s.dev.tick →
    Completes (.sqShort0v c) s (fun d => (d.sq c.val).latched = 0x1202 ∧ (d.sq c.val).on = false ∧
      d.edge.reports = s.dev.edge.reports ++ [(0x1202, c.val, 0)])) ∧
  (∀ (s : State) (c : Fin 8), hasEdge s.dev.code = true → (s.dev.sq c.val).on = true →
    (s.dev.sq c.val).onTick + msTicks 100 ≤ s.dev.tick →
    Completes (.sqOpenLoad c) s (fun d => (d.sq c.val).latched = 0x1204 ∧ (d.sq c.val).on = false ∧
      d.edge.reports = s.dev.edge.reports ++ [(0x1204, c.val, 0)])) ∧
  (∀ (s : State) (c : Fin 8), hasEdge s.dev.code = true → ((s.dev.sq c.val).latched = 0x1201 ∨ (s.dev.sq c.val).latched = 0x1203) →
    (s.dev.sq c.val).lowTick + msTicks 100 ≤ s.dev.tick →
    Completes (.sqFaultGone c) s (fun d => (d.sq c.val).gone = true ∧ kget 0 d.hull.demands (srcSqShort c.val) = 0)) ∧
  (∀ (s : State) (c : Fin 8) (t : Nat), hasEdge s.dev.code = true → (s.dev.sq c.val).watch = some t → t ≤ s.dev.tick →
    Completes (.crossShortWatchExpiry c false) s (fun d => (d.sq c.val).watch = none ∧ (d.sq c.val).latched = (s.dev.sq c.val).latched)) ∧
  (∀ (s : State) (c : Fin 8) (k : Nat), hasEdge s.dev.code = true → (s.dev.sq c.val).latched = 0x1201 → s.dev.lastOpened c.val = some k →
    Completes (.crossShortWatchExpiry c true) s (fun d => (d.sq c.val).latched = 0x1203 ∧ (d.sq k).latched = 0x1203))

/-- R539, R540 (with the pairing that log 18 reads): the safety inputs. A pair without a fault is ON while both its
terminals are; one in discrepancy or test fault stays so; terminals that differ for longer than the discrepancy time are a
discrepancy; a terminal that does not follow its test source is a test fault, and a full frame passed ends it. -/
def Obligations.SafetyInputs : Prop :=
  (∀ (s : State) (i : Fin 16) (on : Bool), hasEdge s.dev.code = true → s.dev.readingExcluded i.val = false →
    Completes (.terminalStateChange i on) s (fun d => d.terminal i.val = on ∧
      ((kget InputPair.reset s.dev.edge.pairs (i.val / 2)).state < 2 → (kget InputPair.reset d.edge.pairs (i.val / 2)).state =
        b2n (d.terminal (2 * (i.val / 2)) && d.terminal (2 * (i.val / 2) + 1))) ∧
      ((kget InputPair.reset s.dev.edge.pairs (i.val / 2)).state = 3 → (kget InputPair.reset d.edge.pairs (i.val / 2)).state = 3))) ∧
  (∀ (s : State) (p : Fin 8) (t : Nat), hasEdge s.dev.code = true → (kget InputPair.reset s.dev.edge.pairs p.val).differ = some t →
    (kget InputPair.reset s.dev.edge.pairs p.val).state < 2 → t + msTicks (s.dev.cfg 0x7300 (p.val + 9)) ≤ s.dev.tick →
    Completes (.siDiscrepancy p) s (fun d => (kget InputPair.reset d.edge.pairs p.val).state = 2 ∧
      d.edge.reports = s.dev.edge.reports ++ [(0x1205, p.val, 0)])) ∧
  (∀ (s : State) (ch : Fin 12) (high : Bool) (raw : BitVec 16), hasEdge s.dev.code = true → 8 ≤ ch.val →
    s.dev.edge.pulsed.contains ch.val = true → s.dev.edge.pulsed.contains (ch.val + 8) = false →
    s.dev.sampleDue (kget none s.dev.edge.sourceTick (ch.val - 8)) = true →
    Completes (.darkPulseSample ch high raw) s (fun d => ∀ p i, p < 8 → (i = 2 * p ∨ i = 2 * p + 1) → s.dev.terminal i = true →
      raw.getLsbD i = decide (i % 4 = ch.val - 8) → (kget InputPair.reset d.edge.pairs p).state = 3)) ∧
  (∀ s : State, hasEdge s.dev.code = true → s.dev.edge.frameTick + msTicks 20 ≤ s.dev.tick →
    Completes .testFrame s (fun d => d.edge.frameTick = s.dev.tick ∧ ∀ p, p < 8 →
      (kget InputPair.reset s.dev.edge.pairs p).state = 3 →
      (kget InputPair.reset d.edge.pairs p).state =
        if [0, 1, 2, 3].all (fun j => (kget InputPair.reset s.dev.edge.pairs p).passed.contains j) = true
        then b2n (s.dev.terminal (2 * p) && s.dev.terminal (2 * p + 1)) else 3))

/-- R541: the sensor supplies. A short, an open load and a reverse current latch or mark a supply that is on, and are
reported; the last two end by themselves. R541, R542, R547: voltages and temperature of the edge die. 125 °C, and VEDGE
out of range for 1 ms, are reported to the Hull, which stops the device; above 32 V on VSENS every supply goes off, and
one that a short switched off stays so; each state ends after its time in range. -/
def Obligations.SensorSupplies : Prop :=
  (∀ (s : State) (n : Fin 16), hasEdge s.dev.code = true →
    (kget 0 s.dev.edge.supplies n.val = 1 ∨ kget 0 s.dev.edge.supplies n.val = 3 ∨ kget 0 s.dev.edge.supplies n.val = 4) →
    Completes (.spShort n) s (fun d => kget 0 d.edge.supplies n.val = 2 ∧ d.edge.reports = s.dev.edge.reports ++ [(0x1207, n.val, 0)])) ∧
  (∀ (s : State) (n : Fin 16), hasEdge s.dev.code = true → kget 0 s.dev.edge.supplies n.val = 1 →
    Completes (.spOpenLoad n) s (fun d => kget 0 d.edge.supplies n.val = 3 ∧ d.edge.reports = s.dev.edge.reports ++ [(0x1208, n.val, 0)])) ∧
  (∀ (s : State) (n : Fin 16), hasEdge s.dev.code = true →
    (kget 0 s.dev.edge.supplies n.val = 1 ∨ kget 0 s.dev.edge.supplies n.val = 3) →
    Completes (.spReverse n) s (fun d => kget 0 d.edge.supplies n.val = 4 ∧ d.edge.reports = s.dev.edge.reports ++ [(0x1209, n.val, 0)])) ∧
  (∀ (s : State) (n : Fin 16), hasEdge s.dev.code = true → kget 0 s.dev.edge.supplies n.val = 3 →
    Completes (.spOpenLoadEnd n) s (fun d => kget 0 d.edge.supplies n.val = 1)) ∧
  (∀ (s : State) (n : Fin 16), hasEdge s.dev.code = true → kget 0 s.dev.edge.supplies n.val = 4 →
    Completes (.spReverseEnd n) s (fun d => kget 0 d.edge.supplies n.val = 1)) ∧
  (∀ (s : State) (vedge vsens : Nat) (temp : Int), hasEdge s.dev.code = true →
    s.dev.edge.measureTick + usTicks 100 ≤ s.dev.tick →
    Completes (.edgeSupplyMeasure vedge vsens temp) s (fun d => d.edge.vedge = vedge ∧ d.edge.vsens = vsens ∧ d.edge.temp = temp ∧
      (32000 < vsens → d.edge.vsensOver = true ∧
        (∀ n, kget 0 d.edge.supplies n = 0 ∨ kget 0 d.edge.supplies n = 2) ∧
        (∀ n, kget 0 s.dev.edge.supplies n = 2 → kget 0 d.edge.supplies n = 2)) ∧
      (125 * 65536 ≤ temp → s.dev.edge.hot = false → d.edge.hot = true ∧ d.edge.reports = s.dev.edge.reports ++ [(0x120D, 0, 0)] ∧
        (∀ n, kget 0 d.edge.supplies n = 0 ∨ kget 0 d.edge.supplies n = 2) ∧ ∀ c, c < 8 → (d.sq c).on = true → c ∈ d.edge.turns))) ∧
  (∀ (s : State) (u : Nat), hasEdge s.dev.code = true → s.dev.edge.vedgeBad = some u → u + msTicks 1 ≤ s.dev.tick →
    kget 0 s.dev.hull.demands srcVedge = 0 → s.dev.edge.reports.any (fun r => r.1 == 0x120A) = false →
    Completes .vedgeOutOfRange s (fun d => d.edge.reports = s.dev.edge.reports ++ [(0x120A, 0, 0)])) ∧
  (∀ (s : State) (u : Nat), hasEdge s.dev.code = true → s.dev.edge.vsensOk = some u → s.dev.edge.vsensOver = true →
    u + msTicks 100 ≤ s.dev.tick → Completes .vsensRecovery s (fun d => d.edge.vsensOver = false)) ∧
  (∀ (s : State) (u : Nat), hasEdge s.dev.code = true → s.dev.edge.coolSince = some u → s.dev.edge.hot = true →
    u + sTicks 10 ≤ s.dev.tick →
    Completes .edgeTemperatureResume s (fun d => d.edge.hot = false ∧ kget 0 d.hull.demands srcEdgeHot = 0))

/-- R353, R355 to R357, R476, R478: the Twin link. A paired device sends its heartbeat; a used safety frame is the newest
SEQ; the link trains, and once its lanes are up the next safety frame is taken with any SEQ; discovery sends IDENTITY and,
200 ms into step 10 without a partner, ends with a single channel; single-lane bulk frames are reported. -/
def Obligations.TwinLink : Prop :=
  (∀ s : State, s.dev.pairEnabled = true → s.dev.paired = true → s.dev.twin.beatTick + usTicks 100 ≤ s.dev.tick →
    Completes .twinHeartbeatSend s (fun d => d.twin.txSeq = s.dev.twin.txSeq + 1 ∧ d.out.length = s.dev.out.length + 1 ∧
      d.out.head?.map (fun o => (o.kind, o.unit)) = some (.twinFrame, 1))) ∧
  (∀ (s : State) (f : TwinFrame), s.dev.Usable f →
    Completes (.heartbeat f) s (fun d => d.twin.rxSeq = some f.seq ∧ d.twin.lastUsed = s.dev.tick ∧
      ∃ delay, delay < 300000 ∧ d.twin.offset = (f.stamp.toNat : Int) + delay - s.dev.now)) ∧
  (∀ (s : State) (f : TwinFrame), s.dev.pairEnabled = true → s.dev.twin.up = true → f.lanes ≠ .agree →
    Completes (.heartbeat f) s (fun d => d.Reports 0x0C07 0 ∧ d.twin = s.dev.twin)) ∧
  (∀ s : State, s.dev.pairEnabled = true → s.dev.twin.up = true → s.dev.paired = false → s.dev.twin.discovering = true →
    s.dev.twin.idTick + msTicks 10 ≤ s.dev.tick →
    Completes .identitySend s (fun d => d.twin.txSeq = s.dev.twin.txSeq + 1 ∧
      d.out.head?.map (fun o => (o.kind, o.unit)) = some (.twinFrame, 4))) ∧
  (∀ s : State, s.dev.pairEnabled = true → s.dev.twin.up = false →
    Completes .twinLanesUp s (fun d => d.twin.up = true ∧ d.twin.rxSeq = none ∧ d.twin.discovering = true)) ∧
  (∀ s : State, s.dev.pairEnabled = true → s.dev.twin.up = false →
    Completes (.twinLaneTraining true) s (fun d => d.twin.discovering = true)) ∧
  (∀ s : State, s.dev.pairEnabled = true → s.dev.twin.up = false → s.dev.paired = false → s.dev.twin.trainTick + sTicks 1 ≤ s.dev.tick →
    Completes (.twinLaneTraining false) s (fun d => d.twin.discovering = true ∧ d.twin.trainTick = s.dev.tick)) ∧
  (∀ (s : State) (f : TwinFrame), s.dev.pairEnabled = true → s.dev.twin.up = true → f.lanes = .single →
    Completes (.bulk f) s (fun d => d.Reports 0x0C07 0 ∧ d.hull = s.dev.hull)) ∧
  (∀ (s : State) (f : TwinFrame), f.lanes = .agree → Completes (.bulk f) s (fun d => d = s.dev)) ∧
  (∀ s : State, s.dev.start.step = some 10 → s.dev.pairEnabled = true → s.dev.paired = false →
    s.dev.start.stepTick + msTicks 200 ≤ s.dev.tick → kget 0 s.dev.hull.demands srcLinkLoss = 0 →
    Completes .partnerDiscovery s (fun d => d.twin.partner = 0 ∧ d.Reports 0x0C02 0 ∧
      kget 0 d.hull.demands srcLinkLoss = s.dev.cfg 0x7100 9)) ∧
  (∀ s : State, s.dev.up = true → s.dev.paired = true → s.dev.twin.lastUsed + usTicks 300 ≤ s.dev.tick →
    Completes .twinLinkLost s (fun d => d.twin.partner = 2 ∧ d.twin.discovering = true ∧ d.Reports 0x0C02 0 ∧
      kget 0 d.hull.demands srcPartner = 0 ∧ kget 0 d.hull.demands srcLinkLoss = s.dev.cfg 0x7100 9))

/-- R353, R356 to R360, R476, R477, R521: what a used safety frame brings. DECISION makes the partner's output tier a
demand; VALUES out of tolerance raise their demand; a cycle that stays without its partner's counts as discrepant;
IDENTITY completes discovery where role, configuration, period and fingerprint agree, and stops the device or leaves it
unpaired where they do not. -/
def Obligations.TwinPair : Prop :=
  (∀ (s : State) (f : TwinFrame), s.dev.Usable f → s.dev.paired = true →
    Completes (.decision f) s (fun d => kget 0 d.hull.demands srcPartner = wfld (wat f.payload 1) 15 8 % 4 ∧
      wfld (wat f.payload 1) 15 8 % 4 ≤ d.hull.tier ∧ s.dev.hull.tier ≤ d.hull.tier)) ∧
  (∀ (s : State) (f : TwinFrame) (x : Decided), s.dev.Usable f → s.dev.paired = true →
    s.dev.twin.own.find? (fun x => s.dev.pairsWith (wat f.payload 0).toInt x && !x.discarded) = some x →
    s.dev.valuesAgree x.vals (valuesOf f.payload) = false → s.dev.cfg 0x7100 7 ≤ s.dev.twin.tolBad + 1 → kget 0 s.dev.hull.demands srcTolerance = 0 →
    Completes (.values f) s (fun d => d.twin.tolBad = s.dev.twin.tolBad + 1 ∧ d.twin.tolGood = 0 ∧ d.Reports 0x0C04 0 ∧
      kget 0 d.hull.demands srcTolerance = s.dev.cfg 0x7100 8)) ∧
  (∀ (s : State) (c : BitVec 48) (x : Decided), s.dev.up = true → s.dev.Inv → s.dev.paired = true →
    s.dev.twin.own.find? (fun y => y.cycle == c.toNat) = some x → x.compared = false → x.discarded = false →
    x.tick + usTicks (s.dev.cfg 0x7100 0x0A) ≤ s.dev.tick →
    Completes (.crossCheckWindowExpiry c) s (fun d => d.twin.discrepant = s.dev.twin.discrepant + 1 ∧
      (s.dev.cfg 0x7100 4 ≤ s.dev.twin.discrepant + 1 → kget 0 s.dev.hull.demands srcMismatch = 0 → d.Stopped ∧ d.hull.needReset = true ∧ d.Reports 0x0C03 0))) ∧
  (∀ (s : State) (f : TwinFrame), s.dev.Usable f → s.dev.paired = false → s.dev.Inv →
    (f.role = decide (s.dev.cfg 0x7100 2 = 1) ∨ wfld (wat f.payload 4) 63 32 ≠ s.dev.cfg 0x7000 1 ∨
      wfld (wat f.payload 4) 31 0 ≠ s.dev.cfg 0x5000 1) →
    Completes (.identity f) s (fun d => d.paired = false ∧ d.Stopped ∧ d.Reports 0x0C05 0)) ∧
  (∀ (s : State) (f : TwinFrame), s.dev.Usable f → s.dev.paired = false →
    f.role ≠ decide (s.dev.cfg 0x7100 2 = 1) → wfld (wat f.payload 4) 63 32 = s.dev.cfg 0x7000 1 →
    wfld (wat f.payload 4) 31 0 = s.dev.cfg 0x5000 1 → s.dev.sec.partner.toNat ≠ 0 →
    packN [(64, (wat f.payload 0).toNat), (64, (wat f.payload 1).toNat), (64, (wat f.payload 2).toNat), (64, (wat f.payload 3).toNat)] =
      s.dev.sec.partner.toNat →
    Completes (.identity f) s (fun d => d.twin.seen = true ∧ d.paired = wbit (wat f.payload 7) 0 ∧
      (wbit (wat f.payload 7) 0 = true → kget 0 d.hull.demands srcConfig = 0 ∧ (s.dev.inRun = false → kget 0 d.hull.demands srcLinkLoss = 0))))

/-- R395, R398 to R401, R406, R470: the gate of every request. A frame of another VLAN is dropped, a damaged one, a
fragment and one with IP options dropped and counted; a bad header is counted and reported, an unlisted sender reported
and not answered, a repeat is answered with the response it had, and before start-up has left the boot ROM a write is
refused. -/
def Obligations.ServiceGate : Prop :=
  (∀ (s : State) (r : Req) (idx : BitVec 16) (sub : Byte) (part : Bool) (off : BitVec 32), s.dev.Takes r.port r.addr r.frame →
    framed r = false → r.port ≠ .spi →
    Completes (.read r idx sub part off) s (fun d => d.Reports 0x0D01 (portNo r.port) ∧ d.out = s.dev.out ∧
      d.counter (0x1011 + portNo r.port) 0x0C = satU 64 (s.dev.counter (0x1011 + portNo r.port) 0x0C + 1))) ∧
  (∀ (s : State) (r : Req) (idx : BitVec 16) (sub : Byte) (part : Bool) (off : BitVec 32), s.dev.Takes r.port r.addr r.frame → framed r = true →
    s.dev.start.bootRom = false → s.dev.rightsOf r.port r.addr = none →
    Completes (.read r idx sub part off) s (fun d => d.Reports 0x0D02 (portNo r.port) ∧ d.out = s.dev.out ∧ d.palca = s.dev.palca)) ∧
  (∀ (s : State) (r : Req) (idx : BitVec 16) (sub : Byte) (part : Bool) (payload : List Byte) (k : Kept), s.dev.Takes r.port r.addr r.frame →
    framed r = true → s.dev.start.bootRom = false → (s.dev.rightsOf r.port r.addr).isSome = true →
    s.dev.repeatOf r ([2, idx.toNat, sub.toNat, b2n part, 0] ++ byteNats payload) = some k →
    Completes (.write r idx sub part payload) s (fun d => d.Answered r k.response ∧ Dev.Frame [.palca, .out] s.dev d)) ∧
  (∀ (s : State) (r : Req) (idx : BitVec 16) (sub : Byte) (part : Bool) (payload : List Byte), s.dev.Takes r.port r.addr r.frame → framed r = true →
    s.dev.start.bootRom = true →
    s.dev.repeatOf r ([2, idx.toNat, sub.toNat, b2n part, 0] ++ byteNats payload) = none →
    s.dev.heldOf r ([2, idx.toNat, sub.toNat, b2n part, 0] ++ byteNats payload) = none →
    Completes (.write r idx sub part payload) s (fun d =>
      d.Answered r (responseBytes r 2 idx.toNat sub.toNat part 0 (.refuse 3)) ∧ Dev.Frame [.palca, .out] s.dev d)) ∧
  (∀ (s : State) (r : Req) (idx : BitVec 16) (sub : Byte) (part : Bool) (off : BitVec 32), r.port ≠ .spi → s.dev.up = true →
    s.dev.datagramTaken r.port r.addr = true →
    (s.dev.hostFilter (portNo r.port) (mappedV4 r.addr) r.frame = 2 → Completes (.read r idx sub part off) s (fun d => d = s.dev)) ∧
    (s.dev.hostFilter (portNo r.port) (mappedV4 r.addr) r.frame = 1 →
      Completes (.read r idx sub part off) s (fun d => Dev.Frame [.dict] s.dev d ∧
        d.counter (0x1011 + portNo r.port) 0x0C = satU 64 (s.dev.counter (0x1011 + portNo r.port) 0x0C + 1)))) ∧
  (∀ (d : Dev) (port : Nat) (v4 : Bool) (f : HostFrame), f.fcsOk = true → f.bytes ≤ 1522 →
    (d.hostFilter port v4 f = 2 ↔ (match f.tci with
      | some t => t.toNat % 4096 ≠ d.cfg (0x1011 + port) 7
      | none => d.cfg (0x1011 + port) 7 ≠ 0)))

/-- R402 to R405, R354, R408: READ, WRITE and the configuration lock. A read answers the value and changes nothing else
but the free-value counter; a refused write answers its reason and changes no object; an accepted value of a zone is
stored and [7000.01] recomputed; a set lock refuses to be cleared, but from the SPI target port in READY. -/
def Obligations.ReadWrite : Prop :=
  (∀ (s : State) (r : Req) (idx : BitVec 16) (sub : Byte) (part : Bool) (off : BitVec 32) (rt : Nat),
    s.dev.Serves r 1 idx.toNat sub.toNat part off.toNat [] rt →
    Completes (.read r idx sub part off) s (fun d =>
      d.Answered r (responseBytes r 1 idx.toNat sub.toNat part off.toNat (s.dev.readObj rt idx.toNat sub.toNat part off.toNat r.length)) ∧
      Dev.Frame [.palca, .out, .free] s.dev d)) ∧
  (∀ (s : State) (r : Req) (idx : BitVec 16) (sub : Byte) (part : Bool) (payload : List Byte) (rt : Nat) (x : Reply),
    s.dev.Serves r 2 idx.toNat sub.toNat part 0 payload rt → isEv s.dev.code idx.toNat sub.toNat = false →
    s.dev.checkWrite r.port rt idx.toNat sub.toNat payload = some x →
    Completes (.write r idx sub part payload) s (fun d =>
      d.Answered r (responseBytes r 2 idx.toNat sub.toNat part 0 x) ∧ Dev.Frame [.palca, .out] s.dev d)) ∧
  (∀ (s : State) (r : Req) (idx : BitVec 16) (part : Bool) (payload : List Byte), 0x7010 ≤ idx.toNat → idx.toNat ≤ 0x704F →
    s.dev.TakesWrite r idx.toNat 4 part payload →
    Completes (.write r idx 4 part payload) s (fun d =>
      d.Answered r (responseBytes r 2 idx.toNat 4 part 0 (.good [])) ∧
      d.cfgList idx.toNat 4 = wireValue s.dev.code idx.toNat 4 payload ∧ d.cfg 0x7000 1 = (crc32c d.coveredBytes).toNat)) ∧
  (∀ (s : State) (r : Req) (rt : Nat), s.dev.Serves r 2 0x2001 1 false 0 [1] rt → nbit rt 1 = true →
    Completes (.configurationLock r 1) s (fun d => d.Awaits r [2, 0x2001, 1, 0, 0, 1] (responseBytes r 2 0x2001 1 false 0 (.good [])) ∧ d.locked = true)) ∧
  (∀ (s : State) (r : Req) (rt : Nat), s.dev.Serves r 2 0x2001 1 false 0 [0] rt → nbit rt 1 = true → r.port ≠ .spi →
    Completes (.configurationLock r 0) s (fun d => d.Answered r (responseBytes r 2 0x2001 1 false 0 (.cause 0x0D03)) ∧
      d.locked = s.dev.locked)) ∧
  (∀ (s : State) (r : Req) (rt : Nat), s.dev.Serves r 2 0x2001 1 false 0 [0] rt → nbit rt 1 = true → r.port = .spi → s.dev.inReady = true →
    Completes (.configurationLock r 0) s (fun d => d.Awaits r [2, 0x2001, 1, 0, 0, 0] (responseBytes r 2 0x2001 1 false 0 (.good [])) ∧
      d.locked = false))

/-- R407 and the first sentence and second of R13. An event is read as its pending bit with PART 0 and as its count with
PART 1; a write of 0 with PART 0 clears the pending bit and leaves the count, and any other write is refused with reason
2; a bit that hardware sets in the clock of the clear ends set; each occurrence sets the bit and counts, modulo 2^32. -/
def Obligations.EvObjects : Prop :=
  (∀ (s : State) (r : Req) (idx : BitVec 16) (sub : Byte) (part : Bool) (off : BitVec 32) (rt : Nat),
    s.dev.Serves r 1 idx.toNat sub.toNat part off.toNat [] rt → nbit rt 0 = true → isEv s.dev.code idx.toNat sub.toNat = true →
    r.length = 0 → Completes (.read r idx sub part off) s (fun d =>
      d.Answered r (responseBytes r 1 idx.toNat sub.toNat part off.toNat (.good (
        if part then beBytes 4 (s.dev.ev idx.toNat sub.toNat).count else beBytes 1 (b2n (s.dev.ev idx.toNat sub.toNat).pending)))))) ∧
  (∀ (s : State) (r : Req) (idx : BitVec 16) (sub : Byte) (rt : Nat), s.dev.Serves r 2 idx.toNat sub.toNat false 0 [0] rt →
    nbit rt 1 = true → isEv s.dev.code idx.toNat sub.toNat = true →
    ∀ c, (c = .write r idx sub false [0] ∨ c = .evClear r idx sub false) →
    Completes c s (fun d => d.Answered r (responseBytes r 2 idx.toNat sub.toNat false 0 (.good [])) ∧
      d.ev idx.toNat sub.toNat = { pending := false, count := (s.dev.ev idx.toNat sub.toNat).count })) ∧
  (∀ (s : State) (r : Req) (idx : BitVec 16) (sub : Byte) (part : Bool) (payload : List Byte) (rt : Nat),
    s.dev.Serves r 2 idx.toNat sub.toNat part 0 payload rt → nbit rt 1 = true → isEv s.dev.code idx.toNat sub.toNat = true →
    (part = true ∨ payload ≠ [0]) →
    Completes (.write r idx sub part payload) s (fun d =>
      d.Answered r (responseBytes r 2 idx.toNat sub.toNat part 0 (.refuse 2)) ∧ d.dict = s.dev.dict)) ∧
  (∀ (s : State) (r : Req) (idx : BitVec 16) (sub : Byte) (rt : Nat), s.dev.Serves r 2 idx.toNat sub.toNat false 0 [0] rt →
    nbit rt 1 = true → isEv s.dev.code idx.toNat sub.toNat = true →
    Completes (.evClear r idx sub true) { s with dev := s.dev.occur idx.toNat sub.toNat } (fun d =>
      d.ev idx.toNat sub.toNat = { pending := true, count := ((s.dev.ev idx.toNat sub.toNat).count + 1) % 2 ^ 32 })) ∧
  (∀ (d : Dev) (i j : Nat), (d.occur i j).ev i j = { pending := true, count := ((d.ev i j).count + 1) % 2 ^ 32 })

/-- R79. A write of [5000.02] below 200 µs or above half of the cycle period, and one of [5000.03] outside 1 to 3, is
refused and leaves the object as it was. -/
def Obligations.MarginRange : Prop :=
  (∀ (s : State) (r : Req) (part : Bool) (payload : List Byte) (rt : Nat), s.dev.Serves r 2 0x5000 2 part 0 payload rt →
    (beNat payload < 200 ∨ s.dev.cfg 0x5000 1 < 2 * beNat payload) →
    Completes (.write r 0x5000 2 part payload) s (fun d => (∃ x : Reply, x.status ≠ 0 ∧
      d.Answered r (responseBytes r 2 0x5000 2 part 0 x)) ∧ d.cfgList 0x5000 2 = s.dev.cfgList 0x5000 2)) ∧
  (∀ (s : State) (r : Req) (part : Bool) (payload : List Byte) (rt : Nat), s.dev.Serves r 2 0x5000 3 part 0 payload rt →
    (beNat payload < 1 ∨ 3 < beNat payload) →
    Completes (.write r 0x5000 3 part payload) s (fun d => (∃ x : Reply, x.status ≠ 0 ∧
      d.Answered r (responseBytes r 2 0x5000 3 part 0 x)) ∧ d.cfgList 0x5000 3 = s.dev.cfgList 0x5000 3))

/-- R409, R410, R515: a block transfer. BLOCK_START opens it, a segment at the next offset is kept and answered with the
offset after it, one at another offset is refused with the next offset, the last one of an act or token is answered once
the act is checked, and 5 s without a segment abort it. -/
def Obligations.BlockTransfer : Prop :=
  (∀ (s : State) (r : Req) (idx : BitVec 16) (sub : Byte) (total : Word) (rt : Nat) (row : DRow),
    s.dev.Serves r 3 idx.toNat sub.toNat false 0 (beBytes 8 total.toNat) rt → nbit rt 1 = true →
    objRow s.dev.code idx.toNat sub.toNat = some row → row.ty = .blobVar → row.acc ≠ .ro → s.dev.locked = false → r.length = 8 →
    ¬ (idx = 0xC010 ∧ sub = 2) → total ≠ 0 → s.dev.transferOf idx.toNat sub.toNat = none →
    Completes (.blockStart r idx sub total) s (fun d => d.Answered r (responseBytes r 3 idx.toNat sub.toNat false 0 (.good [])) ∧
      d.transferOf idx.toNat sub.toNat =
        some { idx := idx.toNat, sub := sub.toNat, port := r.port, total := total.toNat, got := [], tick := s.dev.tick })) ∧
  (∀ (s : State) (r : Req) (idx : BitVec 16) (sub : Byte) (off : BitVec 32) (seg : List Byte) (pkg : Option PkgContent) (rt : Nat) (x : Transfer),
    s.dev.Serves r 4 idx.toNat sub.toNat false off.toNat seg rt → nbit rt 1 = true → s.dev.locked = false →
    s.dev.transferOf idx.toNat sub.toNat = some x → seg ≠ [] → seg.length ≤ 1408 → off.toNat = x.got.length →
    x.got.length + seg.length < x.total →
    Completes (.blockData r idx sub off seg pkg) s (fun d =>
      d.Answered r (responseBytes r 4 idx.toNat sub.toNat false off.toNat
        { status := 0, reason := 0, expect := x.got.length + seg.length, data := [] }) ∧
      d.transferOf idx.toNat sub.toNat = some { x with got := x.got ++ seg, tick := s.dev.tick })) ∧
  (∀ (s : State) (r : Req) (idx : BitVec 16) (sub : Byte) (off : BitVec 32) (seg : List Byte) (pkg : Option PkgContent) (rt : Nat) (x : Transfer),
    s.dev.Serves r 4 idx.toNat sub.toNat false off.toNat seg rt → nbit rt 1 = true → s.dev.locked = false →
    s.dev.transferOf idx.toNat sub.toNat = some x → seg ≠ [] → seg.length ≤ 1408 → off.toNat ≠ x.got.length →
    Completes (.blockData r idx sub off seg pkg) s (fun d =>
      d.Answered r (responseBytes r 4 idx.toNat sub.toNat false off.toNat (refuseBlock 7 x.got.length)) ∧
      d.transferOf idx.toNat sub.toNat = some x)) ∧
  (∀ (s : State) (r : Req) (sub : Byte) (off : BitVec 32) (seg : List Byte) (pkg : Option PkgContent) (rt : Nat) (x : Transfer),
    s.dev.Serves r 4 0xA000 sub.toNat false off.toNat seg rt → nbit rt 1 = true → s.dev.locked = false →
    s.dev.transferOf 0xA000 sub.toNat = some x → seg ≠ [] → seg.length ≤ 1408 → off.toNat = x.got.length →
    x.got.length + seg.length = x.total →
    Completes (.blockData r 0xA000 sub off seg pkg) s (fun d => d.out = s.dev.out ∧
      d.palca.held.getLast? = some { req := r, content := [4, 0xA000, sub.toNat, 0, off.toNat] ++ byteNats seg, bytes := [], ticket := actTicket sub.toNat } ∧
      d.transferOf 0xA000 sub.toNat = some { x with got := x.got ++ seg, tick := s.dev.tick })) ∧
  (∀ (s : State) (idx : BitVec 16) (sub : Byte) (x : Transfer), s.dev.up = true → s.dev.transferOf idx.toNat sub.toNat = some x →
    x.got.length < x.total → x.tick + sTicks 5 ≤ s.dev.tick →
    Completes (.transferAborted idx sub) s (fun d => d.transferOf idx.toNat sub.toNat = none ∧ d.Reports 0x0D07 0))

/-- R411: subscriptions. A new one is added with the count it stands at, UNSUBSCRIBE ends those of its sender to the
object, a changed count is sent and remembered, and a lease that has run out ends its subscription. -/
def Obligations.Subscriptions : Prop :=
  (∀ (s : State) (r : Req) (idx : BitVec 16) (sub : Byte) (dport : BitVec 16) (rt : Nat),
    s.dev.Serves r 5 idx.toNat sub.toNat false 0 (beBytes 2 dport.toNat) rt → nbit rt 1 = true →
    isEv s.dev.code idx.toNat sub.toNat = true → r.port ≠ .spi → r.length = 2 → s.dev.palca.subs.length < 64 →
    s.dev.palca.subs.any (fun x => x.isFor r.addr (if dport = 0 then r.udp else dport) (okey idx.toNat sub.toNat)) = false →
    Completes (.subscribe r idx sub dport) s (fun d =>
      d.Answered r (responseBytes r 5 idx.toNat sub.toNat false 0 (.good [])) ∧
      d.palca.subs = s.dev.palca.subs ++ [{ port := r.port, addr := r.addr, dport := if dport = 0 then r.udp else dport, key := okey idx.toNat sub.toNat, renewed := s.dev.tick, sentCount := (s.dev.ev idx.toNat sub.toNat).count, sentTick := 0 }])) ∧
  (∀ (s : State) (r : Req) (idx : BitVec 16) (sub : Byte) (rt : Nat), s.dev.Serves r 6 idx.toNat sub.toNat false 0 [] rt → r.port ≠ .spi →
    Completes (.unsubscribe r idx sub) s (fun d => d.Answered r (responseBytes r 6 idx.toNat sub.toNat false 0 (.good [])) ∧
      ∀ x, x ∈ d.palca.subs ↔ x ∈ s.dev.palca.subs ∧ ¬ (x.addr = r.addr ∧ x.key = okey idx.toNat sub.toNat))) ∧
  (∀ (s : State) (i : Nat) (x : Sub), s.dev.up = true → s.dev.palca.subs[i]? = some x → s.dev.eventDue x = true →
    s.dev.palca.up.contains (portNo x.port) = true →
    Completes (.event i) s (fun d =>
      d.palca.subs[i]? = some { x with sentCount := (s.dev.ev (x.key / 256) (x.key % 256)).count, sentTick := s.dev.tick } ∧
      s.dev.Queues d .eventFrame (portNo x.port) ([x.addr.toNat, x.dport.toNat] ++ s.dev.eventBytes x.key))) ∧
  (∀ (s : State) (i : Nat) (x : Sub), s.dev.palca.subs[i]? = some x → x.renewed + sTicks (s.dev.cfg 0x1030 2) ≤ s.dev.tick →
    Completes (.subscriptionLeaseExpiry i) s (fun d => d.palca.subs = s.dev.palca.subs.eraseIdx i))

/-- R362, R417 to R420: a command of the safety channel that is good, in sequence and not too old is used: the watchdog
restarts, its demand ends, and the host's demand stands, tier 3 for an emergency stop; a copy changes nothing; a bad one
is reported. -/
def Obligations.SafetyChannel : Prop :=
  (∀ (s : State) (port : ReqPort) (f : HostFrame) (addr : BitVec 128) (pdu : List Byte) (rt : Nat), s.dev.Takes port addr f →
    s.dev.rightsOf port addr = some rt →
    s.dev.inRun = true → s.dev.cfg 0x7000 0x13 ≠ 0 → nbit rt 2 = true → s.dev.commandGood pdu = true →
    s.dev.seqCheck (BitVec.ofNat 16 (wfld (beWord pdu 0) 31 16)) = 0 → s.dev.hullCycle ≤ wfld (beWord pdu 2) 63 16 + 3 →
    Completes (.safetyCommand port f addr pdu) s (fun d => d.hull.cmdTick = s.dev.tick ∧ d.hull.watchdog = false ∧
      d.hull.cmdSeq = some (BitVec.ofNat 16 (wfld (beWord pdu 0) 31 16)) ∧ kget 0 d.hull.demands srcWatchdog = 0 ∧
      kget 0 d.hull.demands srcHost = (if wbit (beWord pdu 2) 7 then 3 else min 3 (wfld (beWord pdu 2) 15 8)) ∧
      (s.dev.Inv → wbit (beWord pdu 2) 7 = true → d.Stopped))) ∧
  (∀ (s : State) (port : ReqPort) (f : HostFrame) (addr : BitVec 128) (pdu : List Byte) (rt : Nat), s.dev.Takes port addr f →
    s.dev.rightsOf port addr = some rt →
    s.dev.inRun = true → s.dev.cfg 0x7000 0x13 ≠ 0 → nbit rt 2 = true → s.dev.commandGood pdu = true →
    s.dev.seqCheck (BitVec.ofNat 16 (wfld (beWord pdu 0) 31 16)) = 1 →
    Completes (.safetyCommand port f addr pdu) s (fun d => d = s.dev)) ∧
  (∀ (s : State) (port : ReqPort) (f : HostFrame) (addr : BitVec 128) (pdu : List Byte) (rt : Nat), s.dev.Takes port addr f →
    s.dev.rightsOf port addr = some rt →
    s.dev.inRun = true → s.dev.cfg 0x7000 0x13 ≠ 0 → (nbit rt 2 = false ∨ s.dev.commandGood pdu = false) →
    Completes (.safetyCommand port f addr pdu) s (fun d => d.Reports 0x0B0A 0 ∧ d.hull = s.dev.hull))

/-- R396 to R399, R410, R414, R544: the host ports. A written address takes force after its second; ARP, neighbour
discovery and echo are answered for the device's own addresses only; a link that goes down is reported, and its records
and transfers end; a cable test's result goes to the port's fault entry. -/
def Obligations.HostPorts : Prop :=
  (∀ (s : State) (p : Fin 2), Completes (.addressChangeEffect p) s (fun d => ∀ w, w ∈ s.dev.palca.waiting → w.1 / 256 = 0x1011 + p.val →
    w.2 ≤ s.dev.tick → kget [] d.palca.inForce w.1 = s.dev.cfgList (w.1 / 256) (w.1 % 256) ∧ w ∉ d.palca.waiting)) ∧
  (∀ (s : State) (p : Fin 2) (f : HostFrame) (target sender : BitVec 32), s.dev.portServed p.val = true → s.dev.ipv4 p.val ≠ 0 →
    s.dev.hostFilter p.val false (HostFrame.toAll f) = 0 →
    Completes (.arpRequest p f target sender) s (fun d => if target.toNat = s.dev.ipv4 p.val
      then s.dev.Queues d .arpReply p.val [target.toNat, s.dev.mac p.val, sender.toNat] else d = s.dev)) ∧
  (∀ (s : State) (p : Fin 2) (f : HostFrame) (target sender : BitVec 128), s.dev.portServed p.val = true →
    s.dev.hostFilter p.val false (HostFrame.toAll f) = 0 →
    Completes (.neighbourDiscovery p f target sender) s (fun d =>
      if target.toNat = linkLocal (s.dev.mac p.val) ∨ (s.dev.ipv6 p.val ≠ 0 ∧ target.toNat = s.dev.ipv6 p.val)
      then s.dev.Queues d .ndReply p.val [target.toNat, s.dev.mac p.val, sender.toNat] else d = s.dev)) ∧
  (∀ (s : State) (p : Fin 2) (f : HostFrame) (v6 : Bool) (sender : BitVec 128) (data : List Byte), s.dev.portServed p.val = true →
    (v6 = true ∨ s.dev.ipv4 p.val ≠ 0) → s.dev.hostFilter p.val (!v6) f = 0 →
    Completes (.echoRequest p f v6 sender data) s (fun d => if (s.dev.echoWindow p.val).1 < 100
      then s.dev.Queues d .echoReply p.val ([b2n v6, sender.toNat] ++ byteNats data) else d = s.dev)) ∧
  (∀ (s : State) (p : Fin 2), s.dev.up = true → Completes (.hostLinkUp p) s (fun d => p.val ∈ d.palca.up)) ∧
  (∀ (s : State) (p : Fin 2), s.dev.portServed p.val = true →
    Completes (.hostLinkDown p) s (fun d => p.val ∉ d.palca.up ∧ (∀ x, x ∈ d.palca.sending → x.port ≠ p.val) ∧
      ∀ x, x ∈ d.palca.transfers → portNo x.port = p.val → x.got.length = x.total)) ∧
  (∀ (s : State) (p : Fin 6) (code : Fin 4) (distance : BitVec 16) (e : LogEntry) (t : List LogEntry), s.dev.log.entries = e :: t → s.dev.portDown p.val = true →
    e.cause = (if p.val < 2 then 0x0D05 else 0x0204) → e.inst = (if p.val < 2 then p.val else p.val - 2) →
    Completes (.cableTest p code distance) s (fun d =>
      d.log.entries = { e with detail := packN [(8, code.val), (24, 0), (16, distance.toNat)] } :: t))

/-- R250, R399, R413, R414, R421 to R423: what the SPI target port and the streams return. STATUS gives the status byte; a
frame that is complete runs as the request it carries and a bad one is reported; READ_FRAME gives the waiting status PDU,
else the oldest response; READ_STREAM and FRAGMENT_TRANSMIT give a record's next fragment, after which the waiting service
frames go, and READ_EVENTS the changed events. -/
def Obligations.SpiAndStreams : Prop :=
  (∀ s : State, s.dev.up = true → Completes .status s (fun d => d.palca.spiOverflow = false ∧
    d.out = { kind := .spiReply, unit := 0, tag := 0, data := [s.dev.spiStatusByte] } :: s.dev.out)) ∧
  (∀ (s : State) (bytes : List Byte) (pkg : Option PkgContent) (known : Bool), s.dev.up = true → (known = false ∨ spiPayload bytes = none) →
    Completes (.writeFrame bytes pkg known) s (fun d => d.Reports 0x0D08 0 ∧ d.palca = s.dev.palca)) ∧
  (∀ (s : State) (bytes frame : List Byte) (pkg : Option PkgContent), s.dev.up = true → spiPayload bytes = some frame →
    beNat (frame.take 2) = 0x5346 →
    Completes (.writeFrame bytes pkg true) s (fun d => exec (.safetyCommand .spi .plain 0 frame) s = .next { s with dev := d })) ∧
  (∀ (s : State) (bytes frame : List Byte) (pkg : Option PkgContent), s.dev.up = true → spiPayload bytes = some frame →
    beNat (frame.take 2) ≠ 0x5346 → 24 ≤ frame.length →
    Completes (.writeFrame bytes pkg true) s (fun d =>
      let w := beWord frame 1
      let idx := BitVec.ofNat 16 (wfld w 63 48)
      let sub := BitVec.ofNat 8 (wfld w 47 40)
      (wfld (beWord frame 0) 39 32 = 1 →
        exec (.read (spiReq frame) idx sub (wbit w 32) (BitVec.ofNat 32 (wfld w 31 0))) s = .next { s with dev := d }) ∧
      (wfld (beWord frame 0) 39 32 = 2 →
        exec (.write (spiReq frame) idx sub (wbit w 32) (frame.drop 24)) s = .next { s with dev := d }))) ∧
  (∀ (s : State) (x : List Nat), s.dev.up = true → s.dev.palca.spiStatus = some x →
    Completes .readFrame s (fun d => d.palca.spiStatus = none ∧ d.palca.spiQueue = s.dev.palca.spiQueue ∧
      d.out = { kind := .spiReply, unit := 1, tag := 0, data := spiFrame (natBytes x) } :: s.dev.out)) ∧
  (∀ (s : State) (x : List Nat) (t : List (List Nat)), s.dev.up = true → s.dev.palca.spiStatus = none → s.dev.palca.spiQueue = x :: t →
    Completes .readFrame s (fun d => d.palca.spiQueue = t ∧
      d.out = { kind := .spiReply, unit := 1, tag := 0, data := spiFrame (natBytes x) } :: s.dev.out)) ∧
  (∀ (s : State) (n : Fin 64) (r : OutRecord), s.dev.up = true →
    s.dev.palca.sending.find? (fun x => x.stream == n.val && x.port == 2) = some r → r.stamped = true →
    Completes (.readStream n) s (fun d => d.out = { kind := .spiReply, unit := 2, tag := 0, data := spiFrame r.fragment } :: s.dev.out ∧
      d.palca.sending.any (fun x => x.stream == n.val && x.port == 2) = decide (r.next + 1 < fragCount r.data.length))) ∧
  (∀ (s : State) (n : Fin 64), s.dev.up = true → s.dev.palca.sending.find? (fun x => x.stream == n.val && x.port == 2) = none →
    Completes (.readStream n) s (fun d => d.out = { kind := .spiReply, unit := 2, tag := 0, data := spiFrame [] } :: s.dev.out)) ∧
  (∀ (s : State) (p : Fin 3) (r : OutRecord), p.val < 2 → s.dev.nextRecord p.val = some r → r.stamped = true → r.port = p.val →
    s.dev.palca.sending.find? (fun x => x.stream == r.stream && x.port == r.port) = some r →
    Completes (.fragmentTransmit p) s (fun d => d.out = (if d.palca.sending.any (fun x => x.port == p.val) then []
        else (s.dev.palca.waitingOut.filter (fun x => x.unit == p.val)).reverse) ++
      { kind := .fragment, unit := p.val, tag := s.dev.hostTag p.val 2, data := s.dev.cfgList (0x1100 + r.stream) 4 ++ [s.dev.cfg (0x1100 + r.stream) 5] ++ byteNats r.fragment } :: s.dev.out)) ∧
  (∀ s : State, s.dev.up = true → Completes .readEvents s (fun d =>
    d.out = { kind := .spiReply, unit := 3, tag := 0, data := byteNats (beBytes 8 s.dev.changedMask) } :: s.dev.out ∧
    ∀ k, k ∈ s.dev.mappedEvents → kget 0 d.palca.spiCounts k = (s.dev.ev (k / 256) (k % 256)).count))

/-- R436, R445, R446: state requests. A request for HUSK, STANDBY or READY becomes the target and, out of RUN, lets no
further instant come; one for RUN becomes the target only where every check of R445 passes, else its cause is the answer.
-/
def Obligations.StateRequests : Prop :=
  (∀ (s : State) (r : Req) (v : Nat) (c : Instr) (st : PowerState),
    (v = 1 ∧ c = .stateRequestHusk r ∧ st = .husk ∨ v = 2 ∧ c = .stateRequestStandby r ∧ st = .standby ∨
      v = 3 ∧ c = .stateRequestReady r ∧ st = .ready) →
    s.dev.TakesWrite r 0x2000 2 false [BitVec.ofNat 8 v] → s.dev.pastStep8 = true → s.dev.power.target = none → s.dev.power.state ≠ st →
    Completes c s (fun d => d.power.target = some st ∧ d.power.state = s.dev.power.state ∧ (s.dev.inRun = true → d.cyc.next = none) ∧
      d.Answered r (responseBytes r 2 0x2000 2 false 0 (.good [])))) ∧
  (∀ (s : State) (r : Req), s.dev.TakesWrite r 0x2000 2 false [4] → s.dev.pastStep8 = true → s.dev.power.target = none →
    s.dev.inRun = false → s.dev.runRefusal = none →
    Completes (.stateRequestRun r) s (fun d => d.power.target = some .run ∧ d.power.state = s.dev.power.state ∧
      d.Answered r (responseBytes r 2 0x2000 2 false 0 (.good [])))) ∧
  (∀ (s : State) (r : Req) (x : Nat), s.dev.TakesWrite r 0x2000 2 false [4] → s.dev.pastStep8 = true → s.dev.power.target = none →
    s.dev.inRun = false → s.dev.runRefusal = some x →
    Completes (.stateRequestRun r) s (fun d => d.power.target = none ∧
      d.Answered r (responseBytes r 2 0x2000 2 false 0 (.cause x)) ∧ (x / 256 ≠ 0x0D → d.Reports x 0))) ∧
  (∀ (s : State) (r : Req), s.dev.TakesWrite r 0x2000 2 false [4] → (s.dev.pastStep8 = false ∨ s.dev.power.target ≠ none) →
    Completes (.stateRequestRun r) s (fun d => d.power = s.dev.power ∧
      d.Answered r (responseBytes r 2 0x2000 2 false 0 (.refuse 6))))

/-- R91, R162, R187, R378, R444, R446: the legs of a transition. Each takes the device one state on towards its target;
READY to STANDBY takes the core rails off once no Pod works; READY to RUN sets the first instant and generation 0; out of
RUN the outputs are stopped; no leg runs while a package is being activated. -/
def Obligations.StateTransitions : Prop :=
  (∀ s : State, s.dev.power.state = .standby → s.dev.power.target = some .husk →
    s.dev.prog.activating = none →
    Completes .stateTransitionComplete s (fun d => d.power.state = .husk)) ∧
  (∀ s : State, s.dev.power.state = .standby → s.dev.power.target = some .ready →
    s.dev.prog.activating = none →
    Completes .stateTransitionComplete s (fun d => d.power.state = .ready ∧ d.power.target = none ∧ d.power.enCore = true ∧
      d.ddr.selfRefresh = false)) ∧
  (∀ s : State, s.dev.power.state = .ready → s.dev.power.target = some .standby →
    s.dev.prog.activating = none → s.dev.anyBusy = false →
    Completes .stateTransitionComplete s (fun d => d.power.state = .standby ∧ d.power.target = none ∧ d.power.enCore = false ∧
      d.ddr.selfRefresh = true)) ∧
  (∀ s : State, s.dev.power.state = .ready → s.dev.power.target = some .run → s.dev.cyc.next = none → s.dev.start.step ≠ some 11 →
    s.dev.runRefusal = none → s.dev.prog.activating = none →
    Completes .stateTransitionComplete s (fun d => d.cyc.next = some s.dev.firstInstant ∧ d.hull.g = 0 ∧ d.hull.zones = 0 ∧
      d.hull.pairTiers = [] ∧ d.power = s.dev.power)) ∧
  (∀ s : State, s.dev.power.state = .run → s.dev.power.target = some .ready → s.dev.cyc.flight = [] →
    s.dev.prog.activating = none → s.dev.anyBusy = false →
    Completes .stateTransitionComplete s (fun d => d.power.state = .ready ∧ d.power.target = none ∧ d.Stopped ∧ d.hull.stopCause = 0)) ∧
  (∀ s : State, (s.dev.power.target = none ∨ s.dev.prog.activating.isSome = true) →
    Completes .stateTransitionComplete s (fun d => d = s.dev))

/-- R225, R237, R242, R432, R433, R437: requests with an effect of their own. A reset request resets the device with kind
3; the response to a persisted object waits for its journal entry (R405); defaults are restored in READY; a mask that has
been earned back is lifted at the next commit and any other request reported; a new reference zeroes the correction and a
new geometry is taken at the next commit; supplies follow their enables. -/
def Obligations.OwnWrites : Prop :=
  (∀ (s : State) (r : Req) (v : Byte), s.dev.takesWrite r 0x2000 5 false [v] = true →
    Completes (.resetRequest r v) s (fun d => d.power.state = .husk ∧ d.power.resetKind = 3 ∧ d.start.due = true)) ∧
  (∀ (s : State) (r : Req) (v : Byte), s.dev.TakesWrite r 0x2000 6 false [v] → s.dev.inReady = true →
    Completes (.restoreDefaults r v) s (fun d => d.Answered r (responseBytes r 2 0x2000 6 false 0 (.good [])) ∧
      ∀ idx sub row, sub < 256 → objRow s.dev.code idx sub = some row → (row.acc = .rwr ∨ row.acc = .rwp) → row.dflt ≠ .package →
        keepsValue idx sub = false → d.cfgList idx sub = dfltVal s.dev.code idx sub)) ∧
  (∀ (s : State) (r : Req) (n : Fin 16) (v : Byte), s.dev.TakesWrite r 0x5203 (n.val + 1) false [v] →
    Completes (.unmaskRequest r n v) s (fun d =>
      if (s.dev.fusC.slotHealth n.val).masked = true ∧ s.dev.cfg 0x5200 0x15 ≤ (s.dev.fusC.slotHealth n.val).unmask then
        n.val ∈ d.fus.unmaskReq ∧ d.Answered r (responseBytes r 2 0x5203 (n.val + 1) false 0 (.good []))
      else d.fus = s.dev.fus ∧ d.Reports 0x0706 n.val ∧ d.Answered r (responseBytes r 2 0x5203 (n.val + 1) false 0 (.cause 0x0706)))) ∧
  (∀ (s : State) (r : Req) (n : Fin 16) (sub : Byte) (payload : List Byte), (sub = 1 ∨ sub = 2 ∨ sub = 0x0E) →
    s.dev.TakesWrite r (0x5100 + n.val) sub.toNat false payload →
    Completes (.resetCorrection r n sub payload) s (fun d => n.val ∈ d.fus.zeroReq ∧
      (sub = 0x0E → d.Answered r (responseBytes r 2 (0x5100 + n.val) sub.toNat false 0 (.good []))) ∧
      (sub ≠ 0x0E → d.cfgList (0x5100 + n.val) sub.toNat = wireValue s.dev.code (0x5100 + n.val) sub.toNat payload ∧
        d.Awaits r ([2, 0x5100 + n.val, sub.toNat, 0, 0] ++ byteNats payload)
          (responseBytes r 2 (0x5100 + n.val) sub.toNat false 0 (.good []))))) ∧
  (∀ (s : State) (r : Req) (sub : Byte) (payload : List Byte), (sub = 2 ∨ sub = 5 ∨ sub = 6) →
    s.dev.TakesWrite r 0x5010 sub.toNat false payload →
    Completes (.gridGeometryWrite r sub payload) s (fun d => d.fus.geometry = true ∧
      d.cfgList 0x5010 sub.toNat = wireValue s.dev.code 0x5010 sub.toNat payload ∧
      d.Answered r (responseBytes r 2 0x5010 sub.toNat false 0 (.good [])))) ∧
  (∀ s : State, s.dev.up = true → s.dev.fus.savedAt + sTicks 600 ≤ s.dev.tick →
    Completes .calibrationPersist s (fun d => d.fus.savedCalib = s.dev.fusC.calib ∧ d.fus.savedAt = s.dev.tick)) ∧
  (∀ (s : State) (r : Req) (n : Fin 16) (v : Byte), s.dev.TakesWrite r 0x3300 (n.val + 1) false [v] →
    Completes (.supplyEnable r n v) s (fun d => d.cfg 0x3300 (n.val + 1) = v.toNat ∧
      d.Awaits r [2, 0x3300, n.val + 1, 0, 0, v.toNat] (responseBytes r 2 0x3300 (n.val + 1) false 0 (.good []))))

/-- R183, R186 to R190: program packages (log 67). A slot is named for a load, activated and confirmed only where R186
allows it, else 0x0F4B; an activation whose nine checks pass runs as TRIAL, one whose check fails leaves the running
package; the minimum security version is only raised. -/
def Obligations.Packages : Prop :=
  (∀ (s : State) (r : Req) (v : Byte), s.dev.TakesWrite r 0xC010 1 false [v] →
    Completes (.loadSlot r v) s (fun d => if v.toNat < 2 ∧ s.dev.loadFits v.toNat = true
      then d.prog.loadSlot = some v.toNat ∧ d.Answered r (responseBytes r 2 0xC010 1 false 0 (.good []))
      else d.prog = s.dev.prog ∧ d.Reports 0x0F4B 0 ∧ d.Answered r (responseBytes r 2 0xC010 1 false 0 (.cause 0x0F4B)))) ∧
  (∀ (s : State) (r : Req) (v : Byte), s.dev.TakesWrite r 0xC000 4 false [v] →
    Completes (.activate r v) s (fun d =>
      if s.dev.inReady = true ∧ v.toNat < 2 ∧
        ((s.dev.pkgSlot v.toNat).state = .verified ∨ (s.dev.pkgSlot v.toNat).state = .fallback) ∧ s.dev.prog.activating = none
      then d.prog.activating = some v.toNat ∧ d.cyc.next = none ∧
        d.power.target = (if s.dev.power.target = some .run then none else s.dev.power.target) ∧ d.Answered r (responseBytes r 2 0xC000 4 false 0 (.good []))
      else d.prog = s.dev.prog ∧ d.Reports 0x0F4B 0 ∧ d.Answered r (responseBytes r 2 0xC000 4 false 0 (.cause 0x0F4B)))) ∧
  (∀ (s : State) (k : Nat) (p : Package), s.dev.prog.activating = some k → s.dev.inReady = true → (s.dev.pkgSlot k).pkg = some p →
    s.dev.pkgCheck p 9 = none →
    Completes .activationComplete s (fun d => d.prog.activating = none ∧ d.prog.active = some k ∧ d.prog.prog = some p ∧
      (d.pkgSlot k).state = .trial ∧ d.prog.selTrial = some k)) ∧
  (∀ (s : State) (k x : Nat) (p : Package), s.dev.prog.activating = some k → s.dev.inReady = true → (s.dev.pkgSlot k).pkg = some p →
    s.dev.pkgCheck p 9 = some x →
    Completes .activationComplete s (fun d => d.prog.activating = none ∧ d.prog.active = s.dev.prog.active ∧ d.prog.prog = s.dev.prog.prog ∧
      (d.pkgSlot k).state = .refused ∧ (d.pkgSlot k).cause = x ∧ d.Reports x k)) ∧
  (∀ (s : State) (r : Req) (k : Nat), s.dev.TakesWrite r 0xC000 5 false [1] → s.dev.prog.selTrial = some k →
    (s.dev.pkgSlot k).state = .trial → s.dev.prog.committed = true →
    Completes (.confirm r 1) s (fun d => (d.pkgSlot k).state = .active ∧ d.prog.selActive = some k ∧ d.prog.selTrial = none ∧
      d.Answered r (responseBytes r 2 0xC000 5 false 0 (.good [])))) ∧
  (∀ (s : State) (r : Req) (v : Byte), s.dev.TakesWrite r 0xC000 5 false [v] → (s.dev.prog.committed = false ∨ v ≠ 1) →
    Completes (.confirm r v) s (fun d => d.prog = s.dev.prog ∧ d.Reports 0x0F4B 0 ∧
      d.Answered r (responseBytes r 2 0xC000 5 false 0 (.cause 0x0F4B)))) ∧
  (∀ (s : State) (r : Req) (v : BitVec 32), s.dev.TakesWrite r 0xC000 7 false (beBytes 4 v.toNat) →
    Completes (.minimumSecurityVersion r v) s (fun d => if v.toNat < s.dev.cfg 0xC000 7
      then d.cfg 0xC000 7 = s.dev.cfg 0xC000 7 ∧ d.Reports 0x0F4B 0 ∧ d.Answered r (responseBytes r 2 0xC000 7 false 0 (.cause 0x0F4B))
      else d.cfg 0xC000 7 = v.toNat ∧ d.Awaits r ([2, 0xC000, 7, 0, 0] ++ byteNats (beBytes 4 v.toNat)) (responseBytes r 2 0xC000 7 false 0 (.good []))))

/-- R442, R507, R515 to R520: the attestation key and its leaves. An accepted nonce starts a signature, which waits for a
seal that is due; the message is released once the unit has verified it, and each signature takes the next leaf; a
reservation that was lost is tried again every second, as a new record of the control area. -/
def Obligations.Attestation : Prop :=
  (∀ (s : State) (r : Req) (nonce : List Byte), s.dev.TakesWrite r 0xA000 2 false nonce → s.dev.nonceRefused = true →
    Completes (.attestationNonce r nonce) s (fun d => d.sec = s.dev.sec ∧ d.Answered r (responseBytes r 2 0xA000 2 false 0 (.refuse 6)))) ∧
  (∀ (s : State) (r : Req) (nonce : List Byte), s.dev.TakesWrite r 0xA000 2 false nonce → s.dev.nonceRefused = false →
    Completes (.attestationNonce r nonce) s (fun d => d.sec.nonceTick = some s.dev.tick ∧
      d.sec.nonce = some (BitVec.ofNat 256 (beNat (natBytes (wireValue s.dev.code 0xA000 2 nonce)))) ∧
      (s.dev.recd.sealing = none → d.sec.signing.map Prod.fst = some false) ∧ (s.dev.recd.sealing.isSome = true → d.sec.waiting.isSome = true) ∧
      d.Answered r (responseBytes r 2 0xA000 2 false 0 (.good [])))) ∧
  (∀ (s : State) (body : List Byte) (l : Nat), s.dev.sec.signing = some (false, body) → s.dev.usableLeaf = some l →
    Completes (.attestationSignatureComplete true) s (fun d => d.sec.message = body ++ s.dev.signature body l ∧ d.sec.signing = none ∧
      d.sec.leaf = l + 1)) ∧
  (∀ (s : State) (body : List Byte) (l : Nat), s.dev.sec.signing = some (false, body) → s.dev.usableLeaf = some l →
    Completes (.attestationSignatureComplete false) s (fun d => d.sec.message = s.dev.sec.message ∧ d.sec.traversal = true ∧
      d.usableLeaf = none ∧ d.sec.leaf = l + 1)) ∧
  (∀ s : State, Completes .traversalStateRecompute s (fun d => d.sec.traversal = false)) ∧
  (∀ (s : State) (b : Nat), s.dev.sec.failed = true → s.dev.sec.retryTick + sTicks 1 ≤ s.dev.tick → s.dev.sec.reserving = some b →
    s.dev.lowestBlock ≤ b → b < 2 ^ 28 →
    Completes (.leafReservationRetry true) s (fun d => d.sec.failed = false ∧ d.sec.reserving = some b ∧ d.sec.retryTick = s.dev.tick ∧
      d.recd.jseq = (s.dev.recd.jseq + 1) % 2 ^ 32 ∧ d.recd.control.head?.map (fun e => (e.key, e.value)) = some (ctlReservation, [b]))) ∧
  (∀ s : State, s.dev.sec.failed = true → s.dev.sec.retryTick + sTicks 1 ≤ s.dev.tick → s.dev.up = true →
    Completes (.leafReservationRetry false) s (fun d => d.Reports 0x1104 0 ∧ d.sec = { s.dev.sec with retryTick := s.dev.tick }))

/-- R405, R513 to R515, R521, R522, R551: signed acts and tokens. A complete block transfer whose KIND is the command's is
checked; one that passes every check of R515 has its effect and uses up the nonce: the fingerprint is commissioned, the
partner bound, the key revoked, debug unlocked; one that fails has none. The response to its last segment goes then, or
with the journal entry that holds the effect. -/
def Obligations.SignedActs : Prop :=
  (∀ (s : State) (t : Transfer) (sig : Bool), s.dev.actTransfer 7 = some t → otherKind 7 1 (actBody t.got) = false →
    s.dev.actCheck 1 (actBody t.got) t.total sig = none →
    Completes (.commissioningAct sig) s (fun d => d.sec.commissioned = s.dev.sec.fingerprint ∧ d.sec.nonce = none ∧
      d.actTransfer 7 = none ∧ ∀ h, h ∈ s.dev.palca.held → h.ticket = actTicket 7 →
        { h with bytes := responseBytes h.req 4 0xA000 7 false (h.content.getD 4 0) (.good []), ticket := d.recd.jseq } ∈ d.palca.held)) ∧
  (∀ (s : State) (t : Transfer) (sig : Bool), s.dev.actTransfer 7 = some t → otherKind 7 2 (actBody t.got) = false →
    s.dev.actCheck 2 (actBody t.got) t.total sig = none →
    Completes (.partnerBindingAct sig) s (fun d => d.sec.partner = val256 (actBody t.got) 10 ∧ d.sec.nonce = none ∧
      d.actTransfer 7 = none ∧ ∀ h, h ∈ s.dev.palca.held → h.ticket = actTicket 7 →
        { h with bytes := responseBytes h.req 4 0xA000 7 false (h.content.getD 4 0) (.good []), ticket := d.recd.jseq } ∈ d.palca.held)) ∧
  (∀ (s : State) (t : Transfer) (sig : Bool), s.dev.actTransfer 7 = some t → otherKind 7 3 (actBody t.got) = false →
    s.dev.actCheck 3 (actBody t.got) t.total sig = none →
    Completes (.keyRevocationAct sig) s (fun d => d.keyValid (wfld (wat (actBody t.got) 10) 7 0) = false ∧ d.sec.nonce = none ∧
      d.actTransfer 7 = none ∧ ∀ h, s.dev.palca.held.filter (fun h => h.ticket == actTicket 7) = [h] → s.dev.repeatOf h.req h.content = none →
        d.Answered h.req (responseBytes h.req 4 0xA000 7 false (h.content.getD 4 0) (.good [])))) ∧
  (∀ (s : State) (t : Transfer) (sig : Bool), s.dev.up = true → s.dev.actTransfer 0x0B = some t → otherKind 0x0B 4 (actBody t.got) = false →
    s.dev.actCheck 4 (actBody t.got) t.total sig = none →
    Completes (.debugUnlockToken sig) s (fun d => d.sec.debug = true ∧ d.sec.scope = wfld (wat (actBody t.got) 10) 3 0 ∧ d.sec.nonce = none ∧
      d.Reports 0x1106 0 ∧ d.actTransfer 0x0B = none ∧
      ∀ h, s.dev.palca.held.filter (fun h => h.ticket == actTicket 0x0B) = [h] → s.dev.repeatOf h.req h.content = none →
        d.Answered h.req (responseBytes h.req 4 0xA000 0x0B false (h.content.getD 4 0) (.good [])))) ∧
  (∀ (s : State) (c : Instr) (sub kind : Nat) (t : Transfer) (sig : Bool),
    (c = .commissioningAct sig ∧ sub = 7 ∧ kind = 1 ∨ c = .partnerBindingAct sig ∧ sub = 7 ∧ kind = 2 ∨
      c = .keyRevocationAct sig ∧ sub = 7 ∧ kind = 3 ∨ c = .debugUnlockToken sig ∧ sub = 0x0B ∧ kind = 4) →
    s.dev.actTransfer sub = some t →
    (otherKind sub kind (actBody t.got) = true → Completes c s (fun d => d = s.dev)) ∧
    (∀ x : Reply, otherKind sub kind (actBody t.got) = false → s.dev.actCheck kind (actBody t.got) t.total sig = some x →
      Completes c s (fun d => d.sec = s.dev.sec ∧ d.actTransfer sub = none ∧
        (x.status / 256 = 0x11 → s.dev.up = true → d.Reports x.status 0) ∧
        ∀ h, s.dev.palca.held.filter (fun h => h.ticket == actTicket sub) = [h] → s.dev.repeatOf h.req h.content = none →
          d.Answered h.req (responseBytes h.req 4 0xA000 sub false (h.content.getD 4 0) x))))

/-- R388, R465, R510, R522: JTAG. An empty key slot takes its key while the lifecycle fuse is open; closing burns it, once
a slot is valid; EXTEST forces the stop pins low; a debug reset has kind 5. -/
def Obligations.JtagInstructions : Prop :=
  (∀ (s : State) (k : Fin 4) (key : List Byte), s.dev.up = true → s.dev.sec.field = false → s.dev.sec.valid.contains k.val = false →
    Completes (.otpProgram k key) s (fun d => kget [] d.sec.keys k.val = key ∧ k.val ∈ d.sec.valid)) ∧
  (∀ (s : State) (k : Fin 4) (key : List Byte), s.dev.sec.field = true ∨ s.dev.sec.valid.contains k.val = true →
    Completes (.otpProgram k key) s (fun d => d = s.dev)) ∧
  (∀ s : State, s.dev.up = true → s.dev.sec.valid ≠ [] → Completes .otpClose s (fun d => d.sec.field = true)) ∧
  (∀ s : State, s.dev.sec.valid = [] → Completes .otpClose s (fun d => d = s.dev)) ∧
  (∀ (s : State) (i : Bool), s.dev.up = true → s.dev.sec.debug = true → nbit s.dev.sec.scope 2 = true →
    Completes (.extest i) s (fun d => d.hull.override = true ∧ d.pinHigh false = false ∧ d.pinHigh true = false)) ∧
  (∀ s : State, s.dev.up = true → s.dev.sec.debug = true →
    Completes .debugReset s (fun d => d.power.state = .husk ∧ d.power.resetKind = 5 ∧ d.start.due = true ∧ d.sec.debug = false))

/-- R405, R483, R485, R489 to R497: the NAND. Each LUN serves its work one at a time; a program is read back, and of a
journal copy B is programmed after copy A, and its response goes with copy B; reads count and queue refreshes; a failed
program or erase, and a second time-out of one, retires its block; a lost codeword is reported; a refresh moves the
block's data; the timed scans fall due at their intervals. -/
def Obligations.NandUpkeep : Prop :=
  (∀ (s : State) (p : NandPlace) (bits : Nat) (ok : Bool), s.dev.up = true → s.dev.serveNand.runningOn (s.dev.lunOf p.block) = none →
    bits ≤ 60 → (s.dev.block p.block).reads + 1 < 100000 →
    Completes (.nandOperationComplete p (.read [.hard bits]) ok) s (fun d => (d.block p.block).reads = (s.dev.block p.block).reads + 1 ∧
      d.recd.refresh = s.dev.recd.refresh)) ∧
  (∀ (s : State) (p : NandPlace) (ok : Bool), s.dev.up = true → s.dev.serveNand.runningOn (s.dev.lunOf p.block) = none →
    4 ≤ s.dev.recd.pageKiB → s.dev.recd.readRetry = true →
    Completes (.nandOperationComplete p (.read [.soft]) ok) s (fun d => d.recd.refresh.head? = some (p.block, 1) ∧ d.Reports 0x1002 0)) ∧
  (∀ (s : State) (p : NandPlace) (ok : Bool), s.dev.up = true → s.dev.serveNand.runningOn (s.dev.lunOf p.block) = none →
    4 ≤ s.dev.recd.pageKiB →
    Completes (.nandOperationComplete p (.read [.missing]) ok) s (fun d => d.Reports 0x1001 0)) ∧
  (∀ (s : State) (p : NandPlace) (w : NandWork) (ok : Bool), s.dev.up = true →
    s.dev.serveNand.runningOn (s.dev.lunOf p.block) = some w → w.place = p → w.kind = .erase →
    Completes (.nandOperationComplete p .erased ok) s (fun d => (d.block p.block).held = false ∧ (d.block p.block).reads = 0 ∧
      (d.block p.block).erases = (s.dev.block p.block).erases + 1)) ∧
  (∀ (s : State) (p : NandPlace) (w : NandWork) (ok : Bool), s.dev.up = true →
    s.dev.serveNand.runningOn (s.dev.lunOf p.block) = some w → w.place = p → w.kind = .program → 4 ≤ s.dev.recd.pageKiB →
    Completes (.nandOperationComplete p .done ok) s (fun d => d.runningOn (s.dev.lunOf p.block) = some { w with kind := .readBack } ∧
      d.pageReads p.block p.page = true)) ∧
  (∀ (s : State) (p : NandPlace) (w : NandWork) (l : List CwOutcome) (ok : Bool), s.dev.up = true →
    s.dev.serveNand.runningOn (s.dev.lunOf p.block) = some w → w.place = p → w.kind = .readBack → allHard l = true →
    (p.area = .ring → w.ticket = 0 →
      Completes (.nandOperationComplete p (.read l) ok) s (fun d => d.recd.staged = s.dev.recd.staged - w.bytes)) ∧
    (p.area ≠ .ring → w.ticket ≠ 0 → p.copy = 0 →
      Completes (.nandOperationComplete p (.read l) ok) s (fun d => ∃ x : NandWork,
        (x ∈ d.recd.work ∨ ∃ lun, d.runningOn lun = some x) ∧ x.kind = .program ∧ x.ticket = w.ticket ∧ x.place.area = p.area ∧ x.place.copy = 1)) ∧
    (p.area ≠ .ring → w.ticket ≠ 0 → p.copy = 1 →
      Completes (.nandOperationComplete p (.read l) ok) s (fun d => ∀ h, h ∈ d.palca.held → h.ticket ≠ w.ticket))) ∧
  (∀ (s : State) (p : NandPlace) (w : NandWork) (ok : Bool), s.dev.up = true →
    s.dev.serveNand.runningOn (s.dev.lunOf p.block) = some w → w.place = p → (w.kind = .program ∨ w.kind = .erase) →
    (s.dev.block p.block).bad = false →
    Completes (.nandOperationComplete p .failed ok) s (fun d => (d.block p.block).bad = true ∧ d.recd.bad = s.dev.recd.bad + 1)) ∧
  (∀ (s : State) (p : NandPlace) (ok : Bool), s.dev.up = true → s.dev.serveNand.runningOn (s.dev.lunOf p.block) = none →
    (s.dev.recd.lateReads.contains p = false →
      Completes (.nandTimeout p ok) s (fun d => d.Reports 0x1007 0 ∧ p ∈ d.recd.lateReads ∧ d.recd.blocks = s.dev.recd.blocks)) ∧
    (s.dev.recd.lateReads.contains p = true → 4 ≤ s.dev.recd.pageKiB → Completes (.nandTimeout p ok) s (fun d => d.Reports 0x1001 0))) ∧
  (∀ (s : State) (p : NandPlace) (w : NandWork) (ok : Bool), s.dev.up = true →
    s.dev.serveNand.runningOn (s.dev.lunOf p.block) = some w → w.place = p →
    (w.retried = false → Completes (.nandTimeout p ok) s (fun d => d.Reports 0x1007 0 ∧
      d.runningOn (s.dev.lunOf p.block) = some { w with retried := true })) ∧
    (w.retried = true → (s.dev.block p.block).bad = false →
      Completes (.nandTimeout p ok) s (fun d => (d.block p.block).bad = true))) ∧
  (∀ (s : State) (b n : Nat) (q : Nat × Nat), s.dev.up = true → s.dev.serveNand.refreshTurn b = some q →
    s.dev.serveNand.leastWorn (s.dev.serveNand.targets b) = some n →
    Completes (.blockRefresh b) s (fun d => (∀ x, x ∈ d.recd.refresh → x.1 ≠ b) ∧ (∀ x, x ∈ d.recd.pages → x.1 / 2 ^ 16 ≠ b) ∧
      (d.block n).held = (s.dev.block b).held ∧ d.Reports 0x1005 0)) ∧
  (∀ s : State, s.dev.up = true → s.dev.recd.lastJournal + sTicks 600 ≤ s.dev.tick →
    Completes .readCountJournal s (fun d => d.recd.lastJournal = s.dev.tick ∧ d.recd.jseq = (s.dev.recd.jseq + 1) % 2 ^ 32 ∧
      d.recd.control.head?.map (fun e => (e.key, e.value)) = some (ctlReads, s.dev.recd.blocks.flatMap (fun x => [x.1, x.2.reads])))) ∧
  (∀ (s : State) (aged soft : List Nat), s.dev.up = true → s.dev.recd.lastScan + sTicks (168 * 3600) ≤ s.dev.tick →
    Completes (.retentionScan aged soft) s (fun d => d.recd.lastScan = s.dev.tick ∧
      ∀ b, (b ∈ aged ∨ b ∈ soft) → ∃ x, x ∈ d.recd.refresh ∧ x.1 = b)) ∧
  (∀ s : State, s.dev.up = true → s.dev.recd.lastWear + sTicks (24 * 3600) ≤ s.dev.tick →
    Completes .wearLevelling s (fun d => d.recd.lastWear = s.dev.tick)) ∧
  (∀ (s : State) (k : Fin 8), s.dev.hull.firstCommit = true → Completes (.firmwareCopyRepair k) s (fun d => k.val ∉ d.start.repair))

/-- R503, R504, R517 to R519: the recorder's segments. A segment ends a minute after the last; its seal, signed with the
next leaf or zeros where none is usable, goes behind its records, and what is staged goes to the NAND. -/
def Obligations.Segments : Prop :=
  (∀ s : State, s.dev.up = true → s.dev.recd.segTick + sTicks 60 ≤ s.dev.tick → s.dev.recd.sealing = none →
    Completes .segmentEnd s (fun d => d.recd.segment = s.dev.recd.segment + 1 ∧ d.recd.data = [] ∧ d.recd.records = 0 ∧
      d.recd.segTick = s.dev.tick ∧ d.recd.prevH = Config.shake256 (beBytes 32 s.dev.recd.prevH.toNat ++ s.dev.recd.data) ∧
      d.recd.sealing = some (s.dev.recd.segment, wordsLe (s.dev.sealBody d.recd.prevH false), s.dev.recd.data))) ∧
  (∀ (s : State) (k l : Nat) (body recs : List Byte), s.dev.recd.sealing = some (k, body, recs) → s.dev.sec.signing = none →
    s.dev.usableLeaf = some l →
    let payload := body ++ s.dev.signature body l
    let sealed := recs ++ leBytes 8 (packN [(8, 8), (24, 0), (32, payload.length)]) ++ payload
    ((kset [] s.dev.recd.sealed k sealed).map (fun y => y.2.length)).sum ≤ s.dev.ringBytes →
    Completes .seal s (fun d => d.recd.sealing = none ∧ d.recd.flush = true ∧ d.sec.leaf = l + 1 ∧ kget [] d.recd.sealed k = sealed)) ∧
  (∀ (s : State) (k : Nat) (body recs : List Byte), s.dev.recd.sealing = some (k, body, recs) → s.dev.sec.signing = none →
    s.dev.usableLeaf = none →
    let payload := body ++ List.replicate 5605 0
    let sealed := recs ++ leBytes 8 (packN [(8, 8), (24, 0), (32, payload.length)]) ++ payload
    ((kset [] s.dev.recd.sealed k sealed).map (fun y => y.2.length)).sum ≤ s.dev.ringBytes →
    Completes .seal s (fun d => d.recd.sealing = none ∧ d.recd.flush = true ∧ d.sec.leaf = s.dev.sec.leaf ∧
      d.recd.staged = s.dev.recd.staged + 8 + payload.length ∧ kget [] d.recd.sealed k = sealed)) ∧
  (∀ s : State, (s.dev.recd.sealing = none ∨ s.dev.sec.signing.isSome = true) → Completes .seal s (fun d => d = s.dev))

/-- R452 to R456, R460: the budget epoch and droop. Each epoch of 1 µs grants no unit more than its request and no more
than is available in all, the S requests in full where they fit, sets each clock from its grant, and moves the turn on; a
current that does not carry the S requests is reported and, as log 22 reads it, demanded once; a droop is reported once an
epoch and ends with its recovery. -/
def Obligations.CurrentBudget : Prop :=
  (∀ s : State, s.dev.power.enCore = true → s.dev.power.epochTick + usTicks 1 ≤ s.dev.tick →
    Completes .budgetEpoch s (fun d => d.power.epochTick = s.dev.tick ∧ d.power.turn = (s.dev.power.turn + 1) % 29 ∧
      d.power.droopEpoch = (!s.dev.power.droops.isEmpty) ∧
      (∀ r, r ∈ s.dev.requests → kget 0 d.power.grants r.1 ≤ r.2.1 ∧
        (0 < r.2.1 → kget 0 d.power.clocks r.1 = min 16 (16 * kget 0 d.power.grants r.1 / r.2.1)) ∧
        (r.2.2 = 0 → ((s.dev.requests.filter (fun r => r.2.2 == 0)).map (fun r => r.2.1)).sum ≤ s.dev.availableAmps →
          kget 0 d.power.grants r.1 = r.2.1)) ∧
      (s.dev.requests.map (fun r => kget 0 d.power.grants r.1)).sum ≤ s.dev.availableAmps)) ∧
  (∀ s : State, s.dev.Inv → s.dev.up = true → s.dev.power.enCore = true → s.dev.power.epochTick + usTicks 1 ≤ s.dev.tick →
    kget 0 s.dev.hull.demands srcFloor = 0 →
    s.dev.availableAmps < ((s.dev.requests.filter (fun r => r.2.2 == 0)).map (fun r => r.2.1)).sum →
    Completes .budgetEpoch s (fun d => d.Stopped ∧ d.Reports 0x0E07 0 ∧ kget 0 d.hull.demands srcFloor = 3)) ∧
  (∀ (s : State) (u : Fin 30), s.dev.up = true → s.dev.power.enCore = true → s.dev.power.droopEpoch = false →
    Completes (.droop u) s (fun d => u.val ∈ d.power.droops ∧ d.power.droopEpoch = true ∧ d.Reports 0x0E02 u.val)) ∧
  (∀ (s : State) (u : Fin 30), s.dev.power.enCore = true → s.dev.power.droopEpoch = true →
    Completes (.droop u) s (fun d => u.val ∈ d.power.droops ∧ d.log = s.dev.log)) ∧
  (∀ (s : State) (u : Fin 30), Completes (.droopRecovery u) s (fun d => u.val ∉ d.power.droops))

/-- R448, R450, R456 to R460, R449: temperatures, regulators, rails and clocks. 112 °C puts the device into HUSK; the
voltage moves by at most 10 mV; the third failed read-back in a row is a fault; a rail out of range and the loss of the
reference stop the device; a PLL that loses lock takes its Pod or solver engine out of service, or stops the device. -/
def Obligations.SupplyFaults : Prop :=
  (∀ (s : State) (core iod : Int), s.dev.up = true → s.dev.power.tempTick + usTicks 100 ≤ s.dev.tick →
    core < celsius 112 → iod < celsius 112 →
    Completes (.temperatureRead core iod) s (fun d => d.power.coreTemp = core ∧ d.power.iodTemp = iod ∧ d.power.state = s.dev.power.state ∧
      (celsius 100 < core → s.dev.power.coolCore = true → d.power.coolCore = false ∧ d.Reports 0x0E05 0))) ∧
  (∀ (s : State) (core iod : Int), s.dev.up = true → s.dev.power.tempTick + usTicks 100 ≤ s.dev.tick →
    (celsius 112 ≤ core ∨ celsius 112 ≤ iod) →
    Completes (.temperatureRead core iod) s (fun d => d.power.state = .husk ∧ 0x0E06 ∈ d.power.retained)) ∧
  (∀ (s : State) (t : Nat), s.dev.up = true → s.dev.power.stepTick + usTicks 100 ≤ s.dev.tick →
    Completes (.avsVoltageStep t) s (fun d => d.power.setMv ≤ s.dev.power.setMv + 10 ∧ s.dev.power.setMv ≤ d.power.setMv + 10 ∧
      (s.dev.power.setMv ≤ legalMv t + 10 → legalMv t ≤ s.dev.power.setMv + 10 → d.power.setMv = legalMv t) ∧
      d.out = { kind := .avsWrite, unit := 0, tag := 0, data := [d.power.setMv] } :: s.dev.out)) ∧
  (∀ (s : State), s.dev.up = true → s.dev.power.avsTick + msTicks 1 ≤ s.dev.tick → kget 0 s.dev.power.avsFails 0 = 2 →
    Completes (.avsReadback [false]) s (fun d => 0 ∈ d.power.avsFault ∧ d.Reports 0x0E03 0 ∧ d.power.avsOk = none)) ∧
  (∀ (s : State) (l : List Bool) (t : Nat), s.dev.up = true → s.dev.power.avsTick + msTicks 1 ≤ s.dev.tick → l.all (fun a => a) = true → s.dev.power.avsOk = some t →
    t + sTicks 1 ≤ s.dev.tick → Completes (.avsReadback l) s (fun d => d.power.avsFault = [])) ∧
  (∀ (s : State) (r : Fin 6), s.dev.Inv → s.dev.railOn r.val = true →
    Completes (.railOutOfRange r) s (fun d => d.Stopped ∧ d.Reports 0x0E04 r.val ∧ kget 0 d.hull.demands srcRail = 3)) ∧
  (∀ s : State, s.dev.power.vhusk = true → Completes .crystalStable s (fun d => d.power.crystal = true)) ∧
  (∀ s : State, s.dev.Inv → s.dev.up = true → s.dev.power.crystal = true →
    Completes .crystalFault s (fun d => d.Stopped ∧ d.hull.override = true ∧ d.power.crystal = false ∧ d.Reports 0x0E08 0)) ∧
  (∀ s : State, s.dev.power.vhusk = true →
    Completes .huskBrownout s (fun d => d.power.state = .husk ∧ d.power.resetKind = 4 ∧ 0x0E01 ∈ d.power.retained ∧ d.power.crystal = false)) ∧
  (∀ (s : State) (pll : Fin 32), s.dev.up = true → pll.val < 25 → pll.val < podsOf s.dev.code →
    Completes (.pllLossOfLock pll) s (fun d => (d.pod pll.val).state = .out)) ∧
  (∀ (s : State) (pll : Fin 32), s.dev.up = true → 25 ≤ pll.val → pll.val ≤ 28 →
    Completes (.pllLossOfLock pll) s (fun d => (d.solver (pll.val - 25)).out = true)) ∧
  (∀ (s : State) (pll : Fin 32), s.dev.up = true → s.dev.Inv → (pll.val = 29 ∨ pll.val = 30) →
    Completes (.pllLossOfLock pll) s (fun d => d.Stopped ∧ d.hull.fault = true)) ∧
  (∀ (s : State) (pll : Fin 32), s.dev.up = true → s.dev.Inv → pll.val = 31 →
    Completes (.pllLossOfLock pll) s (fun d => d.Stopped ∧ d.hull.override = true ∧ d.Reports 0x0109 0))

/-- R446, R464 to R466, R474, R480: power, pins and resets. -/
def Obligations.PowerPins : Prop :=
  (∀ s : State, s.dev.power.vhusk = false →
    Completes .powerOn s (fun d => d.power.state = .husk ∧ d.power.vhusk = true ∧ d.power.resetKind = 0 ∧ d.power.retained = [] ∧ d.start.due = true)) ∧
  (∀ s : State, s.dev.power.vhusk = true →
    Completes .vhuskRemoved s (fun d => d.power.state = .off ∧ d.power.vhusk = false ∧ d.power.retained = [])) ∧
  (∀ s : State, s.dev.mayStart = true → s.dev.start.due = true →
    Completes .startMoment s (fun d => d.start.step = some 1 ∧ d.start.due = false ∧ d.start.last = 0)) ∧
  (∀ s : State, s.dev.mayStart = true → s.dev.start.due = false → Completes .wakeN s (fun d => d.start.step = some 1 ∧ d.start.last = 0)) ∧
  (∀ s : State, Completes .pwrOkRising s (fun d => d.power.pwrOk = true ∧
    (s.dev.power.resetN = true → s.dev.power.state = .husk → s.dev.start.step = none → d.start.due = true))) ∧
  (∀ s : State, s.dev.up = true → Completes .pwrOkFalling s (fun d => d.power.pwrOk = false ∧ d.power.state = .husk)) ∧
  (∀ s : State, s.dev.power.vhusk = true →
    Completes .resetNAssert s (fun d => d.power.state = .husk ∧ d.power.resetKind = 1 ∧ d.power.resetN = false)) ∧
  (∀ s : State, s.dev.power.state = .husk → s.dev.start.step = none →
    Completes .resetNRelease s (fun d => d.power.resetN = true ∧ d.start.due = true)) ∧
  (∀ (s : State) (n : Nat), s.dev.start.step = some n → s.dev.watchdogDue n = true →
    Completes .watchdogReset s (fun d => d.power.state = .husk ∧ d.power.resetKind = 2 ∧ d.power.wdCount = s.dev.power.wdCount + 1 ∧
      d.power.wdStep = n ∧ 0x0F0C ∈ d.power.retained))

/-- R467, R470 to R475: the start-up steps. A step that passes leads to the next one; one that fails ends the sequence
with its cause; the enabled supplies switch on in turn, one every 1 ms. -/
def Obligations.StartupSteps : Prop :=
  (∀ (s : State) (r : StepResult) (n : Nat), s.dev.start.step = some n → r.ok = true → r.units = [] →
    (n = 1 ∨ n = 3 ∨ n = 4 ∨ n = 5 ∨ n = 6 ∨ (n = 2 ∧ s.dev.power.wdCount < 3) ∨ (n = 7 ∧ r.twoBad = [] ∧ s.dev.nandUnfit r = false) ∨ n = 9) →
    Completes (.startupStepComplete r) s (fun d => d.start.last = n ∧ d.start.step = some (n + 1))) ∧
  (∀ (s : State) (r : StepResult), s.dev.start.step = some 1 → r.ok = false →
    Completes (.startupStepComplete r) s (fun d => d.start.step = none ∧ 0x0F01 ∈ d.power.retained)) ∧
  (∀ (s : State) (r : StepResult), s.dev.start.step = some 2 → r.ok = true →
    Completes (.startupStepComplete r) s (fun d => d.power.state = .standby ∧ d.power.enIod = true ∧ d.hull.override = false ∧ d.power.retained = [])) ∧
  (∀ (s : State) (r : StepResult), s.dev.up = true → s.dev.start.step = some 4 → r.ok = false →
    Completes (.startupStepComplete r) s (fun d => d.start.step = none ∧ d.Reports 0x0F04 0)) ∧
  (∀ (s : State) (r : StepResult), s.dev.up = true → s.dev.start.step = some 6 → r.ok = false →
    Completes (.startupStepComplete r) s (fun d => d.start.step = none ∧ d.Reports 0x0F06 0)) ∧
  (∀ (s : State) (r : StepResult), s.dev.start.step = some 8 → Completes (.startupStepComplete r) s (fun d => d.power.state = .ready ∧ d.start.last = 8)) ∧
  (∀ (s : State) (r : StepResult), s.dev.start.step = some 10 → s.dev.step10Over = true →
    Completes (.startupStepComplete r) s (fun d => d.power.wdCount = 0 ∧ d.start.last = 10)) ∧
  (∀ (s : State) (r : StepResult), s.dev.start.step = some 11 → s.dev.cyc.next = none → s.dev.prog.activating = none →
    s.dev.power.target = some .run → s.dev.runRefusal = none →
    Completes (.startupStepComplete r) s (fun d => d.cyc.next = some s.dev.firstInstant ∧ d.start.step = some 11)) ∧
  (∀ (s : State) (r : StepResult) (x : Nat), s.dev.up = true → s.dev.start.step = some 11 → s.dev.cyc.next = none →
    s.dev.prog.activating = none → s.dev.power.target = some .run → s.dev.runRefusal = some x →
    Completes (.startupStepComplete r) s (fun d => d.start.step = none ∧ d.cyc.next = none ∧ d.Reports x 0)) ∧
  (∀ (s : State) (n : Nat) (t : List Nat), s.dev.start.supplies = n :: t → hasEdge s.dev.code = true →
    s.dev.start.supplyTick + msTicks 1 ≤ s.dev.tick →
    Completes .supplySwitchOn s (fun d => d.start.supplies = t ∧ d.out = { kind := .edgeCommand, unit := 0, tag := 0, data := [d.sqMask, d.spMask] } :: s.dev.out))

/-- R148, R153, R155, R165, R265: memory. A store reads back byte for byte and leaves every other byte; write-backs, the
patrol and a passing region test change no byte; an attention write-back copies its run to the pool and nothing else, a
faulted one copies nothing. -/
def Obligations.MemoryBytes : Prop :=
  (∀ (m : Memory) (k : Nat) (l : List Byte), m.wf = true → (m.store k l).wf = true ∧
    (∀ i (h : i < l.length), (m.store k l).read (k + i) = l[i]) ∧
    (∀ j, j < k ∨ k + l.length ≤ j → (m.store k l).read j = m.read j)) ∧
  (∀ (s : State) (w j : Nat), Completes (.correctedWriteBack w) s (fun d => d.mem.read j = s.dev.mem.read j)) ∧
  (∀ (s : State) (a j : Nat) (r : BurstResult) (wp : Bool), Completes (.patrolRead a r wp) s (fun d => d.mem.read j = s.dev.mem.read j)) ∧
  (∀ (s : State) (b : Bank) (region j : Nat) (ecc : List EccEvent), Completes (.memtestRegionComplete b region false ecc) s (fun d => d.mem.read j = s.dev.mem.read j)) ∧
  (∀ (s : State) (g c run h p : Nat), s.dev.kv.backs.find? (fun b => b.1 == g) = some (g, c, run) →
    (s.dev.kvRec g (s.dev.kvPos c)).cycle = c → (s.dev.kvRec g (s.dev.kvPos c)).state = .present → (s.dev.kvRec g (s.dev.kvPos c)).hot = true →
    s.dev.kvBase 15 = some h → s.dev.kvBase 16 = some p →
    Completes (.kvWriteBackComplete g false) s (fun d =>
      (d.kvRec g (s.dev.kvPos c)).pool = true ∧ (d.kvRec g (s.dev.kvPos c)).poolRun = run ∧
      (∀ i, i < s.dev.kvPe * s.dev.att 1 →
        d.mem.read (p + run * s.dev.att 1 + i) = s.dev.mem.read (h + (s.dev.kvRec g (s.dev.kvPos c)).hotRun * s.dev.att 1 + i)) ∧
      (∀ j, j < p + run * s.dev.att 1 ∨ p + run * s.dev.att 1 + s.dev.kvPe * s.dev.att 1 ≤ j → d.mem.read j = s.dev.mem.read j))) ∧
  (∀ (s : State) (g c run : Nat), s.dev.kv.backs.find? (fun b => b.1 == g) = some (g, c, run) →
    Completes (.kvWriteBackComplete g true) s (fun d => d.mem = s.dev.mem ∧ d.kv.recs = s.dev.kv.recs ∧ ∀ r, r ∈ d.kv.poolRuns → r.1 ≠ run))

/-- A step with a command at the front of the queue is that command run with the rest of the queue. -/
def Obligations.StepRunsFront : Prop :=
  ∀ (s : State) (c : Instr) (rest : List Instr), s.pending = c :: rest → step s = exec c { s with pending := rest }

/-- Every command completes in every state, keeps the waiting commands, and changes no part of the device beyond those
`partsOf` lists for it. -/
def Obligations.CommandFrames : Prop :=
  ∀ (c : Instr) (s : State), Completes c s (fun d => Dev.Frame (partsOf c) s.dev d)

/-- What the reset values of the spec leave: the time unit free with its nominal increment, every sync object and event 0,
the fault log empty, both commit pointers at generation 0, the output stopped, memory clear and canonical, no command
waiting. -/
def Obligations.ResetValues : Prop :=
  State.reset.pending = [] ∧ State.reset.dev.time.state = .free ∧ State.reset.dev.time.inc = 0x280000000 ∧
  State.reset.dev.time.counter = 0 ∧ State.reset.dev.time.epoch = false ∧ State.reset.dev.time.selected = none ∧
  State.reset.dev.log.entries = [] ∧ State.reset.dev.log.seq = 0 ∧ State.reset.dev.cyc.number = 0 ∧ State.reset.dev.hull.g = 0 ∧
  State.reset.dev.Stopped ∧ State.reset.dev.hull.zones = 0 ∧ State.reset.dev.sec.debug = false ∧
  (∀ o, State.reset.dev.syncObj o = 0) ∧ (∀ i j, State.reset.dev.ev i j = { pending := false, count := 0 }) ∧
  (∀ i j, State.reset.dev.counter i j = 0) ∧ (∀ k, State.reset.dev.mem.read k = 0) ∧
  (∀ i j, State.reset.dev.cfgList i j = dfltVal State.reset.dev.code i j)

/-- The invariant holds at reset. -/
def Obligations.ResetInvariant : Prop :=
State.reset.dev.Inv

/-- The invariant is kept by every step, of a command or of time: memory stays canonical, the ordering code stays one of
R2, at most two cycles are in flight (R25), and the output tier is 0 to 3, with the stop latch set and both stop pins low
at tier 3 (R332, R335). -/
def Obligations.StepKeepsInvariant : Prop :=
  ∀ (s t : State), s.dev.Inv → step s = .next t → t.dev.Inv
end

