-- ==== Sys2Proof/Laws/Frame.lean ====
section
/-! SUPPORT. How frames compose: an operation that changes only listed parts does not matter to a frame over them. -/

namespace Sys2Proof.Machine

/-- Every listed part of the first list is in the second. -/
def Part.sub (l m : List Part) : Bool := l.all (fun p => m.contains p)

theorem Dev.Same.refl (d : Dev) (p : Part) : Dev.Same d d p := by cases p <;> rfl

theorem Dev.Same.trans {a b c : Dev} {p : Part} (h : Dev.Same a b p) (k : Dev.Same b c p) : Dev.Same a c p := by
  cases p <;> exact Eq.trans k h

theorem Dev.Same.symm {a b : Dev} {p : Part} (h : Dev.Same a b p) : Dev.Same b a p := by
  cases p <;> exact Eq.symm h

theorem Dev.Frame.refl {l : List Part} (d : Dev) : Dev.Frame l d d := fun p _ => Dev.Same.refl d p

@[simp] theorem Dev.frame_self {l : List Part} (d : Dev) : Dev.Frame l d d ↔ True := ⟨fun _ => trivial, fun _ => .refl d⟩

theorem Dev.Frame.trans {l : List Part} {a b c : Dev} (h : Dev.Frame l a b) (k : Dev.Frame l b c) : Dev.Frame l a c :=
  fun p hp => (h p hp).trans (k p hp)

theorem Dev.Frame.symm {l : List Part} {a b : Dev} (h : Dev.Frame l a b) : Dev.Frame l b a := fun p hp => (h p hp).symm

theorem Part.sub_mem {l m : List Part} (h : Part.sub l m = true) {p : Part} (hp : p ∉ m) : p ∉ l := by
  intro hl
  have := (List.all_eq_true.mp h) p hl
  exact hp (by simpa using this)

theorem Dev.Frame.mono {l m : List Part} {a b : Dev} (h : Dev.Frame l a b) (s : Part.sub l m = true) : Dev.Frame m a b :=
  fun p hp => h p (Part.sub_mem s hp)

/-- One more operation within the list. -/
theorem Dev.Frame.iff {l m : List Part} {b c : Dev} (k : Dev.Frame l b c) (s : Part.sub l m = true) (a : Dev) :
    Dev.Frame m a c ↔ Dev.Frame m a b :=
  ⟨fun h => h.trans (k.mono s).symm, fun h => h.trans (k.mono s)⟩

theorem Dev.frame_ite {l : List Part} {a b c : Dev} {p : Prop} [Decidable p] :
    Dev.Frame l a (if p then b else c) ↔ (p → Dev.Frame l a b) ∧ (¬ p → Dev.Frame l a c) := by
  split <;> simp_all

theorem Dev.frame_ite1 {γ : Type} {l : List Part} {a : Dev} {b c : Dev × γ} {p : Prop} [Decidable p] :
    Dev.Frame l a (if p then b else c).1 ↔ (p → Dev.Frame l a b.1) ∧ (¬ p → Dev.Frame l a c.1) := by
  split <;> simp_all

theorem Dev.frame_foldl {α : Type} {l : List Part} {f : Dev → α → Dev} (h : ∀ d x, Dev.Frame l d (f d x)) (a : Dev) :
    ∀ (xs : List α) (d : Dev), Dev.Frame l a (xs.foldl f d) ↔ Dev.Frame l a d
  | [], _ => Iff.rfl
  | x :: xs, d => (Dev.frame_foldl h a xs (f d x)).trans ⟨fun k => k.trans (h d x).symm, fun k => k.trans (h d x)⟩

theorem Dev.frame_foldlPair {α β : Type} {l : List Part} {f : Dev × β → α → Dev × β} (h : ∀ s x, Dev.Frame l s.1 (f s x).1) (a : Dev) :
    ∀ (xs : List α) (s : Dev × β), Dev.Frame l a (xs.foldl f s).1 ↔ Dev.Frame l a s.1
  | [], _ => Iff.rfl
  | x :: xs, s => (Dev.frame_foldlPair h a xs (f s x)).trans ⟨fun k => k.trans (h s x).symm, fun k => k.trans (h s x)⟩

theorem Dev.frame_code {l : List Part} {a d : Dev} {v} (h : l.contains .code = true) :
    Dev.Frame l a { d with code := v } ↔ Dev.Frame l a d := by
  refine Dev.Frame.iff (l := [.code]) (fun p hp => ?_) (by simpa [Part.sub] using h) a
  cases p <;> first | rfl | simp at hp

theorem Dev.frame_time {l : List Part} {a d : Dev} {v} (h : l.contains .time = true) :
    Dev.Frame l a { d with time := v } ↔ Dev.Frame l a d := by
  refine Dev.Frame.iff (l := [.time]) (fun p hp => ?_) (by simpa [Part.sub] using h) a
  cases p <;> first | rfl | simp at hp

theorem Dev.frame_log {l : List Part} {a d : Dev} {v} (h : l.contains .log = true) :
    Dev.Frame l a { d with log := v } ↔ Dev.Frame l a d := by
  refine Dev.Frame.iff (l := [.log]) (fun p hp => ?_) (by simpa [Part.sub] using h) a
  cases p <;> first | rfl | simp at hp

theorem Dev.frame_dict {l : List Part} {a d : Dev} {v} (h : l.contains .dict = true) :
    Dev.Frame l a { d with dict := v } ↔ Dev.Frame l a d := by
  refine Dev.Frame.iff (l := [.dict]) (fun p hp => ?_) (by simpa [Part.sub] using h) a
  cases p <;> first | rfl | simp at hp

theorem Dev.frame_cyc {l : List Part} {a d : Dev} {v} (h : l.contains .cyc = true) :
    Dev.Frame l a { d with cyc := v } ↔ Dev.Frame l a d := by
  refine Dev.Frame.iff (l := [.cyc]) (fun p hp => ?_) (by simpa [Part.sub] using h) a
  cases p <;> first | rfl | simp at hp

theorem Dev.frame_intake {l : List Part} {a d : Dev} {v} (h : l.contains .intake = true) :
    Dev.Frame l a { d with intake := v } ↔ Dev.Frame l a d := by
  refine Dev.Frame.iff (l := [.intake]) (fun p hp => ?_) (by simpa [Part.sub] using h) a
  cases p <;> first | rfl | simp at hp

theorem Dev.frame_pods {l : List Part} {a d : Dev} {v} (h : l.contains .pods = true) :
    Dev.Frame l a { d with pods := v } ↔ Dev.Frame l a d := by
  refine Dev.Frame.iff (l := [.pods]) (fun p hp => ?_) (by simpa [Part.sub] using h) a
  cases p <;> first | rfl | simp at hp

theorem Dev.frame_movers {l : List Part} {a d : Dev} {v} (h : l.contains .movers = true) :
    Dev.Frame l a { d with movers := v } ↔ Dev.Frame l a d := by
  refine Dev.Frame.iff (l := [.movers]) (fun p hp => ?_) (by simpa [Part.sub] using h) a
  cases p <;> first | rfl | simp at hp

theorem Dev.frame_mem {l : List Part} {a d : Dev} {v} (h : l.contains .mem = true) :
    Dev.Frame l a { d with mem := v } ↔ Dev.Frame l a d := by
  refine Dev.Frame.iff (l := [.mem]) (fun p hp => ?_) (by simpa [Part.sub] using h) a
  cases p <;> first | rfl | simp at hp

theorem Dev.frame_ddr {l : List Part} {a d : Dev} {v} (h : l.contains .ddr = true) :
    Dev.Frame l a { d with ddr := v } ↔ Dev.Frame l a d := by
  refine Dev.Frame.iff (l := [.ddr]) (fun p hp => ?_) (by simpa [Part.sub] using h) a
  cases p <;> first | rfl | simp at hp

theorem Dev.frame_prog {l : List Part} {a d : Dev} {v} (h : l.contains .prog = true) :
    Dev.Frame l a { d with prog := v } ↔ Dev.Frame l a d := by
  refine Dev.Frame.iff (l := [.prog]) (fun p hp => ?_) (by simpa [Part.sub] using h) a
  cases p <;> first | rfl | simp at hp

theorem Dev.frame_sched {l : List Part} {a d : Dev} {v} (h : l.contains .sched = true) :
    Dev.Frame l a { d with sched := v } ↔ Dev.Frame l a d := by
  refine Dev.Frame.iff (l := [.sched]) (fun p hp => ?_) (by simpa [Part.sub] using h) a
  cases p <;> first | rfl | simp at hp

theorem Dev.frame_sync {l : List Part} {a d : Dev} {v} (h : l.contains .sync = true) :
    Dev.Frame l a { d with sync := v } ↔ Dev.Frame l a d := by
  refine Dev.Frame.iff (l := [.sync]) (fun p hp => ?_) (by simpa [Part.sub] using h) a
  cases p <;> first | rfl | simp at hp

theorem Dev.frame_cover {l : List Part} {a d : Dev} {v} (h : l.contains .cover = true) :
    Dev.Frame l a { d with cover := v } ↔ Dev.Frame l a d := by
  refine Dev.Frame.iff (l := [.cover]) (fun p hp => ?_) (by simpa [Part.sub] using h) a
  cases p <;> first | rfl | simp at hp

theorem Dev.frame_fus {l : List Part} {a d : Dev} {v} (h : l.contains .fus = true) :
    Dev.Frame l a { d with fus := v } ↔ Dev.Frame l a d := by
  refine Dev.Frame.iff (l := [.fus]) (fun p hp => ?_) (by simpa [Part.sub] using h) a
  cases p <;> first | rfl | simp at hp

theorem Dev.frame_kv {l : List Part} {a d : Dev} {v} (h : l.contains .kv = true) :
    Dev.Frame l a { d with kv := v } ↔ Dev.Frame l a d := by
  refine Dev.Frame.iff (l := [.kv]) (fun p hp => ?_) (by simpa [Part.sub] using h) a
  cases p <;> first | rfl | simp at hp

theorem Dev.frame_solvers {l : List Part} {a d : Dev} {v} (h : l.contains .solvers = true) :
    Dev.Frame l a { d with solvers := v } ↔ Dev.Frame l a d := by
  refine Dev.Frame.iff (l := [.solvers]) (fun p hp => ?_) (by simpa [Part.sub] using h) a
  cases p <;> first | rfl | simp at hp

theorem Dev.frame_hull {l : List Part} {a d : Dev} {v} (h : l.contains .hull = true) :
    Dev.Frame l a { d with hull := v } ↔ Dev.Frame l a d := by
  refine Dev.Frame.iff (l := [.hull]) (fun p hp => ?_) (by simpa [Part.sub] using h) a
  cases p <;> first | rfl | simp at hp

theorem Dev.frame_twin {l : List Part} {a d : Dev} {v} (h : l.contains .twin = true) :
    Dev.Frame l a { d with twin := v } ↔ Dev.Frame l a d := by
  refine Dev.Frame.iff (l := [.twin]) (fun p hp => ?_) (by simpa [Part.sub] using h) a
  cases p <;> first | rfl | simp at hp

theorem Dev.frame_palca {l : List Part} {a d : Dev} {v} (h : l.contains .palca = true) :
    Dev.Frame l a { d with palca := v } ↔ Dev.Frame l a d := by
  refine Dev.Frame.iff (l := [.palca]) (fun p hp => ?_) (by simpa [Part.sub] using h) a
  cases p <;> first | rfl | simp at hp

theorem Dev.frame_power {l : List Part} {a d : Dev} {v} (h : l.contains .power = true) :
    Dev.Frame l a { d with power := v } ↔ Dev.Frame l a d := by
  refine Dev.Frame.iff (l := [.power]) (fun p hp => ?_) (by simpa [Part.sub] using h) a
  cases p <;> first | rfl | simp at hp

theorem Dev.frame_start {l : List Part} {a d : Dev} {v} (h : l.contains .start = true) :
    Dev.Frame l a { d with start := v } ↔ Dev.Frame l a d := by
  refine Dev.Frame.iff (l := [.start]) (fun p hp => ?_) (by simpa [Part.sub] using h) a
  cases p <;> first | rfl | simp at hp

theorem Dev.frame_recd {l : List Part} {a d : Dev} {v} (h : l.contains .recd = true) :
    Dev.Frame l a { d with recd := v } ↔ Dev.Frame l a d := by
  refine Dev.Frame.iff (l := [.recd]) (fun p hp => ?_) (by simpa [Part.sub] using h) a
  cases p <;> first | rfl | simp at hp

theorem Dev.frame_sec {l : List Part} {a d : Dev} {v} (h : l.contains .sec = true) :
    Dev.Frame l a { d with sec := v } ↔ Dev.Frame l a d := by
  refine Dev.Frame.iff (l := [.sec]) (fun p hp => ?_) (by simpa [Part.sub] using h) a
  cases p <;> first | rfl | simp at hp

theorem Dev.frame_edge {l : List Part} {a d : Dev} {v} (h : l.contains .edge = true) :
    Dev.Frame l a { d with edge := v } ↔ Dev.Frame l a d := by
  refine Dev.Frame.iff (l := [.edge]) (fun p hp => ?_) (by simpa [Part.sub] using h) a
  cases p <;> first | rfl | simp at hp

theorem Dev.frame_out {l : List Part} {a d : Dev} {v} (h : l.contains .out = true) :
    Dev.Frame l a { d with out := v } ↔ Dev.Frame l a d := by
  refine Dev.Frame.iff (l := [.out]) (fun p hp => ?_) (by simpa [Part.sub] using h) a
  cases p <;> first | rfl | simp at hp

theorem Dev.frame_free {l : List Part} {a d : Dev} {v} (h : l.contains .free = true) :
    Dev.Frame l a { d with free := v } ↔ Dev.Frame l a d := by
  refine Dev.Frame.iff (l := [.free]) (fun p hp => ?_) (by simpa [Part.sub] using h) a
  cases p <;> first | rfl | simp at hp

theorem Dev.frame_cyc_hull {l : List Part} {a d : Dev} {v0} {v1} (h : Part.sub [.cyc, .hull] l = true) :
    Dev.Frame l a { d with cyc := v0, hull := v1 } ↔ Dev.Frame l a d := by
  refine Dev.Frame.iff (l := [.cyc, .hull]) (fun p hp => ?_) h a
  cases p <;> first | rfl | simp at hp

theorem Dev.frame_cyc_hull_power {l : List Part} {a d : Dev} {v0} {v1} {v2} (h : Part.sub [.cyc, .hull, .power] l = true) :
    Dev.Frame l a { d with cyc := v0, hull := v1, power := v2 } ↔ Dev.Frame l a d := by
  refine Dev.Frame.iff (l := [.cyc, .hull, .power]) (fun p hp => ?_) h a
  cases p <;> first | rfl | simp at hp

theorem Dev.frame_cyc_intake {l : List Part} {a d : Dev} {v0} {v1} (h : Part.sub [.cyc, .intake] l = true) :
    Dev.Frame l a { d with cyc := v0, intake := v1 } ↔ Dev.Frame l a d := by
  refine Dev.Frame.iff (l := [.cyc, .intake]) (fun p hp => ?_) h a
  cases p <;> first | rfl | simp at hp

theorem Dev.frame_cyc_intake_sched {l : List Part} {a d : Dev} {v0} {v1} {v2} (h : Part.sub [.cyc, .intake, .sched] l = true) :
    Dev.Frame l a { d with cyc := v0, intake := v1, sched := v2 } ↔ Dev.Frame l a d := by
  refine Dev.Frame.iff (l := [.cyc, .intake, .sched]) (fun p hp => ?_) h a
  cases p <;> first | rfl | simp at hp

theorem Dev.frame_mem_ddr {l : List Part} {a d : Dev} {v0} {v1} (h : Part.sub [.mem, .ddr] l = true) :
    Dev.Frame l a { d with mem := v0, ddr := v1 } ↔ Dev.Frame l a d := by
  refine Dev.Frame.iff (l := [.mem, .ddr]) (fun p hp => ?_) h a
  cases p <;> first | rfl | simp at hp

theorem Dev.frame_pods_movers_ddr_solvers {l : List Part} {a d : Dev} {v0} {v1} {v2} {v3} (h : Part.sub [.pods, .movers, .ddr, .solvers] l = true) :
    Dev.Frame l a { d with pods := v0, movers := v1, ddr := v2, solvers := v3 } ↔ Dev.Frame l a d := by
  refine Dev.Frame.iff (l := [.pods, .movers, .ddr, .solvers]) (fun p hp => ?_) h a
  cases p <;> first | rfl | simp at hp

theorem Dev.frame_power_start {l : List Part} {a d : Dev} {v0} {v1} (h : Part.sub [.power, .start] l = true) :
    Dev.Frame l a { d with power := v0, start := v1 } ↔ Dev.Frame l a d := by
  refine Dev.Frame.iff (l := [.power, .start]) (fun p hp => ?_) h a
  cases p <;> first | rfl | simp at hp

theorem Dev.frame_sched_sync_fus {l : List Part} {a d : Dev} {v0} {v1} {v2} (h : Part.sub [.sched, .sync, .fus] l = true) :
    Dev.Frame l a { d with sched := v0, sync := v1, fus := v2 } ↔ Dev.Frame l a d := by
  refine Dev.Frame.iff (l := [.sched, .sync, .fus]) (fun p hp => ?_) h a
  cases p <;> first | rfl | simp at hp

theorem Dev.frame_time_cyc {l : List Part} {a d : Dev} {v0} {v1} (h : Part.sub [.time, .cyc] l = true) :
    Dev.Frame l a { d with time := v0, cyc := v1 } ↔ Dev.Frame l a d := by
  refine Dev.Frame.iff (l := [.time, .cyc]) (fun p hp => ?_) h a
  cases p <;> first | rfl | simp at hp

theorem Dev.frame_pods_mem {l : List Part} {a d : Dev} {v0} {v1} (h : Part.sub [.pods, .mem] l = true) :
    Dev.Frame l a { d with pods := v0, mem := v1 } ↔ Dev.Frame l a d := by
  refine Dev.Frame.iff (l := [.pods, .mem]) (fun p hp => ?_) h a
  cases p <;> first | rfl | simp at hp

theorem Dev.frame_palca_recd {l : List Part} {a d : Dev} {v0} {v1} (h : Part.sub [.palca, .recd] l = true) :
    Dev.Frame l a { d with palca := v0, recd := v1 } ↔ Dev.Frame l a d := by
  refine Dev.Frame.iff (l := [.palca, .recd]) (fun p hp => ?_) h a
  cases p <;> first | rfl | simp at hp

theorem Dev.frame_palca_out {l : List Part} {a d : Dev} {v0} {v1} (h : Part.sub [.palca, .out] l = true) :
    Dev.Frame l a { d with palca := v0, out := v1 } ↔ Dev.Frame l a d := by
  refine Dev.Frame.iff (l := [.palca, .out]) (fun p hp => ?_) h a
  cases p <;> first | rfl | simp at hp

theorem Dev.frame_cyc_prog {l : List Part} {a d : Dev} {v0} {v1} (h : Part.sub [.cyc, .prog] l = true) :
    Dev.Frame l a { d with cyc := v0, prog := v1 } ↔ Dev.Frame l a d := by
  refine Dev.Frame.iff (l := [.cyc, .prog]) (fun p hp => ?_) h a
  cases p <;> first | rfl | simp at hp

end Sys2Proof.Machine
end

