-- ==== Sys2Proof/Laws/FramesOps.lean ====
section
/-! SUPPORT. Frames: what the shared operations and the time base change; one lemma for each operation and each command. -/

set_option linter.unusedSimpArgs false
set_option linter.unusedTactic false
set_option linter.unreachableTactic false

namespace Sys2Proof.Machine

open Sys2Proof

theorem Dev.setObj_frame (d : Dev) (idx sub : Nat) (v : List Nat) :
    Dev.Frame [.dict] d (Dev.setObj d idx sub v) := by
  unfold Dev.setObj
  simp (disch := decide) only [↓Dev.frame_dict, ↓Dev.frame_self]

theorem Dev.bumpFree_frame (d : Dev) :
    Dev.Frame [.free] d (Dev.bumpFree d) := by
  unfold Dev.bumpFree
  simp (disch := decide) only [↓Dev.frame_free, ↓Dev.frame_self]

theorem Dev.tickOnce_frame (d : Dev) :
    Dev.Frame [.time] d (Dev.tickOnce d) := by
  unfold Dev.tickOnce
  simp (disch := decide) only [↓Dev.frame_time, ↓Dev.frame_ite, ↓Dev.frame_self, implies_true, and_self]

theorem Dev.occurN_frame (d : Dev) (idx sub n : Nat) :
    Dev.Frame [.dict] d (Dev.occurN d idx sub n) := by
  unfold Dev.occurN
  simp (disch := decide) only [↓Dev.frame_dict, ↓Dev.frame_self]

theorem Dev.occur_frame (d : Dev) (idx sub : Nat) :
    Dev.Frame [.dict] d (Dev.occur d idx sub) := by
  unfold Dev.occur
  simp (disch := decide) only [↓(Dev.occurN_frame _ _ _ _).iff, ↓Dev.frame_self]

theorem Dev.clearEv_frame (d : Dev) (idx sub : Nat) :
    Dev.Frame [.dict] d (Dev.clearEv d idx sub) := by
  unfold Dev.clearEv
  simp (disch := decide) only [↓Dev.frame_dict, ↓Dev.frame_self]

theorem Dev.countN_frame (d : Dev) (idx sub n : Nat) :
    Dev.Frame [.dict] d (Dev.countN d idx sub n) := by
  unfold Dev.countN
  simp (disch := decide) only [↓Dev.frame_dict, ↓Dev.frame_self]

theorem Dev.count_frame (d : Dev) (idx sub : Nat) :
    Dev.Frame [.dict] d (Dev.count d idx sub) := by
  unfold Dev.count
  simp (disch := decide) only [↓(Dev.countN_frame _ _ _ _).iff, ↓Dev.frame_self]

theorem Dev.emit_frame (d : Dev) (k : OutKind) (unit : Nat) (data : List Nat) :
    Dev.Frame [.out] d (Dev.emit d k unit data) := by
  unfold Dev.emit
  simp (disch := decide) only [↓Dev.frame_out, ↓Dev.frame_self]

theorem Dev.emitHost_frame (d : Dev) (cls : Nat) (k : OutKind) (port : Nat) (data : List Nat) :
    Dev.Frame [.out] d (Dev.emitHost d cls k port data) := by
  unfold Dev.emitHost
  simp (disch := decide) only [↓Dev.frame_out, ↓Dev.frame_self, implies_true, and_self]

theorem Dev.sendService_frame (d : Dev) (k : OutKind) (port : Nat) (data : List Nat) :
    Dev.Frame [.palca, .out] d (Dev.sendService d k port data) := by
  unfold Dev.sendService
  simp (disch := decide) only [↓(Dev.emitHost_frame _ _ _ _ _).iff, ↓Dev.frame_palca, ↓Dev.frame_ite,
      ↓Dev.frame_ite1, ↓Dev.frame_self, implies_true, and_self]

theorem Dev.flushService_frame (d : Dev) (port : Nat) :
    Dev.Frame [.palca, .out] d (Dev.flushService d port) := by
  unfold Dev.flushService
  simp (disch := decide) only [↓Dev.frame_palca, ↓Dev.frame_out, ↓Dev.frame_palca_out, ↓Dev.frame_ite,
      ↓Dev.frame_ite1, ↓Dev.frame_self, implies_true, and_self]

theorem Dev.admit_frame {l : List Part} (s : Part.sub [.dict] l = true) {g : Dev → Dev} (h : ∀ e, Dev.Frame l e (g e)) (d : Dev)
    (port : Nat) (v4 : Bool) (f : HostFrame) : Dev.Frame l d (Dev.hostReceive d port v4 f g) := by
  unfold Dev.hostReceive
  split
  · exact h d
  · exact (Dev.count_frame _ _ _).mono s
  · exact Dev.Frame.refl _

theorem Dev.record_frame (d : Dev) (kind : Nat) (payload : List Byte) :
    Dev.Frame [.recd] d (Dev.record d kind payload) := by
  unfold Dev.record
  simp (disch := decide) only [↓Dev.frame_recd, ↓Dev.frame_self]

theorem Dev.occurAll_frame (d : Dev) (l : List (Nat × Nat)) :
    Dev.Frame [.dict] d (Dev.occurAll d l) := by
  unfold Dev.occurAll
  simp (disch := first | decide | (intros; (repeat' (first | (simp (disch := decide) only [↓(Dev.occur_frame _ _ _).iff, ↓Dev.frame_foldl, ↓Dev.frame_foldlPair, ↓Dev.frame_self, implies_true, and_self]) | (with_reducible refine And.intro ?_ ?_) | (with_reducible intro _) | split)))) only [↓(Dev.occur_frame _ _ _).iff, ↓Dev.frame_foldl, ↓Dev.frame_foldlPair, ↓Dev.frame_self, implies_true, and_self]

theorem Dev.logFault_frame (d : Dev) (cause inst detail : Nat) :
    Dev.Frame [.log, .dict, .recd] d (Dev.logFault d cause inst detail) := by
  unfold Dev.logFault
  repeat' (first
    | (simp (disch := decide) only [↓(Dev.occur_frame _ _ _).iff, ↓(Dev.record_frame _ _ _).iff, ↓Dev.frame_log,
      ↓Dev.frame_ite, ↓Dev.frame_ite1, ↓Dev.frame_self, implies_true, and_self])
    | (with_reducible refine And.intro ?_ ?_)
    | (with_reducible intro _)
    | split)

theorem Dev.raise_frame (d : Dev) (cause inst detail : Nat) :
    Dev.Frame [.log, .dict, .power, .recd] d (Dev.raise d cause inst detail) := by
  unfold Dev.raise
  simp (disch := decide) only [↓(Dev.logFault_frame _ _ _ _).iff, ↓(Dev.occurAll_frame _ _).iff, ↓Dev.frame_power,
      ↓Dev.frame_ite, ↓Dev.frame_self, implies_true, and_self]

theorem Dev.raiseIf_frame (d : Dev) (b : Bool) (cause inst detail : Nat) :
    Dev.Frame [.log, .dict, .power, .recd] d (Dev.raiseIf d b cause inst detail) := by
  unfold Dev.raiseIf
  simp (disch := decide) only [↓(Dev.raise_frame _ _ _ _).iff, ↓Dev.frame_ite, ↓Dev.frame_self, implies_true,
      and_self]

theorem Dev.raiseAll_frame (d : Dev) (l : List (Nat × Nat × Nat)) :
    Dev.Frame [.log, .dict, .power, .recd] d (Dev.raiseAll d l) := by
  unfold Dev.raiseAll
  simp (disch := first | decide | (intros; (repeat' (first | (simp (disch := decide) only [↓(Dev.raise_frame _ _ _ _).iff, ↓Dev.frame_foldl, ↓Dev.frame_foldlPair, ↓Dev.frame_self, implies_true, and_self]) | (with_reducible refine And.intro ?_ ?_) | (with_reducible intro _) | split)))) only [↓(Dev.raise_frame _ _ _ _).iff, ↓Dev.frame_foldl, ↓Dev.frame_foldlPair, ↓Dev.frame_self, implies_true, and_self]

theorem Dev.effect_frame (d : Dev) (cause eff : Nat) :
    Dev.Frame [.log] d (Dev.effect d cause eff) := by
  unfold Dev.effect
  simp (disch := decide) only [↓Dev.frame_log, ↓Dev.frame_self]

theorem Dev.modSlot_frame (d : Dev) (n : Nat) (f : Slot → Slot) :
    Dev.Frame [.intake] d (Dev.modSlot d n f) := by
  unfold Dev.modSlot
  simp (disch := decide) only [↓Dev.frame_intake, ↓Dev.frame_self]

theorem Dev.modKin_frame (d : Dev) (c : Nat) (f : Kin → Kin) :
    Dev.Frame [.intake] d (Dev.modKin d c f) := by
  unfold Dev.modKin
  simp (disch := decide) only [↓Dev.frame_intake, ↓Dev.frame_self]

theorem Dev.modPod_frame (d : Dev) (p : Nat) (f : Pod → Pod) :
    Dev.Frame [.pods] d (Dev.modPod d p f) := by
  unfold Dev.modPod
  simp (disch := decide) only [↓Dev.frame_pods, ↓Dev.frame_self]

theorem Dev.modMover_frame (d : Dev) (m : Nat) (f : Mover → Mover) :
    Dev.Frame [.movers] d (Dev.modMover d m f) := by
  unfold Dev.modMover
  simp (disch := decide) only [↓Dev.frame_movers, ↓Dev.frame_self]

theorem Dev.modSolver_frame (d : Dev) (e : Nat) (f : Solver → Solver) :
    Dev.Frame [.solvers] d (Dev.modSolver d e f) := by
  unfold Dev.modSolver
  simp (disch := decide) only [↓Dev.frame_solvers, ↓Dev.frame_self]

theorem Dev.store_frame (d : Dev) (k : Nat) (l : List Byte) :
    Dev.Frame [.mem] d (Dev.store d k l) := by
  unfold Dev.store
  simp (disch := decide) only [↓Dev.frame_mem, ↓Dev.frame_self]

theorem Dev.putA_frame (d : Dev) (own : Option Nat) (a : Nat) (x0 : List Byte) :
    Dev.Frame [.mem] d (Dev.putA d own a x0) := by
  induction x0 generalizing d a with
  | nil => exact Dev.Frame.refl _
  | cons b t ih =>
    unfold Dev.putA
    refine Dev.Frame.trans ?_ (ih _ _)
    split
    · exact (Dev.frame_mem (by decide)).2 (Dev.Frame.refl _)
    · exact Dev.Frame.refl _

theorem Dev.storeA_frame (d : Dev) (own : Option Nat) (a : Nat) (l : List Byte) :
    Dev.Frame [.mem] d (Dev.storeA d own a l) := by
  unfold Dev.storeA
  simp (disch := decide) only [↓(Dev.putA_frame _ _ _ _).iff, ↓Dev.frame_mem, ↓Dev.frame_ite, ↓Dev.frame_ite1,
      ↓Dev.frame_self, implies_true, and_self]

theorem Dev.badRow_frame (d : Dev) (k : Nat) :
    Dev.Frame [.ddr] d (Dev.badRow d k) := by
  unfold Dev.badRow
  simp (disch := decide) only [↓Dev.frame_ddr, ↓Dev.frame_self]

theorem Dev.repairRow_frame (d : Dev) (row : Nat) :
    Dev.Frame [.log, .dict, .ddr, .power, .recd] d (Dev.repairRow d row) := by
  unfold Dev.repairRow
  simp (disch := decide) only [↓(Dev.raise_frame _ _ _ _).iff, ↓Dev.frame_ddr, ↓Dev.frame_ite, ↓Dev.frame_self,
      implies_true, and_self]

theorem Dev.repairRows_frame (d : Dev) :
    Dev.Frame [.log, .dict, .ddr, .power, .recd] d (Dev.repairRows d) := by
  unfold Dev.repairRows
  simp (disch := first | decide | (intros; (repeat' (first | (simp (disch := decide) only [↓(Dev.repairRow_frame _ _).iff, ↓Dev.frame_foldl, ↓Dev.frame_foldlPair, ↓Dev.frame_self, implies_true, and_self]) | (with_reducible refine And.intro ?_ ?_) | (with_reducible intro _) | split)))) only [↓(Dev.repairRow_frame _ _).iff, ↓Dev.frame_foldl, ↓Dev.frame_foldlPair, ↓Dev.frame_self, implies_true, and_self]

theorem Dev.poisonRead_frame (d : Dev) (w : Nat) :
    Dev.Frame [.log, .dict, .power, .recd] d (Dev.poisonRead d w) := by
  unfold Dev.poisonRead
  simp (disch := decide) only [↓(Dev.raise_frame _ _ _ _).iff, ↓Dev.frame_ite, ↓Dev.frame_ite1, ↓Dev.frame_self,
      implies_true, and_self]

theorem Dev.eccRead_frame (d : Dev) (e : EccEvent) :
    Dev.Frame [.log, .dict, .mem, .ddr, .power, .recd] d (Dev.eccRead d e) := by
  unfold Dev.eccRead
  simp (disch := first | decide | (intros; (repeat' (first | (simp (disch := decide) only [↓(Dev.badRow_frame _ _).iff, ↓(Dev.poisonRead_frame _ _).iff, ↓Dev.frame_mem, ↓Dev.frame_ite, ↓Dev.frame_ite1, ↓Dev.frame_foldl, ↓Dev.frame_foldlPair, ↓Dev.frame_self, implies_true, and_self]) | (with_reducible refine And.intro ?_ ?_) | (with_reducible intro _) | split)))) only [↓(Dev.badRow_frame _ _).iff, ↓(Dev.poisonRead_frame _ _).iff, ↓Dev.frame_mem, ↓Dev.frame_ite, ↓Dev.frame_ite1, ↓Dev.frame_foldl, ↓Dev.frame_foldlPair, ↓Dev.frame_self, implies_true, and_self]

theorem Dev.eccReads_frame (d : Dev) (l : List EccEvent) :
    Dev.Frame [.log, .dict, .mem, .ddr, .power, .recd] d (Dev.eccReads d l) := by
  unfold Dev.eccReads
  simp (disch := first | decide | (intros; (repeat' (first | (simp (disch := decide) only [↓(Dev.eccRead_frame _ _).iff, ↓Dev.frame_foldl, ↓Dev.frame_foldlPair, ↓Dev.frame_self, implies_true, and_self]) | (with_reducible refine And.intro ?_ ?_) | (with_reducible intro _) | split)))) only [↓(Dev.eccRead_frame _ _).iff, ↓Dev.frame_foldl, ↓Dev.frame_foldlPair, ↓Dev.frame_self, implies_true, and_self]

theorem Dev.readKeys_frame (d : Dev) (rs : List (Nat × Nat)) (ecc : List EccEvent) :
    Dev.Frame [.log, .dict, .mem, .ddr, .power, .recd] d (Dev.readKeys d rs ecc).1 := by
  unfold Dev.readKeys
  simp (disch := first | decide | (intros; (repeat' (first | (simp (disch := decide) only [↓(Dev.eccReads_frame _ _).iff, ↓(Dev.poisonRead_frame _ _).iff, ↓Dev.frame_ite, ↓Dev.frame_ite1, ↓Dev.frame_foldl, ↓Dev.frame_foldlPair, ↓Dev.frame_self, implies_true, and_self]) | (with_reducible refine And.intro ?_ ?_) | (with_reducible intro _) | split)))) only [↓(Dev.eccReads_frame _ _).iff, ↓(Dev.poisonRead_frame _ _).iff, ↓Dev.frame_ite, ↓Dev.frame_ite1, ↓Dev.frame_foldl, ↓Dev.frame_foldlPair, ↓Dev.frame_self, implies_true, and_self]

theorem Dev.eltPut_frame (d : Dev) (own : Option Nat) (t : TDesc) (i : List Nat) (v : Nat) :
    Dev.Frame [.mem] d (Dev.eltPut d own t i v) := by
  unfold Dev.eltPut
  simp (disch := decide) only [↓(Dev.storeA_frame _ _ _ _).iff, ↓Dev.frame_ite, ↓Dev.frame_self, implies_true,
      and_self]

theorem Dev.healElts_frame (d : Dev) (own : Option Nat) (t : TDesc) (l : List (List Nat)) :
    Dev.Frame [.mem] d (Dev.healElts d own t l) := by
  unfold Dev.healElts
  simp (disch := decide) only [↓Dev.frame_mem, ↓Dev.frame_ite, ↓Dev.frame_ite1, ↓Dev.frame_self, implies_true,
      and_self]

theorem Dev.setValid_frame (d : Dev) (own : Option Nat) (t : TDesc) (i : List Nat) (v : Bool) :
    Dev.Frame [.mem] d (Dev.setValid d own t i v) := by
  unfold Dev.setValid
  simp (disch := decide) only [↓(Dev.storeA_frame _ _ _ _).iff, ↓Dev.frame_ite, ↓Dev.frame_self, implies_true,
      and_self]

theorem Dev.putTimes_frame (d : Dev) (own : Option Nat) (a : Nat) (t : Option Times) (faulted : Bool) :
    Dev.Frame [.mem] d (Dev.putTimes d own a t faulted) := by
  unfold Dev.putTimes
  repeat' (first
    | (simp (disch := decide) only [↓(Dev.storeA_frame _ _ _ _).iff, ↓Dev.frame_self, implies_true, and_self])
    | (with_reducible refine And.intro ?_ ?_)
    | (with_reducible intro _)
    | split)

theorem Dev.markFaulted_frame (d : Dev) (own : Option Nat) (a : Nat) :
    Dev.Frame [.mem] d (Dev.markFaulted d own a) := by
  unfold Dev.markFaulted
  simp (disch := decide) only [↓(Dev.storeA_frame _ _ _ _).iff, ↓Dev.frame_self]

theorem Dev.sendStatus_frame (d : Dev) :
    Dev.Frame [.hull, .palca, .out] d (Dev.sendStatus d) := by
  unfold Dev.sendStatus
  split
  · exact Dev.Frame.refl _
  · refine (Dev.frame_palca (by decide)).2 ((Dev.frame_foldl ?_ _ _ _).2 ((Dev.frame_hull (by decide)).2
      (Dev.Frame.refl _)))
    intro e x
    refine (Dev.frame_foldl ?_ _ _ _).2 (Dev.Frame.refl _)
    intro e p
    exact (Dev.emitHost_frame _ _ _ _ _).mono (by decide)

theorem Dev.sendTwin_frame (d : Dev) (type : Nat) (payload : List Word) :
    Dev.Frame [.twin, .out] d (Dev.sendTwin d type payload) := by
  unfold Dev.sendTwin
  simp (disch := decide) only [↓(Dev.emit_frame _ _ _ _).iff, ↓Dev.frame_twin, ↓Dev.frame_ite, ↓Dev.frame_self,
      implies_true, and_self]

theorem Dev.sendDecision_frame (d : Dev) :
    Dev.Frame [.twin, .out] d (Dev.sendDecision d) := by
  unfold Dev.sendDecision
  simp (disch := decide) only [↓(Dev.sendTwin_frame _ _ _).iff, ↓Dev.frame_ite, ↓Dev.frame_self, implies_true,
      and_self]

theorem Dev.sendCommand_frame (d : Dev) :
    Dev.Frame [.out] d (Dev.sendCommand d) := by
  unfold Dev.sendCommand
  simp (disch := decide) only [↓(Dev.emit_frame _ _ _ _).iff, ↓Dev.frame_ite, ↓Dev.frame_self, implies_true, and_self]

theorem Dev.huskStop_frame (d : Dev) :
    Dev.Frame [.hull, .out] d (Dev.huskStop d) := by
  unfold Dev.huskStop
  simp (disch := decide) only [↓(Dev.emit_frame _ _ _ _).iff, ↓Dev.frame_hull, ↓Dev.frame_ite, ↓Dev.frame_self,
      implies_true, and_self]

theorem Dev.writeContext_frame (d : Dev) (c : Capture) :
    Dev.Frame [.recd] d (Dev.writeContext d c) := by
  unfold Dev.writeContext
  simp (disch := decide) only [↓Dev.frame_recd, ↓Dev.frame_self]

theorem Dev.recEvent_frame (d : Dev) (cause : Nat) :
    Dev.Frame [.recd] d (Dev.recEvent d cause) := by
  unfold Dev.recEvent
  simp (disch := decide) only [↓(Dev.record_frame _ _ _).iff, ↓(Dev.writeContext_frame _ _).iff, ↓Dev.frame_recd,
      ↓Dev.frame_ite, ↓Dev.frame_self, implies_true, and_self]

theorem Dev.enterStop_frame (d : Dev) (cause : Nat) (cat0 : Bool) :
    Dev.Frame [.log, .dict, .hull, .recd] d (Dev.enterStop d cause cat0) := by
  unfold Dev.enterStop
  simp (disch := first | decide | (intros; (repeat' (first | (simp (disch := decide) only [↓(Dev.effect_frame _ _ _).iff, ↓(Dev.occur_frame _ _ _).iff, ↓(Dev.recEvent_frame _ _).iff, ↓Dev.frame_hull, ↓Dev.frame_ite, ↓Dev.frame_ite1, ↓Dev.frame_foldl, ↓Dev.frame_foldlPair, ↓Dev.frame_self, implies_true, and_self]) | (with_reducible refine And.intro ?_ ?_) | (with_reducible intro _) | split)))) only [↓(Dev.effect_frame _ _ _).iff, ↓(Dev.occur_frame _ _ _).iff, ↓(Dev.recEvent_frame _ _).iff, ↓Dev.frame_hull, ↓Dev.frame_ite, ↓Dev.frame_ite1, ↓Dev.frame_foldl, ↓Dev.frame_foldlPair, ↓Dev.frame_self, implies_true, and_self]

theorem Dev.showTier_frame (d : Dev) :
    Dev.Frame [.hull, .twin, .palca, .out] d (Dev.showTier d) := by
  unfold Dev.showTier
  simp (disch := decide) only [↓(Dev.sendCommand_frame _).iff, ↓(Dev.sendDecision_frame _).iff,
      ↓(Dev.sendStatus_frame _).iff, ↓Dev.frame_hull, ↓Dev.frame_self]

theorem Dev.retier_frame (d : Dev) (cause : Nat) (cat0 : Bool) :
    Dev.Frame [.log, .dict, .hull, .twin, .palca, .recd, .out] d (Dev.retier d cause cat0) := by
  unfold Dev.retier
  simp (disch := first | decide | (intros; (repeat' (first | (simp (disch := decide) only [↓(Dev.enterStop_frame _ _ _).iff, ↓(Dev.sendCommand_frame _).iff, ↓(Dev.showTier_frame _).iff, ↓Dev.frame_hull, ↓Dev.frame_ite, ↓Dev.frame_ite1, ↓Dev.frame_foldl, ↓Dev.frame_foldlPair, ↓Dev.frame_self, implies_true, and_self]) | (with_reducible refine And.intro ?_ ?_) | (with_reducible intro _) | split)))) only [↓(Dev.enterStop_frame _ _ _).iff, ↓(Dev.sendCommand_frame _).iff, ↓(Dev.showTier_frame _).iff, ↓Dev.frame_hull, ↓Dev.frame_ite, ↓Dev.frame_ite1, ↓Dev.frame_foldl, ↓Dev.frame_foldlPair, ↓Dev.frame_self, implies_true, and_self]

theorem Dev.demand_frame (d : Dev) (src tier cause : Nat) :
    Dev.Frame [.log, .dict, .hull, .twin, .palca, .recd, .out] d (Dev.demand d src tier cause) := by
  unfold Dev.demand
  simp (disch := decide) only [↓(Dev.retier_frame _ _ _).iff, ↓Dev.frame_hull, ↓Dev.frame_self]

theorem Dev.demandOnce_frame (d : Dev) (tier cause : Nat) :
    Dev.Frame [.log, .dict, .hull, .twin, .palca, .recd, .out] d (Dev.demandOnce d tier cause) := by
  unfold Dev.demandOnce
  simp (disch := decide) only [↓(Dev.demand_frame _ _ _ _).iff, ↓Dev.frame_self]

theorem Dev.protect_frame (d : Dev) (src tier cause : Nat) :
    Dev.Frame [.log, .dict, .hull, .twin, .palca, .recd, .out] d (Dev.protect d src tier cause) := by
  unfold Dev.protect
  simp (disch := decide) only [↓(Dev.demand_frame _ _ _ _).iff, ↓(Dev.effect_frame _ _ _).iff,
      ↓(Dev.occur_frame _ _ _).iff, ↓(Dev.recEvent_frame _ _).iff, ↓Dev.frame_self]

theorem Dev.lower_frame (d : Dev) :
    Dev.Frame [.hull, .twin, .palca, .out] d (Dev.lower d) := by
  unfold Dev.lower
  simp (disch := decide) only [↓(Dev.showTier_frame _).iff, ↓Dev.frame_hull, ↓Dev.frame_ite, ↓Dev.frame_self,
      implies_true, and_self]

theorem Dev.restoreOutputs_frame (d : Dev) :
    Dev.Frame [.hull] d (Dev.restoreOutputs d) := by
  unfold Dev.restoreOutputs
  simp (disch := decide) only [↓Dev.frame_hull, ↓Dev.frame_ite, ↓Dev.frame_self, implies_true, and_self]

theorem Dev.modRec_frame (d : Dev) (f : Recorder → Recorder) :
    Dev.Frame [.recd] d (Dev.modRec d f) := by
  unfold Dev.modRec
  simp (disch := decide) only [↓Dev.frame_recd, ↓Dev.frame_self]

theorem Dev.modBlock_frame (d : Dev) (b : Nat) (f : NandBlock → NandBlock) :
    Dev.Frame [.recd] d (Dev.modBlock d b f) := by
  unfold Dev.modBlock
  simp (disch := decide) only [↓(Dev.modRec_frame _ _).iff, ↓Dev.frame_self]

theorem Dev.swapBlocks_frame (d : Dev) (b n : Nat) :
    Dev.Frame [.recd] d (Dev.swapBlocks d b n) := by
  unfold Dev.swapBlocks
  simp (disch := decide) only [↓(Dev.modRec_frame _ _).iff, ↓Dev.frame_ite, ↓Dev.frame_ite1, ↓Dev.frame_self,
      implies_true, and_self]

theorem Dev.programPage_frame (d : Dev) (p : NandPlace) (pos : Nat) :
    Dev.Frame [.recd] d (Dev.programPage d p pos) := by
  unfold Dev.programPage
  simp (disch := decide) only [↓(Dev.modBlock_frame _ _ _).iff, ↓(Dev.modRec_frame _ _).iff, ↓Dev.frame_self,
      implies_true, and_self]

theorem Dev.spoilPage_frame (d : Dev) (b p : Nat) (bad : Nat → Bool) :
    Dev.Frame [.recd] d (Dev.spoilPage d b p bad) := by
  unfold Dev.spoilPage
  simp (disch := decide) only [↓(Dev.modRec_frame _ _).iff, ↓Dev.frame_ite, ↓Dev.frame_ite1, ↓Dev.frame_self,
      implies_true, and_self]

theorem Dev.eraseBlock_frame (d : Dev) (b : Nat) :
    Dev.Frame [.recd] d (Dev.eraseBlock d b) := by
  unfold Dev.eraseBlock
  simp (disch := decide) only [↓(Dev.modBlock_frame _ _ _).iff, ↓(Dev.modRec_frame _ _).iff, ↓Dev.frame_self,
      implies_true, and_self]

theorem Dev.enqueueWork_frame (d : Dev) (w : NandWork) :
    Dev.Frame [.recd] d (Dev.enqueueWork d w) := by
  unfold Dev.enqueueWork
  simp (disch := decide) only [↓(Dev.modRec_frame _ _).iff, ↓Dev.frame_self, implies_true, and_self]

theorem Dev.setHead_frame (d : Dev) (a : NandArea) (copy : Nat) (h : NandHead) :
    Dev.Frame [.recd] d (Dev.setHead d a copy h) := by
  unfold Dev.setHead
  simp (disch := decide) only [↓(Dev.modRec_frame _ _).iff, ↓Dev.frame_self, implies_true, and_self]

theorem Dev.modJournal_frame (d : Dev) (a : NandArea) (f : List JEntry → List JEntry) :
    Dev.Frame [.recd] d (Dev.modJournal d a f) := by
  unfold Dev.modJournal
  simp (disch := decide) only [↓(Dev.modRec_frame _ _).iff, ↓Dev.frame_ite, ↓Dev.frame_ite1, ↓Dev.frame_self,
      implies_true, and_self]

theorem Dev.eraseLater_frame (d : Dev) (cls : Nat) (a : NandArea) (copy : Fin 2) (b : Nat) :
    Dev.Frame [.recd] d (Dev.eraseLater d cls a copy b) := by
  unfold Dev.eraseLater
  simp (disch := decide) only [↓(Dev.enqueueWork_frame _ _).iff, ↓Dev.frame_self, implies_true, and_self]

theorem Dev.snapshot_frame (d : Dev) (a : NandArea) (copy : Fin 2) (n : Nat) :
    Dev.Frame [.recd] d (Dev.snapshot d a copy n) := by
  unfold Dev.snapshot
  repeat' (first
    | (simp (disch := first | decide | (intros; (repeat' (first | (simp (disch := decide) only [↓(Dev.eraseLater_frame _ _ _ _ _).iff, ↓(Dev.modJournal_frame _ _ _).iff, ↓(Dev.programPage_frame _ _ _).iff, ↓(Dev.setHead_frame _ _ _ _).iff, ↓Dev.frame_ite, ↓Dev.frame_ite1, ↓Dev.frame_foldl, ↓Dev.frame_foldlPair, ↓Dev.frame_self, implies_true, and_self]) | (with_reducible refine And.intro ?_ ?_) | (with_reducible intro _) | split)))) only [↓(Dev.eraseLater_frame _ _ _ _ _).iff, ↓(Dev.modJournal_frame _ _ _).iff, ↓(Dev.programPage_frame _ _ _).iff, ↓(Dev.setHead_frame _ _ _ _).iff, ↓Dev.frame_ite, ↓Dev.frame_ite1, ↓Dev.frame_foldl, ↓Dev.frame_foldlPair, ↓Dev.frame_self, implies_true, and_self])
    | (with_reducible refine And.intro ?_ ?_)
    | (with_reducible intro _)
    | split)

theorem Dev.openPage_frame (d : Dev) (a : NandArea) (copy : Fin 2) :
    Dev.Frame [.recd] d (Dev.openPage d a copy).1 := by
  unfold Dev.openPage
  repeat' (first
    | (simp (disch := decide) only [↓(Dev.eraseLater_frame _ _ _ _ _).iff, ↓(Dev.setHead_frame _ _ _ _).iff,
      ↓(Dev.snapshot_frame _ _ _ _).iff, ↓Dev.frame_ite, ↓Dev.frame_ite1, ↓Dev.frame_self, implies_true, and_self])
    | (with_reducible refine And.intro ?_ ?_)
    | (with_reducible intro _)
    | split)

theorem Dev.programLater_frame (d : Dev) (cls : Nat) (a : NandArea) (copy : Fin 2) (ticket bytes : Nat) :
    Dev.Frame [.recd] d (Dev.programLater d cls a copy ticket bytes) := by
  unfold Dev.programLater
  simp (disch := decide) only [↓(Dev.enqueueWork_frame _ _).iff, ↓(Dev.openPage_frame _ _ _).iff, ↓Dev.frame_self,
      implies_true, and_self]

theorem Dev.fillRing_frame (d : Dev) :
    Dev.Frame [.recd] d (Dev.fillRing d) := by
  unfold Dev.fillRing
  simp (disch := decide) only [↓(Dev.programLater_frame _ _ _ _ _ _).iff, ↓Dev.frame_ite, ↓Dev.frame_ite1,
      ↓Dev.frame_self, implies_true, and_self]

theorem Dev.startLun_frame (d : Dev) (lun : Nat) :
    Dev.Frame [.recd] d (Dev.startLun d lun) := by
  unfold Dev.startLun
  repeat' (first
    | (simp (disch := decide) only [↓(Dev.modRec_frame _ _).iff, ↓Dev.frame_self, implies_true, and_self])
    | (with_reducible refine And.intro ?_ ?_)
    | (with_reducible intro _)
    | split)

theorem Dev.serveNand_frame (d : Dev) :
    Dev.Frame [.recd] d (Dev.serveNand d) := by
  unfold Dev.serveNand
  simp (disch := first | decide | (intros; (repeat' (first | (simp (disch := decide) only [↓(Dev.fillRing_frame _).iff, ↓(Dev.startLun_frame _ _).iff, ↓Dev.frame_foldl, ↓Dev.frame_foldlPair, ↓Dev.frame_self, implies_true, and_self]) | (with_reducible refine And.intro ?_ ?_) | (with_reducible intro _) | split)))) only [↓(Dev.fillRing_frame _).iff, ↓(Dev.startLun_frame _ _).iff, ↓Dev.frame_foldl, ↓Dev.frame_foldlPair, ↓Dev.frame_self, implies_true, and_self]

theorem Dev.journal_frame (d : Dev) (a : NandArea) (key : Nat) (value : List Nat) :
    Dev.Frame [.recd] d (Dev.journal d a key value) := by
  unfold Dev.journal
  simp (disch := decide) only [↓(Dev.modJournal_frame _ _ _).iff, ↓(Dev.modRec_frame _ _).iff,
      ↓(Dev.programLater_frame _ _ _ _ _ _).iff, ↓(Dev.serveNand_frame _).iff, ↓Dev.frame_self, implies_true,
      and_self]

theorem Dev.persist_frame (d : Dev) (key : Nat) (value : List Nat) :
    Dev.Frame [.recd] d (Dev.persist d key value) := by
  unfold Dev.persist
  simp (disch := decide) only [↓(Dev.journal_frame _ _ _ _).iff, ↓Dev.frame_self, implies_true, and_self]

theorem Dev.cutPage_frame (d : Dev) (w : NandWork) :
    Dev.Frame [.recd] d (Dev.cutPage d w) := by
  unfold Dev.cutPage
  simp (disch := decide) only [↓(Dev.spoilPage_frame _ _ _ _).iff, ↓Dev.frame_ite, ↓Dev.frame_ite1, ↓Dev.frame_self,
      implies_true, and_self]

theorem Dev.setDom_frame (d : Dev) (x : Dom) (v : Domain) :
    Dev.Frame [.time] d (Dev.setDom d x v) := by
  unfold Dev.setDom
  repeat' (first
    | (simp (disch := decide) only [↓Dev.frame_time, ↓Dev.frame_self, implies_true, and_self])
    | (with_reducible refine And.intro ?_ ?_)
    | (with_reducible intro _)
    | split)

theorem Dev.ageDom_frame (d : Dev) (x : Dom) :
    Dev.Frame [.time] d (Dev.ageDom d x) := by
  unfold Dev.ageDom
  simp (disch := decide) only [↓(Dev.setDom_frame _ _ _).iff, ↓Dev.frame_self, implies_true, and_self]

theorem Dev.evalDom_frame (d : Dev) (x : Dom) :
    Dev.Frame [.time] d (Dev.evalDom d x) := by
  unfold Dev.evalDom
  repeat' (first
    | (simp (disch := decide) only [↓(Dev.setDom_frame _ _ _).iff, ↓Dev.frame_ite, ↓Dev.frame_ite1, ↓Dev.frame_self,
      implies_true, and_self])
    | (with_reducible refine And.intro ?_ ?_)
    | (with_reducible intro _)
    | split)

theorem Dev.setTimeState_frame (d : Dev) :
    Dev.Frame [.time] d (Dev.setTimeState d) := by
  unfold Dev.setTimeState
  simp (disch := decide) only [↓Dev.frame_time, ↓Dev.frame_self]

theorem Dev.select_frame (d : Dev) (new : Option Dom) :
    Dev.Frame [.time, .log, .dict, .power, .recd] d (Dev.select d new) := by
  unfold Dev.select
  repeat' (first
    | (simp (disch := decide) only [↓(Dev.raise_frame _ _ _ _).iff, ↓Dev.frame_time, ↓Dev.frame_ite, ↓Dev.frame_ite1,
      ↓Dev.frame_self, implies_true, and_self])
    | (with_reducible refine And.intro ?_ ?_)
    | (with_reducible intro _)
    | split)

theorem Dev.growUncertainty_frame (d : Dev) :
    Dev.Frame [.time] d (Dev.growUncertainty d) := by
  unfold Dev.growUncertainty
  simp (disch := decide) only [↓Dev.frame_time, ↓Dev.frame_self, implies_true, and_self]

theorem Dev.checkHoldover_frame (d : Dev) :
    Dev.Frame [.time, .log, .dict, .power, .recd] d (Dev.checkHoldover d) := by
  unfold Dev.checkHoldover
  simp (disch := decide) only [↓(Dev.growUncertainty_frame _).iff, ↓(Dev.raise_frame _ _ _ _).iff, ↓Dev.frame_time,
      ↓Dev.frame_ite, ↓Dev.frame_ite1, ↓Dev.frame_self, implies_true, and_self]

theorem Dev.steer_frame (d : Dev) :
    Dev.Frame [.time, .free] d (Dev.steer d) := by
  unfold Dev.steer
  repeat' (first
    | (simp (disch := decide) only [↓(Dev.bumpFree_frame _).iff, ↓Dev.frame_time, ↓Dev.frame_ite, ↓Dev.frame_ite1,
      ↓Dev.frame_self, implies_true, and_self])
    | (with_reducible refine And.intro ?_ ?_)
    | (with_reducible intro _)
    | split)

theorem servoUpdate_frame (d : Dev) :
    Dev.Frame [.time, .log, .dict, .power, .recd, .free] d (servoUpdate d) := by
  unfold servoUpdate
  simp (disch := decide) only [↓(Dev.checkHoldover_frame _).iff, ↓(Dev.evalDom_frame _ _).iff,
      ↓(Dev.raiseIf_frame _ _ _ _ _).iff, ↓(Dev.select_frame _ _).iff, ↓(Dev.setTimeState_frame _).iff,
      ↓(Dev.steer_frame _).iff, ↓Dev.frame_ite, ↓Dev.frame_self, implies_true, and_self]

theorem execServoUpdate_frame (s : State) :
    ∃ d, execServoUpdate s = .next { s with dev := d } ∧ Dev.Frame [.time, .log, .dict, .power, .recd, .free] s.dev d := ⟨_, rfl, servoUpdate_frame _⟩

theorem holdoverExceeded_frame (d : Dev) :
    Dev.Frame [.time, .log, .dict, .power, .recd] d (holdoverExceeded d) := by
  unfold holdoverExceeded
  simp (disch := decide) only [↓(Dev.checkHoldover_frame _).iff, ↓(Dev.setTimeState_frame _).iff, ↓Dev.frame_self,
      implies_true, and_self]

theorem execHoldoverExceeded_frame (s : State) :
    ∃ d, execHoldoverExceeded s = .next { s with dev := d } ∧ Dev.Frame [.time, .log, .dict, .power, .recd] s.dev d := ⟨_, rfl, holdoverExceeded_frame _⟩

theorem slewSaturated_frame (d : Dev) :
    Dev.Frame [.time, .log, .dict, .power, .recd] d (slewSaturated d) := by
  unfold slewSaturated
  simp (disch := decide) only [↓(Dev.raise_frame _ _ _ _).iff, ↓Dev.frame_time, ↓Dev.frame_ite, ↓Dev.frame_self,
      implies_true, and_self]

theorem execSlewSaturated_frame (s : State) :
    ∃ d, execSlewSaturated s = .next { s with dev := d } ∧ Dev.Frame [.time, .log, .dict, .power, .recd] s.dev d := ⟨_, rfl, slewSaturated_frame _⟩

theorem revertHoldOffExpiry_frame (d : Dev) :
    Dev.Frame [.time, .log, .dict, .power, .recd] d (revertHoldOffExpiry d) := by
  unfold revertHoldOffExpiry
  repeat' (first
    | (simp (disch := decide) only [↓(Dev.select_frame _ _).iff, ↓(Dev.setTimeState_frame _).iff, ↓Dev.frame_ite,
      ↓Dev.frame_ite1, ↓Dev.frame_self, implies_true, and_self])
    | (with_reducible refine And.intro ?_ ?_)
    | (with_reducible intro _)
    | split)

theorem execRevertHoldOffExpiry_frame (s : State) :
    ∃ d, execRevertHoldOffExpiry s = .next { s with dev := d } ∧ Dev.Frame [.time, .log, .dict, .power, .recd] s.dev d := ⟨_, rfl, revertHoldOffExpiry_frame _⟩

theorem Dev.modDelay_frame (d : Dev) (port : Nat) (f : PortDelay → PortDelay) :
    Dev.Frame [.time] d (Dev.modDelay d port f) := by
  unfold Dev.modDelay
  simp (disch := decide) only [↓Dev.frame_time, ↓Dev.frame_self]

theorem ptpSync_frame (port dn : Nat) (logInt : Int) (seq : BitVec 16) (twoStep : Bool) (origin : Int) (d : Dev) :
    Dev.Frame [.time] d (ptpSync port dn logInt seq twoStep origin d) := by
  unfold ptpSync
  repeat' (first
    | (simp (disch := decide) only [↓(Dev.setDom_frame _ _ _).iff, ↓Dev.frame_ite, ↓Dev.frame_ite1, ↓Dev.frame_self,
      implies_true, and_self])
    | (with_reducible refine And.intro ?_ ?_)
    | (with_reducible intro _)
    | split)

theorem execPtpSync_frame (port : Fin 2) (dn : Nat) (logInt : Int) (seq : BitVec 16) (twoStep : Bool) (origin : Int)
      (s : State) :
    ∃ d, execPtpSync port dn logInt seq twoStep origin s = .next { s with dev := d } ∧ Dev.Frame [.time] s.dev d := ⟨_, rfl, ptpSync_frame _ _ _ _ _ _ _⟩

theorem ptpFollowUp_frame (port dn : Nat) (logInt : Int) (seq : BitVec 16) (origin : Int) (d : Dev) :
    Dev.Frame [.time] d (ptpFollowUp port dn logInt seq origin d) := by
  unfold ptpFollowUp
  repeat' (first
    | (simp (disch := decide) only [↓(Dev.setDom_frame _ _ _).iff, ↓Dev.frame_ite, ↓Dev.frame_ite1, ↓Dev.frame_self,
      implies_true, and_self])
    | (with_reducible refine And.intro ?_ ?_)
    | (with_reducible intro _)
    | split)

theorem execPtpFollowUp_frame (port : Fin 2) (dn : Nat) (logInt : Int) (seq : BitVec 16) (origin : Int) (s : State) :
    ∃ d, execPtpFollowUp port dn logInt seq origin s = .next { s with dev := d } ∧ Dev.Frame [.time] s.dev d := ⟨_, rfl, ptpFollowUp_frame _ _ _ _ _ _⟩

theorem ptpAnnounce_frame (port dn : Nat) (logInt : Int) (identity : Nat) (gm : Word) (clockClass : Nat) (d : Dev) :
    Dev.Frame [.time] d (ptpAnnounce port dn logInt identity gm clockClass d) := by
  unfold ptpAnnounce
  repeat' (first
    | (simp (disch := decide) only [↓(Dev.setDom_frame _ _ _).iff, ↓Dev.frame_ite, ↓Dev.frame_ite1, ↓Dev.frame_self,
      implies_true, and_self])
    | (with_reducible refine And.intro ?_ ?_)
    | (with_reducible intro _)
    | split)

theorem execPtpAnnounce_frame (port : Fin 2) (dn : Nat) (logInt : Int) (identity : Nat) (gm : Word) (clockClass :
      Nat) (s : State) :
    ∃ d, execPtpAnnounce port dn logInt identity gm clockClass s = .next { s with dev := d } ∧ Dev.Frame [.time]
      s.dev d := ⟨_, rfl, ptpAnnounce_frame _ _ _ _ _ _ _⟩

theorem Dev.enterAbsent_frame (d : Dev) (x : Dom) :
    Dev.Frame [.time, .log, .dict, .power, .recd] d (Dev.enterAbsent d x) := by
  unfold Dev.enterAbsent
  simp (disch := decide) only [↓(Dev.occur_frame _ _ _).iff, ↓(Dev.raise_frame _ _ _ _).iff,
      ↓(Dev.setDom_frame _ _ _).iff, ↓Dev.frame_self, implies_true, and_self]

theorem Dev.syncDomain_frame (d : Dev) (x : Dom) :
    Dev.Frame [.time, .log, .dict, .power, .recd] d (Dev.syncDomain d x) := by
  unfold Dev.syncDomain
  simp (disch := decide) only [↓(Dev.enterAbsent_frame _ _).iff, ↓(Dev.setDom_frame _ _ _).iff, ↓Dev.frame_ite,
      ↓Dev.frame_ite1, ↓Dev.frame_self, implies_true, and_self]

theorem domainReceiptTimeout_frame (x : Dom) (d : Dev) :
    Dev.Frame [.time, .log, .dict, .power, .recd] d (domainReceiptTimeout x d) := by
  unfold domainReceiptTimeout
  simp (disch := decide) only [↓(Dev.ageDom_frame _ _).iff, ↓(Dev.enterAbsent_frame _ _).iff, ↓Dev.frame_ite,
      ↓Dev.frame_self, implies_true, and_self]

theorem execDomainReceiptTimeout_frame (x : Dom) (s : State) :
    ∃ d, execDomainReceiptTimeout x s = .next { s with dev := d } ∧ Dev.Frame [.time, .log, .dict, .power,
      .recd] s.dev d := ⟨_, rfl, domainReceiptTimeout_frame _ _⟩

theorem pdelayInterval_frame (port : Nat) (d : Dev) :
    Dev.Frame [.time, .log, .dict, .power, .recd, .out] d (pdelayInterval port d) := by
  unfold pdelayInterval
  simp (disch := decide) only [↓(Dev.emit_frame _ _ _ _).iff, ↓(Dev.modDelay_frame _ _ _).iff,
      ↓(Dev.raiseIf_frame _ _ _ _ _).iff, ↓Dev.frame_ite, ↓Dev.frame_self, implies_true, and_self]

theorem execPdelayInterval_frame (port : Fin 6) (s : State) :
    ∃ d, execPdelayInterval port s = .next { s with dev := d } ∧ Dev.Frame [.time, .log, .dict, .power, .recd,
      .out] s.dev d := ⟨_, rfl, pdelayInterval_frame _ _⟩

theorem pdelayResponse_frame (port : Nat) (seq : BitVec 16) (t2 t3 : Option Int) (d : Dev) :
    Dev.Frame [.time] d (pdelayResponse port seq t2 t3 d) := by
  unfold pdelayResponse
  repeat' (first
    | (simp (disch := decide) only [↓(Dev.modDelay_frame _ _ _).iff, ↓Dev.frame_ite, ↓Dev.frame_ite1,
      ↓Dev.frame_self, implies_true, and_self])
    | (with_reducible refine And.intro ?_ ?_)
    | (with_reducible intro _)
    | split)

theorem execPdelayResponse_frame (port : Fin 6) (seq : BitVec 16) (t2 t3 : Option Int) (s : State) :
    ∃ d, execPdelayResponse port seq t2 t3 s = .next { s with dev := d } ∧ Dev.Frame [.time] s.dev d := ⟨_, rfl, pdelayResponse_frame _ _ _ _ _⟩

theorem pdelayReq_frame (port : Nat) (seq : BitVec 16) (d : Dev) :
    Dev.Frame [.out] d (pdelayReq port seq d) := by
  unfold pdelayReq
  simp (disch := decide) only [↓(Dev.emit_frame _ _ _ _).iff, ↓Dev.frame_ite, ↓Dev.frame_self, implies_true, and_self]

theorem execPdelayReq_frame (port : Fin 6) (seq : BitVec 16) (s : State) :
    ∃ d, execPdelayReq port seq s = .next { s with dev := d } ∧ Dev.Frame [.out] s.dev d := ⟨_, rfl, pdelayReq_frame _ _ _⟩

theorem sensorPortSync_frame (p : Nat) (d : Dev) :
    Dev.Frame [.time, .out] d (sensorPortSync p d) := by
  unfold sensorPortSync
  simp (disch := decide) only [↓(Dev.emit_frame _ _ _ _).iff, ↓Dev.frame_time, ↓Dev.frame_ite, ↓Dev.frame_self,
      implies_true, and_self]

theorem execSensorPortSync_frame (p : Fin 4) (s : State) :
    ∃ d, execSensorPortSync p s = .next { s with dev := d } ∧ Dev.Frame [.time, .out] s.dev d := ⟨_, rfl, sensorPortSync_frame _ _⟩

theorem sensorPortAnnounce_frame (p : Nat) (d : Dev) :
    Dev.Frame [.out] d (sensorPortAnnounce p d) := by
  unfold sensorPortAnnounce
  simp (disch := decide) only [↓(Dev.emit_frame _ _ _ _).iff, ↓Dev.frame_ite, ↓Dev.frame_self, implies_true, and_self]

theorem execSensorPortAnnounce_frame (p : Fin 4) (s : State) :
    ∃ d, execSensorPortAnnounce p s = .next { s with dev := d } ∧ Dev.Frame [.out] s.dev d := ⟨_, rfl, sensorPortAnnounce_frame _ _⟩

theorem Dev.modTrig_frame (d : Dev) (pin : Nat) (f : Trig → Trig) :
    Dev.Frame [.time] d (Dev.modTrig d pin f) := by
  unfold Dev.modTrig
  simp (disch := decide) only [↓Dev.frame_time, ↓Dev.frame_self]

theorem Dev.scheduleTrig_frame (d : Dev) (pin start : Nat) :
    Dev.Frame [.time, .log, .dict, .power, .recd] d (Dev.scheduleTrig d pin start) := by
  unfold Dev.scheduleTrig
  repeat' (first
    | (simp (disch := decide) only [↓(Dev.modTrig_frame _ _ _).iff, ↓(Dev.raise_frame _ _ _ _).iff, ↓Dev.frame_ite,
      ↓Dev.frame_ite1, ↓Dev.frame_self, implies_true, and_self])
    | (with_reducible refine And.intro ?_ ?_)
    | (with_reducible intro _)
    | split)

theorem Dev.rescheduleTrigs_frame (d : Dev) :
    Dev.Frame [.time, .log, .dict, .power, .recd] d (Dev.rescheduleTrigs d) := by
  unfold Dev.rescheduleTrigs
  simp (disch := first | decide | (intros; (repeat' (first | (simp (disch := decide) only [↓(Dev.scheduleTrig_frame _ _ _).iff, ↓Dev.frame_ite, ↓Dev.frame_ite1, ↓Dev.frame_foldl, ↓Dev.frame_foldlPair, ↓Dev.frame_self, implies_true, and_self]) | (with_reducible refine And.intro ?_ ?_) | (with_reducible intro _) | split)))) only [↓(Dev.scheduleTrig_frame _ _ _).iff, ↓Dev.frame_ite, ↓Dev.frame_ite1, ↓Dev.frame_foldl, ↓Dev.frame_foldlPair, ↓Dev.frame_self, implies_true, and_self]

theorem Dev.adoptTrigs_frame (d : Dev) :
    Dev.Frame [.time, .log, .dict, .power, .recd] d (Dev.adoptTrigs d) := by
  unfold Dev.adoptTrigs
  simp (disch := first | decide | (intros; (repeat' (first | (simp (disch := decide) only [↓(Dev.modTrig_frame _ _ _).iff, ↓(Dev.scheduleTrig_frame _ _ _).iff, ↓Dev.frame_ite, ↓Dev.frame_ite1, ↓Dev.frame_foldl, ↓Dev.frame_foldlPair, ↓Dev.frame_self, implies_true, and_self]) | (with_reducible refine And.intro ?_ ?_) | (with_reducible intro _) | split)))) only [↓(Dev.modTrig_frame _ _ _).iff, ↓(Dev.scheduleTrig_frame _ _ _).iff, ↓Dev.frame_ite, ↓Dev.frame_ite1, ↓Dev.frame_foldl, ↓Dev.frame_foldlPair, ↓Dev.frame_self, implies_true, and_self]

theorem trigEdge_frame (pin : Nat) (d : Dev) :
    Dev.Frame [.time] d (trigEdge pin d) := by
  unfold trigEdge
  repeat' (first
    | (simp (disch := decide) only [↓(Dev.modTrig_frame _ _ _).iff, ↓Dev.frame_ite, ↓Dev.frame_ite1, ↓Dev.frame_self,
      implies_true, and_self])
    | (with_reducible refine And.intro ?_ ?_)
    | (with_reducible intro _)
    | split)

theorem execTrigEdge_frame (pin : Fin 16) (s : State) :
    ∃ d, execTrigEdge pin s = .next { s with dev := d } ∧ Dev.Frame [.time] s.dev d := ⟨_, rfl, trigEdge_frame _ _⟩

theorem trigPulseEnd_frame (pin : Nat) (d : Dev) :
    Dev.Frame [.time, .log, .dict, .power, .recd] d (trigPulseEnd pin d) := by
  unfold trigPulseEnd
  repeat' (first
    | (simp (disch := decide) only [↓(Dev.modTrig_frame _ _ _).iff, ↓(Dev.scheduleTrig_frame _ _ _).iff,
      ↓Dev.frame_ite, ↓Dev.frame_ite1, ↓Dev.frame_self, implies_true, and_self])
    | (with_reducible refine And.intro ?_ ?_)
    | (with_reducible intro _)
    | split)

theorem execTrigPulseEnd_frame (pin : Fin 16) (s : State) :
    ∃ d, execTrigPulseEnd pin s = .next { s with dev := d } ∧ Dev.Frame [.time, .log, .dict, .power, .recd] s.dev d := ⟨_, rfl, trigPulseEnd_frame _ _⟩

theorem Dev.refFault_frame (d : Dev) (cause src : Nat) :
    Dev.Frame [.log, .dict, .hull, .twin, .palca, .power, .recd, .out] d (Dev.refFault d cause src) := by
  unfold Dev.refFault
  simp (disch := decide) only [↓(Dev.huskStop_frame _).iff, ↓(Dev.protect_frame _ _ _ _).iff,
      ↓(Dev.raise_frame _ _ _ _).iff, ↓Dev.frame_self]

theorem refClockWindow_frame (edges : Nat) (d : Dev) :
    Dev.Frame [.log, .dict, .hull, .twin, .palca, .power, .recd, .out] d (refClockWindow edges d) := by
  unfold refClockWindow
  simp (disch := decide) only [↓(Dev.refFault_frame _ _ _).iff, ↓Dev.frame_power, ↓Dev.frame_ite, ↓Dev.frame_self,
      implies_true, and_self]

theorem execRefClockWindow_frame (edges : Nat) (s : State) :
    ∃ d, execRefClockWindow edges s = .next { s with dev := d } ∧ Dev.Frame [.log, .dict, .hull, .twin, .palca,
      .power, .recd, .out] s.dev d := ⟨_, rfl, refClockWindow_frame _ _⟩

theorem Dev.setSync_frame (d : Dev) (o : Nat) (w : Word) :
    Dev.Frame [.sync] d (Dev.setSync d o w) := by
  unfold Dev.setSync
  simp (disch := decide) only [↓Dev.frame_sync, ↓Dev.frame_self]

theorem Dev.waitReturn_frame (d : Dev) (who obj res : Nat) :
    Dev.Frame [.out] d (Dev.waitReturn d who obj res) := by
  unfold Dev.waitReturn
  simp (disch := decide) only [↓(Dev.emit_frame _ _ _ _).iff, ↓Dev.frame_self]

theorem Dev.releaseWaiters_frame (d : Dev) (o : Nat) :
    Dev.Frame [.sync, .out] d (Dev.releaseWaiters d o) := by
  unfold Dev.releaseWaiters
  simp (disch := first | decide | (intros; (repeat' (first | (simp (disch := decide) only [↓(Dev.waitReturn_frame _ _ _ _).iff, ↓Dev.frame_sync, ↓Dev.frame_foldl, ↓Dev.frame_foldlPair, ↓Dev.frame_self, implies_true, and_self]) | (with_reducible refine And.intro ?_ ?_) | (with_reducible intro _) | split)))) only [↓(Dev.waitReturn_frame _ _ _ _).iff, ↓Dev.frame_sync, ↓Dev.frame_foldl, ↓Dev.frame_foldlPair, ↓Dev.frame_self, implies_true, and_self]

theorem Dev.genFault_frame (d : Dev) (cause : Nat) :
    Dev.Frame [.hull] d (Dev.genFault d cause) := by
  unfold Dev.genFault
  simp (disch := decide) only [↓Dev.frame_hull, ↓Dev.frame_self]

theorem Dev.signal_frame (d : Dev) (o inc : Nat) (err : Bool) (cause : Nat) :
    Dev.Frame [.log, .dict, .sync, .hull, .power, .recd, .out] d (Dev.signal d o inc err cause) := by
  unfold Dev.signal
  simp (disch := decide) only [↓(Dev.genFault_frame _ _).iff, ↓(Dev.raiseIf_frame _ _ _ _ _).iff,
      ↓(Dev.releaseWaiters_frame _ _).iff, ↓(Dev.setSync_frame _ _ _).iff, ↓Dev.frame_ite, ↓Dev.frame_self,
      implies_true, and_self]

theorem syncSignal_frame (who : SyncIssuer) (obj inc : Nat) (err : Bool) (cause : Nat) (d : Dev) :
    Dev.Frame [.log, .dict, .sync, .hull, .power, .recd, .out] d (syncSignal who obj inc err cause d) := by
  unfold syncSignal
  simp (disch := decide) only [↓(Dev.raise_frame _ _ _ _).iff, ↓(Dev.signal_frame _ _ _ _ _).iff, ↓Dev.frame_ite,
      ↓Dev.frame_self, implies_true, and_self]

theorem execSyncSignal_frame (who : SyncIssuer) (obj inc : Nat) (err : Bool) (cause : BitVec 16) (s : State) :
    ∃ d, execSyncSignal who obj inc err cause s = .next { s with dev := d } ∧ Dev.Frame [.log, .dict, .sync, .hull,
      .power, .recd, .out] s.dev d := ⟨_, rfl, syncSignal_frame _ _ _ _ _ _⟩

theorem syncWait_frame (who : SyncIssuer) (obj threshold timeout : Nat) (d : Dev) :
    Dev.Frame [.log, .dict, .sync, .power, .recd, .out] d (syncWait who obj threshold timeout d) := by
  unfold syncWait
  repeat' (first
    | (simp (disch := decide) only [↓(Dev.raise_frame _ _ _ _).iff, ↓(Dev.waitReturn_frame _ _ _ _).iff,
      ↓Dev.frame_sync, ↓Dev.frame_ite, ↓Dev.frame_ite1, ↓Dev.frame_self, implies_true, and_self])
    | (with_reducible refine And.intro ?_ ?_)
    | (with_reducible intro _)
    | split)

theorem execSyncWait_frame (who : SyncIssuer) (obj threshold timeout : Nat) (s : State) :
    ∃ d, execSyncWait who obj threshold timeout s = .next { s with dev := d } ∧ Dev.Frame [.log, .dict, .sync,
      .power, .recd, .out] s.dev d := ⟨_, rfl, syncWait_frame _ _ _ _ _⟩

theorem Dev.syncResetTo_frame (d : Dev) (o v : Nat) :
    Dev.Frame [.sync, .out] d (Dev.syncResetTo d o v) := by
  unfold Dev.syncResetTo
  simp (disch := decide) only [↓(Dev.releaseWaiters_frame _ _).iff, ↓(Dev.setSync_frame _ _ _).iff, ↓Dev.frame_self]

theorem syncReset_frame (who : SyncIssuer) (obj v : Nat) (d : Dev) :
    Dev.Frame [.log, .dict, .sync, .power, .recd, .out] d (syncReset who obj v d) := by
  unfold syncReset
  simp (disch := decide) only [↓(Dev.raise_frame _ _ _ _).iff, ↓(Dev.syncResetTo_frame _ _ _).iff, ↓Dev.frame_ite,
      ↓Dev.frame_self, implies_true, and_self]

theorem execSyncReset_frame (who : SyncIssuer) (obj : Nat) (value : BitVec 32) (s : State) :
    ∃ d, execSyncReset who obj value s = .next { s with dev := d } ∧ Dev.Frame [.log, .dict, .sync, .power, .recd,
      .out] s.dev d := ⟨_, rfl, syncReset_frame _ _ _ _⟩

theorem syncRead_frame (obj : Nat) (d : Dev) :
    Dev.Frame [.out] d (syncRead obj d) := by
  unfold syncRead
  simp (disch := decide) only [↓(Dev.emit_frame _ _ _ _).iff, ↓Dev.frame_self]

theorem execSyncRead_frame (obj : Nat) (s : State) :
    ∃ d, execSyncRead obj s = .next { s with dev := d } ∧ Dev.Frame [.out] s.dev d := ⟨_, rfl, syncRead_frame _ _⟩

theorem barrierArrive_frame (who : SyncIssuer) (group : Nat) (err : Bool) (d : Dev) :
    Dev.Frame [.log, .dict, .sync, .hull, .power, .recd, .out] d (barrierArrive who group err d) := by
  unfold barrierArrive
  repeat' (first
    | (simp (disch := decide) only [↓(Dev.raise_frame _ _ _ _).iff, ↓(Dev.signal_frame _ _ _ _ _).iff,
      ↓(Dev.waitReturn_frame _ _ _ _).iff, ↓Dev.frame_sync, ↓Dev.frame_self, implies_true, and_self])
    | (with_reducible refine And.intro ?_ ?_)
    | (with_reducible intro _)
    | split)

theorem execBarrierArrive_frame (who : SyncIssuer) (group : Nat) (err : Bool) (s : State) :
    ∃ d, execBarrierArrive who group err s = .next { s with dev := d } ∧ Dev.Frame [.log, .dict, .sync, .hull,
      .power, .recd, .out] s.dev d := ⟨_, rfl, barrierArrive_frame _ _ _ _⟩

theorem syncTimeout_frame (who : SyncIssuer) (obj : Nat) (d : Dev) :
    Dev.Frame [.log, .dict, .sync, .power, .recd, .out] d (syncTimeout who obj d) := by
  unfold syncTimeout
  repeat' (first
    | (simp (disch := decide) only [↓(Dev.raise_frame _ _ _ _).iff, ↓(Dev.waitReturn_frame _ _ _ _).iff,
      ↓Dev.frame_sync, ↓Dev.frame_self, implies_true, and_self])
    | (with_reducible refine And.intro ?_ ?_)
    | (with_reducible intro _)
    | split)

theorem execSyncTimeout_frame (who : SyncIssuer) (obj : Nat) (s : State) :
    ∃ d, execSyncTimeout who obj s = .next { s with dev := d } ∧ Dev.Frame [.log, .dict, .sync, .power, .recd,
      .out] s.dev d := ⟨_, rfl, syncTimeout_frame _ _ _⟩

end Sys2Proof.Machine
end

