-- ==== Sys2Proof/Laws/FramesWork.lean ====
section
/-! SUPPORT. Frames: what Pods, movers, engines, the schedule and the intake change; one lemma for each operation and each command. -/

set_option linter.unusedSimpArgs false
set_option linter.unusedTactic false
set_option linter.unreachableTactic false

namespace Sys2Proof.Machine

open Sys2Proof

theorem Dev.modPass_frame (d : Dev) (t : Nat) (f : Pass → Pass) :
    Dev.Frame [.sched] d (Dev.modPass d t f) := by
  unfold Dev.modPass
  simp (disch := decide) only [↓Dev.frame_sched, ↓Dev.frame_self]

theorem Dev.readyIdle_frame (d : Dev) (t : Nat) :
    Dev.Frame [.sched] d (Dev.readyIdle d t) := by
  unfold Dev.readyIdle
  simp (disch := decide) only [↓Dev.frame_sched, ↓Dev.frame_self]

theorem Dev.armPass_frame (d : Dev) (t : Nat) :
    Dev.Frame [.sched] d (Dev.armPass d t) := by
  unfold Dev.armPass
  repeat' (first
    | (simp (disch := decide) only [↓(Dev.modPass_frame _ _ _).iff, ↓(Dev.readyIdle_frame _ _).iff, ↓Dev.frame_ite,
      ↓Dev.frame_ite1, ↓Dev.frame_self, implies_true, and_self])
    | (with_reducible refine And.intro ?_ ?_)
    | (with_reducible intro _)
    | split)

theorem Dev.checkPass_frame (d : Dev) (t : Nat) :
    Dev.Frame [.sched] d (Dev.checkPass d t) := by
  unfold Dev.checkPass
  simp (disch := decide) only [↓(Dev.armPass_frame _ _).iff, ↓(Dev.modPass_frame _ _ _).iff, ↓Dev.frame_ite,
      ↓Dev.frame_self, implies_true, and_self]

theorem Dev.startEntry_frame (d : Dev) (t i : Nat) :
    Dev.Frame [.sched] d (Dev.startEntry d t i) := by
  unfold Dev.startEntry
  simp (disch := decide) only [↓(Dev.modPass_frame _ _ _).iff, ↓Dev.frame_sched, ↓Dev.frame_self]

theorem Dev.endEntry_frame (d : Dev) (t i : Nat) :
    Dev.Frame [.sched] d (Dev.endEntry d t i) := by
  unfold Dev.endEntry
  simp (disch := decide) only [↓(Dev.checkPass_frame _ _).iff, ↓(Dev.modPass_frame _ _ _).iff, ↓Dev.frame_self,
      implies_true, and_self]

theorem Dev.entrySignals_frame (d : Dev) (t i : Nat) (part : Option Nat) (o inc : Nat) (err : Bool) (cause : Nat) :
    Dev.Frame [.log, .dict, .sync, .hull, .power, .recd, .out] d (Dev.entrySignals d t i part o inc err cause) := by
  unfold Dev.entrySignals
  repeat' (first
    | (simp (disch := decide) only [↓(Dev.raise_frame _ _ _ _).iff, ↓(Dev.signal_frame _ _ _ _ _).iff,
      ↓Dev.frame_ite, ↓Dev.frame_ite1, ↓Dev.frame_self, implies_true, and_self])
    | (with_reducible refine And.intro ?_ ?_)
    | (with_reducible intro _)
    | split)

theorem Dev.signalEntry_frame (d : Dev) (t i : Nat) (part : Option Nat) (err : Bool) (cause : Nat) :
    Dev.Frame [.log, .dict, .sync, .hull, .power, .recd, .out] d (Dev.signalEntry d t i part err cause) := by
  unfold Dev.signalEntry
  repeat' (first
    | (simp (disch := decide) only [↓(Dev.entrySignals_frame _ _ _ _ _ _ _ _).iff, ↓Dev.frame_self, implies_true,
      and_self])
    | (with_reducible refine And.intro ?_ ?_)
    | (with_reducible intro _)
    | split)

theorem Dev.finish_frame (d : Dev) (k : Ticket) (part : Option Nat) (err : Bool) (cause : Nat) :
    Dev.Frame [.log, .dict, .sched, .sync, .hull, .power, .recd, .out] d (Dev.finish d k part err cause) := by
  unfold Dev.finish
  simp (disch := decide) only [↓(Dev.endEntry_frame _ _ _).iff, ↓(Dev.signalEntry_frame _ _ _ _ _ _).iff,
      ↓Dev.frame_self, implies_true, and_self]

theorem Dev.faultOutputs_frame (d : Dev) (own : Option Nat) (t i : Nat) :
    Dev.Frame [.mem] d (Dev.faultOutputs d own t i) := by
  unfold Dev.faultOutputs
  simp (disch := first | decide | (intros; (repeat' (first | (simp (disch := decide) only [↓(Dev.markFaulted_frame _ _ _).iff, ↓Dev.frame_foldl, ↓Dev.frame_foldlPair, ↓Dev.frame_self, implies_true, and_self]) | (with_reducible refine And.intro ?_ ?_) | (with_reducible intro _) | split)))) only [↓(Dev.markFaulted_frame _ _ _).iff, ↓Dev.frame_foldl, ↓Dev.frame_foldlPair, ↓Dev.frame_self, implies_true, and_self]

theorem Dev.skipEntry_frame (d : Dev) (t i cause : Nat) :
    Dev.Frame [.log, .dict, .mem, .sched, .sync, .hull, .power, .recd, .out] d (Dev.skipEntry d t i cause) := by
  unfold Dev.skipEntry
  repeat' (first
    | (simp (disch := decide) only [↓(Dev.checkPass_frame _ _).iff, ↓(Dev.faultOutputs_frame _ _ _ _).iff,
      ↓(Dev.modPass_frame _ _ _).iff, ↓(Dev.occur_frame _ _ _).iff, ↓(Dev.raise_frame _ _ _ _).iff,
      ↓(Dev.signalEntry_frame _ _ _ _ _ _).iff, ↓Dev.frame_ite, ↓Dev.frame_ite1, ↓Dev.frame_self, implies_true,
      and_self])
    | (with_reducible refine And.intro ?_ ?_)
    | (with_reducible intro _)
    | split)

theorem Dev.skipUnstarted_frame (d : Dev) (t : Nat) :
    Dev.Frame [.log, .dict, .mem, .sched, .sync, .hull, .power, .recd, .out] d (Dev.skipUnstarted d t) := by
  unfold Dev.skipUnstarted
  simp (disch := first | decide | (intros; (repeat' (first | (simp (disch := decide) only [↓(Dev.skipEntry_frame _ _ _ _).iff, ↓Dev.frame_foldl, ↓Dev.frame_foldlPair, ↓Dev.frame_self, implies_true, and_self]) | (with_reducible refine And.intro ?_ ?_) | (with_reducible intro _) | split)))) only [↓(Dev.skipEntry_frame _ _ _ _).iff, ↓Dev.frame_foldl, ↓Dev.frame_foldlPair, ↓Dev.frame_self, implies_true, and_self]

theorem Dev.spoil_frame (d : Dev) (cause : Nat) :
    Dev.Frame [.hull] d (Dev.spoil d cause) := by
  unfold Dev.spoil
  simp (disch := decide) only [↓(Dev.genFault_frame _ _).iff, ↓Dev.frame_ite, ↓Dev.frame_self, implies_true, and_self]

theorem Dev.cutPod_frame (d : Dev) (p : Nat) :
    Dev.Frame [.log, .dict, .movers, .mem, .sched, .sync, .hull, .power, .recd, .out] d (Dev.cutPod d p) := by
  unfold Dev.cutPod
  repeat' (first
    | (simp (disch := first | decide | (intros; (repeat' (first | (simp (disch := decide) only [↓(Dev.faultOutputs_frame _ _ _ _).iff, ↓(Dev.finish_frame _ _ _ _ _).iff, ↓(Dev.markFaulted_frame _ _ _).iff, ↓(Dev.modMover_frame _ _ _).iff, ↓(Dev.raise_frame _ _ _ _).iff, ↓(Dev.signal_frame _ _ _ _ _).iff, ↓Dev.frame_foldl, ↓Dev.frame_foldlPair, ↓Dev.frame_self, implies_true, and_self]) | (with_reducible refine And.intro ?_ ?_) | (with_reducible intro _) | split)))) only [↓(Dev.faultOutputs_frame _ _ _ _).iff, ↓(Dev.finish_frame _ _ _ _ _).iff, ↓(Dev.markFaulted_frame _ _ _).iff, ↓(Dev.modMover_frame _ _ _).iff, ↓(Dev.raise_frame _ _ _ _).iff, ↓(Dev.signal_frame _ _ _ _ _).iff, ↓Dev.frame_foldl, ↓Dev.frame_foldlPair, ↓Dev.frame_self, implies_true, and_self])
    | (with_reducible refine And.intro ?_ ?_)
    | (with_reducible intro _)
    | split)

theorem Dev.takeOut_frame (d : Dev) (p : Nat) :
    Dev.Frame [.log, .dict, .pods, .movers, .mem, .sched, .sync, .hull, .twin, .palca, .power, .recd,
      .out] d (Dev.takeOut d p) := by
  unfold Dev.takeOut
  have short : ∀ {e : Dev} (l : Nat), Dev.Frame [.log, .dict, .pods, .movers, .mem, .sched, .sync, .hull, .twin,
      .palca, .power, .recd, .out] d e →
      Dev.Frame [.log, .dict, .pods, .movers, .mem, .sched, .sync, .hull, .twin, .palca, .power, .recd, .out] d
      (({ e with pods := { e.pods with lost := sins l e.pods.lost } }.raise 0x030F p 0).protect srcShortage 3 0x030F)
      := fun l h =>
    ((Dev.protect_frame _ _ _ _).iff (by decide) _).2 (((Dev.raise_frame _ _ _ _).iff (by decide) _).2
      ((Dev.frame_pods (by decide)).2 h))
  have cut : ∀ f, Dev.Frame [.log, .dict, .pods, .movers, .mem, .sched, .sync, .hull, .twin, .palca, .power, .recd,
      .out] d ((d.cutPod p).modPod p f) := fun f =>
    ((Dev.modPod_frame _ _ _).iff (by decide) _).2 ((Dev.cutPod_frame _ _).mono (by decide))
  split
  · exact Dev.Frame.refl _
  · extract_lets wr log wins d1 d2 d3 src d4 sh
    have h4 : Dev.Frame [.log, .dict, .pods, .movers, .mem, .sched, .sync, .hull, .twin, .palca, .power, .recd,
      .out] d d4 :=
      (Dev.frame_pods (by decide)).2 ((Dev.frame_mem (by decide)).2 (cut _))
    clear_value d4
    split
    · split
      · exact short _ ((Dev.frame_pods (by decide)).2 (((Dev.raise_frame _ _ _ _).iff (by decide) _).2 h4))
      · exact ((Dev.raise_frame _ _ _ _).iff (by decide) _).2 h4
    · clear_value log
      cases log with
      | none => exact h4
      | some l =>
        dsimp only
        split
        · refine ((Dev.raise_frame _ _ _ _).iff (by decide) _).2 ((Dev.frame_pods (by decide)).2 ?_)
          exact ((Dev.modPod_frame _ _ _).iff (by decide) _).2 (((Dev.spoil_frame _ _).iff (by decide) _).2 h4)
        · exact short _ (((Dev.spoil_frame _ _).iff (by decide) _).2 h4)

theorem Dev.arithFault_frame (d : Dev) (p : Nat) :
    Dev.Frame [.log, .dict, .pods, .movers, .mem, .sched, .sync, .hull, .twin, .palca, .power, .recd,
      .out] d (Dev.arithFault d p) := by
  unfold Dev.arithFault
  simp (disch := decide) only [↓(Dev.modPod_frame _ _ _).iff, ↓(Dev.occur_frame _ _ _).iff,
      ↓(Dev.raise_frame _ _ _ _).iff, ↓(Dev.takeOut_frame _ _).iff, ↓Dev.frame_ite, ↓Dev.frame_self, implies_true,
      and_self]

theorem Dev.takeReplacement_frame (d : Dev) :
    Dev.Frame [.pods] d (Dev.takeReplacement d) := by
  unfold Dev.takeReplacement
  repeat' (first
    | (simp (disch := decide) only [↓(Dev.modPod_frame _ _ _).iff, ↓Dev.frame_pods, ↓Dev.frame_self, implies_true,
      and_self])
    | (with_reducible refine And.intro ?_ ?_)
    | (with_reducible intro _)
    | split)

theorem Dev.modCover_frame (d : Dev) (kind unit : Nat) (f : Coverage → Coverage) :
    Dev.Frame [.cover] d (Dev.modCover d kind unit f) := by
  unfold Dev.modCover
  simp (disch := decide) only [↓Dev.frame_cover, ↓Dev.frame_self]

theorem Dev.endDiag_frame (d : Dev) (kind : Nat) :
    Dev.Frame [.log, .dict, .cover, .hull, .twin, .palca, .recd, .out] d (Dev.endDiag d kind) := by
  unfold Dev.endDiag
  simp (disch := decide) only [↓(Dev.demand_frame _ _ _ _).iff, ↓(Dev.modCover_frame _ _ _ _).iff, ↓Dev.frame_ite,
      ↓Dev.frame_self, implies_true, and_self]

theorem Dev.tested_frame (d : Dev) (kind unit : Nat) :
    Dev.Frame [.log, .dict, .cover, .hull, .twin, .palca, .recd, .out] d (Dev.tested d kind unit) := by
  unfold Dev.tested
  simp (disch := decide) only [↓(Dev.endDiag_frame _ _).iff, ↓(Dev.modCover_frame _ _ _ _).iff, ↓Dev.frame_self]

theorem Dev.dropChunk_frame (d : Dev) (kind unit : Nat) :
    Dev.Frame [.cover] d (Dev.dropChunk d kind unit) := by
  unfold Dev.dropChunk
  simp (disch := decide) only [↓(Dev.modCover_frame _ _ _ _).iff, ↓Dev.frame_self, implies_true, and_self]

theorem coverageLate_frame (kind : Nat) (d : Dev) :
    Dev.Frame [.log, .dict, .cover, .power, .recd] d (coverageLate kind d) := by
  unfold coverageLate
  simp (disch := decide) only [↓(Dev.modCover_frame _ _ _ _).iff, ↓(Dev.raise_frame _ _ _ _).iff, ↓Dev.frame_ite,
      ↓Dev.frame_self, implies_true, and_self]

theorem execCoverageLate_frame (kind : Fin 8) (s : State) :
    ∃ d, execCoverageLate kind s = .next { s with dev := d } ∧ Dev.Frame [.log, .dict, .cover, .power, .recd] s.dev d := ⟨_, rfl, coverageLate_frame _ _⟩

theorem diagIntervalExceeded_frame (kind : Nat) (d : Dev) :
    Dev.Frame [.log, .dict, .cover, .hull, .twin, .palca, .power, .recd, .out] d (diagIntervalExceeded kind d) := by
  unfold diagIntervalExceeded
  simp (disch := decide) only [↓(Dev.modCover_frame _ _ _ _).iff, ↓(Dev.protect_frame _ _ _ _).iff,
      ↓(Dev.raise_frame _ _ _ _).iff, ↓Dev.frame_ite, ↓Dev.frame_self, implies_true, and_self]

theorem execDiagIntervalExceeded_frame (kind : Fin 8) (s : State) :
    ∃ d, execDiagIntervalExceeded kind s = .next { s with dev := d } ∧ Dev.Frame [.log, .dict, .cover, .hull, .twin,
      .palca, .power, .recd, .out] s.dev d := ⟨_, rfl, diagIntervalExceeded_frame _ _⟩

theorem selftestChunkDue_frame (kind unit : Nat) (d : Dev) :
    Dev.Frame [.dict, .cover] d (selftestChunkDue kind unit d) := by
  unfold selftestChunkDue
  simp (disch := decide) only [↓(Dev.modCover_frame _ _ _ _).iff, ↓(Dev.occur_frame _ _ _).iff, ↓Dev.frame_ite,
      ↓Dev.frame_self, implies_true, and_self]

theorem execSelftestChunkDue_frame (kind : Fin 8) (unit : Fin 25) (s : State) :
    ∃ d, execSelftestChunkDue kind unit s = .next { s with dev := d } ∧ Dev.Frame [.dict, .cover] s.dev d := ⟨_, rfl, selftestChunkDue_frame _ _ _⟩

theorem Dev.countRegion_frame (d : Dev) :
    Dev.Frame [.mem] d (Dev.countRegion d) := by
  unfold Dev.countRegion
  simp (disch := decide) only [↓Dev.frame_mem, ↓Dev.frame_self, implies_true, and_self]

theorem Dev.useSpare_frame (d : Dev) (bank key : Nat) :
    Dev.Frame [.mem] d (Dev.useSpare d bank key) := by
  unfold Dev.useSpare
  simp (disch := decide) only [↓Dev.frame_mem, ↓Dev.frame_self, implies_true, and_self]

theorem Dev.loseRegion_frame (d : Dev) (key : Nat) :
    Dev.Frame [.log, .dict, .mem, .hull, .twin, .palca, .recd, .out] d (Dev.loseRegion d key) := by
  unfold Dev.loseRegion
  simp (disch := decide) only [↓(Dev.protect_frame _ _ _ _).iff, ↓Dev.frame_mem, ↓Dev.frame_ite, ↓Dev.frame_ite1,
      ↓Dev.frame_self, implies_true, and_self]

theorem Dev.endTest_frame (d : Dev) (kind unit key : Nat) (early : Bool) (ecc : List EccEvent) :
    Dev.Frame [.log, .dict, .mem, .ddr, .cover, .hull, .twin, .palca, .power, .recd,
      .out] d (Dev.endTest d kind unit key early ecc) := by
  unfold Dev.endTest
  simp (disch := decide) only [↓(Dev.countRegion_frame _).iff, ↓(Dev.dropChunk_frame _ _ _).iff,
      ↓(Dev.eccReads_frame _ _).iff, ↓(Dev.tested_frame _ _ _).iff, ↓Dev.frame_mem, ↓Dev.frame_ite, ↓Dev.frame_ite1,
      ↓Dev.frame_self, implies_true, and_self]

theorem Dev.testRegion_frame (d : Dev) (bank spares kind unit inst region : Nat) (fails : Bool) (ecc : List EccEvent)
      :
    Dev.Frame [.log, .dict, .pods, .movers, .mem, .ddr, .sched, .sync, .cover, .hull, .twin, .palca, .power, .recd,
      .out] d (Dev.testRegion d bank spares kind unit inst region fails ecc) := by
  unfold Dev.testRegion
  simp (disch := decide) only [↓(Dev.endTest_frame _ _ _ _ _ _).iff, ↓(Dev.loseRegion_frame _ _).iff,
      ↓(Dev.raise_frame _ _ _ _).iff, ↓(Dev.takeOut_frame _ _).iff, ↓(Dev.useSpare_frame _ _ _).iff, ↓Dev.frame_ite,
      ↓Dev.frame_ite1, ↓Dev.frame_self, implies_true, and_self]

theorem memtestRegionComplete_frame (b : Bank) (region : Nat) (fails : Bool) (ecc : List EccEvent) (d : Dev) :
    Dev.Frame [.log, .dict, .pods, .movers, .mem, .ddr, .sched, .sync, .cover, .hull, .twin, .palca, .power, .recd,
      .out] d (memtestRegionComplete b region fails ecc d) := by
  unfold memtestRegionComplete
  simp (disch := decide) only [↓(Dev.testRegion_frame _ _ _ _ _ _ _ _ _).iff, ↓Dev.frame_self, implies_true, and_self]

theorem execMemtestRegionComplete_frame (b : Bank) (region : Nat) (fails : Bool) (ecc : List EccEvent) (s : State) :
    ∃ d, execMemtestRegionComplete b region fails ecc s = .next { s with dev := d } ∧ Dev.Frame [.log, .dict, .pods,
      .movers, .mem, .ddr, .sched, .sync, .cover, .hull, .twin, .palca, .power, .recd, .out] s.dev d := ⟨_, rfl, memtestRegionComplete_frame _ _ _ _ _⟩

theorem syncFabricTest_frame (block : Nat) (pass : Bool) (d : Dev) :
    Dev.Frame [.log, .dict, .cover, .hull, .twin, .palca, .recd, .out] d (syncFabricTest block pass d) := by
  unfold syncFabricTest
  simp (disch := decide) only [↓(Dev.dropChunk_frame _ _ _).iff, ↓(Dev.tested_frame _ _ _).iff, ↓Dev.frame_ite,
      ↓Dev.frame_self, implies_true, and_self]

theorem execSyncFabricTest_frame (block : Fin 64) (pass : Bool) (s : State) :
    ∃ d, execSyncFabricTest block pass s = .next { s with dev := d } ∧ Dev.Frame [.log, .dict, .cover, .hull, .twin,
      .palca, .recd, .out] s.dev d := ⟨_, rfl, syncFabricTest_frame _ _ _⟩

theorem goldenFrame_frame (p : Nat) (digestOk detected : Bool) (d : Dev) :
    Dev.Frame [.log, .dict, .pods, .movers, .mem, .sched, .sync, .cover, .hull, .twin, .palca, .power, .recd,
      .out] d (goldenFrame p digestOk detected d) := by
  unfold goldenFrame
  simp (disch := decide) only [↓(Dev.count_frame _ _ _).iff, ↓(Dev.dropChunk_frame _ _ _).iff,
      ↓(Dev.endDiag_frame _ _).iff, ↓(Dev.modPod_frame _ _ _).iff, ↓(Dev.raise_frame _ _ _ _).iff,
      ↓(Dev.takeOut_frame _ _).iff, ↓Dev.frame_ite, ↓Dev.frame_self, implies_true, and_self]

theorem execGoldenFrame_frame (p : Fin 25) (digestOk detected : Bool) (s : State) :
    ∃ d, execGoldenFrame p digestOk detected s = .next { s with dev := d } ∧ Dev.Frame [.log, .dict, .pods, .movers,
      .mem, .sched, .sync, .cover, .hull, .twin, .palca, .power, .recd, .out] s.dev d := ⟨_, rfl, goldenFrame_frame _ _ _ _⟩

theorem rotationDue_frame (d : Dev) :
    Dev.Frame [.pods] d (rotationDue d) := by
  unfold rotationDue
  simp (disch := decide) only [↓Dev.frame_pods, ↓Dev.frame_ite, ↓Dev.frame_self, implies_true, and_self]

theorem execRotationDue_frame (s : State) :
    ∃ d, execRotationDue s = .next { s with dev := d } ∧ Dev.Frame [.pods] s.dev d := ⟨_, rfl, rotationDue_frame _⟩

theorem handover_frame (d : Dev) :
    Dev.Frame [.dict, .pods, .mem] d (handover d) := by
  unfold handover
  split
  · split
    · split
      · refine ((Dev.count_frame _ _ _).iff (by decide) _).2 ?_
        refine (Dev.frame_pods (by decide)).2 ?_
        refine (Dev.frame_mem (by decide)).2 ?_
        exact ((Dev.modPod_frame _ _ _).iff (by decide) _).2 ((Dev.modPod_frame _ _ _).mono (by decide))
      · exact Dev.Frame.refl _
    · exact Dev.Frame.refl _
  · exact Dev.Frame.refl _

theorem execHandover_frame (s : State) :
    ∃ d, execHandover s = .next { s with dev := d } ∧ Dev.Frame [.dict, .pods, .mem] s.dev d := ⟨_, rfl, handover_frame _⟩

theorem rotationStalled_frame (d : Dev) :
    Dev.Frame [.log, .dict, .pods, .power, .recd] d (rotationStalled d) := by
  unfold rotationStalled
  repeat' (first
    | (simp (disch := decide) only [↓(Dev.raise_frame _ _ _ _).iff, ↓Dev.frame_pods, ↓Dev.frame_ite, ↓Dev.frame_ite1,
      ↓Dev.frame_self, implies_true, and_self])
    | (with_reducible refine And.intro ?_ ?_)
    | (with_reducible intro _)
    | split)

theorem execRotationStalled_frame (s : State) :
    ∃ d, execRotationStalled s = .next { s with dev := d } ∧ Dev.Frame [.log, .dict, .pods, .power, .recd] s.dev d := ⟨_, rfl, rotationStalled_frame _⟩

theorem Dev.resend_frame (d : Dev) (link n : Nat) :
    Dev.Frame [.pods] d (Dev.resend d link n) := by
  unfold Dev.resend
  simp (disch := decide) only [↓Dev.frame_pods, ↓Dev.frame_self]

theorem Dev.modDesc_frame (d : Dev) (mv i : Nat) (f : Accepted → Accepted) :
    Dev.Frame [.movers] d (Dev.modDesc d mv i f) := by
  unfold Dev.modDesc
  simp (disch := decide) only [↓(Dev.modMover_frame _ _ _).iff, ↓Dev.frame_ite, ↓Dev.frame_ite1, ↓Dev.frame_self,
      implies_true, and_self]

theorem Dev.loseMove_frame (d : Dev) (lost : Option (Nat × Nat)) (cause : Nat) :
    Dev.Frame [.movers] d (Dev.loseMove d lost cause) := by
  unfold Dev.loseMove
  repeat' (first
    | (simp (disch := decide) only [↓(Dev.modDesc_frame _ _ _ _).iff, ↓Dev.frame_ite, ↓Dev.frame_ite1,
      ↓Dev.frame_self, implies_true, and_self])
    | (with_reducible refine And.intro ?_ ?_)
    | (with_reducible intro _)
    | split)

theorem meshTransferCrcFail_frame (router dir : Nat) (all : Bool) (lost : Option (Nat × Nat)) (d : Dev) :
    Dev.Frame [.log, .dict, .pods, .movers, .mem, .sched, .sync, .hull, .twin, .palca, .power, .recd,
      .out] d (meshTransferCrcFail router dir all lost d) := by
  unfold meshTransferCrcFail
  simp (disch := decide) only [↓(Dev.countN_frame _ _ _ _).iff, ↓(Dev.loseMove_frame _ _ _).iff,
      ↓(Dev.raise_frame _ _ _ _).iff, ↓(Dev.resend_frame _ _ _).iff, ↓(Dev.takeOut_frame _ _).iff, ↓Dev.frame_pods,
      ↓Dev.frame_ite, ↓Dev.frame_self, implies_true, and_self]

theorem execMeshTransferCrcFail_frame (router : Fin 25) (dir : Fin 4) (allResendsFail : Bool) (lost : Option (Fin 27
      × Nat)) (s : State) :
    ∃ d, execMeshTransferCrcFail router dir allResendsFail lost s = .next { s with dev := d } ∧ Dev.Frame [.log,
      .dict, .pods, .movers, .mem, .sched, .sync, .hull, .twin, .palca, .power, .recd, .out] s.dev d := ⟨_, rfl, meshTransferCrcFail_frame _ _ _ _ _⟩

theorem coreIoTransferCrcFail_frame (link : Nat) (all : Bool) (lost : Option (Nat × Nat)) (d : Dev) :
    Dev.Frame [.log, .dict, .pods, .movers, .power, .recd] d (coreIoTransferCrcFail link all lost d) := by
  unfold coreIoTransferCrcFail
  simp (disch := decide) only [↓(Dev.countN_frame _ _ _ _).iff, ↓(Dev.loseMove_frame _ _ _).iff,
      ↓(Dev.raise_frame _ _ _ _).iff, ↓(Dev.resend_frame _ _ _).iff, ↓Dev.frame_pods, ↓Dev.frame_ite,
      ↓Dev.frame_self, implies_true, and_self]

theorem execCoreIoTransferCrcFail_frame (link : Fin 8) (allResendsFail : Bool) (lost : Option (Fin 27 × Nat)) (s :
      State) :
    ∃ d, execCoreIoTransferCrcFail link allResendsFail lost s = .next { s with dev := d } ∧ Dev.Frame [.log, .dict,
      .pods, .movers, .power, .recd] s.dev d := ⟨_, rfl, coreIoTransferCrcFail_frame _ _ _ _⟩

theorem correctedWriteBack_frame (word : Nat) (d : Dev) :
    Dev.Frame [.mem] d (correctedWriteBack word d) := by
  unfold correctedWriteBack
  simp (disch := decide) only [↓Dev.frame_mem, ↓Dev.frame_self]

theorem execCorrectedWriteBack_frame (word : Nat) (s : State) :
    ∃ d, execCorrectedWriteBack word s = .next { s with dev := d } ∧ Dev.Frame [.mem] s.dev d := ⟨_, rfl, correctedWriteBack_frame _ _⟩

theorem ddrOscillatorRead_frame (corrections : List Int) (d : Dev) :
    Dev.Frame [.ddr] d (ddrOscillatorRead corrections d) := by
  unfold ddrOscillatorRead
  simp (disch := decide) only [↓Dev.frame_ddr, ↓Dev.frame_ite, ↓Dev.frame_self, implies_true, and_self]

theorem execDdrOscillatorRead_frame (corrections : List Int) (s : State) :
    ∃ d, execDdrOscillatorRead corrections s = .next { s with dev := d } ∧ Dev.Frame [.ddr] s.dev d := ⟨_, rfl, ddrOscillatorRead_frame _ _⟩

theorem zqCalibration_frame (d : Dev) :
    Dev.Frame [.ddr] d (zqCalibration d) := by
  unfold zqCalibration
  simp (disch := decide) only [↓Dev.frame_ddr, ↓Dev.frame_ite, ↓Dev.frame_ite1, ↓Dev.frame_self, implies_true,
      and_self]

theorem execZqCalibration_frame (s : State) :
    ∃ d, execZqCalibration s = .next { s with dev := d } ∧ Dev.Frame [.ddr] s.dev d := ⟨_, rfl, zqCalibration_frame _⟩

theorem ddrTemperatureRead_frame (temps : List Int) (maxOp : Int) (d : Dev) :
    Dev.Frame [.log, .dict, .ddr, .hull, .twin, .palca, .power, .recd, .out] d (ddrTemperatureRead temps maxOp d) := by
  unfold ddrTemperatureRead
  repeat' (first
    | (simp (disch := decide) only [↓(Dev.demand_frame _ _ _ _).iff, ↓(Dev.protect_frame _ _ _ _).iff,
      ↓(Dev.raise_frame _ _ _ _).iff, ↓Dev.frame_ddr, ↓Dev.frame_ite, ↓Dev.frame_ite1, ↓Dev.frame_self, implies_true,
      and_self])
    | (with_reducible refine And.intro ?_ ?_)
    | (with_reducible intro _)
    | split)

theorem execDdrTemperatureRead_frame (temps : List Int) (maxOperating : Int) (s : State) :
    ∃ d, execDdrTemperatureRead temps maxOperating s = .next { s with dev := d } ∧ Dev.Frame [.log, .dict, .ddr,
      .hull, .twin, .palca, .power, .recd, .out] s.dev d := ⟨_, rfl, ddrTemperatureRead_frame _ _ _⟩

theorem patrolLate_frame (d : Dev) :
    Dev.Frame [.log, .dict, .ddr, .power, .recd] d (patrolLate d) := by
  unfold patrolLate
  simp (disch := decide) only [↓(Dev.raise_frame _ _ _ _).iff, ↓Dev.frame_ddr, ↓Dev.frame_ite, ↓Dev.frame_self,
      implies_true, and_self]

theorem execPatrolLate_frame (s : State) :
    ∃ d, execPatrolLate s = .next { s with dev := d } ∧ Dev.Frame [.log, .dict, .ddr, .power, .recd] s.dev d := ⟨_, rfl, patrolLate_frame _⟩

theorem Dev.hullFault_frame (d : Dev) (src cause inst : Nat) :
    Dev.Frame [.log, .dict, .hull, .twin, .palca, .power, .recd, .out] d (Dev.hullFault d src cause inst) := by
  unfold Dev.hullFault
  simp (disch := decide) only [↓(Dev.demand_frame _ _ _ _).iff, ↓(Dev.raise_frame _ _ _ _).iff, ↓Dev.frame_hull,
      ↓Dev.frame_self]

theorem hullCheckerTest_frame (pass : Bool) (d : Dev) :
    Dev.Frame [.log, .dict, .cover, .hull, .twin, .palca, .power, .recd, .out] d (hullCheckerTest pass d) := by
  unfold hullCheckerTest
  simp (disch := decide) only [↓(Dev.dropChunk_frame _ _ _).iff, ↓(Dev.hullFault_frame _ _ _ _).iff,
      ↓(Dev.tested_frame _ _ _).iff, ↓Dev.frame_ite, ↓Dev.frame_self, implies_true, and_self]

theorem execHullCheckerTest_frame (pass : Bool) (s : State) :
    ∃ d, execHullCheckerTest pass s = .next { s with dev := d } ∧ Dev.Frame [.log, .dict, .cover, .hull, .twin,
      .palca, .power, .recd, .out] s.dev d := ⟨_, rfl, hullCheckerTest_frame _ _⟩

theorem meshAgePromotion_frame (router mv i : Nat) (d : Dev) :
    Dev.Frame [.dict, .movers] d (meshAgePromotion router mv i d) := by
  unfold meshAgePromotion
  repeat' (first
    | (simp (disch := decide) only [↓(Dev.modDesc_frame _ _ _ _).iff, ↓(Dev.occur_frame _ _ _).iff, ↓Dev.frame_ite,
      ↓Dev.frame_ite1, ↓Dev.frame_self, implies_true, and_self])
    | (with_reducible refine And.intro ?_ ?_)
    | (with_reducible intro _)
    | split)

theorem execMeshAgePromotion_frame (router : Fin 25) (m : Fin 27) (desc : Nat) (s : State) :
    ∃ d, execMeshAgePromotion router m desc s = .next { s with dev := d } ∧ Dev.Frame [.dict, .movers] s.dev d := ⟨_, rfl, meshAgePromotion_frame _ _ _ _⟩

theorem Dev.copyKeys_frame (d : Dev) (l : List (Nat × Nat × Nat)) :
    Dev.Frame [.mem] d (Dev.copyKeys d l) := by
  unfold Dev.copyKeys
  simp (disch := first | decide | (intros; (repeat' (first | (simp (disch := decide) only [↓(Dev.store_frame _ _ _).iff, ↓Dev.frame_mem, ↓Dev.frame_foldl, ↓Dev.frame_foldlPair, ↓Dev.frame_self, implies_true, and_self]) | (with_reducible refine And.intro ?_ ?_) | (with_reducible intro _) | split)))) only [↓(Dev.store_frame _ _ _).iff, ↓Dev.frame_mem, ↓Dev.frame_foldl, ↓Dev.frame_foldlPair, ↓Dev.frame_self, implies_true, and_self]

theorem Dev.collapse_frame (d : Dev) (p l : Nat) :
    Dev.Frame [.pods, .mem] d (Dev.collapse d p l) := by
  unfold Dev.collapse
  simp (disch := decide) only [↓(Dev.copyKeys_frame _ _).iff, ↓(Dev.modPod_frame _ _ _).iff, ↓Dev.frame_mem,
      ↓Dev.frame_self]

theorem Dev.restorePod_frame (d : Dev) (p l : Nat) :
    Dev.Frame [.mem] d (Dev.restorePod d p l) := by
  unfold Dev.restorePod
  simp (disch := decide) only [↓(Dev.copyKeys_frame _ _).iff, ↓Dev.frame_self, implies_true, and_self]

theorem Dev.idleEntry_frame (d : Dev) (p : Nat) :
    Dev.Frame [.pods, .mem] d (Dev.idleEntry d p) := by
  unfold Dev.idleEntry
  repeat' (first
    | (simp (disch := decide) only [↓(Dev.collapse_frame _ _ _).iff, ↓(Dev.modPod_frame _ _ _).iff, ↓Dev.frame_ite,
      ↓Dev.frame_ite1, ↓Dev.frame_self, implies_true, and_self])
    | (with_reducible refine And.intro ?_ ?_)
    | (with_reducible intro _)
    | split)

theorem Dev.moverSignal_frame (d : Dev) (mv part : Nat) (k : Option Ticket) (o : Nat) (err : Bool) (cause : Nat) :
    Dev.Frame [.log, .dict, .sync, .hull, .power, .recd, .out] d (Dev.moverSignal d mv part k o err cause) := by
  unfold Dev.moverSignal
  repeat' (first
    | (simp (disch := decide) only [↓(Dev.raise_frame _ _ _ _).iff, ↓(Dev.signal_frame _ _ _ _ _).iff,
      ↓Dev.frame_ite, ↓Dev.frame_ite1, ↓Dev.frame_self, implies_true, and_self])
    | (with_reducible refine And.intro ?_ ?_)
    | (with_reducible intro _)
    | split)

theorem Dev.refuse_frame (d : Dev) (mv part : Nat) (k : Option Ticket) (m : MDesc) (cause : Nat) :
    Dev.Frame [.log, .dict, .mem, .sync, .hull, .power, .recd, .out] d (Dev.refuse d mv part k m cause) := by
  unfold Dev.refuse
  simp (disch := decide) only [↓(Dev.markFaulted_frame _ _ _).iff, ↓(Dev.moverSignal_frame _ _ _ _ _ _ _).iff,
      ↓(Dev.occur_frame _ _ _).iff, ↓(Dev.raise_frame _ _ _ _).iff, ↓(Dev.storeA_frame _ _ _ _).iff, ↓Dev.frame_ite,
      ↓Dev.frame_ite1, ↓Dev.frame_self, implies_true, and_self]

theorem Dev.launch_frame (d : Dev) (mv : Nat) :
    Dev.Frame [.movers] d (Dev.launch d mv) := by
  unfold Dev.launch
  simp (disch := decide) only [↓(Dev.modMover_frame _ _ _).iff, ↓Dev.frame_ite, ↓Dev.frame_ite1, ↓Dev.frame_self,
      implies_true, and_self]

theorem Dev.closeGroup_frame (d : Dev) (mv : Nat) :
    Dev.Frame [.movers] d (Dev.closeGroup d mv) := by
  unfold Dev.closeGroup
  simp (disch := decide) only [↓(Dev.launch_frame _ _).iff, ↓(Dev.modMover_frame _ _ _).iff, ↓Dev.frame_ite,
      ↓Dev.frame_ite1, ↓Dev.frame_self, implies_true, and_self]

theorem Dev.enqueue_frame (d : Dev) (mv part : Nat) (tmpl core : Option Nat) (k : Option Ticket) (ws : List Word) :
    Dev.Frame [.log, .dict, .movers, .mem, .sync, .hull, .power, .recd, .out] d (Dev.enqueue d mv part tmpl core k ws) := by
  unfold Dev.enqueue
  simp (disch := decide) only [↓(Dev.closeGroup_frame _ _).iff, ↓(Dev.modMover_frame _ _ _).iff,
      ↓(Dev.raise_frame _ _ _ _).iff, ↓(Dev.refuse_frame _ _ _ _ _ _).iff, ↓Dev.frame_ite, ↓Dev.frame_ite1,
      ↓Dev.frame_self, implies_true, and_self]

theorem Dev.closeLeft_frame (d : Dev) (mv : Nat) (cores : List Nat) :
    Dev.Frame [.movers] d (Dev.closeLeft d mv cores) := by
  unfold Dev.closeLeft
  simp (disch := decide) only [↓(Dev.closeGroup_frame _ _).iff, ↓Dev.frame_ite, ↓Dev.frame_ite1, ↓Dev.frame_self,
      implies_true, and_self]

theorem Dev.putRegions_frame (d : Dev) (own : Option Nat) (out : Nat) (inputs : List Nat) :
    Dev.Frame [.mem] d (Dev.putRegions d own out inputs) := by
  unfold Dev.putRegions
  simp (disch := first | decide | (intros; (repeat' (first | (simp (disch := decide) only [↓(Dev.storeA_frame _ _ _ _).iff, ↓Dev.frame_ite, ↓Dev.frame_ite1, ↓Dev.frame_foldl, ↓Dev.frame_foldlPair, ↓Dev.frame_self, implies_true, and_self]) | (with_reducible refine And.intro ?_ ?_) | (with_reducible intro _) | split)))) only [↓(Dev.storeA_frame _ _ _ _).iff, ↓Dev.frame_ite, ↓Dev.frame_ite1, ↓Dev.frame_foldl, ↓Dev.frame_foldlPair, ↓Dev.frame_self, implies_true, and_self]

theorem Dev.endPip_frame (d : Dev) (l p : Nat) (r : RunStep) (cause : Nat) :
    Dev.Frame [.log, .dict, .pods, .movers, .mem, .sched, .sync, .hull, .power, .recd,
      .out] d (Dev.endPip d l p r cause) := by
  unfold Dev.endPip
  simp (disch := first | decide | (intros; (repeat' (first | (simp (disch := decide) only [↓(Dev.closeLeft_frame _ _ _).iff, ↓(Dev.faultOutputs_frame _ _ _ _).iff, ↓(Dev.finish_frame _ _ _ _ _).iff, ↓(Dev.idleEntry_frame _ _).iff, ↓(Dev.modPod_frame _ _ _).iff, ↓(Dev.putRegions_frame _ _ _ _).iff, ↓(Dev.putTimes_frame _ _ _ _ _).iff, ↓Dev.frame_ite, ↓Dev.frame_ite1, ↓Dev.frame_foldl, ↓Dev.frame_foldlPair, ↓Dev.frame_self, implies_true, and_self]) | (with_reducible refine And.intro ?_ ?_) | (with_reducible intro _) | split)))) only [↓(Dev.closeLeft_frame _ _ _).iff, ↓(Dev.faultOutputs_frame _ _ _ _).iff, ↓(Dev.finish_frame _ _ _ _ _).iff, ↓(Dev.idleEntry_frame _ _).iff, ↓(Dev.modPod_frame _ _ _).iff, ↓(Dev.putRegions_frame _ _ _ _).iff, ↓(Dev.putTimes_frame _ _ _ _ _).iff, ↓Dev.frame_ite, ↓Dev.frame_ite1, ↓Dev.frame_foldl, ↓Dev.frame_foldlPair, ↓Dev.frame_self, implies_true, and_self]

theorem Dev.pipMoves_frame (d : Dev) (l p core : Nat) (r : RunStep) (x0 : List (List Word × Nat)) :
    Dev.Frame [.log, .dict, .pods, .movers, .mem, .sched, .sync, .hull, .power, .recd,
      .out] d (Dev.pipMoves d l p core r x0) := by
  induction x0 generalizing d with
  | nil => exact Dev.Frame.refl _
  | cons w t ih =>
    unfold Dev.pipMoves
    dsimp only
    have h := (Dev.enqueue_frame d p (d.moverPart p 8) (some w.2) (some core) (some r.ticket) w.1).mono
      (m := [.log, .dict, .pods, .movers, .mem, .sched, .sync, .hull, .power, .recd, .out]) (by decide)
    split
    · exact h.trans ((Dev.endPip_frame _ _ _ _ _).mono (by decide))
    · exact h.trans (ih _)

theorem move_frame (mv : Nat) (issuer : MoveIssuer) (part : Nat) (descs : List (List Word)) (d : Dev) :
    Dev.Frame [.log, .dict, .pods, .movers, .mem, .sched, .sync, .hull, .power, .recd,
      .out] d (move mv issuer part descs d) := by
  unfold move
  repeat' (first
    | (simp (disch := first | decide | (intros; (repeat' (first | (simp (disch := decide) only [↓(Dev.enqueue_frame _ _ _ _ _ _ _).iff, ↓(Dev.finish_frame _ _ _ _ _).iff, ↓(Dev.modMover_frame _ _ _).iff, ↓(Dev.pipMoves_frame _ _ _ _ _ _).iff, ↓(Dev.startEntry_frame _ _ _).iff, ↓Dev.frame_ite, ↓Dev.frame_ite1, ↓Dev.frame_foldl, ↓Dev.frame_foldlPair, ↓Dev.frame_self, implies_true, and_self]) | (with_reducible refine And.intro ?_ ?_) | (with_reducible intro _) | split)))) only [↓(Dev.enqueue_frame _ _ _ _ _ _ _).iff, ↓(Dev.finish_frame _ _ _ _ _).iff, ↓(Dev.modMover_frame _ _ _).iff, ↓(Dev.pipMoves_frame _ _ _ _ _ _).iff, ↓(Dev.startEntry_frame _ _ _).iff, ↓Dev.frame_ite, ↓Dev.frame_ite1, ↓Dev.frame_foldl, ↓Dev.frame_foldlPair, ↓Dev.frame_self, implies_true, and_self])
    | (with_reducible refine And.intro ?_ ?_)
    | (with_reducible intro _)
    | split)

theorem execMove_frame (m : Fin 27) (issuer : MoveIssuer) (partition : Fin 8) (descs : List (List Word)) (s : State) :
    ∃ d, execMove m issuer partition descs s = .next { s with dev := d } ∧ Dev.Frame [.log, .dict, .pods, .movers,
      .mem, .sched, .sync, .hull, .power, .recd, .out] s.dev d := ⟨_, rfl, move_frame _ _ _ _ _⟩

theorem Dev.validWrite_frame (d : Dev) (mv : Nat) (own : Option Nat) (t : TDesc) (i : List Nat) (v : Bool) :
    Dev.Frame [.mem] d (Dev.validWrite d mv own t i v) := by
  unfold Dev.validWrite
  simp (disch := decide) only [↓(Dev.setValid_frame _ _ _ _ _).iff, ↓Dev.frame_ite, ↓Dev.frame_ite1, ↓Dev.frame_self,
      implies_true, and_self]

theorem Dev.writePuts_frame (d : Dev) (own : Option Nat) (td : TDesc) (l : List Put) :
    Dev.Frame [.mem] d (Dev.writePuts d own td l) := by
  unfold Dev.writePuts
  simp (disch := first | decide | (intros; (repeat' (first | (simp (disch := decide) only [↓(Dev.eltPut_frame _ _ _ _ _).iff, ↓(Dev.healElts_frame _ _ _ _).iff, ↓Dev.frame_foldl, ↓Dev.frame_foldlPair, ↓Dev.frame_self, implies_true, and_self]) | (with_reducible refine And.intro ?_ ?_) | (with_reducible intro _) | split)))) only [↓(Dev.eltPut_frame _ _ _ _ _).iff, ↓(Dev.healElts_frame _ _ _ _).iff, ↓Dev.frame_foldl, ↓Dev.frame_foldlPair, ↓Dev.frame_self, implies_true, and_self]

theorem Dev.writeMask_frame (d : Dev) (mv : Nat) (own : Option Nat) (td : TDesc) (all l : List Put) :
    Dev.Frame [.mem] d (Dev.writeMask d mv own td all l) := by
  unfold Dev.writeMask
  simp (disch := first | decide | (intros; (repeat' (first | (simp (disch := decide) only [↓(Dev.validWrite_frame _ _ _ _ _ _).iff, ↓Dev.frame_ite, ↓Dev.frame_ite1, ↓Dev.frame_foldl, ↓Dev.frame_foldlPair, ↓Dev.frame_self, implies_true, and_self]) | (with_reducible refine And.intro ?_ ?_) | (with_reducible intro _) | split)))) only [↓(Dev.validWrite_frame _ _ _ _ _ _).iff, ↓Dev.frame_ite, ↓Dev.frame_ite1, ↓Dev.frame_foldl, ↓Dev.frame_foldlPair, ↓Dev.frame_self, implies_true, and_self]

theorem Dev.copyRows_frame (d : Dev) (mv : Nat) (own : Option Nat) (m : MDesc) (ts td : TDesc) :
    Dev.Frame [.mem] d (Dev.copyRows d mv own m ts td) := by
  unfold Dev.copyRows
  simp (disch := first | decide | (intros; (repeat' (first | (simp (disch := decide) only [↓(Dev.storeA_frame _ _ _ _).iff, ↓Dev.frame_ite, ↓Dev.frame_ite1, ↓Dev.frame_foldl, ↓Dev.frame_foldlPair, ↓Dev.frame_self, implies_true, and_self]) | (with_reducible refine And.intro ?_ ?_) | (with_reducible intro _) | split)))) only [↓(Dev.storeA_frame _ _ _ _).iff, ↓Dev.frame_ite, ↓Dev.frame_ite1, ↓Dev.frame_foldl, ↓Dev.frame_foldlPair, ↓Dev.frame_self, implies_true, and_self]

theorem Dev.putBursts_frame (d : Dev) (l : List (Nat × List Byte × List Nat)) :
    Dev.Frame [.mem] d (Dev.putBursts d l) := by
  unfold Dev.putBursts
  simp (disch := first | decide | (intros; (repeat' (first | (simp (disch := decide) only [↓(Dev.store_frame _ _ _).iff, ↓Dev.frame_mem, ↓Dev.frame_foldl, ↓Dev.frame_foldlPair, ↓Dev.frame_self, implies_true, and_self]) | (with_reducible refine And.intro ?_ ?_) | (with_reducible intro _) | split)))) only [↓(Dev.store_frame _ _ _).iff, ↓Dev.frame_mem, ↓Dev.frame_foldl, ↓Dev.frame_foldlPair, ↓Dev.frame_self, implies_true, and_self]

theorem Dev.dataPhase_frame (d : Dev) (mv : Nat) (own : Option Nat) (g : Moved) :
    Dev.Frame [.mem] d (Dev.dataPhase d mv own g) := by
  unfold Dev.dataPhase
  simp (disch := decide) only [↓(Dev.copyRows_frame _ _ _ _ _ _).iff, ↓(Dev.putBursts_frame _ _).iff,
      ↓(Dev.writeMask_frame _ _ _ _ _ _).iff, ↓(Dev.writePuts_frame _ _ _ _).iff, ↓Dev.frame_self]

theorem Dev.padPhase_frame (d : Dev) (mv : Nat) (own : Option Nat) (a : Accepted) :
    Dev.Frame [.mem] d (Dev.padPhase d mv own a) := by
  unfold Dev.padPhase
  simp (disch := decide) only [↓(Dev.putBursts_frame _ _).iff, ↓(Dev.writeMask_frame _ _ _ _ _ _).iff,
      ↓(Dev.writePuts_frame _ _ _ _).iff, ↓Dev.frame_self]

theorem Dev.settleRegions_frame (d : Dev) (mv : Nat) (own : Option Nat) (dst : Nat) (merge : Bool) (l : List (Nat ×
      Nat)) :
    Dev.Frame [.mem] d (Dev.settleRegions d mv own dst merge l) := by
  unfold Dev.settleRegions
  simp (disch := first | decide | (intros; (repeat' (first | (simp (disch := decide) only [↓(Dev.storeA_frame _ _ _ _).iff, ↓Dev.frame_ite, ↓Dev.frame_ite1, ↓Dev.frame_foldl, ↓Dev.frame_foldlPair, ↓Dev.frame_self, implies_true, and_self]) | (with_reducible refine And.intro ?_ ?_) | (with_reducible intro _) | split)))) only [↓(Dev.storeA_frame _ _ _ _).iff, ↓Dev.frame_ite, ↓Dev.frame_ite1, ↓Dev.frame_foldl, ↓Dev.frame_foldlPair, ↓Dev.frame_self, implies_true, and_self]

theorem Dev.settleDst_frame (d : Dev) (mv : Nat) (own : Option Nat) (dst : Nat) (bad : Bool) (group : List Moved) :
    Dev.Frame [.mem] d (Dev.settleDst d mv own dst bad group) := by
  unfold Dev.settleDst
  simp (disch := decide) only [↓(Dev.putTimes_frame _ _ _ _ _).iff, ↓(Dev.settleRegions_frame _ _ _ _ _ _).iff,
      ↓Dev.frame_ite, ↓Dev.frame_self, implies_true, and_self]

theorem Dev.settle_frame (d : Dev) (own : Option Nat) (mv : Nat) (k : Option Ticket) (g : Moved) :
    Dev.Frame [.log, .dict, .mem, .sync, .hull, .power, .recd, .out] d (Dev.settle d own mv k g) := by
  unfold Dev.settle
  simp (disch := decide) only [↓(Dev.countN_frame _ _ _ _).iff, ↓(Dev.moverSignal_frame _ _ _ _ _ _ _).iff,
      ↓(Dev.occur_frame _ _ _).iff, ↓(Dev.raise_frame _ _ _ _).iff, ↓(Dev.storeA_frame _ _ _ _).iff, ↓Dev.frame_ite,
      ↓Dev.frame_self, implies_true, and_self]

theorem Dev.moveReads_frame (d : Dev) (own : Option Nat) (tileBad : List Nat) (ecc : List EccEvent) (x0 : List
      (Accepted × Nat)) :
    Dev.Frame [.log, .dict, .mem, .ddr, .power, .recd] d (Dev.moveReads d own tileBad ecc x0).1 := by
  induction x0 generalizing d with
  | nil => exact Dev.Frame.refl _
  | cons w t ih =>
    unfold Dev.moveReads
    dsimp only
    refine Dev.Frame.trans ?_ (ih _)
    split
    · exact (Dev.readKeys_frame _ _ _).mono (by decide)
    · exact Dev.Frame.refl _

theorem fenceGroupComplete_frame (mv : Nat) (tileBad : List Nat) (ecc : List EccEvent) (d : Dev) :
    Dev.Frame [.log, .dict, .pods, .movers, .mem, .ddr, .sched, .sync, .hull, .power, .recd, .out,
      .free] d (fenceGroupComplete mv tileBad ecc d) := by
  unfold fenceGroupComplete
  repeat' (first
    | (simp (disch := first | decide | (intros; (repeat' (first | (simp (disch := decide) only [↓(Dev.bumpFree_frame _).iff, ↓(Dev.dataPhase_frame _ _ _ _).iff, ↓(Dev.finish_frame _ _ _ _ _).iff, ↓(Dev.idleEntry_frame _ _).iff, ↓(Dev.launch_frame _ _).iff, ↓(Dev.modMover_frame _ _ _).iff, ↓(Dev.moveReads_frame _ _ _ _ _).iff, ↓(Dev.padPhase_frame _ _ _ _).iff, ↓(Dev.raise_frame _ _ _ _).iff, ↓(Dev.settle_frame _ _ _ _ _).iff, ↓(Dev.settleDst_frame _ _ _ _ _ _).iff, ↓Dev.frame_ite, ↓Dev.frame_ite1, ↓Dev.frame_foldl, ↓Dev.frame_foldlPair, ↓Dev.frame_self, implies_true, and_self]) | (with_reducible refine And.intro ?_ ?_) | (with_reducible intro _) | split)))) only [↓(Dev.bumpFree_frame _).iff, ↓(Dev.dataPhase_frame _ _ _ _).iff, ↓(Dev.finish_frame _ _ _ _ _).iff, ↓(Dev.idleEntry_frame _ _).iff, ↓(Dev.launch_frame _ _).iff, ↓(Dev.modMover_frame _ _ _).iff, ↓(Dev.moveReads_frame _ _ _ _ _).iff, ↓(Dev.padPhase_frame _ _ _ _).iff, ↓(Dev.raise_frame _ _ _ _).iff, ↓(Dev.settle_frame _ _ _ _ _).iff, ↓(Dev.settleDst_frame _ _ _ _ _ _).iff, ↓Dev.frame_ite, ↓Dev.frame_ite1, ↓Dev.frame_foldl, ↓Dev.frame_foldlPair, ↓Dev.frame_self, implies_true, and_self])
    | (with_reducible refine And.intro ?_ ?_)
    | (with_reducible intro _)
    | split)

theorem execFenceGroupComplete_frame (m : Fin 27) (tileBad : List Nat) (ecc : List EccEvent) (s : State) :
    ∃ d, execFenceGroupComplete m tileBad ecc s = .next { s with dev := d } ∧ Dev.Frame [.log, .dict, .pods, .movers,
      .mem, .ddr, .sched, .sync, .hull, .power, .recd, .out, .free] s.dev d := ⟨_, rfl, fenceGroupComplete_frame _ _ _ _⟩

theorem ddrWriteCrcAlert_frame (mv i addr fails : Nat) (d : Dev) :
    Dev.Frame [.log, .dict, .movers, .power, .recd] d (ddrWriteCrcAlert mv i addr fails d) := by
  unfold ddrWriteCrcAlert
  simp (disch := decide) only [↓(Dev.modDesc_frame _ _ _ _).iff, ↓(Dev.raise_frame _ _ _ _).iff, ↓Dev.frame_ite,
      ↓Dev.frame_self, implies_true, and_self]

theorem execDdrWriteCrcAlert_frame (m : Fin 27) (desc addr retriesFail : Nat) (s : State) :
    ∃ d, execDdrWriteCrcAlert m desc addr retriesFail s = .next { s with dev := d } ∧ Dev.Frame [.log, .dict,
      .movers, .power, .recd] s.dev d := ⟨_, rfl, ddrWriteCrcAlert_frame _ _ _ _ _⟩

theorem Dev.turnWindow_frame (d : Dev) (p w : Nat) :
    Dev.Frame [.pods] d (Dev.turnWindow d p w) := by
  unfold Dev.turnWindow
  simp (disch := decide) only [↓(Dev.modPod_frame _ _ _).iff, ↓Dev.frame_ite, ↓Dev.frame_ite1, ↓Dev.frame_self,
      implies_true, and_self]

theorem Dev.opFaults_frame (d : Dev) (p : Nat) (l : List Nat) :
    Dev.Frame [.log, .dict, .pods, .movers, .mem, .sched, .sync, .hull, .twin, .palca, .power, .recd,
      .out] d (Dev.opFaults d p l) := by
  unfold Dev.opFaults
  simp (disch := first | decide | (intros; (repeat' (first | (simp (disch := decide) only [↓(Dev.arithFault_frame _ _).iff, ↓(Dev.raise_frame _ _ _ _).iff, ↓Dev.frame_foldl, ↓Dev.frame_foldlPair, ↓Dev.frame_self, implies_true, and_self]) | (with_reducible refine And.intro ?_ ?_) | (with_reducible intro _) | split)))) only [↓(Dev.arithFault_frame _ _).iff, ↓(Dev.raise_frame _ _ _ _).iff, ↓Dev.frame_foldl, ↓Dev.frame_foldlPair, ↓Dev.frame_self, implies_true, and_self]

theorem Dev.refuseOp_frame (d : Dev) (l p : Nat) (o : OpDesc) (k : Ticket) (cause : Nat) :
    Dev.Frame [.log, .dict, .mem, .sched, .sync, .hull, .power, .recd, .out] d (Dev.refuseOp d l p o k cause) := by
  unfold Dev.refuseOp
  simp (disch := decide) only [↓(Dev.faultOutputs_frame _ _ _ _).iff, ↓(Dev.finish_frame _ _ _ _ _).iff,
      ↓(Dev.markFaulted_frame _ _ _).iff, ↓(Dev.raise_frame _ _ _ _).iff, ↓(Dev.storeA_frame _ _ _ _).iff,
      ↓Dev.frame_self]

theorem op_frame (l : Nat) (o : OpDesc) (d : Dev) :
    Dev.Frame [.log, .dict, .pods, .mem, .sched, .sync, .hull, .power, .recd, .out] d (op l o d) := by
  unfold op
  repeat' (first
    | (simp (disch := decide) only [↓(Dev.modPod_frame _ _ _).iff, ↓(Dev.refuseOp_frame _ _ _ _ _ _).iff,
      ↓(Dev.startEntry_frame _ _ _).iff, ↓Dev.frame_ite, ↓Dev.frame_ite1, ↓Dev.frame_self, implies_true, and_self])
    | (with_reducible refine And.intro ?_ ?_)
    | (with_reducible intro _)
    | split)

theorem execOp_frame (l : Fin 24) (o : OpDesc) (s : State) :
    ∃ d, execOp l o s = .next { s with dev := d } ∧ Dev.Frame [.log, .dict, .pods, .mem, .sched, .sync, .hull,
      .power, .recd, .out] s.dev d := ⟨_, rfl, op_frame _ _ _⟩

theorem Dev.countSats_frame (d : Dev) (l p : Nat) (o : OpDesc) (n : Nat) :
    Dev.Frame [.log, .dict, .cyc, .power, .recd] d (Dev.countSats d l p o n) := by
  unfold Dev.countSats
  repeat' (first
    | (simp (disch := decide) only [↓(Dev.raise_frame _ _ _ _).iff, ↓(Dev.setObj_frame _ _ _ _).iff, ↓Dev.frame_cyc,
      ↓Dev.frame_ite, ↓Dev.frame_ite1, ↓Dev.frame_self, implies_true, and_self])
    | (with_reducible refine And.intro ?_ ?_)
    | (with_reducible intro _)
    | split)

theorem Dev.putRow_frame (d : Dev) (own : Option Nat) (t : TDesc) (m : Nat) (l : List Nat) :
    Dev.Frame [.mem] d (Dev.putRow d own t m l) := by
  unfold Dev.putRow
  simp (disch := first | decide | (intros; (repeat' (first | (simp (disch := decide) only [↓(Dev.eltPut_frame _ _ _ _ _).iff, ↓(Dev.healElts_frame _ _ _ _).iff, ↓Dev.frame_foldl, ↓Dev.frame_foldlPair, ↓Dev.frame_self, implies_true, and_self]) | (with_reducible refine And.intro ?_ ?_) | (with_reducible intro _) | split)))) only [↓(Dev.eltPut_frame _ _ _ _ _).iff, ↓(Dev.healElts_frame _ _ _ _).iff, ↓Dev.frame_foldl, ↓Dev.frame_foldlPair, ↓Dev.frame_self, implies_true, and_self]

theorem opComplete_frame (l : Nat) (upsets : List EngineUpset) (ecc : List EccEvent) (d : Dev) :
    Dev.Frame [.log, .dict, .cyc, .pods, .movers, .mem, .ddr, .sched, .sync, .hull, .twin, .palca, .power, .recd,
      .out, .free] d (opComplete l upsets ecc d) := by
  unfold opComplete
  repeat' (first
    | (simp (disch := first | decide | (intros; (repeat' (first | (simp (disch := decide) only [↓(Dev.bumpFree_frame _).iff, ↓(Dev.countSats_frame _ _ _ _ _).iff, ↓(Dev.finish_frame _ _ _ _ _).iff, ↓(Dev.idleEntry_frame _ _).iff, ↓(Dev.modPod_frame _ _ _).iff, ↓(Dev.opFaults_frame _ _ _).iff, ↓(Dev.putRegions_frame _ _ _ _).iff, ↓(Dev.putRow_frame _ _ _ _ _).iff, ↓(Dev.putTimes_frame _ _ _ _ _).iff, ↓(Dev.raiseIf_frame _ _ _ _ _).iff, ↓(Dev.readKeys_frame _ _ _).iff, ↓(Dev.storeA_frame _ _ _ _).iff, ↓Dev.frame_ite, ↓Dev.frame_ite1, ↓Dev.frame_foldl, ↓Dev.frame_foldlPair, ↓Dev.frame_self, implies_true, and_self]) | (with_reducible refine And.intro ?_ ?_) | (with_reducible intro _) | split)))) only [↓(Dev.bumpFree_frame _).iff, ↓(Dev.countSats_frame _ _ _ _ _).iff, ↓(Dev.finish_frame _ _ _ _ _).iff, ↓(Dev.idleEntry_frame _ _).iff, ↓(Dev.modPod_frame _ _ _).iff, ↓(Dev.opFaults_frame _ _ _).iff, ↓(Dev.putRegions_frame _ _ _ _).iff, ↓(Dev.putRow_frame _ _ _ _ _).iff, ↓(Dev.putTimes_frame _ _ _ _ _).iff, ↓(Dev.raiseIf_frame _ _ _ _ _).iff, ↓(Dev.readKeys_frame _ _ _).iff, ↓(Dev.storeA_frame _ _ _ _).iff, ↓Dev.frame_ite, ↓Dev.frame_ite1, ↓Dev.frame_foldl, ↓Dev.frame_foldlPair, ↓Dev.frame_self, implies_true, and_self])
    | (with_reducible refine And.intro ?_ ?_)
    | (with_reducible intro _)
    | split)

theorem execOpComplete_frame (l : Fin 24) (upsets : List EngineUpset) (ecc : List EccEvent) (s : State) :
    ∃ d, execOpComplete l upsets ecc s = .next { s with dev := d } ∧ Dev.Frame [.log, .dict, .cyc, .pods, .movers,
      .mem, .ddr, .sched, .sync, .hull, .twin, .palca, .power, .recd, .out, .free] s.dev d := ⟨_, rfl, opComplete_frame _ _ _ _⟩

theorem Dev.sequencer_frame (d : Dev) (t i : Nat) :
    Dev.Frame [.log, .dict, .pods, .sched, .sync, .hull, .power, .recd, .out] d (Dev.sequencer d t i) := by
  unfold Dev.sequencer
  repeat' (first
    | (simp (disch := decide) only [↓(Dev.finish_frame _ _ _ _ _).iff, ↓(Dev.startEntry_frame _ _ _).iff,
      ↓(Dev.syncResetTo_frame _ _ _).iff, ↓(Dev.turnWindow_frame _ _ _).iff, ↓Dev.frame_self, implies_true, and_self])
    | (with_reducible refine And.intro ?_ ?_)
    | (with_reducible intro _)
    | split)

theorem Dev.readEntry_frame (d : Dev) (t i : Nat) (r : BurstResult) :
    Dev.Frame [.log, .dict, .mem, .ddr, .power, .recd] d (Dev.readEntry d t i r) := by
  unfold Dev.readEntry
  repeat' (first
    | (simp (disch := decide) only [↓(Dev.eccRead_frame _ _).iff, ↓Dev.frame_self, implies_true, and_self])
    | (with_reducible refine And.intro ?_ ?_)
    | (with_reducible intro _)
    | split)

theorem entryReleased_frame (t i : Nat) (word : BurstResult) (d : Dev) :
    Dev.Frame [.log, .dict, .pods, .mem, .ddr, .sched, .sync, .hull, .power, .recd, .out] d (entryReleased t i word d) := by
  unfold entryReleased
  simp (disch := decide) only [↓(Dev.raise_frame _ _ _ _).iff, ↓(Dev.readEntry_frame _ _ _ _).iff,
      ↓(Dev.sequencer_frame _ _ _).iff, ↓(Dev.skipEntry_frame _ _ _ _).iff, ↓(Dev.skipUnstarted_frame _ _).iff,
      ↓Dev.frame_ite, ↓Dev.frame_self, implies_true, and_self]

theorem execEntryRelease_frame (t : TableId) (i : Nat) (word : BurstResult) (s : State) :
    ∃ d, execEntryRelease t i word s = .next { s with dev := d } ∧ Dev.Frame [.log, .dict, .pods, .mem, .ddr, .sched,
      .sync, .hull, .power, .recd, .out] s.dev d := ⟨_, rfl, entryReleased_frame _ _ _ _⟩

theorem advance_frame (l w : Nat) (d : Dev) :
    Dev.Frame [.log, .dict, .pods, .sched, .sync, .hull, .power, .recd, .out] d (advance l w d) := by
  unfold advance
  repeat' (first
    | (simp (disch := decide) only [↓(Dev.sequencer_frame _ _ _).iff, ↓Dev.frame_ite, ↓Dev.frame_ite1,
      ↓Dev.frame_self, implies_true, and_self])
    | (with_reducible refine And.intro ?_ ?_)
    | (with_reducible intro _)
    | split)

theorem execAdvance_frame (l : Fin 24) (w : Fin 64) (s : State) :
    ∃ d, execAdvance l w s = .next { s with dev := d } ∧ Dev.Frame [.log, .dict, .pods, .sched, .sync, .hull, .power,
      .recd, .out] s.dev d := ⟨_, rfl, advance_frame _ _ _⟩

theorem entryDeadlinePassed_frame (t i : Nat) (d : Dev) :
    Dev.Frame [.log, .dict, .mem, .sched, .sync, .hull, .power, .recd, .out] d (entryDeadlinePassed t i d) := by
  unfold entryDeadlinePassed
  simp (disch := decide) only [↓(Dev.modPass_frame _ _ _).iff, ↓(Dev.raise_frame _ _ _ _).iff,
      ↓(Dev.skipEntry_frame _ _ _ _).iff, ↓Dev.frame_ite, ↓Dev.frame_self, implies_true, and_self]

theorem execEntryDeadline_frame (t : TableId) (i : Nat) (s : State) :
    ∃ d, execEntryDeadline t i s = .next { s with dev := d } ∧ Dev.Frame [.log, .dict, .mem, .sched, .sync, .hull,
      .power, .recd, .out] s.dev d := ⟨_, rfl, entryDeadlinePassed_frame _ _ _⟩

theorem podWakeRequest_frame (l : Nat) (d : Dev) :
    Dev.Frame [.pods] d (podWakeRequest l d) := by
  unfold podWakeRequest
  repeat' (first
    | (simp (disch := decide) only [↓(Dev.modPod_frame _ _ _).iff, ↓Dev.frame_ite, ↓Dev.frame_ite1, ↓Dev.frame_self,
      implies_true, and_self])
    | (with_reducible refine And.intro ?_ ?_)
    | (with_reducible intro _)
    | split)

theorem execPodWakeRequest_frame (l : Fin 24) (s : State) :
    ∃ d, execPodWakeRequest l s = .next { s with dev := d } ∧ Dev.Frame [.pods] s.dev d := ⟨_, rfl, podWakeRequest_frame _ _⟩

theorem podWakeComplete_frame (p : Nat) (d : Dev) :
    Dev.Frame [.log, .dict, .pods, .mem, .power, .recd] d (podWakeComplete p d) := by
  unfold podWakeComplete
  repeat' (first
    | (simp (disch := decide) only [↓(Dev.modPod_frame _ _ _).iff, ↓(Dev.raiseIf_frame _ _ _ _ _).iff,
      ↓(Dev.restorePod_frame _ _ _).iff, ↓Dev.frame_ite, ↓Dev.frame_ite1, ↓Dev.frame_self, implies_true, and_self])
    | (with_reducible refine And.intro ?_ ?_)
    | (with_reducible intro _)
    | split)

theorem execPodWakeComplete_frame (p : Fin 25) (s : State) :
    ∃ d, execPodWakeComplete p s = .next { s with dev := d } ∧ Dev.Frame [.log, .dict, .pods, .mem, .power,
      .recd] s.dev d := ⟨_, rfl, podWakeComplete_frame _ _⟩

theorem idleItemStart_frame (t i : Nat) (d : Dev) :
    Dev.Frame [.log, .dict, .pods, .sched, .sync, .hull, .power, .recd, .out] d (idleItemStart t i d) := by
  unfold idleItemStart
  repeat' (first
    | (simp (disch := decide) only [↓(Dev.sequencer_frame _ _ _).iff, ↓Dev.frame_sched, ↓Dev.frame_ite,
      ↓Dev.frame_ite1, ↓Dev.frame_self, implies_true, and_self])
    | (with_reducible refine And.intro ?_ ?_)
    | (with_reducible intro _)
    | split)

theorem execIdleItemStart_frame (t : TableId) (i : Nat) (s : State) :
    ∃ d, execIdleItemStart t i s = .next { s with dev := d } ∧ Dev.Frame [.log, .dict, .pods, .sched, .sync, .hull,
      .power, .recd, .out] s.dev d := ⟨_, rfl, idleItemStart_frame _ _ _⟩

theorem promotion_frame (t i : Nat) (d : Dev) :
    Dev.Frame [.dict, .sched] d (promotion t i d) := by
  unfold promotion
  repeat' (first
    | (simp (disch := decide) only [↓(Dev.occur_frame _ _ _).iff, ↓Dev.frame_sched, ↓Dev.frame_ite, ↓Dev.frame_ite1,
      ↓Dev.frame_self, implies_true, and_self])
    | (with_reducible refine And.intro ?_ ?_)
    | (with_reducible intro _)
    | split)

theorem execPromotion_frame (t : TableId) (i : Nat) (s : State) :
    ∃ d, execPromotion t i s = .next { s with dev := d } ∧ Dev.Frame [.dict, .sched] s.dev d := ⟨_, rfl, promotion_frame _ _ _⟩

theorem Dev.slotFault_frame (d : Dev) (n cause : Nat) :
    Dev.Frame [.dict, .intake] d (Dev.slotFault d n cause) := by
  unfold Dev.slotFault
  simp (disch := decide) only [↓(Dev.modSlot_frame _ _ _).iff, ↓(Dev.occur_frame _ _ _).iff, ↓Dev.frame_ite,
      ↓Dev.frame_self, implies_true, and_self]

theorem Dev.portFault_frame (d : Dev) (code cause : Nat) :
    Dev.Frame [.dict, .intake] d (Dev.portFault d code cause) := by
  unfold Dev.portFault
  simp (disch := first | decide | (intros; (repeat' (first | (simp (disch := decide) only [↓(Dev.slotFault_frame _ _ _).iff, ↓Dev.frame_foldl, ↓Dev.frame_foldlPair, ↓Dev.frame_self, implies_true, and_self]) | (with_reducible refine And.intro ?_ ?_) | (with_reducible intro _) | split)))) only [↓(Dev.slotFault_frame _ _ _).iff, ↓Dev.frame_foldl, ↓Dev.frame_foldlPair, ↓Dev.frame_self, implies_true, and_self]

theorem slotLinkUp_frame (p : SPort) (d : Dev) :
    Dev.Frame [.intake] d (slotLinkUp p d) := by
  unfold slotLinkUp
  simp (disch := first | decide | (intros; (repeat' (first | (simp (disch := decide) only [↓(Dev.modSlot_frame _ _ _).iff, ↓Dev.frame_intake, ↓Dev.frame_ite, ↓Dev.frame_ite1, ↓Dev.frame_foldl, ↓Dev.frame_foldlPair, ↓Dev.frame_self, implies_true, and_self]) | (with_reducible refine And.intro ?_ ?_) | (with_reducible intro _) | split)))) only [↓(Dev.modSlot_frame _ _ _).iff, ↓Dev.frame_intake, ↓Dev.frame_ite, ↓Dev.frame_ite1, ↓Dev.frame_foldl, ↓Dev.frame_foldlPair, ↓Dev.frame_self, implies_true, and_self]

theorem execSlotLinkUp_frame (p : SPort) (s : State) :
    ∃ d, execSlotLinkUp p s = .next { s with dev := d } ∧ Dev.Frame [.intake] s.dev d := ⟨_, rfl, slotLinkUp_frame _ _⟩

theorem slotSilent_frame (n : Nat) (d : Dev) :
    Dev.Frame [.log, .dict, .intake, .power, .recd] d (slotSilent n d) := by
  unfold slotSilent
  simp (disch := decide) only [↓(Dev.modSlot_frame _ _ _).iff, ↓(Dev.raise_frame _ _ _ _).iff, ↓Dev.frame_ite,
      ↓Dev.frame_self, implies_true, and_self]

theorem execSlotSilent_frame (n : Fin 16) (s : State) :
    ∃ d, execSlotSilent n s = .next { s with dev := d } ∧ Dev.Frame [.log, .dict, .intake, .power, .recd] s.dev d := ⟨_, rfl, slotSilent_frame _ _⟩

theorem slotFaultCauseEnd_frame (n : Nat) (lane : Bool) (d : Dev) :
    Dev.Frame [.intake] d (slotFaultCauseEnd n lane d) := by
  unfold slotFaultCauseEnd
  simp (disch := decide) only [↓(Dev.modSlot_frame _ _ _).iff, ↓Dev.frame_self]

theorem execSlotFaultCauseEnd_frame (n : Fin 16) (lane : Bool) (s : State) :
    ∃ d, execSlotFaultCauseEnd n lane s = .next { s with dev := d } ∧ Dev.Frame [.intake] s.dev d := ⟨_, rfl, slotFaultCauseEnd_frame _ _ _⟩

theorem slotFaultHoldExpiry_frame (n : Nat) (d : Dev) :
    Dev.Frame [.intake] d (slotFaultHoldExpiry n d) := by
  unfold slotFaultHoldExpiry
  repeat' (first
    | (simp (disch := decide) only [↓(Dev.modSlot_frame _ _ _).iff, ↓Dev.frame_ite, ↓Dev.frame_ite1, ↓Dev.frame_self,
      implies_true, and_self])
    | (with_reducible refine And.intro ?_ ?_)
    | (with_reducible intro _)
    | split)

theorem execSlotFaultHoldExpiry_frame (n : Fin 16) (s : State) :
    ∃ d, execSlotFaultHoldExpiry n s = .next { s with dev := d } ∧ Dev.Frame [.intake] s.dev d := ⟨_, rfl, slotFaultHoldExpiry_frame _ _⟩

theorem streamPortConfigRetry_frame (p : SPort) (answers : Bool) (d : Dev) :
    Dev.Frame [.intake] d (streamPortConfigRetry p answers d) := by
  unfold streamPortConfigRetry
  simp (disch := first | decide | (intros; (repeat' (first | (simp (disch := decide) only [↓(Dev.modSlot_frame _ _ _).iff, ↓Dev.frame_intake, ↓Dev.frame_ite, ↓Dev.frame_ite1, ↓Dev.frame_foldl, ↓Dev.frame_foldlPair, ↓Dev.frame_self, implies_true, and_self]) | (with_reducible refine And.intro ?_ ?_) | (with_reducible intro _) | split)))) only [↓(Dev.modSlot_frame _ _ _).iff, ↓Dev.frame_intake, ↓Dev.frame_ite, ↓Dev.frame_ite1, ↓Dev.frame_foldl, ↓Dev.frame_foldlPair, ↓Dev.frame_self, implies_true, and_self]

theorem execStreamPortConfigRetry_frame (p : SPort) (answers : Bool) (s : State) :
    ∃ d, execStreamPortConfigRetry p answers s = .next { s with dev := d } ∧ Dev.Frame [.intake] s.dev d := ⟨_, rfl, streamPortConfigRetry_frame _ _ _⟩

theorem Dev.fifoWrite_frame (d : Dev) (n : Nat) (i : Item) :
    Dev.Frame [.dict, .intake, .recd] d (Dev.fifoWrite d n i).1 := by
  unfold Dev.fifoWrite
  simp (disch := decide) only [↓(Dev.modSlot_frame _ _ _).iff, ↓(Dev.occur_frame _ _ _).iff, ↓Dev.frame_ite1,
      ↓Dev.frame_self, implies_true, and_self]

theorem Dev.pointerMismatch_frame (d : Dev) (n : Nat) :
    Dev.Frame [.log, .dict, .intake, .power, .recd] d (Dev.pointerMismatch d n) := by
  unfold Dev.pointerMismatch
  simp (disch := decide) only [↓(Dev.modSlot_frame _ _ _).iff, ↓(Dev.raise_frame _ _ _ _).iff,
      ↓(Dev.slotFault_frame _ _ _).iff, ↓Dev.frame_self]

theorem Dev.comparePointers_frame (d : Dev) :
    Dev.Frame [.log, .dict, .intake, .power, .recd] d (Dev.comparePointers d) := by
  unfold Dev.comparePointers
  simp (disch := first | decide | (intros; (repeat' (first | (simp (disch := decide) only [↓(Dev.pointerMismatch_frame _ _).iff, ↓Dev.frame_ite, ↓Dev.frame_ite1, ↓Dev.frame_foldl, ↓Dev.frame_foldlPair, ↓Dev.frame_self, implies_true, and_self]) | (with_reducible refine And.intro ?_ ?_) | (with_reducible intro _) | split)))) only [↓(Dev.pointerMismatch_frame _ _).iff, ↓Dev.frame_ite, ↓Dev.frame_ite1, ↓Dev.frame_foldl, ↓Dev.frame_foldlPair, ↓Dev.frame_self, implies_true, and_self]

theorem fifoPointerCompare_frame (n : Nat) (differ : Bool) (d : Dev) :
    Dev.Frame [.log, .dict, .intake, .cover, .hull, .twin, .palca, .power, .recd,
      .out] d (fifoPointerCompare n differ d) := by
  unfold fifoPointerCompare
  simp (disch := decide) only [↓(Dev.pointerMismatch_frame _ _).iff, ↓(Dev.tested_frame _ _ _).iff, ↓Dev.frame_ite,
      ↓Dev.frame_self, implies_true, and_self]

theorem execFifoPointerCompare_frame (n : Fin 16) (differ : Bool) (s : State) :
    ∃ d, execFifoPointerCompare n differ s = .next { s with dev := d } ∧ Dev.Frame [.log, .dict, .intake, .cover,
      .hull, .twin, .palca, .power, .recd, .out] s.dev d := ⟨_, rfl, fifoPointerCompare_frame _ _ _⟩

theorem fifoReadResume_frame (n : Nat) (d : Dev) :
    Dev.Frame [.intake] d (fifoReadResume n d) := by
  unfold fifoReadResume
  simp (disch := decide) only [↓(Dev.modSlot_frame _ _ _).iff, ↓Dev.frame_self]

theorem execFifoReadResume_frame (n : Fin 16) (s : State) :
    ∃ d, execFifoReadResume n s = .next { s with dev := d } ∧ Dev.Frame [.intake] s.dev d := ⟨_, rfl, fifoReadResume_frame _ _⟩

theorem Dev.beyondSlot_frame (d : Dev) (n : Nat) :
    Dev.Frame [.log, .dict, .intake, .power, .recd] d (Dev.beyondSlot d n) := by
  unfold Dev.beyondSlot
  simp (disch := decide) only [↓(Dev.modSlot_frame _ _ _).iff, ↓(Dev.occur_frame _ _ _).iff,
      ↓(Dev.raise_frame _ _ _ _).iff, ↓Dev.frame_ite, ↓Dev.frame_self, implies_true, and_self]

theorem Dev.classify_frame (d : Dev) (n : Nat) (x : Sample) :
    Dev.Frame [.log, .dict, .intake, .power, .recd] d (Dev.classify d n x) := by
  unfold Dev.classify
  repeat' (first
    | (simp (disch := decide) only [↓(Dev.beyondSlot_frame _ _).iff, ↓(Dev.modSlot_frame _ _ _).iff,
      ↓(Dev.raise_frame _ _ _ _).iff, ↓Dev.frame_ite, ↓Dev.frame_ite1, ↓Dev.frame_self, implies_true, and_self])
    | (with_reducible refine And.intro ?_ ?_)
    | (with_reducible intro _)
    | split)

theorem Dev.defective_frame (d : Dev) (n : Nat) :
    Dev.Frame [.log, .dict, .power, .recd] d (Dev.defective d n) := by
  unfold Dev.defective
  simp (disch := decide) only [↓(Dev.occur_frame _ _ _).iff, ↓(Dev.raise_frame _ _ _ _).iff, ↓Dev.frame_self]

theorem Dev.closeFrame_frame (d : Dev) (n : Nat) :
    Dev.Frame [.log, .dict, .intake, .power, .recd] d (Dev.closeFrame d n) := by
  unfold Dev.closeFrame
  repeat' (first
    | (simp (disch := decide) only [↓(Dev.classify_frame _ _ _).iff, ↓(Dev.defective_frame _ _).iff,
      ↓(Dev.modSlot_frame _ _ _).iff, ↓Dev.frame_ite, ↓Dev.frame_ite1, ↓Dev.frame_self, implies_true, and_self])
    | (with_reducible refine And.intro ?_ ?_)
    | (with_reducible intro _)
    | split)

theorem Dev.putItem_frame (d : Dev) (n : Nat) (len : Bool → Nat → Word) (cut : Bool) (stamp : BitVec 96) (data : List
      Byte) :
    Dev.Frame [.log, .dict, .intake, .power, .recd] d (Dev.putItem d n len cut stamp data).1 := by
  unfold Dev.putItem
  simp (disch := decide) only [↓(Dev.fifoWrite_frame _ _ _).iff, ↓(Dev.modSlot_frame _ _ _).iff,
      ↓(Dev.raise_frame _ _ _ _).iff, ↓Dev.frame_ite, ↓Dev.frame_ite1, ↓Dev.frame_self, implies_true, and_self]

theorem Dev.csiItem_frame (d : Dev) (n kind : Nat) (crcErr corr cut : Bool) (dt vc line : Nat) (stamp : BitVec 96)
      (data : List Byte) :
    Dev.Frame [.log, .dict, .intake, .power, .recd] d (Dev.csiItem d n kind crcErr corr cut dt vc line stamp data).1 := by
  unfold Dev.csiItem
  simp (disch := decide) only [↓(Dev.putItem_frame _ _ _ _ _ _).iff, ↓Dev.frame_self, implies_true, and_self]

theorem csiFrameStart_frame (p vc : Nat) (h : HdrEcc) (d : Dev) :
    Dev.Frame [.log, .dict, .intake, .power, .recd] d (csiFrameStart p vc h d) := by
  unfold csiFrameStart
  simp (disch := first | decide | (intros; (repeat' (first | (simp (disch := decide) only [↓(Dev.closeFrame_frame _ _).iff, ↓(Dev.csiItem_frame _ _ _ _ _ _ _ _ _ _ _).iff, ↓(Dev.modSlot_frame _ _ _).iff, ↓(Dev.raise_frame _ _ _ _).iff, ↓Dev.frame_ite, ↓Dev.frame_ite1, ↓Dev.frame_foldl, ↓Dev.frame_foldlPair, ↓Dev.frame_self, implies_true, and_self]) | (with_reducible refine And.intro ?_ ?_) | (with_reducible intro _) | split)))) only [↓(Dev.closeFrame_frame _ _).iff, ↓(Dev.csiItem_frame _ _ _ _ _ _ _ _ _ _ _).iff, ↓(Dev.modSlot_frame _ _ _).iff, ↓(Dev.raise_frame _ _ _ _).iff, ↓Dev.frame_ite, ↓Dev.frame_ite1, ↓Dev.frame_foldl, ↓Dev.frame_foldlPair, ↓Dev.frame_self, implies_true, and_self]

theorem execCsiFrameStart_frame (p : Fin 12) (vc : Fin 16) (h : HdrEcc) (s : State) :
    ∃ d, execCsiFrameStart p vc h s = .next { s with dev := d } ∧ Dev.Frame [.log, .dict, .intake, .power,
      .recd] s.dev d := ⟨_, rfl, csiFrameStart_frame _ _ _ _⟩

theorem csiLongPacket_frame (p vc dt line : Nat) (lineStart : Option Nat) (data : List Byte) (crcOk cut : Bool) (h :
      HdrEcc) (d : Dev) :
    Dev.Frame [.log, .dict, .intake, .power, .recd] d (csiLongPacket p vc dt line lineStart data crcOk cut h d) := by
  unfold csiLongPacket
  split
  · exact (Dev.raise_frame _ _ _ _).mono (by decide)
  · split
    · exact (Dev.frame_intake (by decide)).2 (Dev.Frame.refl _)
    · refine (Dev.frame_foldl ?_ _ _ _).2 (Dev.Frame.refl _)
      intro e n
      split
      · exact Dev.Frame.refl _
      · split
        · exact Dev.Frame.refl _
        · exact (((Dev.modSlot_frame _ _ _).iff (by decide) _).2 ((Dev.csiItem_frame _ _ _ _ _ _ _ _ _ _ _).mono (by
      decide)))

theorem execCsiLongPacket_frame (p : Fin 12) (vc : Fin 16) (dt : Byte) (line : Nat) (lineStart : Option Nat) (data :
      List Byte) (crcOk cut : Bool) (h : HdrEcc) (s : State) :
    ∃ d, execCsiLongPacket p vc dt line lineStart data crcOk cut h s = .next { s with dev := d } ∧ Dev.Frame [.log,
      .dict, .intake, .power, .recd] s.dev d := ⟨_, rfl, csiLongPacket_frame _ _ _ _ _ _ _ _ _ _⟩

theorem csiFrameEnd_frame (p vc : Nat) (h : HdrEcc) (d : Dev) :
    Dev.Frame [.log, .dict, .intake, .power, .recd] d (csiFrameEnd p vc h d) := by
  unfold csiFrameEnd
  simp (disch := first | decide | (intros; (repeat' (first | (simp (disch := decide) only [↓(Dev.closeFrame_frame _ _).iff, ↓(Dev.csiItem_frame _ _ _ _ _ _ _ _ _ _ _).iff, ↓(Dev.raise_frame _ _ _ _).iff, ↓Dev.frame_ite, ↓Dev.frame_ite1, ↓Dev.frame_foldl, ↓Dev.frame_foldlPair, ↓Dev.frame_self, implies_true, and_self]) | (with_reducible refine And.intro ?_ ?_) | (with_reducible intro _) | split)))) only [↓(Dev.closeFrame_frame _ _).iff, ↓(Dev.csiItem_frame _ _ _ _ _ _ _ _ _ _ _).iff, ↓(Dev.raise_frame _ _ _ _).iff, ↓Dev.frame_ite, ↓Dev.frame_ite1, ↓Dev.frame_foldl, ↓Dev.frame_foldlPair, ↓Dev.frame_self, implies_true, and_self]

theorem execCsiFrameEnd_frame (p : Fin 12) (vc : Fin 16) (h : HdrEcc) (s : State) :
    ∃ d, execCsiFrameEnd p vc h s = .next { s with dev := d } ∧ Dev.Frame [.log, .dict, .intake, .power,
      .recd] s.dev d := ⟨_, rfl, csiFrameEnd_frame _ _ _ _⟩

theorem csiLaneFault_frame (p obs : Nat) (d : Dev) :
    Dev.Frame [.log, .dict, .intake, .power, .recd] d (csiLaneFault p obs d) := by
  unfold csiLaneFault
  simp (disch := decide) only [↓(Dev.portFault_frame _ _ _).iff, ↓(Dev.raise_frame _ _ _ _).iff, ↓Dev.frame_intake,
      ↓Dev.frame_self]

theorem execCsiLaneFault_frame (p : Fin 12) (obs : Fin 3) (s : State) :
    ∃ d, execCsiLaneFault p obs s = .next { s with dev := d } ∧ Dev.Frame [.log, .dict, .intake, .power,
      .recd] s.dev d := ⟨_, rfl, csiLaneFault_frame _ _ _⟩

theorem Dev.kinRecord_frame (d : Dev) (k : Nat) (stamp : BitVec 96) (data : List Byte) (upsets : List Upset) :
    Dev.Frame [.log, .dict, .power, .recd] d (Dev.kinRecord d k stamp data upsets).1 := by
  unfold Dev.kinRecord
  simp (disch := first | decide | (intros; (repeat' (first | (simp (disch := decide) only [↓(Dev.raise_frame _ _ _ _).iff, ↓Dev.frame_foldl, ↓Dev.frame_foldlPair, ↓Dev.frame_self, implies_true, and_self]) | (with_reducible refine And.intro ?_ ?_) | (with_reducible intro _) | split)))) only [↓(Dev.raise_frame _ _ _ _).iff, ↓Dev.frame_foldl, ↓Dev.frame_foldlPair, ↓Dev.frame_self, implies_true, and_self]

theorem Dev.kinSample_frame (d : Dev) (k : Nat) (stamp : BitVec 96) (data : List Byte) (phase : Bool) :
    Dev.Frame [.log, .dict, .intake, .power, .recd, .free] d (Dev.kinSample d k stamp data phase) := by
  unfold Dev.kinSample
  repeat' (first
    | (simp (disch := decide) only [↓(Dev.bumpFree_frame _).iff, ↓(Dev.modKin_frame _ _ _).iff,
      ↓(Dev.occur_frame _ _ _).iff, ↓(Dev.raise_frame _ _ _ _).iff, ↓Dev.frame_intake, ↓Dev.frame_ite,
      ↓Dev.frame_ite1, ↓Dev.frame_self, implies_true, and_self])
    | (with_reducible refine And.intro ?_ ?_)
    | (with_reducible intro _)
    | split)

theorem Dev.kinTake_frame (d : Dev) (k : Nat) (stamp : BitVec 96) (data : List Byte) (phase : Bool) (upsets : List
      Upset) :
    Dev.Frame [.log, .dict, .intake, .power, .recd, .free] d (Dev.kinTake d k stamp data phase upsets) := by
  unfold Dev.kinTake
  simp (disch := decide) only [↓(Dev.kinRecord_frame _ _ _ _ _).iff, ↓(Dev.kinSample_frame _ _ _ _ _).iff,
      ↓Dev.frame_ite, ↓Dev.frame_ite1, ↓Dev.frame_self, implies_true, and_self]

theorem canFrame_frame (c id : Nat) (ext : Bool) (data : List Byte) (upsets : List Upset) (d : Dev) :
    Dev.Frame [.log, .dict, .intake, .power, .recd, .free] d (canFrame c id ext data upsets d) := by
  unfold canFrame
  simp (disch := first | decide | (intros; (repeat' (first | (simp (disch := decide) only [↓(Dev.kinTake_frame _ _ _ _ _ _).iff, ↓Dev.frame_ite, ↓Dev.frame_ite1, ↓Dev.frame_foldl, ↓Dev.frame_foldlPair, ↓Dev.frame_self, implies_true, and_self]) | (with_reducible refine And.intro ?_ ?_) | (with_reducible intro _) | split)))) only [↓(Dev.kinTake_frame _ _ _ _ _ _).iff, ↓Dev.frame_ite, ↓Dev.frame_ite1, ↓Dev.frame_foldl, ↓Dev.frame_foldlPair, ↓Dev.frame_self, implies_true, and_self]

theorem execCanFrame_frame (c : Fin 4) (id : BitVec 29) (ext : Bool) (data : List Byte) (upsets : List Upset) (s :
      State) :
    ∃ d, execCanFrame c id ext data upsets s = .next { s with dev := d } ∧ Dev.Frame [.log, .dict, .intake, .power,
      .recd, .free] s.dev d := ⟨_, rfl, canFrame_frame _ _ _ _ _ _⟩

theorem canBusFault_frame (c : Nat) (d : Dev) :
    Dev.Frame [.log, .dict, .intake, .power, .recd] d (canBusFault c d) := by
  unfold canBusFault
  simp (disch := first | decide | (intros; (repeat' (first | (simp (disch := decide) only [↓(Dev.occur_frame _ _ _).iff, ↓(Dev.raise_frame _ _ _ _).iff, ↓Dev.frame_intake, ↓Dev.frame_ite, ↓Dev.frame_ite1, ↓Dev.frame_foldl, ↓Dev.frame_foldlPair, ↓Dev.frame_self, implies_true, and_self]) | (with_reducible refine And.intro ?_ ?_) | (with_reducible intro _) | split)))) only [↓(Dev.occur_frame _ _ _).iff, ↓(Dev.raise_frame _ _ _ _).iff, ↓Dev.frame_intake, ↓Dev.frame_ite, ↓Dev.frame_ite1, ↓Dev.frame_foldl, ↓Dev.frame_foldlPair, ↓Dev.frame_self, implies_true, and_self]

theorem execCanBusFault_frame (c : Fin 4) (s : State) :
    ∃ d, execCanBusFault c s = .next { s with dev := d } ∧ Dev.Frame [.log, .dict, .intake, .power, .recd] s.dev d := ⟨_, rfl, canBusFault_frame _ _⟩

theorem canBusRecovered_frame (c : Nat) (d : Dev) :
    Dev.Frame [.intake] d (canBusRecovered c d) := by
  unfold canBusRecovered
  simp (disch := decide) only [↓Dev.frame_intake, ↓Dev.frame_self]

theorem execCanBusRecovered_frame (c : Fin 4) (s : State) :
    ∃ d, execCanBusRecovered c s = .next { s with dev := d } ∧ Dev.Frame [.intake] s.dev d := ⟨_, rfl, canBusRecovered_frame _ _⟩

theorem spiPoll_frame (k : Nat) (d : Dev) :
    Dev.Frame [.intake, .out] d (spiPoll k d) := by
  unfold spiPoll
  simp (disch := decide) only [↓(Dev.emit_frame _ _ _ _).iff, ↓(Dev.modKin_frame _ _ _).iff, ↓Dev.frame_ite,
      ↓Dev.frame_self, implies_true, and_self]

theorem execSpiPoll_frame (k : Fin 32) (s : State) :
    ∃ d, execSpiPoll k s = .next { s with dev := d } ∧ Dev.Frame [.intake, .out] s.dev d := ⟨_, rfl, spiPoll_frame _ _⟩

theorem spiFrameReceived_frame (k : Nat) (data : List Byte) (upsets : List Upset) (d : Dev) :
    Dev.Frame [.log, .dict, .intake, .power, .recd, .free] d (spiFrameReceived k data upsets d) := by
  unfold spiFrameReceived
  repeat' (first
    | (simp (disch := decide) only [↓(Dev.kinTake_frame _ _ _ _ _ _).iff, ↓(Dev.modKin_frame _ _ _).iff,
      ↓Dev.frame_self, implies_true, and_self])
    | (with_reducible refine And.intro ?_ ?_)
    | (with_reducible intro _)
    | split)

theorem execSpiFrameReceived_frame (k : Fin 32) (data : List Byte) (upsets : List Upset) (s : State) :
    ∃ d, execSpiFrameReceived k data upsets s = .next { s with dev := d } ∧ Dev.Frame [.log, .dict, .intake, .power,
      .recd, .free] s.dev d := ⟨_, rfl, spiFrameReceived_frame _ _ _ _⟩

theorem encoderLatch_frame (e : Nat) (steps : Int) (phaseError zEdge : Bool) (upsets : List Upset) (d : Dev) :
    Dev.Frame [.log, .dict, .intake, .power, .recd, .free] d (encoderLatch e steps phaseError zEdge upsets d) := by
  unfold encoderLatch
  simp (disch := first | decide | (intros; (repeat' (first | (simp (disch := decide) only [↓(Dev.kinTake_frame _ _ _ _ _ _).iff, ↓(Dev.modKin_frame _ _ _).iff, ↓(Dev.occur_frame _ _ _).iff, ↓(Dev.raise_frame _ _ _ _).iff, ↓Dev.frame_intake, ↓Dev.frame_ite, ↓Dev.frame_ite1, ↓Dev.frame_foldl, ↓Dev.frame_foldlPair, ↓Dev.frame_self, implies_true, and_self]) | (with_reducible refine And.intro ?_ ?_) | (with_reducible intro _) | split)))) only [↓(Dev.kinTake_frame _ _ _ _ _ _).iff, ↓(Dev.modKin_frame _ _ _).iff, ↓(Dev.occur_frame _ _ _).iff, ↓(Dev.raise_frame _ _ _ _).iff, ↓Dev.frame_intake, ↓Dev.frame_ite, ↓Dev.frame_ite1, ↓Dev.frame_foldl, ↓Dev.frame_foldlPair, ↓Dev.frame_self, implies_true, and_self]

theorem execEncoderLatch_frame (e : Fin 8) (steps : Int) (phaseError zEdge : Bool) (upsets : List Upset) (s : State) :
    ∃ d, execEncoderLatch e steps phaseError zEdge upsets s = .next { s with dev := d } ∧ Dev.Frame [.log, .dict,
      .intake, .power, .recd, .free] s.dev d := ⟨_, rfl, encoderLatch_frame _ _ _ _ _ _⟩

theorem Dev.closeScan_frame (d : Dev) (n : Nat) :
    Dev.Frame [.log, .dict, .intake, .power, .recd] d (Dev.closeScan d n) := by
  unfold Dev.closeScan
  repeat' (first
    | (simp (disch := first | decide | (intros; (repeat' (first | (simp (disch := decide) only [↓(Dev.classify_frame _ _ _).iff, ↓(Dev.modSlot_frame _ _ _).iff, ↓Dev.frame_foldl, ↓Dev.frame_foldlPair, ↓Dev.frame_self, implies_true, and_self]) | (with_reducible refine And.intro ?_ ?_) | (with_reducible intro _) | split)))) only [↓(Dev.classify_frame _ _ _).iff, ↓(Dev.modSlot_frame _ _ _).iff, ↓Dev.frame_foldl, ↓Dev.frame_foldlPair, ↓Dev.frame_self, implies_true, and_self])
    | (with_reducible refine And.intro ?_ ?_)
    | (with_reducible intro _)
    | split)

theorem Dev.addPoints_frame (d : Dev) (n : Nat) (w : List Word) (l : List (ScanPoint × Option Nat)) :
    Dev.Frame [.log, .dict, .intake, .power, .recd] d (Dev.addPoints d n w l) := by
  unfold Dev.addPoints
  simp (disch := first | decide | (intros; (repeat' (first | (simp (disch := decide) only [↓(Dev.closeScan_frame _ _).iff, ↓(Dev.modSlot_frame _ _ _).iff, ↓Dev.frame_ite, ↓Dev.frame_ite1, ↓Dev.frame_foldl, ↓Dev.frame_foldlPair, ↓Dev.frame_self, implies_true, and_self]) | (with_reducible refine And.intro ?_ ?_) | (with_reducible intro _) | split)))) only [↓(Dev.closeScan_frame _ _).iff, ↓(Dev.modSlot_frame _ _ _).iff, ↓Dev.frame_ite, ↓Dev.frame_ite1, ↓Dev.frame_foldl, ↓Dev.frame_foldlPair, ↓Dev.frame_self, implies_true, and_self]

theorem Dev.scanPacket_frame (d : Dev) (n p : Nat) (f : EthFrame) :
    Dev.Frame [.log, .dict, .intake, .power, .recd, .free] d (Dev.scanPacket d n p f) := by
  unfold Dev.scanPacket
  simp (disch := decide) only [↓(Dev.addPoints_frame _ _ _ _).iff, ↓(Dev.bumpFree_frame _).iff,
      ↓(Dev.closeScan_frame _ _).iff, ↓(Dev.modSlot_frame _ _ _).iff, ↓(Dev.putItem_frame _ _ _ _ _ _).iff,
      ↓(Dev.raiseIf_frame _ _ _ _ _).iff, ↓Dev.frame_ite, ↓Dev.frame_self, implies_true, and_self]

theorem senFrame_frame (p : Nat) (f : EthFrame) (upsets : List Upset) (d : Dev) :
    Dev.Frame [.log, .dict, .intake, .power, .recd, .free] d (senFrame p f upsets d) := by
  unfold senFrame
  simp (disch := first | decide | (intros; (repeat' (first | (simp (disch := decide) only [↓(Dev.kinTake_frame _ _ _ _ _ _).iff, ↓(Dev.scanPacket_frame _ _ _ _).iff, ↓Dev.frame_intake, ↓Dev.frame_ite, ↓Dev.frame_ite1, ↓Dev.frame_foldl, ↓Dev.frame_foldlPair, ↓Dev.frame_self, implies_true, and_self]) | (with_reducible refine And.intro ?_ ?_) | (with_reducible intro _) | split)))) only [↓(Dev.kinTake_frame _ _ _ _ _ _).iff, ↓(Dev.scanPacket_frame _ _ _ _).iff, ↓Dev.frame_intake, ↓Dev.frame_ite, ↓Dev.frame_ite1, ↓Dev.frame_foldl, ↓Dev.frame_foldlPair, ↓Dev.frame_self, implies_true, and_self]

theorem execSenFrame_frame (p : Fin 4) (f : EthFrame) (upsets : List Upset) (s : State) :
    ∃ d, execSenFrame p f upsets s = .next { s with dev := d } ∧ Dev.Frame [.log, .dict, .intake, .power, .recd,
      .free] s.dev d := ⟨_, rfl, senFrame_frame _ _ _ _⟩

theorem senPhyFault_frame (p : Nat) (d : Dev) :
    Dev.Frame [.log, .dict, .intake, .power, .recd] d (senPhyFault p d) := by
  unfold senPhyFault
  simp (disch := decide) only [↓(Dev.portFault_frame _ _ _).iff, ↓(Dev.raise_frame _ _ _ _).iff, ↓Dev.frame_intake,
      ↓Dev.frame_self]

theorem execSenPhyFault_frame (p : Fin 4) (s : State) :
    ∃ d, execSenPhyFault p s = .next { s with dev := d } ∧ Dev.Frame [.log, .dict, .intake, .power, .recd] s.dev d := ⟨_, rfl, senPhyFault_frame _ _⟩

theorem Dev.badWord_frame (d : Dev) (n : Nat) (i : Item) (k : Nat) :
    Dev.Frame [.intake] d (Dev.badWord d n i k) := by
  unfold Dev.badWord
  repeat' (first
    | (simp (disch := decide) only [↓(Dev.modSlot_frame _ _ _).iff, ↓Dev.frame_self, implies_true, and_self])
    | (with_reducible refine And.intro ?_ ?_)
    | (with_reducible intro _)
    | split)

theorem Dev.readItems_frame (d : Dev) (n base : Nat) (upsets : List Upset) (x0 : List Item) :
    Dev.Frame [.log, .dict, .intake, .power, .recd] d (Dev.readItems d n base upsets x0) := by
  induction x0 generalizing d base with
  | nil => exact Dev.Frame.refl _
  | cons i t ih =>
    unfold Dev.readItems
    have h0 : ∀ (l : List Nat) (e : Dev), Dev.Frame [.log, .dict, .intake, .power, .recd] e
        (l.foldl (fun d _ => (d.occur (0x3000 + n) 0x33).raise 0x0209 n 0) e) := fun l e =>
      (Dev.frame_foldl (fun e x => ((Dev.raise_frame _ _ _ _).iff (by decide) _).2 ((Dev.occur_frame _ _ _).mono (by
      decide)))
        _ _ _).2 (Dev.Frame.refl _)
    dsimp only
    split
    · exact (Dev.frame_foldl (fun e x => (Dev.badWord_frame _ _ _ _).mono (by decide)) _ _ _).2 (h0 _ _)
    · refine Dev.Frame.trans ?_ (ih _ _)
      exact (Dev.frame_foldl (fun e x => (Dev.badWord_frame _ _ _ _).mono (by decide)) _ _ _).2
        (((Dev.modSlot_frame _ _ _).iff (by decide) _).2 (h0 _ _))

theorem Dev.work_frame (d : Dev) (n clocks : Nat) :
    Dev.Frame [.intake] d (Dev.work d n clocks) := by
  unfold Dev.work
  simp (disch := decide) only [↓(Dev.modSlot_frame _ _ _).iff, ↓Dev.frame_self, implies_true, and_self]

theorem Dev.serveSlot_frame (d : Dev) (n clocks : Nat) (upsets : List Upset) :
    Dev.Frame [.log, .dict, .intake, .power, .recd] d (Dev.serveSlot d n clocks upsets) := by
  unfold Dev.serveSlot
  simp (disch := decide) only [↓(Dev.modSlot_frame _ _ _).iff, ↓(Dev.readItems_frame _ _ _ _ _).iff,
      ↓(Dev.work_frame _ _ _).iff, ↓Dev.frame_self]

theorem timesliceEntry_frame (upsets : List Upset) (d : Dev) :
    Dev.Frame [.log, .dict, .intake, .power, .recd] d (timesliceEntry upsets d) := by
  unfold timesliceEntry
  repeat' (first
    | (simp (disch := decide) only [↓(Dev.serveSlot_frame _ _ _ _).iff, ↓Dev.frame_intake, ↓Dev.frame_ite,
      ↓Dev.frame_ite1, ↓Dev.frame_self, implies_true, and_self])
    | (with_reducible refine And.intro ?_ ?_)
    | (with_reducible intro _)
    | split)

theorem execTimesliceEntry_frame (upsets : List Upset) (s : State) :
    ∃ d, execTimesliceEntry upsets s = .next { s with dev := d } ∧ Dev.Frame [.log, .dict, .intake, .power,
      .recd] s.dev d := ⟨_, rfl, timesliceEntry_frame _ _⟩

theorem Dev.writeElements_frame (d : Dev) (t : TDesc) (elt : List Nat → Nat) (valid : List Nat → Bool) :
    Dev.Frame [.mem] d (Dev.writeElements d t elt valid) := by
  unfold Dev.writeElements
  simp (disch := first | decide | (intros; (repeat' (first | (simp (disch := decide) only [↓(Dev.eltPut_frame _ _ _ _ _).iff, ↓(Dev.setValid_frame _ _ _ _ _).iff, ↓Dev.frame_foldl, ↓Dev.frame_foldlPair, ↓Dev.frame_self, implies_true, and_self]) | (with_reducible refine And.intro ?_ ?_) | (with_reducible intro _) | split)))) only [↓(Dev.eltPut_frame _ _ _ _ _).iff, ↓(Dev.setValid_frame _ _ _ _ _).iff, ↓Dev.frame_foldl, ↓Dev.frame_foldlPair, ↓Dev.frame_self, implies_true, and_self]

theorem Dev.writeLevel_frame (d : Dev) (n : Nat) (s : Shot) (lines : List Bool) (a l : Nat) :
    Dev.Frame [.mem] d (Dev.writeLevel d n s lines a l) := by
  unfold Dev.writeLevel
  simp (disch := decide) only [↓(Dev.storeA_frame _ _ _ _).iff, ↓(Dev.writeElements_frame _ _ _ _).iff,
      ↓Dev.frame_ite, ↓Dev.frame_ite1, ↓Dev.frame_self, implies_true, and_self]

theorem Dev.writeVoxels_frame (d : Dev) (n : Nat) (pts : List CompPoint) (a : Nat) :
    Dev.Frame [.mem] d (Dev.writeVoxels d n pts a) := by
  unfold Dev.writeVoxels
  simp (disch := decide) only [↓(Dev.writeElements_frame _ _ _ _).iff, ↓Dev.frame_self, implies_true, and_self]

theorem Dev.writeIntake_frame (d : Dev) (n : Nat) (camera : Bool) (rows : List LineRead) (t : IntakeTensor) :
    Dev.Frame [.mem] d (Dev.writeIntake d n camera rows t) := by
  unfold Dev.writeIntake
  repeat' (first
    | (simp (disch := first | decide | (intros; (repeat' (first | (simp (disch := decide) only [↓(Dev.putTimes_frame _ _ _ _ _).iff, ↓(Dev.writeLevel_frame _ _ _ _ _ _).iff, ↓(Dev.writeVoxels_frame _ _ _ _).iff, ↓Dev.frame_ite, ↓Dev.frame_ite1, ↓Dev.frame_foldl, ↓Dev.frame_foldlPair, ↓Dev.frame_self, implies_true, and_self]) | (with_reducible refine And.intro ?_ ?_) | (with_reducible intro _) | split)))) only [↓(Dev.putTimes_frame _ _ _ _ _).iff, ↓(Dev.writeLevel_frame _ _ _ _ _ _).iff, ↓(Dev.writeVoxels_frame _ _ _ _).iff, ↓Dev.frame_ite, ↓Dev.frame_ite1, ↓Dev.frame_foldl, ↓Dev.frame_foldlPair, ↓Dev.frame_self, implies_true, and_self])
    | (with_reducible refine And.intro ?_ ?_)
    | (with_reducible intro _)
    | split)

theorem Dev.modDeliv_frame (d : Dev) (c : Nat) (f : Deliv → Deliv) :
    Dev.Frame [.intake] d (Dev.modDeliv d c f) := by
  unfold Dev.modDeliv
  simp (disch := decide) only [↓Dev.frame_intake, ↓Dev.frame_self]

theorem Dev.intakeComplete_frame (d : Dev) (c : Nat) :
    Dev.Frame [.log, .dict, .cyc, .sync, .hull, .power, .recd, .out] d (Dev.intakeComplete d c) := by
  unfold Dev.intakeComplete
  repeat' (first
    | (simp (disch := decide) only [↓(Dev.genFault_frame _ _).iff, ↓(Dev.raise_frame _ _ _ _).iff,
      ↓(Dev.signal_frame _ _ _ _ _).iff, ↓Dev.frame_cyc, ↓Dev.frame_ite, ↓Dev.frame_ite1, ↓Dev.frame_self,
      implies_true, and_self])
    | (with_reducible refine And.intro ?_ ?_)
    | (with_reducible intro _)
    | split)

theorem Dev.checkIntake_frame (d : Dev) :
    Dev.Frame [.log, .dict, .cyc, .sync, .hull, .power, .recd, .out] d (Dev.checkIntake d) := by
  unfold Dev.checkIntake
  repeat' (first
    | (simp (disch := decide) only [↓(Dev.intakeComplete_frame _ _).iff, ↓Dev.frame_ite, ↓Dev.frame_ite1,
      ↓Dev.frame_self, implies_true, and_self])
    | (with_reducible refine And.intro ?_ ?_)
    | (with_reducible intro _)
    | split)

theorem Dev.remark_frame (d : Dev) (c : Nat) :
    Dev.Frame [.intake, .mem] d (Dev.remark d c) := by
  unfold Dev.remark
  refine (Dev.frame_foldl (fun e n => ?_) _ _ _).2 (Dev.Frame.refl _)
  split
  · split
    · dsimp only
      refine (Dev.frame_foldl (fun e x => ?_) _ _ _).2 ((Dev.modSlot_frame _ _ _).mono (by decide))
      exact (Dev.putTimes_frame _ _ _ _ _).mono (by decide)
    · exact Dev.Frame.refl _
  · exact Dev.Frame.refl _

theorem sampleConversionComplete_frame (n : Nat) (d : Dev) :
    Dev.Frame [.log, .dict, .cyc, .intake, .mem, .sync, .hull, .power, .recd, .out] d (sampleConversionComplete n d) := by
  unfold sampleConversionComplete
  repeat' (first
    | (simp (disch := decide) only [↓(Dev.checkIntake_frame _).iff, ↓(Dev.defective_frame _ _).iff,
      ↓(Dev.modDeliv_frame _ _ _).iff, ↓(Dev.modSlot_frame _ _ _).iff, ↓(Dev.raiseIf_frame _ _ _ _ _).iff,
      ↓(Dev.writeIntake_frame _ _ _ _ _).iff, ↓Dev.frame_ite, ↓Dev.frame_ite1, ↓Dev.frame_self, implies_true,
      and_self])
    | (with_reducible refine And.intro ?_ ?_)
    | (with_reducible intro _)
    | split)

theorem execSampleConversionComplete_frame (n : Fin 16) (s : State) :
    ∃ d, execSampleConversionComplete n s = .next { s with dev := d } ∧ Dev.Frame [.log, .dict, .cyc, .intake, .mem,
      .sync, .hull, .power, .recd, .out] s.dev d := ⟨_, rfl, sampleConversionComplete_frame _ _⟩

theorem Dev.carryOver_frame (d : Dev) (n c : Nat) :
    Dev.Frame [.log, .dict, .intake, .power, .recd] d (Dev.carryOver d n c) := by
  unfold Dev.carryOver
  simp (disch := first | decide | (intros; (repeat' (first | (simp (disch := decide) only [↓(Dev.beyondSlot_frame _ _).iff, ↓(Dev.modSlot_frame _ _ _).iff, ↓Dev.frame_ite, ↓Dev.frame_ite1, ↓Dev.frame_foldl, ↓Dev.frame_foldlPair, ↓Dev.frame_self, implies_true, and_self]) | (with_reducible refine And.intro ?_ ?_) | (with_reducible intro _) | split)))) only [↓(Dev.beyondSlot_frame _ _).iff, ↓(Dev.modSlot_frame _ _ _).iff, ↓Dev.frame_ite, ↓Dev.frame_ite1, ↓Dev.frame_foldl, ↓Dev.frame_foldlPair, ↓Dev.frame_self, implies_true, and_self]

theorem intakeCompletionDeadline_frame (d : Dev) :
    Dev.Frame [.log, .dict, .cyc, .intake, .sync, .hull, .power, .recd, .out] d (intakeCompletionDeadline d) := by
  unfold intakeCompletionDeadline
  repeat' (first
    | (simp (disch := first | decide | (intros; (repeat' (first | (simp (disch := decide) only [↓(Dev.carryOver_frame _ _ _).iff, ↓(Dev.intakeComplete_frame _ _).iff, ↓(Dev.raiseIf_frame _ _ _ _ _).iff, ↓Dev.frame_cyc, ↓Dev.frame_ite, ↓Dev.frame_ite1, ↓Dev.frame_foldl, ↓Dev.frame_foldlPair, ↓Dev.frame_self, implies_true, and_self]) | (with_reducible refine And.intro ?_ ?_) | (with_reducible intro _) | split)))) only [↓(Dev.carryOver_frame _ _ _).iff, ↓(Dev.intakeComplete_frame _ _).iff, ↓(Dev.raiseIf_frame _ _ _ _ _).iff, ↓Dev.frame_cyc, ↓Dev.frame_ite, ↓Dev.frame_ite1, ↓Dev.frame_foldl, ↓Dev.frame_foldlPair, ↓Dev.frame_self, implies_true, and_self])
    | (with_reducible refine And.intro ?_ ?_)
    | (with_reducible intro _)
    | split)

theorem execIntakeCompletionDeadline_frame (s : State) :
    ∃ d, execIntakeCompletionDeadline s = .next { s with dev := d } ∧ Dev.Frame [.log, .dict, .cyc, .intake, .sync,
      .hull, .power, .recd, .out] s.dev d := ⟨_, rfl, intakeCompletionDeadline_frame _⟩

end Sys2Proof.Machine
end

