-- ==== Sys2Proof/Laws/FramesSafety.lean ====
section
/-! SUPPORT. Frames: what the Hull, the Twin link, the edge die, the service, security, storage and power change; one lemma for each operation and each command. -/

set_option linter.unusedSimpArgs false
set_option linter.unusedTactic false
set_option linter.unreachableTactic false

namespace Sys2Proof.Machine

open Sys2Proof

theorem Dev.checkSpeedInput_frame (d : Dev) (p : Nat) :
    Dev.Frame [.log, .dict, .hull, .power, .recd] d (Dev.checkSpeedInput d p) := by
  unfold Dev.checkSpeedInput
  repeat' (first
    | (simp (disch := decide) only [↓(Dev.raise_frame _ _ _ _).iff, ↓Dev.frame_hull, ↓Dev.frame_ite, ↓Dev.frame_ite1,
      ↓Dev.frame_self, implies_true, and_self])
    | (with_reducible refine And.intro ?_ ?_)
    | (with_reducible intro _)
    | split)

theorem Dev.checkSpeed_frame (d : Dev) (p : Nat) :
    Dev.Frame [.log, .dict, .hull, .twin, .palca, .recd, .out] d (Dev.checkSpeed d p) := by
  unfold Dev.checkSpeed
  repeat' (first
    | (simp (disch := decide) only [↓(Dev.demand_frame _ _ _ _).iff, ↓Dev.frame_hull, ↓Dev.frame_ite,
      ↓Dev.frame_ite1, ↓Dev.frame_self, implies_true, and_self])
    | (with_reducible refine And.intro ?_ ?_)
    | (with_reducible intro _)
    | split)

theorem Dev.evalPair_frame (d : Dev) (ws : List Word) (acc : Store Nat × Store PairEntry) (p : Nat) :
    Dev.Frame [.log, .dict, .hull, .twin, .palca, .power, .recd, .out] d (Dev.evalPair d ws acc p).1 := by
  unfold Dev.evalPair
  simp (disch := decide) only [↓(Dev.checkSpeed_frame _ _).iff, ↓(Dev.checkSpeedInput_frame _ _).iff,
      ↓Dev.frame_hull, ↓Dev.frame_self]

theorem Dev.evalPairs_frame (d : Dev) (ws : List Word) :
    Dev.Frame [.log, .dict, .hull, .twin, .palca, .power, .recd, .out] d (Dev.evalPairs d ws).1 := by
  unfold Dev.evalPairs
  simp (disch := first | decide | (intros; (repeat' (first | (simp (disch := decide) only [↓(Dev.evalPair_frame _ _ _ _).iff, ↓Dev.frame_foldl, ↓Dev.frame_foldlPair, ↓Dev.frame_self, implies_true, and_self]) | (with_reducible refine And.intro ?_ ?_) | (with_reducible intro _) | split)))) only [↓(Dev.evalPair_frame _ _ _ _).iff, ↓Dev.frame_foldl, ↓Dev.frame_foldlPair, ↓Dev.frame_self, implies_true, and_self]

theorem Dev.modCand_frame (d : Dev) (f : Candidate → Candidate) :
    Dev.Frame [.fus] d (Dev.modCand d f) := by
  unfold Dev.modCand
  simp (disch := decide) only [↓Dev.frame_fus, ↓Dev.frame_self]

theorem summaryArrival_frame (bytes : List Byte) (faulted : Bool) (clocks : Nat) (d : Dev) :
    Dev.Frame [.log, .dict, .fus, .hull, .twin, .palca, .power, .recd, .out] d (summaryArrival bytes faulted clocks d) := by
  unfold summaryArrival
  repeat' (first
    | (simp (disch := decide) only [↓(Dev.evalPairs_frame _ _).iff, ↓(Dev.modCand_frame _ _).iff,
      ↓(Dev.raise_frame _ _ _ _).iff, ↓Dev.frame_ite, ↓Dev.frame_ite1, ↓Dev.frame_self, implies_true, and_self])
    | (with_reducible refine And.intro ?_ ?_)
    | (with_reducible intro _)
    | split)

theorem execSummaryArrival_frame (bytes : List Byte) (faulted : Bool) (clocks : Nat) (s : State) :
    ∃ d, execSummaryArrival bytes faulted clocks s = .next { s with dev := d } ∧ Dev.Frame [.log, .dict, .fus, .hull,
      .twin, .palca, .power, .recd, .out] s.dev d := ⟨_, rfl, summaryArrival_frame _ _ _ _⟩

theorem speedSettleExpiry_frame (p : Nat) (d : Dev) :
    Dev.Frame [.log, .dict, .hull, .twin, .palca, .power, .recd, .out] d (speedSettleExpiry p d) := by
  unfold speedSettleExpiry
  repeat' (first
    | (simp (disch := decide) only [↓(Dev.demand_frame _ _ _ _).iff, ↓(Dev.raise_frame _ _ _ _).iff, ↓Dev.frame_hull,
      ↓Dev.frame_ite, ↓Dev.frame_ite1, ↓Dev.frame_self, implies_true, and_self])
    | (with_reducible refine And.intro ?_ ?_)
    | (with_reducible intro _)
    | split)

theorem execSpeedSettleExpiry_frame (pair : Fin 256) (s : State) :
    ∃ d, execSpeedSettleExpiry pair s = .next { s with dev := d } ∧ Dev.Frame [.log, .dict, .hull, .twin, .palca,
      .power, .recd, .out] s.dev d := ⟨_, rfl, speedSettleExpiry_frame _ _⟩

theorem hullLockstep_frame (d : Dev) :
    Dev.Frame [.log, .dict, .hull, .twin, .palca, .power, .recd, .out] d (hullLockstep d) := by
  unfold hullLockstep
  simp (disch := decide) only [↓(Dev.hullFault_frame _ _ _ _).iff, ↓Dev.frame_hull, ↓Dev.frame_self]

theorem execHullLockstep_frame (s : State) :
    ∃ d, execHullLockstep s = .next { s with dev := d } ∧ Dev.Frame [.log, .dict, .hull, .twin, .palca, .power,
      .recd, .out] s.dev d := ⟨_, rfl, hullLockstep_frame _⟩

theorem stopDarkTest_frame (b readsLow : Bool) (d : Dev) :
    Dev.Frame [.log, .dict, .hull, .twin, .palca, .power, .recd, .out] d (stopDarkTest b readsLow d) := by
  unfold stopDarkTest
  simp (disch := decide) only [↓(Dev.hullFault_frame _ _ _ _).iff, ↓Dev.frame_hull, ↓Dev.frame_ite, ↓Dev.frame_self,
      implies_true, and_self]

theorem execStopDarkTest_frame (pinB : Bool) (readsLow : Bool) (s : State) :
    ∃ d, execStopDarkTest pinB readsLow s = .next { s with dev := d } ∧ Dev.Frame [.log, .dict, .hull, .twin, .palca,
      .power, .recd, .out] s.dev d := ⟨_, rfl, stopDarkTest_frame _ _ _⟩

theorem stopPinReadback_frame (b high : Bool) (d : Dev) :
    Dev.Frame [.log, .dict, .hull, .twin, .palca, .power, .recd, .out] d (stopPinReadback b high d) := by
  unfold stopPinReadback
  simp (disch := decide) only [↓(Dev.hullFault_frame _ _ _ _).iff, ↓Dev.frame_ite, ↓Dev.frame_self, implies_true,
      and_self]

theorem execStopPinReadback_frame (pinB : Bool) (high : Bool) (s : State) :
    ∃ d, execStopPinReadback pinB high s = .next { s with dev := d } ∧ Dev.Frame [.log, .dict, .hull, .twin, .palca,
      .power, .recd, .out] s.dev d := ⟨_, rfl, stopPinReadback_frame _ _ _⟩

theorem offDelayExpiry_frame (q : Nat) (d : Dev) :
    Dev.Frame [.hull, .out] d (offDelayExpiry q d) := by
  unfold offDelayExpiry
  repeat' (first
    | (simp (disch := decide) only [↓(Dev.sendCommand_frame _).iff, ↓Dev.frame_hull, ↓Dev.frame_ite, ↓Dev.frame_ite1,
      ↓Dev.frame_self, implies_true, and_self])
    | (with_reducible refine And.intro ?_ ?_)
    | (with_reducible intro _)
    | split)

theorem execOffDelayExpiry_frame (q : Fin 4) (s : State) :
    ∃ d, execOffDelayExpiry q s = .next { s with dev := d } ∧ Dev.Frame [.hull, .out] s.dev d := ⟨_, rfl, offDelayExpiry_frame _ _⟩

theorem Dev.clearChannels_frame (d : Dev) :
    Dev.Frame [.edge] d (Dev.clearChannels d) := by
  unfold Dev.clearChannels
  simp (disch := first | decide | (intros; (repeat' (first | (simp (disch := decide) only [↓Dev.frame_edge, ↓Dev.frame_ite, ↓Dev.frame_ite1, ↓Dev.frame_foldl, ↓Dev.frame_foldlPair, ↓Dev.frame_self, implies_true, and_self]) | (with_reducible refine And.intro ?_ ?_) | (with_reducible intro _) | split)))) only [↓Dev.frame_edge, ↓Dev.frame_ite, ↓Dev.frame_ite1, ↓Dev.frame_foldl, ↓Dev.frame_foldlPair, ↓Dev.frame_self, implies_true, and_self]

theorem Dev.acceptReset_frame (d : Dev) :
    Dev.Frame [.log, .dict, .hull, .twin, .palca, .power, .recd, .edge, .out] d (Dev.acceptReset d) := by
  unfold Dev.acceptReset
  simp (disch := decide) only [↓(Dev.clearChannels_frame _).iff, ↓(Dev.raise_frame _ _ _ _).iff,
      ↓(Dev.restoreOutputs_frame _).iff, ↓(Dev.sendCommand_frame _).iff, ↓(Dev.showTier_frame _).iff,
      ↓Dev.frame_hull, ↓Dev.frame_ite, ↓Dev.frame_self, implies_true, and_self]

theorem safetyChannelTimeout_frame (d : Dev) :
    Dev.Frame [.log, .dict, .hull, .twin, .palca, .power, .recd, .out] d (safetyChannelTimeout d) := by
  unfold safetyChannelTimeout
  simp (disch := decide) only [↓(Dev.demand_frame _ _ _ _).iff, ↓(Dev.raise_frame _ _ _ _).iff, ↓Dev.frame_hull,
      ↓Dev.frame_ite, ↓Dev.frame_self, implies_true, and_self]

theorem execSafetyChannelTimeout_frame (s : State) :
    ∃ d, execSafetyChannelTimeout s = .next { s with dev := d } ∧ Dev.Frame [.log, .dict, .hull, .twin, .palca,
      .power, .recd, .out] s.dev d := ⟨_, rfl, safetyChannelTimeout_frame _⟩

theorem statusInterval_frame (d : Dev) :
    Dev.Frame [.hull, .palca, .out] d (statusInterval d) := by
  unfold statusInterval
  simp (disch := decide) only [↓(Dev.sendStatus_frame _).iff, ↓Dev.frame_ite, ↓Dev.frame_self, implies_true, and_self]

theorem execStatusInterval_frame (s : State) :
    ∃ d, execStatusInterval s = .next { s with dev := d } ∧ Dev.Frame [.hull, .palca, .out] s.dev d := ⟨_, rfl, statusInterval_frame _⟩

theorem Dev.useFrame_frame (d : Dev) (f : TwinFrame) :
    Dev.Frame [.log, .dict, .twin, .power, .recd] d (Dev.useFrame d f).1 := by
  unfold Dev.useFrame
  repeat' (first
    | (simp (disch := decide) only [↓(Dev.raise_frame _ _ _ _).iff, ↓(Dev.raiseIf_frame _ _ _ _ _).iff,
      ↓Dev.frame_twin, ↓Dev.frame_ite, ↓Dev.frame_ite1, ↓Dev.frame_self, implies_true, and_self])
    | (with_reducible refine And.intro ?_ ?_)
    | (with_reducible intro _)
    | split)

theorem twinHeartbeatSend_frame (d : Dev) :
    Dev.Frame [.twin, .out] d (twinHeartbeatSend d) := by
  unfold twinHeartbeatSend
  simp (disch := decide) only [↓(Dev.sendTwin_frame _ _ _).iff, ↓Dev.frame_twin, ↓Dev.frame_ite, ↓Dev.frame_self,
      implies_true, and_self]

theorem execTwinHeartbeatSend_frame (s : State) :
    ∃ d, execTwinHeartbeatSend s = .next { s with dev := d } ∧ Dev.Frame [.twin, .out] s.dev d := ⟨_, rfl, twinHeartbeatSend_frame _⟩

theorem heartbeat_frame (f : TwinFrame) (d : Dev) :
    Dev.Frame [.log, .dict, .twin, .power, .recd, .free] d (heartbeat f d) := by
  unfold heartbeat
  simp (disch := decide) only [↓(Dev.bumpFree_frame _).iff, ↓(Dev.useFrame_frame _ _).iff, ↓Dev.frame_twin,
      ↓Dev.frame_ite, ↓Dev.frame_self, implies_true, and_self]

theorem execHeartbeat_frame (f : TwinFrame) (s : State) :
    ∃ d, execHeartbeat f s = .next { s with dev := d } ∧ Dev.Frame [.log, .dict, .twin, .power, .recd, .free] s.dev d := ⟨_, rfl, heartbeat_frame _ _⟩

theorem Dev.mismatch_frame (d : Dev) :
    Dev.Frame [.log, .dict, .hull, .twin, .palca, .power, .recd, .out] d (Dev.mismatch d) := by
  unfold Dev.mismatch
  simp (disch := decide) only [↓(Dev.demand_frame _ _ _ _).iff, ↓(Dev.raise_frame _ _ _ _).iff,
      ↓(Dev.recEvent_frame _ _).iff, ↓Dev.frame_hull, ↓Dev.frame_twin, ↓Dev.frame_ite, ↓Dev.frame_self, implies_true,
      and_self]

theorem Dev.agreed_frame (d : Dev) :
    Dev.Frame [.log, .dict, .hull, .twin, .palca, .recd, .out] d (Dev.agreed d) := by
  unfold Dev.agreed
  simp (disch := decide) only [↓(Dev.demand_frame _ _ _ _).iff, ↓Dev.frame_twin, ↓Dev.frame_ite, ↓Dev.frame_self,
      implies_true, and_self]

theorem Dev.tolerance_frame (d : Dev) (ok : Bool) :
    Dev.Frame [.log, .dict, .hull, .twin, .palca, .power, .recd, .out] d (Dev.tolerance d ok) := by
  unfold Dev.tolerance
  simp (disch := decide) only [↓(Dev.demand_frame _ _ _ _).iff, ↓(Dev.raise_frame _ _ _ _).iff,
      ↓(Dev.recEvent_frame _ _).iff, ↓Dev.frame_twin, ↓Dev.frame_ite, ↓Dev.frame_self, implies_true, and_self]

theorem Dev.markCompared_frame (d : Dev) (p : Decided → Bool) :
    Dev.Frame [.twin] d (Dev.markCompared d p) := by
  unfold Dev.markCompared
  simp (disch := decide) only [↓Dev.frame_twin, ↓Dev.frame_self]

theorem Dev.crossCheck_frame (d : Dev) (t : Decided) :
    Dev.Frame [.log, .dict, .hull, .twin, .palca, .power, .recd, .out] d (Dev.crossCheck d t) := by
  unfold Dev.crossCheck
  repeat' (first
    | (simp (disch := decide) only [↓(Dev.agreed_frame _).iff, ↓(Dev.markCompared_frame _ _).iff,
      ↓(Dev.mismatch_frame _).iff, ↓Dev.frame_ite, ↓Dev.frame_ite1, ↓Dev.frame_self, implies_true, and_self])
    | (with_reducible refine And.intro ?_ ?_)
    | (with_reducible intro _)
    | split)

theorem Dev.alignment_frame (d : Dev) (tv : Int) :
    Dev.Frame [.log, .dict, .hull, .twin, .palca, .power, .recd, .out] d (Dev.alignment d tv) := by
  unfold Dev.alignment
  simp (disch := decide) only [↓(Dev.demand_frame _ _ _ _).iff, ↓(Dev.raise_frame _ _ _ _).iff, ↓Dev.frame_twin,
      ↓Dev.frame_ite, ↓Dev.frame_self, implies_true, and_self]

theorem decision_frame (f : TwinFrame) (d : Dev) :
    Dev.Frame [.log, .dict, .hull, .twin, .palca, .power, .recd, .out] d (decision f d) := by
  unfold decision
  simp (disch := decide) only [↓(Dev.alignment_frame _ _).iff, ↓(Dev.crossCheck_frame _ _).iff,
      ↓(Dev.demand_frame _ _ _ _).iff, ↓(Dev.useFrame_frame _ _).iff, ↓Dev.frame_twin, ↓Dev.frame_ite,
      ↓Dev.frame_self, implies_true, and_self]

theorem execDecision_frame (f : TwinFrame) (s : State) :
    ∃ d, execDecision f s = .next { s with dev := d } ∧ Dev.Frame [.log, .dict, .hull, .twin, .palca, .power, .recd,
      .out] s.dev d := ⟨_, rfl, decision_frame _ _⟩

theorem values_frame (f : TwinFrame) (d : Dev) :
    Dev.Frame [.log, .dict, .hull, .twin, .palca, .power, .recd, .out] d (values f d) := by
  unfold values
  repeat' (first
    | (simp (disch := decide) only [↓(Dev.tolerance_frame _ _).iff, ↓(Dev.useFrame_frame _ _).iff, ↓Dev.frame_twin,
      ↓Dev.frame_ite, ↓Dev.frame_ite1, ↓Dev.frame_self, implies_true, and_self])
    | (with_reducible refine And.intro ?_ ?_)
    | (with_reducible intro _)
    | split)

theorem execValues_frame (f : TwinFrame) (s : State) :
    ∃ d, execValues f s = .next { s with dev := d } ∧ Dev.Frame [.log, .dict, .hull, .twin, .palca, .power, .recd,
      .out] s.dev d := ⟨_, rfl, values_frame _ _⟩

theorem crossCheckWindowExpiry_frame (c : Nat) (d : Dev) :
    Dev.Frame [.log, .dict, .hull, .twin, .palca, .power, .recd, .out] d (crossCheckWindowExpiry c d) := by
  unfold crossCheckWindowExpiry
  repeat' (first
    | (simp (disch := decide) only [↓(Dev.markCompared_frame _ _).iff, ↓(Dev.mismatch_frame _).iff, ↓Dev.frame_ite,
      ↓Dev.frame_ite1, ↓Dev.frame_self, implies_true, and_self])
    | (with_reducible refine And.intro ?_ ?_)
    | (with_reducible intro _)
    | split)

theorem execCrossCheckWindowExpiry_frame (cycle : BitVec 48) (s : State) :
    ∃ d, execCrossCheckWindowExpiry cycle s = .next { s with dev := d } ∧ Dev.Frame [.log, .dict, .hull, .twin,
      .palca, .power, .recd, .out] s.dev d := ⟨_, rfl, crossCheckWindowExpiry_frame _ _⟩

theorem Dev.earlyValues_frame (d : Dev) (x : Decided) :
    Dev.Frame [.log, .dict, .hull, .twin, .palca, .power, .recd, .out] d (Dev.earlyValues d x) := by
  unfold Dev.earlyValues
  split
  · dsimp only
    split
    · exact (Dev.frame_twin (by decide)).2 (Dev.Frame.refl _)
    · exact ((Dev.tolerance_frame _ _).iff (by decide) _).2 ((Dev.frame_twin (by decide)).2 (Dev.Frame.refl _))
  · exact Dev.Frame.refl _

theorem Dev.keepDecision_frame (d : Dev) (x : Decided) :
    Dev.Frame [.log, .dict, .hull, .twin, .palca, .power, .recd, .out] d (Dev.keepDecision d x) := by
  unfold Dev.keepDecision
  repeat' (first
    | (simp (disch := decide) only [↓(Dev.crossCheck_frame _ _).iff, ↓(Dev.earlyValues_frame _ _).iff,
      ↓Dev.frame_twin, ↓Dev.frame_ite, ↓Dev.frame_ite1, ↓Dev.frame_self, implies_true, and_self])
    | (with_reducible refine And.intro ?_ ?_)
    | (with_reducible intro _)
    | split)

theorem Dev.pairFrom_frame (d : Dev) (tv : Int) :
    Dev.Frame [.log, .dict, .hull, .twin, .palca, .recd, .out] d (Dev.pairFrom d tv) := by
  unfold Dev.pairFrom
  simp (disch := decide) only [↓(Dev.demand_frame _ _ _ _).iff, ↓Dev.frame_twin, ↓Dev.frame_ite, ↓Dev.frame_ite1,
      ↓Dev.frame_self, implies_true, and_self]

theorem Dev.single_frame (d : Dev) :
    Dev.Frame [.log, .dict, .hull, .twin, .palca, .power, .recd, .out] d (Dev.single d) := by
  unfold Dev.single
  simp (disch := decide) only [↓(Dev.demand_frame _ _ _ _).iff, ↓(Dev.raise_frame _ _ _ _).iff, ↓Dev.frame_self]

theorem twinLinkLost_frame (d : Dev) :
    Dev.Frame [.log, .dict, .hull, .twin, .palca, .power, .recd, .out] d (twinLinkLost d) := by
  unfold twinLinkLost
  simp (disch := decide) only [↓(Dev.demand_frame _ _ _ _).iff, ↓(Dev.single_frame _).iff, ↓Dev.frame_twin,
      ↓Dev.frame_ite, ↓Dev.frame_self, implies_true, and_self]

theorem execTwinLinkLost_frame (s : State) :
    ∃ d, execTwinLinkLost s = .next { s with dev := d } ∧ Dev.Frame [.log, .dict, .hull, .twin, .palca, .power,
      .recd, .out] s.dev d := ⟨_, rfl, twinLinkLost_frame _⟩

theorem identitySend_frame (d : Dev) :
    Dev.Frame [.twin, .out] d (identitySend d) := by
  unfold identitySend
  simp (disch := decide) only [↓(Dev.sendTwin_frame _ _ _).iff, ↓Dev.frame_twin, ↓Dev.frame_ite, ↓Dev.frame_self,
      implies_true, and_self]

theorem execIdentitySend_frame (s : State) :
    ∃ d, execIdentitySend s = .next { s with dev := d } ∧ Dev.Frame [.twin, .out] s.dev d := ⟨_, rfl, identitySend_frame _⟩

theorem Dev.discovered_frame (d : Dev) :
    Dev.Frame [.log, .dict, .hull, .twin, .palca, .recd, .out] d (Dev.discovered d) := by
  unfold Dev.discovered
  simp (disch := decide) only [↓(Dev.demand_frame _ _ _ _).iff, ↓Dev.frame_twin, ↓Dev.frame_ite, ↓Dev.frame_ite1,
      ↓Dev.frame_self, implies_true, and_self]

theorem Dev.checkFails_frame (d : Dev) (cause : Nat) :
    Dev.Frame [.log, .dict, .twin, .power, .recd] d (Dev.checkFails d cause) := by
  unfold Dev.checkFails
  simp (disch := decide) only [↓(Dev.raise_frame _ _ _ _).iff, ↓Dev.frame_twin, ↓Dev.frame_self, implies_true,
      and_self]

theorem identity_frame (f : TwinFrame) (d : Dev) :
    Dev.Frame [.log, .dict, .hull, .twin, .palca, .power, .recd, .out] d (identity f d) := by
  unfold identity
  simp (disch := decide) only [↓(Dev.checkFails_frame _ _).iff, ↓(Dev.demand_frame _ _ _ _).iff,
      ↓(Dev.discovered_frame _).iff, ↓(Dev.useFrame_frame _ _).iff, ↓Dev.frame_twin, ↓Dev.frame_ite, ↓Dev.frame_self,
      implies_true, and_self]

theorem execIdentity_frame (f : TwinFrame) (s : State) :
    ∃ d, execIdentity f s = .next { s with dev := d } ∧ Dev.Frame [.log, .dict, .hull, .twin, .palca, .power, .recd,
      .out] s.dev d := ⟨_, rfl, identity_frame _ _⟩

theorem bulk_frame (f : TwinFrame) (d : Dev) :
    Dev.Frame [.log, .dict, .power, .recd] d (bulk f d) := by
  unfold bulk
  simp (disch := decide) only [↓(Dev.raiseIf_frame _ _ _ _ _).iff, ↓Dev.frame_self]

theorem execBulk_frame (f : TwinFrame) (s : State) :
    ∃ d, execBulk f s = .next { s with dev := d } ∧ Dev.Frame [.log, .dict, .power, .recd] s.dev d := ⟨_, rfl, bulk_frame _ _⟩

theorem twinLaneTraining_frame (byPartner : Bool) (d : Dev) :
    Dev.Frame [.twin] d (twinLaneTraining byPartner d) := by
  unfold twinLaneTraining
  simp (disch := decide) only [↓Dev.frame_twin, ↓Dev.frame_ite, ↓Dev.frame_self, implies_true, and_self]

theorem execTwinLaneTraining_frame (byPartner : Bool) (s : State) :
    ∃ d, execTwinLaneTraining byPartner s = .next { s with dev := d } ∧ Dev.Frame [.twin] s.dev d := ⟨_, rfl, twinLaneTraining_frame _ _⟩

theorem twinLanesUp_frame (d : Dev) :
    Dev.Frame [.twin] d (twinLanesUp d) := by
  unfold twinLanesUp
  simp (disch := decide) only [↓Dev.frame_twin, ↓Dev.frame_ite, ↓Dev.frame_self, implies_true, and_self]

theorem execTwinLanesUp_frame (s : State) :
    ∃ d, execTwinLanesUp s = .next { s with dev := d } ∧ Dev.Frame [.twin] s.dev d := ⟨_, rfl, twinLanesUp_frame _⟩

theorem partnerDiscovery_frame (d : Dev) :
    Dev.Frame [.log, .dict, .hull, .twin, .palca, .power, .recd, .out] d (partnerDiscovery d) := by
  unfold partnerDiscovery
  simp (disch := decide) only [↓(Dev.raise_frame _ _ _ _).iff, ↓(Dev.single_frame _).iff, ↓Dev.frame_twin,
      ↓Dev.frame_ite, ↓Dev.frame_self, implies_true, and_self]

theorem execPartnerDiscovery_frame (s : State) :
    ∃ d, execPartnerDiscovery s = .next { s with dev := d } ∧ Dev.Frame [.log, .dict, .hull, .twin, .palca, .power,
      .recd, .out] s.dev d := ⟨_, rfl, partnerDiscovery_frame _⟩

theorem Dev.onEdge_frame {l : List Part} (d : Dev) (f : Dev → Dev) (h : Dev.Frame l d (f d)) :
    Dev.Frame l d (Dev.onEdge d f) := by
  unfold Dev.onEdge
  split
  · exact h
  · exact Dev.Frame.refl _

theorem Dev.frame_onEdge {l : List Part} {a d : Dev} {f : Dev → Dev} :
    Dev.Frame l a (Dev.onEdge d f) ↔ (hasEdge d.code = true → Dev.Frame l a (f d)) ∧ (¬ hasEdge d.code = true → Dev.Frame l a d) := by
  unfold Dev.onEdge
  exact Dev.frame_ite

theorem Dev.modEdge_frame (d : Dev) (f : Edge → Edge) :
    Dev.Frame [.edge] d (Dev.modEdge d f) := by
  unfold Dev.modEdge
  simp (disch := decide) only [↓Dev.frame_edge, ↓Dev.frame_self]

theorem Dev.modSq_frame (d : Dev) (c : Nat) (f : SqChannel → SqChannel) :
    Dev.Frame [.edge] d (Dev.modSq d c f) := by
  unfold Dev.modSq
  simp (disch := decide) only [↓(Dev.modEdge_frame _ _).iff, ↓Dev.frame_self]

theorem Dev.report_frame (d : Dev) (cause unit detail : Nat) :
    Dev.Frame [.edge] d (Dev.report d cause unit detail) := by
  unfold Dev.report
  simp (disch := decide) only [↓(Dev.modEdge_frame _ _).iff, ↓Dev.frame_self]

theorem Dev.openSwitch_frame (d : Dev) (c : Nat) :
    Dev.Frame [.edge] d (Dev.openSwitch d c) := by
  unfold Dev.openSwitch
  simp (disch := decide) only [↓(Dev.modSq_frame _ _ _).iff, ↓Dev.frame_self]

theorem Dev.switchOff_frame (d : Dev) (l : List Nat) :
    Dev.Frame [.edge] d (Dev.switchOff d l) := by
  unfold Dev.switchOff
  repeat' (first
    | (simp (disch := first | decide | (intros; (repeat' (first | (simp (disch := decide) only [↓(Dev.modEdge_frame _ _).iff, ↓(Dev.modSq_frame _ _ _).iff, ↓(Dev.openSwitch_frame _ _).iff, ↓Dev.frame_foldl, ↓Dev.frame_foldlPair, ↓Dev.frame_self, implies_true, and_self]) | (with_reducible refine And.intro ?_ ?_) | (with_reducible intro _) | split)))) only [↓(Dev.modEdge_frame _ _).iff, ↓(Dev.modSq_frame _ _ _).iff, ↓(Dev.openSwitch_frame _ _).iff, ↓Dev.frame_foldl, ↓Dev.frame_foldlPair, ↓Dev.frame_self, implies_true, and_self])
    | (with_reducible refine And.intro ?_ ?_)
    | (with_reducible intro _)
    | split)

theorem Dev.allSqOff_frame (d : Dev) :
    Dev.Frame [.edge] d (Dev.allSqOff d) := by
  unfold Dev.allSqOff
  simp (disch := decide) only [↓(Dev.switchOff_frame _ _).iff, ↓Dev.frame_self]

theorem Dev.latchSq_frame (d : Dev) (c cause detail : Nat) :
    Dev.Frame [.edge] d (Dev.latchSq d c cause detail) := by
  unfold Dev.latchSq
  simp (disch := decide) only [↓(Dev.modEdge_frame _ _).iff, ↓(Dev.modSq_frame _ _ _).iff,
      ↓(Dev.report_frame _ _ _ _).iff, ↓Dev.frame_self]

theorem Dev.fall_frame (d : Dev) (c : Nat) :
    Dev.Frame [.edge] d (Dev.fall d c) := by
  unfold Dev.fall
  repeat' (first
    | (simp (disch := decide) only [↓(Dev.latchSq_frame _ _ _ _).iff, ↓(Dev.modEdge_frame _ _).iff, ↓Dev.frame_ite,
      ↓Dev.frame_ite1, ↓Dev.frame_self, implies_true, and_self])
    | (with_reducible refine And.intro ?_ ?_)
    | (with_reducible intro _)
    | split)

theorem Dev.falls_frame (d : Dev) (l : List (Fin 8)) :
    Dev.Frame [.edge] d (Dev.falls d l) := by
  unfold Dev.falls
  simp (disch := first | decide | (intros; (repeat' (first | (simp (disch := decide) only [↓(Dev.fall_frame _ _).iff, ↓Dev.frame_foldl, ↓Dev.frame_foldlPair, ↓Dev.frame_self, implies_true, and_self]) | (with_reducible refine And.intro ?_ ?_) | (with_reducible intro _) | split)))) only [↓(Dev.fall_frame _ _).iff, ↓Dev.frame_foldl, ↓Dev.frame_foldlPair, ↓Dev.frame_self, implies_true, and_self]

theorem switchOffTurn_frame (fell : List (Fin 8)) (d : Dev) :
    Dev.Frame [.edge] d (switchOffTurn fell d) := by
  unfold switchOffTurn
  repeat' (first
    | (simp (disch := decide) only [↓(Dev.falls_frame _ _).iff, ↓(Dev.modEdge_frame _ _).iff,
      ↓(Dev.openSwitch_frame _ _).iff, ↓Dev.frame_ite, ↓Dev.frame_ite1, ↓Dev.frame_onEdge, ↓Dev.frame_self,
      implies_true, and_self])
    | (with_reducible refine And.intro ?_ ?_)
    | (with_reducible intro _)
    | split)

theorem execSwitchOffTurn_frame (fell : List (Fin 8)) (s : State) :
    ∃ d, execSwitchOffTurn fell s = .next { s with dev := d } ∧ Dev.Frame [.edge] s.dev d := ⟨_, rfl, switchOffTurn_frame _ _⟩

theorem edgeCommandFrameSend_frame (d : Dev) :
    Dev.Frame [.hull, .edge, .out] d (edgeCommandFrameSend d) := by
  unfold edgeCommandFrameSend
  simp (disch := decide) only [↓(Dev.modEdge_frame _ _).iff, ↓(Dev.restoreOutputs_frame _).iff,
      ↓(Dev.sendCommand_frame _).iff, ↓Dev.frame_ite, ↓Dev.frame_ite1, ↓Dev.frame_onEdge, ↓Dev.frame_self,
      implies_true, and_self]

theorem execEdgeCommandFrameSend_frame (s : State) :
    ∃ d, execEdgeCommandFrameSend s = .next { s with dev := d } ∧ Dev.Frame [.hull, .edge, .out] s.dev d := ⟨_, rfl, edgeCommandFrameSend_frame _⟩

theorem Dev.spCommand_frame (d : Dev) (n : Nat) (on : Bool) :
    Dev.Frame [.edge] d (Dev.spCommand d n on) := by
  unfold Dev.spCommand
  simp (disch := decide) only [↓(Dev.modEdge_frame _ _).iff, ↓Dev.frame_self]

theorem edgeCommandFrame_frame (lanes : Lanes) (sq : BitVec 8) (sp : BitVec 16) (d : Dev) :
    Dev.Frame [.edge] d (edgeCommandFrame lanes sq sp d) := by
  unfold edgeCommandFrame
  simp (disch := first | decide | (intros; (repeat' (first | (simp (disch := decide) only [↓(Dev.allSqOff_frame _).iff, ↓(Dev.modEdge_frame _ _).iff, ↓(Dev.modSq_frame _ _ _).iff, ↓(Dev.report_frame _ _ _ _).iff, ↓(Dev.spCommand_frame _ _ _).iff, ↓(Dev.switchOff_frame _ _).iff, ↓Dev.frame_ite, ↓Dev.frame_ite1, ↓Dev.frame_foldl, ↓Dev.frame_foldlPair, ↓Dev.frame_onEdge, ↓Dev.frame_self, implies_true, and_self]) | (with_reducible refine And.intro ?_ ?_) | (with_reducible intro _) | split)))) only [↓(Dev.allSqOff_frame _).iff, ↓(Dev.modEdge_frame _ _).iff, ↓(Dev.modSq_frame _ _ _).iff, ↓(Dev.report_frame _ _ _ _).iff, ↓(Dev.spCommand_frame _ _ _).iff, ↓(Dev.switchOff_frame _ _).iff, ↓Dev.frame_ite, ↓Dev.frame_ite1, ↓Dev.frame_foldl, ↓Dev.frame_foldlPair, ↓Dev.frame_onEdge, ↓Dev.frame_self, implies_true, and_self]

theorem execEdgeCommandFrame_frame (lanes : Lanes) (sq : BitVec 8) (sp : BitVec 16) (s : State) :
    ∃ d, execEdgeCommandFrame lanes sq sp s = .next { s with dev := d } ∧ Dev.Frame [.edge] s.dev d := ⟨_, rfl, edgeCommandFrame_frame _ _ _ _⟩

theorem Dev.protectOnce_frame (d : Dev) (tier cause : Nat) :
    Dev.Frame [.log, .dict, .hull, .twin, .palca, .recd, .out] d (Dev.protectOnce d tier cause) := by
  unfold Dev.protectOnce
  simp (disch := decide) only [↓(Dev.demandOnce_frame _ _ _).iff, ↓(Dev.effect_frame _ _ _).iff,
      ↓(Dev.occur_frame _ _ _).iff, ↓(Dev.recEvent_frame _ _).iff, ↓Dev.frame_self]

theorem Dev.useReport_frame (d : Dev) (r : Nat × Nat × Nat) :
    Dev.Frame [.log, .dict, .hull, .twin, .palca, .power, .recd, .out] d (Dev.useReport d r) := by
  unfold Dev.useReport
  simp (disch := decide) only [↓(Dev.demand_frame _ _ _ _).iff, ↓(Dev.protect_frame _ _ _ _).iff,
      ↓(Dev.protectOnce_frame _ _ _).iff, ↓(Dev.raise_frame _ _ _ _).iff, ↓Dev.frame_ite, ↓Dev.frame_self,
      implies_true, and_self]

theorem Dev.resetInput_frame (d : Dev) (p old new : Nat) :
    Dev.Frame [.log, .dict, .hull, .twin, .palca, .power, .recd, .edge, .out] d (Dev.resetInput d p old new) := by
  unfold Dev.resetInput
  repeat' (first
    | (simp (disch := decide) only [↓(Dev.acceptReset_frame _).iff, ↓Dev.frame_hull, ↓Dev.frame_ite, ↓Dev.frame_ite1,
      ↓Dev.frame_self, implies_true, and_self])
    | (with_reducible refine And.intro ?_ ?_)
    | (with_reducible intro _)
    | split)

theorem Dev.usePair_frame (d : Dev) (p : Nat) :
    Dev.Frame [.log, .dict, .hull, .twin, .palca, .power, .recd, .edge, .out] d (Dev.usePair d p) := by
  unfold Dev.usePair
  simp (disch := decide) only [↓(Dev.modEdge_frame _ _).iff, ↓(Dev.resetInput_frame _ _ _ _).iff,
      ↓(Dev.retier_frame _ _ _).iff, ↓Dev.frame_hull, ↓Dev.frame_ite, ↓Dev.frame_self, implies_true, and_self]

theorem edgeStatusFrame_frame (lanes : Lanes) (d : Dev) :
    Dev.Frame [.log, .dict, .hull, .twin, .palca, .power, .recd, .edge, .out] d (edgeStatusFrame lanes d) := by
  unfold edgeStatusFrame
  simp (disch := first | decide | (intros; (repeat' (first | (simp (disch := decide) only [↓(Dev.demand_frame _ _ _ _).iff, ↓(Dev.modEdge_frame _ _).iff, ↓(Dev.protectOnce_frame _ _ _).iff, ↓(Dev.raise_frame _ _ _ _).iff, ↓(Dev.usePair_frame _ _).iff, ↓(Dev.useReport_frame _ _).iff, ↓Dev.frame_ite, ↓Dev.frame_ite1, ↓Dev.frame_foldl, ↓Dev.frame_foldlPair, ↓Dev.frame_onEdge, ↓Dev.frame_self, implies_true, and_self]) | (with_reducible refine And.intro ?_ ?_) | (with_reducible intro _) | split)))) only [↓(Dev.demand_frame _ _ _ _).iff, ↓(Dev.modEdge_frame _ _).iff, ↓(Dev.protectOnce_frame _ _ _).iff, ↓(Dev.raise_frame _ _ _ _).iff, ↓(Dev.usePair_frame _ _).iff, ↓(Dev.useReport_frame _ _).iff, ↓Dev.frame_ite, ↓Dev.frame_ite1, ↓Dev.frame_foldl, ↓Dev.frame_foldlPair, ↓Dev.frame_onEdge, ↓Dev.frame_self, implies_true, and_self]

theorem execEdgeStatusFrame_frame (lanes : Lanes) (s : State) :
    ∃ d, execEdgeStatusFrame lanes s = .next { s with dev := d } ∧ Dev.Frame [.log, .dict, .hull, .twin, .palca,
      .power, .recd, .edge, .out] s.dev d := ⟨_, rfl, edgeStatusFrame_frame _ _⟩

theorem edgeCommandTimeout_frame (d : Dev) :
    Dev.Frame [.edge] d (edgeCommandTimeout d) := by
  unfold edgeCommandTimeout
  simp (disch := decide) only [↓(Dev.allSqOff_frame _).iff, ↓Dev.frame_ite, ↓Dev.frame_onEdge, ↓Dev.frame_self,
      implies_true, and_self]

theorem execEdgeCommandTimeout_frame (s : State) :
    ∃ d, execEdgeCommandTimeout s = .next { s with dev := d } ∧ Dev.Frame [.edge] s.dev d := ⟨_, rfl, edgeCommandTimeout_frame _⟩

theorem edgeLinkLost_frame (d : Dev) :
    Dev.Frame [.log, .dict, .hull, .twin, .palca, .power, .recd, .edge, .out] d (edgeLinkLost d) := by
  unfold edgeLinkLost
  simp (disch := decide) only [↓(Dev.modEdge_frame _ _).iff, ↓(Dev.protect_frame _ _ _ _).iff,
      ↓(Dev.raise_frame _ _ _ _).iff, ↓Dev.frame_ite, ↓Dev.frame_onEdge, ↓Dev.frame_self, implies_true, and_self]

theorem execEdgeLinkLost_frame (s : State) :
    ∃ d, execEdgeLinkLost s = .next { s with dev := d } ∧ Dev.Frame [.log, .dict, .hull, .twin, .palca, .power,
      .recd, .edge, .out] s.dev d := ⟨_, rfl, edgeLinkLost_frame _⟩

theorem Dev.modPair_frame (d : Dev) (p : Nat) (f : InputPair → InputPair) :
    Dev.Frame [.edge] d (Dev.modPair d p f) := by
  unfold Dev.modPair
  simp (disch := decide) only [↓(Dev.modEdge_frame _ _).iff, ↓Dev.frame_self]

theorem Dev.evalPairState_frame (d : Dev) (p : Nat) :
    Dev.Frame [.edge] d (Dev.evalPairState d p) := by
  unfold Dev.evalPairState
  simp (disch := decide) only [↓(Dev.modPair_frame _ _ _).iff, ↓Dev.frame_self]

theorem testFrame_frame (d : Dev) :
    Dev.Frame [.edge] d (testFrame d) := by
  unfold testFrame
  simp (disch := first | decide | (intros; (repeat' (first | (simp (disch := decide) only [↓(Dev.evalPairState_frame _ _).iff, ↓(Dev.modEdge_frame _ _).iff, ↓(Dev.modPair_frame _ _ _).iff, ↓Dev.frame_ite, ↓Dev.frame_ite1, ↓Dev.frame_foldl, ↓Dev.frame_foldlPair, ↓Dev.frame_onEdge, ↓Dev.frame_self, implies_true, and_self]) | (with_reducible refine And.intro ?_ ?_) | (with_reducible intro _) | split)))) only [↓(Dev.evalPairState_frame _ _).iff, ↓(Dev.modEdge_frame _ _).iff, ↓(Dev.modPair_frame _ _ _).iff, ↓Dev.frame_ite, ↓Dev.frame_ite1, ↓Dev.frame_foldl, ↓Dev.frame_foldlPair, ↓Dev.frame_onEdge, ↓Dev.frame_self, implies_true, and_self]

theorem execTestFrame_frame (s : State) :
    ∃ d, execTestFrame s = .next { s with dev := d } ∧ Dev.Frame [.edge] s.dev d := ⟨_, rfl, testFrame_frame _⟩

theorem darkPulse_frame (ch : Nat) (fell : List (Fin 8)) (d : Dev) :
    Dev.Frame [.edge] d (darkPulse ch fell d) := by
  unfold darkPulse
  simp (disch := decide) only [↓(Dev.falls_frame _ _).iff, ↓(Dev.modEdge_frame _ _).iff,
      ↓(Dev.modSq_frame _ _ _).iff, ↓Dev.frame_ite, ↓Dev.frame_onEdge, ↓Dev.frame_self, implies_true, and_self]

theorem execDarkPulse_frame (ch : Fin 12) (fell : List (Fin 8)) (s : State) :
    ∃ d, execDarkPulse ch fell s = .next { s with dev := d } ∧ Dev.Frame [.edge] s.dev d := ⟨_, rfl, darkPulse_frame _ _ _⟩

theorem Dev.sourceSample_frame (d : Dev) (j p : Nat) (raw : BitVec 16) :
    Dev.Frame [.edge] d (Dev.sourceSample d j p raw) := by
  unfold Dev.sourceSample
  simp (disch := decide) only [↓(Dev.modPair_frame _ _ _).iff, ↓(Dev.report_frame _ _ _ _).iff, ↓Dev.frame_ite,
      ↓Dev.frame_self, implies_true, and_self]

theorem darkPulseSample_frame (ch : Nat) (high : Bool) (raw : BitVec 16) (d : Dev) :
    Dev.Frame [.edge] d (darkPulseSample ch high raw d) := by
  unfold darkPulseSample
  simp (disch := first | decide | (intros; (repeat' (first | (simp (disch := decide) only [↓(Dev.latchSq_frame _ _ _ _).iff, ↓(Dev.modEdge_frame _ _).iff, ↓(Dev.modSq_frame _ _ _).iff, ↓(Dev.sourceSample_frame _ _ _ _).iff, ↓Dev.frame_ite, ↓Dev.frame_ite1, ↓Dev.frame_foldl, ↓Dev.frame_foldlPair, ↓Dev.frame_onEdge, ↓Dev.frame_self, implies_true, and_self]) | (with_reducible refine And.intro ?_ ?_) | (with_reducible intro _) | split)))) only [↓(Dev.latchSq_frame _ _ _ _).iff, ↓(Dev.modEdge_frame _ _).iff, ↓(Dev.modSq_frame _ _ _).iff, ↓(Dev.sourceSample_frame _ _ _ _).iff, ↓Dev.frame_ite, ↓Dev.frame_ite1, ↓Dev.frame_foldl, ↓Dev.frame_foldlPair, ↓Dev.frame_onEdge, ↓Dev.frame_self, implies_true, and_self]

theorem execDarkPulseSample_frame (ch : Fin 12) (high : Bool) (terminals : BitVec 16) (s : State) :
    ∃ d, execDarkPulseSample ch high terminals s = .next { s with dev := d } ∧ Dev.Frame [.edge] s.dev d := ⟨_, rfl, darkPulseSample_frame _ _ _ _⟩

theorem sqOffReadbackHigh_frame (c : Nat) (d : Dev) :
    Dev.Frame [.edge] d (sqOffReadbackHigh c d) := by
  unfold sqOffReadbackHigh
  simp (disch := decide) only [↓(Dev.latchSq_frame _ _ _ _).iff, ↓(Dev.modSq_frame _ _ _).iff, ↓Dev.frame_ite,
      ↓Dev.frame_onEdge, ↓Dev.frame_self, implies_true, and_self]

theorem execSqOffReadbackHigh_frame (ch : Fin 8) (s : State) :
    ∃ d, execSqOffReadbackHigh ch s = .next { s with dev := d } ∧ Dev.Frame [.edge] s.dev d := ⟨_, rfl, sqOffReadbackHigh_frame _ _⟩

theorem sqShort0v_frame (c : Nat) (d : Dev) :
    Dev.Frame [.edge] d (sqShort0v c d) := by
  unfold sqShort0v
  simp (disch := decide) only [↓(Dev.latchSq_frame _ _ _ _).iff, ↓Dev.frame_ite, ↓Dev.frame_onEdge, ↓Dev.frame_self,
      implies_true, and_self]

theorem execSqShort0v_frame (ch : Fin 8) (s : State) :
    ∃ d, execSqShort0v ch s = .next { s with dev := d } ∧ Dev.Frame [.edge] s.dev d := ⟨_, rfl, sqShort0v_frame _ _⟩

theorem sqOpenLoad_frame (c : Nat) (d : Dev) :
    Dev.Frame [.edge] d (sqOpenLoad c d) := by
  unfold sqOpenLoad
  simp (disch := decide) only [↓(Dev.latchSq_frame _ _ _ _).iff, ↓Dev.frame_ite, ↓Dev.frame_onEdge, ↓Dev.frame_self,
      implies_true, and_self]

theorem execSqOpenLoad_frame (ch : Fin 8) (s : State) :
    ∃ d, execSqOpenLoad ch s = .next { s with dev := d } ∧ Dev.Frame [.edge] s.dev d := ⟨_, rfl, sqOpenLoad_frame _ _⟩

theorem sqFaultGone_frame (c : Nat) (d : Dev) :
    Dev.Frame [.log, .dict, .hull, .twin, .palca, .recd, .edge, .out] d (sqFaultGone c d) := by
  unfold sqFaultGone
  simp (disch := decide) only [↓(Dev.demand_frame _ _ _ _).iff, ↓(Dev.modSq_frame _ _ _).iff, ↓Dev.frame_ite,
      ↓Dev.frame_onEdge, ↓Dev.frame_self, implies_true, and_self]

theorem execSqFaultGone_frame (ch : Fin 8) (s : State) :
    ∃ d, execSqFaultGone ch s = .next { s with dev := d } ∧ Dev.Frame [.log, .dict, .hull, .twin, .palca, .recd,
      .edge, .out] s.dev d := ⟨_, rfl, sqFaultGone_frame _ _⟩

theorem crossShortWatchExpiry_frame (c : Nat) (fell : Bool) (d : Dev) :
    Dev.Frame [.edge] d (crossShortWatchExpiry c fell d) := by
  unfold crossShortWatchExpiry
  repeat' (first
    | (simp (disch := decide) only [↓(Dev.fall_frame _ _).iff, ↓(Dev.modSq_frame _ _ _).iff, ↓Dev.frame_ite,
      ↓Dev.frame_ite1, ↓Dev.frame_onEdge, ↓Dev.frame_self, implies_true, and_self])
    | (with_reducible refine And.intro ?_ ?_)
    | (with_reducible intro _)
    | split)

theorem execCrossShortWatchExpiry_frame (ch : Fin 8) (fell : Bool) (s : State) :
    ∃ d, execCrossShortWatchExpiry ch fell s = .next { s with dev := d } ∧ Dev.Frame [.edge] s.dev d := ⟨_, rfl, crossShortWatchExpiry_frame _ _ _⟩

theorem terminalStateChange_frame (i : Nat) (on : Bool) (d : Dev) :
    Dev.Frame [.edge] d (terminalStateChange i on d) := by
  unfold terminalStateChange
  simp (disch := decide) only [↓(Dev.evalPairState_frame _ _).iff, ↓(Dev.modEdge_frame _ _).iff, ↓Dev.frame_ite,
      ↓Dev.frame_ite1, ↓Dev.frame_onEdge, ↓Dev.frame_self, implies_true, and_self]

theorem execTerminalStateChange_frame (i : Fin 16) (on : Bool) (s : State) :
    ∃ d, execTerminalStateChange i on s = .next { s with dev := d } ∧ Dev.Frame [.edge] s.dev d := ⟨_, rfl, terminalStateChange_frame _ _ _⟩

theorem siDiscrepancy_frame (p : Nat) (d : Dev) :
    Dev.Frame [.edge] d (siDiscrepancy p d) := by
  unfold siDiscrepancy
  repeat' (first
    | (simp (disch := decide) only [↓(Dev.modPair_frame _ _ _).iff, ↓(Dev.report_frame _ _ _ _).iff, ↓Dev.frame_ite,
      ↓Dev.frame_ite1, ↓Dev.frame_onEdge, ↓Dev.frame_self, implies_true, and_self])
    | (with_reducible refine And.intro ?_ ?_)
    | (with_reducible intro _)
    | split)

theorem execSiDiscrepancy_frame (p : Fin 8) (s : State) :
    ∃ d, execSiDiscrepancy p s = .next { s with dev := d } ∧ Dev.Frame [.edge] s.dev d := ⟨_, rfl, siDiscrepancy_frame _ _⟩

theorem Dev.spState_frame (d : Dev) (n : Nat) (from_ : List Nat) (to_ cause : Nat) :
    Dev.Frame [.edge] d (Dev.spState d n from_ to_ cause) := by
  unfold Dev.spState
  simp (disch := decide) only [↓(Dev.modEdge_frame _ _).iff, ↓(Dev.report_frame _ _ _ _).iff, ↓Dev.frame_ite,
      ↓Dev.frame_onEdge, ↓Dev.frame_self, implies_true, and_self]

theorem spShort_frame (n : Nat) (d : Dev) :
    Dev.Frame [.edge] d (spShort n d) := by
  unfold spShort
  simp (disch := decide) only [↓(Dev.spState_frame _ _ _ _ _).iff, ↓Dev.frame_self]

theorem execSpShort_frame (n : Fin 16) (s : State) :
    ∃ d, execSpShort n s = .next { s with dev := d } ∧ Dev.Frame [.edge] s.dev d := ⟨_, rfl, spShort_frame _ _⟩

theorem spOpenLoad_frame (n : Nat) (d : Dev) :
    Dev.Frame [.edge] d (spOpenLoad n d) := by
  unfold spOpenLoad
  simp (disch := decide) only [↓(Dev.spState_frame _ _ _ _ _).iff, ↓Dev.frame_self]

theorem execSpOpenLoad_frame (n : Fin 16) (s : State) :
    ∃ d, execSpOpenLoad n s = .next { s with dev := d } ∧ Dev.Frame [.edge] s.dev d := ⟨_, rfl, spOpenLoad_frame _ _⟩

theorem spOpenLoadEnd_frame (n : Nat) (d : Dev) :
    Dev.Frame [.edge] d (spOpenLoadEnd n d) := by
  unfold spOpenLoadEnd
  simp (disch := decide) only [↓(Dev.spState_frame _ _ _ _ _).iff, ↓Dev.frame_self]

theorem execSpOpenLoadEnd_frame (n : Fin 16) (s : State) :
    ∃ d, execSpOpenLoadEnd n s = .next { s with dev := d } ∧ Dev.Frame [.edge] s.dev d := ⟨_, rfl, spOpenLoadEnd_frame _ _⟩

theorem spReverse_frame (n : Nat) (d : Dev) :
    Dev.Frame [.edge] d (spReverse n d) := by
  unfold spReverse
  simp (disch := decide) only [↓(Dev.spState_frame _ _ _ _ _).iff, ↓Dev.frame_self]

theorem execSpReverse_frame (n : Fin 16) (s : State) :
    ∃ d, execSpReverse n s = .next { s with dev := d } ∧ Dev.Frame [.edge] s.dev d := ⟨_, rfl, spReverse_frame _ _⟩

theorem spReverseEnd_frame (n : Nat) (d : Dev) :
    Dev.Frame [.edge] d (spReverseEnd n d) := by
  unfold spReverseEnd
  simp (disch := decide) only [↓(Dev.spState_frame _ _ _ _ _).iff, ↓Dev.frame_self]

theorem execSpReverseEnd_frame (n : Fin 16) (s : State) :
    ∃ d, execSpReverseEnd n s = .next { s with dev := d } ∧ Dev.Frame [.edge] s.dev d := ⟨_, rfl, spReverseEnd_frame _ _⟩

theorem Dev.suppliesOff_frame (d : Dev) :
    Dev.Frame [.edge] d (Dev.suppliesOff d) := by
  unfold Dev.suppliesOff
  simp (disch := decide) only [↓(Dev.modEdge_frame _ _).iff, ↓Dev.frame_self, implies_true, and_self]

theorem Dev.measured_frame (d : Dev) (vedge vsens : Nat) (temp : Int) :
    Dev.Frame [.edge] d (Dev.measured d vedge vsens temp) := by
  unfold Dev.measured
  simp (disch := decide) only [↓(Dev.modEdge_frame _ _).iff, ↓Dev.frame_self, implies_true, and_self]

theorem edgeSupplyMeasure_frame (vedge vsens : Nat) (temp : Int) (d : Dev) :
    Dev.Frame [.log, .dict, .hull, .twin, .palca, .recd, .edge, .out] d (edgeSupplyMeasure vedge vsens temp d) := by
  unfold edgeSupplyMeasure
  repeat' (first
    | (simp (disch := decide) only [↓(Dev.allSqOff_frame _).iff, ↓(Dev.demand_frame _ _ _ _).iff,
      ↓(Dev.measured_frame _ _ _ _).iff, ↓(Dev.modEdge_frame _ _).iff, ↓(Dev.report_frame _ _ _ _).iff,
      ↓(Dev.suppliesOff_frame _).iff, ↓Dev.frame_ite, ↓Dev.frame_ite1, ↓Dev.frame_onEdge, ↓Dev.frame_self,
      implies_true, and_self])
    | (with_reducible refine And.intro ?_ ?_)
    | (with_reducible intro _)
    | split)

theorem execEdgeSupplyMeasure_frame (vedge vsens : Nat) (temp : Int) (s : State) :
    ∃ d, execEdgeSupplyMeasure vedge vsens temp s = .next { s with dev := d } ∧ Dev.Frame [.log, .dict, .hull, .twin,
      .palca, .recd, .edge, .out] s.dev d := ⟨_, rfl, edgeSupplyMeasure_frame _ _ _ _⟩

theorem vedgeOutOfRange_frame (d : Dev) :
    Dev.Frame [.edge] d (vedgeOutOfRange d) := by
  unfold vedgeOutOfRange
  repeat' (first
    | (simp (disch := decide) only [↓(Dev.report_frame _ _ _ _).iff, ↓Dev.frame_ite, ↓Dev.frame_ite1,
      ↓Dev.frame_onEdge, ↓Dev.frame_self, implies_true, and_self])
    | (with_reducible refine And.intro ?_ ?_)
    | (with_reducible intro _)
    | split)

theorem execVedgeOutOfRange_frame (s : State) :
    ∃ d, execVedgeOutOfRange s = .next { s with dev := d } ∧ Dev.Frame [.edge] s.dev d := ⟨_, rfl, vedgeOutOfRange_frame _⟩

theorem vsensRecovery_frame (d : Dev) :
    Dev.Frame [.edge] d (vsensRecovery d) := by
  unfold vsensRecovery
  repeat' (first
    | (simp (disch := decide) only [↓(Dev.modEdge_frame _ _).iff, ↓Dev.frame_ite, ↓Dev.frame_ite1, ↓Dev.frame_onEdge,
      ↓Dev.frame_self, implies_true, and_self])
    | (with_reducible refine And.intro ?_ ?_)
    | (with_reducible intro _)
    | split)

theorem execVsensRecovery_frame (s : State) :
    ∃ d, execVsensRecovery s = .next { s with dev := d } ∧ Dev.Frame [.edge] s.dev d := ⟨_, rfl, vsensRecovery_frame _⟩

theorem edgeTemperatureResume_frame (d : Dev) :
    Dev.Frame [.log, .dict, .hull, .twin, .palca, .recd, .edge, .out] d (edgeTemperatureResume d) := by
  unfold edgeTemperatureResume
  repeat' (first
    | (simp (disch := decide) only [↓(Dev.demand_frame _ _ _ _).iff, ↓(Dev.modEdge_frame _ _).iff, ↓Dev.frame_ite,
      ↓Dev.frame_ite1, ↓Dev.frame_onEdge, ↓Dev.frame_self, implies_true, and_self])
    | (with_reducible refine And.intro ?_ ?_)
    | (with_reducible intro _)
    | split)

theorem execEdgeTemperatureResume_frame (s : State) :
    ∃ d, execEdgeTemperatureResume s = .next { s with dev := d } ∧ Dev.Frame [.log, .dict, .hull, .twin, .palca,
      .recd, .edge, .out] s.dev d := ⟨_, rfl, edgeTemperatureResume_frame _⟩

theorem Dev.reply_frame (d : Dev) (r : Req) (bytes : List Nat) :
    Dev.Frame [.palca, .out] d (Dev.reply d r bytes) := by
  unfold Dev.reply
  simp (disch := decide) only [↓(Dev.sendService_frame _ _ _ _).iff, ↓Dev.frame_palca, ↓Dev.frame_ite,
      ↓Dev.frame_self, implies_true, and_self]

theorem Dev.keepResponse_frame (d : Dev) (r : Req) (content bytes : List Nat) :
    Dev.Frame [.palca] d (Dev.keepResponse d r content bytes) := by
  unfold Dev.keepResponse
  simp (disch := decide) only [↓Dev.frame_palca, ↓Dev.frame_self]

theorem Dev.answer_frame (d : Dev) (r : Req) (op idx sub : Nat) (content bytes : List Nat) (before : Nat) :
    Dev.Frame [.palca, .out] d (Dev.answer d r op idx sub content bytes before) := by
  unfold Dev.answer
  simp (disch := decide) only [↓(Dev.keepResponse_frame _ _ _ _).iff, ↓(Dev.reply_frame _ _ _).iff, ↓Dev.frame_palca,
      ↓Dev.frame_ite, ↓Dev.frame_ite1, ↓Dev.frame_self, implies_true, and_self]

theorem Dev.releaseHeld_frame (d : Dev) (ticket : Nat) :
    Dev.Frame [.palca, .out] d (Dev.releaseHeld d ticket) := by
  unfold Dev.releaseHeld
  simp (disch := first | decide | (intros; (repeat' (first | (simp (disch := decide) only [↓(Dev.keepResponse_frame _ _ _ _).iff, ↓(Dev.reply_frame _ _ _).iff, ↓Dev.frame_palca, ↓Dev.frame_foldl, ↓Dev.frame_foldlPair, ↓Dev.frame_self, implies_true, and_self]) | (with_reducible refine And.intro ?_ ?_) | (with_reducible intro _) | split)))) only [↓(Dev.keepResponse_frame _ _ _ _).iff, ↓(Dev.reply_frame _ _ _).iff, ↓Dev.frame_palca, ↓Dev.frame_foldl, ↓Dev.frame_foldlPair, ↓Dev.frame_self, implies_true, and_self]

theorem Dev.answerAct_frame (d : Dev) (sub : Nat) (x : Reply) (entry : Option Nat) :
    Dev.Frame [.palca, .out] d (Dev.answerAct d sub x entry) := by
  unfold Dev.answerAct
  repeat' (first
    | (simp (disch := decide) only [↓(Dev.releaseHeld_frame _ _).iff, ↓Dev.frame_palca, ↓Dev.frame_ite,
      ↓Dev.frame_ite1, ↓Dev.frame_self, implies_true, and_self])
    | (with_reducible refine And.intro ?_ ?_)
    | (with_reducible intro _)
    | split)

theorem Dev.datagram_frame {l : List Part} (s : Part.sub [.dict] l = true) {g : Dev → Dev} (h : ∀ e, Dev.Frame l e (g e)) (d : Dev)
    (port : ReqPort) (addr : BitVec 128) (f : HostFrame) : Dev.Frame l d (Dev.datagram d port addr f g) := by
  unfold Dev.datagram
  split
  · exact Dev.Frame.refl _
  · split
    · exact h d
    · exact Dev.admit_frame s h _ _ _ _

theorem Dev.serve_frame {l : List Part} (s : Part.sub [.log, .dict, .palca, .power, .recd, .out] l = true)
    {f : Nat → Dev → Dev × Option Reply} (h : ∀ n e, Dev.Frame l e (f n e).1) (d : Dev) (r : Req) (op idx sub : Nat)
    (part : Bool) (off : Nat) (payload : List Byte) : Dev.Frame l d (Dev.serve d r op idx sub part off payload f) := by
  have mono : ∀ {m : List Part} {a b : Dev}, Part.sub m [.log, .dict, .palca, .power, .recd, .out] = true →
      Dev.Frame m a b → Dev.Frame l a b := fun hm k => (k.mono hm).mono s
  unfold Dev.serve
  refine Dev.datagram_frame (List.all_eq_true.mpr fun p hp => (List.all_eq_true.mp s) p (by revert hp; cases p <;> decide)) (fun d => ?_) _ _ _ _
  have run : ∀ (g : Dev → Dev × Option Reply), (∀ e, Dev.Frame l e (g e).1) → Dev.Frame l d
      (match d.repeatOf r ([op, idx, sub, b2n part, off] ++ byteNats payload) with
      | some k => d.reply r k.response
      | none => match d.heldOf r ([op, idx, sub, b2n part, off] ++ byteNats payload) with
        | some h => { d with palca := { d.palca with held := d.palca.held ++ [{ h with req := r }] } }
        | none => match g d with
          | (d', some x) => d'.answer r op idx sub ([op, idx, sub, b2n part, off] ++ byteNats payload)
              (responseBytes r op idx sub part off x) d.recd.jseq
          | (d', none) => d') := by
    intro g hg
    have := hg d
    split
    · exact mono (by decide) (Dev.reply_frame _ _ _)
    · split
      · exact mono (m := [.palca]) (by decide) ((Dev.frame_palca (by decide)).2 (Dev.Frame.refl _))
      · split
        · rename_i heq
          rw [heq] at this
          exact this.trans (mono (by decide) (Dev.answer_frame _ _ _ _ _ _ _ _))
        · rename_i heq
          rw [heq] at this
          exact this
  split
  · refine Dev.Frame.trans ?_ (mono (by decide) (Dev.raise_frame _ _ _ _))
    split
    · exact Dev.Frame.refl _
    · exact mono (by decide) (Dev.count_frame _ _ _)
  · dsimp only
    split
    · refine run _ ?_
      split
      · exact h 7
      · exact fun e => Dev.Frame.refl _
    · split
      · exact mono (by decide) (Dev.raise_frame _ _ _ _)
      · exact run _ (h _)

theorem Dev.recomputeCrc_frame (d : Dev) :
    Dev.Frame [.dict] d (Dev.recomputeCrc d) := by
  unfold Dev.recomputeCrc
  simp (disch := decide) only [↓(Dev.setObj_frame _ _ _ _).iff, ↓Dev.frame_self]

theorem Dev.put_frame (d : Dev) (idx sub : Nat) (v : List Nat) :
    Dev.Frame [.dict, .recd] d (Dev.put d idx sub v) := by
  unfold Dev.put
  repeat' (first
    | (simp (disch := decide) only [↓(Dev.persist_frame _ _ _).iff, ↓(Dev.recomputeCrc_frame _).iff,
      ↓(Dev.setObj_frame _ _ _ _).iff, ↓Dev.frame_ite, ↓Dev.frame_ite1, ↓Dev.frame_self, implies_true, and_self])
    | (with_reducible refine And.intro ?_ ?_)
    | (with_reducible intro _)
    | split)

theorem Dev.writeEv_frame (d : Dev) (idx sub : Nat) (part stays : Bool) (payload : List Byte) :
    Dev.Frame [.dict] d (Dev.writeEv d idx sub part stays payload).1 := by
  unfold Dev.writeEv
  simp (disch := decide) only [↓(Dev.clearEv_frame _ _ _).iff, ↓Dev.frame_ite, ↓Dev.frame_ite1, ↓Dev.frame_self,
      implies_true, and_self]

theorem Dev.writeWith_frame {l : List Part} (s : Part.sub [.log, .dict, .palca, .power, .recd, .out] l = true)
    {own : List Nat → Dev → Dev × Reply} (h : ∀ v e, Dev.Frame l e (own v e).1) (d : Dev) (r : Req) (idx sub : Nat)
    (part : Bool) (payload : List Byte) (stays : Bool) : Dev.Frame l d (Dev.writeWith d r idx sub part payload own stays) := by
  unfold Dev.writeWith
  refine Dev.serve_frame s (fun n e => ?_) _ _ _ _ _ _ _ _
  split
  · split
    · exact Dev.Frame.refl _
    · exact ((Dev.writeEv_frame _ _ _ _ _ _).mono (by decide : Part.sub [.dict] [.log, .dict, .palca, .power, .recd, .out] = true)).mono s
  · split
    · exact Dev.Frame.refl _
    · exact h _ _

theorem Dev.modSec_frame (d : Dev) (f : Security → Security) :
    Dev.Frame [.sec] d (Dev.modSec d f) := by
  unfold Dev.modSec
  simp (disch := decide) only [↓Dev.frame_sec, ↓Dev.frame_self]

theorem Dev.burnEpochs_frame (d : Dev) (n : Nat) :
    Dev.Frame [.log, .dict, .power, .recd, .sec] d (Dev.burnEpochs d n) := by
  unfold Dev.burnEpochs
  simp (disch := decide) only [↓(Dev.modSec_frame _ _).iff, ↓(Dev.raiseIf_frame _ _ _ _ _).iff, ↓Dev.frame_ite,
      ↓Dev.frame_self, implies_true, and_self]

theorem Dev.reserve_frame (d : Dev) (b0 : Nat) :
    Dev.Frame [.log, .dict, .power, .recd, .sec] d (Dev.reserve d b0) := by
  unfold Dev.reserve
  simp (disch := decide) only [↓(Dev.burnEpochs_frame _ _).iff, ↓(Dev.journal_frame _ _ _ _).iff,
      ↓(Dev.modSec_frame _ _).iff, ↓Dev.frame_ite, ↓Dev.frame_self, implies_true, and_self]

theorem Dev.reservationDone_frame (d : Dev) (b : Nat) :
    Dev.Frame [.log, .dict, .power, .recd, .sec] d (Dev.reservationDone d b) := by
  unfold Dev.reservationDone
  simp (disch := decide) only [↓(Dev.modSec_frame _ _).iff, ↓(Dev.raise_frame _ _ _ _).iff, ↓Dev.frame_ite,
      ↓Dev.frame_ite1, ↓Dev.frame_self, implies_true, and_self]

theorem Dev.useLeaf_frame (d : Dev) (l : Nat) :
    Dev.Frame [.log, .dict, .power, .recd, .sec] d (Dev.useLeaf d l) := by
  unfold Dev.useLeaf
  simp (disch := decide) only [↓(Dev.modSec_frame _ _).iff, ↓(Dev.reserve_frame _ _).iff, ↓Dev.frame_ite,
      ↓Dev.frame_self, implies_true, and_self]

theorem Dev.startAttestation_frame (d : Dev) (nonce : BitVec 256) :
    Dev.Frame [.sec] d (Dev.startAttestation d nonce) := by
  unfold Dev.startAttestation
  simp (disch := decide) only [↓(Dev.modSec_frame _ _).iff, ↓Dev.frame_ite, ↓Dev.frame_self, implies_true, and_self]

theorem Dev.resumeAttestation_frame (d : Dev) :
    Dev.Frame [.sec] d (Dev.resumeAttestation d) := by
  unfold Dev.resumeAttestation
  repeat' (first
    | (simp (disch := decide) only [↓(Dev.startAttestation_frame _ _).iff, ↓Dev.frame_ite, ↓Dev.frame_ite1,
      ↓Dev.frame_self, implies_true, and_self])
    | (with_reducible refine And.intro ?_ ?_)
    | (with_reducible intro _)
    | split)

theorem writeNonce_frame (v : List Nat) (d : Dev) :
    Dev.Frame [.sec] d (writeNonce v d).1 := by
  unfold writeNonce
  simp (disch := decide) only [↓(Dev.modSec_frame _ _).iff, ↓(Dev.startAttestation_frame _ _).iff, ↓Dev.frame_ite1,
      ↓Dev.frame_self, implies_true, and_self]

theorem attestationNonce_frame (r : Req) (nonce : List Byte) (d : Dev) :
    Dev.Frame [.log, .dict, .palca, .power, .recd, .sec, .out] d (attestationNonce r nonce d) := by
  unfold attestationNonce
  repeat' (first
    | (refine Dev.writeWith_frame (by decide) ?_ _ _ _ _ _ _ _)
    | (simp (disch := decide) only [↓(writeNonce_frame _ _).iff, ↓Dev.frame_self, implies_true])
    | (with_reducible refine And.intro ?_ ?_)
    | (with_reducible intro _) | split)

theorem execAttestationNonce_frame (r : Req) (nonce : List Byte) (s : State) :
    ∃ d, execAttestationNonce r nonce s = .next { s with dev := d } ∧ Dev.Frame [.log, .dict, .palca, .power, .recd,
      .sec, .out] s.dev d := ⟨_, rfl, attestationNonce_frame _ _ _⟩

theorem attestationSignatureComplete_frame (selfVerified : Bool) (d : Dev) :
    Dev.Frame [.log, .dict, .power, .recd, .sec] d (attestationSignatureComplete selfVerified d) := by
  unfold attestationSignatureComplete
  repeat' (first
    | (simp (disch := decide) only [↓(Dev.modSec_frame _ _).iff, ↓(Dev.useLeaf_frame _ _).iff, ↓Dev.frame_ite,
      ↓Dev.frame_ite1, ↓Dev.frame_self, implies_true, and_self])
    | (with_reducible refine And.intro ?_ ?_)
    | (with_reducible intro _)
    | split)

theorem execAttestationSignatureComplete_frame (selfVerified : Bool) (s : State) :
    ∃ d, execAttestationSignatureComplete selfVerified s = .next { s with dev := d } ∧ Dev.Frame [.log, .dict,
      .power, .recd, .sec] s.dev d := ⟨_, rfl, attestationSignatureComplete_frame _ _⟩

theorem leafReservationRetry_frame (written : Bool) (d : Dev) :
    Dev.Frame [.log, .dict, .power, .recd, .sec] d (leafReservationRetry written d) := by
  unfold leafReservationRetry
  simp (disch := decide) only [↓(Dev.raise_frame _ _ _ _).iff, ↓(Dev.reserve_frame _ _).iff, ↓Dev.frame_sec,
      ↓Dev.frame_ite, ↓Dev.frame_self, implies_true, and_self]

theorem execLeafReservationRetry_frame (written : Bool) (s : State) :
    ∃ d, execLeafReservationRetry written s = .next { s with dev := d } ∧ Dev.Frame [.log, .dict, .power, .recd,
      .sec] s.dev d := ⟨_, rfl, leafReservationRetry_frame _ _⟩

theorem traversalStateRecompute_frame (d : Dev) :
    Dev.Frame [.sec] d (traversalStateRecompute d) := by
  unfold traversalStateRecompute
  simp (disch := decide) only [↓(Dev.modSec_frame _ _).iff, ↓(Dev.resumeAttestation_frame _).iff, ↓Dev.frame_self]

theorem execTraversalStateRecompute_frame (s : State) :
    ∃ d, execTraversalStateRecompute s = .next { s with dev := d } ∧ Dev.Frame [.sec] s.dev d := ⟨_, rfl, traversalStateRecompute_frame _⟩

theorem Dev.controlWord_frame (d : Dev) (key : Nat) (v : BitVec 256) :
    Dev.Frame [.recd] d (Dev.controlWord d key v).1 := by
  unfold Dev.controlWord
  simp (disch := decide) only [↓(Dev.journal_frame _ _ _ _).iff, ↓Dev.frame_self, implies_true, and_self]

theorem Dev.act_frame {l : List Part} (s : Part.sub [.log, .dict, .palca, .power, .recd, .sec, .out] l = true)
    {effect : List Word → Dev → Dev × Option Nat} (h : ∀ ws e, Dev.Frame l e (effect ws e).1) (d : Dev) (sub kind : Nat)
    (signatureOk : Bool) : Dev.Frame l d (Dev.act d sub kind signatureOk effect) := by
  have mono : ∀ {m : List Part} {a b : Dev}, Part.sub m [.log, .dict, .palca, .power, .recd, .sec, .out] = true →
      Dev.Frame m a b → Dev.Frame l a b := fun hm k => (k.mono hm).mono s
  unfold Dev.act
  split
  · exact Dev.Frame.refl _
  · dsimp only
    split
    · exact Dev.Frame.refl _
    · have e1 : Dev.Frame l d { d with palca := { d.palca with transfers := d.palca.transfers.filter (fun t => !(t.idx == 0xA000 && t.sub == sub)) } } :=
        mono (m := [.palca]) (by decide) ((Dev.frame_palca (by decide)).2 (Dev.Frame.refl _))
      split
      · exact (e1.trans (mono (by decide) (Dev.raiseIf_frame _ _ _ _ _))).trans (mono (by decide) (Dev.answerAct_frame _ _ _ _))
      · exact ((e1.trans (mono (m := [.sec]) (by decide) ((Dev.frame_sec (by decide)).2 (Dev.Frame.refl _)))).trans (h _ _)).trans
          (mono (by decide) (Dev.answerAct_frame _ _ _ _))

theorem commissioningAct_frame (signatureOk : Bool) (d : Dev) :
    Dev.Frame [.log, .dict, .palca, .power, .recd, .sec, .out] d (commissioningAct signatureOk d) := by
  unfold commissioningAct
  repeat' (first
    | (refine Dev.act_frame (by decide) ?_ _ _ _ _)
    | (simp (disch := decide) only [↓(Dev.controlWord_frame _ _ _).iff, ↓(Dev.modSec_frame _ _).iff, ↓Dev.frame_self,
      implies_true])
    | (with_reducible refine And.intro ?_ ?_)
    | (with_reducible intro _) | split)

theorem execCommissioningAct_frame (signatureOk : Bool) (s : State) :
    ∃ d, execCommissioningAct signatureOk s = .next { s with dev := d } ∧ Dev.Frame [.log, .dict, .palca, .power,
      .recd, .sec, .out] s.dev d := ⟨_, rfl, commissioningAct_frame _ _⟩

theorem partnerBindingAct_frame (signatureOk : Bool) (d : Dev) :
    Dev.Frame [.log, .dict, .palca, .power, .recd, .sec, .out] d (partnerBindingAct signatureOk d) := by
  unfold partnerBindingAct
  repeat' (first
    | (refine Dev.act_frame (by decide) ?_ _ _ _ _)
    | (simp (disch := decide) only [↓(Dev.controlWord_frame _ _ _).iff, ↓(Dev.modSec_frame _ _).iff, ↓Dev.frame_self,
      implies_true])
    | (with_reducible refine And.intro ?_ ?_)
    | (with_reducible intro _) | split)

theorem execPartnerBindingAct_frame (signatureOk : Bool) (s : State) :
    ∃ d, execPartnerBindingAct signatureOk s = .next { s with dev := d } ∧ Dev.Frame [.log, .dict, .palca, .power,
      .recd, .sec, .out] s.dev d := ⟨_, rfl, partnerBindingAct_frame _ _⟩

theorem keyRevocationAct_frame (signatureOk : Bool) (d : Dev) :
    Dev.Frame [.log, .dict, .palca, .power, .recd, .sec, .out] d (keyRevocationAct signatureOk d) := by
  unfold keyRevocationAct
  repeat' (first
    | (refine Dev.act_frame (by decide) ?_ _ _ _ _)
    | (simp (disch := decide) only [↓(Dev.modSec_frame _ _).iff, ↓Dev.frame_self, implies_true])
    | (with_reducible refine And.intro ?_ ?_)
    | (with_reducible intro _) | split)

theorem execKeyRevocationAct_frame (signatureOk : Bool) (s : State) :
    ∃ d, execKeyRevocationAct signatureOk s = .next { s with dev := d } ∧ Dev.Frame [.log, .dict, .palca, .power,
      .recd, .sec, .out] s.dev d := ⟨_, rfl, keyRevocationAct_frame _ _⟩

theorem debugUnlockToken_frame (signatureOk : Bool) (d : Dev) :
    Dev.Frame [.log, .dict, .palca, .power, .recd, .sec, .out] d (debugUnlockToken signatureOk d) := by
  unfold debugUnlockToken
  repeat' (first
    | (refine Dev.act_frame (by decide) ?_ _ _ _ _)
    | (simp (disch := decide) only [↓(Dev.modSec_frame _ _).iff, ↓(Dev.raise_frame _ _ _ _).iff, ↓Dev.frame_self,
      implies_true])
    | (with_reducible refine And.intro ?_ ?_)
    | (with_reducible intro _) | split)

theorem execDebugUnlockToken_frame (signatureOk : Bool) (s : State) :
    ∃ d, execDebugUnlockToken signatureOk s = .next { s with dev := d } ∧ Dev.Frame [.log, .dict, .palca, .power,
      .recd, .sec, .out] s.dev d := ⟨_, rfl, debugUnlockToken_frame _ _⟩

theorem otpProgram_frame (slot : Nat) (key : List Byte) (d : Dev) :
    Dev.Frame [.sec] d (otpProgram slot key d) := by
  unfold otpProgram
  simp (disch := decide) only [↓(Dev.modSec_frame _ _).iff, ↓Dev.frame_ite, ↓Dev.frame_self, implies_true, and_self]

theorem execOtpProgram_frame (slot : Fin 4) (key : List Byte) (s : State) :
    ∃ d, execOtpProgram slot key s = .next { s with dev := d } ∧ Dev.Frame [.sec] s.dev d := ⟨_, rfl, otpProgram_frame _ _ _⟩

theorem otpClose_frame (d : Dev) :
    Dev.Frame [.sec] d (otpClose d) := by
  unfold otpClose
  simp (disch := decide) only [↓(Dev.modSec_frame _ _).iff, ↓Dev.frame_ite, ↓Dev.frame_self, implies_true, and_self]

theorem execOtpClose_frame (s : State) :
    ∃ d, execOtpClose s = .next { s with dev := d } ∧ Dev.Frame [.sec] s.dev d := ⟨_, rfl, otpClose_frame _⟩

theorem extest_frame (d : Dev) :
    Dev.Frame [.hull, .out] d (extest d) := by
  unfold extest
  simp (disch := decide) only [↓(Dev.huskStop_frame _).iff, ↓Dev.frame_ite, ↓Dev.frame_self, implies_true, and_self]

theorem execExtest_frame (_intest : Bool) (s : State) :
    ∃ d, execExtest _intest s = .next { s with dev := d } ∧ Dev.Frame [.hull, .out] s.dev d := ⟨_, rfl, extest_frame _⟩

theorem Dev.trimRing_frame (d : Dev) :
    Dev.Frame [.recd] d (Dev.trimRing d) := by
  unfold Dev.trimRing
  simp (disch := decide) only [↓(Dev.modRec_frame _ _).iff, ↓Dev.frame_self]

theorem Dev.recordIf_frame (d : Dev) (kind : Nat) (payload : List Byte) :
    Dev.Frame [.log, .dict, .power, .recd] d (Dev.recordIf d kind payload).1 := by
  unfold Dev.recordIf
  simp (disch := decide) only [↓(Dev.raise_frame _ _ _ _).iff, ↓(Dev.record_frame _ _ _).iff, ↓Dev.frame_ite1,
      ↓Dev.frame_self, implies_true, and_self]

theorem Dev.queueRefresh_frame (d : Dev) (b reason : Nat) (first : Bool) :
    Dev.Frame [.recd] d (Dev.queueRefresh d b reason first) := by
  unfold Dev.queueRefresh
  simp (disch := decide) only [↓(Dev.modRec_frame _ _).iff, ↓Dev.frame_ite, ↓Dev.frame_self, implies_true, and_self]

theorem Dev.relocate_frame (d : Dev) (b n : Nat) :
    Dev.Frame [.recd] d (Dev.relocate d b n) := by
  unfold Dev.relocate
  simp (disch := first | decide | (intros; (repeat' (first | (simp (disch := decide) only [↓(Dev.modBlock_frame _ _ _).iff, ↓(Dev.modRec_frame _ _).iff, ↓(Dev.swapBlocks_frame _ _ _).iff, ↓Dev.frame_ite, ↓Dev.frame_ite1, ↓Dev.frame_foldl, ↓Dev.frame_foldlPair, ↓Dev.frame_self, implies_true, and_self]) | (with_reducible refine And.intro ?_ ?_) | (with_reducible intro _) | split)))) only [↓(Dev.modBlock_frame _ _ _).iff, ↓(Dev.modRec_frame _ _).iff, ↓(Dev.swapBlocks_frame _ _ _).iff, ↓Dev.frame_ite, ↓Dev.frame_ite1, ↓Dev.frame_foldl, ↓Dev.frame_foldlPair, ↓Dev.frame_self, implies_true, and_self]

theorem Dev.takeSpare_frame (d : Dev) (b : Nat) :
    Dev.Frame [.log, .dict, .power, .recd] d (Dev.takeSpare d b).1 := by
  unfold Dev.takeSpare
  repeat' (first
    | (simp (disch := decide) only [↓(Dev.eraseBlock_frame _ _).iff, ↓(Dev.modRec_frame _ _).iff,
      ↓(Dev.raise_frame _ _ _ _).iff, ↓(Dev.setHead_frame _ _ _ _).iff, ↓(Dev.trimRing_frame _).iff, ↓Dev.frame_ite,
      ↓Dev.frame_ite1, ↓Dev.frame_self, implies_true, and_self])
    | (with_reducible refine And.intro ?_ ?_)
    | (with_reducible intro _)
    | split)

theorem Dev.retireBlock_frame (d : Dev) (b : Nat) :
    Dev.Frame [.log, .dict, .power, .recd] d (Dev.retireBlock d b).1 := by
  unfold Dev.retireBlock
  repeat' (first
    | (simp (disch := decide) only [↓(Dev.modBlock_frame _ _ _).iff, ↓(Dev.modRec_frame _ _).iff,
      ↓(Dev.raise_frame _ _ _ _).iff, ↓(Dev.relocate_frame _ _ _).iff, ↓(Dev.takeSpare_frame _ _).iff,
      ↓Dev.frame_ite, ↓Dev.frame_ite1, ↓Dev.frame_self, implies_true, and_self])
    | (with_reducible refine And.intro ?_ ?_)
    | (with_reducible intro _)
    | split)

theorem Dev.reservationLost_frame (d : Dev) (a : NandArea) :
    Dev.Frame [.log, .dict, .power, .recd, .sec] d (Dev.reservationLost d a) := by
  unfold Dev.reservationLost
  simp (disch := decide) only [↓(Dev.modSec_frame _ _).iff, ↓(Dev.raise_frame _ _ _ _).iff, ↓Dev.frame_ite,
      ↓Dev.frame_self, implies_true, and_self]

theorem Dev.zeroRing_frame (d : Dev) (pos : Nat) :
    Dev.Frame [.recd] d (Dev.zeroRing d pos) := by
  unfold Dev.zeroRing
  simp (disch := decide) only [↓(Dev.modRec_frame _ _).iff, ↓Dev.frame_self, implies_true, and_self]

theorem Dev.rewriteLater_frame (d : Dev) (p : NandPlace) :
    Dev.Frame [.recd] d (Dev.rewriteLater d p) := by
  unfold Dev.rewriteLater
  simp (disch := decide) only [↓(Dev.enqueueWork_frame _ _).iff, ↓Dev.frame_self, implies_true, and_self]

theorem Dev.missing_frame (d : Dev) (p : NandPlace) (i : Nat) (otherOk : Bool) :
    Dev.Frame [.log, .dict, .prog, .power, .recd] d (Dev.missing d p i otherOk) := by
  unfold Dev.missing
  repeat' (first
    | (simp (disch := decide) only [↓(Dev.raise_frame _ _ _ _).iff, ↓(Dev.rewriteLater_frame _ _).iff,
      ↓(Dev.spoilPage_frame _ _ _ _).iff, ↓(Dev.zeroRing_frame _ _).iff, ↓Dev.frame_prog, ↓Dev.frame_ite,
      ↓Dev.frame_ite1, ↓Dev.frame_self, implies_true, and_self])
    | (with_reducible refine And.intro ?_ ?_)
    | (with_reducible intro _)
    | split)

theorem Dev.countRead_frame (d : Dev) (b : Nat) :
    Dev.Frame [.recd] d (Dev.countRead d b) := by
  unfold Dev.countRead
  simp (disch := decide) only [↓(Dev.modBlock_frame _ _ _).iff, ↓(Dev.queueRefresh_frame _ _ _ _).iff,
      ↓Dev.frame_ite, ↓Dev.frame_self, implies_true, and_self]

theorem Dev.cwOutcome_frame (d : Dev) (p : NandPlace) (otherOk : Bool) (x : CwOutcome × Nat) :
    Dev.Frame [.log, .dict, .prog, .power, .recd] d (Dev.cwOutcome d p otherOk x) := by
  unfold Dev.cwOutcome
  repeat' (first
    | (simp (disch := decide) only [↓(Dev.missing_frame _ _ _ _).iff, ↓(Dev.queueRefresh_frame _ _ _ _).iff,
      ↓(Dev.raise_frame _ _ _ _).iff, ↓Dev.frame_ite, ↓Dev.frame_ite1, ↓Dev.frame_self, implies_true, and_self])
    | (with_reducible refine And.intro ?_ ?_)
    | (with_reducible intro _)
    | split)

theorem Dev.readDone_frame (d : Dev) (p : NandPlace) (l : List CwOutcome) (otherOk : Bool) :
    Dev.Frame [.log, .dict, .prog, .power, .recd] d (Dev.readDone d p l otherOk) := by
  unfold Dev.readDone
  simp (disch := first | decide | (intros; (repeat' (first | (simp (disch := decide) only [↓(Dev.countRead_frame _ _).iff, ↓(Dev.cwOutcome_frame _ _ _ _).iff, ↓Dev.frame_foldl, ↓Dev.frame_foldlPair, ↓Dev.frame_self, implies_true, and_self]) | (with_reducible refine And.intro ?_ ?_) | (with_reducible intro _) | split)))) only [↓(Dev.countRead_frame _ _).iff, ↓(Dev.cwOutcome_frame _ _ _ _).iff, ↓Dev.frame_foldl, ↓Dev.frame_foldlPair, ↓Dev.frame_self, implies_true, and_self]

theorem Dev.landEntry_frame (d : Dev) (a : NandArea) (copy ticket : Nat) (p : NandPlace) :
    Dev.Frame [.log, .dict, .power, .recd, .sec] d (Dev.landEntry d a copy ticket p) := by
  unfold Dev.landEntry
  repeat' (first
    | (simp (disch := first | decide | (intros; (repeat' (first | (simp (disch := decide) only [↓(Dev.modJournal_frame _ _ _).iff, ↓(Dev.modRec_frame _ _).iff, ↓(Dev.reservationDone_frame _ _).iff, ↓Dev.frame_ite, ↓Dev.frame_ite1, ↓Dev.frame_foldl, ↓Dev.frame_foldlPair, ↓Dev.frame_self, implies_true, and_self]) | (with_reducible refine And.intro ?_ ?_) | (with_reducible intro _) | split)))) only [↓(Dev.modJournal_frame _ _ _).iff, ↓(Dev.modRec_frame _ _).iff, ↓(Dev.reservationDone_frame _ _).iff, ↓Dev.frame_ite, ↓Dev.frame_ite1, ↓Dev.frame_foldl, ↓Dev.frame_foldlPair, ↓Dev.frame_self, implies_true, and_self])
    | (with_reducible refine And.intro ?_ ?_)
    | (with_reducible intro _)
    | split)

theorem Dev.landProgram_frame (d : Dev) (w : NandWork) :
    Dev.Frame [.log, .dict, .power, .recd, .sec] d (Dev.landProgram d w) := by
  unfold Dev.landProgram
  repeat' (first
    | (simp (disch := decide) only [↓(Dev.landEntry_frame _ _ _ _ _).iff, ↓(Dev.modRec_frame _ _).iff,
      ↓(Dev.programPage_frame _ _ _).iff, ↓Dev.frame_ite, ↓Dev.frame_ite1, ↓Dev.frame_self, implies_true, and_self])
    | (with_reducible refine And.intro ?_ ?_)
    | (with_reducible intro _)
    | split)

theorem Dev.verified_frame (d : Dev) (w : NandWork) :
    Dev.Frame [.log, .dict, .palca, .power, .recd, .sec, .out] d (Dev.verified d w) := by
  unfold Dev.verified
  simp (disch := decide) only [↓(Dev.landProgram_frame _ _).iff, ↓(Dev.programLater_frame _ _ _ _ _ _).iff,
      ↓(Dev.releaseHeld_frame _ _).iff, ↓Dev.frame_ite, ↓Dev.frame_ite1, ↓Dev.frame_self, implies_true, and_self]

theorem Dev.failWork_frame (d : Dev) (w : NandWork) :
    Dev.Frame [.log, .dict, .power, .recd, .sec] d (Dev.failWork d w) := by
  unfold Dev.failWork
  repeat' (first
    | (simp (disch := decide) only [↓(Dev.enqueueWork_frame _ _).iff, ↓(Dev.reservationLost_frame _ _).iff,
      ↓(Dev.retireBlock_frame _ _).iff, ↓Dev.frame_self, implies_true, and_self])
    | (with_reducible refine And.intro ?_ ?_)
    | (with_reducible intro _)
    | split)

theorem Dev.endWork_frame (d : Dev) (w : NandWork) (o' : NandOutcome) :
    Dev.Frame [.log, .dict, .prog, .palca, .power, .recd, .sec, .out] d (Dev.endWork d w o') := by
  unfold Dev.endWork
  repeat' (first
    | (simp (disch := first | decide | (intros; (repeat' (first | (simp (disch := decide) only [↓(Dev.countRead_frame _ _).iff, ↓(Dev.cwOutcome_frame _ _ _ _).iff, ↓(Dev.eraseBlock_frame _ _).iff, ↓(Dev.failWork_frame _ _).iff, ↓(Dev.modRec_frame _ _).iff, ↓(Dev.programPage_frame _ _ _).iff, ↓(Dev.verified_frame _ _).iff, ↓Dev.frame_ite, ↓Dev.frame_ite1, ↓Dev.frame_foldl, ↓Dev.frame_foldlPair, ↓Dev.frame_self, implies_true, and_self]) | (with_reducible refine And.intro ?_ ?_) | (with_reducible intro _) | split)))) only [↓(Dev.countRead_frame _ _).iff, ↓(Dev.cwOutcome_frame _ _ _ _).iff, ↓(Dev.eraseBlock_frame _ _).iff, ↓(Dev.failWork_frame _ _).iff, ↓(Dev.modRec_frame _ _).iff, ↓(Dev.programPage_frame _ _ _).iff, ↓(Dev.verified_frame _ _).iff, ↓Dev.frame_ite, ↓Dev.frame_ite1, ↓Dev.frame_foldl, ↓Dev.frame_foldlPair, ↓Dev.frame_self, implies_true, and_self])
    | (with_reducible refine And.intro ?_ ?_)
    | (with_reducible intro _)
    | split)

theorem nandOperationComplete_frame (p : NandPlace) (o' : NandOutcome) (otherOk : Bool) (d : Dev) :
    Dev.Frame [.log, .dict, .prog, .palca, .power, .recd, .sec, .out] d (nandOperationComplete p o' otherOk d) := by
  unfold nandOperationComplete
  repeat' (first
    | (simp (disch := decide) only [↓(Dev.endWork_frame _ _ _).iff, ↓(Dev.readDone_frame _ _ _ _).iff,
      ↓(Dev.serveNand_frame _).iff, ↓Dev.frame_ite, ↓Dev.frame_ite1, ↓Dev.frame_self, implies_true, and_self])
    | (with_reducible refine And.intro ?_ ?_)
    | (with_reducible intro _)
    | split)

theorem execNandOperationComplete_frame (place : NandPlace) (outcome : NandOutcome) (otherCopyOk : Bool) (s : State) :
    ∃ d, execNandOperationComplete place outcome otherCopyOk s = .next { s with dev := d } ∧ Dev.Frame [.log, .dict,
      .prog, .palca, .power, .recd, .sec, .out] s.dev d := ⟨_, rfl, nandOperationComplete_frame _ _ _ _⟩

theorem Dev.readTimeout_frame (d : Dev) (p : NandPlace) (otherOk : Bool) :
    Dev.Frame [.log, .dict, .prog, .power, .recd] d (Dev.readTimeout d p otherOk) := by
  unfold Dev.readTimeout
  simp (disch := decide) only [↓(Dev.modRec_frame _ _).iff, ↓(Dev.readDone_frame _ _ _ _).iff, ↓Dev.frame_ite,
      ↓Dev.frame_ite1, ↓Dev.frame_self, implies_true, and_self]

theorem nandTimeout_frame (p : NandPlace) (otherOk : Bool) (d : Dev) :
    Dev.Frame [.log, .dict, .prog, .power, .recd, .sec] d (nandTimeout p otherOk d) := by
  unfold nandTimeout
  repeat' (first
    | (simp (disch := decide) only [↓(Dev.failWork_frame _ _).iff, ↓(Dev.modRec_frame _ _).iff,
      ↓(Dev.raise_frame _ _ _ _).iff, ↓(Dev.readTimeout_frame _ _ _).iff, ↓(Dev.serveNand_frame _).iff,
      ↓Dev.frame_ite, ↓Dev.frame_ite1, ↓Dev.frame_self, implies_true, and_self])
    | (with_reducible refine And.intro ?_ ?_)
    | (with_reducible intro _)
    | split)

theorem execNandTimeout_frame (place : NandPlace) (otherCopyOk : Bool) (s : State) :
    ∃ d, execNandTimeout place otherCopyOk s = .next { s with dev := d } ∧ Dev.Frame [.log, .dict, .prog, .power,
      .recd, .sec] s.dev d := ⟨_, rfl, nandTimeout_frame _ _ _⟩

theorem Dev.eraseAgain_frame (d : Dev) :
    Dev.Frame [.recd] d (Dev.eraseAgain d) := by
  unfold Dev.eraseAgain
  simp (disch := first | decide | (intros; (repeat' (first | (simp (disch := decide) only [↓(Dev.eraseBlock_frame _ _).iff, ↓(Dev.modRec_frame _ _).iff, ↓Dev.frame_foldl, ↓Dev.frame_foldlPair, ↓Dev.frame_self, implies_true, and_self]) | (with_reducible refine And.intro ?_ ?_) | (with_reducible intro _) | split)))) only [↓(Dev.eraseBlock_frame _ _).iff, ↓(Dev.modRec_frame _ _).iff, ↓Dev.frame_foldl, ↓Dev.frame_foldlPair, ↓Dev.frame_self, implies_true, and_self]

theorem Dev.moveBlock_frame (d : Dev) (b n : Nat) :
    Dev.Frame [.recd] d (Dev.moveBlock d b n) := by
  unfold Dev.moveBlock
  simp (disch := decide) only [↓(Dev.eraseLater_frame _ _ _ _ _).iff, ↓(Dev.relocate_frame _ _ _).iff,
      ↓(Dev.serveNand_frame _).iff, ↓Dev.frame_self]

theorem blockRefresh_frame (b : Nat) (d : Dev) :
    Dev.Frame [.log, .dict, .power, .recd] d (blockRefresh b d) := by
  unfold blockRefresh
  repeat' (first
    | (simp (disch := decide) only [↓(Dev.modRec_frame _ _).iff, ↓(Dev.moveBlock_frame _ _ _).iff,
      ↓(Dev.raise_frame _ _ _ _).iff, ↓(Dev.serveNand_frame _).iff, ↓Dev.frame_self, implies_true, and_self])
    | (with_reducible refine And.intro ?_ ?_)
    | (with_reducible intro _)
    | split)

theorem execBlockRefresh_frame (block : Nat) (s : State) :
    ∃ d, execBlockRefresh block s = .next { s with dev := d } ∧ Dev.Frame [.log, .dict, .power, .recd] s.dev d := ⟨_, rfl, blockRefresh_frame _ _⟩

theorem Dev.journalReads_frame (d : Dev) :
    Dev.Frame [.recd] d (Dev.journalReads d) := by
  unfold Dev.journalReads
  simp (disch := decide) only [↓(Dev.journal_frame _ _ _ _).iff, ↓(Dev.modRec_frame _ _).iff, ↓Dev.frame_self]

theorem readCountJournal_frame (d : Dev) :
    Dev.Frame [.recd] d (readCountJournal d) := by
  unfold readCountJournal
  simp (disch := decide) only [↓(Dev.journalReads_frame _).iff, ↓Dev.frame_ite, ↓Dev.frame_self, implies_true,
      and_self]

theorem execReadCountJournal_frame (s : State) :
    ∃ d, execReadCountJournal s = .next { s with dev := d } ∧ Dev.Frame [.recd] s.dev d := ⟨_, rfl, readCountJournal_frame _⟩

theorem retentionScan_frame (aged soft : List Nat) (d : Dev) :
    Dev.Frame [.log, .dict, .power, .recd] d (retentionScan aged soft d) := by
  unfold retentionScan
  simp (disch := first | decide | (intros; (repeat' (first | (simp (disch := decide) only [↓(Dev.modRec_frame _ _).iff, ↓(Dev.queueRefresh_frame _ _ _ _).iff, ↓(Dev.raise_frame _ _ _ _).iff, ↓Dev.frame_ite, ↓Dev.frame_ite1, ↓Dev.frame_foldl, ↓Dev.frame_foldlPair, ↓Dev.frame_self, implies_true, and_self]) | (with_reducible refine And.intro ?_ ?_) | (with_reducible intro _) | split)))) only [↓(Dev.modRec_frame _ _).iff, ↓(Dev.queueRefresh_frame _ _ _ _).iff, ↓(Dev.raise_frame _ _ _ _).iff, ↓Dev.frame_ite, ↓Dev.frame_ite1, ↓Dev.frame_foldl, ↓Dev.frame_foldlPair, ↓Dev.frame_self, implies_true, and_self]

theorem execRetentionScan_frame (aged soft : List Nat) (s : State) :
    ∃ d, execRetentionScan aged soft s = .next { s with dev := d } ∧ Dev.Frame [.log, .dict, .power, .recd] s.dev d := ⟨_, rfl, retentionScan_frame _ _ _⟩

theorem wearLevelling_frame (d : Dev) :
    Dev.Frame [.recd] d (wearLevelling d) := by
  unfold wearLevelling
  repeat' (first
    | (simp (disch := first | decide | (intros; (repeat' (first | (simp (disch := decide) only [↓(Dev.modRec_frame _ _).iff, ↓(Dev.moveBlock_frame _ _ _).iff, ↓Dev.frame_ite, ↓Dev.frame_ite1, ↓Dev.frame_foldl, ↓Dev.frame_foldlPair, ↓Dev.frame_self, implies_true, and_self]) | (with_reducible refine And.intro ?_ ?_) | (with_reducible intro _) | split)))) only [↓(Dev.modRec_frame _ _).iff, ↓(Dev.moveBlock_frame _ _ _).iff, ↓Dev.frame_ite, ↓Dev.frame_ite1, ↓Dev.frame_foldl, ↓Dev.frame_foldlPair, ↓Dev.frame_self, implies_true, and_self])
    | (with_reducible refine And.intro ?_ ?_)
    | (with_reducible intro _)
    | split)

theorem execWearLevelling_frame (s : State) :
    ∃ d, execWearLevelling s = .next { s with dev := d } ∧ Dev.Frame [.recd] s.dev d := ⟨_, rfl, wearLevelling_frame _⟩

theorem firmwareCopyRepair_frame (stage : Nat) (d : Dev) :
    Dev.Frame [.start] d (firmwareCopyRepair stage d) := by
  unfold firmwareCopyRepair
  simp (disch := decide) only [↓Dev.frame_start, ↓Dev.frame_ite, ↓Dev.frame_self, implies_true, and_self]

theorem execFirmwareCopyRepair_frame (stage : Fin 8) (s : State) :
    ∃ d, execFirmwareCopyRepair stage s = .next { s with dev := d } ∧ Dev.Frame [.start] s.dev d := ⟨_, rfl, firmwareCopyRepair_frame _ _⟩

theorem Dev.endSegment_frame (d : Dev) (unclean : Bool) :
    Dev.Frame [.recd] d (Dev.endSegment d unclean) := by
  unfold Dev.endSegment
  simp (disch := decide) only [↓(Dev.modRec_frame _ _).iff, ↓Dev.frame_self]

theorem segmentEnd_frame (d : Dev) :
    Dev.Frame [.recd] d (segmentEnd d) := by
  unfold segmentEnd
  simp (disch := decide) only [↓(Dev.endSegment_frame _ _).iff, ↓Dev.frame_ite, ↓Dev.frame_self, implies_true,
      and_self]

theorem execSegmentEnd_frame (s : State) :
    ∃ d, execSegmentEnd s = .next { s with dev := d } ∧ Dev.Frame [.recd] s.dev d := ⟨_, rfl, segmentEnd_frame _⟩

theorem Dev.signSeal_frame (d : Dev) (body : List Byte) :
    Dev.Frame [.log, .dict, .power, .recd, .sec] d (Dev.signSeal d body).1 := by
  unfold Dev.signSeal
  repeat' (first
    | (simp (disch := decide) only [↓(Dev.useLeaf_frame _ _).iff, ↓Dev.frame_self, implies_true, and_self])
    | (with_reducible refine And.intro ?_ ?_)
    | (with_reducible intro _)
    | split)

theorem sealSegment_frame (d : Dev) :
    Dev.Frame [.log, .dict, .power, .recd, .sec] d (sealSegment d) := by
  unfold sealSegment
  repeat' (first
    | (simp (disch := decide) only [↓(Dev.modRec_frame _ _).iff, ↓(Dev.resumeAttestation_frame _).iff,
      ↓(Dev.serveNand_frame _).iff, ↓(Dev.signSeal_frame _ _).iff, ↓(Dev.trimRing_frame _).iff, ↓Dev.frame_self,
      implies_true, and_self])
    | (with_reducible refine And.intro ?_ ?_)
    | (with_reducible intro _)
    | split)

theorem execSeal_frame (s : State) :
    ∃ d, execSeal s = .next { s with dev := d } ∧ Dev.Frame [.log, .dict, .power, .recd, .sec] s.dev d := ⟨_, rfl, sealSegment_frame _⟩

theorem Dev.stopNand_frame (d : Dev) (flush : Bool) :
    Dev.Frame [.log, .dict, .power, .recd, .sec] d (Dev.stopNand d flush) := by
  unfold Dev.stopNand
  simp (disch := first | decide | (intros; (repeat' (first | (simp (disch := decide) only [↓(Dev.cutPage_frame _ _).iff, ↓(Dev.landProgram_frame _ _).iff, ↓(Dev.modRec_frame _ _).iff, ↓Dev.frame_ite, ↓Dev.frame_ite1, ↓Dev.frame_foldl, ↓Dev.frame_foldlPair, ↓Dev.frame_self, implies_true, and_self]) | (with_reducible refine And.intro ?_ ?_) | (with_reducible intro _) | split)))) only [↓(Dev.cutPage_frame _ _).iff, ↓(Dev.landProgram_frame _ _).iff, ↓(Dev.modRec_frame _ _).iff, ↓Dev.frame_ite, ↓Dev.frame_ite1, ↓Dev.frame_foldl, ↓Dev.frame_foldlPair, ↓Dev.frame_self, implies_true, and_self]

theorem Dev.powerDown_frame (d : Dev) (st : PowerState) (clean flush : Bool) :
    Dev.Frame [.time, .log, .dict, .cyc, .intake, .pods, .movers, .mem, .ddr, .prog, .sched, .sync, .cover, .fus,
      .kv, .solvers, .hull, .twin, .palca, .power, .start, .recd, .sec, .edge,
      .out] d (Dev.powerDown d st clean flush) := by
  have h := ((Dev.huskStop_frame d).mono (m := [.hull, .log, .dict, .prog, .palca, .power, .recd, .sec,
      .out]) (by decide)).trans
    ((Dev.stopNand_frame d.huskStop flush).mono (by decide))
  have hc : (d.huskStop.stopNand flush).code = d.code := h .code (by decide)
  have hf : (d.huskStop.stopNand flush).free = d.free := h .free (by decide)
  intro p hp
  cases p <;> first | exact absurd (by decide) hp | exact hc | exact hf

theorem Dev.resetDevice_frame (d : Dev) (kind : Nat) (causes : List Nat) (due : Bool) :
    Dev.Frame [.time, .log, .dict, .cyc, .intake, .pods, .movers, .mem, .ddr, .prog, .sched, .sync, .cover, .fus,
      .kv, .solvers, .hull, .twin, .palca, .power, .start, .recd, .sec, .edge,
      .out] d (Dev.resetDevice d kind causes due) := by
  unfold Dev.resetDevice
  simp (disch := decide) only [↓(Dev.powerDown_frame _ _ _ _).iff, ↓Dev.frame_power_start, ↓Dev.frame_self]

theorem Dev.toHusk_frame (d : Dev) (causes : List Nat) (clean flush : Bool) :
    Dev.Frame [.time, .log, .dict, .cyc, .intake, .pods, .movers, .mem, .ddr, .prog, .sched, .sync, .cover, .fus,
      .kv, .solvers, .hull, .twin, .palca, .power, .start, .recd, .sec, .edge,
      .out] d (Dev.toHusk d causes clean flush) := by
  unfold Dev.toHusk
  simp (disch := decide) only [↓(Dev.powerDown_frame _ _ _ _).iff, ↓Dev.frame_power, ↓Dev.frame_self]

theorem Dev.modPower_frame (d : Dev) (f : Power → Power) :
    Dev.Frame [.power] d (Dev.modPower d f) := by
  unfold Dev.modPower
  simp (disch := decide) only [↓Dev.frame_power, ↓Dev.frame_self]

theorem budgetEpoch_frame (d : Dev) :
    Dev.Frame [.log, .dict, .pods, .hull, .twin, .palca, .power, .recd, .out] d (budgetEpoch d) := by
  unfold budgetEpoch
  split
  · exact Dev.Frame.refl _
  · extract_lets d0 av reqs g grant sTotal short d1 src d2 d3 d4 e
    have h4 : Dev.Frame [.log, .dict, .pods, .hull, .twin, .palca, .power, .recd, .out] d d4 := by
      simp (disch := decide) only [d4, d3, d2, d1, d0, ↓(Dev.raise_frame _ _ _ _).iff, ↓(Dev.count_frame _ _ _).iff,
        ↓Dev.frame_pods, ↓(Dev.modPower_frame _ _).iff, ↓Dev.frame_ite, ↓Dev.frame_self, implies_true, and_self]
    have he : Dev.Frame [.log, .dict, .pods, .hull, .twin, .palca, .power, .recd, .out] d e := by
      simp (disch := decide) only [e, ↓(Dev.raise_frame _ _ _ _).iff, ↓(Dev.modPower_frame _ _).iff, h4]
    refine Dev.frame_ite.2 ⟨fun _ => ?_, fun _ => ?_⟩
    · refine Dev.frame_ite.2 ⟨fun _ => ?_, fun _ => he⟩
      exact ((Dev.protect_frame _ _ _ _).iff (by decide) _).2 he
    · refine Dev.frame_ite.2 ⟨fun _ => h4, fun _ => ?_⟩
      cases d4.power.floorOk with
      | none => exact ((Dev.modPower_frame _ _).iff (by decide) _).2 h4
      | some t =>
        refine Dev.frame_ite.2 ⟨fun _ => ?_, fun _ => h4⟩
        exact ((Dev.demand_frame _ _ _ _).iff (by decide) _).2 (((Dev.modPower_frame _ _).iff (by decide) _).2 h4)

theorem execBudgetEpoch_frame (s : State) :
    ∃ d, execBudgetEpoch s = .next { s with dev := d } ∧ Dev.Frame [.log, .dict, .pods, .hull, .twin, .palca, .power,
      .recd, .out] s.dev d := ⟨_, rfl, budgetEpoch_frame _⟩

theorem droop_frame (u : Nat) (d : Dev) :
    Dev.Frame [.log, .dict, .power, .recd] d (droop u d) := by
  unfold droop
  simp (disch := decide) only [↓(Dev.modPower_frame _ _).iff, ↓(Dev.raiseIf_frame _ _ _ _ _).iff, ↓Dev.frame_ite,
      ↓Dev.frame_self, implies_true, and_self]

theorem execDroop_frame (u : Fin 30) (s : State) :
    ∃ d, execDroop u s = .next { s with dev := d } ∧ Dev.Frame [.log, .dict, .power, .recd] s.dev d := ⟨_, rfl, droop_frame _ _⟩

theorem droopRecovery_frame (u : Nat) (d : Dev) :
    Dev.Frame [.power] d (droopRecovery u d) := by
  unfold droopRecovery
  simp (disch := decide) only [↓(Dev.modPower_frame _ _).iff, ↓Dev.frame_self]

theorem execDroopRecovery_frame (u : Fin 30) (s : State) :
    ∃ d, execDroopRecovery u s = .next { s with dev := d } ∧ Dev.Frame [.power] s.dev d := ⟨_, rfl, droopRecovery_frame _ _⟩

theorem temperatureRead_frame (core iod : Int) (d : Dev) :
    Dev.Frame [.time, .log, .dict, .cyc, .intake, .pods, .movers, .mem, .ddr, .prog, .sched, .sync, .cover, .fus,
      .kv, .solvers, .hull, .twin, .palca, .power, .start, .recd, .sec, .edge, .out] d (temperatureRead core iod d) := by
  unfold temperatureRead
  simp (disch := decide) only [↓(Dev.modPower_frame _ _).iff, ↓(Dev.raiseIf_frame _ _ _ _ _).iff,
      ↓(Dev.toHusk_frame _ _ _ _).iff, ↓Dev.frame_ite, ↓Dev.frame_self, implies_true, and_self]

theorem execTemperatureRead_frame (core iod : Int) (s : State) :
    ∃ d, execTemperatureRead core iod s = .next { s with dev := d } ∧ Dev.Frame [.time, .log, .dict, .cyc, .intake,
      .pods, .movers, .mem, .ddr, .prog, .sched, .sync, .cover, .fus, .kv, .solvers, .hull, .twin, .palca, .power,
      .start, .recd, .sec, .edge, .out] s.dev d := ⟨_, rfl, temperatureRead_frame _ _ _⟩

theorem avsVoltageStep_frame (target : Nat) (d : Dev) :
    Dev.Frame [.power, .out] d (avsVoltageStep target d) := by
  unfold avsVoltageStep
  simp (disch := decide) only [↓(Dev.emit_frame _ _ _ _).iff, ↓(Dev.modPower_frame _ _).iff, ↓Dev.frame_ite,
      ↓Dev.frame_self, implies_true, and_self]

theorem execAvsVoltageStep_frame (target : Nat) (s : State) :
    ∃ d, execAvsVoltageStep target s = .next { s with dev := d } ∧ Dev.Frame [.power, .out] s.dev d := ⟨_, rfl, avsVoltageStep_frame _ _⟩

theorem Dev.avsRail_frame (d : Dev) (rail : Nat) (ok : Bool) :
    Dev.Frame [.log, .dict, .power, .recd] d (Dev.avsRail d rail ok) := by
  unfold Dev.avsRail
  simp (disch := decide) only [↓(Dev.modPower_frame _ _).iff, ↓(Dev.raise_frame _ _ _ _).iff, ↓Dev.frame_ite,
      ↓Dev.frame_self, implies_true, and_self]

theorem avsReadback_frame (answers : List Bool) (d : Dev) :
    Dev.Frame [.log, .dict, .power, .recd] d (avsReadback answers d) := by
  unfold avsReadback
  repeat' (first
    | (simp (disch := first | decide | (intros; (repeat' (first | (simp (disch := decide) only [↓(Dev.avsRail_frame _ _ _).iff, ↓(Dev.modPower_frame _ _).iff, ↓Dev.frame_ite, ↓Dev.frame_ite1, ↓Dev.frame_foldl, ↓Dev.frame_foldlPair, ↓Dev.frame_self, implies_true, and_self]) | (with_reducible refine And.intro ?_ ?_) | (with_reducible intro _) | split)))) only [↓(Dev.avsRail_frame _ _ _).iff, ↓(Dev.modPower_frame _ _).iff, ↓Dev.frame_ite, ↓Dev.frame_ite1, ↓Dev.frame_foldl, ↓Dev.frame_foldlPair, ↓Dev.frame_self, implies_true, and_self])
    | (with_reducible refine And.intro ?_ ?_)
    | (with_reducible intro _)
    | split)

theorem execAvsReadback_frame (answers : List Bool) (s : State) :
    ∃ d, execAvsReadback answers s = .next { s with dev := d } ∧ Dev.Frame [.log, .dict, .power, .recd] s.dev d := ⟨_, rfl, avsReadback_frame _ _⟩

theorem railOutOfRange_frame (rail : Nat) (d : Dev) :
    Dev.Frame [.log, .dict, .hull, .twin, .palca, .power, .recd, .out] d (railOutOfRange rail d) := by
  unfold railOutOfRange
  simp (disch := decide) only [↓(Dev.protect_frame _ _ _ _).iff, ↓(Dev.raise_frame _ _ _ _).iff, ↓Dev.frame_ite,
      ↓Dev.frame_self, implies_true, and_self]

theorem execRailOutOfRange_frame (rail : Fin 6) (s : State) :
    ∃ d, execRailOutOfRange rail s = .next { s with dev := d } ∧ Dev.Frame [.log, .dict, .hull, .twin, .palca,
      .power, .recd, .out] s.dev d := ⟨_, rfl, railOutOfRange_frame _ _⟩

theorem huskBrownout_frame (d : Dev) :
    Dev.Frame [.time, .log, .dict, .cyc, .intake, .pods, .movers, .mem, .ddr, .prog, .sched, .sync, .cover, .fus,
      .kv, .solvers, .hull, .twin, .palca, .power, .start, .recd, .sec, .edge, .out] d (huskBrownout d) := by
  unfold huskBrownout
  simp (disch := decide) only [↓(Dev.modPower_frame _ _).iff, ↓(Dev.resetDevice_frame _ _ _ _).iff, ↓Dev.frame_ite,
      ↓Dev.frame_self, implies_true, and_self]

theorem execHuskBrownout_frame (s : State) :
    ∃ d, execHuskBrownout s = .next { s with dev := d } ∧ Dev.Frame [.time, .log, .dict, .cyc, .intake, .pods,
      .movers, .mem, .ddr, .prog, .sched, .sync, .cover, .fus, .kv, .solvers, .hull, .twin, .palca, .power, .start,
      .recd, .sec, .edge, .out] s.dev d := ⟨_, rfl, huskBrownout_frame _⟩

theorem crystalStable_frame (d : Dev) :
    Dev.Frame [.power] d (crystalStable d) := by
  unfold crystalStable
  simp (disch := decide) only [↓(Dev.modPower_frame _ _).iff, ↓Dev.frame_ite, ↓Dev.frame_self, implies_true, and_self]

theorem execCrystalStable_frame (s : State) :
    ∃ d, execCrystalStable s = .next { s with dev := d } ∧ Dev.Frame [.power] s.dev d := ⟨_, rfl, crystalStable_frame _⟩

theorem crystalFault_frame (d : Dev) :
    Dev.Frame [.log, .dict, .hull, .twin, .palca, .power, .recd, .out] d (crystalFault d) := by
  unfold crystalFault
  simp (disch := decide) only [↓(Dev.modPower_frame _ _).iff, ↓(Dev.refFault_frame _ _ _).iff, ↓Dev.frame_ite,
      ↓Dev.frame_self, implies_true, and_self]

theorem execCrystalFault_frame (s : State) :
    ∃ d, execCrystalFault s = .next { s with dev := d } ∧ Dev.Frame [.log, .dict, .hull, .twin, .palca, .power,
      .recd, .out] s.dev d := ⟨_, rfl, crystalFault_frame _⟩

end Sys2Proof.Machine
end

