-- ==== Sys2Proof/Laws/FramesData.lean ====
section
/-! SUPPORT. Frames: what attention, the grid, tracks, solvers, Pip steps, streams and packages change; one lemma for each operation and each command. -/

set_option linter.unusedSimpArgs false
set_option linter.unusedTactic false
set_option linter.unreachableTactic false

namespace Sys2Proof.Machine

open Sys2Proof

theorem Dev.modKv_frame (d : Dev) (f : KvCache → KvCache) :
    Dev.Frame [.kv] d (Dev.modKv d f) := by
  unfold Dev.modKv
  simp (disch := decide) only [↓Dev.frame_kv, ↓Dev.frame_self]

theorem Dev.modRecord_frame (d : Dev) (g k : Nat) (f : KvRecord → KvRecord) :
    Dev.Frame [.kv] d (Dev.modRecord d g k f) := by
  unfold Dev.modRecord
  simp (disch := decide) only [↓(Dev.modKv_frame _ _).iff, ↓Dev.frame_self]

theorem Dev.takeHot_frame (d : Dev) (s : Nat) :
    Dev.Frame [.kv] d (Dev.takeHot d s) := by
  unfold Dev.takeHot
  simp (disch := decide) only [↓(Dev.modKv_frame _ _).iff, ↓Dev.frame_self]

theorem Dev.takePool_frame (d : Dev) (s n : Nat) :
    Dev.Frame [.kv] d (Dev.takePool d s n) := by
  unfold Dev.takePool
  simp (disch := decide) only [↓(Dev.modKv_frame _ _).iff, ↓Dev.frame_self]

theorem Dev.freeHot_frame (d : Dev) (s : Nat) :
    Dev.Frame [.kv] d (Dev.freeHot d s) := by
  unfold Dev.freeHot
  simp (disch := decide) only [↓(Dev.modKv_frame _ _).iff, ↓Dev.frame_self]

theorem Dev.freePoolRun_frame (d : Dev) (s : Nat) :
    Dev.Frame [.kv] d (Dev.freePoolRun d s) := by
  unfold Dev.freePoolRun
  simp (disch := decide) only [↓(Dev.modKv_frame _ _).iff, ↓Dev.frame_self]

theorem Dev.retirePage_frame (d : Dev) (hot : Bool) (p : Nat) :
    Dev.Frame [.log, .dict, .kv, .power, .recd] d (Dev.retirePage d hot p) := by
  unfold Dev.retirePage
  simp (disch := decide) only [↓(Dev.modKv_frame _ _).iff, ↓(Dev.raise_frame _ _ _ _).iff, ↓Dev.frame_ite,
      ↓Dev.frame_self, implies_true, and_self]

theorem Dev.sweepRuns_frame (d : Dev) :
    Dev.Frame [.kv] d (Dev.sweepRuns d) := by
  unfold Dev.sweepRuns
  simp (disch := decide) only [↓(Dev.modKv_frame _ _).iff, ↓Dev.frame_self]

theorem Dev.retirePoisoned_frame (d : Dev) :
    Dev.Frame [.log, .dict, .kv, .power, .recd] d (Dev.retirePoisoned d) := by
  unfold Dev.retirePoisoned
  simp (disch := first | decide | (intros; (repeat' (first | (simp (disch := decide) only [↓(Dev.retirePage_frame _ _ _).iff, ↓(Dev.sweepRuns_frame _).iff, ↓Dev.frame_ite, ↓Dev.frame_ite1, ↓Dev.frame_foldl, ↓Dev.frame_foldlPair, ↓Dev.frame_self, implies_true, and_self]) | (with_reducible refine And.intro ?_ ?_) | (with_reducible intro _) | split)))) only [↓(Dev.retirePage_frame _ _ _).iff, ↓(Dev.sweepRuns_frame _).iff, ↓Dev.frame_ite, ↓Dev.frame_ite1, ↓Dev.frame_foldl, ↓Dev.frame_foldlPair, ↓Dev.frame_self, implies_true, and_self]

theorem Dev.evict_frame (d : Dev) (g c : Nat) :
    Dev.Frame [.log, .dict, .kv, .power, .recd] d (Dev.evict d g c) := by
  unfold Dev.evict
  simp (disch := decide) only [↓(Dev.freeHot_frame _ _).iff, ↓(Dev.modRecord_frame _ _ _ _).iff,
      ↓(Dev.raise_frame _ _ _ _).iff, ↓Dev.frame_ite, ↓Dev.frame_self, implies_true, and_self]

theorem Dev.fitHot_frame (d : Dev) (g c : Nat) (x0 : Nat) :
    Dev.Frame [.log, .dict, .kv, .power, .recd] d (Dev.fitHot d g c x0).1 := by
  induction x0 generalizing d with
  | zero => exact Dev.Frame.refl _
  | succ n ih =>
    unfold Dev.fitHot
    split
    · exact Dev.Frame.refl _
    · split
      · exact Dev.Frame.trans ((Dev.evict_frame _ _ _).mono (by decide)) (ih _)
      · exact Dev.Frame.refl _

theorem Dev.makeCandidate_frame (d : Dev) (g c : Nat) (tv : Int) :
    Dev.Frame [.log, .dict, .kv, .power, .recd] d (Dev.makeCandidate d g c tv) := by
  unfold Dev.makeCandidate
  have h0 := Dev.fitHot_frame d g c d.kvW
  dsimp only
  refine ((Dev.modRecord_frame _ _ _ _).iff (by decide) _).2 ?_
  have h1 : Dev.Frame [.log, .dict, .kv, .power, .recd] d (match (d.fitHot g c d.kvW).2 with
      | some s => (d.fitHot g c d.kvW).1.takeHot s | none => (d.fitHot g c d.kvW).1) := by
    split
    · exact ((Dev.takeHot_frame _ _).iff (by decide) _).2 (h0.mono (by decide))
    · exact h0.mono (by decide)
  split
  · exact ((Dev.takePool_frame _ _ _).iff (by decide) _).2 h1
  · exact h1

theorem Dev.classifyEntry_frame (d : Dev) (g c k : Nat) (left : Nat) :
    Dev.Frame [.kv] d (Dev.classifyEntry d g c k left).1 := by
  unfold Dev.classifyEntry
  repeat' (first
    | (simp (disch := decide) only [↓(Dev.modRecord_frame _ _ _ _).iff, ↓(Dev.takePool_frame _ _ _).iff,
      ↓Dev.frame_ite, ↓Dev.frame_ite1, ↓Dev.frame_self, implies_true, and_self])
    | (with_reducible refine And.intro ?_ ?_)
    | (with_reducible intro _)
    | split)

theorem Dev.planRegion_frame (d : Dev) (g c : Nat) (tv : Int) :
    Dev.Frame [.log, .dict, .kv, .power, .recd] d (Dev.planRegion d g c tv).1 := by
  unfold Dev.planRegion
  simp (disch := first | decide | (intros; (repeat' (first | (simp (disch := decide) only [↓(Dev.classifyEntry_frame _ _ _ _ _).iff, ↓(Dev.evict_frame _ _ _).iff, ↓(Dev.makeCandidate_frame _ _ _ _).iff, ↓Dev.frame_ite, ↓Dev.frame_ite1, ↓Dev.frame_foldl, ↓Dev.frame_foldlPair, ↓Dev.frame_self, implies_true, and_self]) | (with_reducible refine And.intro ?_ ?_) | (with_reducible intro _) | split)))) only [↓(Dev.classifyEntry_frame _ _ _ _ _).iff, ↓(Dev.evict_frame _ _ _).iff, ↓(Dev.makeCandidate_frame _ _ _ _).iff, ↓Dev.frame_ite, ↓Dev.frame_ite1, ↓Dev.frame_foldl, ↓Dev.frame_foldlPair, ↓Dev.frame_self, implies_true, and_self]

theorem Dev.planAttention_frame (d : Dev) (c : Nat) (tv : Int) :
    Dev.Frame [.log, .dict, .sync, .kv, .hull, .power, .recd, .out] d (Dev.planAttention d c tv) := by
  unfold Dev.planAttention
  repeat' (first
    | (simp (disch := first | decide | (intros; (repeat' (first | (simp (disch := decide) only [↓(Dev.occurN_frame _ _ _ _).iff, ↓(Dev.planRegion_frame _ _ _ _).iff, ↓(Dev.raise_frame _ _ _ _).iff, ↓(Dev.retirePoisoned_frame _).iff, ↓(Dev.signal_frame _ _ _ _ _).iff, ↓Dev.frame_ite, ↓Dev.frame_ite1, ↓Dev.frame_foldl, ↓Dev.frame_foldlPair, ↓Dev.frame_self, implies_true, and_self]) | (with_reducible refine And.intro ?_ ?_) | (with_reducible intro _) | split)))) only [↓(Dev.occurN_frame _ _ _ _).iff, ↓(Dev.planRegion_frame _ _ _ _).iff, ↓(Dev.raise_frame _ _ _ _).iff, ↓(Dev.retirePoisoned_frame _).iff, ↓(Dev.signal_frame _ _ _ _ _).iff, ↓Dev.frame_ite, ↓Dev.frame_ite1, ↓Dev.frame_foldl, ↓Dev.frame_foldlPair, ↓Dev.frame_self, implies_true, and_self])
    | (with_reducible refine And.intro ?_ ?_)
    | (with_reducible intro _)
    | split)

theorem Dev.issueBack_frame (d : Dev) (g c : Nat) :
    Dev.Frame [.log, .dict, .kv, .power, .recd] d (Dev.issueBack d g c) := by
  unfold Dev.issueBack
  repeat' (first
    | (simp (disch := decide) only [↓(Dev.modKv_frame _ _).iff, ↓(Dev.raise_frame _ _ _ _).iff,
      ↓(Dev.takePool_frame _ _ _).iff, ↓Dev.frame_self, implies_true, and_self])
    | (with_reducible refine And.intro ?_ ?_)
    | (with_reducible intro _)
    | split)

theorem Dev.commitRegion_frame (d : Dev) (g c : Nat) :
    Dev.Frame [.log, .dict, .kv, .power, .recd] d (Dev.commitRegion d g c) := by
  unfold Dev.commitRegion
  simp (disch := first | decide | (intros; (repeat' (first | (simp (disch := decide) only [↓(Dev.count_frame _ _ _).iff, ↓(Dev.freeHot_frame _ _).iff, ↓(Dev.freePoolRun_frame _ _).iff, ↓(Dev.issueBack_frame _ _ _).iff, ↓(Dev.modKv_frame _ _).iff, ↓(Dev.modRecord_frame _ _ _ _).iff, ↓Dev.frame_ite, ↓Dev.frame_ite1, ↓Dev.frame_foldl, ↓Dev.frame_foldlPair, ↓Dev.frame_self, implies_true, and_self]) | (with_reducible refine And.intro ?_ ?_) | (with_reducible intro _) | split)))) only [↓(Dev.count_frame _ _ _).iff, ↓(Dev.freeHot_frame _ _).iff, ↓(Dev.freePoolRun_frame _ _).iff, ↓(Dev.issueBack_frame _ _ _).iff, ↓(Dev.modKv_frame _ _).iff, ↓(Dev.modRecord_frame _ _ _ _).iff, ↓Dev.frame_ite, ↓Dev.frame_ite1, ↓Dev.frame_foldl, ↓Dev.frame_foldlPair, ↓Dev.frame_self, implies_true, and_self]

theorem Dev.commitAttention_frame (d : Dev) (c : Nat) :
    Dev.Frame [.log, .dict, .kv, .power, .recd] d (Dev.commitAttention d c) := by
  unfold Dev.commitAttention
  simp (disch := first | decide | (intros; (repeat' (first | (simp (disch := decide) only [↓(Dev.commitRegion_frame _ _ _).iff, ↓(Dev.modKv_frame _ _).iff, ↓Dev.frame_ite, ↓Dev.frame_ite1, ↓Dev.frame_foldl, ↓Dev.frame_foldlPair, ↓Dev.frame_self, implies_true, and_self]) | (with_reducible refine And.intro ?_ ?_) | (with_reducible intro _) | split)))) only [↓(Dev.commitRegion_frame _ _ _).iff, ↓(Dev.modKv_frame _ _).iff, ↓Dev.frame_ite, ↓Dev.frame_ite1, ↓Dev.frame_foldl, ↓Dev.frame_foldlPair, ↓Dev.frame_self, implies_true, and_self]

theorem Dev.discardAttention_frame (d : Dev) :
    Dev.Frame [.log, .dict, .kv, .power, .recd] d (Dev.discardAttention d) := by
  unfold Dev.discardAttention
  split
  · exact Dev.Frame.refl _
  · refine ((Dev.retirePoisoned_frame _).iff (by decide) _).2 ((Dev.frame_foldl (fun e g => ?_) _ _ _).2
      (Dev.Frame.refl _))
    dsimp only
    refine (Dev.frame_foldl (fun e k => ?_) _ _ _).2 ?_
    · split
      · exact ((Dev.modRecord_frame _ _ _ _).iff (by decide) _).2 ((Dev.freePoolRun_frame _ _).mono (by decide))
      · exact Dev.Frame.refl _
    · simp (disch := decide) only [↓(Dev.modKv_frame _ _).iff, ↓(Dev.freePoolRun_frame _ _).iff,
      ↓(Dev.freeHot_frame _ _).iff,
        ↓Dev.frame_ite, ↓Dev.frame_self, implies_true, and_self]

theorem Dev.emptyRings_frame (d : Dev) :
    Dev.Frame [.kv] d (Dev.emptyRings d) := by
  unfold Dev.emptyRings
  simp (disch := decide) only [↓(Dev.modKv_frame _ _).iff, ↓Dev.frame_self]

theorem Dev.copyPages_frame (d : Dev) (hot pool : Nat) :
    Dev.Frame [.mem] d (Dev.copyPages d hot pool) := by
  unfold Dev.copyPages
  repeat' (first
    | (simp (disch := decide) only [↓(Dev.store_frame _ _ _).iff, ↓Dev.frame_self, implies_true, and_self])
    | (with_reducible refine And.intro ?_ ?_)
    | (with_reducible intro _)
    | split)

theorem kvWriteBackComplete_frame (g : Nat) (faulted : Bool) (d : Dev) :
    Dev.Frame [.mem, .kv] d (kvWriteBackComplete g faulted d) := by
  unfold kvWriteBackComplete
  repeat' (first
    | (simp (disch := decide) only [↓(Dev.copyPages_frame _ _ _).iff, ↓(Dev.freePoolRun_frame _ _).iff,
      ↓(Dev.modKv_frame _ _).iff, ↓(Dev.modRecord_frame _ _ _ _).iff, ↓Dev.frame_ite, ↓Dev.frame_ite1,
      ↓Dev.frame_self, implies_true, and_self])
    | (with_reducible refine And.intro ?_ ?_)
    | (with_reducible intro _)
    | split)

theorem execKvWriteBackComplete_frame (region : Nat) (faulted : Bool) (s : State) :
    ∃ d, execKvWriteBackComplete region faulted s = .next { s with dev := d } ∧ Dev.Frame [.mem, .kv] s.dev d := ⟨_, rfl, kvWriteBackComplete_frame _ _ _⟩

theorem Dev.setLifted_frame (d : Dev) (g : Nat) (cells : List Nat) (told : Int) :
    Dev.Frame [.kv] d (Dev.setLifted d g cells told) := by
  unfold Dev.setLifted
  simp (disch := decide) only [↓(Dev.modRecord_frame _ _ _ _).iff, ↓Dev.frame_ite, ↓Dev.frame_self, implies_true,
      and_self]

theorem Dev.encodeCount_frame (d : Dev) (n : Nat) :
    Dev.Frame [.log, .dict, .fus, .power, .recd] d (Dev.encodeCount d n) := by
  unfold Dev.encodeCount
  simp (disch := decide) only [↓(Dev.modCand_frame _ _).iff, ↓(Dev.occurN_frame _ _ _ _).iff,
      ↓(Dev.raise_frame _ _ _ _).iff, ↓Dev.frame_ite, ↓Dev.frame_self, implies_true, and_self]

theorem Dev.encodeBlock_frame (d : Dev) (own : Option Nat) (g tok : Nat) (kv4 : Bool) (src dst scale : Nat) :
    Dev.Frame [.log, .dict, .mem, .fus, .kv, .power, .recd] d (Dev.encodeBlock d own g tok kv4 src dst scale) := by
  unfold Dev.encodeBlock
  simp (disch := decide) only [↓(Dev.encodeCount_frame _ _).iff, ↓(Dev.modRecord_frame _ _ _ _).iff,
      ↓(Dev.storeA_frame _ _ _ _).iff, ↓Dev.frame_ite, ↓Dev.frame_self, implies_true, and_self]

theorem Dev.widenBlocks_frame (d : Dev) (own : Option Nat) (bf16 kv4 : Bool) (n src scale dst : Nat) :
    Dev.Frame [.mem] d (Dev.widenBlocks d own bf16 kv4 n src scale dst) := by
  unfold Dev.widenBlocks
  simp (disch := decide) only [↓(Dev.storeA_frame _ _ _ _).iff, ↓Dev.frame_ite, ↓Dev.frame_ite1, ↓Dev.frame_self,
      implies_true, and_self]

theorem Dev.softmaxRows_frame (d : Dev) (own : Option Nat) (rows first keys scores masks stats : Nat) :
    Dev.Frame [.mem] d (Dev.softmaxRows d own rows first keys scores masks stats).1 := by
  unfold Dev.softmaxRows
  simp (disch := decide) only [↓(Dev.storeA_frame _ _ _ _).iff, ↓Dev.frame_self, implies_true, and_self]

theorem Dev.setFusN_frame (d : Dev) (x : Fusion) :
    Dev.Frame [.fus] d (Dev.setFusN d x) := by
  unfold Dev.setFusN
  simp (disch := decide) only [↓Dev.frame_fus, ↓Dev.frame_ite, ↓Dev.frame_self, implies_true, and_self]

theorem Dev.modFusN_frame (d : Dev) (f : Fusion → Fusion) :
    Dev.Frame [.fus] d (Dev.modFusN d f) := by
  unfold Dev.modFusN
  simp (disch := decide) only [↓(Dev.setFusN_frame _ _).iff, ↓Dev.frame_self]

theorem Dev.liftRegion_frame (d : Dev) (own : Option Nat) (n g : Nat) (levels : List Nat) (dst : Nat) :
    Dev.Frame [.mem] d (Dev.liftRegion d own n g levels dst) := by
  unfold Dev.liftRegion
  repeat' (first
    | (simp (disch := first | decide | (intros; (repeat' (first | (simp (disch := decide) only [↓(Dev.eltPut_frame _ _ _ _ _).iff, ↓(Dev.healElts_frame _ _ _ _).iff, ↓(Dev.putTimes_frame _ _ _ _ _).iff, ↓Dev.frame_foldl, ↓Dev.frame_foldlPair, ↓Dev.frame_self, implies_true, and_self]) | (with_reducible refine And.intro ?_ ?_) | (with_reducible intro _) | split)))) only [↓(Dev.eltPut_frame _ _ _ _ _).iff, ↓(Dev.healElts_frame _ _ _ _).iff, ↓(Dev.putTimes_frame _ _ _ _ _).iff, ↓Dev.frame_foldl, ↓Dev.frame_foldlPair, ↓Dev.frame_self, implies_true, and_self])
    | (with_reducible refine And.intro ?_ ?_)
    | (with_reducible intro _)
    | split)

theorem Dev.cellState_frame (d : Dev) (ev : List Evidence) (occ : List (Nat × Byte)) :
    Dev.Frame [.fus] d (Dev.cellState d ev occ) := by
  unfold Dev.cellState
  repeat' (first
    | (simp (disch := first | decide | (intros; (repeat' (first | (simp (disch := decide) only [↓(Dev.modCand_frame _ _).iff, ↓(Dev.modFusN_frame _ _).iff, ↓Dev.frame_foldl, ↓Dev.frame_foldlPair, ↓Dev.frame_self, implies_true, and_self]) | (with_reducible refine And.intro ?_ ?_) | (with_reducible intro _) | split)))) only [↓(Dev.modCand_frame _ _).iff, ↓(Dev.modFusN_frame _ _).iff, ↓Dev.frame_foldl, ↓Dev.frame_foldlPair, ↓Dev.frame_self, implies_true, and_self])
    | (with_reducible refine And.intro ?_ ?_)
    | (with_reducible intro _)
    | split)

theorem Dev.excludeDue_frame (d : Dev) (n : Nat) :
    Dev.Frame [.fus] d (Dev.excludeDue d n) := by
  unfold Dev.excludeDue
  simp (disch := decide) only [↓(Dev.modCand_frame _ _).iff, ↓Dev.frame_ite, ↓Dev.frame_self, implies_true, and_self]

theorem Dev.healthChecks_frame (d : Dev) (ev : List Evidence) :
    Dev.Frame [.fus, .kv] d (Dev.healthChecks d ev) := by
  unfold Dev.healthChecks
  repeat' (first
    | (simp (disch := first | decide | (intros; (repeat' (first | (simp (disch := decide) only [↓(Dev.excludeDue_frame _ _).iff, ↓(Dev.modCand_frame _ _).iff, ↓(Dev.modFusN_frame _ _).iff, ↓(Dev.setLifted_frame _ _ _ _).iff, ↓Dev.frame_foldl, ↓Dev.frame_foldlPair, ↓Dev.frame_self, implies_true, and_self]) | (with_reducible refine And.intro ?_ ?_) | (with_reducible intro _) | split)))) only [↓(Dev.excludeDue_frame _ _).iff, ↓(Dev.modCand_frame _ _).iff, ↓(Dev.modFusN_frame _ _).iff, ↓(Dev.setLifted_frame _ _ _ _).iff, ↓Dev.frame_foldl, ↓Dev.frame_foldlPair, ↓Dev.frame_self, implies_true, and_self])
    | (with_reducible refine And.intro ?_ ?_)
    | (with_reducible intro _)
    | split)

theorem Dev.calibrateOne_frame (d : Dev) (own : Option Nat) (s : CalibStep) :
    Dev.Frame [.fus] d (Dev.calibrateOne d own s) := by
  unfold Dev.calibrateOne
  simp (disch := decide) only [↓(Dev.excludeDue_frame _ _).iff, ↓(Dev.modFusN_frame _ _).iff, ↓Dev.frame_ite,
      ↓Dev.frame_self, implies_true, and_self]

theorem Dev.commitContest_frame (d : Dev) (p : Nat × Nat) :
    Dev.Frame [.log, .dict, .fus, .power, .recd] d (Dev.commitContest d p) := by
  unfold Dev.commitContest
  simp (disch := decide) only [↓(Dev.modFusN_frame _ _).iff, ↓(Dev.raise_frame _ _ _ _).iff, ↓Dev.frame_ite,
      ↓Dev.frame_self, implies_true, and_self]

theorem Dev.recover_frame (d : Dev) (n : Nat) :
    Dev.Frame [.fus] d (Dev.recover d n) := by
  unfold Dev.recover
  simp (disch := decide) only [↓(Dev.modFusN_frame _ _).iff, ↓Dev.frame_ite, ↓Dev.frame_self, implies_true, and_self]

theorem Dev.maskStream_frame (d : Dev) (n : Nat) :
    Dev.Frame [.log, .dict, .fus, .power, .recd] d (Dev.maskStream d n) := by
  unfold Dev.maskStream
  simp (disch := decide) only [↓(Dev.modFusN_frame _ _).iff, ↓(Dev.raise_frame _ _ _ _).iff, ↓Dev.frame_fus,
      ↓Dev.frame_ite, ↓Dev.frame_self, implies_true, and_self]

theorem Dev.unmaskStream_frame (d : Dev) (n : Nat) :
    Dev.Frame [.log, .dict, .fus, .power, .recd] d (Dev.unmaskStream d n) := by
  unfold Dev.unmaskStream
  simp (disch := decide) only [↓(Dev.modFusN_frame _ _).iff, ↓(Dev.raise_frame _ _ _ _).iff, ↓Dev.frame_fus,
      ↓Dev.frame_ite, ↓Dev.frame_self, implies_true, and_self]

theorem Dev.envelopeRaise_frame (d : Dev) (n : Nat) :
    Dev.Frame [.log, .dict, .power, .recd] d (Dev.envelopeRaise d n) := by
  unfold Dev.envelopeRaise
  simp (disch := decide) only [↓(Dev.occur_frame _ _ _).iff, ↓(Dev.raise_frame _ _ _ _).iff, ↓Dev.frame_ite,
      ↓Dev.frame_self, implies_true, and_self]

theorem Dev.commitGrid_frame (d : Dev) :
    Dev.Frame [.log, .dict, .fus, .power, .recd] d (Dev.commitGrid d) := by
  unfold Dev.commitGrid
  simp (disch := first | decide | (intros; (repeat' (first | (simp (disch := decide) only [↓(Dev.commitContest_frame _ _).iff, ↓(Dev.envelopeRaise_frame _ _).iff, ↓(Dev.maskStream_frame _ _).iff, ↓(Dev.modFusN_frame _ _).iff, ↓(Dev.raiseIf_frame _ _ _ _ _).iff, ↓(Dev.recover_frame _ _).iff, ↓(Dev.unmaskStream_frame _ _).iff, ↓Dev.frame_fus, ↓Dev.frame_foldl, ↓Dev.frame_foldlPair, ↓Dev.frame_self, implies_true, and_self]) | (with_reducible refine And.intro ?_ ?_) | (with_reducible intro _) | split)))) only [↓(Dev.commitContest_frame _ _).iff, ↓(Dev.envelopeRaise_frame _ _).iff, ↓(Dev.maskStream_frame _ _).iff, ↓(Dev.modFusN_frame _ _).iff, ↓(Dev.raiseIf_frame _ _ _ _ _).iff, ↓(Dev.recover_frame _ _).iff, ↓(Dev.unmaskStream_frame _ _).iff, ↓Dev.frame_fus, ↓Dev.frame_foldl, ↓Dev.frame_foldlPair, ↓Dev.frame_self, implies_true, and_self]

theorem writeUnmask_frame (n : Nat) (d : Dev) :
    Dev.Frame [.log, .dict, .fus, .power, .recd] d (writeUnmask n d).1 := by
  unfold writeUnmask
  simp (disch := decide) only [↓(Dev.raise_frame _ _ _ _).iff, ↓Dev.frame_fus, ↓Dev.frame_ite1, ↓Dev.frame_self,
      implies_true, and_self]

theorem unmaskRequest_frame (r : Req) (n : Nat) (value : Byte) (d : Dev) :
    Dev.Frame [.log, .dict, .fus, .palca, .power, .recd, .out] d (unmaskRequest r n value d) := by
  unfold unmaskRequest
  repeat' (first
    | (refine Dev.writeWith_frame (by decide) ?_ _ _ _ _ _ _ _)
    | (simp (disch := decide) only [↓(writeUnmask_frame _ _).iff, ↓Dev.frame_self, implies_true])
    | (with_reducible refine And.intro ?_ ?_)
    | (with_reducible intro _) | split)

theorem execUnmaskRequest_frame (r : Req) (n : Fin 16) (value : Byte) (s : State) :
    ∃ d, execUnmaskRequest r n value s = .next { s with dev := d } ∧ Dev.Frame [.log, .dict, .fus, .palca, .power,
      .recd, .out] s.dev d := ⟨_, rfl, unmaskRequest_frame _ _ _ _⟩

theorem writeReference_frame (n sub : Nat) (v : List Nat) (d : Dev) :
    Dev.Frame [.dict, .fus, .recd] d (writeReference n sub v d).1 := by
  unfold writeReference
  simp (disch := decide) only [↓(Dev.put_frame _ _ _ _).iff, ↓Dev.frame_fus, ↓Dev.frame_ite, ↓Dev.frame_self,
      implies_true, and_self]

theorem resetCorrection_frame (r : Req) (n sub : Nat) (payload : List Byte) (d : Dev) :
    Dev.Frame [.log, .dict, .fus, .palca, .power, .recd, .out] d (resetCorrection r n sub payload d) := by
  unfold resetCorrection
  repeat' (first
    | (refine Dev.writeWith_frame (by decide) ?_ _ _ _ _ _ _ _)
    | (simp (disch := decide) only [↓(writeReference_frame _ _ _ _).iff, ↓Dev.frame_ite, ↓Dev.frame_self,
      implies_true])
    | (with_reducible refine And.intro ?_ ?_)
    | (with_reducible intro _) | split)

theorem execResetCorrection_frame (r : Req) (n : Fin 16) (sub : Byte) (payload : List Byte) (s : State) :
    ∃ d, execResetCorrection r n sub payload s = .next { s with dev := d } ∧ Dev.Frame [.log, .dict, .fus, .palca,
      .power, .recd, .out] s.dev d := ⟨_, rfl, resetCorrection_frame _ _ _ _ _⟩

theorem writeGeometry_frame (sub : Nat) (v : List Nat) (d : Dev) :
    Dev.Frame [.dict, .fus, .recd] d (writeGeometry sub v d).1 := by
  unfold writeGeometry
  simp (disch := decide) only [↓(Dev.put_frame _ _ _ _).iff, ↓Dev.frame_fus, ↓Dev.frame_self]

theorem gridGeometryWrite_frame (r : Req) (sub : Nat) (payload : List Byte) (d : Dev) :
    Dev.Frame [.log, .dict, .fus, .palca, .power, .recd, .out] d (gridGeometryWrite r sub payload d) := by
  unfold gridGeometryWrite
  repeat' (first
    | (refine Dev.writeWith_frame (by decide) ?_ _ _ _ _ _ _ _)
    | (simp (disch := decide) only [↓(writeGeometry_frame _ _ _).iff, ↓Dev.frame_ite, ↓Dev.frame_self, implies_true])
    | (with_reducible refine And.intro ?_ ?_)
    | (with_reducible intro _) | split)

theorem execGridGeometryWrite_frame (r : Req) (sub : Byte) (payload : List Byte) (s : State) :
    ∃ d, execGridGeometryWrite r sub payload s = .next { s with dev := d } ∧ Dev.Frame [.log, .dict, .fus, .palca,
      .power, .recd, .out] s.dev d := ⟨_, rfl, gridGeometryWrite_frame _ _ _ _⟩

theorem Dev.saveCalib_frame (d : Dev) :
    Dev.Frame [.fus] d (Dev.saveCalib d) := by
  unfold Dev.saveCalib
  simp (disch := decide) only [↓Dev.frame_fus, ↓Dev.frame_self]

theorem calibrationPersist_frame (d : Dev) :
    Dev.Frame [.fus] d (calibrationPersist d) := by
  unfold calibrationPersist
  simp (disch := decide) only [↓(Dev.saveCalib_frame _).iff, ↓Dev.frame_ite, ↓Dev.frame_ite1, ↓Dev.frame_self,
      implies_true, and_self]

theorem execCalibrationPersist_frame (s : State) :
    ∃ d, execCalibrationPersist s = .next { s with dev := d } ∧ Dev.Frame [.fus] s.dev d := ⟨_, rfl, calibrationPersist_frame _⟩

theorem Dev.readSlots_frame {l : List Part} (s : Part.sub [.log, .dict, .power, .recd] l = true) {work : Dev → Dev}
    (h : ∀ e, Dev.Frame l e (work e)) (d : Dev) (f : Fusion) (slots : List Nat) (up : List SlotUpset) :
    Dev.Frame l d (Dev.readSlots d f slots up work).1 := by
  unfold Dev.readSlots
  dsimp only
  split
  · exact h d
  · exact (Dev.frame_foldl (fun e x => (Dev.raise_frame _ _ _ _).mono s) _ _ _).2 (Dev.Frame.refl _)

theorem Dev.predictClass_frame (d : Dev) (k : Nat) :
    Dev.Frame [.fus] d (Dev.predictClass d k) := by
  unfold Dev.predictClass
  repeat' (first
    | (simp (disch := first | decide | (intros; (repeat' (first | (simp (disch := decide) only [↓(Dev.modCand_frame _ _).iff, ↓Dev.frame_ite, ↓Dev.frame_ite1, ↓Dev.frame_foldl, ↓Dev.frame_foldlPair, ↓Dev.frame_self, implies_true, and_self]) | (with_reducible refine And.intro ?_ ?_) | (with_reducible intro _) | split)))) only [↓(Dev.modCand_frame _ _).iff, ↓Dev.frame_ite, ↓Dev.frame_ite1, ↓Dev.frame_foldl, ↓Dev.frame_foldlPair, ↓Dev.frame_self, implies_true, and_self])
    | (with_reducible refine And.intro ?_ ?_)
    | (with_reducible intro _)
    | split)

theorem Dev.classBits_frame (d : Dev) (k bits : Nat) :
    Dev.Frame [.fus] d (Dev.classBits d k bits) := by
  unfold Dev.classBits
  simp (disch := decide) only [↓(Dev.modCand_frame _ _).iff, ↓Dev.frame_self]

theorem Dev.countPruned_frame (d : Dev) (k first lost : Nat) :
    Dev.Frame [.log, .dict, .fus, .power, .recd] d (Dev.countPruned d k first lost) := by
  unfold Dev.countPruned
  simp (disch := decide) only [↓(Dev.classBits_frame _ _ _).iff, ↓(Dev.occurN_frame _ _ _ _).iff,
      ↓(Dev.raise_frame _ _ _ _).iff, ↓Dev.frame_ite, ↓Dev.frame_ite1, ↓Dev.frame_self, implies_true, and_self]

theorem Dev.countCut_frame (d : Dev) (k cut : Nat) :
    Dev.Frame [.log, .dict, .fus, .power, .recd] d (Dev.countCut d k cut) := by
  unfold Dev.countCut
  simp (disch := decide) only [↓(Dev.classBits_frame _ _ _).iff, ↓(Dev.modCand_frame _ _).iff,
      ↓(Dev.occurN_frame _ _ _ _).iff, ↓(Dev.raise_frame _ _ _ _).iff, ↓Dev.frame_ite, ↓Dev.frame_ite1,
      ↓Dev.frame_self, implies_true, and_self]

theorem Dev.buildCosts_frame (d : Dev) (own : Option Nat) (k list first n dst : Nat) :
    Dev.Frame [.log, .dict, .mem, .fus, .power, .recd] d (Dev.buildCosts d own k list first n dst) := by
  unfold Dev.buildCosts
  repeat' (first
    | (simp (disch := first | decide | (intros; (repeat' (first | (simp (disch := decide) only [↓(Dev.countCut_frame _ _ _).iff, ↓(Dev.countPruned_frame _ _ _ _).iff, ↓(Dev.modCand_frame _ _).iff, ↓(Dev.storeA_frame _ _ _ _).iff, ↓Dev.frame_foldl, ↓Dev.frame_foldlPair, ↓Dev.frame_self, implies_true, and_self]) | (with_reducible refine And.intro ?_ ?_) | (with_reducible intro _) | split)))) only [↓(Dev.countCut_frame _ _ _).iff, ↓(Dev.countPruned_frame _ _ _ _).iff, ↓(Dev.modCand_frame _ _).iff, ↓(Dev.storeA_frame _ _ _ _).iff, ↓Dev.frame_foldl, ↓Dev.frame_foldlPair, ↓Dev.frame_self, implies_true, and_self])
    | (with_reducible refine And.intro ?_ ?_)
    | (with_reducible intro _)
    | split)

theorem Dev.endAuction_frame (d : Dev) (k : Nat) (m : CostMatrix) (s : Auction) (status : Nat) :
    Dev.Frame [.log, .dict, .fus, .power, .recd] d (Dev.endAuction d k m s status) := by
  unfold Dev.endAuction
  simp (disch := decide) only [↓(Dev.classBits_frame _ _ _).iff, ↓(Dev.countN_frame _ _ _ _).iff,
      ↓(Dev.modCand_frame _ _).iff, ↓(Dev.raise_frame _ _ _ _).iff, ↓(Dev.setObj_frame _ _ _ _).iff, ↓Dev.frame_ite,
      ↓Dev.frame_self, implies_true, and_self]

theorem Dev.births_frame (d : Dev) (own : Option Nat) (k cycle : Nat) (tv : Int) (app : Nat) (rows : List (Nat ×
      Detection)) :
    Dev.Frame [.log, .dict, .fus, .power, .recd] d (Dev.births d own k cycle tv app rows) := by
  unfold Dev.births
  simp (disch := first | decide | (intros; (repeat' (first | (simp (disch := decide) only [↓(Dev.classBits_frame _ _ _).iff, ↓(Dev.modCand_frame _ _).iff, ↓(Dev.modFusN_frame _ _).iff, ↓(Dev.occurN_frame _ _ _ _).iff, ↓(Dev.raise_frame _ _ _ _).iff, ↓Dev.frame_ite, ↓Dev.frame_ite1, ↓Dev.frame_foldl, ↓Dev.frame_foldlPair, ↓Dev.frame_self, implies_true, and_self]) | (with_reducible refine And.intro ?_ ?_) | (with_reducible intro _) | split)))) only [↓(Dev.classBits_frame _ _ _).iff, ↓(Dev.modCand_frame _ _).iff, ↓(Dev.modFusN_frame _ _).iff, ↓(Dev.occurN_frame _ _ _ _).iff, ↓(Dev.raise_frame _ _ _ _).iff, ↓Dev.frame_ite, ↓Dev.frame_ite1, ↓Dev.frame_foldl, ↓Dev.frame_foldlPair, ↓Dev.frame_self, implies_true, and_self]

theorem Dev.countPredOnly_frame (d : Dev) (k n : Nat) :
    Dev.Frame [.log, .dict, .fus, .power, .recd] d (Dev.countPredOnly d k n) := by
  unfold Dev.countPredOnly
  simp (disch := decide) only [↓(Dev.classBits_frame _ _ _).iff, ↓(Dev.modCand_frame _ _).iff,
      ↓(Dev.occurN_frame _ _ _ _).iff, ↓(Dev.raise_frame _ _ _ _).iff, ↓Dev.frame_ite, ↓Dev.frame_self, implies_true,
      and_self]

theorem Dev.updateClass_frame (d : Dev) (own : Option Nat) (k : Nat) (job : SolRef) (app : Nat) :
    Dev.Frame [.log, .dict, .fus, .power, .recd] d (Dev.updateClass d own k job app) := by
  unfold Dev.updateClass
  repeat' (first
    | (simp (disch := first | decide | (intros; (repeat' (first | (simp (disch := decide) only [↓(Dev.births_frame _ _ _ _ _ _ _).iff, ↓(Dev.countPredOnly_frame _ _ _).iff, ↓(Dev.modFusN_frame _ _).iff, ↓Dev.frame_ite, ↓Dev.frame_ite1, ↓Dev.frame_foldl, ↓Dev.frame_foldlPair, ↓Dev.frame_self, implies_true, and_self]) | (with_reducible refine And.intro ?_ ?_) | (with_reducible intro _) | split)))) only [↓(Dev.births_frame _ _ _ _ _ _ _).iff, ↓(Dev.countPredOnly_frame _ _ _).iff, ↓(Dev.modFusN_frame _ _).iff, ↓Dev.frame_ite, ↓Dev.frame_ite1, ↓Dev.frame_foldl, ↓Dev.frame_foldlPair, ↓Dev.frame_self, implies_true, and_self])
    | (with_reducible refine And.intro ?_ ?_)
    | (with_reducible intro _)
    | split)

theorem Dev.resolveParents_frame (d : Dev) (c : Nat) :
    Dev.Frame [.fus] d (Dev.resolveParents d c) := by
  unfold Dev.resolveParents
  simp (disch := decide) only [↓(Dev.modFusN_frame _ _).iff, ↓Dev.frame_self]

theorem Dev.mergeBank_frame (d : Dev) (h : Struc) (l : List (Nat × Int)) :
    Dev.Frame [.fus] d (Dev.mergeBank d h l) := by
  unfold Dev.mergeBank
  simp (disch := first | decide | (intros; (repeat' (first | (simp (disch := decide) only [↓(Dev.modFusN_frame _ _).iff, ↓Dev.frame_foldl, ↓Dev.frame_foldlPair, ↓Dev.frame_self, implies_true, and_self]) | (with_reducible refine And.intro ?_ ?_) | (with_reducible intro _) | split)))) only [↓(Dev.modFusN_frame _ _).iff, ↓Dev.frame_foldl, ↓Dev.frame_foldlPair, ↓Dev.frame_self, implies_true, and_self]

theorem Dev.storeFactor_frame (d : Dev) (j : Job) (h : Struc) (f : Factor) :
    Dev.Frame [.mem] d (Dev.storeFactor d j h f) := by
  unfold Dev.storeFactor
  simp (disch := decide) only [↓(Dev.storeA_frame _ _ _ _).iff, ↓Dev.frame_self]

theorem Dev.putSol_frame (d : Dev) (j : Job) (x : Solution) (t : Option Times) :
    Dev.Frame [.mem, .fus] d (Dev.putSol d j x t) := by
  unfold Dev.putSol
  simp (disch := first | decide | (intros; (repeat' (first | (simp (disch := decide) only [↓(Dev.eltPut_frame _ _ _ _ _).iff, ↓(Dev.healElts_frame _ _ _ _).iff, ↓(Dev.modFusN_frame _ _).iff, ↓(Dev.putTimes_frame _ _ _ _ _).iff, ↓(Dev.storeA_frame _ _ _ _).iff, ↓Dev.frame_ite, ↓Dev.frame_ite1, ↓Dev.frame_foldl, ↓Dev.frame_foldlPair, ↓Dev.frame_self, implies_true, and_self]) | (with_reducible refine And.intro ?_ ?_) | (with_reducible intro _) | split)))) only [↓(Dev.eltPut_frame _ _ _ _ _).iff, ↓(Dev.healElts_frame _ _ _ _).iff, ↓(Dev.modFusN_frame _ _).iff, ↓(Dev.putTimes_frame _ _ _ _ _).iff, ↓(Dev.storeA_frame _ _ _ _).iff, ↓Dev.frame_ite, ↓Dev.frame_ite1, ↓Dev.frame_foldl, ↓Dev.frame_foldlPair, ↓Dev.frame_self, implies_true, and_self]

theorem Dev.endJob_frame (d : Dev) (e : Nat) (r : RunJob) (rec : Option Done) (err : Bool) :
    Dev.Frame [.log, .dict, .mem, .sched, .sync, .solvers, .hull, .power, .recd, .out] d (Dev.endJob d e r rec err) := by
  unfold Dev.endJob
  repeat' (first
    | (simp (disch := decide) only [↓(Dev.finish_frame _ _ _ _ _).iff, ↓(Dev.modSolver_frame _ _ _).iff,
      ↓(Dev.storeA_frame _ _ _ _).iff, ↓Dev.frame_ite, ↓Dev.frame_ite1, ↓Dev.frame_self, implies_true, and_self])
    | (with_reducible refine And.intro ?_ ?_)
    | (with_reducible intro _)
    | split)

theorem Dev.faultJob_frame (d : Dev) (e : Nat) (r : RunJob) (cause : Nat) :
    Dev.Frame [.log, .dict, .mem, .sched, .sync, .fus, .solvers, .hull, .power, .recd,
      .out] d (Dev.faultJob d e r cause) := by
  unfold Dev.faultJob
  simp (disch := decide) only [↓(Dev.endJob_frame _ _ _ _ _).iff, ↓(Dev.markFaulted_frame _ _ _).iff,
      ↓(Dev.modFusN_frame _ _).iff, ↓Dev.frame_self]

theorem Dev.engineOut_frame (d : Dev) (e : Nat) :
    Dev.Frame [.log, .dict, .mem, .sched, .sync, .fus, .solvers, .hull, .power, .recd, .out] d (Dev.engineOut d e) := by
  unfold Dev.engineOut
  repeat' (first
    | (simp (disch := decide) only [↓(Dev.faultJob_frame _ _ _ _).iff, ↓(Dev.modSolver_frame _ _ _).iff,
      ↓(Dev.raise_frame _ _ _ _).iff, ↓Dev.frame_ite, ↓Dev.frame_ite1, ↓Dev.frame_self, implies_true, and_self])
    | (with_reducible refine And.intro ?_ ?_)
    | (with_reducible intro _)
    | split)

theorem Dev.deliver_frame (d : Dev) (e : Nat) (r : RunJob) (x : Solution) (t : Option Times) (cut : Bool) (k : Done) :
    Dev.Frame [.log, .dict, .mem, .sched, .sync, .fus, .solvers, .hull, .power, .recd,
      .out] d (Dev.deliver d e r x t cut k) := by
  unfold Dev.deliver
  simp (disch := first | decide | (intros; (repeat' (first | (simp (disch := decide) only [↓(Dev.endJob_frame _ _ _ _ _).iff, ↓(Dev.occur_frame _ _ _).iff, ↓(Dev.putSol_frame _ _ _ _).iff, ↓(Dev.raise_frame _ _ _ _).iff, ↓Dev.frame_ite, ↓Dev.frame_ite1, ↓Dev.frame_foldl, ↓Dev.frame_foldlPair, ↓Dev.frame_self, implies_true, and_self]) | (with_reducible refine And.intro ?_ ?_) | (with_reducible intro _) | split)))) only [↓(Dev.endJob_frame _ _ _ _ _).iff, ↓(Dev.occur_frame _ _ _).iff, ↓(Dev.putSol_frame _ _ _ _).iff, ↓(Dev.raise_frame _ _ _ _).iff, ↓Dev.frame_ite, ↓Dev.frame_ite1, ↓Dev.frame_foldl, ↓Dev.frame_foldlPair, ↓Dev.frame_self, implies_true, and_self]

theorem Dev.abortJob_frame (d : Dev) (e : Nat) (r : RunJob) :
    Dev.Frame [.log, .dict, .mem, .sched, .sync, .fus, .solvers, .hull, .power, .recd, .out] d (Dev.abortJob d e r) := by
  unfold Dev.abortJob
  simp (disch := decide) only [↓(Dev.deliver_frame _ _ _ _ _ _ _).iff, ↓Dev.frame_self]

theorem Dev.deliverAuction_frame (d : Dev) (e : Nat) (r : RunJob) (s : Auction) (m : CostMatrix) (status phases
      rounds : Nat) (cut : Bool) :
    Dev.Frame [.log, .dict, .mem, .sched, .sync, .fus, .solvers, .hull, .power, .recd,
      .out] d (Dev.deliverAuction d e r s m status phases rounds cut) := by
  unfold Dev.deliverAuction
  repeat' (first
    | (simp (disch := decide) only [↓(Dev.endAuction_frame _ _ _ _ _).iff, ↓(Dev.endJob_frame _ _ _ _ _).iff,
      ↓(Dev.raiseIf_frame _ _ _ _ _).iff, ↓Dev.frame_ite, ↓Dev.frame_ite1, ↓Dev.frame_self, implies_true, and_self])
    | (with_reducible refine And.intro ?_ ?_)
    | (with_reducible intro _)
    | split)

theorem Dev.runAuction_frame (d : Dev) (e : Nat) (r : RunJob) (cut : Option (Nat × Nat)) :
    Dev.Frame [.log, .dict, .mem, .sched, .sync, .fus, .solvers, .hull, .power, .recd,
      .out] d (Dev.runAuction d e r cut) := by
  unfold Dev.runAuction
  repeat' (first
    | (simp (disch := decide) only [↓(Dev.deliverAuction_frame _ _ _ _ _ _ _ _ _).iff, ↓Dev.frame_ite,
      ↓Dev.frame_ite1, ↓Dev.frame_self, implies_true, and_self])
    | (with_reducible refine And.intro ?_ ?_)
    | (with_reducible intro _)
    | split)

theorem Dev.mergeDelta_frame (d : Dev) (j : Job) :
    Dev.Frame [.fus] d (Dev.mergeDelta d j).1 := by
  unfold Dev.mergeDelta
  simp (disch := decide) only [↓(Dev.mergeBank_frame _ _ _).iff, ↓Dev.frame_ite1, ↓Dev.frame_self, implies_true,
      and_self]

theorem Dev.runSparse_frame (d : Dev) (e : Nat) (r : RunJob) :
    Dev.Frame [.log, .dict, .mem, .sched, .sync, .fus, .solvers, .hull, .power, .recd, .out] d (Dev.runSparse d e r) := by
  unfold Dev.runSparse
  simp (disch := decide) only [↓(Dev.deliver_frame _ _ _ _ _ _ _).iff, ↓(Dev.faultJob_frame _ _ _ _).iff,
      ↓(Dev.mergeDelta_frame _ _).iff, ↓(Dev.raise_frame _ _ _ _).iff, ↓(Dev.storeFactor_frame _ _ _ _).iff,
      ↓Dev.frame_ite, ↓Dev.frame_self, implies_true, and_self]

theorem Dev.runDense_frame (d : Dev) (e : Nat) (r : RunJob) :
    Dev.Frame [.log, .dict, .mem, .sched, .sync, .fus, .solvers, .hull, .power, .recd, .out] d (Dev.runDense d e r) := by
  unfold Dev.runDense
  simp (disch := first | decide | (intros; (repeat' (first | (simp (disch := decide) only [↓(Dev.deliver_frame _ _ _ _ _ _ _).iff, ↓(Dev.eltPut_frame _ _ _ _ _).iff, ↓(Dev.healElts_frame _ _ _ _).iff, ↓(Dev.putTimes_frame _ _ _ _ _).iff, ↓Dev.frame_ite, ↓Dev.frame_ite1, ↓Dev.frame_foldl, ↓Dev.frame_foldlPair, ↓Dev.frame_self, implies_true, and_self]) | (with_reducible refine And.intro ?_ ?_) | (with_reducible intro _) | split)))) only [↓(Dev.deliver_frame _ _ _ _ _ _ _).iff, ↓(Dev.eltPut_frame _ _ _ _ _).iff, ↓(Dev.healElts_frame _ _ _ _).iff, ↓(Dev.putTimes_frame _ _ _ _ _).iff, ↓Dev.frame_ite, ↓Dev.frame_ite1, ↓Dev.frame_foldl, ↓Dev.frame_foldlPair, ↓Dev.frame_self, implies_true, and_self]

theorem Dev.deliverIters_frame (d : Dev) (e : Nat) (r : RunJob) (j : Job) (s : Sys) (l : List Iter) (done : Nat) (cut
      : Bool) :
    Dev.Frame [.log, .dict, .mem, .sched, .sync, .fus, .solvers, .hull, .power, .recd,
      .out] d (Dev.deliverIters d e r j s l done cut) := by
  unfold Dev.deliverIters
  simp (disch := decide) only [↓(Dev.deliver_frame _ _ _ _ _ _ _).iff, ↓(Dev.modSolver_frame _ _ _).iff,
      ↓Dev.frame_self]

theorem Dev.runIters_frame (d : Dev) (e : Nat) (r : RunJob) (cut : Option Nat) :
    Dev.Frame [.log, .dict, .mem, .sched, .sync, .fus, .solvers, .hull, .power, .recd,
      .out] d (Dev.runIters d e r cut) := by
  unfold Dev.runIters
  repeat' (first
    | (simp (disch := decide) only [↓(Dev.deliverIters_frame _ _ _ _ _ _ _ _).iff, ↓(Dev.endJob_frame _ _ _ _ _).iff,
      ↓(Dev.faultJob_frame _ _ _ _).iff, ↓(Dev.mergeDelta_frame _ _).iff, ↓(Dev.modSolver_frame _ _ _).iff,
      ↓(Dev.raise_frame _ _ _ _).iff, ↓(Dev.storeA_frame _ _ _ _).iff, ↓Dev.frame_ite, ↓Dev.frame_ite1,
      ↓Dev.frame_self, implies_true, and_self])
    | (with_reducible refine And.intro ?_ ?_)
    | (with_reducible intro _)
    | split)

theorem Dev.runJob_frame (d : Dev) (e : Nat) (r : RunJob) :
    Dev.Frame [.log, .dict, .mem, .sched, .sync, .fus, .solvers, .hull, .power, .recd, .out] d (Dev.runJob d e r) := by
  unfold Dev.runJob
  simp (disch := decide) only [↓(Dev.runAuction_frame _ _ _ _).iff, ↓(Dev.runDense_frame _ _ _).iff,
      ↓(Dev.runIters_frame _ _ _ _).iff, ↓(Dev.runSparse_frame _ _ _).iff, ↓Dev.frame_ite, ↓Dev.frame_self,
      implies_true, and_self]

theorem Dev.cutJob_frame (d : Dev) (e : Nat) (r : RunJob) (done rounds : Nat) :
    Dev.Frame [.log, .dict, .mem, .sched, .sync, .fus, .solvers, .hull, .power, .recd,
      .out] d (Dev.cutJob d e r done rounds) := by
  unfold Dev.cutJob
  simp (disch := decide) only [↓(Dev.abortJob_frame _ _ _).iff, ↓(Dev.runAuction_frame _ _ _ _).iff,
      ↓(Dev.runIters_frame _ _ _ _).iff, ↓Dev.frame_ite, ↓Dev.frame_self, implies_true, and_self]

theorem solve_frame (e : Nat) (w : List Word) (part work : Nat) (track : Option Nat) (d : Dev) :
    Dev.Frame [.log, .dict, .mem, .sched, .sync, .fus, .solvers, .hull, .power, .recd,
      .out] d (solve e w part work track d) := by
  unfold solve
  repeat' (first
    | (simp (disch := decide) only [↓(Dev.cutJob_frame _ _ _ _ _).iff, ↓(Dev.faultJob_frame _ _ _ _).iff,
      ↓(Dev.modSolver_frame _ _ _).iff, ↓(Dev.raise_frame _ _ _ _).iff, ↓(Dev.skipEntry_frame _ _ _ _).iff,
      ↓(Dev.startEntry_frame _ _ _).iff, ↓Dev.frame_ite, ↓Dev.frame_ite1, ↓Dev.frame_self, implies_true, and_self])
    | (with_reducible refine And.intro ?_ ?_)
    | (with_reducible intro _)
    | split)

theorem execSolve_frame (e : Fin 4) (job : List Word) (partition : Fin 8) (work : Nat) (trackClass : Option (Fin 8))
      (s : State) :
    ∃ d, execSolve e job partition work trackClass s = .next { s with dev := d } ∧ Dev.Frame [.log, .dict, .mem,
      .sched, .sync, .fus, .solvers, .hull, .power, .recd, .out] s.dev d := ⟨_, rfl, solve_frame _ _ _ _ _ _⟩

theorem Dev.engineCompare_frame (d : Dev) (e : Nat) :
    Dev.Frame [.log, .dict, .mem, .sched, .sync, .fus, .solvers, .hull, .power, .recd, .out] d (Dev.engineCompare d e) := by
  unfold Dev.engineCompare
  simp (disch := decide) only [↓(Dev.engineOut_frame _ _).iff, ↓(Dev.modSolver_frame _ _ _).iff,
      ↓(Dev.occur_frame _ _ _).iff, ↓(Dev.raise_frame _ _ _ _).iff, ↓Dev.frame_ite, ↓Dev.frame_self, implies_true,
      and_self]

theorem solverJobComplete_frame (e : Nat) (lost parity : Bool) (ecc : List EccEvent) (d : Dev) :
    Dev.Frame [.log, .dict, .mem, .ddr, .sched, .sync, .fus, .solvers, .hull, .power, .recd, .out,
      .free] d (solverJobComplete e lost parity ecc d) := by
  unfold solverJobComplete
  repeat' (first
    | (simp (disch := decide) only [↓(Dev.bumpFree_frame _).iff, ↓(Dev.engineCompare_frame _ _).iff,
      ↓(Dev.faultJob_frame _ _ _ _).iff, ↓(Dev.raise_frame _ _ _ _).iff, ↓(Dev.readKeys_frame _ _ _).iff,
      ↓(Dev.runJob_frame _ _ _).iff, ↓Dev.frame_ite, ↓Dev.frame_ite1, ↓Dev.frame_self, implies_true, and_self])
    | (with_reducible refine And.intro ?_ ?_)
    | (with_reducible intro _)
    | split)

theorem execSolverJobComplete_frame (e : Fin 4) (compareLost parity : Bool) (ecc : List EccEvent) (s : State) :
    ∃ d, execSolverJobComplete e compareLost parity ecc s = .next { s with dev := d } ∧ Dev.Frame [.log, .dict, .mem,
      .ddr, .sched, .sync, .fus, .solvers, .hull, .power, .recd, .out, .free] s.dev d := ⟨_, rfl, solverJobComplete_frame _ _ _ _ _⟩

theorem solverCut_frame (e done rounds : Nat) (d : Dev) :
    Dev.Frame [.log, .dict, .mem, .sched, .sync, .fus, .solvers, .hull, .power, .recd,
      .out] d (solverCut e done rounds d) := by
  unfold solverCut
  repeat' (first
    | (simp (disch := decide) only [↓(Dev.cutJob_frame _ _ _ _ _).iff, ↓Dev.frame_ite, ↓Dev.frame_ite1,
      ↓Dev.frame_self, implies_true, and_self])
    | (with_reducible refine And.intro ?_ ?_)
    | (with_reducible intro _)
    | split)

theorem execSolverCut_frame (e : Fin 4) (done rounds : Nat) (s : State) :
    ∃ d, execSolverCut e done rounds s = .next { s with dev := d } ∧ Dev.Frame [.log, .dict, .mem, .sched, .sync,
      .fus, .solvers, .hull, .power, .recd, .out] s.dev d := ⟨_, rfl, solverCut_frame _ _ _ _⟩

theorem solverSelftest_frame (e : Nat) (ok : Bool) (d : Dev) :
    Dev.Frame [.log, .dict, .mem, .sched, .sync, .cover, .fus, .solvers, .hull, .twin, .palca, .power, .recd,
      .out] d (solverSelftest e ok d) := by
  unfold solverSelftest
  repeat' (first
    | (simp (disch := decide) only [↓(Dev.dropChunk_frame _ _ _).iff, ↓(Dev.engineOut_frame _ _).iff,
      ↓(Dev.occur_frame _ _ _).iff, ↓(Dev.raise_frame _ _ _ _).iff, ↓(Dev.tested_frame _ _ _).iff, ↓Dev.frame_ite,
      ↓Dev.frame_ite1, ↓Dev.frame_self, implies_true, and_self])
    | (with_reducible refine And.intro ?_ ?_)
    | (with_reducible intro _)
    | split)

theorem execSolverSelftest_frame (e : Fin 4) (digestOk : Bool) (s : State) :
    ∃ d, execSolverSelftest e digestOk s = .next { s with dev := d } ∧ Dev.Frame [.log, .dict, .mem, .sched, .sync,
      .cover, .fus, .solvers, .hull, .twin, .palca, .power, .recd, .out] s.dev d := ⟨_, rfl, solverSelftest_frame _ _ _⟩

theorem pllLossOfLock_frame (pll : Nat) (d : Dev) :
    Dev.Frame [.log, .dict, .pods, .movers, .mem, .sched, .sync, .fus, .solvers, .hull, .twin, .palca, .power, .recd,
      .out] d (pllLossOfLock pll d) := by
  unfold pllLossOfLock
  simp (disch := decide) only [↓(Dev.engineOut_frame _ _).iff, ↓(Dev.raise_frame _ _ _ _).iff,
      ↓(Dev.refFault_frame _ _ _).iff, ↓(Dev.takeOut_frame _ _).iff, ↓(hullLockstep_frame _).iff, ↓Dev.frame_ite,
      ↓Dev.frame_self, implies_true, and_self]

theorem execPllLossOfLock_frame (pll : Fin 32) (s : State) :
    ∃ d, execPllLossOfLock pll s = .next { s with dev := d } ∧ Dev.Frame [.log, .dict, .pods, .movers, .mem, .sched,
      .sync, .fus, .solvers, .hull, .twin, .palca, .power, .recd, .out] s.dev d := ⟨_, rfl, pllLossOfLock_frame _ _⟩

theorem Dev.pipWork_frame (d : Dev) (own : Option Nat) (out len : Nat) (w : PipWork) :
    Dev.Frame [.log, .dict, .mem, .fus, .kv, .power, .recd] d (Dev.pipWork d own out len w).1 := by
  have rs : ∀ {work : Dev → Dev}, (∀ e, Dev.Frame [.log, .dict, .mem, .fus, .kv, .power, .recd] e (work e)) →
      ∀ f slots up, Dev.Frame [.log, .dict, .mem, .fus, .kv, .power, .recd] d (d.readSlots f slots up work).1 :=
    fun h f slots up => Dev.readSlots_frame (by decide) h d f slots up
  unfold Dev.pipWork
  cases d.computing with
  | none => exact Dev.Frame.refl _
  | some c =>
    cases w <;> dsimp only
    case program => exact Dev.Frame.refl _
    case lift => exact (Dev.liftRegion_frame _ _ _ _ _ _).mono (by decide)
    case cellState => exact (Dev.cellState_frame _ _ _).mono (by decide)
    case healthChecks => exact (Dev.healthChecks_frame _ _).mono (by decide)
    case calibrate =>
      exact (Dev.frame_foldl (fun e x => (Dev.calibrateOne_frame _ _ _).mono (by decide)) _ _ _).2 (Dev.Frame.refl _)
    case encode => exact (Dev.encodeBlock_frame _ _ _ _ _ _ _ _).mono (by decide)
    case widen => exact (Dev.widenBlocks_frame _ _ _ _ _ _ _ _).mono (by decide)
    case softmax =>
      exact ((Dev.storeA_frame _ _ _ _).iff (by decide) _).2 ((Dev.softmaxRows_frame _ _ _ _ _ _ _ _).mono (by
      decide))
    case readRecord => split <;> first | exact Dev.Frame.refl _ | exact (Dev.raise_frame _ _ _ _).mono (by decide)
    case buildMask =>
      split
      · exact (Dev.storeA_frame _ _ _ _).mono (by decide)
      · exact ((Dev.count_frame _ _ _).iff (by decide) _).2 ((Dev.storeA_frame _ _ _ _).mono (by decide))
    case merge => exact (Dev.storeA_frame _ _ _ _).mono (by decide)
    case predict => exact rs (fun e => (Dev.predictClass_frame _ _).mono (by decide)) _ _ _
    case costs =>
      exact rs (fun e => (Dev.buildCosts_frame _ _ _ _ _ _ _).mono (by decide)) _ _ _
    case update =>
      exact rs (fun e => (Dev.updateClass_frame _ _ _ _ _).mono (by decide)) _ _ _
    case summary => exact rs (fun e => (Dev.storeA_frame _ _ _ _).mono (by decide)) _ _ _

theorem pipStep_frame (l : Nat) (s : PipStep) (forbidden : Bool) (d : Dev) :
    Dev.Frame [.log, .dict, .pods, .movers, .mem, .sched, .sync, .hull, .power, .recd,
      .out] d (pipStep l s forbidden d) := by
  unfold pipStep
  repeat' (first
    | (simp (disch := first | decide | (intros; (repeat' (first | (simp (disch := decide) only [↓(Dev.endPip_frame _ _ _ _ _).iff, ↓(Dev.modPod_frame _ _ _).iff, ↓(Dev.raise_frame _ _ _ _).iff, ↓(Dev.startEntry_frame _ _ _).iff, ↓Dev.frame_ite, ↓Dev.frame_ite1, ↓Dev.frame_foldl, ↓Dev.frame_foldlPair, ↓Dev.frame_self, implies_true, and_self]) | (with_reducible refine And.intro ?_ ?_) | (with_reducible intro _) | split)))) only [↓(Dev.endPip_frame _ _ _ _ _).iff, ↓(Dev.modPod_frame _ _ _).iff, ↓(Dev.raise_frame _ _ _ _).iff, ↓(Dev.startEntry_frame _ _ _).iff, ↓Dev.frame_ite, ↓Dev.frame_ite1, ↓Dev.frame_foldl, ↓Dev.frame_foldlPair, ↓Dev.frame_self, implies_true, and_self])
    | (with_reducible refine And.intro ?_ ?_)
    | (with_reducible intro _)
    | split)

theorem execPipStep_frame (l : Fin 24) (p : PipStep) (forbidden : Bool) (s : State) :
    ∃ d, execPipStep l p forbidden s = .next { s with dev := d } ∧ Dev.Frame [.log, .dict, .pods, .movers, .mem,
      .sched, .sync, .hull, .power, .recd, .out] s.dev d := ⟨_, rfl, pipStep_frame _ _ _ _⟩

theorem Dev.pipOutput_frame (d : Dev) (l p : Nat) (s : PipStep) (flips : List Byte) (poison : Bool) :
    Dev.Frame [.mem] d (Dev.pipOutput d l p s flips poison).1 := by
  unfold Dev.pipOutput
  simp (disch := decide) only [↓(Dev.store_frame _ _ _).iff, ↓(Dev.storeA_frame _ _ _ _).iff, ↓Dev.frame_ite,
      ↓Dev.frame_ite1, ↓Dev.frame_self, implies_true, and_self]

theorem pipStepComplete_frame (l core : Nat) (flips : List Byte) (ecc : List EccEvent) (d : Dev) :
    Dev.Frame [.log, .dict, .pods, .movers, .mem, .ddr, .sched, .sync, .fus, .kv, .hull, .power, .recd, .out,
      .free] d (pipStepComplete l core flips ecc d) := by
  unfold pipStepComplete
  repeat' (first
    | (simp (disch := decide) only [↓(Dev.bumpFree_frame _).iff, ↓(Dev.endPip_frame _ _ _ _ _).iff,
      ↓(Dev.pipOutput_frame _ _ _ _ _ _).iff, ↓(Dev.pipWork_frame _ _ _ _ _).iff, ↓(Dev.raiseIf_frame _ _ _ _ _).iff,
      ↓(Dev.readKeys_frame _ _ _).iff, ↓Dev.frame_ite, ↓Dev.frame_ite1, ↓Dev.frame_self, implies_true, and_self])
    | (with_reducible refine And.intro ?_ ?_)
    | (with_reducible intro _)
    | split)

theorem execPipStepComplete_frame (l : Fin 24) (core : Fin 4) (flips : List Byte) (ecc : List EccEvent) (s : State) :
    ∃ d, execPipStepComplete l core flips ecc s = .next { s with dev := d } ∧ Dev.Frame [.log, .dict, .pods, .movers,
      .mem, .ddr, .sched, .sync, .fus, .kv, .hull, .power, .recd, .out, .free] s.dev d := ⟨_, rfl, pipStepComplete_frame _ _ _ _ _⟩

theorem pipOverrun_frame (l core : Nat) (d : Dev) :
    Dev.Frame [.log, .dict, .pods, .movers, .mem, .sched, .sync, .hull, .power, .recd, .out] d (pipOverrun l core d) := by
  unfold pipOverrun
  repeat' (first
    | (simp (disch := decide) only [↓(Dev.endPip_frame _ _ _ _ _).iff, ↓(Dev.raise_frame _ _ _ _).iff,
      ↓Dev.frame_ite, ↓Dev.frame_ite1, ↓Dev.frame_self, implies_true, and_self])
    | (with_reducible refine And.intro ?_ ?_)
    | (with_reducible intro _)
    | split)

theorem execPipOverrun_frame (l : Fin 24) (core : Fin 4) (s : State) :
    ∃ d, execPipOverrun l core s = .next { s with dev := d } ∧ Dev.Frame [.log, .dict, .pods, .movers, .mem, .sched,
      .sync, .hull, .power, .recd, .out] s.dev d := ⟨_, rfl, pipOverrun_frame _ _ _⟩

theorem Dev.queueRecord_frame (d : Dev) (s : Nat) (r : OutRecord) (port : Nat) :
    Dev.Frame [.dict, .palca] d (Dev.queueRecord d s r port) := by
  unfold Dev.queueRecord
  simp (disch := decide) only [↓(Dev.occur_frame _ _ _).iff, ↓Dev.frame_palca, ↓Dev.frame_ite, ↓Dev.frame_self,
      implies_true, and_self]

theorem Dev.dueRecord_frame (d : Dev) (f : Fusion) (c : CycleCtx) (discarded : Bool) (s : Nat) :
    Dev.Frame [.dict, .palca] d (Dev.dueRecord d f c discarded s) := by
  unfold Dev.dueRecord
  simp (disch := first | decide | (intros; (repeat' (first | (simp (disch := decide) only [↓(Dev.queueRecord_frame _ _ _ _).iff, ↓Dev.frame_palca, ↓Dev.frame_ite, ↓Dev.frame_ite1, ↓Dev.frame_foldl, ↓Dev.frame_foldlPair, ↓Dev.frame_self, implies_true, and_self]) | (with_reducible refine And.intro ?_ ?_) | (with_reducible intro _) | split)))) only [↓(Dev.queueRecord_frame _ _ _ _).iff, ↓Dev.frame_palca, ↓Dev.frame_ite, ↓Dev.frame_ite1, ↓Dev.frame_foldl, ↓Dev.frame_foldlPair, ↓Dev.frame_self, implies_true, and_self]

theorem Dev.dueRecords_frame (d : Dev) (f : Fusion) (c : CycleCtx) (discarded : Bool) :
    Dev.Frame [.dict, .palca] d (Dev.dueRecords d f c discarded) := by
  unfold Dev.dueRecords
  simp (disch := first | decide | (intros; (repeat' (first | (simp (disch := decide) only [↓(Dev.dueRecord_frame _ _ _ _ _).iff, ↓Dev.frame_foldl, ↓Dev.frame_foldlPair, ↓Dev.frame_self, implies_true, and_self]) | (with_reducible refine And.intro ?_ ?_) | (with_reducible intro _) | split)))) only [↓(Dev.dueRecord_frame _ _ _ _ _).iff, ↓Dev.frame_foldl, ↓Dev.frame_foldlPair, ↓Dev.frame_self, implies_true, and_self]

theorem Dev.bufferContext_frame (d : Dev) (x : Context) :
    Dev.Frame [.log, .dict, .power, .recd] d (Dev.bufferContext d x) := by
  unfold Dev.bufferContext
  repeat' (first
    | (simp (disch := decide) only [↓(Dev.raise_frame _ _ _ _).iff, ↓(Dev.writeContext_frame _ _).iff,
      ↓Dev.frame_recd, ↓Dev.frame_ite, ↓Dev.frame_ite1, ↓Dev.frame_self, implies_true, and_self])
    | (with_reducible refine And.intro ?_ ?_)
    | (with_reducible intro _)
    | split)

theorem Dev.closeCycle_frame (d : Dev) (h : HeldCycle) :
    Dev.Frame [.log, .dict, .power, .recd] d (Dev.closeCycle d h) := by
  unfold Dev.closeCycle
  repeat' (first
    | (simp (disch := first | decide | (intros; (repeat' (first | (simp (disch := decide) only [↓(Dev.bufferContext_frame _ _).iff, ↓(Dev.recordIf_frame _ _ _).iff, ↓Dev.frame_recd, ↓Dev.frame_ite, ↓Dev.frame_ite1, ↓Dev.frame_foldl, ↓Dev.frame_foldlPair, ↓Dev.frame_self, implies_true, and_self]) | (with_reducible refine And.intro ?_ ?_) | (with_reducible intro _) | split)))) only [↓(Dev.bufferContext_frame _ _).iff, ↓(Dev.recordIf_frame _ _ _).iff, ↓Dev.frame_recd, ↓Dev.frame_ite, ↓Dev.frame_ite1, ↓Dev.frame_foldl, ↓Dev.frame_foldlPair, ↓Dev.frame_self, implies_true, and_self])
    | (with_reducible refine And.intro ?_ ?_)
    | (with_reducible intro _)
    | split)

theorem Dev.closeIfSent_frame (d : Dev) :
    Dev.Frame [.log, .dict, .power, .recd] d (Dev.closeIfSent d) := by
  unfold Dev.closeIfSent
  repeat' (first
    | (simp (disch := first | decide | (intros; (repeat' (first | (simp (disch := decide) only [↓(Dev.closeCycle_frame _ _).iff, ↓Dev.frame_foldl, ↓Dev.frame_foldlPair, ↓Dev.frame_self, implies_true, and_self]) | (with_reducible refine And.intro ?_ ?_) | (with_reducible intro _) | split)))) only [↓(Dev.closeCycle_frame _ _).iff, ↓Dev.frame_foldl, ↓Dev.frame_foldlPair, ↓Dev.frame_self, implies_true, and_self])
    | (with_reducible refine And.intro ?_ ?_)
    | (with_reducible intro _)
    | split)

theorem Dev.holdCycle_frame (d : Dev) (f : Fusion) (c : CycleCtx) (discarded : Bool) (summary : List Byte) :
    Dev.Frame [.recd] d (Dev.holdCycle d f c discarded summary) := by
  unfold Dev.holdCycle
  simp (disch := decide) only [↓Dev.frame_recd, ↓Dev.frame_self]

theorem Dev.stampStream_frame (d : Dev) (r : OutRecord) :
    Dev.Frame [.palca, .recd] d (Dev.stampStream d r) := by
  unfold Dev.stampStream
  split
  · exact Dev.Frame.refl _
  · exact (Dev.frame_recd (by decide)).2 ((Dev.frame_palca (by decide)).2 (Dev.Frame.refl _))

theorem Dev.advanceRecord_frame (d : Dev) (r : OutRecord) :
    Dev.Frame [.dict, .palca] d (Dev.advanceRecord d r) := by
  unfold Dev.advanceRecord
  simp (disch := decide) only [↓(Dev.count_frame _ _ _).iff, ↓Dev.frame_palca, ↓Dev.frame_ite, ↓Dev.frame_self,
      implies_true, and_self]

theorem Dev.takeFragment_frame (d : Dev) (r0 : OutRecord) :
    Dev.Frame [.log, .dict, .palca, .power, .recd] d (Dev.takeFragment d r0).1 := by
  unfold Dev.takeFragment
  simp (disch := decide) only [↓(Dev.advanceRecord_frame _ _).iff, ↓(Dev.closeIfSent_frame _).iff,
      ↓(Dev.stampStream_frame _ _).iff, ↓Dev.frame_self]

theorem Dev.sendFragment_frame (d : Dev) (r0 : OutRecord) :
    Dev.Frame [.log, .dict, .palca, .power, .recd, .out] d (Dev.sendFragment d r0) := by
  unfold Dev.sendFragment
  simp (disch := decide) only [↓(Dev.emitHost_frame _ _ _ _ _).iff, ↓(Dev.takeFragment_frame _ _).iff,
      ↓Dev.frame_self]

theorem fragmentTransmit_frame (port : Nat) (d : Dev) :
    Dev.Frame [.log, .dict, .palca, .power, .recd, .out] d (fragmentTransmit port d) := by
  unfold fragmentTransmit
  repeat' (first
    | (simp (disch := decide) only [↓(Dev.flushService_frame _ _).iff, ↓(Dev.sendFragment_frame _ _).iff,
      ↓Dev.frame_ite, ↓Dev.frame_ite1, ↓Dev.frame_self, implies_true, and_self])
    | (with_reducible refine And.intro ?_ ?_)
    | (with_reducible intro _)
    | split)

theorem execFragmentTransmit_frame (port : Fin 3) (s : State) :
    ∃ d, execFragmentTransmit port s = .next { s with dev := d } ∧ Dev.Frame [.log, .dict, .palca, .power, .recd,
      .out] s.dev d := ⟨_, rfl, fragmentTransmit_frame _ _⟩

theorem Dev.dropPort_frame (d : Dev) (port : Nat) :
    Dev.Frame [.log, .dict, .palca, .power, .recd] d (Dev.dropPort d port) := by
  unfold Dev.dropPort
  simp (disch := first | decide | (intros; (repeat' (first | (simp (disch := decide) only [↓(Dev.closeIfSent_frame _).iff, ↓(Dev.occur_frame _ _ _).iff, ↓Dev.frame_palca, ↓Dev.frame_foldl, ↓Dev.frame_foldlPair, ↓Dev.frame_self, implies_true, and_self]) | (with_reducible refine And.intro ?_ ?_) | (with_reducible intro _) | split)))) only [↓(Dev.closeIfSent_frame _).iff, ↓(Dev.occur_frame _ _ _).iff, ↓Dev.frame_palca, ↓Dev.frame_foldl, ↓Dev.frame_foldlPair, ↓Dev.frame_self, implies_true, and_self]

theorem Dev.raiseRefusal_frame (d : Dev) (c : Nat) :
    Dev.Frame [.log, .dict, .power, .recd] d (Dev.raiseRefusal d c) := by
  unfold Dev.raiseRefusal
  simp (disch := decide) only [↓(Dev.raiseIf_frame _ _ _ _ _).iff, ↓Dev.frame_self]

theorem Dev.resetFusion_frame (d : Dev) :
    Dev.Frame [.fus, .kv] d (Dev.resetFusion d) := by
  unfold Dev.resetFusion
  simp (disch := decide) only [↓(Dev.emptyRings_frame _).iff, ↓Dev.frame_fus, ↓Dev.frame_self]

theorem Dev.resetHull_frame (d : Dev) :
    Dev.Frame [.hull] d (Dev.resetHull d) := by
  unfold Dev.resetHull
  simp (disch := decide) only [↓Dev.frame_hull, ↓Dev.frame_self]

theorem Dev.enterRun_frame (d : Dev) :
    Dev.Frame [.time, .log, .dict, .cyc, .intake, .sched, .fus, .kv, .hull, .power, .recd] d (Dev.enterRun d) := by
  unfold Dev.enterRun
  simp (disch := decide) only [↓(Dev.rescheduleTrigs_frame _).iff, ↓(Dev.resetFusion_frame _).iff,
      ↓(Dev.resetHull_frame _).iff, ↓Dev.frame_cyc_intake_sched, ↓Dev.frame_self]

theorem Dev.leaveRun_frame (d : Dev) (st : PowerState) :
    Dev.Frame [.dict, .cyc, .hull, .twin, .palca, .power, .out] d (Dev.leaveRun d st) := by
  unfold Dev.leaveRun
  simp (disch := decide) only [↓(Dev.occur_frame _ _ _).iff, ↓(Dev.sendCommand_frame _).iff,
      ↓(Dev.sendDecision_frame _).iff, ↓(Dev.sendStatus_frame _).iff, ↓Dev.frame_cyc, ↓Dev.frame_hull,
      ↓Dev.frame_power, ↓Dev.frame_cyc_hull, ↓Dev.frame_cyc_hull_power, ↓Dev.frame_ite, ↓Dev.frame_ite1,
      ↓Dev.frame_self, implies_true, and_self]

theorem Dev.syncSlot_frame (d : Dev) (n : Nat) :
    Dev.Frame [.dict, .intake] d (Dev.syncSlot d n) := by
  unfold Dev.syncSlot
  simp (disch := decide) only [↓(Dev.modSlot_frame _ _ _).iff, ↓(Dev.slotFault_frame _ _ _).iff, ↓Dev.frame_ite,
      ↓Dev.frame_self, implies_true, and_self]

theorem Dev.wrote_frame (d : Dev) (idx sub : Nat) :
    Dev.Frame [.time, .log, .dict, .intake, .fus, .palca, .power, .recd] d (Dev.wrote d idx sub) := by
  unfold Dev.wrote
  simp (disch := decide) only [↓(Dev.adoptTrigs_frame _).iff, ↓(Dev.syncDomain_frame _ _).iff,
      ↓(Dev.syncSlot_frame _ _).iff, ↓Dev.frame_fus, ↓Dev.frame_palca, ↓Dev.frame_ite, ↓Dev.frame_self, implies_true,
      and_self]

theorem Dev.modPkgSlot_frame (d : Dev) (s : Nat) (f : PkgSlot → PkgSlot) :
    Dev.Frame [.prog] d (Dev.modPkgSlot d s f) := by
  unfold Dev.modPkgSlot
  simp (disch := decide) only [↓Dev.frame_prog, ↓Dev.frame_self]

theorem Dev.refusePkg_frame (d : Dev) (s cause : Nat) :
    Dev.Frame [.log, .dict, .prog, .power, .recd] d (Dev.refusePkg d s cause) := by
  unfold Dev.refusePkg
  simp (disch := decide) only [↓(Dev.modPkgSlot_frame _ _ _).iff, ↓(Dev.raise_frame _ _ _ _).iff,
      ↓(Dev.raiseIf_frame _ _ _ _ _).iff, ↓Dev.frame_self]

theorem Dev.pkgRefused_frame (d : Dev) :
    Dev.Frame [.log, .dict, .power, .recd] d (Dev.pkgRefused d).1 := by
  unfold Dev.pkgRefused
  simp (disch := decide) only [↓(Dev.raise_frame _ _ _ _).iff, ↓Dev.frame_self]

theorem writeLoadSlot_frame (v : List Nat) (d : Dev) :
    Dev.Frame [.log, .dict, .prog, .power, .recd] d (writeLoadSlot v d).1 := by
  unfold writeLoadSlot
  simp (disch := decide) only [↓(Dev.pkgRefused_frame _).iff, ↓Dev.frame_prog, ↓Dev.frame_ite1, ↓Dev.frame_self,
      implies_true, and_self]

theorem loadSlot_frame (r : Req) (slot : Byte) (d : Dev) :
    Dev.Frame [.log, .dict, .prog, .palca, .power, .recd, .out] d (loadSlot r slot d) := by
  unfold loadSlot
  repeat' (first
    | (refine Dev.writeWith_frame (by decide) ?_ _ _ _ _ _ _ _)
    | (simp (disch := decide) only [↓(writeLoadSlot_frame _ _).iff, ↓Dev.frame_self, implies_true])
    | (with_reducible refine And.intro ?_ ?_)
    | (with_reducible intro _) | split)

theorem execLoadSlot_frame (r : Req) (slot : Byte) (s : State) :
    ∃ d, execLoadSlot r slot s = .next { s with dev := d } ∧ Dev.Frame [.log, .dict, .prog, .palca, .power, .recd,
      .out] s.dev d := ⟨_, rfl, loadSlot_frame _ _ _⟩

theorem Dev.startLoad_frame (d : Dev) (s : Nat) :
    Dev.Frame [.prog] d (Dev.startLoad d s) := by
  unfold Dev.startLoad
  simp (disch := decide) only [↓(Dev.modPkgSlot_frame _ _ _).iff, ↓Dev.frame_prog, ↓Dev.frame_self]

theorem Dev.endLoad_frame (d : Dev) (s : Nat) (image : List Byte) (content : Option PkgContent) :
    Dev.Frame [.log, .dict, .prog, .power, .recd] d (Dev.endLoad d s image content) := by
  unfold Dev.endLoad
  repeat' (first
    | (simp (disch := decide) only [↓(Dev.modPkgSlot_frame _ _ _).iff, ↓(Dev.refusePkg_frame _ _ _).iff,
      ↓Dev.frame_prog, ↓Dev.frame_self, implies_true, and_self])
    | (with_reducible refine And.intro ?_ ?_)
    | (with_reducible intro _)
    | split)

theorem Dev.dropLoad_frame (d : Dev) :
    Dev.Frame [.prog] d (Dev.dropLoad d) := by
  unfold Dev.dropLoad
  simp (disch := first | decide | (intros; (repeat' (first | (simp (disch := decide) only [↓(Dev.modPkgSlot_frame _ _ _).iff, ↓Dev.frame_prog, ↓Dev.frame_ite, ↓Dev.frame_ite1, ↓Dev.frame_foldl, ↓Dev.frame_foldlPair, ↓Dev.frame_self, implies_true, and_self]) | (with_reducible refine And.intro ?_ ?_) | (with_reducible intro _) | split)))) only [↓(Dev.modPkgSlot_frame _ _ _).iff, ↓Dev.frame_prog, ↓Dev.frame_ite, ↓Dev.frame_ite1, ↓Dev.frame_foldl, ↓Dev.frame_foldlPair, ↓Dev.frame_self, implies_true, and_self]

theorem Dev.abortTransfer_frame (d : Dev) (x : Transfer) :
    Dev.Frame [.log, .dict, .prog, .palca, .power, .recd] d (Dev.abortTransfer d x) := by
  unfold Dev.abortTransfer
  simp (disch := decide) only [↓(Dev.dropLoad_frame _).iff, ↓(Dev.raise_frame _ _ _ _).iff, ↓Dev.frame_palca,
      ↓Dev.frame_ite, ↓Dev.frame_self, implies_true, and_self]

theorem Dev.endTransfers_frame (d : Dev) :
    Dev.Frame [.log, .dict, .prog, .palca, .power, .recd] d (Dev.endTransfers d) := by
  unfold Dev.endTransfers
  simp (disch := first | decide | (intros; (repeat' (first | (simp (disch := decide) only [↓(Dev.abortTransfer_frame _ _).iff, ↓Dev.frame_foldl, ↓Dev.frame_foldlPair, ↓Dev.frame_self, implies_true, and_self]) | (with_reducible refine And.intro ?_ ?_) | (with_reducible intro _) | split)))) only [↓(Dev.abortTransfer_frame _ _).iff, ↓Dev.frame_foldl, ↓Dev.frame_foldlPair, ↓Dev.frame_self, implies_true, and_self]

theorem Dev.reach_frame (d : Dev) (st : PowerState) :
    Dev.Frame [.log, .dict, .prog, .palca, .power, .recd] d (Dev.reach d st) := by
  unfold Dev.reach
  simp (disch := decide) only [↓(Dev.endTransfers_frame _).iff, ↓(Dev.modPower_frame _ _).iff, ↓Dev.frame_self]

theorem Dev.storeDefault_frame (d : Dev) (all : Bool) (x : Nat × List Nat) :
    Dev.Frame [.time, .log, .dict, .intake, .fus, .palca, .power, .recd] d (Dev.storeDefault d all x) := by
  unfold Dev.storeDefault
  repeat' (first
    | (simp (disch := decide) only [↓(Dev.persist_frame _ _ _).iff, ↓(Dev.setObj_frame _ _ _ _).iff,
      ↓(Dev.wrote_frame _ _ _).iff, ↓Dev.frame_ite, ↓Dev.frame_ite1, ↓Dev.frame_self, implies_true, and_self])
    | (with_reducible refine And.intro ?_ ?_)
    | (with_reducible intro _)
    | split)

theorem Dev.setFrom_frame (d : Dev) (idx sub : Nat) (l : List Nat) :
    Dev.Frame [.dict] d (Dev.setFrom d idx sub l) := by
  unfold Dev.setFrom
  simp (disch := first | decide | (intros; (repeat' (first | (simp (disch := decide) only [↓(Dev.setObj_frame _ _ _ _).iff, ↓Dev.frame_foldl, ↓Dev.frame_foldlPair, ↓Dev.frame_self, implies_true, and_self]) | (with_reducible refine And.intro ?_ ?_) | (with_reducible intro _) | split)))) only [↓(Dev.setObj_frame _ _ _ _).iff, ↓Dev.frame_foldl, ↓Dev.frame_foldlPair, ↓Dev.frame_self, implies_true, and_self]

theorem Dev.reportPackage_frame (d : Dev) (p : Package) :
    Dev.Frame [.dict] d (Dev.reportPackage d p) := by
  unfold Dev.reportPackage
  simp (disch := first | decide | (intros; (repeat' (first | (simp (disch := decide) only [↓(Dev.setFrom_frame _ _ _ _).iff, ↓(Dev.setObj_frame _ _ _ _).iff, ↓Dev.frame_foldl, ↓Dev.frame_foldlPair, ↓Dev.frame_self, implies_true, and_self]) | (with_reducible refine And.intro ?_ ?_) | (with_reducible intro _) | split)))) only [↓(Dev.setFrom_frame _ _ _ _).iff, ↓(Dev.setObj_frame _ _ _ _).iff, ↓Dev.frame_foldl, ↓Dev.frame_foldlPair, ↓Dev.frame_self, implies_true, and_self]

theorem Dev.loadWindows_frame (d : Dev) (p : Package) :
    Dev.Frame [.pods] d (Dev.loadWindows d p) := by
  unfold Dev.loadWindows
  simp (disch := first | decide | (intros; (repeat' (first | (simp (disch := decide) only [↓(Dev.modPod_frame _ _ _).iff, ↓Dev.frame_foldl, ↓Dev.frame_foldlPair, ↓Dev.frame_self, implies_true, and_self]) | (with_reducible refine And.intro ?_ ?_) | (with_reducible intro _) | split)))) only [↓(Dev.modPod_frame _ _ _).iff, ↓Dev.frame_foldl, ↓Dev.frame_foldlPair, ↓Dev.frame_self, implies_true, and_self]

theorem Dev.loadPackage_frame (d : Dev) (p : Package) :
    Dev.Frame [.dict, .pods, .mem, .prog, .sched, .sync, .fus, .kv] d (Dev.loadPackage d p) := by
  unfold Dev.loadPackage
  simp (disch := first | decide | (intros; (repeat' (first | (simp (disch := decide) only [↓(Dev.emptyRings_frame _).iff, ↓(Dev.loadWindows_frame _ _).iff, ↓(Dev.reportPackage_frame _ _).iff, ↓(Dev.setObj_frame _ _ _ _).iff, ↓(Dev.storeA_frame _ _ _ _).iff, ↓Dev.frame_prog, ↓Dev.frame_sched, ↓Dev.frame_sync, ↓Dev.frame_fus, ↓Dev.frame_sched_sync_fus, ↓Dev.frame_ite, ↓Dev.frame_ite1, ↓Dev.frame_foldl, ↓Dev.frame_foldlPair, ↓Dev.frame_self, implies_true, and_self]) | (with_reducible refine And.intro ?_ ?_) | (with_reducible intro _) | split)))) only [↓(Dev.emptyRings_frame _).iff, ↓(Dev.loadWindows_frame _ _).iff, ↓(Dev.reportPackage_frame _ _).iff, ↓(Dev.setObj_frame _ _ _ _).iff, ↓(Dev.storeA_frame _ _ _ _).iff, ↓Dev.frame_prog, ↓Dev.frame_sched, ↓Dev.frame_sync, ↓Dev.frame_fus, ↓Dev.frame_sched_sync_fus, ↓Dev.frame_ite, ↓Dev.frame_ite1, ↓Dev.frame_foldl, ↓Dev.frame_foldlPair, ↓Dev.frame_self, implies_true, and_self]

theorem Dev.activateSlot_frame (d : Dev) (s : Nat) :
    Dev.Frame [.time, .log, .dict, .intake, .pods, .mem, .prog, .sched, .sync, .fus, .kv, .palca, .power,
      .recd] d (Dev.activateSlot d s).1 := by
  unfold Dev.activateSlot
  repeat' (first
    | (simp (disch := first | decide | (intros; (repeat' (first | (simp (disch := decide) only [↓(Dev.loadPackage_frame _ _).iff, ↓(Dev.raiseIf_frame _ _ _ _ _).iff, ↓(Dev.recomputeCrc_frame _).iff, ↓(Dev.refusePkg_frame _ _ _).iff, ↓(Dev.storeDefault_frame _ _ _).iff, ↓Dev.frame_prog, ↓Dev.frame_foldl, ↓Dev.frame_foldlPair, ↓Dev.frame_self, implies_true, and_self]) | (with_reducible refine And.intro ?_ ?_) | (with_reducible intro _) | split)))) only [↓(Dev.loadPackage_frame _ _).iff, ↓(Dev.raiseIf_frame _ _ _ _ _).iff, ↓(Dev.recomputeCrc_frame _).iff, ↓(Dev.refusePkg_frame _ _ _).iff, ↓(Dev.storeDefault_frame _ _ _).iff, ↓Dev.frame_prog, ↓Dev.frame_foldl, ↓Dev.frame_foldlPair, ↓Dev.frame_self, implies_true, and_self])
    | (with_reducible refine And.intro ?_ ?_)
    | (with_reducible intro _)
    | split)

theorem writeActivate_frame (v : List Nat) (d : Dev) :
    Dev.Frame [.log, .dict, .cyc, .prog, .power, .recd] d (writeActivate v d).1 := by
  unfold writeActivate
  simp (disch := decide) only [↓(Dev.modPower_frame _ _).iff, ↓(Dev.pkgRefused_frame _).iff, ↓Dev.frame_cyc,
      ↓Dev.frame_prog, ↓Dev.frame_cyc_prog, ↓Dev.frame_ite1, ↓Dev.frame_self, implies_true, and_self]

theorem activate_frame (r : Req) (slot : Byte) (d : Dev) :
    Dev.Frame [.log, .dict, .cyc, .prog, .palca, .power, .recd, .out] d (activate r slot d) := by
  unfold activate
  repeat' (first
    | (refine Dev.writeWith_frame (by decide) ?_ _ _ _ _ _ _ _)
    | (simp (disch := decide) only [↓(writeActivate_frame _ _).iff, ↓Dev.frame_self, implies_true])
    | (with_reducible refine And.intro ?_ ?_)
    | (with_reducible intro _) | split)

theorem execActivate_frame (r : Req) (slot : Byte) (s : State) :
    ∃ d, execActivate r slot s = .next { s with dev := d } ∧ Dev.Frame [.log, .dict, .cyc, .prog, .palca, .power,
      .recd, .out] s.dev d := ⟨_, rfl, activate_frame _ _ _⟩

theorem Dev.markTrial_frame (d : Dev) (s : Nat) (prev : Option Nat) :
    Dev.Frame [.prog] d (Dev.markTrial d s prev) := by
  unfold Dev.markTrial
  simp (disch := decide) only [↓(Dev.modPkgSlot_frame _ _ _).iff, ↓Dev.frame_prog, ↓Dev.frame_self]

theorem activationComplete_frame (d : Dev) :
    Dev.Frame [.time, .log, .dict, .intake, .pods, .mem, .prog, .sched, .sync, .fus, .kv, .palca, .power,
      .recd] d (activationComplete d) := by
  unfold activationComplete
  repeat' (first
    | (simp (disch := decide) only [↓(Dev.activateSlot_frame _ _).iff, ↓(Dev.markTrial_frame _ _ _).iff,
      ↓Dev.frame_prog, ↓Dev.frame_ite, ↓Dev.frame_ite1, ↓Dev.frame_self, implies_true, and_self])
    | (with_reducible refine And.intro ?_ ?_)
    | (with_reducible intro _)
    | split)

theorem execActivationComplete_frame (s : State) :
    ∃ d, execActivationComplete s = .next { s with dev := d } ∧ Dev.Frame [.time, .log, .dict, .intake, .pods, .mem,
      .prog, .sched, .sync, .fus, .kv, .palca, .power, .recd] s.dev d := ⟨_, rfl, activationComplete_frame _⟩

theorem writeConfirm_frame (v : List Nat) (d : Dev) :
    Dev.Frame [.log, .dict, .prog, .power, .recd] d (writeConfirm v d).1 := by
  unfold writeConfirm
  repeat' (first
    | (simp (disch := decide) only [↓(Dev.modPkgSlot_frame _ _ _).iff, ↓(Dev.pkgRefused_frame _).iff,
      ↓Dev.frame_prog, ↓Dev.frame_ite, ↓Dev.frame_ite1, ↓Dev.frame_self, implies_true, and_self])
    | (with_reducible refine And.intro ?_ ?_)
    | (with_reducible intro _)
    | split)

theorem confirm_frame (r : Req) (value : Byte) (d : Dev) :
    Dev.Frame [.log, .dict, .prog, .palca, .power, .recd, .out] d (confirm r value d) := by
  unfold confirm
  repeat' (first
    | (refine Dev.writeWith_frame (by decide) ?_ _ _ _ _ _ _ _)
    | (simp (disch := decide) only [↓(writeConfirm_frame _ _).iff, ↓Dev.frame_self, implies_true])
    | (with_reducible refine And.intro ?_ ?_)
    | (with_reducible intro _) | split)

theorem execConfirm_frame (r : Req) (value : Byte) (s : State) :
    ∃ d, execConfirm r value s = .next { s with dev := d } ∧ Dev.Frame [.log, .dict, .prog, .palca, .power, .recd,
      .out] s.dev d := ⟨_, rfl, confirm_frame _ _ _⟩

theorem writeSecVersion_frame (v : List Nat) (d : Dev) :
    Dev.Frame [.log, .dict, .power, .recd] d (writeSecVersion v d).1 := by
  unfold writeSecVersion
  simp (disch := decide) only [↓(Dev.pkgRefused_frame _).iff, ↓(Dev.put_frame _ _ _ _).iff, ↓Dev.frame_ite1,
      ↓Dev.frame_self, implies_true, and_self]

theorem minimumSecurityVersion_frame (r : Req) (value : Nat) (d : Dev) :
    Dev.Frame [.log, .dict, .palca, .power, .recd, .out] d (minimumSecurityVersion r value d) := by
  unfold minimumSecurityVersion
  repeat' (first
    | (refine Dev.writeWith_frame (by decide) ?_ _ _ _ _ _ _ _)
    | (simp (disch := decide) only [↓(writeSecVersion_frame _ _).iff, ↓Dev.frame_self, implies_true])
    | (with_reducible refine And.intro ?_ ?_)
    | (with_reducible intro _) | split)

theorem execMinimumSecurityVersion_frame (r : Req) (value : BitVec 32) (s : State) :
    ∃ d, execMinimumSecurityVersion r value s = .next { s with dev := d } ∧ Dev.Frame [.log, .dict, .palca, .power,
      .recd, .out] s.dev d := ⟨_, rfl, minimumSecurityVersion_frame _ _ _⟩

theorem Dev.dropTrial_frame (d : Dev) :
    Dev.Frame [.log, .dict, .prog, .power, .recd] d (Dev.dropTrial d) := by
  unfold Dev.dropTrial
  repeat' (first
    | (simp (disch := decide) only [↓(Dev.modPkgSlot_frame _ _ _).iff, ↓(Dev.raise_frame _ _ _ _).iff,
      ↓Dev.frame_prog, ↓Dev.frame_self, implies_true, and_self])
    | (with_reducible refine And.intro ?_ ?_)
    | (with_reducible intro _)
    | split)

theorem Dev.runAs_frame (d : Dev) (s : Nat) :
    Dev.Frame [.prog] d (Dev.runAs d s) := by
  unfold Dev.runAs
  simp (disch := decide) only [↓(Dev.modPkgSlot_frame _ _ _).iff, ↓Dev.frame_self]

theorem Dev.bootPackage_frame (d : Dev) :
    Dev.Frame [.time, .log, .dict, .intake, .pods, .mem, .prog, .sched, .sync, .fus, .kv, .palca, .power,
      .recd] d (Dev.bootPackage d).1 := by
  unfold Dev.bootPackage
  repeat' (first
    | (simp (disch := decide) only [↓(Dev.activateSlot_frame _ _).iff, ↓(Dev.dropTrial_frame _).iff,
      ↓(Dev.raise_frame _ _ _ _).iff, ↓(Dev.runAs_frame _ _).iff, ↓Dev.frame_prog, ↓Dev.frame_ite, ↓Dev.frame_ite1,
      ↓Dev.frame_self, implies_true, and_self])
    | (with_reducible refine And.intro ?_ ?_)
    | (with_reducible intro _)
    | split)

end Sys2Proof.Machine
end

