-- ==== Sys2Proof/Laws/FramesState.lean ====
section
/-! SUPPORT. Frames: what start-up, transitions, cycles, requests and ports change; one lemma for each operation and each command. -/

set_option linter.unusedSimpArgs false
set_option linter.unusedTactic false
set_option linter.unreachableTactic false

namespace Sys2Proof.Machine

open Sys2Proof

theorem Dev.modStart_frame (d : Dev) (f : Startup → Startup) :
    Dev.Frame [.start] d (Dev.modStart d f) := by
  unfold Dev.modStart
  simp (disch := decide) only [↓Dev.frame_start, ↓Dev.frame_self]

theorem powerOn_frame (d : Dev) :
    Dev.Frame [.power, .start] d (powerOn d) := by
  unfold powerOn
  simp (disch := decide) only [↓(Dev.modPower_frame _ _).iff, ↓(Dev.modStart_frame _ _).iff, ↓Dev.frame_ite,
      ↓Dev.frame_self, implies_true, and_self]

theorem execPowerOn_frame (s : State) :
    ∃ d, execPowerOn s = .next { s with dev := d } ∧ Dev.Frame [.power, .start] s.dev d := ⟨_, rfl, powerOn_frame _⟩

theorem vhuskRemoved_frame (d : Dev) :
    Dev.Frame [.time, .log, .dict, .cyc, .intake, .pods, .movers, .mem, .ddr, .prog, .sched, .sync, .cover, .fus,
      .kv, .solvers, .hull, .twin, .palca, .power, .start, .recd, .sec, .edge, .out] d (vhuskRemoved d) := by
  unfold vhuskRemoved
  simp (disch := decide) only [↓(Dev.modPower_frame _ _).iff, ↓(Dev.powerDown_frame _ _ _ _).iff, ↓Dev.frame_ite,
      ↓Dev.frame_self, implies_true, and_self]

theorem execVhuskRemoved_frame (s : State) :
    ∃ d, execVhuskRemoved s = .next { s with dev := d } ∧ Dev.Frame [.time, .log, .dict, .cyc, .intake, .pods,
      .movers, .mem, .ddr, .prog, .sched, .sync, .cover, .fus, .kv, .solvers, .hull, .twin, .palca, .power, .start,
      .recd, .sec, .edge, .out] s.dev d := ⟨_, rfl, vhuskRemoved_frame _⟩

theorem Dev.beginStart_frame (d : Dev) :
    Dev.Frame [.start] d (Dev.beginStart d) := by
  unfold Dev.beginStart
  simp (disch := decide) only [↓(Dev.modStart_frame _ _).iff, ↓Dev.frame_self]

theorem startMoment_frame (d : Dev) :
    Dev.Frame [.start] d (startMoment d) := by
  unfold startMoment
  simp (disch := decide) only [↓(Dev.beginStart_frame _).iff, ↓Dev.frame_ite, ↓Dev.frame_self, implies_true, and_self]

theorem execStartMoment_frame (s : State) :
    ∃ d, execStartMoment s = .next { s with dev := d } ∧ Dev.Frame [.start] s.dev d := ⟨_, rfl, startMoment_frame _⟩

theorem wakeN_frame (d : Dev) :
    Dev.Frame [.start] d (wakeN d) := by
  unfold wakeN
  simp (disch := decide) only [↓(Dev.beginStart_frame _).iff, ↓Dev.frame_ite, ↓Dev.frame_self, implies_true, and_self]

theorem execWakeN_frame (s : State) :
    ∃ d, execWakeN s = .next { s with dev := d } ∧ Dev.Frame [.start] s.dev d := ⟨_, rfl, wakeN_frame _⟩

theorem Dev.awaitStart_frame (d : Dev) :
    Dev.Frame [.start] d (Dev.awaitStart d) := by
  unfold Dev.awaitStart
  simp (disch := decide) only [↓(Dev.modStart_frame _ _).iff, ↓Dev.frame_ite, ↓Dev.frame_self, implies_true, and_self]

theorem pwrOkRising_frame (d : Dev) :
    Dev.Frame [.power, .start] d (pwrOkRising d) := by
  unfold pwrOkRising
  simp (disch := decide) only [↓(Dev.awaitStart_frame _).iff, ↓(Dev.modPower_frame _ _).iff, ↓Dev.frame_ite,
      ↓Dev.frame_self, implies_true, and_self]

theorem execPwrOkRising_frame (s : State) :
    ∃ d, execPwrOkRising s = .next { s with dev := d } ∧ Dev.Frame [.power, .start] s.dev d := ⟨_, rfl, pwrOkRising_frame _⟩

theorem pwrOkFalling_frame (d : Dev) :
    Dev.Frame [.time, .log, .dict, .cyc, .intake, .pods, .movers, .mem, .ddr, .prog, .sched, .sync, .cover, .fus,
      .kv, .solvers, .hull, .twin, .palca, .power, .start, .recd, .sec, .edge, .out] d (pwrOkFalling d) := by
  unfold pwrOkFalling
  simp (disch := decide) only [↓(Dev.modPower_frame _ _).iff, ↓(Dev.toHusk_frame _ _ _ _).iff, ↓Dev.frame_ite,
      ↓Dev.frame_self, implies_true, and_self]

theorem execPwrOkFalling_frame (s : State) :
    ∃ d, execPwrOkFalling s = .next { s with dev := d } ∧ Dev.Frame [.time, .log, .dict, .cyc, .intake, .pods,
      .movers, .mem, .ddr, .prog, .sched, .sync, .cover, .fus, .kv, .solvers, .hull, .twin, .palca, .power, .start,
      .recd, .sec, .edge, .out] s.dev d := ⟨_, rfl, pwrOkFalling_frame _⟩

theorem resetNAssert_frame (d : Dev) :
    Dev.Frame [.time, .log, .dict, .cyc, .intake, .pods, .movers, .mem, .ddr, .prog, .sched, .sync, .cover, .fus,
      .kv, .solvers, .hull, .twin, .palca, .power, .start, .recd, .sec, .edge, .out] d (resetNAssert d) := by
  unfold resetNAssert
  simp (disch := decide) only [↓(Dev.modPower_frame _ _).iff, ↓(Dev.resetDevice_frame _ _ _ _).iff, ↓Dev.frame_ite,
      ↓Dev.frame_self, implies_true, and_self]

theorem execResetNAssert_frame (s : State) :
    ∃ d, execResetNAssert s = .next { s with dev := d } ∧ Dev.Frame [.time, .log, .dict, .cyc, .intake, .pods,
      .movers, .mem, .ddr, .prog, .sched, .sync, .cover, .fus, .kv, .solvers, .hull, .twin, .palca, .power, .start,
      .recd, .sec, .edge, .out] s.dev d := ⟨_, rfl, resetNAssert_frame _⟩

theorem resetNRelease_frame (d : Dev) :
    Dev.Frame [.power, .start] d (resetNRelease d) := by
  unfold resetNRelease
  simp (disch := decide) only [↓(Dev.awaitStart_frame _).iff, ↓(Dev.modPower_frame _ _).iff, ↓Dev.frame_self]

theorem execResetNRelease_frame (s : State) :
    ∃ d, execResetNRelease s = .next { s with dev := d } ∧ Dev.Frame [.power, .start] s.dev d := ⟨_, rfl, resetNRelease_frame _⟩

theorem debugReset_frame (d : Dev) :
    Dev.Frame [.time, .log, .dict, .cyc, .intake, .pods, .movers, .mem, .ddr, .prog, .sched, .sync, .cover, .fus,
      .kv, .solvers, .hull, .twin, .palca, .power, .start, .recd, .sec, .edge, .out] d (debugReset d) := by
  unfold debugReset
  simp (disch := decide) only [↓(Dev.resetDevice_frame _ _ _ _).iff, ↓Dev.frame_ite, ↓Dev.frame_self, implies_true,
      and_self]

theorem execDebugReset_frame (s : State) :
    ∃ d, execDebugReset s = .next { s with dev := d } ∧ Dev.Frame [.time, .log, .dict, .cyc, .intake, .pods, .movers,
      .mem, .ddr, .prog, .sched, .sync, .cover, .fus, .kv, .solvers, .hull, .twin, .palca, .power, .start, .recd,
      .sec, .edge, .out] s.dev d := ⟨_, rfl, debugReset_frame _⟩

theorem Dev.stepDone_frame (d : Dev) (n : Nat) :
    Dev.Frame [.start] d (Dev.stepDone d n) := by
  unfold Dev.stepDone
  simp (disch := decide) only [↓(Dev.modStart_frame _ _).iff, ↓Dev.frame_self]

theorem Dev.stopStart_frame (d : Dev) :
    Dev.Frame [.start] d (Dev.stopStart d) := by
  unfold Dev.stopStart
  simp (disch := decide) only [↓(Dev.modStart_frame _ _).iff, ↓Dev.frame_self]

theorem Dev.retain_frame (d : Dev) (c : Nat) :
    Dev.Frame [.power] d (Dev.retain d c) := by
  unfold Dev.retain
  simp (disch := decide) only [↓(Dev.modPower_frame _ _).iff, ↓Dev.frame_self]

theorem watchdogReset_frame (d : Dev) :
    Dev.Frame [.time, .log, .dict, .cyc, .intake, .pods, .movers, .mem, .ddr, .prog, .sched, .sync, .cover, .fus,
      .kv, .solvers, .hull, .twin, .palca, .power, .start, .recd, .sec, .edge, .out] d (watchdogReset d) := by
  unfold watchdogReset
  repeat' (first
    | (simp (disch := decide) only [↓(Dev.modPower_frame _ _).iff, ↓(Dev.resetDevice_frame _ _ _ _).iff,
      ↓Dev.frame_ite, ↓Dev.frame_ite1, ↓Dev.frame_self, implies_true, and_self])
    | (with_reducible refine And.intro ?_ ?_)
    | (with_reducible intro _)
    | split)

theorem execWatchdogReset_frame (s : State) :
    ∃ d, execWatchdogReset s = .next { s with dev := d } ∧ Dev.Frame [.time, .log, .dict, .cyc, .intake, .pods,
      .movers, .mem, .ddr, .prog, .sched, .sync, .cover, .fus, .kv, .solvers, .hull, .twin, .palca, .power, .start,
      .recd, .sec, .edge, .out] s.dev d := ⟨_, rfl, watchdogReset_frame _⟩

theorem step1_frame (r : StepResult) (d : Dev) :
    Dev.Frame [.power, .start] d (step1 r d) := by
  unfold step1
  simp (disch := decide) only [↓(Dev.modPower_frame _ _).iff, ↓(Dev.retain_frame _ _).iff,
      ↓(Dev.stepDone_frame _ _).iff, ↓(Dev.stopStart_frame _).iff, ↓Dev.frame_ite, ↓Dev.frame_self, implies_true,
      and_self]

theorem Dev.reportRetained_frame (d : Dev) :
    Dev.Frame [.log, .dict, .power, .recd] d (Dev.reportRetained d) := by
  unfold Dev.reportRetained
  simp (disch := first | decide | (intros; (repeat' (first | (simp (disch := decide) only [↓(Dev.modPower_frame _ _).iff, ↓(Dev.raise_frame _ _ _ _).iff, ↓Dev.frame_ite, ↓Dev.frame_ite1, ↓Dev.frame_foldl, ↓Dev.frame_foldlPair, ↓Dev.frame_self, implies_true, and_self]) | (with_reducible refine And.intro ?_ ?_) | (with_reducible intro _) | split)))) only [↓(Dev.modPower_frame _ _).iff, ↓(Dev.raise_frame _ _ _ _).iff, ↓Dev.frame_ite, ↓Dev.frame_ite1, ↓Dev.frame_foldl, ↓Dev.frame_foldlPair, ↓Dev.frame_self, implies_true, and_self]

theorem step2_frame (r : StepResult) (d : Dev) :
    Dev.Frame [.log, .dict, .hull, .power, .start, .recd] d (step2 r d) := by
  unfold step2
  simp (disch := decide) only [↓(Dev.modPower_frame _ _).iff, ↓(Dev.modStart_frame _ _).iff,
      ↓(Dev.reportRetained_frame _).iff, ↓(Dev.retain_frame _ _).iff, ↓(Dev.stepDone_frame _ _).iff,
      ↓(Dev.stopStart_frame _).iff, ↓Dev.frame_hull, ↓Dev.frame_ite, ↓Dev.frame_self, implies_true, and_self]

theorem step3_frame (r : StepResult) (d : Dev) :
    Dev.Frame [.log, .dict, .power, .start, .recd, .out] d (step3 r d) := by
  unfold step3
  simp (disch := decide) only [↓(Dev.modStart_frame _ _).iff, ↓(Dev.raise_frame _ _ _ _).iff,
      ↓(Dev.sendCommand_frame _).iff, ↓(Dev.stepDone_frame _ _).iff, ↓Dev.frame_ite, ↓Dev.frame_self, implies_true,
      and_self]

theorem step4_frame (r : StepResult) (d : Dev) :
    Dev.Frame [.log, .dict, .pods, .power, .start, .recd] d (step4 r d) := by
  unfold step4
  simp (disch := first | decide | (intros; (repeat' (first | (simp (disch := decide) only [↓(Dev.modPower_frame _ _).iff, ↓(Dev.raise_frame _ _ _ _).iff, ↓(Dev.stepDone_frame _ _).iff, ↓(Dev.stopStart_frame _).iff, ↓Dev.frame_pods, ↓Dev.frame_ite, ↓Dev.frame_ite1, ↓Dev.frame_foldl, ↓Dev.frame_foldlPair, ↓Dev.frame_self, implies_true, and_self]) | (with_reducible refine And.intro ?_ ?_) | (with_reducible intro _) | split)))) only [↓(Dev.modPower_frame _ _).iff, ↓(Dev.raise_frame _ _ _ _).iff, ↓(Dev.stepDone_frame _ _).iff, ↓(Dev.stopStart_frame _).iff, ↓Dev.frame_pods, ↓Dev.frame_ite, ↓Dev.frame_ite1, ↓Dev.frame_foldl, ↓Dev.frame_foldlPair, ↓Dev.frame_self, implies_true, and_self]

theorem Dev.placePods_frame (d : Dev) (good : List Nat) :
    Dev.Frame [.pods] d (Dev.placePods d good) := by
  unfold Dev.placePods
  repeat' (first
    | (simp (disch := first | decide | (intros; (repeat' (first | (simp (disch := decide) only [↓(Dev.modPod_frame _ _ _).iff, ↓Dev.frame_pods, ↓Dev.frame_ite, ↓Dev.frame_ite1, ↓Dev.frame_foldl, ↓Dev.frame_foldlPair, ↓Dev.frame_self, implies_true, and_self]) | (with_reducible refine And.intro ?_ ?_) | (with_reducible intro _) | split)))) only [↓(Dev.modPod_frame _ _ _).iff, ↓Dev.frame_pods, ↓Dev.frame_ite, ↓Dev.frame_ite1, ↓Dev.frame_foldl, ↓Dev.frame_foldlPair, ↓Dev.frame_self, implies_true, and_self])
    | (with_reducible refine And.intro ?_ ?_)
    | (with_reducible intro _)
    | split)

theorem step5_frame (r : StepResult) (d : Dev) :
    Dev.Frame [.log, .dict, .pods, .hull, .twin, .palca, .power, .start, .recd, .out] d (step5 r d) := by
  unfold step5
  simp (disch := first | decide | (intros; (repeat' (first | (simp (disch := decide) only [↓(Dev.modPod_frame _ _ _).iff, ↓(Dev.modStart_frame _ _).iff, ↓(Dev.placePods_frame _ _).iff, ↓(Dev.protect_frame _ _ _ _).iff, ↓(Dev.raise_frame _ _ _ _).iff, ↓(Dev.stepDone_frame _ _).iff, ↓Dev.frame_ite, ↓Dev.frame_ite1, ↓Dev.frame_foldl, ↓Dev.frame_foldlPair, ↓Dev.frame_self, implies_true, and_self]) | (with_reducible refine And.intro ?_ ?_) | (with_reducible intro _) | split)))) only [↓(Dev.modPod_frame _ _ _).iff, ↓(Dev.modStart_frame _ _).iff, ↓(Dev.placePods_frame _ _).iff, ↓(Dev.protect_frame _ _ _ _).iff, ↓(Dev.raise_frame _ _ _ _).iff, ↓(Dev.stepDone_frame _ _).iff, ↓Dev.frame_ite, ↓Dev.frame_ite1, ↓Dev.frame_foldl, ↓Dev.frame_foldlPair, ↓Dev.frame_self, implies_true, and_self]

theorem step6_frame (r : StepResult) (d : Dev) :
    Dev.Frame [.log, .dict, .ddr, .power, .start, .recd] d (step6 r d) := by
  unfold step6
  simp (disch := decide) only [↓(Dev.modPower_frame _ _).iff, ↓(Dev.raise_frame _ _ _ _).iff,
      ↓(Dev.stepDone_frame _ _).iff, ↓(Dev.stopStart_frame _).iff, ↓Dev.frame_ddr, ↓Dev.frame_ite, ↓Dev.frame_self,
      implies_true, and_self]

theorem Dev.restoreKept_frame (d : Dev) (lost : List Nat) (x : Nat × List Nat) :
    Dev.Frame [.log, .dict, .power, .recd] d (Dev.restoreKept d lost x) := by
  unfold Dev.restoreKept
  simp (disch := decide) only [↓(Dev.persist_frame _ _ _).iff, ↓(Dev.raise_frame _ _ _ _).iff,
      ↓(Dev.setObj_frame _ _ _ _).iff, ↓Dev.frame_ite, ↓Dev.frame_self, implies_true, and_self]

theorem Dev.forceAddresses_frame (d : Dev) :
    Dev.Frame [.palca] d (Dev.forceAddresses d) := by
  unfold Dev.forceAddresses
  simp (disch := first | decide | (intros; (repeat' (first | (simp (disch := decide) only [↓Dev.frame_palca, ↓Dev.frame_foldl, ↓Dev.frame_foldlPair, ↓Dev.frame_self, implies_true, and_self]) | (with_reducible refine And.intro ?_ ?_) | (with_reducible intro _) | split)))) only [↓Dev.frame_palca, ↓Dev.frame_foldl, ↓Dev.frame_foldlPair, ↓Dev.frame_self, implies_true, and_self]

theorem Dev.restoreAll_frame (d : Dev) (lost : List Nat) :
    Dev.Frame [.log, .dict, .fus, .palca, .power, .recd] d (Dev.restoreAll d lost) := by
  unfold Dev.restoreAll
  simp (disch := first | decide | (intros; (repeat' (first | (simp (disch := decide) only [↓(Dev.forceAddresses_frame _).iff, ↓(Dev.raise_frame _ _ _ _).iff, ↓(Dev.recomputeCrc_frame _).iff, ↓(Dev.restoreKept_frame _ _ _).iff, ↓Dev.frame_fus, ↓Dev.frame_foldl, ↓Dev.frame_foldlPair, ↓Dev.frame_self, implies_true, and_self]) | (with_reducible refine And.intro ?_ ?_) | (with_reducible intro _) | split)))) only [↓(Dev.forceAddresses_frame _).iff, ↓(Dev.raise_frame _ _ _ _).iff, ↓(Dev.recomputeCrc_frame _).iff, ↓(Dev.restoreKept_frame _ _ _).iff, ↓Dev.frame_fus, ↓Dev.frame_foldl, ↓Dev.frame_foldlPair, ↓Dev.frame_self, implies_true, and_self]

theorem Dev.bootLeaf_frame (d : Dev) (r : StepResult) :
    Dev.Frame [.log, .dict, .power, .recd, .sec] d (Dev.bootLeaf d r) := by
  unfold Dev.bootLeaf
  repeat' (first
    | (simp (disch := decide) only [↓(Dev.burnEpochs_frame _ _).iff, ↓(Dev.raise_frame _ _ _ _).iff,
      ↓(Dev.reserve_frame _ _).iff, ↓Dev.frame_ite, ↓Dev.frame_ite1, ↓Dev.frame_self, implies_true, and_self])
    | (with_reducible refine And.intro ?_ ?_)
    | (with_reducible intro _)
    | split)

theorem Dev.restoreControl_frame (d : Dev) :
    Dev.Frame [.sec] d (Dev.restoreControl d) := by
  unfold Dev.restoreControl
  simp (disch := decide) only [↓(Dev.modSec_frame _ _).iff, ↓Dev.frame_self, implies_true, and_self]

theorem Dev.badStage_frame (d : Dev) (n : Nat) :
    Dev.Frame [.log, .dict, .power, .recd] d (Dev.badStage d n) := by
  unfold Dev.badStage
  simp (disch := decide) only [↓(Dev.raise_frame _ _ _ _).iff, ↓Dev.frame_self]

theorem Dev.bootRecorder_frame (d : Dev) (r : StepResult) :
    Dev.Frame [.recd] d (Dev.bootRecorder d r) := by
  unfold Dev.bootRecorder
  simp (disch := decide) only [↓(Dev.endSegment_frame _ _).iff, ↓(Dev.modRec_frame _ _).iff, ↓Dev.frame_ite,
      ↓Dev.frame_self, implies_true, and_self]

theorem Dev.formatNand_frame (d : Dev) (bad : List Nat) :
    Dev.Frame [.prog, .recd] d (Dev.formatNand d bad) := by
  unfold Dev.formatNand
  simp (disch := first | decide | (intros; (repeat' (first | (simp (disch := decide) only [↓(Dev.modRec_frame _ _).iff, ↓Dev.frame_prog, ↓Dev.frame_foldl, ↓Dev.frame_foldlPair, ↓Dev.frame_self, implies_true, and_self]) | (with_reducible refine And.intro ?_ ?_) | (with_reducible intro _) | split)))) only [↓(Dev.modRec_frame _ _).iff, ↓Dev.frame_prog, ↓Dev.frame_foldl, ↓Dev.frame_foldlPair, ↓Dev.frame_self, implies_true, and_self]

theorem step7_frame (r : StepResult) (d : Dev) :
    Dev.Frame [.time, .log, .dict, .prog, .fus, .palca, .power, .start, .recd, .sec] d (step7 r d) := by
  unfold step7
  repeat' (first
    | (simp (disch := first | decide | (intros; (repeat' (first | (simp (disch := decide) only [↓(Dev.badStage_frame _ _).iff, ↓(Dev.bootLeaf_frame _ _).iff, ↓(Dev.bootRecorder_frame _ _).iff, ↓(Dev.eraseAgain_frame _).iff, ↓(Dev.formatNand_frame _ _).iff, ↓(Dev.modSec_frame _ _).iff, ↓(Dev.modStart_frame _ _).iff, ↓(Dev.raise_frame _ _ _ _).iff, ↓(Dev.restoreAll_frame _ _).iff, ↓(Dev.restoreControl_frame _).iff, ↓(Dev.stepDone_frame _ _).iff, ↓(Dev.stopStart_frame _).iff, ↓(Dev.syncDomain_frame _ _).iff, ↓Dev.frame_ite, ↓Dev.frame_ite1, ↓Dev.frame_foldl, ↓Dev.frame_foldlPair, ↓Dev.frame_self, implies_true, and_self]) | (with_reducible refine And.intro ?_ ?_) | (with_reducible intro _) | split)))) only [↓(Dev.badStage_frame _ _).iff, ↓(Dev.bootLeaf_frame _ _).iff, ↓(Dev.bootRecorder_frame _ _).iff, ↓(Dev.eraseAgain_frame _).iff, ↓(Dev.formatNand_frame _ _).iff, ↓(Dev.modSec_frame _ _).iff, ↓(Dev.modStart_frame _ _).iff, ↓(Dev.raise_frame _ _ _ _).iff, ↓(Dev.restoreAll_frame _ _).iff, ↓(Dev.restoreControl_frame _).iff, ↓(Dev.stepDone_frame _ _).iff, ↓(Dev.stopStart_frame _).iff, ↓(Dev.syncDomain_frame _ _).iff, ↓Dev.frame_ite, ↓Dev.frame_ite1, ↓Dev.frame_foldl, ↓Dev.frame_foldlPair, ↓Dev.frame_self, implies_true, and_self])
    | (with_reducible refine And.intro ?_ ?_)
    | (with_reducible intro _)
    | split)

theorem step8_frame (d : Dev) :
    Dev.Frame [.time, .log, .dict, .intake, .pods, .mem, .ddr, .prog, .sched, .sync, .fus, .kv, .palca, .power,
      .start, .recd] d (step8 d) := by
  unfold step8
  simp (disch := decide) only [↓(Dev.bootPackage_frame _).iff, ↓(Dev.reach_frame _ _).iff,
      ↓(Dev.repairRows_frame _).iff, ↓(Dev.stepDone_frame _ _).iff, ↓(Dev.stopStart_frame _).iff, ↓Dev.frame_ite,
      ↓Dev.frame_self, implies_true, and_self]

theorem step9_frame (r : StepResult) (d : Dev) :
    Dev.Frame [.log, .dict, .intake, .twin, .power, .start, .recd] d (step9 r d) := by
  unfold step9
  repeat' (first
    | (simp (disch := first | decide | (intros; (repeat' (first | (simp (disch := decide) only [↓(Dev.comparePointers_frame _).iff, ↓(Dev.raise_frame _ _ _ _).iff, ↓(Dev.stepDone_frame _ _).iff, ↓(Dev.syncSlot_frame _ _).iff, ↓Dev.frame_intake, ↓Dev.frame_twin, ↓Dev.frame_foldl, ↓Dev.frame_foldlPair, ↓Dev.frame_self, implies_true, and_self]) | (with_reducible refine And.intro ?_ ?_) | (with_reducible intro _) | split)))) only [↓(Dev.comparePointers_frame _).iff, ↓(Dev.raise_frame _ _ _ _).iff, ↓(Dev.stepDone_frame _ _).iff, ↓(Dev.syncSlot_frame _ _).iff, ↓Dev.frame_intake, ↓Dev.frame_twin, ↓Dev.frame_foldl, ↓Dev.frame_foldlPair, ↓Dev.frame_self, implies_true, and_self])
    | (with_reducible refine And.intro ?_ ?_)
    | (with_reducible intro _)
    | split)

theorem step10_frame (d : Dev) :
    Dev.Frame [.log, .dict, .hull, .twin, .palca, .power, .start, .recd, .out] d (step10 d) := by
  unfold step10
  simp (disch := decide) only [↓(Dev.modPower_frame _ _).iff, ↓(Dev.single_frame _).iff,
      ↓(Dev.stepDone_frame _ _).iff, ↓(Dev.stopStart_frame _).iff, ↓Dev.frame_ite, ↓Dev.frame_self, implies_true,
      and_self]

theorem step11_frame (d : Dev) :
    Dev.Frame [.time, .log, .dict, .cyc, .intake, .sched, .fus, .kv, .hull, .power, .start, .recd] d (step11 d) := by
  unfold step11
  repeat' (first
    | (simp (disch := decide) only [↓(Dev.enterRun_frame _).iff, ↓(Dev.modPower_frame _ _).iff,
      ↓(Dev.raise_frame _ _ _ _).iff, ↓(Dev.stopStart_frame _).iff, ↓Dev.frame_ite, ↓Dev.frame_ite1, ↓Dev.frame_self,
      implies_true, and_self])
    | (with_reducible refine And.intro ?_ ?_)
    | (with_reducible intro _)
    | split)

theorem startupStepComplete_frame (r : StepResult) (d : Dev) :
    Dev.Frame [.time, .log, .dict, .cyc, .intake, .pods, .mem, .ddr, .prog, .sched, .sync, .fus, .kv, .hull, .twin,
      .palca, .power, .start, .recd, .sec, .out] d (startupStepComplete r d) := by
  unfold startupStepComplete
  repeat' (first
    | (simp (disch := decide) only [↓(step1_frame _ _).iff, ↓(step10_frame _).iff, ↓(step11_frame _).iff,
      ↓(step2_frame _ _).iff, ↓(step3_frame _ _).iff, ↓(step4_frame _ _).iff, ↓(step5_frame _ _).iff,
      ↓(step6_frame _ _).iff, ↓(step7_frame _ _).iff, ↓(step8_frame _).iff, ↓(step9_frame _ _).iff, ↓Dev.frame_self,
      implies_true, and_self])
    | (with_reducible refine And.intro ?_ ?_)
    | (with_reducible intro _)
    | split)

theorem execStartupStepComplete_frame (res : StepResult) (s : State) :
    ∃ d, execStartupStepComplete res s = .next { s with dev := d } ∧ Dev.Frame [.time, .log, .dict, .cyc, .intake,
      .pods, .mem, .ddr, .prog, .sched, .sync, .fus, .kv, .hull, .twin, .palca, .power, .start, .recd, .sec,
      .out] s.dev d := ⟨_, rfl, startupStepComplete_frame _ _⟩

theorem supplySwitchOn_frame (d : Dev) :
    Dev.Frame [.start, .out] d (supplySwitchOn d) := by
  unfold supplySwitchOn
  repeat' (first
    | (simp (disch := decide) only [↓(Dev.modStart_frame _ _).iff, ↓(Dev.sendCommand_frame _).iff, ↓Dev.frame_ite,
      ↓Dev.frame_ite1, ↓Dev.frame_self, implies_true, and_self])
    | (with_reducible refine And.intro ?_ ?_)
    | (with_reducible intro _)
    | split)

theorem execSupplySwitchOn_frame (s : State) :
    ∃ d, execSupplySwitchOn s = .next { s with dev := d } ∧ Dev.Frame [.start, .out] s.dev d := ⟨_, rfl, supplySwitchOn_frame _⟩

theorem writeSupply_frame (n : Nat) (v : List Nat) (d : Dev) :
    Dev.Frame [.dict, .recd, .out] d (writeSupply n v d).1 := by
  unfold writeSupply
  simp (disch := decide) only [↓(Dev.put_frame _ _ _ _).iff, ↓(Dev.sendCommand_frame _).iff, ↓Dev.frame_self]

theorem supplyEnable_frame (r : Req) (n : Nat) (value : Byte) (d : Dev) :
    Dev.Frame [.log, .dict, .palca, .power, .recd, .out] d (supplyEnable r n value d) := by
  unfold supplyEnable
  repeat' (first
    | (refine Dev.writeWith_frame (by decide) ?_ _ _ _ _ _ _ _)
    | (simp (disch := decide) only [↓(writeSupply_frame _ _ _).iff, ↓Dev.frame_self, implies_true])
    | (with_reducible refine And.intro ?_ ?_)
    | (with_reducible intro _) | split)

theorem execSupplyEnable_frame (r : Req) (n : Fin 16) (value : Byte) (s : State) :
    ∃ d, execSupplyEnable r n value s = .next { s with dev := d } ∧ Dev.Frame [.log, .dict, .palca, .power, .recd,
      .out] s.dev d := ⟨_, rfl, supplyEnable_frame _ _ _ _⟩

theorem writeState_frame (v : List Nat) (d : Dev) :
    Dev.Frame [.log, .dict, .cyc, .power, .recd] d (writeState v d).1 := by
  unfold writeState
  repeat' (first
    | (simp (disch := decide) only [↓(Dev.modPower_frame _ _).iff, ↓(Dev.raiseRefusal_frame _ _).iff, ↓Dev.frame_cyc,
      ↓Dev.frame_ite, ↓Dev.frame_ite1, ↓Dev.frame_self, implies_true, and_self])
    | (with_reducible refine And.intro ?_ ?_)
    | (with_reducible intro _)
    | split)

theorem stateRequest_frame (r : Req) (code : Byte) (d : Dev) :
    Dev.Frame [.log, .dict, .cyc, .palca, .power, .recd, .out] d (stateRequest r code d) := by
  unfold stateRequest
  repeat' (first
    | (refine Dev.writeWith_frame (by decide) ?_ _ _ _ _ _ _ _)
    | (simp (disch := decide) only [↓(writeState_frame _ _).iff, ↓Dev.frame_self, implies_true])
    | (with_reducible refine And.intro ?_ ?_)
    | (with_reducible intro _) | split)

theorem execStateRequestHusk_frame (r : Req) (s : State) :
    ∃ d, execStateRequestHusk r s = .next { s with dev := d } ∧ Dev.Frame [.log, .dict, .cyc, .palca, .power, .recd,
      .out] s.dev d := ⟨_, rfl, stateRequest_frame _ _ _⟩

theorem execStateRequestStandby_frame (r : Req) (s : State) :
    ∃ d, execStateRequestStandby r s = .next { s with dev := d } ∧ Dev.Frame [.log, .dict, .cyc, .palca, .power,
      .recd, .out] s.dev d := ⟨_, rfl, stateRequest_frame _ _ _⟩

theorem execStateRequestReady_frame (r : Req) (s : State) :
    ∃ d, execStateRequestReady r s = .next { s with dev := d } ∧ Dev.Frame [.log, .dict, .cyc, .palca, .power, .recd,
      .out] s.dev d := ⟨_, rfl, stateRequest_frame _ _ _⟩

theorem execStateRequestRun_frame (r : Req) (s : State) :
    ∃ d, execStateRequestRun r s = .next { s with dev := d } ∧ Dev.Frame [.log, .dict, .cyc, .palca, .power, .recd,
      .out] s.dev d := ⟨_, rfl, stateRequest_frame _ _ _⟩

theorem Dev.saveResident_frame (d : Dev) :
    Dev.Frame [.mem] d (Dev.saveResident d) := by
  unfold Dev.saveResident
  simp (disch := first | decide | (intros; (repeat' (first | (simp (disch := decide) only [↓(Dev.store_frame _ _ _).iff, ↓Dev.frame_foldl, ↓Dev.frame_foldlPair, ↓Dev.frame_self, implies_true, and_self]) | (with_reducible refine And.intro ?_ ?_) | (with_reducible intro _) | split)))) only [↓(Dev.store_frame _ _ _).iff, ↓Dev.frame_foldl, ↓Dev.frame_foldlPair, ↓Dev.frame_self, implies_true, and_self]

theorem Dev.restoreResident_frame (d : Dev) :
    Dev.Frame [.mem] d (Dev.restoreResident d) := by
  unfold Dev.restoreResident
  simp (disch := first | decide | (intros; (repeat' (first | (simp (disch := decide) only [↓(Dev.store_frame _ _ _).iff, ↓Dev.frame_foldl, ↓Dev.frame_foldlPair, ↓Dev.frame_self, implies_true, and_self]) | (with_reducible refine And.intro ?_ ?_) | (with_reducible intro _) | split)))) only [↓(Dev.store_frame _ _ _).iff, ↓Dev.frame_foldl, ↓Dev.frame_foldlPair, ↓Dev.frame_self, implies_true, and_self]

theorem Dev.coreOn_frame (d : Dev) :
    Dev.Frame [.log, .dict, .pods, .mem, .ddr, .power, .recd] d (Dev.coreOn d) := by
  unfold Dev.coreOn
  repeat' (first
    | (simp (disch := decide) only [↓(Dev.loadWindows_frame _ _).iff, ↓(Dev.modPower_frame _ _).iff,
      ↓(Dev.placePods_frame _ _).iff, ↓(Dev.repairRows_frame _).iff, ↓(Dev.restoreResident_frame _).iff,
      ↓Dev.frame_mem, ↓Dev.frame_ddr, ↓Dev.frame_mem_ddr, ↓Dev.frame_self, implies_true, and_self])
    | (with_reducible refine And.intro ?_ ?_)
    | (with_reducible intro _)
    | split)

theorem Dev.coreOff_frame (d : Dev) :
    Dev.Frame [.pods, .movers, .mem, .ddr, .fus, .solvers, .power, .recd] d (Dev.coreOff d) := by
  unfold Dev.coreOff
  simp (disch := first | decide | (intros; (repeat' (first | (simp (disch := decide) only [↓(Dev.journalReads_frame _).iff, ↓(Dev.modPower_frame _ _).iff, ↓(Dev.saveCalib_frame _).iff, ↓(Dev.saveResident_frame _).iff, ↓Dev.frame_pods, ↓Dev.frame_movers, ↓Dev.frame_ddr, ↓Dev.frame_solvers, ↓Dev.frame_pods_movers_ddr_solvers, ↓Dev.frame_ite, ↓Dev.frame_ite1, ↓Dev.frame_foldl, ↓Dev.frame_foldlPair, ↓Dev.frame_self, implies_true, and_self]) | (with_reducible refine And.intro ?_ ?_) | (with_reducible intro _) | split)))) only [↓(Dev.journalReads_frame _).iff, ↓(Dev.modPower_frame _ _).iff, ↓(Dev.saveCalib_frame _).iff, ↓(Dev.saveResident_frame _).iff, ↓Dev.frame_pods, ↓Dev.frame_movers, ↓Dev.frame_ddr, ↓Dev.frame_solvers, ↓Dev.frame_pods_movers_ddr_solvers, ↓Dev.frame_ite, ↓Dev.frame_ite1, ↓Dev.frame_foldl, ↓Dev.frame_foldlPair, ↓Dev.frame_self, implies_true, and_self]

theorem Dev.arrived_frame (d : Dev) :
    Dev.Frame [.power] d (Dev.arrived d) := by
  unfold Dev.arrived
  simp (disch := decide) only [↓(Dev.modPower_frame _ _).iff, ↓Dev.frame_ite, ↓Dev.frame_self, implies_true, and_self]

theorem Dev.legRun_frame (d : Dev) :
    Dev.Frame [.time, .log, .dict, .cyc, .intake, .sched, .fus, .kv, .hull, .power, .recd] d (Dev.legRun d) := by
  unfold Dev.legRun
  repeat' (first
    | (simp (disch := decide) only [↓(Dev.enterRun_frame _).iff, ↓(Dev.modPower_frame _ _).iff,
      ↓(Dev.raiseRefusal_frame _ _).iff, ↓Dev.frame_ite, ↓Dev.frame_ite1, ↓Dev.frame_self, implies_true, and_self])
    | (with_reducible refine And.intro ?_ ?_)
    | (with_reducible intro _)
    | split)

theorem Dev.legOutOfRun_frame (d : Dev) :
    Dev.Frame [.log, .dict, .cyc, .ddr, .prog, .hull, .twin, .palca, .power, .start, .recd,
      .out] d (Dev.legOutOfRun d) := by
  unfold Dev.legOutOfRun
  simp (disch := decide) only [↓(Dev.arrived_frame _).iff, ↓(Dev.endTransfers_frame _).iff,
      ↓(Dev.leaveRun_frame _ _).iff, ↓(Dev.modStart_frame _ _).iff, ↓(Dev.repairRows_frame _).iff, ↓Dev.frame_ite,
      ↓Dev.frame_self, implies_true, and_self]

theorem stateTransitionComplete_frame (d : Dev) :
    Dev.Frame [.time, .log, .dict, .cyc, .intake, .pods, .movers, .mem, .ddr, .prog, .sched, .sync, .cover, .fus,
      .kv, .solvers, .hull, .twin, .palca, .power, .start, .recd, .sec, .edge, .out] d (stateTransitionComplete d) := by
  unfold stateTransitionComplete
  repeat' (first
    | (simp (disch := decide) only [↓(Dev.arrived_frame _).iff, ↓(Dev.coreOff_frame _).iff,
      ↓(Dev.coreOn_frame _).iff, ↓(Dev.legOutOfRun_frame _).iff, ↓(Dev.legRun_frame _).iff,
      ↓(Dev.reach_frame _ _).iff, ↓(Dev.toHusk_frame _ _ _ _).iff, ↓Dev.frame_ite, ↓Dev.frame_ite1, ↓Dev.frame_self,
      implies_true, and_self])
    | (with_reducible refine And.intro ?_ ?_)
    | (with_reducible intro _)
    | split)

theorem execStateTransitionComplete_frame (s : State) :
    ∃ d, execStateTransitionComplete s = .next { s with dev := d } ∧ Dev.Frame [.time, .log, .dict, .cyc, .intake,
      .pods, .movers, .mem, .ddr, .prog, .sched, .sync, .cover, .fus, .kv, .solvers, .hull, .twin, .palca, .power,
      .start, .recd, .sec, .edge, .out] s.dev d := ⟨_, rfl, stateTransitionComplete_frame _⟩

theorem resetRequest_frame (r : Req) (part : Bool) (payload : List Byte) (d : Dev) :
    Dev.Frame [.time, .log, .dict, .cyc, .intake, .pods, .movers, .mem, .ddr, .prog, .sched, .sync, .cover, .fus,
      .kv, .solvers, .hull, .twin, .palca, .power, .start, .recd, .sec, .edge, .out] d (resetRequest r part payload d) := by
  unfold resetRequest
  repeat' (first
    | (refine Dev.writeWith_frame (by decide) ?_ _ _ _ _ _ _ _)
    | (simp (disch := decide) only [↓(Dev.endTransfers_frame _).iff, ↓(Dev.resetDevice_frame _ _ _ _).iff,
      ↓Dev.frame_ite, ↓Dev.frame_self, implies_true])
    | (with_reducible refine And.intro ?_ ?_)
    | (with_reducible intro _) | split)

theorem execResetRequest_frame (r : Req) (value : Byte) (s : State) :
    ∃ d, execResetRequest r value s = .next { s with dev := d } ∧ Dev.Frame [.time, .log, .dict, .cyc, .intake,
      .pods, .movers, .mem, .ddr, .prog, .sched, .sync, .cover, .fus, .kv, .solvers, .hull, .twin, .palca, .power,
      .start, .recd, .sec, .edge, .out] s.dev d := ⟨_, rfl, resetRequest_frame _ _ _ _⟩

theorem Dev.restoreObj_frame (d : Dev) (k : Nat) :
    Dev.Frame [.dict, .recd] d (Dev.restoreObj d k) := by
  unfold Dev.restoreObj
  repeat' (first
    | (simp (disch := decide) only [↓(Dev.persist_frame _ _ _).iff, ↓Dev.frame_dict, ↓Dev.frame_ite, ↓Dev.frame_ite1,
      ↓Dev.frame_self, implies_true, and_self])
    | (with_reducible refine And.intro ?_ ?_)
    | (with_reducible intro _)
    | split)

theorem writeRestore_frame (_v : List Nat) (d : Dev) :
    Dev.Frame [.time, .log, .dict, .intake, .fus, .palca, .power, .recd, .out] d (writeRestore _v d).1 := by
  unfold writeRestore
  simp (disch := first | decide | (intros; (repeat' (first | (simp (disch := decide) only [↓(Dev.adoptTrigs_frame _).iff, ↓(Dev.raiseIf_frame _ _ _ _ _).iff, ↓(Dev.recomputeCrc_frame _).iff, ↓(Dev.restoreObj_frame _ _).iff, ↓(Dev.sendCommand_frame _).iff, ↓(Dev.syncDomain_frame _ _).iff, ↓(Dev.wrote_frame _ _ _).iff, ↓Dev.frame_ite, ↓Dev.frame_ite1, ↓Dev.frame_foldl, ↓Dev.frame_foldlPair, ↓Dev.frame_self, implies_true, and_self]) | (with_reducible refine And.intro ?_ ?_) | (with_reducible intro _) | split)))) only [↓(Dev.adoptTrigs_frame _).iff, ↓(Dev.raiseIf_frame _ _ _ _ _).iff, ↓(Dev.recomputeCrc_frame _).iff, ↓(Dev.restoreObj_frame _ _).iff, ↓(Dev.sendCommand_frame _).iff, ↓(Dev.syncDomain_frame _ _).iff, ↓(Dev.wrote_frame _ _ _).iff, ↓Dev.frame_ite, ↓Dev.frame_ite1, ↓Dev.frame_foldl, ↓Dev.frame_foldlPair, ↓Dev.frame_self, implies_true, and_self]

theorem restoreDefaults_frame (r : Req) (value : Byte) (d : Dev) :
    Dev.Frame [.time, .log, .dict, .intake, .fus, .palca, .power, .recd, .out] d (restoreDefaults r value d) := by
  unfold restoreDefaults
  repeat' (first
    | (refine Dev.writeWith_frame (by decide) ?_ _ _ _ _ _ _ _)
    | (simp (disch := decide) only [↓(writeRestore_frame _ _).iff, ↓Dev.frame_self, implies_true])
    | (with_reducible refine And.intro ?_ ?_)
    | (with_reducible intro _) | split)

theorem execRestoreDefaults_frame (r : Req) (value : Byte) (s : State) :
    ∃ d, execRestoreDefaults r value s = .next { s with dev := d } ∧ Dev.Frame [.time, .log, .dict, .intake, .fus,
      .palca, .power, .recd, .out] s.dev d := ⟨_, rfl, restoreDefaults_frame _ _ _⟩

theorem Dev.lockStep_frame (d : Dev) (x : Dom) :
    Dev.Frame [.time, .cyc, .intake, .start] d (Dev.lockStep d x) := by
  unfold Dev.lockStep
  simp (disch := first | decide | (intros; (repeat' (first | (simp (disch := decide) only [↓(Dev.modSlot_frame _ _ _).iff, ↓(Dev.modStart_frame _ _).iff, ↓(Dev.setTimeState_frame _).iff, ↓Dev.frame_time, ↓Dev.frame_cyc, ↓Dev.frame_time_cyc, ↓Dev.frame_ite, ↓Dev.frame_ite1, ↓Dev.frame_foldl, ↓Dev.frame_foldlPair, ↓Dev.frame_self, implies_true, and_self]) | (with_reducible refine And.intro ?_ ?_) | (with_reducible intro _) | split)))) only [↓(Dev.modSlot_frame _ _ _).iff, ↓(Dev.modStart_frame _ _).iff, ↓(Dev.setTimeState_frame _).iff, ↓Dev.frame_time, ↓Dev.frame_cyc, ↓Dev.frame_time_cyc, ↓Dev.frame_ite, ↓Dev.frame_ite1, ↓Dev.frame_foldl, ↓Dev.frame_foldlPair, ↓Dev.frame_self, implies_true, and_self]

theorem Dev.beginRun_frame (d : Dev) :
    Dev.Frame [.log, .dict, .prog, .hull, .palca, .power, .recd] d (Dev.beginRun d) := by
  unfold Dev.beginRun
  simp (disch := decide) only [↓(Dev.modPower_frame _ _).iff, ↓(Dev.reach_frame _ _).iff, ↓Dev.frame_hull,
      ↓Dev.frame_ite, ↓Dev.frame_self, implies_true, and_self]

theorem Dev.countSilence_frame (d : Dev) :
    Dev.Frame [.intake] d (Dev.countSilence d) := by
  unfold Dev.countSilence
  simp (disch := first | decide | (intros; (repeat' (first | (simp (disch := decide) only [↓(Dev.modSlot_frame _ _ _).iff, ↓Dev.frame_ite, ↓Dev.frame_ite1, ↓Dev.frame_foldl, ↓Dev.frame_foldlPair, ↓Dev.frame_self, implies_true, and_self]) | (with_reducible refine And.intro ?_ ?_) | (with_reducible intro _) | split)))) only [↓(Dev.modSlot_frame _ _ _).iff, ↓Dev.frame_ite, ↓Dev.frame_ite1, ↓Dev.frame_foldl, ↓Dev.frame_foldlPair, ↓Dev.frame_self, implies_true, and_self]

theorem Dev.openCycleAt_frame (d : Dev) (tv nx : Int) :
    Dev.Frame [.cyc, .intake] d (Dev.openCycleAt d tv nx) := by
  unfold Dev.openCycleAt
  simp (disch := decide) only [↓Dev.frame_cyc_intake, ↓Dev.frame_self]

theorem Dev.nextInstant_frame (d : Dev) (n : Int) :
    Dev.Frame [.time, .log, .dict, .cyc, .intake, .power, .start, .recd] d (Dev.nextInstant d n) := by
  unfold Dev.nextInstant
  repeat' (first
    | (simp (disch := decide) only [↓(Dev.lockStep_frame _ _).iff, ↓(Dev.openCycleAt_frame _ _ _).iff,
      ↓(Dev.rescheduleTrigs_frame _).iff, ↓Dev.frame_cyc, ↓Dev.frame_self, implies_true, and_self])
    | (with_reducible refine And.intro ?_ ?_)
    | (with_reducible intro _)
    | split)

theorem cycleInstant_frame (d : Dev) :
    Dev.Frame [.time, .log, .dict, .cyc, .intake, .pods, .prog, .sched, .hull, .twin, .palca, .power, .start, .recd,
      .out] d (cycleInstant d) := by
  unfold cycleInstant
  split
  · exact Dev.Frame.refl _
  · split
    · refine (Dev.frame_foldl (fun e x => (Dev.armPass_frame _ _).mono (by decide)) _ _ _).2 ?_
      exact (((Dev.beginRun_frame _).mono (by decide)).trans ((Dev.nextInstant_frame _ _).mono (by decide))).trans
        ((((Dev.pairFrom_frame _ _).mono (by decide)).trans ((Dev.countSilence_frame _).mono (by decide))).trans
          ((Dev.takeReplacement_frame _).mono (by decide)))
    · exact Dev.Frame.refl _

theorem execCycleInstant_frame (s : State) :
    ∃ d, execCycleInstant s = .next { s with dev := d } ∧ Dev.Frame [.time, .log, .dict, .cyc, .intake, .pods, .prog,
      .sched, .hull, .twin, .palca, .power, .start, .recd, .out] s.dev d := ⟨_, rfl, cycleInstant_frame _⟩

theorem Dev.startCandidate_frame (d : Dev) :
    Dev.Frame [.fus] d (Dev.startCandidate d) := by
  unfold Dev.startCandidate
  simp (disch := first | decide | (intros; (repeat' (first | (simp (disch := decide) only [↓(Dev.modCand_frame _ _).iff, ↓(Dev.setFusN_frame _ _).iff, ↓Dev.frame_foldl, ↓Dev.frame_foldlPair, ↓Dev.frame_self, implies_true, and_self]) | (with_reducible refine And.intro ?_ ?_) | (with_reducible intro _) | split)))) only [↓(Dev.modCand_frame _ _).iff, ↓(Dev.setFusN_frame _ _).iff, ↓Dev.frame_foldl, ↓Dev.frame_foldlPair, ↓Dev.frame_self, implies_true, and_self]

theorem acceptanceWindowClose_frame (d : Dev) :
    Dev.Frame [.log, .dict, .cyc, .intake, .mem, .sync, .fus, .kv, .hull, .power, .recd,
      .out] d (acceptanceWindowClose d) := by
  unfold acceptanceWindowClose
  repeat' (first
    | (simp (disch := decide) only [↓(Dev.checkIntake_frame _).iff, ↓(Dev.planAttention_frame _ _ _).iff,
      ↓(Dev.remark_frame _ _).iff, ↓(Dev.startCandidate_frame _).iff, ↓Dev.frame_cyc, ↓Dev.frame_ite,
      ↓Dev.frame_ite1, ↓Dev.frame_self, implies_true, and_self])
    | (with_reducible refine And.intro ?_ ?_)
    | (with_reducible intro _)
    | split)

theorem execAcceptanceWindowClose_frame (s : State) :
    ∃ d, execAcceptanceWindowClose s = .next { s with dev := d } ∧ Dev.Frame [.log, .dict, .cyc, .intake, .mem,
      .sync, .fus, .kv, .hull, .power, .recd, .out] s.dev d := ⟨_, rfl, acceptanceWindowClose_frame _⟩

theorem Dev.countRelease_frame (d : Dev) :
    Dev.Frame [.hull] d (Dev.countRelease d) := by
  unfold Dev.countRelease
  simp (disch := decide) only [↓Dev.frame_hull, ↓Dev.frame_self]

theorem Dev.latchCommit_frame (d : Dev) (c : CycleCtx) (zones : BitVec 64) (tiers : Store Nat) :
    Dev.Frame [.dict, .cyc, .hull] d (Dev.latchCommit d c zones tiers) := by
  unfold Dev.latchCommit
  simp (disch := decide) only [↓(Dev.count_frame _ _ _).iff, ↓(Dev.countRelease_frame _).iff, ↓Dev.frame_cyc_hull,
      ↓Dev.frame_self]

theorem Dev.settleTier_frame (d : Dev) :
    Dev.Frame [.log, .dict, .hull, .twin, .palca, .recd, .out] d (Dev.settleTier d) := by
  unfold Dev.settleTier
  simp (disch := decide) only [↓(Dev.lower_frame _).iff, ↓(Dev.restoreOutputs_frame _).iff,
      ↓(Dev.retier_frame _ _ _).iff, ↓(Dev.sendCommand_frame _).iff, ↓Dev.frame_ite, ↓Dev.frame_self, implies_true,
      and_self]

theorem Dev.firstCommitDone_frame (d : Dev) :
    Dev.Frame [.log, .dict, .power, .recd, .sec] d (Dev.firstCommitDone d) := by
  unfold Dev.firstCommitDone
  simp (disch := decide) only [↓(Dev.modSec_frame _ _).iff, ↓(Dev.raiseIf_frame _ _ _ _ _).iff, ↓Dev.frame_self]

theorem Dev.endStep11_frame (d : Dev) :
    Dev.Frame [.start] d (Dev.endStep11 d) := by
  unfold Dev.endStep11
  simp (disch := decide) only [↓(Dev.modStart_frame _ _).iff, ↓Dev.frame_ite, ↓Dev.frame_self, implies_true, and_self]

theorem Dev.trialCommitted_frame (d : Dev) :
    Dev.Frame [.prog] d (Dev.trialCommitted d) := by
  unfold Dev.trialCommitted
  simp (disch := decide) only [↓Dev.frame_prog, ↓Dev.frame_ite, ↓Dev.frame_self, implies_true, and_self]

theorem Dev.announce_frame (d : Dev) (statusSeq txSeq : BitVec 16) :
    Dev.Frame [.hull, .twin, .palca, .out] d (Dev.announce d statusSeq txSeq) := by
  unfold Dev.announce
  simp (disch := decide) only [↓(Dev.sendDecision_frame _).iff, ↓(Dev.sendStatus_frame _).iff, ↓Dev.frame_ite,
      ↓Dev.frame_self, implies_true, and_self]

theorem Dev.sendValues_frame (d : Dev) (tv : Int) (vals : Store PairEntry) :
    Dev.Frame [.twin, .out] d (Dev.sendValues d tv vals) := by
  unfold Dev.sendValues
  simp (disch := decide) only [↓(Dev.sendTwin_frame _ _ _).iff, ↓Dev.frame_ite, ↓Dev.frame_self, implies_true,
      and_self]

theorem Dev.cycleRecords_frame (d : Dev) (c : CycleCtx) (discarded : Bool) :
    Dev.Frame [.log, .dict, .palca, .power, .recd] d (Dev.cycleRecords d c discarded) := by
  unfold Dev.cycleRecords
  simp (disch := decide) only [↓(Dev.closeIfSent_frame _).iff, ↓(Dev.dueRecords_frame _ _ _ _).iff,
      ↓(Dev.holdCycle_frame _ _ _ _ _).iff, ↓Dev.frame_self]

theorem commitCycle_frame (c : CycleCtx) (zones : BitVec 64) (tiers : Store Nat) (vals : Store PairEntry) (d : Dev) :
    Dev.Frame [.log, .dict, .cyc, .prog, .fus, .kv, .hull, .twin, .palca, .power, .start, .recd, .sec,
      .out] d (commitCycle c zones tiers vals d) := by
  unfold commitCycle
  simp (disch := decide) only [↓(Dev.announce_frame _ _ _).iff, ↓(Dev.commitAttention_frame _ _).iff,
      ↓(Dev.commitGrid_frame _).iff, ↓(Dev.cycleRecords_frame _ _ _).iff, ↓(Dev.endStep11_frame _).iff,
      ↓(Dev.firstCommitDone_frame _).iff, ↓(Dev.keepDecision_frame _ _).iff, ↓(Dev.latchCommit_frame _ _ _ _).iff,
      ↓(Dev.resolveParents_frame _ _).iff, ↓(Dev.sendValues_frame _ _ _).iff, ↓(Dev.settleTier_frame _).iff,
      ↓(Dev.trialCommitted_frame _).iff, ↓Dev.frame_ite, ↓Dev.frame_self, implies_true, and_self]

theorem Dev.blameDiscard_frame (d : Dev) :
    Dev.Frame [.log] d (Dev.blameDiscard d) := by
  unfold Dev.blameDiscard
  repeat' (first
    | (simp (disch := decide) only [↓(Dev.effect_frame _ _ _).iff, ↓Dev.frame_ite, ↓Dev.frame_ite1, ↓Dev.frame_self,
      implies_true, and_self])
    | (with_reducible refine And.intro ?_ ?_)
    | (with_reducible intro _)
    | split)

theorem Dev.countDiscard_frame (d : Dev) (c : CycleCtx) :
    Dev.Frame [.log, .dict, .cyc, .hull, .twin, .palca, .power, .recd, .out] d (Dev.countDiscard d c) := by
  unfold Dev.countDiscard
  simp (disch := decide) only [↓(Dev.count_frame _ _ _).iff, ↓(Dev.demand_frame _ _ _ _).iff,
      ↓(Dev.effect_frame _ _ _).iff, ↓(Dev.raise_frame _ _ _ _).iff, ↓Dev.frame_cyc_hull, ↓Dev.frame_ite,
      ↓Dev.frame_self, implies_true, and_self]

theorem discardCycle_frame (c : CycleCtx) (d : Dev) :
    Dev.Frame [.log, .dict, .cyc, .intake, .kv, .hull, .twin, .palca, .power, .recd, .out] d (discardCycle c d) := by
  unfold discardCycle
  repeat' (first
    | (simp (disch := decide) only [↓(Dev.announce_frame _ _ _).iff, ↓(Dev.blameDiscard_frame _).iff,
      ↓(Dev.comparePointers_frame _).iff, ↓(Dev.countDiscard_frame _ _).iff, ↓(Dev.cycleRecords_frame _ _ _).iff,
      ↓(Dev.discardAttention_frame _).iff, ↓(Dev.keepDecision_frame _ _).iff, ↓Dev.frame_self, implies_true,
      and_self])
    | (with_reducible refine And.intro ?_ ?_)
    | (with_reducible intro _)
    | split)

theorem commitDeadline_frame (d : Dev) :
    Dev.Frame [.log, .dict, .cyc, .intake, .prog, .fus, .kv, .hull, .twin, .palca, .power, .start, .recd, .sec,
      .out] d (commitDeadline d) := by
  unfold commitDeadline
  repeat' (first
    | (simp (disch := decide) only [↓(commitCycle_frame _ _ _ _ _).iff, ↓(discardCycle_frame _ _).iff,
      ↓Dev.frame_ite, ↓Dev.frame_ite1, ↓Dev.frame_self, implies_true, and_self])
    | (with_reducible refine And.intro ?_ ?_)
    | (with_reducible intro _)
    | split)

theorem execCommitDeadline_frame (s : State) :
    ∃ d, execCommitDeadline s = .next { s with dev := d } ∧ Dev.Frame [.log, .dict, .cyc, .intake, .prog, .fus, .kv,
      .hull, .twin, .palca, .power, .start, .recd, .sec, .out] s.dev d := ⟨_, rfl, commitDeadline_frame _⟩

theorem Dev.patrolCorrected_frame (d : Dev) (k : Nat) (writePending : Bool) :
    Dev.Frame [.mem, .ddr] d (Dev.patrolCorrected d k writePending) := by
  unfold Dev.patrolCorrected
  simp (disch := decide) only [↓Dev.frame_mem_ddr, ↓Dev.frame_self]

theorem Dev.patrolBad_frame (d : Dev) (k : Nat) :
    Dev.Frame [.log, .dict, .mem, .ddr, .kv, .power, .recd] d (Dev.patrolBad d k) := by
  unfold Dev.patrolBad
  repeat' (first
    | (simp (disch := first | decide | (intros; (repeat' (first | (simp (disch := decide) only [↓(Dev.badRow_frame _ _).iff, ↓(Dev.raise_frame _ _ _ _).iff, ↓(Dev.retirePage_frame _ _ _).iff, ↓(Dev.sweepRuns_frame _).iff, ↓Dev.frame_mem, ↓Dev.frame_ite, ↓Dev.frame_ite1, ↓Dev.frame_foldl, ↓Dev.frame_foldlPair, ↓Dev.frame_self, implies_true, and_self]) | (with_reducible refine And.intro ?_ ?_) | (with_reducible intro _) | split)))) only [↓(Dev.badRow_frame _ _).iff, ↓(Dev.raise_frame _ _ _ _).iff, ↓(Dev.retirePage_frame _ _ _).iff, ↓(Dev.sweepRuns_frame _).iff, ↓Dev.frame_mem, ↓Dev.frame_ite, ↓Dev.frame_ite1, ↓Dev.frame_foldl, ↓Dev.frame_foldlPair, ↓Dev.frame_self, implies_true, and_self])
    | (with_reducible refine And.intro ?_ ?_)
    | (with_reducible intro _)
    | split)

theorem Dev.patrolNext_frame (d : Dev) (addr : Nat) :
    Dev.Frame [.ddr] d (Dev.patrolNext d addr) := by
  unfold Dev.patrolNext
  simp (disch := decide) only [↓Dev.frame_ddr, ↓Dev.frame_ite, ↓Dev.frame_self, implies_true, and_self]

theorem patrolRead_frame (addr : Nat) (r : BurstResult) (writePending : Bool) (d : Dev) :
    Dev.Frame [.log, .dict, .mem, .ddr, .kv, .power, .recd] d (patrolRead addr r writePending d) := by
  unfold patrolRead
  repeat' (first
    | (simp (disch := decide) only [↓(Dev.patrolBad_frame _ _).iff, ↓(Dev.patrolCorrected_frame _ _ _).iff,
      ↓(Dev.patrolNext_frame _ _).iff, ↓Dev.frame_ite, ↓Dev.frame_ite1, ↓Dev.frame_self, implies_true, and_self])
    | (with_reducible refine And.intro ?_ ?_)
    | (with_reducible intro _)
    | split)

theorem execPatrolRead_frame (addr : Nat) (r : BurstResult) (writePending : Bool) (s : State) :
    ∃ d, execPatrolRead addr r writePending s = .next { s with dev := d } ∧ Dev.Frame [.log, .dict, .mem, .ddr, .kv,
      .power, .recd] s.dev d := ⟨_, rfl, patrolRead_frame _ _ _ _⟩

theorem readRequest_frame (r : Req) (idx sub : Nat) (part : Bool) (off : Nat) (d : Dev) :
    Dev.Frame [.log, .dict, .palca, .power, .recd, .out, .free] d (readRequest r idx sub part off d) := by
  unfold readRequest
  repeat' (first
    | (refine Dev.serve_frame (by decide) ?_ _ _ _ _ _ _ _ _)
    | (simp (disch := decide) only [↓(Dev.bumpFree_frame _).iff, ↓Dev.frame_ite, ↓Dev.frame_self, implies_true,
      and_self])
    | (with_reducible refine And.intro ?_ ?_)
    | (with_reducible intro _) | split)

theorem execRead_frame (r : Req) (idx : BitVec 16) (sub : Byte) (part : Bool) (offset : BitVec 32) (s : State) :
    ∃ d, execRead r idx sub part offset s = .next { s with dev := d } ∧ Dev.Frame [.log, .dict, .palca, .power,
      .recd, .out, .free] s.dev d := ⟨_, rfl, readRequest_frame _ _ _ _ _ _⟩

theorem writePlain_frame (idx sub : Nat) (v : List Nat) (d : Dev) :
    Dev.Frame [.time, .log, .dict, .intake, .fus, .palca, .power, .recd] d (writePlain idx sub v d).1 := by
  unfold writePlain
  simp (disch := decide) only [↓(Dev.put_frame _ _ _ _).iff, ↓(Dev.raise_frame _ _ _ _).iff,
      ↓(Dev.wrote_frame _ _ _).iff, ↓Dev.frame_palca, ↓Dev.frame_ite, ↓Dev.frame_ite1, ↓Dev.frame_self, implies_true,
      and_self]

theorem ownWrite_frame (idx sub : Nat) (v : List Nat) (d : Dev) :
    Dev.Frame [.time, .log, .dict, .cyc, .intake, .prog, .fus, .palca, .power, .recd, .sec,
      .out] d (ownWrite idx sub v d).1 := by
  unfold ownWrite
  simp (disch := decide) only [↓(writeActivate_frame _ _).iff, ↓(writeConfirm_frame _ _).iff,
      ↓(writeGeometry_frame _ _ _).iff, ↓(writeLoadSlot_frame _ _).iff, ↓(writeNonce_frame _ _).iff,
      ↓(writePlain_frame _ _ _ _).iff, ↓(writeReference_frame _ _ _ _).iff, ↓(writeRestore_frame _ _).iff,
      ↓(writeSecVersion_frame _ _).iff, ↓(writeState_frame _ _).iff, ↓(writeSupply_frame _ _ _).iff,
      ↓(writeUnmask_frame _ _).iff, ↓Dev.frame_ite1, ↓Dev.frame_self, implies_true, and_self]

theorem writeRequest_frame (r : Req) (idx sub : Nat) (part : Bool) (payload : List Byte) (d : Dev) :
    Dev.Frame [.time, .log, .dict, .cyc, .intake, .pods, .movers, .mem, .ddr, .prog, .sched, .sync, .cover, .fus,
      .kv, .solvers, .hull, .twin, .palca, .power, .start, .recd, .sec, .edge,
      .out] d (writeRequest r idx sub part payload d) := by
  unfold writeRequest
  repeat' (first
    | (refine Dev.writeWith_frame (by decide) ?_ _ _ _ _ _ _ _)
    | (simp (disch := decide) only [↓(ownWrite_frame _ _ _ _).iff, ↓(resetRequest_frame _ _ _ _).iff, ↓Dev.frame_ite,
      ↓Dev.frame_self, implies_true])
    | (with_reducible refine And.intro ?_ ?_)
    | (with_reducible intro _) | split)

theorem execWrite_frame (r : Req) (idx : BitVec 16) (sub : Byte) (part : Bool) (payload : List Byte) (s : State) :
    ∃ d, execWrite r idx sub part payload s = .next { s with dev := d } ∧ Dev.Frame [.time, .log, .dict, .cyc,
      .intake, .pods, .movers, .mem, .ddr, .prog, .sched, .sync, .cover, .fus, .kv, .solvers, .hull, .twin, .palca,
      .power, .start, .recd, .sec, .edge, .out] s.dev d := ⟨_, rfl, writeRequest_frame _ _ _ _ _ _⟩

theorem evClear_frame (r : Req) (idx sub : Nat) (sameClock : Bool) (d : Dev) :
    Dev.Frame [.time, .log, .dict, .cyc, .intake, .prog, .fus, .palca, .power, .recd, .sec,
      .out] d (evClear r idx sub sameClock d) := by
  unfold evClear
  repeat' (first
    | (refine Dev.writeWith_frame (by decide) ?_ _ _ _ _ _ _ _)
    | (simp (disch := decide) only [↓(ownWrite_frame _ _ _ _).iff, ↓Dev.frame_self, implies_true])
    | (with_reducible refine And.intro ?_ ?_)
    | (with_reducible intro _) | split)

theorem execEvClear_frame (r : Req) (idx : BitVec 16) (sub : Byte) (sameClock : Bool) (s : State) :
    ∃ d, execEvClear r idx sub sameClock s = .next { s with dev := d } ∧ Dev.Frame [.time, .log, .dict, .cyc,
      .intake, .prog, .fus, .palca, .power, .recd, .sec, .out] s.dev d := ⟨_, rfl, evClear_frame _ _ _ _ _⟩

theorem configurationLock_frame (r : Req) (value : Byte) (d : Dev) :
    Dev.Frame [.time, .log, .dict, .cyc, .intake, .prog, .fus, .palca, .power, .recd, .sec,
      .out] d (configurationLock r value d) := by
  unfold configurationLock
  repeat' (first
    | (refine Dev.writeWith_frame (by decide) ?_ _ _ _ _ _ _ _)
    | (simp (disch := decide) only [↓(ownWrite_frame _ _ _ _).iff, ↓Dev.frame_self, implies_true])
    | (with_reducible refine And.intro ?_ ?_)
    | (with_reducible intro _) | split)

theorem execConfigurationLock_frame (r : Req) (value : Byte) (s : State) :
    ∃ d, execConfigurationLock r value s = .next { s with dev := d } ∧ Dev.Frame [.time, .log, .dict, .cyc, .intake,
      .prog, .fus, .palca, .power, .recd, .sec, .out] s.dev d := ⟨_, rfl, configurationLock_frame _ _ _⟩

theorem Dev.endSame_frame (d : Dev) (idx sub : Nat) :
    Dev.Frame [.log, .dict, .prog, .palca, .power, .recd] d (Dev.endSame d idx sub) := by
  unfold Dev.endSame
  repeat' (first
    | (simp (disch := decide) only [↓(Dev.abortTransfer_frame _ _).iff, ↓Dev.frame_prog, ↓Dev.frame_ite,
      ↓Dev.frame_ite1, ↓Dev.frame_self, implies_true, and_self])
    | (with_reducible refine And.intro ?_ ?_)
    | (with_reducible intro _)
    | split)

theorem Dev.startTransfer_frame (d : Dev) (r : Req) (idx sub total : Nat) :
    Dev.Frame [.log, .dict, .prog, .palca, .power, .recd] d (Dev.startTransfer d r idx sub total) := by
  unfold Dev.startTransfer
  repeat' (first
    | (simp (disch := decide) only [↓(Dev.endLoad_frame _ _ _ _).iff, ↓(Dev.endSame_frame _ _ _).iff,
      ↓(Dev.startLoad_frame _ _).iff, ↓Dev.frame_palca, ↓Dev.frame_ite, ↓Dev.frame_ite1, ↓Dev.frame_self,
      implies_true, and_self])
    | (with_reducible refine And.intro ?_ ?_)
    | (with_reducible intro _)
    | split)

theorem Dev.blockStartChecked_frame (d : Dev) (r : Req) (rt idx sub total : Nat) :
    Dev.Frame [.log, .dict, .prog, .palca, .power, .recd] d (Dev.blockStartChecked d r rt idx sub total).1 := by
  unfold Dev.blockStartChecked
  repeat' (first
    | (simp (disch := decide) only [↓(Dev.pkgRefused_frame _).iff, ↓(Dev.startTransfer_frame _ _ _ _ _).iff,
      ↓Dev.frame_ite, ↓Dev.frame_ite1, ↓Dev.frame_self, implies_true, and_self])
    | (with_reducible refine And.intro ?_ ?_)
    | (with_reducible intro _)
    | split)

theorem blockStart_frame (r : Req) (idx sub total : Nat) (d : Dev) :
    Dev.Frame [.log, .dict, .prog, .palca, .power, .recd, .out] d (blockStart r idx sub total d) := by
  unfold blockStart
  repeat' (first
    | (refine Dev.serve_frame (by decide) ?_ _ _ _ _ _ _ _ _)
    | (simp (disch := decide) only [↓(Dev.blockStartChecked_frame _ _ _ _ _ _).iff, ↓Dev.frame_self, implies_true])
    | (with_reducible refine And.intro ?_ ?_)
    | (with_reducible intro _) | split)

theorem execBlockStart_frame (r : Req) (idx : BitVec 16) (sub : Byte) (total : Word) (s : State) :
    ∃ d, execBlockStart r idx sub total s = .next { s with dev := d } ∧ Dev.Frame [.log, .dict, .prog, .palca,
      .power, .recd, .out] s.dev d := ⟨_, rfl, blockStart_frame _ _ _ _ _⟩

theorem Dev.lastSegment_frame (d : Dev) (r : Req) (idx sub off : Nat) (seg image : List Byte) (pkg : Option
      PkgContent) :
    Dev.Frame [.log, .dict, .prog, .palca, .power, .recd] d (Dev.lastSegment d r idx sub off seg image pkg).1 := by
  unfold Dev.lastSegment
  repeat' (first
    | (simp (disch := decide) only [↓(Dev.endLoad_frame _ _ _ _).iff, ↓Dev.frame_palca, ↓Dev.frame_ite,
      ↓Dev.frame_ite1, ↓Dev.frame_self, implies_true, and_self])
    | (with_reducible refine And.intro ?_ ?_)
    | (with_reducible intro _)
    | split)

theorem Dev.blockDataChecked_frame (d : Dev) (r : Req) (rt idx sub off : Nat) (seg : List Byte) (pkg : Option
      PkgContent) :
    Dev.Frame [.log, .dict, .prog, .palca, .power, .recd] d (Dev.blockDataChecked d r rt idx sub off seg pkg).1 := by
  unfold Dev.blockDataChecked
  repeat' (first
    | (simp (disch := decide) only [↓(Dev.lastSegment_frame _ _ _ _ _ _ _ _).iff, ↓Dev.frame_palca, ↓Dev.frame_ite,
      ↓Dev.frame_ite1, ↓Dev.frame_self, implies_true, and_self])
    | (with_reducible refine And.intro ?_ ?_)
    | (with_reducible intro _)
    | split)

theorem blockData_frame (r : Req) (idx sub off : Nat) (seg : List Byte) (pkg : Option PkgContent) (d : Dev) :
    Dev.Frame [.log, .dict, .prog, .palca, .power, .recd, .out] d (blockData r idx sub off seg pkg d) := by
  unfold blockData
  repeat' (first
    | (refine Dev.serve_frame (by decide) ?_ _ _ _ _ _ _ _ _)
    | (simp (disch := decide) only [↓(Dev.blockDataChecked_frame _ _ _ _ _ _ _ _).iff, ↓Dev.frame_self, implies_true])
    | (with_reducible refine And.intro ?_ ?_)
    | (with_reducible intro _) | split)

theorem execBlockData_frame (r : Req) (idx : BitVec 16) (sub : Byte) (offset : BitVec 32) (segment : List Byte) (pkg
      : Option PkgContent) (s : State) :
    ∃ d, execBlockData r idx sub offset segment pkg s = .next { s with dev := d } ∧ Dev.Frame [.log, .dict, .prog,
      .palca, .power, .recd, .out] s.dev d := ⟨_, rfl, blockData_frame _ _ _ _ _ _ _⟩

theorem transferAborted_frame (idx sub : Nat) (d : Dev) :
    Dev.Frame [.log, .dict, .prog, .palca, .power, .recd] d (transferAborted idx sub d) := by
  unfold transferAborted
  repeat' (first
    | (simp (disch := decide) only [↓(Dev.abortTransfer_frame _ _).iff, ↓Dev.frame_ite, ↓Dev.frame_ite1,
      ↓Dev.frame_self, implies_true, and_self])
    | (with_reducible refine And.intro ?_ ?_)
    | (with_reducible intro _)
    | split)

theorem execTransferAborted_frame (idx : BitVec 16) (sub : Byte) (s : State) :
    ∃ d, execTransferAborted idx sub s = .next { s with dev := d } ∧ Dev.Frame [.log, .dict, .prog, .palca, .power,
      .recd] s.dev d := ⟨_, rfl, transferAborted_frame _ _ _⟩

theorem Dev.subscribeChecked_frame (d : Dev) (r : Req) (rt idx sub : Nat) (dport : BitVec 16) :
    Dev.Frame [.palca] d (Dev.subscribeChecked d r rt idx sub dport).1 := by
  unfold Dev.subscribeChecked
  repeat' (first
    | (simp (disch := decide) only [↓Dev.frame_palca, ↓Dev.frame_ite, ↓Dev.frame_ite1, ↓Dev.frame_self, implies_true,
      and_self])
    | (with_reducible refine And.intro ?_ ?_)
    | (with_reducible intro _)
    | split)

theorem subscribe_frame (r : Req) (idx sub : Nat) (dport : BitVec 16) (d : Dev) :
    Dev.Frame [.log, .dict, .palca, .power, .recd, .out] d (subscribe r idx sub dport d) := by
  unfold subscribe
  repeat' (first
    | (refine Dev.serve_frame (by decide) ?_ _ _ _ _ _ _ _ _)
    | (simp (disch := decide) only [↓(Dev.subscribeChecked_frame _ _ _ _ _ _).iff, ↓Dev.frame_self, implies_true])
    | (with_reducible refine And.intro ?_ ?_)
    | (with_reducible intro _) | split)

theorem execSubscribe_frame (r : Req) (idx : BitVec 16) (sub : Byte) (dport : BitVec 16) (s : State) :
    ∃ d, execSubscribe r idx sub dport s = .next { s with dev := d } ∧ Dev.Frame [.log, .dict, .palca, .power, .recd,
      .out] s.dev d := ⟨_, rfl, subscribe_frame _ _ _ _ _⟩

theorem Dev.unsubscribed_frame (d : Dev) (r : Req) (idx sub : Nat) :
    Dev.Frame [.palca] d (Dev.unsubscribed d r idx sub) := by
  unfold Dev.unsubscribed
  simp (disch := decide) only [↓Dev.frame_palca, ↓Dev.frame_self]

theorem unsubscribe_frame (r : Req) (idx sub : Nat) (d : Dev) :
    Dev.Frame [.log, .dict, .palca, .power, .recd, .out] d (unsubscribe r idx sub d) := by
  unfold unsubscribe
  repeat' (first
    | (refine Dev.serve_frame (by decide) ?_ _ _ _ _ _ _ _ _)
    | (simp (disch := decide) only [↓(Dev.unsubscribed_frame _ _ _ _).iff, ↓Dev.frame_ite, ↓Dev.frame_self,
      implies_true, and_self])
    | (with_reducible refine And.intro ?_ ?_)
    | (with_reducible intro _) | split)

theorem execUnsubscribe_frame (r : Req) (idx : BitVec 16) (sub : Byte) (s : State) :
    ∃ d, execUnsubscribe r idx sub s = .next { s with dev := d } ∧ Dev.Frame [.log, .dict, .palca, .power, .recd,
      .out] s.dev d := ⟨_, rfl, unsubscribe_frame _ _ _ _⟩

theorem Dev.sendEvent_frame (d : Dev) (i : Nat) (x : Sub) :
    Dev.Frame [.palca, .out] d (Dev.sendEvent d i x) := by
  unfold Dev.sendEvent
  simp (disch := decide) only [↓(Dev.sendService_frame _ _ _ _).iff, ↓Dev.frame_palca, ↓Dev.frame_ite,
      ↓Dev.frame_self, implies_true, and_self]

theorem event_frame (i : Nat) (d : Dev) :
    Dev.Frame [.palca, .out] d (event i d) := by
  unfold event
  repeat' (first
    | (simp (disch := decide) only [↓(Dev.sendEvent_frame _ _ _).iff, ↓Dev.frame_ite, ↓Dev.frame_ite1,
      ↓Dev.frame_self, implies_true, and_self])
    | (with_reducible refine And.intro ?_ ?_)
    | (with_reducible intro _)
    | split)

theorem execEvent_frame (i : Nat) (s : State) :
    ∃ d, execEvent i s = .next { s with dev := d } ∧ Dev.Frame [.palca, .out] s.dev d := ⟨_, rfl, event_frame _ _⟩

theorem subscriptionLeaseExpiry_frame (i : Nat) (d : Dev) :
    Dev.Frame [.palca] d (subscriptionLeaseExpiry i d) := by
  unfold subscriptionLeaseExpiry
  repeat' (first
    | (simp (disch := decide) only [↓Dev.frame_palca, ↓Dev.frame_ite, ↓Dev.frame_ite1, ↓Dev.frame_self, implies_true,
      and_self])
    | (with_reducible refine And.intro ?_ ?_)
    | (with_reducible intro _)
    | split)

theorem execSubscriptionLeaseExpiry_frame (i : Nat) (s : State) :
    ∃ d, execSubscriptionLeaseExpiry i s = .next { s with dev := d } ∧ Dev.Frame [.palca] s.dev d := ⟨_, rfl, subscriptionLeaseExpiry_frame _ _⟩

theorem Dev.forceAddress_frame (d : Dev) (k : Nat) :
    Dev.Frame [.palca] d (Dev.forceAddress d k) := by
  unfold Dev.forceAddress
  simp (disch := decide) only [↓Dev.frame_palca, ↓Dev.frame_self]

theorem addressChangeEffect_frame (port : Nat) (d : Dev) :
    Dev.Frame [.palca] d (addressChangeEffect port d) := by
  unfold addressChangeEffect
  simp (disch := first | decide | (intros; (repeat' (first | (simp (disch := decide) only [↓(Dev.forceAddress_frame _ _).iff, ↓Dev.frame_palca, ↓Dev.frame_foldl, ↓Dev.frame_foldlPair, ↓Dev.frame_self, implies_true, and_self]) | (with_reducible refine And.intro ?_ ?_) | (with_reducible intro _) | split)))) only [↓(Dev.forceAddress_frame _ _).iff, ↓Dev.frame_palca, ↓Dev.frame_foldl, ↓Dev.frame_foldlPair, ↓Dev.frame_self, implies_true, and_self]

theorem execAddressChangeEffect_frame (port : Fin 2) (s : State) :
    ∃ d, execAddressChangeEffect port s = .next { s with dev := d } ∧ Dev.Frame [.palca] s.dev d := ⟨_, rfl, addressChangeEffect_frame _ _⟩

theorem arpRequest_frame (port : Nat) (f : HostFrame) (target sender : Nat) (d : Dev) :
    Dev.Frame [.dict, .palca, .out] d (arpRequest port f target sender d) := by
  unfold arpRequest
  repeat' (first
    | (refine Dev.admit_frame (by decide) ?_ _ _ _ _)
    | (simp (disch := decide) only [↓(Dev.sendService_frame _ _ _ _).iff, ↓Dev.frame_ite, ↓Dev.frame_self,
      implies_true, and_self])
    | (with_reducible refine And.intro ?_ ?_)
    | (with_reducible intro _) | split)

theorem execArpRequest_frame (port : Fin 2) (frame : HostFrame) (target : BitVec 32) (sender : BitVec 32) (s : State)
      :
    ∃ d, execArpRequest port frame target sender s = .next { s with dev := d } ∧ Dev.Frame [.dict, .palca,
      .out] s.dev d := ⟨_, rfl, arpRequest_frame _ _ _ _ _⟩

theorem neighbourDiscovery_frame (port : Nat) (f : HostFrame) (target sender : Nat) (d : Dev) :
    Dev.Frame [.dict, .palca, .out] d (neighbourDiscovery port f target sender d) := by
  unfold neighbourDiscovery
  repeat' (first
    | (refine Dev.admit_frame (by decide) ?_ _ _ _ _)
    | (simp (disch := decide) only [↓(Dev.sendService_frame _ _ _ _).iff, ↓Dev.frame_ite, ↓Dev.frame_self,
      implies_true, and_self])
    | (with_reducible refine And.intro ?_ ?_)
    | (with_reducible intro _) | split)

theorem execNeighbourDiscovery_frame (port : Fin 2) (frame : HostFrame) (target : BitVec 128) (sender : BitVec 128)
      (s : State) :
    ∃ d, execNeighbourDiscovery port frame target sender s = .next { s with dev := d } ∧ Dev.Frame [.dict, .palca,
      .out] s.dev d := ⟨_, rfl, neighbourDiscovery_frame _ _ _ _ _⟩

theorem echoRequest_frame (port : Nat) (f : HostFrame) (v6 : Bool) (sender : Nat) (data : List Byte) (d : Dev) :
    Dev.Frame [.dict, .palca, .out] d (echoRequest port f v6 sender data d) := by
  unfold echoRequest
  repeat' (first
    | (refine Dev.admit_frame (by decide) ?_ _ _ _ _)
    | (simp (disch := decide) only [↓(Dev.sendService_frame _ _ _ _).iff, ↓Dev.frame_palca, ↓Dev.frame_ite,
      ↓Dev.frame_self, implies_true, and_self])
    | (with_reducible refine And.intro ?_ ?_)
    | (with_reducible intro _) | split)

theorem execEchoRequest_frame (port : Fin 2) (frame : HostFrame) (v6 : Bool) (sender : BitVec 128) (data : List Byte)
      (s : State) :
    ∃ d, execEchoRequest port frame v6 sender data s = .next { s with dev := d } ∧ Dev.Frame [.dict, .palca,
      .out] s.dev d := ⟨_, rfl, echoRequest_frame _ _ _ _ _ _⟩

theorem hostLinkUp_frame (port : Nat) (d : Dev) :
    Dev.Frame [.palca] d (hostLinkUp port d) := by
  unfold hostLinkUp
  simp (disch := decide) only [↓Dev.frame_palca, ↓Dev.frame_ite, ↓Dev.frame_self, implies_true, and_self]

theorem execHostLinkUp_frame (port : Fin 2) (s : State) :
    ∃ d, execHostLinkUp port s = .next { s with dev := d } ∧ Dev.Frame [.palca] s.dev d := ⟨_, rfl, hostLinkUp_frame _ _⟩

theorem Dev.abortPort_frame (d : Dev) (port : Nat) :
    Dev.Frame [.log, .dict, .prog, .palca, .power, .recd] d (Dev.abortPort d port) := by
  unfold Dev.abortPort
  simp (disch := first | decide | (intros; (repeat' (first | (simp (disch := decide) only [↓(Dev.abortTransfer_frame _ _).iff, ↓Dev.frame_foldl, ↓Dev.frame_foldlPair, ↓Dev.frame_self, implies_true, and_self]) | (with_reducible refine And.intro ?_ ?_) | (with_reducible intro _) | split)))) only [↓(Dev.abortTransfer_frame _ _).iff, ↓Dev.frame_foldl, ↓Dev.frame_foldlPair, ↓Dev.frame_self, implies_true, and_self]

theorem hostLinkDown_frame (port : Nat) (d : Dev) :
    Dev.Frame [.log, .dict, .prog, .palca, .power, .recd] d (hostLinkDown port d) := by
  unfold hostLinkDown
  simp (disch := decide) only [↓(Dev.abortPort_frame _ _).iff, ↓(Dev.dropPort_frame _ _).iff,
      ↓(Dev.occur_frame _ _ _).iff, ↓(Dev.raise_frame _ _ _ _).iff, ↓Dev.frame_palca, ↓Dev.frame_ite,
      ↓Dev.frame_self, implies_true, and_self]

theorem execHostLinkDown_frame (port : Fin 2) (s : State) :
    ∃ d, execHostLinkDown port s = .next { s with dev := d } ∧ Dev.Frame [.log, .dict, .prog, .palca, .power,
      .recd] s.dev d := ⟨_, rfl, hostLinkDown_frame _ _⟩

theorem cableTest_frame (port code distance : Nat) (d : Dev) :
    Dev.Frame [.log] d (cableTest port code distance d) := by
  unfold cableTest
  simp (disch := decide) only [↓Dev.frame_log, ↓Dev.frame_ite, ↓Dev.frame_ite1, ↓Dev.frame_self, implies_true,
      and_self]

theorem execCableTest_frame (port : Fin 6) (code : Fin 4) (distance : BitVec 16) (s : State) :
    ∃ d, execCableTest port code distance s = .next { s with dev := d } ∧ Dev.Frame [.log] s.dev d := ⟨_, rfl, cableTest_frame _ _ _ _⟩

theorem Dev.useCommand_frame (d : Dev) (pdu : List Byte) :
    Dev.Frame [.log, .dict, .hull, .twin, .palca, .power, .recd, .edge, .out] d (Dev.useCommand d pdu) := by
  unfold Dev.useCommand
  simp (disch := decide) only [↓(Dev.acceptReset_frame _).iff, ↓(Dev.demand_frame _ _ _ _).iff, ↓Dev.frame_hull,
      ↓Dev.frame_ite, ↓Dev.frame_self, implies_true, and_self]

theorem safetyCommand_frame (port : ReqPort) (f : HostFrame) (addr : BitVec 128) (pdu : List Byte) (d : Dev) :
    Dev.Frame [.log, .dict, .hull, .twin, .palca, .power, .recd, .edge, .out] d (safetyCommand port f addr pdu d) := by
  unfold safetyCommand
  repeat' (first
    | (refine Dev.datagram_frame (by decide) ?_ _ _ _ _)
    | (simp (disch := decide) only [↓(Dev.raise_frame _ _ _ _).iff, ↓(Dev.useCommand_frame _ _).iff, ↓Dev.frame_ite,
      ↓Dev.frame_ite1, ↓Dev.frame_self, implies_true, and_self])
    | (with_reducible refine And.intro ?_ ?_)
    | (with_reducible intro _) | split)

theorem execSafetyCommand_frame (port : ReqPort) (frame : HostFrame) (addr : BitVec 128) (pdu : List Byte) (s :
      State) :
    ∃ d, execSafetyCommand port frame addr pdu s = .next { s with dev := d } ∧ Dev.Frame [.log, .dict, .hull, .twin,
      .palca, .power, .recd, .edge, .out] s.dev d := ⟨_, rfl, safetyCommand_frame _ _ _ _ _⟩

theorem status_frame (d : Dev) :
    Dev.Frame [.palca, .out] d (status d) := by
  unfold status
  simp (disch := decide) only [↓(Dev.emit_frame _ _ _ _).iff, ↓Dev.frame_palca, ↓Dev.frame_ite, ↓Dev.frame_self,
      implies_true, and_self]

theorem execStatus_frame (s : State) :
    ∃ d, execStatus s = .next { s with dev := d } ∧ Dev.Frame [.palca, .out] s.dev d := ⟨_, rfl, status_frame _⟩

theorem Dev.serviceFrame_frame (d : Dev) (frame : List Byte) (pkg : Option PkgContent) :
    Dev.Frame [.time, .log, .dict, .cyc, .intake, .pods, .movers, .mem, .ddr, .prog, .sched, .sync, .cover, .fus,
      .kv, .solvers, .hull, .twin, .palca, .power, .start, .recd, .sec, .edge, .out,
      .free] d (Dev.serviceFrame d frame pkg) := by
  unfold Dev.serviceFrame
  dsimp only
  split
  · exact (readRequest_frame _ _ _ _ _ _).mono (by decide)
  · exact (writeRequest_frame _ _ _ _ _ _).mono (by decide)
  · exact (blockStart_frame _ _ _ _ _).mono (by decide)
  · exact (blockData_frame _ _ _ _ _ _ _).mono (by decide)
  · exact (subscribe_frame _ _ _ _ _).mono (by decide)
  · exact (unsubscribe_frame _ _ _ _).mono (by decide)
  · exact Dev.serve_frame (by decide) (fun n e => Dev.Frame.refl _) _ _ _ _ _ _ _ _

theorem writeFrame_frame (bytes : List Byte) (pkg : Option PkgContent) (known : Bool) (d : Dev) :
    Dev.Frame [.time, .log, .dict, .cyc, .intake, .pods, .movers, .mem, .ddr, .prog, .sched, .sync, .cover, .fus,
      .kv, .solvers, .hull, .twin, .palca, .power, .start, .recd, .sec, .edge, .out,
      .free] d (writeFrame bytes pkg known d) := by
  unfold writeFrame
  repeat' (first
    | (simp (disch := decide) only [↓(Dev.raise_frame _ _ _ _).iff, ↓(Dev.serviceFrame_frame _ _ _).iff,
      ↓(safetyCommand_frame _ _ _ _ _).iff, ↓Dev.frame_ite, ↓Dev.frame_ite1, ↓Dev.frame_self, implies_true, and_self])
    | (with_reducible refine And.intro ?_ ?_)
    | (with_reducible intro _)
    | split)

theorem execWriteFrame_frame (bytes : List Byte) (pkg : Option PkgContent) (known : Bool) (s : State) :
    ∃ d, execWriteFrame bytes pkg known s = .next { s with dev := d } ∧ Dev.Frame [.time, .log, .dict, .cyc, .intake,
      .pods, .movers, .mem, .ddr, .prog, .sched, .sync, .cover, .fus, .kv, .solvers, .hull, .twin, .palca, .power,
      .start, .recd, .sec, .edge, .out, .free] s.dev d := ⟨_, rfl, writeFrame_frame _ _ _ _⟩

theorem readFrame_frame (d : Dev) :
    Dev.Frame [.palca, .out] d (readFrame d) := by
  unfold readFrame
  repeat' (first
    | (simp (disch := decide) only [↓(Dev.emit_frame _ _ _ _).iff, ↓Dev.frame_palca, ↓Dev.frame_ite, ↓Dev.frame_ite1,
      ↓Dev.frame_self, implies_true, and_self])
    | (with_reducible refine And.intro ?_ ?_)
    | (with_reducible intro _)
    | split)

theorem execReadFrame_frame (s : State) :
    ∃ d, execReadFrame s = .next { s with dev := d } ∧ Dev.Frame [.palca, .out] s.dev d := ⟨_, rfl, readFrame_frame _⟩

theorem readStream_frame (n : Nat) (d : Dev) :
    Dev.Frame [.log, .dict, .palca, .power, .recd, .out] d (readStream n d) := by
  unfold readStream
  repeat' (first
    | (simp (disch := decide) only [↓(Dev.emit_frame _ _ _ _).iff, ↓(Dev.takeFragment_frame _ _).iff, ↓Dev.frame_ite,
      ↓Dev.frame_ite1, ↓Dev.frame_self, implies_true, and_self])
    | (with_reducible refine And.intro ?_ ?_)
    | (with_reducible intro _)
    | split)

theorem execReadStream_frame (stream : Fin 64) (s : State) :
    ∃ d, execReadStream stream s = .next { s with dev := d } ∧ Dev.Frame [.log, .dict, .palca, .power, .recd,
      .out] s.dev d := ⟨_, rfl, readStream_frame _ _⟩

theorem readEvents_frame (d : Dev) :
    Dev.Frame [.palca, .out] d (readEvents d) := by
  unfold readEvents
  simp (disch := first | decide | (intros; (repeat' (first | (simp (disch := decide) only [↓(Dev.emit_frame _ _ _ _).iff, ↓Dev.frame_palca, ↓Dev.frame_ite, ↓Dev.frame_ite1, ↓Dev.frame_foldl, ↓Dev.frame_foldlPair, ↓Dev.frame_self, implies_true, and_self]) | (with_reducible refine And.intro ?_ ?_) | (with_reducible intro _) | split)))) only [↓(Dev.emit_frame _ _ _ _).iff, ↓Dev.frame_palca, ↓Dev.frame_ite, ↓Dev.frame_ite1, ↓Dev.frame_foldl, ↓Dev.frame_foldlPair, ↓Dev.frame_self, implies_true, and_self]

theorem execReadEvents_frame (s : State) :
    ∃ d, execReadEvents s = .next { s with dev := d } ∧ Dev.Frame [.palca, .out] s.dev d := ⟨_, rfl, readEvents_frame _⟩

end Sys2Proof.Machine
end

