-- ==== Sys2Proof/Laws/Store.lean ====
section
/-! SUPPORT. What the sparse tables do: read after write, other numbers untouched, the canonical form kept. -/

namespace Sys2Proof.Machine

variable {α : Type} [DecidableEq α]

theorem kwfFrom_mono {d : α} {a b : Nat} (hab : a ≤ b) :
    ∀ {m : Store α}, kwfFrom d b m = true → kwfFrom d a m = true
  | [], _ => rfl
  | (k, v) :: t, h => by
    simp only [kwfFrom, Bool.and_eq_true, decide_eq_true_eq] at h ⊢
    exact ⟨⟨by omega, h.1.2⟩, h.2⟩

omit [DecidableEq α] in
theorem kget_filter {d : α} (k j : Nat) : ∀ m : Store α,
    kget d (m.filter (fun e => decide (e.1 ≠ k))) j = if j = k then d else kget d m j
  | [] => by simp [kget]
  | (k', v') :: t => by
    have ih := kget_filter (d := d) k j t
    by_cases c : k' = k
    · subst c
      simp only [List.filter, ne_eq, not_true, decide_false, ih, kget]
      by_cases hj : j = k'
      · simp [hj]
      · simp [hj, show k' ≠ j from fun e => hj e.symm]
    · simp only [List.filter, ne_eq, c, not_false_eq_true, decide_true, kget, ih]
      by_cases hj : k' = j
      · subst hj; simp [c]
      · simp [hj]

omit [DecidableEq α] in
theorem kget_kput {d v : α} (k j : Nat) : ∀ m : Store α, kget d (kput m k v) j = if j = k then v else kget d m j
  | [] => by
    simp only [kput, kget]
    by_cases hj : j = k
    · simp [hj]
    · simp [hj, show k ≠ j from fun e => hj e.symm]
  | (k', v') :: t => by
    have ih := kget_kput (d := d) (v := v) k j t
    unfold kput
    split
    · simp only [kget]
      by_cases hj : j = k
      · simp [hj]
      · simp [hj, show k ≠ j from fun e => hj e.symm]
    · split
      · rename_i h
        subst h
        simp only [kget]
        by_cases hj : j = k
        · simp [hj]
        · simp [hj, show k ≠ j from fun e => hj e.symm]
      · rename_i h
        simp only [kget, ih]
        by_cases hj : k' = j
        · subst hj
          simp [show k' ≠ k from fun e => h e.symm]
        · simp [hj]

/-- Reading a number after writing one. -/
theorem kget_kset {d : α} {m : Store α} {k : Nat} {v : α} {j : Nat} :
    kget d (kset d m k v) j = if j = k then v else kget d m j := by
  unfold kset
  split
  · rename_i h
    rw [kget_filter, h]
  · exact kget_kput k j m

theorem kwfFrom_filter {d : α} {f : Nat × α → Bool} :
    ∀ {lo : Nat} {m : Store α}, kwfFrom d lo m = true → kwfFrom d lo (m.filter f) = true
  | _, [], _ => rfl
  | lo, (k, v) :: t, h => by
    simp only [kwfFrom, Bool.and_eq_true, decide_eq_true_eq] at h
    have ih := kwfFrom_filter (f := f) h.2
    by_cases hf : f (k, v) = true
    · simp only [List.filter, hf, kwfFrom, Bool.and_eq_true, decide_eq_true_eq]
      exact ⟨h.1, ih⟩
    · simp only [List.filter, hf]
      exact kwfFrom_mono (by omega) ih

theorem kwf_filter {d : α} {f : Nat × α → Bool} {m : Store α} (h : kwf d m = true) :
    kwf d (m.filter f) = true := kwfFrom_filter h

theorem kwfFrom_kput {d : α} : ∀ {lo : Nat} {m : Store α} {k : Nat} {v : α},
    kwfFrom d lo m = true → lo ≤ k → v ≠ d → kwfFrom d lo (kput m k v) = true
  | _, [], k, v, _, hk, hv => by simp [kput, kwfFrom, hk, hv]
  | lo, (k', v') :: t, k, v, h, hk, hv => by
    have h0 := h
    simp only [kwfFrom, Bool.and_eq_true, decide_eq_true_eq] at h
    obtain ⟨⟨h1, h2⟩, h3⟩ := h
    unfold kput
    split
    · simp only [kwfFrom, Bool.and_eq_true, decide_eq_true_eq]
      exact ⟨⟨hk, hv⟩, ⟨⟨by omega, h2⟩, h3⟩⟩
    · split
      · rename_i e
        subst e
        simp only [kwfFrom, Bool.and_eq_true, decide_eq_true_eq]
        exact ⟨⟨h1, hv⟩, h3⟩
      · simp only [kwfFrom, Bool.and_eq_true, decide_eq_true_eq]
        exact ⟨⟨h1, h2⟩, kwfFrom_kput h3 (by omega) hv⟩

/-- Writing keeps the canonical form. -/
theorem kwf_kset {d : α} {m : Store α} {k : Nat} {v : α} (h : kwf d m = true) : kwf d (kset d m k v) = true := by
  unfold kset
  split
  · exact kwf_filter h
  · rename_i hv
    exact kwfFrom_kput h (Nat.zero_le _) hv

theorem kwf_kmod {d : α} {m : Store α} {k : Nat} {f : α → α} (h : kwf d m = true) : kwf d (kmod d m k f) = true := kwf_kset h

@[simp] theorem kget_kset_same {d : α} {m : Store α} {k : Nat} {v : α} : kget d (kset d m k v) k = v := by
  rw [kget_kset]; simp

theorem kget_kset_other {d : α} {m : Store α} {k j : Nat} {v : α} (hj : j ≠ k) : kget d (kset d m k v) j = kget d m j := by
  rw [kget_kset]; simp [hj]

@[simp] theorem kget_kmod_same {d : α} {m : Store α} {k : Nat} {f : α → α} : kget d (kmod d m k f) k = f (kget d m k) :=
  kget_kset_same

theorem kget_kmod_other {d : α} {m : Store α} {k j : Nat} {f : α → α} (hj : j ≠ k) : kget d (kmod d m k f) j = kget d m j :=
  kget_kset_other hj

end Sys2Proof.Machine
end

