-- ==== Sys2Proof/Laws/Memory.lean ====
section
/-! SUPPORT. Memory: a byte reads as last written, other bytes stay, and every operation keeps the canonical form. -/

namespace Sys2Proof.Machine

theorem Memory.reset_wf : State.reset.dev.mem.wf = true := by decide

theorem Memory.write_wf {m : Memory} (h : m.wf = true) (k : Nat) (b : Byte) : (m.write k b).wf = true := kwf_kset h

theorem Memory.writeN_wf (l : List Byte) : ∀ {m : Memory} (k : Nat), m.wf = true → (m.writeN k l).wf = true := by
  induction l with
  | nil => exact fun k h => h
  | cons b t ih => exact fun k h => ih (k + 1) (Memory.write_wf h k b)

theorem Memory.unpoison_wf {m : Memory} (h : m.wf = true) (k n : Nat) : (m.unpoison k n).wf = true := h

theorem Memory.store_wf {m : Memory} (h : m.wf = true) (k : Nat) (l : List Byte) : (m.store k l).wf = true :=
  Memory.unpoison_wf (Memory.writeN_wf l k h) k l.length

theorem Memory.clearRange_wf {m : Memory} (h : m.wf = true) (lo hi : Nat) : (m.clearRange lo hi).wf = true := kwf_filter h

theorem Memory.clearPod_wf {m : Memory} (h : m.wf = true) (p : Nat) : (m.clearPod p).wf = true :=
  Memory.clearRange_wf (Memory.clearRange_wf h _ _) _ _

/-- A byte after a write of one byte. -/
theorem Memory.read_write (m : Memory) (k j : Nat) (b : Byte) : (m.write k b).read j = if j = k then b else m.read j := kget_kset

/-- A byte outside the written ones reads as before. -/
theorem Memory.read_writeN_out (l : List Byte) : ∀ {m : Memory} (k j : Nat), (j < k ∨ k + l.length ≤ j) →
    (m.writeN k l).read j = m.read j := by
  induction l with
  | nil => exact fun k j _ => rfl
  | cons b t ih =>
    intro m k j hj
    simp only [List.length_cons] at hj
    rw [Memory.writeN, ih (k + 1) j (by omega), Memory.read_write, if_neg (by omega)]

/-- A byte inside the written ones reads as written. -/
theorem Memory.read_writeN_in (l : List Byte) : ∀ {m : Memory} (k i : Nat) (hi : i < l.length),
    (m.writeN k l).read (k + i) = l[i] := by
  induction l with
  | nil => exact fun k i hi => absurd hi (Nat.not_lt_zero i)
  | cons b t ih =>
    intro m k i hi
    cases i with
    | zero =>
      rw [Memory.writeN, Memory.read_writeN_out t (k + 1) (k + 0) (by omega), Memory.read_write, if_pos (by omega)]
      rfl
    | succ n =>
      have := ih (m := m.write k b) (k + 1) n (by simpa using hi)
      rw [Memory.writeN, show k + (n + 1) = k + 1 + n by omega, this]
      rfl

/-- Bytes of a written range. -/
theorem Memory.read_store_out (m : Memory) (l : List Byte) (k j : Nat) (hj : j < k ∨ k + l.length ≤ j) :
    (m.store k l).read j = m.read j := Memory.read_writeN_out l k j hj

theorem Memory.read_store_in (m : Memory) (l : List Byte) (k i : Nat) (hi : i < l.length) :
    (m.store k l).read (k + i) = l[i] := Memory.read_writeN_in l k i hi

end Sys2Proof.Machine
end

