-- ==== Sys2Proof/Laws/Inv.lean ====
section
/-! SUPPORT. The invariant of the device: what does not touch memory, cycle, Hull and ordering code keeps it, and how
it composes. -/

namespace Sys2Proof.Machine

/-- None of the parts the invariant speaks of is listed. -/
def Part.offInv (l : List Part) : Bool := !l.contains .mem && !l.contains .cyc && !l.contains .hull && !l.contains .code

theorem Dev.inv_reset : State.reset.dev.Inv := by unfold Dev.Inv; decide

/-- An operation that leaves memory, cycle, Hull and ordering code alone neither makes nor breaks the invariant. -/
theorem Dev.Frame.inv {l : List Part} {a b : Dev} (h : Dev.Frame l a b) (s : Part.offInv l = true) : b.Inv ↔ a.Inv := by
  simp only [Part.offInv, Bool.and_eq_true, Bool.not_eq_true', List.contains_eq_mem, decide_eq_false_iff_not] at s
  have h1 : b.mem = a.mem := h .mem s.1.1.1
  have h2 : b.cyc = a.cyc := h .cyc s.1.1.2
  have h3 : b.hull = a.hull := h .hull s.1.2
  have h4 : b.code = a.code := h .code s.2
  unfold Dev.Inv
  rw [h1, h2, h3, h4]

theorem Dev.inv_ite {b c : Dev} {p : Prop} [Decidable p] :
    (if p then b else c).Inv ↔ (p → b.Inv) ∧ (¬ p → c.Inv) := by
  split <;> simp_all

theorem Dev.inv_ite1 {γ : Type} {b c : Dev × γ} {p : Prop} [Decidable p] :
    (if p then b else c).1.Inv ↔ (p → b.1.Inv) ∧ (¬ p → c.1.Inv) := by
  split <;> simp_all

theorem Dev.inv_foldl {α : Type} {f : Dev → α → Dev} (h : ∀ d x, d.Inv → (f d x).Inv) :
    ∀ (xs : List α) {d : Dev}, d.Inv → (xs.foldl f d).Inv
  | [], _, hd => hd
  | x :: xs, d, hd => Dev.inv_foldl h xs (h d x hd)

theorem Dev.inv_foldlPair {α β : Type} {f : Dev × β → α → Dev × β} (h : ∀ s x, s.1.Inv → (f s x).1.Inv) :
    ∀ (xs : List α) {s : Dev × β}, s.1.Inv → (xs.foldl f s).1.Inv
  | [], _, hd => hd
  | x :: xs, s, hd => Dev.inv_foldlPair h xs (h s x hd)

/-- The Hull's part of the invariant. -/
def Hull.Ok (h : Hull) : Prop := h.tier ≤ 3 ∧ (h.tier = 3 → h.latch = true ∧ h.pinA = false ∧ h.pinB = false)

theorem Dev.inv_hull {d : Dev} {x : Hull} (hd : d.Inv) (hx : x.Ok) : Dev.Inv { d with hull := x } :=
  ⟨hd.1, hd.2.1, hd.2.2.1, hx⟩

theorem Dev.Inv.hull {d : Dev} (hd : d.Inv) : d.hull.Ok := hd.2.2.2

/-- A Hull update that leaves tier, latch and pins alone. -/
theorem Dev.inv_hullSame {d : Dev} {x : Hull} (e1 : x.tier = d.hull.tier) (e2 : x.latch = d.hull.latch) (e3 : x.pinA = d.hull.pinA)
    (e4 : x.pinB = d.hull.pinB) :
    Dev.Inv { d with hull := x } ↔ d.Inv := by
  unfold Dev.Inv
  simp only [e1, e2, e3, e4]

theorem Dev.inv_cycSame {d : Dev} {x : Cycles} (e : x.flight.length ≤ d.cyc.flight.length) (hd : d.Inv) :
    Dev.Inv { d with cyc := x } :=
  ⟨hd.1, hd.2.1, Nat.le_trans e hd.2.2.1, hd.2.2.2⟩

theorem Dev.inv_flightSame {d : Dev} {x : Cycles} (e : x.flight = d.cyc.flight) : Dev.Inv { d with cyc := x } ↔ d.Inv := by
  unfold Dev.Inv
  simp only [e]

theorem Dev.inv_bytesSame {d : Dev} {x : Memory} (e : x.bytes = d.mem.bytes) : Dev.Inv { d with mem := x } ↔ d.Inv := by
  unfold Dev.Inv Memory.wf
  simp only [e]

theorem Dev.inv_mem {d : Dev} {x : Memory} (hd : d.Inv) (hx : x.wf = true) : Dev.Inv { d with mem := x } := ⟨hx, hd.2⟩

@[simp] theorem Dev.inv_time {d : Dev} {v} : Dev.Inv { d with time := v } ↔ d.Inv := Iff.rfl

@[simp] theorem Dev.inv_log {d : Dev} {v} : Dev.Inv { d with log := v } ↔ d.Inv := Iff.rfl

@[simp] theorem Dev.inv_dict {d : Dev} {v} : Dev.Inv { d with dict := v } ↔ d.Inv := Iff.rfl

@[simp] theorem Dev.inv_intake {d : Dev} {v} : Dev.Inv { d with intake := v } ↔ d.Inv := Iff.rfl

@[simp] theorem Dev.inv_pods {d : Dev} {v} : Dev.Inv { d with pods := v } ↔ d.Inv := Iff.rfl

@[simp] theorem Dev.inv_movers {d : Dev} {v} : Dev.Inv { d with movers := v } ↔ d.Inv := Iff.rfl

@[simp] theorem Dev.inv_ddr {d : Dev} {v} : Dev.Inv { d with ddr := v } ↔ d.Inv := Iff.rfl

@[simp] theorem Dev.inv_prog {d : Dev} {v} : Dev.Inv { d with prog := v } ↔ d.Inv := Iff.rfl

@[simp] theorem Dev.inv_sched {d : Dev} {v} : Dev.Inv { d with sched := v } ↔ d.Inv := Iff.rfl

@[simp] theorem Dev.inv_sync {d : Dev} {v} : Dev.Inv { d with sync := v } ↔ d.Inv := Iff.rfl

@[simp] theorem Dev.inv_cover {d : Dev} {v} : Dev.Inv { d with cover := v } ↔ d.Inv := Iff.rfl

@[simp] theorem Dev.inv_fus {d : Dev} {v} : Dev.Inv { d with fus := v } ↔ d.Inv := Iff.rfl

@[simp] theorem Dev.inv_kv {d : Dev} {v} : Dev.Inv { d with kv := v } ↔ d.Inv := Iff.rfl

@[simp] theorem Dev.inv_solvers {d : Dev} {v} : Dev.Inv { d with solvers := v } ↔ d.Inv := Iff.rfl

@[simp] theorem Dev.inv_twin {d : Dev} {v} : Dev.Inv { d with twin := v } ↔ d.Inv := Iff.rfl

@[simp] theorem Dev.inv_palca {d : Dev} {v} : Dev.Inv { d with palca := v } ↔ d.Inv := Iff.rfl

@[simp] theorem Dev.inv_power {d : Dev} {v} : Dev.Inv { d with power := v } ↔ d.Inv := Iff.rfl

@[simp] theorem Dev.inv_start {d : Dev} {v} : Dev.Inv { d with start := v } ↔ d.Inv := Iff.rfl

@[simp] theorem Dev.inv_recd {d : Dev} {v} : Dev.Inv { d with recd := v } ↔ d.Inv := Iff.rfl

@[simp] theorem Dev.inv_sec {d : Dev} {v} : Dev.Inv { d with sec := v } ↔ d.Inv := Iff.rfl

@[simp] theorem Dev.inv_edge {d : Dev} {v} : Dev.Inv { d with edge := v } ↔ d.Inv := Iff.rfl

@[simp] theorem Dev.inv_out {d : Dev} {v} : Dev.Inv { d with out := v } ↔ d.Inv := Iff.rfl

@[simp] theorem Dev.inv_free {d : Dev} {v} : Dev.Inv { d with free := v } ↔ d.Inv := Iff.rfl

@[simp] theorem Dev.inv_palca_recd {d : Dev} {v0 v1} :
    Dev.Inv { d with palca := v0, recd := v1 } ↔ d.Inv := Iff.rfl

@[simp] theorem Dev.inv_pods_movers_ddr_solvers {d : Dev} {v0 v1 v2 v3} :
    Dev.Inv { d with pods := v0, movers := v1, ddr := v2, solvers := v3 } ↔ d.Inv := Iff.rfl

@[simp] theorem Dev.inv_power_start {d : Dev} {v0 v1} :
    Dev.Inv { d with power := v0, start := v1 } ↔ d.Inv := Iff.rfl

@[simp] theorem Dev.inv_sched_sync_fus {d : Dev} {v0 v1 v2} :
    Dev.Inv { d with sched := v0, sync := v1, fus := v2 } ↔ d.Inv := Iff.rfl

theorem Dev.inv_cyc_intake_sched {d : Dev} {v v1 v2} :
    Dev.Inv { d with cyc := v, intake := v1, sched := v2 } ↔ Dev.Inv { d with cyc := v } := Iff.rfl

theorem Dev.inv_cyc_intake {d : Dev} {v v1} : Dev.Inv { d with cyc := v, intake := v1 } ↔ Dev.Inv { d with cyc := v } := Iff.rfl

theorem Dev.inv_time_cyc {d : Dev} {v v1} : Dev.Inv { d with time := v1, cyc := v } ↔ Dev.Inv { d with cyc := v } := Iff.rfl

theorem Dev.inv_mem_ddr {d : Dev} {v v1} : Dev.Inv { d with mem := v, ddr := v1 } ↔ Dev.Inv { d with mem := v } := Iff.rfl

theorem Dev.inv_pods_mem {d : Dev} {v v1} : Dev.Inv { d with pods := v1, mem := v } ↔ Dev.Inv { d with mem := v } := Iff.rfl

theorem Dev.inv_onEdge {d : Dev} {f : Dev → Dev} :
    (Dev.onEdge d f).Inv ↔ (hasEdge d.code = true → (f d).Inv) ∧ (¬ hasEdge d.code = true → d.Inv) := by
  unfold Dev.onEdge
  exact Dev.inv_ite

@[simp] theorem Dev.inv_palca_out {d : Dev} {v0 v1} :
    Dev.Inv { d with palca := v0, out := v1 } ↔ d.Inv := Iff.rfl

theorem Dev.inv_cyc_prog {d : Dev} {v v1} : Dev.Inv { d with cyc := v, prog := v1 } ↔ Dev.Inv { d with cyc := v } := Iff.rfl

theorem Dev.admit_inv {g : Dev → Dev} (hg : ∀ e, e.Inv → (g e).Inv) (d : Dev) (port : Nat) (v4 : Bool) (f : HostFrame) (h : d.Inv) :
    (Dev.hostReceive d port v4 f g).Inv := by
  unfold Dev.hostReceive
  split
  · exact hg d h
  · exact ((Dev.count_frame _ _ _).inv (by decide)).2 h
  · exact h

theorem Dev.datagram_inv {g : Dev → Dev} (hg : ∀ e, e.Inv → (g e).Inv) (d : Dev) (port : ReqPort) (addr : BitVec 128) (f : HostFrame)
    (h : d.Inv) : (Dev.datagram d port addr f g).Inv := by
  unfold Dev.datagram
  split
  · exact h
  · split
    · exact hg d h
    · exact Dev.admit_inv hg _ _ _ _ h

theorem Dev.readSlots_inv {work : Dev → Dev} (hw : ∀ e, e.Inv → (work e).Inv) (d : Dev) (f : Fusion) (slots : List Nat)
    (l : List SlotUpset) (h : d.Inv) : (Dev.readSlots d f slots l work).1.Inv := by
  unfold Dev.readSlots
  dsimp only
  split
  · exact hw d h
  · exact Dev.inv_foldl (fun e x he => ((Dev.raise_frame _ _ _ _).inv (by decide)).2 he) _ h

theorem Dev.serve_inv {f : Nat → Dev → Dev × Option Reply} (hf : ∀ n e, e.Inv → (f n e).1.Inv) (d : Dev) (r : Req) (op idx sub : Nat)
    (part : Bool) (off : Nat) (payload : List Byte) (h : d.Inv) : (Dev.serve d r op idx sub part off payload f).Inv := by
  unfold Dev.serve
  refine Dev.datagram_inv (fun d h => ?_) _ _ _ _ h
  have run : ∀ (g : Dev → Dev × Option Reply), (∀ e, e.Inv → (g e).1.Inv) → Dev.Inv
      (match d.repeatOf r ([op, idx, sub, b2n part, off] ++ byteNats payload) with
      | some k => d.reply r k.response
      | none => match d.heldOf r ([op, idx, sub, b2n part, off] ++ byteNats payload) with
        | some h => { d with palca := { d.palca with held := d.palca.held ++ [{ h with req := r }] } }
        | none => match g d with
          | (d', some x) => d'.answer r op idx sub ([op, idx, sub, b2n part, off] ++ byteNats payload)
              (responseBytes r op idx sub part off x) d.recd.jseq
          | (d', none) => d') := by
    intro g hg
    have k := hg d h
    split
    · exact ((Dev.reply_frame _ _ _).inv (by decide)).2 h
    · split
      · exact h
      · split
        · rename_i heq
          rw [heq] at k
          exact ((Dev.answer_frame _ _ _ _ _ _ _ _).inv (by decide)).2 k
        · rename_i heq
          rw [heq] at k
          exact k
  dsimp only
  split
  · refine ((Dev.raise_frame _ _ _ _).inv (by decide)).2 ?_
    split
    · exact h
    · exact ((Dev.count_frame _ _ _).inv (by decide)).2 h
  · split
    · refine run _ ?_
      split
      · exact hf 7
      · exact fun e he => he
    · split
      · exact ((Dev.raise_frame _ _ _ _).inv (by decide)).2 h
      · exact run _ (hf _)

theorem Dev.writeWith_inv {own : List Nat → Dev → Dev × Reply} (hf : ∀ v e, e.Inv → (own v e).1.Inv) (d : Dev) (r : Req) (idx sub : Nat)
    (part : Bool) (payload : List Byte) (stays : Bool) (h : d.Inv) : (Dev.writeWith d r idx sub part payload own stays).Inv := by
  unfold Dev.writeWith
  refine Dev.serve_inv (fun n e he => ?_) _ _ _ _ _ _ _ _ h
  split
  · split
    · exact he
    · exact ((Dev.writeEv_frame _ _ _ _ _ _).inv (by decide)).2 he
  · split
    · exact he
    · exact hf _ _ he

end Sys2Proof.Machine
end

