-- ==== Sys2Proof/Laws/InvWork.lean ====
section
/-! SUPPORT. The invariant is kept by the shared operations, the time base, the Pods, movers, engines and the intake; one lemma for each operation and each command that reaches memory, the
cycle or the Hull. -/

set_option linter.unusedSimpArgs false
set_option linter.unusedTactic false
set_option linter.unreachableTactic false

namespace Sys2Proof.Machine

open Sys2Proof

theorem Dev.store_inv (d : Dev) (k : Nat) (l : List Byte) (h : d.Inv) :
    (Dev.store d k l).Inv := Dev.inv_mem h (Memory.store_wf h.1 _ _)

theorem Dev.putA_inv (d : Dev) (own : Option Nat) (a : Nat) (x0 : List Byte) (h : d.Inv) :
    (Dev.putA d own a x0).Inv := by
  induction x0 generalizing d a with
  | nil => exact h
  | cons b t ih =>
    unfold Dev.putA
    refine ih _ _ ?_
    split
    · exact Dev.inv_mem h (Memory.write_wf h.1 _ _)
    · exact h

theorem Dev.storeA_inv (d : Dev) (own : Option Nat) (a : Nat) (l : List Byte) (h : d.Inv) :
    (Dev.storeA d own a l).Inv := by
  unfold Dev.storeA
  have hp := Dev.putA_inv d own a l h
  dsimp only
  split
  · exact hp
  · exact Dev.inv_mem hp hp.1

theorem Dev.eccRead_inv (d : Dev) (e : EccEvent) (h : d.Inv) :
    (Dev.eccRead d e).Inv := by
  unfold Dev.eccRead
  split
  · exact Dev.inv_mem h h.1
  · refine ((Dev.poisonRead_frame _ _).inv (by decide)).2 ?_
    split
    · exact ((Dev.badRow_frame _ _).inv (by decide)).2 (Dev.inv_mem h h.1)
    · exact Dev.inv_mem h h.1

theorem Dev.eccReads_inv (d : Dev) (l : List EccEvent) (h : d.Inv) :
    (Dev.eccReads d l).Inv := by
  unfold Dev.eccReads
  repeat' (first
    | (with_reducible assumption)
    | simp only [h, implies_true, and_self]
    | (with_reducible refine Dev.eccRead_inv _ _ ?_)
    | (with_reducible refine Dev.inv_foldl (fun e x he => ?_) _ ?_)
    | (with_reducible refine Dev.inv_foldlPair (fun e x he => ?_) _ ?_)
    | (with_reducible refine And.intro ?_ ?_)
    | (with_reducible intro _)
    | split)

theorem Dev.readKeys_inv (d : Dev) (rs : List (Nat × Nat)) (ecc : List EccEvent) (h : d.Inv) :
    (Dev.readKeys d rs ecc).1.Inv := by
  unfold Dev.readKeys
  repeat' (first
    | (with_reducible assumption)
    | simp only [↓(Dev.poisonRead_frame _ _).inv (by decide), ↓Dev.inv_ite, ↓Dev.inv_ite1, h, implies_true, and_self]
    | (with_reducible refine Dev.eccReads_inv _ _ ?_)
    | (with_reducible refine Dev.inv_foldl (fun e x he => ?_) _ ?_)
    | (with_reducible refine Dev.inv_foldlPair (fun e x he => ?_) _ ?_)
    | (with_reducible refine And.intro ?_ ?_)
    | (with_reducible intro _)
    | split)

theorem Dev.eltPut_inv (d : Dev) (own : Option Nat) (t : TDesc) (i : List Nat) (v : Nat) (h : d.Inv) :
    (Dev.eltPut d own t i v).Inv := by
  unfold Dev.eltPut
  repeat' (first
    | (with_reducible assumption)
    | simp only [↓Dev.inv_ite, ↓Dev.inv_ite1, h, implies_true, and_self]
    | (with_reducible refine Dev.storeA_inv _ _ _ _ ?_)
    | (with_reducible refine And.intro ?_ ?_)
    | (with_reducible intro _)
    | split)

theorem Dev.healElts_inv (d : Dev) (own : Option Nat) (t : TDesc) (l : List (List Nat)) (h : d.Inv) :
    (Dev.healElts d own t l).Inv := by
  unfold Dev.healElts
  dsimp only
  split
  · exact h
  · exact Dev.inv_mem h h.1

theorem Dev.setValid_inv (d : Dev) (own : Option Nat) (t : TDesc) (i : List Nat) (v : Bool) (h : d.Inv) :
    (Dev.setValid d own t i v).Inv := by
  unfold Dev.setValid
  repeat' (first
    | (with_reducible assumption)
    | simp only [↓Dev.inv_ite, ↓Dev.inv_ite1, h, implies_true, and_self]
    | (with_reducible refine Dev.storeA_inv _ _ _ _ ?_)
    | (with_reducible refine And.intro ?_ ?_)
    | (with_reducible intro _)
    | split)

theorem Dev.putTimes_inv (d : Dev) (own : Option Nat) (a : Nat) (t : Option Times) (faulted : Bool) (h : d.Inv) :
    (Dev.putTimes d own a t faulted).Inv := by
  unfold Dev.putTimes
  repeat' (first
    | (with_reducible assumption)
    | simp only [h, implies_true, and_self]
    | (with_reducible refine Dev.storeA_inv _ _ _ _ ?_)
    | (with_reducible refine And.intro ?_ ?_)
    | (with_reducible intro _)
    | split)

theorem Dev.markFaulted_inv (d : Dev) (own : Option Nat) (a : Nat) (h : d.Inv) :
    (Dev.markFaulted d own a).Inv := by
  unfold Dev.markFaulted
  repeat' (first
    | (with_reducible assumption)
    | simp only [h, implies_true, and_self]
    | (with_reducible refine Dev.storeA_inv _ _ _ _ ?_)
    | (with_reducible refine And.intro ?_ ?_)
    | (with_reducible intro _)
    | split)

theorem Dev.sendStatus_inv (d : Dev) (h : d.Inv) :
    (Dev.sendStatus d).Inv := by
  unfold Dev.sendStatus
  split
  · exact h
  · refine Dev.inv_palca.2 (Dev.inv_foldl (fun e x he => Dev.inv_foldl (fun e p he => ?_) _ he) _ ?_)
    · exact ((Dev.emitHost_frame _ _ _ _ _).inv (by decide)).2 he
    · exact (Dev.inv_hullSame rfl rfl rfl rfl).2 h

theorem Dev.huskStop_inv (d : Dev) (h : d.Inv) :
    (Dev.huskStop d).Inv := by
  unfold Dev.huskStop
  repeat' (first
    | (with_reducible assumption)
    | simp (disch := rfl) only [↓(Dev.emit_frame _ _ _ _).inv (by decide), ↓Dev.inv_ite, ↓Dev.inv_ite1,
      ↓Dev.inv_hullSame, h, implies_true, and_self]
    | (with_reducible refine And.intro ?_ ?_)
    | (with_reducible intro _)
    | split)

/-- What the stop on entry to tier 3 leaves of tier and latch. -/
theorem Dev.enterStop_hull (d : Dev) (cause : Nat) (cat0 : Bool) :
    (Dev.enterStop d cause cat0).hull.tier = d.hull.tier ∧ (Dev.enterStop d cause cat0).hull.latch = true := by
  have fold : ∀ (g : Dev → Nat → Dev), (∀ e q, (g e q).hull.tier = e.hull.tier ∧ (g e q).hull.latch = e.hull.latch) →
      ∀ (l : List Nat) (e : Dev), (l.foldl g e).hull.tier = e.hull.tier ∧ (l.foldl g e).hull.latch = e.hull.latch := by
    intro g hg l
    induction l with
    | nil => exact fun e => ⟨rfl, rfl⟩
    | cons q l ih => exact fun e => ⟨(ih _).1.trans (hg e q).1, (ih _).2.trans (hg e q).2⟩
  have tail : ∀ e : Dev, (if (e.effect cause 3).inRun ||
      (e.effect cause 3).log.entries.any (fun x => x.cause == cause && x.effect == 3) then (e.effect cause 3).recEvent cause
      else e.effect cause 3).hull = e.hull := by
    intro e
    have h1 : (e.effect cause 3).hull = e.hull := (Dev.effect_frame e cause 3) .hull (by decide)
    split
    · exact Eq.trans ((Dev.recEvent_frame (e.effect cause 3) cause) .hull (by decide)) h1
    · exact h1
  unfold Dev.enterStop
  dsimp only
  rw [tail]
  have start : (Dev.occur { d with hull := { d.hull with latch := true, stopCause := cause } } 0x7000 0x10).hull =
      { d.hull with latch := true, stopCause := cause } := (Dev.occur_frame _ _ _) .hull (by decide)
  refine ⟨Eq.trans (fold _ ?a _ _).1 ?b, Eq.trans (fold _ ?a _ _).2 ?c⟩
  case b => rw [start]
  case c => rw [start]
  case a =>
    intro e q
    split
    · split
      · exact ⟨rfl, rfl⟩
      · split <;> exact ⟨rfl, rfl⟩
    · exact ⟨rfl, rfl⟩

/-- What the invariant asks for before the pins follow the tier. -/
def Dev.PreInv (d : Dev) : Prop :=
  d.mem.wf = true ∧ (1 ≤ d.code ∧ d.code ≤ 4) ∧ d.cyc.flight.length ≤ 2 ∧ d.hull.tier ≤ 3 ∧ (d.hull.tier = 3 → d.hull.latch = true)

theorem Dev.enterStop_pre (d : Dev) (cause : Nat) (cat0 : Bool)
    (h : d.mem.wf = true ∧ (1 ≤ d.code ∧ d.code ≤ 4) ∧ d.cyc.flight.length ≤ 2 ∧ d.hull.tier ≤ 3) :
    (Dev.enterStop d cause cat0).PreInv := by
  have k := Dev.enterStop_hull d cause cat0
  have f := Dev.enterStop_frame d cause cat0
  have h1 : (Dev.enterStop d cause cat0).mem = d.mem := f .mem (by decide)
  have h2 : (Dev.enterStop d cause cat0).code = d.code := f .code (by decide)
  have h3 : (Dev.enterStop d cause cat0).cyc = d.cyc := f .cyc (by decide)
  unfold Dev.PreInv
  rw [h1, h2, h3, k.1, k.2]
  exact ⟨h.1, h.2.1, h.2.2.1, h.2.2.2, fun _ => rfl⟩

theorem Dev.showTier_inv (d : Dev) (h : d.PreInv) : (Dev.showTier d).Inv := by
  unfold Dev.showTier
  refine Dev.sendStatus_inv _ (((Dev.sendDecision_frame _).inv (by decide)).2 (((Dev.sendCommand_frame _).inv (by decide)).2 ?_))
  refine ⟨h.1, h.2.1, h.2.2.1, h.2.2.2.1, fun e => ⟨h.2.2.2.2 e, ?_, ?_⟩⟩ <;>
  · simp only at e
    simp [e]

theorem Dev.retier_inv (d : Dev) (cause : Nat) (cat0 : Bool) (h : d.Inv) :
    (Dev.retier d cause cat0).Inv := by
  have hd : d.demanded ≤ 3 := Nat.min_le_left _ _
  unfold Dev.retier
  dsimp only
  generalize d.demanded = dem at hd ⊢
  split
  · refine Dev.showTier_inv _ ?_
    split
    · exact Dev.enterStop_pre _ _ _ ⟨h.1, h.2.1, h.2.2.1, hd⟩
    · rename_i hn
      exact ⟨h.1, h.2.1, h.2.2.1, hd, fun e => absurd e hn⟩
  · split
    · exact ((Dev.sendCommand_frame _).inv (by decide)).2 ((Dev.inv_hullSame rfl rfl rfl rfl).2 h)
    · exact h

theorem Dev.demand_inv (d : Dev) (src tier cause : Nat) (h : d.Inv) :
    (Dev.demand d src tier cause).Inv := by
  unfold Dev.demand
  repeat' (first
    | (with_reducible assumption)
    | simp (disch := rfl) only [↓Dev.inv_hullSame, h, implies_true, and_self]
    | (with_reducible refine Dev.retier_inv _ _ _ ?_)
    | (with_reducible refine And.intro ?_ ?_)
    | (with_reducible intro _)
    | split)

theorem Dev.demandOnce_inv (d : Dev) (tier cause : Nat) (h : d.Inv) :
    (Dev.demandOnce d tier cause).Inv := by
  unfold Dev.demandOnce
  repeat' (first
    | (with_reducible assumption)
    | simp only [h, implies_true, and_self]
    | (with_reducible refine Dev.demand_inv _ _ _ _ ?_)
    | (with_reducible refine And.intro ?_ ?_)
    | (with_reducible intro _)
    | split)

theorem Dev.protect_inv (d : Dev) (src tier cause : Nat) (h : d.Inv) :
    (Dev.protect d src tier cause).Inv := by
  unfold Dev.protect
  repeat' (first
    | (with_reducible assumption)
    | simp only [↓(Dev.effect_frame _ _ _).inv (by decide), ↓(Dev.occur_frame _ _ _).inv (by decide),
      ↓(Dev.recEvent_frame _ _).inv (by decide), h, implies_true, and_self]
    | (with_reducible refine Dev.demand_inv _ _ _ _ ?_)
    | (with_reducible refine And.intro ?_ ?_)
    | (with_reducible intro _)
    | split)

theorem Dev.lower_inv (d : Dev) (h : d.Inv) :
    (Dev.lower d).Inv := by
  have hh := h.hull
  unfold Dev.lower
  dsimp only
  generalize d.releaseTarget = tgt
  split
  · rename_i ht
    have ht3 : tgt < 3 := Nat.lt_of_lt_of_le ht hh.1
    have le : tgt ≤ 3 := Nat.le_of_lt ht3
    have ne : tgt ≠ 3 := Nat.ne_of_lt ht3
    split
    · rename_i c
      simp only [c.1, Bool.false_eq_true, and_false, if_false]
      exact Dev.showTier_inv _ ⟨h.1, h.2.1, h.2.2.1, le, fun e => absurd e ne⟩
    · split
      · exact h
      · exact Dev.showTier_inv _ ⟨h.1, h.2.1, h.2.2.1, le, fun e => absurd e ne⟩
  · exact h

theorem Dev.restoreOutputs_inv (d : Dev) (h : d.Inv) :
    (Dev.restoreOutputs d).Inv := by
  unfold Dev.restoreOutputs
  repeat' (first
    | (with_reducible assumption)
    | simp (disch := rfl) only [↓Dev.inv_ite, ↓Dev.inv_ite1, ↓Dev.inv_hullSame, h, implies_true, and_self]
    | (with_reducible refine And.intro ?_ ?_)
    | (with_reducible intro _)
    | split)

theorem Dev.refFault_inv (d : Dev) (cause src : Nat) (h : d.Inv) :
    (Dev.refFault d cause src).Inv := by
  unfold Dev.refFault
  repeat' (first
    | (with_reducible assumption)
    | simp only [↓(Dev.raise_frame _ _ _ _).inv (by decide), h, implies_true, and_self]
    | (with_reducible refine Dev.huskStop_inv _ ?_)
    | (with_reducible refine Dev.protect_inv _ _ _ _ ?_)
    | (with_reducible refine And.intro ?_ ?_)
    | (with_reducible intro _)
    | split)

theorem refClockWindow_inv (edges : Nat) (d : Dev) (h : d.Inv) :
    (refClockWindow edges d).Inv := by
  unfold refClockWindow
  repeat' (first
    | (with_reducible assumption)
    | simp only [↓Dev.inv_power, ↓Dev.inv_ite, ↓Dev.inv_ite1, h, implies_true, and_self]
    | (with_reducible refine Dev.refFault_inv _ _ _ ?_)
    | (with_reducible refine And.intro ?_ ?_)
    | (with_reducible intro _)
    | split)

theorem execRefClockWindow_inv (edges : Nat) (s : State) (h : s.dev.Inv) :
    ∃ d, execRefClockWindow edges s = .next { s with dev := d } ∧ d.Inv := ⟨_, rfl, refClockWindow_inv _ _ h⟩

theorem Dev.genFault_inv (d : Dev) (cause : Nat) (h : d.Inv) :
    (Dev.genFault d cause).Inv := by
  unfold Dev.genFault
  repeat' (first
    | (with_reducible assumption)
    | simp (disch := rfl) only [↓Dev.inv_hullSame, h, implies_true, and_self]
    | (with_reducible refine And.intro ?_ ?_)
    | (with_reducible intro _)
    | split)

theorem Dev.signal_inv (d : Dev) (o inc : Nat) (err : Bool) (cause : Nat) (h : d.Inv) :
    (Dev.signal d o inc err cause).Inv := by
  unfold Dev.signal
  repeat' (first
    | (with_reducible assumption)
    | simp only [↓(Dev.raiseIf_frame _ _ _ _ _).inv (by decide), ↓(Dev.releaseWaiters_frame _ _).inv (by decide),
      ↓(Dev.setSync_frame _ _ _).inv (by decide), ↓Dev.inv_ite, ↓Dev.inv_ite1, h, implies_true, and_self]
    | (with_reducible refine Dev.genFault_inv _ _ ?_)
    | (with_reducible refine And.intro ?_ ?_)
    | (with_reducible intro _)
    | split)

theorem syncSignal_inv (who : SyncIssuer) (obj inc : Nat) (err : Bool) (cause : Nat) (d : Dev) (h : d.Inv) :
    (syncSignal who obj inc err cause d).Inv := by
  unfold syncSignal
  repeat' (first
    | (with_reducible assumption)
    | simp only [↓(Dev.raise_frame _ _ _ _).inv (by decide), ↓Dev.inv_ite, ↓Dev.inv_ite1, h, implies_true, and_self]
    | (with_reducible refine Dev.signal_inv _ _ _ _ _ ?_)
    | (with_reducible refine And.intro ?_ ?_)
    | (with_reducible intro _)
    | split)

theorem execSyncSignal_inv (who : SyncIssuer) (obj inc : Nat) (err : Bool) (cause : BitVec 16) (s : State) (h :
      s.dev.Inv) :
    ∃ d, execSyncSignal who obj inc err cause s = .next { s with dev := d } ∧ d.Inv := ⟨_, rfl, syncSignal_inv _ _ _ _ _ _ h⟩

theorem barrierArrive_inv (who : SyncIssuer) (group : Nat) (err : Bool) (d : Dev) (h : d.Inv) :
    (barrierArrive who group err d).Inv := by
  unfold barrierArrive
  repeat' (first
    | (with_reducible assumption)
    | simp only [↓(Dev.raise_frame _ _ _ _).inv (by decide), ↓(Dev.waitReturn_frame _ _ _ _).inv (by decide),
      ↓Dev.inv_sync, h, implies_true, and_self]
    | (with_reducible refine Dev.signal_inv _ _ _ _ _ ?_)
    | (with_reducible refine And.intro ?_ ?_)
    | (with_reducible intro _)
    | split)

theorem execBarrierArrive_inv (who : SyncIssuer) (group : Nat) (err : Bool) (s : State) (h : s.dev.Inv) :
    ∃ d, execBarrierArrive who group err s = .next { s with dev := d } ∧ d.Inv := ⟨_, rfl, barrierArrive_inv _ _ _ _ h⟩

theorem Dev.entrySignals_inv (d : Dev) (t i : Nat) (part : Option Nat) (o inc : Nat) (err : Bool) (cause : Nat) (h :
      d.Inv) :
    (Dev.entrySignals d t i part o inc err cause).Inv := by
  unfold Dev.entrySignals
  repeat' (first
    | (with_reducible assumption)
    | simp only [↓(Dev.raise_frame _ _ _ _).inv (by decide), ↓Dev.inv_ite, ↓Dev.inv_ite1, h, implies_true, and_self]
    | (with_reducible refine Dev.signal_inv _ _ _ _ _ ?_)
    | (with_reducible refine And.intro ?_ ?_)
    | (with_reducible intro _)
    | split)

theorem Dev.signalEntry_inv (d : Dev) (t i : Nat) (part : Option Nat) (err : Bool) (cause : Nat) (h : d.Inv) :
    (Dev.signalEntry d t i part err cause).Inv := by
  unfold Dev.signalEntry
  repeat' (first
    | (with_reducible assumption)
    | simp only [h, implies_true, and_self]
    | (with_reducible refine Dev.entrySignals_inv _ _ _ _ _ _ _ _ ?_)
    | (with_reducible refine And.intro ?_ ?_)
    | (with_reducible intro _)
    | split)

theorem Dev.finish_inv (d : Dev) (k : Ticket) (part : Option Nat) (err : Bool) (cause : Nat) (h : d.Inv) :
    (Dev.finish d k part err cause).Inv := by
  unfold Dev.finish
  repeat' (first
    | (with_reducible assumption)
    | simp only [↓(Dev.endEntry_frame _ _ _).inv (by decide), h, implies_true, and_self]
    | (with_reducible refine Dev.signalEntry_inv _ _ _ _ _ _ ?_)
    | (with_reducible refine And.intro ?_ ?_)
    | (with_reducible intro _)
    | split)

theorem Dev.faultOutputs_inv (d : Dev) (own : Option Nat) (t i : Nat) (h : d.Inv) :
    (Dev.faultOutputs d own t i).Inv := by
  unfold Dev.faultOutputs
  repeat' (first
    | (with_reducible assumption)
    | simp only [h, implies_true, and_self]
    | (with_reducible refine Dev.markFaulted_inv _ _ _ ?_)
    | (with_reducible refine Dev.inv_foldl (fun e x he => ?_) _ ?_)
    | (with_reducible refine Dev.inv_foldlPair (fun e x he => ?_) _ ?_)
    | (with_reducible refine And.intro ?_ ?_)
    | (with_reducible intro _)
    | split)

theorem Dev.skipEntry_inv (d : Dev) (t i cause : Nat) (h : d.Inv) :
    (Dev.skipEntry d t i cause).Inv := by
  unfold Dev.skipEntry
  repeat' (first
    | (with_reducible assumption)
    | simp only [↓(Dev.checkPass_frame _ _).inv (by decide), ↓(Dev.modPass_frame _ _ _).inv (by decide),
      ↓(Dev.occur_frame _ _ _).inv (by decide), ↓(Dev.raise_frame _ _ _ _).inv (by decide), ↓Dev.inv_ite,
      ↓Dev.inv_ite1, h, implies_true, and_self]
    | (with_reducible refine Dev.faultOutputs_inv _ _ _ _ ?_)
    | (with_reducible refine Dev.signalEntry_inv _ _ _ _ _ _ ?_)
    | (with_reducible refine And.intro ?_ ?_)
    | (with_reducible intro _)
    | split)

theorem Dev.skipUnstarted_inv (d : Dev) (t : Nat) (h : d.Inv) :
    (Dev.skipUnstarted d t).Inv := by
  unfold Dev.skipUnstarted
  repeat' (first
    | (with_reducible assumption)
    | simp only [h, implies_true, and_self]
    | (with_reducible refine Dev.skipEntry_inv _ _ _ _ ?_)
    | (with_reducible refine Dev.inv_foldl (fun e x he => ?_) _ ?_)
    | (with_reducible refine Dev.inv_foldlPair (fun e x he => ?_) _ ?_)
    | (with_reducible refine And.intro ?_ ?_)
    | (with_reducible intro _)
    | split)

theorem Dev.spoil_inv (d : Dev) (cause : Nat) (h : d.Inv) :
    (Dev.spoil d cause).Inv := by
  unfold Dev.spoil
  repeat' (first
    | (with_reducible assumption)
    | simp only [↓Dev.inv_ite, ↓Dev.inv_ite1, h, implies_true, and_self]
    | (with_reducible refine Dev.genFault_inv _ _ ?_)
    | (with_reducible refine And.intro ?_ ?_)
    | (with_reducible intro _)
    | split)

theorem Dev.cutPod_inv (d : Dev) (p : Nat) (h : d.Inv) :
    (Dev.cutPod d p).Inv := by
  unfold Dev.cutPod
  repeat' (first
    | (with_reducible assumption)
    | simp only [↓(Dev.modMover_frame _ _ _).inv (by decide), ↓(Dev.raise_frame _ _ _ _).inv (by decide), h,
      implies_true, and_self]
    | (with_reducible refine Dev.faultOutputs_inv _ _ _ _ ?_)
    | (with_reducible refine Dev.finish_inv _ _ _ _ _ ?_)
    | (with_reducible refine Dev.markFaulted_inv _ _ _ ?_)
    | (with_reducible refine Dev.signal_inv _ _ _ _ _ ?_)
    | (with_reducible refine Dev.inv_foldl (fun e x he => ?_) _ ?_)
    | (with_reducible refine Dev.inv_foldlPair (fun e x he => ?_) _ ?_)
    | (with_reducible refine And.intro ?_ ?_)
    | (with_reducible intro _)
    | split)

theorem Dev.takeOut_inv (d : Dev) (p : Nat) (h : d.Inv) :
    (Dev.takeOut d p).Inv := by
  unfold Dev.takeOut
  have short : ∀ {e : Dev} (l : Nat), e.Inv →
      Dev.Inv (({ e with pods := { e.pods with lost := sins l e.pods.lost } }.raise 0x030F p 0).protect srcShortage 3
      0x030F) :=
    fun l he => Dev.protect_inv _ _ _ _ (((Dev.raise_frame _ _ _ _).inv (by decide)).2 (Dev.inv_pods.2 he))
  have cut : ∀ f, Dev.Inv ((d.cutPod p).modPod p f) := fun f =>
    ((Dev.modPod_frame _ _ _).inv (by decide)).2 (Dev.cutPod_inv _ _ h)
  have clear : ∀ {e : Dev}, e.Inv → Dev.Inv { e with mem := e.mem.clearPod p } := fun he =>
    Dev.inv_mem he (Memory.clearPod_wf he.1 _)
  split
  · exact h
  · extract_lets wr log wins d1 d2 d3 src d4 sh
    have h4 : d4.Inv := Dev.inv_pods.2 (clear (cut _))
    clear_value d4
    split
    · split
      · exact short _ (Dev.inv_pods.2 (((Dev.raise_frame _ _ _ _).inv (by decide)).2 h4))
      · exact ((Dev.raise_frame _ _ _ _).inv (by decide)).2 h4
    · clear_value log
      cases log with
      | none => exact h4
      | some l =>
        dsimp only
        have h5 : Dev.Inv (d4.spoil 0x030A) := Dev.spoil_inv _ _ h4
        split
        · refine ((Dev.raise_frame _ _ _ _).inv (by decide)).2 (Dev.inv_pods.2 ?_)
          exact ((Dev.modPod_frame _ _ _).inv (by decide)).2 h5
        · exact short _ h5

theorem Dev.arithFault_inv (d : Dev) (p : Nat) (h : d.Inv) :
    (Dev.arithFault d p).Inv := by
  unfold Dev.arithFault
  repeat' (first
    | (with_reducible assumption)
    | simp only [↓(Dev.modPod_frame _ _ _).inv (by decide), ↓(Dev.occur_frame _ _ _).inv (by decide),
      ↓(Dev.raise_frame _ _ _ _).inv (by decide), ↓Dev.inv_ite, ↓Dev.inv_ite1, h, implies_true, and_self]
    | (with_reducible refine Dev.takeOut_inv _ _ ?_)
    | (with_reducible refine And.intro ?_ ?_)
    | (with_reducible intro _)
    | split)

theorem Dev.endDiag_inv (d : Dev) (kind : Nat) (h : d.Inv) :
    (Dev.endDiag d kind).Inv := by
  unfold Dev.endDiag
  repeat' (first
    | (with_reducible assumption)
    | simp only [↓(Dev.modCover_frame _ _ _ _).inv (by decide), ↓Dev.inv_ite, ↓Dev.inv_ite1, h, implies_true,
      and_self]
    | (with_reducible refine Dev.demand_inv _ _ _ _ ?_)
    | (with_reducible refine And.intro ?_ ?_)
    | (with_reducible intro _)
    | split)

theorem Dev.tested_inv (d : Dev) (kind unit : Nat) (h : d.Inv) :
    (Dev.tested d kind unit).Inv := by
  unfold Dev.tested
  repeat' (first
    | (with_reducible assumption)
    | simp only [↓(Dev.modCover_frame _ _ _ _).inv (by decide), ↓Dev.inv_ite, ↓Dev.inv_ite1, h, implies_true,
      and_self]
    | (with_reducible refine Dev.endDiag_inv _ _ ?_)
    | (with_reducible refine And.intro ?_ ?_)
    | (with_reducible intro _)
    | split)

theorem diagIntervalExceeded_inv (kind : Nat) (d : Dev) (h : d.Inv) :
    (diagIntervalExceeded kind d).Inv := by
  unfold diagIntervalExceeded
  repeat' (first
    | (with_reducible assumption)
    | simp only [↓(Dev.modCover_frame _ _ _ _).inv (by decide), ↓(Dev.raise_frame _ _ _ _).inv (by decide),
      ↓Dev.inv_ite, ↓Dev.inv_ite1, h, implies_true, and_self]
    | (with_reducible refine Dev.protect_inv _ _ _ _ ?_)
    | (with_reducible refine And.intro ?_ ?_)
    | (with_reducible intro _)
    | split)

theorem execDiagIntervalExceeded_inv (kind : Fin 8) (s : State) (h : s.dev.Inv) :
    ∃ d, execDiagIntervalExceeded kind s = .next { s with dev := d } ∧ d.Inv := ⟨_, rfl, diagIntervalExceeded_inv _ _ h⟩

theorem Dev.countRegion_inv (d : Dev) (h : d.Inv) :
    (Dev.countRegion d).Inv := by
  unfold Dev.countRegion
  repeat' (first
    | (with_reducible assumption)
    | simp (disch := rfl) only [↓Dev.inv_bytesSame, h, implies_true, and_self]
    | (with_reducible refine And.intro ?_ ?_)
    | (with_reducible intro _)
    | split)

theorem Dev.useSpare_inv (d : Dev) (bank key : Nat) (h : d.Inv) :
    (Dev.useSpare d bank key).Inv := by
  unfold Dev.useSpare
  repeat' (first
    | (with_reducible assumption)
    | simp (disch := rfl) only [↓Dev.inv_bytesSame, h, implies_true, and_self]
    | (with_reducible refine And.intro ?_ ?_)
    | (with_reducible intro _)
    | split)

theorem Dev.loseRegion_inv (d : Dev) (key : Nat) (h : d.Inv) :
    (Dev.loseRegion d key).Inv := by
  unfold Dev.loseRegion
  repeat' (first
    | (with_reducible assumption)
    | simp (disch := rfl) only [↓Dev.inv_ite, ↓Dev.inv_ite1, ↓Dev.inv_bytesSame, h, implies_true, and_self]
    | (with_reducible refine Dev.protect_inv _ _ _ _ ?_)
    | (with_reducible refine And.intro ?_ ?_)
    | (with_reducible intro _)
    | split)

theorem Dev.endTest_inv (d : Dev) (kind unit key : Nat) (early : Bool) (ecc : List EccEvent) (h : d.Inv) :
    (Dev.endTest d kind unit key early ecc).Inv := by
  unfold Dev.endTest
  repeat' (first
    | (with_reducible assumption)
    | simp (disch := rfl) only [↓(Dev.dropChunk_frame _ _ _).inv (by decide), ↓Dev.inv_ite, ↓Dev.inv_ite1,
      ↓Dev.inv_bytesSame, h, implies_true, and_self]
    | (with_reducible refine Dev.countRegion_inv _ ?_)
    | (with_reducible refine Dev.eccReads_inv _ _ ?_)
    | (with_reducible refine Dev.tested_inv _ _ _ ?_)
    | (with_reducible refine And.intro ?_ ?_)
    | (with_reducible intro _)
    | split)

theorem Dev.testRegion_inv (d : Dev) (bank spares kind unit inst region : Nat) (fails : Bool) (ecc : List EccEvent)
      (h : d.Inv) :
    (Dev.testRegion d bank spares kind unit inst region fails ecc).Inv := by
  unfold Dev.testRegion
  repeat' (first
    | (with_reducible assumption)
    | simp only [↓(Dev.raise_frame _ _ _ _).inv (by decide), ↓Dev.inv_ite, ↓Dev.inv_ite1, h, implies_true, and_self]
    | (with_reducible refine Dev.endTest_inv _ _ _ _ _ _ ?_)
    | (with_reducible refine Dev.loseRegion_inv _ _ ?_)
    | (with_reducible refine Dev.takeOut_inv _ _ ?_)
    | (with_reducible refine Dev.useSpare_inv _ _ _ ?_)
    | (with_reducible refine And.intro ?_ ?_)
    | (with_reducible intro _)
    | split)

theorem memtestRegionComplete_inv (b : Bank) (region : Nat) (fails : Bool) (ecc : List EccEvent) (d : Dev) (h :
      d.Inv) :
    (memtestRegionComplete b region fails ecc d).Inv := by
  unfold memtestRegionComplete
  repeat' (first
    | (with_reducible assumption)
    | simp only [h, implies_true, and_self]
    | (with_reducible refine Dev.testRegion_inv _ _ _ _ _ _ _ _ _ ?_)
    | (with_reducible refine And.intro ?_ ?_)
    | (with_reducible intro _)
    | split)

theorem execMemtestRegionComplete_inv (b : Bank) (region : Nat) (fails : Bool) (ecc : List EccEvent) (s : State) (h :
      s.dev.Inv) :
    ∃ d, execMemtestRegionComplete b region fails ecc s = .next { s with dev := d } ∧ d.Inv := ⟨_, rfl, memtestRegionComplete_inv _ _ _ _ _ h⟩

theorem syncFabricTest_inv (block : Nat) (pass : Bool) (d : Dev) (h : d.Inv) :
    (syncFabricTest block pass d).Inv := by
  unfold syncFabricTest
  repeat' (first
    | (with_reducible assumption)
    | simp only [↓(Dev.dropChunk_frame _ _ _).inv (by decide), ↓Dev.inv_ite, ↓Dev.inv_ite1, h, implies_true, and_self]
    | (with_reducible refine Dev.tested_inv _ _ _ ?_)
    | (with_reducible refine And.intro ?_ ?_)
    | (with_reducible intro _)
    | split)

theorem execSyncFabricTest_inv (block : Fin 64) (pass : Bool) (s : State) (h : s.dev.Inv) :
    ∃ d, execSyncFabricTest block pass s = .next { s with dev := d } ∧ d.Inv := ⟨_, rfl, syncFabricTest_inv _ _ _ h⟩

theorem goldenFrame_inv (p : Nat) (digestOk detected : Bool) (d : Dev) (h : d.Inv) :
    (goldenFrame p digestOk detected d).Inv := by
  unfold goldenFrame
  repeat' (first
    | (with_reducible assumption)
    | simp only [↓(Dev.count_frame _ _ _).inv (by decide), ↓(Dev.dropChunk_frame _ _ _).inv (by decide),
      ↓(Dev.modPod_frame _ _ _).inv (by decide), ↓(Dev.raise_frame _ _ _ _).inv (by decide), ↓Dev.inv_ite,
      ↓Dev.inv_ite1, h, implies_true, and_self]
    | (with_reducible refine Dev.endDiag_inv _ _ ?_)
    | (with_reducible refine Dev.takeOut_inv _ _ ?_)
    | (with_reducible refine And.intro ?_ ?_)
    | (with_reducible intro _)
    | split)

theorem execGoldenFrame_inv (p : Fin 25) (digestOk detected : Bool) (s : State) (h : s.dev.Inv) :
    ∃ d, execGoldenFrame p digestOk detected s = .next { s with dev := d } ∧ d.Inv := ⟨_, rfl, goldenFrame_inv _ _ _ _ h⟩

theorem handover_inv (d : Dev) (h : d.Inv) :
    (handover d).Inv := by
  unfold handover
  split
  · split
    · split
      · refine ((Dev.count_frame _ _ _).inv (by decide)).2 (Dev.inv_pods.2 ?_)
        have k : ∀ (e : Dev) (o : Nat), e.Inv → Dev.Inv { e with mem := e.mem.clearPod o } := fun e o he =>
          Dev.inv_mem he (Memory.clearPod_wf he.1 _)
        refine k _ _ ?_
        exact ((Dev.modPod_frame _ _ _).inv (by decide)).2 (((Dev.modPod_frame _ _ _).inv (by decide)).2 h)
      · exact h
    · exact h
  · exact h

theorem execHandover_inv (s : State) (h : s.dev.Inv) :
    ∃ d, execHandover s = .next { s with dev := d } ∧ d.Inv := ⟨_, rfl, handover_inv _ h⟩

theorem meshTransferCrcFail_inv (router dir : Nat) (all : Bool) (lost : Option (Nat × Nat)) (d : Dev) (h : d.Inv) :
    (meshTransferCrcFail router dir all lost d).Inv := by
  unfold meshTransferCrcFail
  repeat' (first
    | (with_reducible assumption)
    | simp only [↓(Dev.countN_frame _ _ _ _).inv (by decide), ↓(Dev.loseMove_frame _ _ _).inv (by decide),
      ↓(Dev.raise_frame _ _ _ _).inv (by decide), ↓(Dev.resend_frame _ _ _).inv (by decide), ↓Dev.inv_pods,
      ↓Dev.inv_ite, ↓Dev.inv_ite1, h, implies_true, and_self]
    | (with_reducible refine Dev.takeOut_inv _ _ ?_)
    | (with_reducible refine And.intro ?_ ?_)
    | (with_reducible intro _)
    | split)

theorem execMeshTransferCrcFail_inv (router : Fin 25) (dir : Fin 4) (allResendsFail : Bool) (lost : Option (Fin 27 ×
      Nat)) (s : State) (h : s.dev.Inv) :
    ∃ d, execMeshTransferCrcFail router dir allResendsFail lost s = .next { s with dev := d } ∧ d.Inv := ⟨_, rfl, meshTransferCrcFail_inv _ _ _ _ _ h⟩

theorem correctedWriteBack_inv (word : Nat) (d : Dev) (h : d.Inv) :
    (correctedWriteBack word d).Inv := by
  unfold correctedWriteBack
  repeat' (first
    | (with_reducible assumption)
    | simp (disch := rfl) only [↓Dev.inv_bytesSame, h, implies_true, and_self]
    | (with_reducible refine And.intro ?_ ?_)
    | (with_reducible intro _)
    | split)

theorem execCorrectedWriteBack_inv (word : Nat) (s : State) (h : s.dev.Inv) :
    ∃ d, execCorrectedWriteBack word s = .next { s with dev := d } ∧ d.Inv := ⟨_, rfl, correctedWriteBack_inv _ _ h⟩

theorem ddrTemperatureRead_inv (temps : List Int) (maxOp : Int) (d : Dev) (h : d.Inv) :
    (ddrTemperatureRead temps maxOp d).Inv := by
  unfold ddrTemperatureRead
  repeat' (first
    | (with_reducible assumption)
    | simp only [↓(Dev.raise_frame _ _ _ _).inv (by decide), ↓Dev.inv_ddr, ↓Dev.inv_ite, ↓Dev.inv_ite1, h,
      implies_true, and_self]
    | (with_reducible refine Dev.demand_inv _ _ _ _ ?_)
    | (with_reducible refine Dev.protect_inv _ _ _ _ ?_)
    | (with_reducible refine And.intro ?_ ?_)
    | (with_reducible intro _)
    | split)

theorem execDdrTemperatureRead_inv (temps : List Int) (maxOperating : Int) (s : State) (h : s.dev.Inv) :
    ∃ d, execDdrTemperatureRead temps maxOperating s = .next { s with dev := d } ∧ d.Inv := ⟨_, rfl, ddrTemperatureRead_inv _ _ _ h⟩

theorem Dev.hullFault_inv (d : Dev) (src cause inst : Nat) (h : d.Inv) :
    (Dev.hullFault d src cause inst).Inv := by
  unfold Dev.hullFault
  repeat' (first
    | (with_reducible assumption)
    | simp (disch := rfl) only [↓(Dev.raise_frame _ _ _ _).inv (by decide), ↓Dev.inv_hullSame, h, implies_true,
      and_self]
    | (with_reducible refine Dev.demand_inv _ _ _ _ ?_)
    | (with_reducible refine And.intro ?_ ?_)
    | (with_reducible intro _)
    | split)

theorem hullCheckerTest_inv (pass : Bool) (d : Dev) (h : d.Inv) :
    (hullCheckerTest pass d).Inv := by
  unfold hullCheckerTest
  repeat' (first
    | (with_reducible assumption)
    | simp only [↓(Dev.dropChunk_frame _ _ _).inv (by decide), ↓Dev.inv_ite, ↓Dev.inv_ite1, h, implies_true, and_self]
    | (with_reducible refine Dev.hullFault_inv _ _ _ _ ?_)
    | (with_reducible refine Dev.tested_inv _ _ _ ?_)
    | (with_reducible refine And.intro ?_ ?_)
    | (with_reducible intro _)
    | split)

theorem execHullCheckerTest_inv (pass : Bool) (s : State) (h : s.dev.Inv) :
    ∃ d, execHullCheckerTest pass s = .next { s with dev := d } ∧ d.Inv := ⟨_, rfl, hullCheckerTest_inv _ _ h⟩

theorem Dev.copyKeys_inv (d : Dev) (l : List (Nat × Nat × Nat)) (h : d.Inv) :
    (Dev.copyKeys d l).Inv := by
  unfold Dev.copyKeys
  repeat' (first
    | (with_reducible assumption)
    | simp (disch := rfl) only [↓Dev.inv_bytesSame, h, implies_true, and_self]
    | (with_reducible refine Dev.store_inv _ _ _ ?_)
    | (with_reducible refine Dev.inv_foldl (fun e x he => ?_) _ ?_)
    | (with_reducible refine Dev.inv_foldlPair (fun e x he => ?_) _ ?_)
    | (with_reducible refine And.intro ?_ ?_)
    | (with_reducible intro _)
    | split)

theorem Dev.collapse_inv (d : Dev) (p l : Nat) (h : d.Inv) :
    (Dev.collapse d p l).Inv := by
  unfold Dev.collapse
  refine ((Dev.modPod_frame _ _ _).inv (by decide)).2 (Dev.inv_mem (Dev.copyKeys_inv _ _ h) ?_)
  exact Memory.clearPod_wf (Dev.copyKeys_inv _ _ h).1 _

theorem Dev.restorePod_inv (d : Dev) (p l : Nat) (h : d.Inv) :
    (Dev.restorePod d p l).Inv := by
  unfold Dev.restorePod
  repeat' (first
    | (with_reducible assumption)
    | simp only [h, implies_true, and_self]
    | (with_reducible refine Dev.copyKeys_inv _ _ ?_)
    | (with_reducible refine And.intro ?_ ?_)
    | (with_reducible intro _)
    | split)

theorem Dev.idleEntry_inv (d : Dev) (p : Nat) (h : d.Inv) :
    (Dev.idleEntry d p).Inv := by
  unfold Dev.idleEntry
  repeat' (first
    | (with_reducible assumption)
    | simp only [↓(Dev.modPod_frame _ _ _).inv (by decide), ↓Dev.inv_ite, ↓Dev.inv_ite1, h, implies_true, and_self]
    | (with_reducible refine Dev.collapse_inv _ _ _ ?_)
    | (with_reducible refine And.intro ?_ ?_)
    | (with_reducible intro _)
    | split)

theorem Dev.moverSignal_inv (d : Dev) (mv part : Nat) (k : Option Ticket) (o : Nat) (err : Bool) (cause : Nat) (h :
      d.Inv) :
    (Dev.moverSignal d mv part k o err cause).Inv := by
  unfold Dev.moverSignal
  repeat' (first
    | (with_reducible assumption)
    | simp only [↓(Dev.raise_frame _ _ _ _).inv (by decide), ↓Dev.inv_ite, ↓Dev.inv_ite1, h, implies_true, and_self]
    | (with_reducible refine Dev.signal_inv _ _ _ _ _ ?_)
    | (with_reducible refine And.intro ?_ ?_)
    | (with_reducible intro _)
    | split)

theorem Dev.refuse_inv (d : Dev) (mv part : Nat) (k : Option Ticket) (m : MDesc) (cause : Nat) (h : d.Inv) :
    (Dev.refuse d mv part k m cause).Inv := by
  unfold Dev.refuse
  repeat' (first
    | (with_reducible assumption)
    | simp only [↓(Dev.occur_frame _ _ _).inv (by decide), ↓(Dev.raise_frame _ _ _ _).inv (by decide), ↓Dev.inv_ite,
      ↓Dev.inv_ite1, h, implies_true, and_self]
    | (with_reducible refine Dev.markFaulted_inv _ _ _ ?_)
    | (with_reducible refine Dev.moverSignal_inv _ _ _ _ _ _ _ ?_)
    | (with_reducible refine Dev.storeA_inv _ _ _ _ ?_)
    | (with_reducible refine And.intro ?_ ?_)
    | (with_reducible intro _)
    | split)

theorem Dev.enqueue_inv (d : Dev) (mv part : Nat) (tmpl core : Option Nat) (k : Option Ticket) (ws : List Word) (h :
      d.Inv) :
    (Dev.enqueue d mv part tmpl core k ws).Inv := by
  unfold Dev.enqueue
  repeat' (first
    | (with_reducible assumption)
    | simp only [↓(Dev.closeGroup_frame _ _).inv (by decide), ↓(Dev.modMover_frame _ _ _).inv (by decide),
      ↓(Dev.raise_frame _ _ _ _).inv (by decide), ↓Dev.inv_ite, ↓Dev.inv_ite1, h, implies_true, and_self]
    | (with_reducible refine Dev.refuse_inv _ _ _ _ _ _ ?_)
    | (with_reducible refine And.intro ?_ ?_)
    | (with_reducible intro _)
    | split)

theorem Dev.putRegions_inv (d : Dev) (own : Option Nat) (out : Nat) (inputs : List Nat) (h : d.Inv) :
    (Dev.putRegions d own out inputs).Inv := by
  unfold Dev.putRegions
  repeat' (first
    | (with_reducible assumption)
    | simp only [↓Dev.inv_ite, ↓Dev.inv_ite1, h, implies_true, and_self]
    | (with_reducible refine Dev.storeA_inv _ _ _ _ ?_)
    | (with_reducible refine Dev.inv_foldl (fun e x he => ?_) _ ?_)
    | (with_reducible refine Dev.inv_foldlPair (fun e x he => ?_) _ ?_)
    | (with_reducible refine And.intro ?_ ?_)
    | (with_reducible intro _)
    | split)

theorem Dev.endPip_inv (d : Dev) (l p : Nat) (r : RunStep) (cause : Nat) (h : d.Inv) :
    (Dev.endPip d l p r cause).Inv := by
  unfold Dev.endPip
  repeat' (first
    | (with_reducible assumption)
    | simp only [↓(Dev.closeLeft_frame _ _ _).inv (by decide), ↓(Dev.modPod_frame _ _ _).inv (by decide),
      ↓Dev.inv_ite, ↓Dev.inv_ite1, h, implies_true, and_self]
    | (with_reducible refine Dev.faultOutputs_inv _ _ _ _ ?_)
    | (with_reducible refine Dev.finish_inv _ _ _ _ _ ?_)
    | (with_reducible refine Dev.idleEntry_inv _ _ ?_)
    | (with_reducible refine Dev.putRegions_inv _ _ _ _ ?_)
    | (with_reducible refine Dev.putTimes_inv _ _ _ _ _ ?_)
    | (with_reducible refine Dev.inv_foldl (fun e x he => ?_) _ ?_)
    | (with_reducible refine Dev.inv_foldlPair (fun e x he => ?_) _ ?_)
    | (with_reducible refine And.intro ?_ ?_)
    | (with_reducible intro _)
    | split)

theorem Dev.pipMoves_inv (d : Dev) (l p core : Nat) (r : RunStep) (x0 : List (List Word × Nat)) (h : d.Inv) :
    (Dev.pipMoves d l p core r x0).Inv := by
  induction x0 generalizing d with
  | nil => exact h
  | cons x t ih =>
    unfold Dev.pipMoves
    dsimp only
    have k := Dev.enqueue_inv d p (d.moverPart p 8) (some x.2) (some core) (some r.ticket) x.1 h
    split
    · exact Dev.endPip_inv _ _ _ _ _ k
    · exact ih _ k

theorem move_inv (mv : Nat) (issuer : MoveIssuer) (part : Nat) (descs : List (List Word)) (d : Dev) (h : d.Inv) :
    (move mv issuer part descs d).Inv := by
  unfold move
  repeat' (first
    | (with_reducible assumption)
    | simp only [↓(Dev.modMover_frame _ _ _).inv (by decide), ↓(Dev.startEntry_frame _ _ _).inv (by decide),
      ↓Dev.inv_ite, ↓Dev.inv_ite1, h, implies_true, and_self]
    | (with_reducible refine Dev.enqueue_inv _ _ _ _ _ _ _ ?_)
    | (with_reducible refine Dev.finish_inv _ _ _ _ _ ?_)
    | (with_reducible refine Dev.pipMoves_inv _ _ _ _ _ _ ?_)
    | (with_reducible refine Dev.inv_foldl (fun e x he => ?_) _ ?_)
    | (with_reducible refine Dev.inv_foldlPair (fun e x he => ?_) _ ?_)
    | (with_reducible refine And.intro ?_ ?_)
    | (with_reducible intro _)
    | split)

theorem execMove_inv (m : Fin 27) (issuer : MoveIssuer) (partition : Fin 8) (descs : List (List Word)) (s : State) (h
      : s.dev.Inv) :
    ∃ d, execMove m issuer partition descs s = .next { s with dev := d } ∧ d.Inv := ⟨_, rfl, move_inv _ _ _ _ _ h⟩

theorem Dev.validWrite_inv (d : Dev) (mv : Nat) (own : Option Nat) (t : TDesc) (i : List Nat) (v : Bool) (h : d.Inv) :
    (Dev.validWrite d mv own t i v).Inv := by
  unfold Dev.validWrite
  repeat' (first
    | (with_reducible assumption)
    | simp only [↓Dev.inv_ite, ↓Dev.inv_ite1, h, implies_true, and_self]
    | (with_reducible refine Dev.setValid_inv _ _ _ _ _ ?_)
    | (with_reducible refine And.intro ?_ ?_)
    | (with_reducible intro _)
    | split)

theorem Dev.writePuts_inv (d : Dev) (own : Option Nat) (td : TDesc) (l : List Put) (h : d.Inv) :
    (Dev.writePuts d own td l).Inv := by
  unfold Dev.writePuts
  repeat' (first
    | (with_reducible assumption)
    | simp only [h, implies_true, and_self]
    | (with_reducible refine Dev.eltPut_inv _ _ _ _ _ ?_)
    | (with_reducible refine Dev.healElts_inv _ _ _ _ ?_)
    | (with_reducible refine Dev.inv_foldl (fun e x he => ?_) _ ?_)
    | (with_reducible refine Dev.inv_foldlPair (fun e x he => ?_) _ ?_)
    | (with_reducible refine And.intro ?_ ?_)
    | (with_reducible intro _)
    | split)

theorem Dev.writeMask_inv (d : Dev) (mv : Nat) (own : Option Nat) (td : TDesc) (all l : List Put) (h : d.Inv) :
    (Dev.writeMask d mv own td all l).Inv := by
  unfold Dev.writeMask
  repeat' (first
    | (with_reducible assumption)
    | simp only [↓Dev.inv_ite, ↓Dev.inv_ite1, h, implies_true, and_self]
    | (with_reducible refine Dev.validWrite_inv _ _ _ _ _ _ ?_)
    | (with_reducible refine Dev.inv_foldl (fun e x he => ?_) _ ?_)
    | (with_reducible refine Dev.inv_foldlPair (fun e x he => ?_) _ ?_)
    | (with_reducible refine And.intro ?_ ?_)
    | (with_reducible intro _)
    | split)

theorem Dev.copyRows_inv (d : Dev) (mv : Nat) (own : Option Nat) (m : MDesc) (ts td : TDesc) (h : d.Inv) :
    (Dev.copyRows d mv own m ts td).Inv := by
  unfold Dev.copyRows
  repeat' (first
    | (with_reducible assumption)
    | simp only [↓Dev.inv_ite, ↓Dev.inv_ite1, h, implies_true, and_self]
    | (with_reducible refine Dev.storeA_inv _ _ _ _ ?_)
    | (with_reducible refine Dev.inv_foldl (fun e x he => ?_) _ ?_)
    | (with_reducible refine Dev.inv_foldlPair (fun e x he => ?_) _ ?_)
    | (with_reducible refine And.intro ?_ ?_)
    | (with_reducible intro _)
    | split)

theorem Dev.putBursts_inv (d : Dev) (l : List (Nat × List Byte × List Nat)) (h : d.Inv) :
    (Dev.putBursts d l).Inv := by
  unfold Dev.putBursts
  repeat' (first
    | (with_reducible assumption)
    | simp (disch := rfl) only [↓Dev.inv_bytesSame, h, implies_true, and_self]
    | (with_reducible refine Dev.store_inv _ _ _ ?_)
    | (with_reducible refine Dev.inv_foldl (fun e x he => ?_) _ ?_)
    | (with_reducible refine Dev.inv_foldlPair (fun e x he => ?_) _ ?_)
    | (with_reducible refine And.intro ?_ ?_)
    | (with_reducible intro _)
    | split)

theorem Dev.dataPhase_inv (d : Dev) (mv : Nat) (own : Option Nat) (g : Moved) (h : d.Inv) :
    (Dev.dataPhase d mv own g).Inv := by
  unfold Dev.dataPhase
  repeat' (first
    | (with_reducible assumption)
    | simp only [h, implies_true, and_self]
    | (with_reducible refine Dev.copyRows_inv _ _ _ _ _ _ ?_)
    | (with_reducible refine Dev.putBursts_inv _ _ ?_)
    | (with_reducible refine Dev.writeMask_inv _ _ _ _ _ _ ?_)
    | (with_reducible refine Dev.writePuts_inv _ _ _ _ ?_)
    | (with_reducible refine And.intro ?_ ?_)
    | (with_reducible intro _)
    | split)

theorem Dev.padPhase_inv (d : Dev) (mv : Nat) (own : Option Nat) (a : Accepted) (h : d.Inv) :
    (Dev.padPhase d mv own a).Inv := by
  unfold Dev.padPhase
  repeat' (first
    | (with_reducible assumption)
    | simp only [h, implies_true, and_self]
    | (with_reducible refine Dev.putBursts_inv _ _ ?_)
    | (with_reducible refine Dev.writeMask_inv _ _ _ _ _ _ ?_)
    | (with_reducible refine Dev.writePuts_inv _ _ _ _ ?_)
    | (with_reducible refine And.intro ?_ ?_)
    | (with_reducible intro _)
    | split)

theorem Dev.settleRegions_inv (d : Dev) (mv : Nat) (own : Option Nat) (dst : Nat) (merge : Bool) (l : List (Nat ×
      Nat)) (h : d.Inv) :
    (Dev.settleRegions d mv own dst merge l).Inv := by
  unfold Dev.settleRegions
  repeat' (first
    | (with_reducible assumption)
    | simp only [↓Dev.inv_ite, ↓Dev.inv_ite1, h, implies_true, and_self]
    | (with_reducible refine Dev.storeA_inv _ _ _ _ ?_)
    | (with_reducible refine Dev.inv_foldl (fun e x he => ?_) _ ?_)
    | (with_reducible refine Dev.inv_foldlPair (fun e x he => ?_) _ ?_)
    | (with_reducible refine And.intro ?_ ?_)
    | (with_reducible intro _)
    | split)

theorem Dev.settleDst_inv (d : Dev) (mv : Nat) (own : Option Nat) (dst : Nat) (bad : Bool) (group : List Moved) (h :
      d.Inv) :
    (Dev.settleDst d mv own dst bad group).Inv := by
  unfold Dev.settleDst
  repeat' (first
    | (with_reducible assumption)
    | simp only [↓Dev.inv_ite, ↓Dev.inv_ite1, h, implies_true, and_self]
    | (with_reducible refine Dev.putTimes_inv _ _ _ _ _ ?_)
    | (with_reducible refine Dev.settleRegions_inv _ _ _ _ _ _ ?_)
    | (with_reducible refine And.intro ?_ ?_)
    | (with_reducible intro _)
    | split)

theorem Dev.settle_inv (d : Dev) (own : Option Nat) (mv : Nat) (k : Option Ticket) (g : Moved) (h : d.Inv) :
    (Dev.settle d own mv k g).Inv := by
  unfold Dev.settle
  repeat' (first
    | (with_reducible assumption)
    | simp only [↓(Dev.countN_frame _ _ _ _).inv (by decide), ↓(Dev.occur_frame _ _ _).inv (by decide),
      ↓(Dev.raise_frame _ _ _ _).inv (by decide), ↓Dev.inv_ite, ↓Dev.inv_ite1, h, implies_true, and_self]
    | (with_reducible refine Dev.moverSignal_inv _ _ _ _ _ _ _ ?_)
    | (with_reducible refine Dev.storeA_inv _ _ _ _ ?_)
    | (with_reducible refine And.intro ?_ ?_)
    | (with_reducible intro _)
    | split)

theorem Dev.moveReads_inv (d : Dev) (own : Option Nat) (tileBad : List Nat) (ecc : List EccEvent) (x0 : List
      (Accepted × Nat)) (h : d.Inv) :
    (Dev.moveReads d own tileBad ecc x0).1.Inv := by
  induction x0 generalizing d with
  | nil => exact h
  | cons x t ih =>
    unfold Dev.moveReads
    dsimp only
    refine ih _ ?_
    split
    · exact Dev.readKeys_inv _ _ _ h
    · exact h

theorem fenceGroupComplete_inv (mv : Nat) (tileBad : List Nat) (ecc : List EccEvent) (d : Dev) (h : d.Inv) :
    (fenceGroupComplete mv tileBad ecc d).Inv := by
  unfold fenceGroupComplete
  repeat' (first
    | (with_reducible assumption)
    | simp only [↓(Dev.bumpFree_frame _).inv (by decide), ↓(Dev.launch_frame _ _).inv (by decide),
      ↓(Dev.modMover_frame _ _ _).inv (by decide), ↓(Dev.raise_frame _ _ _ _).inv (by decide), ↓Dev.inv_ite,
      ↓Dev.inv_ite1, h, implies_true, and_self]
    | (with_reducible refine Dev.dataPhase_inv _ _ _ _ ?_)
    | (with_reducible refine Dev.finish_inv _ _ _ _ _ ?_)
    | (with_reducible refine Dev.idleEntry_inv _ _ ?_)
    | (with_reducible refine Dev.moveReads_inv _ _ _ _ _ ?_)
    | (with_reducible refine Dev.padPhase_inv _ _ _ _ ?_)
    | (with_reducible refine Dev.settle_inv _ _ _ _ _ ?_)
    | (with_reducible refine Dev.settleDst_inv _ _ _ _ _ _ ?_)
    | (with_reducible refine Dev.inv_foldl (fun e x he => ?_) _ ?_)
    | (with_reducible refine Dev.inv_foldlPair (fun e x he => ?_) _ ?_)
    | (with_reducible refine And.intro ?_ ?_)
    | (with_reducible intro _)
    | split)

theorem execFenceGroupComplete_inv (m : Fin 27) (tileBad : List Nat) (ecc : List EccEvent) (s : State) (h :
      s.dev.Inv) :
    ∃ d, execFenceGroupComplete m tileBad ecc s = .next { s with dev := d } ∧ d.Inv := ⟨_, rfl, fenceGroupComplete_inv _ _ _ _ h⟩

theorem Dev.opFaults_inv (d : Dev) (p : Nat) (l : List Nat) (h : d.Inv) :
    (Dev.opFaults d p l).Inv := by
  unfold Dev.opFaults
  repeat' (first
    | (with_reducible assumption)
    | simp only [↓(Dev.raise_frame _ _ _ _).inv (by decide), h, implies_true, and_self]
    | (with_reducible refine Dev.arithFault_inv _ _ ?_)
    | (with_reducible refine Dev.inv_foldl (fun e x he => ?_) _ ?_)
    | (with_reducible refine Dev.inv_foldlPair (fun e x he => ?_) _ ?_)
    | (with_reducible refine And.intro ?_ ?_)
    | (with_reducible intro _)
    | split)

theorem Dev.refuseOp_inv (d : Dev) (l p : Nat) (o : OpDesc) (k : Ticket) (cause : Nat) (h : d.Inv) :
    (Dev.refuseOp d l p o k cause).Inv := by
  unfold Dev.refuseOp
  repeat' (first
    | (with_reducible assumption)
    | simp only [↓(Dev.raise_frame _ _ _ _).inv (by decide), h, implies_true, and_self]
    | (with_reducible refine Dev.faultOutputs_inv _ _ _ _ ?_)
    | (with_reducible refine Dev.finish_inv _ _ _ _ _ ?_)
    | (with_reducible refine Dev.markFaulted_inv _ _ _ ?_)
    | (with_reducible refine Dev.storeA_inv _ _ _ _ ?_)
    | (with_reducible refine And.intro ?_ ?_)
    | (with_reducible intro _)
    | split)

theorem op_inv (l : Nat) (o : OpDesc) (d : Dev) (h : d.Inv) :
    (op l o d).Inv := by
  unfold op
  repeat' (first
    | (with_reducible assumption)
    | simp only [↓(Dev.modPod_frame _ _ _).inv (by decide), ↓(Dev.startEntry_frame _ _ _).inv (by decide),
      ↓Dev.inv_ite, ↓Dev.inv_ite1, h, implies_true, and_self]
    | (with_reducible refine Dev.refuseOp_inv _ _ _ _ _ _ ?_)
    | (with_reducible refine And.intro ?_ ?_)
    | (with_reducible intro _)
    | split)

theorem execOp_inv (l : Fin 24) (o : OpDesc) (s : State) (h : s.dev.Inv) :
    ∃ d, execOp l o s = .next { s with dev := d } ∧ d.Inv := ⟨_, rfl, op_inv _ _ _ h⟩

theorem Dev.countSats_inv (d : Dev) (l p : Nat) (o : OpDesc) (n : Nat) (h : d.Inv) :
    (Dev.countSats d l p o n).Inv := by
  have k : ∀ {e : Dev} (f : CycleCtx → CycleCtx), e.Inv →
      Dev.Inv { e with cyc := { e.cyc with flight := e.cyc.flight.map f } } :=
    fun f he => Dev.inv_cycSame (by simp) he
  unfold Dev.countSats
  dsimp only
  split
  · have j := fun f => ((Dev.setObj_frame _ 0xC020 2 [o.index % 2 ^ 24 * 256 + l]).inv (by decide)).2
      (((Dev.raise_frame _ 0x0F4A p o.index).inv (by decide)).2 (k f h))
    exact Dev.inv_ite.2 ⟨fun _ => Dev.inv_ite.2 ⟨fun _ => k _ (j _), fun _ => j _⟩, fun _ => k _ h⟩
  · exact h

theorem Dev.putRow_inv (d : Dev) (own : Option Nat) (t : TDesc) (m : Nat) (l : List Nat) (h : d.Inv) :
    (Dev.putRow d own t m l).Inv := by
  unfold Dev.putRow
  repeat' (first
    | (with_reducible assumption)
    | simp only [h, implies_true, and_self]
    | (with_reducible refine Dev.eltPut_inv _ _ _ _ _ ?_)
    | (with_reducible refine Dev.healElts_inv _ _ _ _ ?_)
    | (with_reducible refine Dev.inv_foldl (fun e x he => ?_) _ ?_)
    | (with_reducible refine Dev.inv_foldlPair (fun e x he => ?_) _ ?_)
    | (with_reducible refine And.intro ?_ ?_)
    | (with_reducible intro _)
    | split)

theorem opComplete_inv (l : Nat) (upsets : List EngineUpset) (ecc : List EccEvent) (d : Dev) (h : d.Inv) :
    (opComplete l upsets ecc d).Inv := by
  unfold opComplete
  repeat' (first
    | (with_reducible assumption)
    | simp only [↓(Dev.bumpFree_frame _).inv (by decide), ↓(Dev.modPod_frame _ _ _).inv (by decide),
      ↓(Dev.raiseIf_frame _ _ _ _ _).inv (by decide), ↓Dev.inv_ite, ↓Dev.inv_ite1, h, implies_true, and_self]
    | (with_reducible refine Dev.countSats_inv _ _ _ _ _ ?_)
    | (with_reducible refine Dev.finish_inv _ _ _ _ _ ?_)
    | (with_reducible refine Dev.idleEntry_inv _ _ ?_)
    | (with_reducible refine Dev.opFaults_inv _ _ _ ?_)
    | (with_reducible refine Dev.putRegions_inv _ _ _ _ ?_)
    | (with_reducible refine Dev.putRow_inv _ _ _ _ _ ?_)
    | (with_reducible refine Dev.putTimes_inv _ _ _ _ _ ?_)
    | (with_reducible refine Dev.readKeys_inv _ _ _ ?_)
    | (with_reducible refine Dev.storeA_inv _ _ _ _ ?_)
    | (with_reducible refine Dev.inv_foldl (fun e x he => ?_) _ ?_)
    | (with_reducible refine Dev.inv_foldlPair (fun e x he => ?_) _ ?_)
    | (with_reducible refine And.intro ?_ ?_)
    | (with_reducible intro _)
    | split)

theorem execOpComplete_inv (l : Fin 24) (upsets : List EngineUpset) (ecc : List EccEvent) (s : State) (h : s.dev.Inv)
      :
    ∃ d, execOpComplete l upsets ecc s = .next { s with dev := d } ∧ d.Inv := ⟨_, rfl, opComplete_inv _ _ _ _ h⟩

theorem Dev.sequencer_inv (d : Dev) (t i : Nat) (h : d.Inv) :
    (Dev.sequencer d t i).Inv := by
  unfold Dev.sequencer
  repeat' (first
    | (with_reducible assumption)
    | simp only [↓(Dev.startEntry_frame _ _ _).inv (by decide), ↓(Dev.syncResetTo_frame _ _ _).inv (by decide),
      ↓(Dev.turnWindow_frame _ _ _).inv (by decide), h, implies_true, and_self]
    | (with_reducible refine Dev.finish_inv _ _ _ _ _ ?_)
    | (with_reducible refine And.intro ?_ ?_)
    | (with_reducible intro _)
    | split)

theorem Dev.readEntry_inv (d : Dev) (t i : Nat) (r : BurstResult) (h : d.Inv) :
    (Dev.readEntry d t i r).Inv := by
  unfold Dev.readEntry
  repeat' (first
    | (with_reducible assumption)
    | simp only [h, implies_true, and_self]
    | (with_reducible refine Dev.eccRead_inv _ _ ?_)
    | (with_reducible refine And.intro ?_ ?_)
    | (with_reducible intro _)
    | split)

theorem entryReleased_inv (t i : Nat) (word : BurstResult) (d : Dev) (h : d.Inv) :
    (entryReleased t i word d).Inv := by
  unfold entryReleased
  repeat' (first
    | (with_reducible assumption)
    | simp only [↓(Dev.raise_frame _ _ _ _).inv (by decide), ↓Dev.inv_ite, ↓Dev.inv_ite1, h, implies_true, and_self]
    | (with_reducible refine Dev.readEntry_inv _ _ _ _ ?_)
    | (with_reducible refine Dev.sequencer_inv _ _ _ ?_)
    | (with_reducible refine Dev.skipEntry_inv _ _ _ _ ?_)
    | (with_reducible refine Dev.skipUnstarted_inv _ _ ?_)
    | (with_reducible refine And.intro ?_ ?_)
    | (with_reducible intro _)
    | split)

theorem execEntryRelease_inv (t : TableId) (i : Nat) (word : BurstResult) (s : State) (h : s.dev.Inv) :
    ∃ d, execEntryRelease t i word s = .next { s with dev := d } ∧ d.Inv := ⟨_, rfl, entryReleased_inv _ _ _ _ h⟩

theorem advance_inv (l w : Nat) (d : Dev) (h : d.Inv) :
    (advance l w d).Inv := by
  unfold advance
  repeat' (first
    | (with_reducible assumption)
    | simp only [↓Dev.inv_ite, ↓Dev.inv_ite1, h, implies_true, and_self]
    | (with_reducible refine Dev.sequencer_inv _ _ _ ?_)
    | (with_reducible refine And.intro ?_ ?_)
    | (with_reducible intro _)
    | split)

theorem execAdvance_inv (l : Fin 24) (w : Fin 64) (s : State) (h : s.dev.Inv) :
    ∃ d, execAdvance l w s = .next { s with dev := d } ∧ d.Inv := ⟨_, rfl, advance_inv _ _ _ h⟩

theorem entryDeadlinePassed_inv (t i : Nat) (d : Dev) (h : d.Inv) :
    (entryDeadlinePassed t i d).Inv := by
  unfold entryDeadlinePassed
  repeat' (first
    | (with_reducible assumption)
    | simp only [↓(Dev.modPass_frame _ _ _).inv (by decide), ↓(Dev.raise_frame _ _ _ _).inv (by decide),
      ↓Dev.inv_ite, ↓Dev.inv_ite1, h, implies_true, and_self]
    | (with_reducible refine Dev.skipEntry_inv _ _ _ _ ?_)
    | (with_reducible refine And.intro ?_ ?_)
    | (with_reducible intro _)
    | split)

theorem execEntryDeadline_inv (t : TableId) (i : Nat) (s : State) (h : s.dev.Inv) :
    ∃ d, execEntryDeadline t i s = .next { s with dev := d } ∧ d.Inv := ⟨_, rfl, entryDeadlinePassed_inv _ _ _ h⟩

theorem podWakeComplete_inv (p : Nat) (d : Dev) (h : d.Inv) :
    (podWakeComplete p d).Inv := by
  unfold podWakeComplete
  repeat' (first
    | (with_reducible assumption)
    | simp only [↓(Dev.modPod_frame _ _ _).inv (by decide), ↓(Dev.raiseIf_frame _ _ _ _ _).inv (by decide),
      ↓Dev.inv_ite, ↓Dev.inv_ite1, h, implies_true, and_self]
    | (with_reducible refine Dev.restorePod_inv _ _ _ ?_)
    | (with_reducible refine And.intro ?_ ?_)
    | (with_reducible intro _)
    | split)

theorem execPodWakeComplete_inv (p : Fin 25) (s : State) (h : s.dev.Inv) :
    ∃ d, execPodWakeComplete p s = .next { s with dev := d } ∧ d.Inv := ⟨_, rfl, podWakeComplete_inv _ _ h⟩

theorem idleItemStart_inv (t i : Nat) (d : Dev) (h : d.Inv) :
    (idleItemStart t i d).Inv := by
  unfold idleItemStart
  repeat' (first
    | (with_reducible assumption)
    | simp only [↓Dev.inv_sched, ↓Dev.inv_ite, ↓Dev.inv_ite1, h, implies_true, and_self]
    | (with_reducible refine Dev.sequencer_inv _ _ _ ?_)
    | (with_reducible refine And.intro ?_ ?_)
    | (with_reducible intro _)
    | split)

theorem execIdleItemStart_inv (t : TableId) (i : Nat) (s : State) (h : s.dev.Inv) :
    ∃ d, execIdleItemStart t i s = .next { s with dev := d } ∧ d.Inv := ⟨_, rfl, idleItemStart_inv _ _ _ h⟩

theorem fifoPointerCompare_inv (n : Nat) (differ : Bool) (d : Dev) (h : d.Inv) :
    (fifoPointerCompare n differ d).Inv := by
  unfold fifoPointerCompare
  repeat' (first
    | (with_reducible assumption)
    | simp only [↓(Dev.pointerMismatch_frame _ _).inv (by decide), ↓Dev.inv_ite, ↓Dev.inv_ite1, h, implies_true,
      and_self]
    | (with_reducible refine Dev.tested_inv _ _ _ ?_)
    | (with_reducible refine And.intro ?_ ?_)
    | (with_reducible intro _)
    | split)

theorem execFifoPointerCompare_inv (n : Fin 16) (differ : Bool) (s : State) (h : s.dev.Inv) :
    ∃ d, execFifoPointerCompare n differ s = .next { s with dev := d } ∧ d.Inv := ⟨_, rfl, fifoPointerCompare_inv _ _ _ h⟩

theorem Dev.writeElements_inv (d : Dev) (t : TDesc) (elt : List Nat → Nat) (valid : List Nat → Bool) (h : d.Inv) :
    (Dev.writeElements d t elt valid).Inv := by
  unfold Dev.writeElements
  repeat' (first
    | (with_reducible assumption)
    | simp only [h, implies_true, and_self]
    | (with_reducible refine Dev.eltPut_inv _ _ _ _ _ ?_)
    | (with_reducible refine Dev.setValid_inv _ _ _ _ _ ?_)
    | (with_reducible refine Dev.inv_foldl (fun e x he => ?_) _ ?_)
    | (with_reducible refine Dev.inv_foldlPair (fun e x he => ?_) _ ?_)
    | (with_reducible refine And.intro ?_ ?_)
    | (with_reducible intro _)
    | split)

theorem Dev.writeLevel_inv (d : Dev) (n : Nat) (s : Shot) (lines : List Bool) (a l : Nat) (h : d.Inv) :
    (Dev.writeLevel d n s lines a l).Inv := by
  unfold Dev.writeLevel
  repeat' (first
    | (with_reducible assumption)
    | simp only [↓Dev.inv_ite, ↓Dev.inv_ite1, h, implies_true, and_self]
    | (with_reducible refine Dev.storeA_inv _ _ _ _ ?_)
    | (with_reducible refine Dev.writeElements_inv _ _ _ _ ?_)
    | (with_reducible refine And.intro ?_ ?_)
    | (with_reducible intro _)
    | split)

theorem Dev.writeVoxels_inv (d : Dev) (n : Nat) (pts : List CompPoint) (a : Nat) (h : d.Inv) :
    (Dev.writeVoxels d n pts a).Inv := by
  unfold Dev.writeVoxels
  repeat' (first
    | (with_reducible assumption)
    | simp only [h, implies_true, and_self]
    | (with_reducible refine Dev.writeElements_inv _ _ _ _ ?_)
    | (with_reducible refine And.intro ?_ ?_)
    | (with_reducible intro _)
    | split)

theorem Dev.writeIntake_inv (d : Dev) (n : Nat) (camera : Bool) (rows : List LineRead) (t : IntakeTensor) (h : d.Inv)
      :
    (Dev.writeIntake d n camera rows t).Inv := by
  unfold Dev.writeIntake
  repeat' (first
    | (with_reducible assumption)
    | simp only [↓Dev.inv_ite, ↓Dev.inv_ite1, h, implies_true, and_self]
    | (with_reducible refine Dev.putTimes_inv _ _ _ _ _ ?_)
    | (with_reducible refine Dev.writeLevel_inv _ _ _ _ _ _ ?_)
    | (with_reducible refine Dev.writeVoxels_inv _ _ _ _ ?_)
    | (with_reducible refine Dev.inv_foldl (fun e x he => ?_) _ ?_)
    | (with_reducible refine Dev.inv_foldlPair (fun e x he => ?_) _ ?_)
    | (with_reducible refine And.intro ?_ ?_)
    | (with_reducible intro _)
    | split)

theorem Dev.intakeComplete_inv (d : Dev) (c : Nat) (h : d.Inv) :
    (Dev.intakeComplete d c).Inv := by
  unfold Dev.intakeComplete
  extract_lets mark c0 d1 d2
  have h1 : d1.Inv := Dev.inv_cycSame (by simp [List.length_map]) h
  have h2 : d2.Inv := by
    unfold d2
    split
    · exact Dev.signal_inv _ _ _ _ _ h1
    · exact h1
  split
  · exact Dev.genFault_inv _ _ (((Dev.raise_frame _ _ _ _).inv (by decide)).2 h2)
  · exact h2

theorem Dev.checkIntake_inv (d : Dev) (h : d.Inv) :
    (Dev.checkIntake d).Inv := by
  unfold Dev.checkIntake
  repeat' (first
    | (with_reducible assumption)
    | simp only [↓Dev.inv_ite, ↓Dev.inv_ite1, h, implies_true, and_self]
    | (with_reducible refine Dev.intakeComplete_inv _ _ ?_)
    | (with_reducible refine And.intro ?_ ?_)
    | (with_reducible intro _)
    | split)

theorem Dev.remark_inv (d : Dev) (c : Nat) (h : d.Inv) :
    (Dev.remark d c).Inv := by
  unfold Dev.remark
  repeat' (first
    | (with_reducible assumption)
    | simp only [↓(Dev.modSlot_frame _ _ _).inv (by decide), ↓Dev.inv_ite, ↓Dev.inv_ite1, h, implies_true, and_self]
    | (with_reducible refine Dev.putTimes_inv _ _ _ _ _ ?_)
    | (with_reducible refine Dev.inv_foldl (fun e x he => ?_) _ ?_)
    | (with_reducible refine Dev.inv_foldlPair (fun e x he => ?_) _ ?_)
    | (with_reducible refine And.intro ?_ ?_)
    | (with_reducible intro _)
    | split)

theorem sampleConversionComplete_inv (n : Nat) (d : Dev) (h : d.Inv) :
    (sampleConversionComplete n d).Inv := by
  unfold sampleConversionComplete
  repeat' (first
    | (with_reducible assumption)
    | simp only [↓(Dev.defective_frame _ _).inv (by decide), ↓(Dev.modDeliv_frame _ _ _).inv (by decide),
      ↓(Dev.modSlot_frame _ _ _).inv (by decide), ↓(Dev.raiseIf_frame _ _ _ _ _).inv (by decide), ↓Dev.inv_ite,
      ↓Dev.inv_ite1, h, implies_true, and_self]
    | (with_reducible refine Dev.checkIntake_inv _ ?_)
    | (with_reducible refine Dev.writeIntake_inv _ _ _ _ _ ?_)
    | (with_reducible refine And.intro ?_ ?_)
    | (with_reducible intro _)
    | split)

theorem execSampleConversionComplete_inv (n : Fin 16) (s : State) (h : s.dev.Inv) :
    ∃ d, execSampleConversionComplete n s = .next { s with dev := d } ∧ d.Inv := ⟨_, rfl, sampleConversionComplete_inv _ _ h⟩

theorem intakeCompletionDeadline_inv (d : Dev) (h : d.Inv) :
    (intakeCompletionDeadline d).Inv := by
  unfold intakeCompletionDeadline
  split
  · exact h
  · split
    · rename_i x _ _
      dsimp only
      have k : ∀ {e : Dev}, e.Inv → Dev.Inv (((List.range (slotsOf e.code)).foldl (fun d n => d.carryOver n x.number)
      e).raiseIf
          (d.waitsFor x.number) 0x020E 0 0) := fun he => ((Dev.raiseIf_frame _ _ _ _ _).inv (by decide)).2
        (Dev.inv_foldl (fun e n hn => ((Dev.carryOver_frame _ _ _).inv (by decide)).2 hn) _ he)
      have k2 := k (Dev.inv_cycSame (x := { d.cyc with
        flight := d.cyc.flight.map (fun (y : CycleCtx) => if y.number = x.number then { y with intakeEnded := true }
      else y) })
        (by simp) h)
      split
      · exact k2
      · exact Dev.intakeComplete_inv _ _ k2
    · exact h

theorem execIntakeCompletionDeadline_inv (s : State) (h : s.dev.Inv) :
    ∃ d, execIntakeCompletionDeadline s = .next { s with dev := d } ∧ d.Inv := ⟨_, rfl, intakeCompletionDeadline_inv _ h⟩

end Sys2Proof.Machine
end

