-- ==== Sys2Proof/Laws/InvSafety.lean ====
section
/-! SUPPORT. The invariant is kept by the Hull, the Twin link, the edge die, storage, power, attention, solvers and Pip steps; one lemma for each operation and each command that reaches memory, the
cycle or the Hull. -/

set_option linter.unusedSimpArgs false
set_option linter.unusedTactic false
set_option linter.unreachableTactic false

namespace Sys2Proof.Machine

open Sys2Proof

theorem Dev.checkSpeedInput_inv (d : Dev) (p : Nat) (h : d.Inv) :
    (Dev.checkSpeedInput d p).Inv := by
  unfold Dev.checkSpeedInput
  repeat' (first
    | (with_reducible assumption)
    | simp (disch := rfl) only [↓(Dev.raise_frame _ _ _ _).inv (by decide), ↓Dev.inv_ite, ↓Dev.inv_ite1,
      ↓Dev.inv_hullSame, h, implies_true, and_self]
    | (with_reducible refine And.intro ?_ ?_)
    | (with_reducible intro _)
    | split)

theorem Dev.checkSpeed_inv (d : Dev) (p : Nat) (h : d.Inv) :
    (Dev.checkSpeed d p).Inv := by
  unfold Dev.checkSpeed
  repeat' (first
    | (with_reducible assumption)
    | simp (disch := rfl) only [↓Dev.inv_ite, ↓Dev.inv_ite1, ↓Dev.inv_hullSame, h, implies_true, and_self]
    | (with_reducible refine Dev.demand_inv _ _ _ _ ?_)
    | (with_reducible refine And.intro ?_ ?_)
    | (with_reducible intro _)
    | split)

theorem Dev.evalPair_inv (d : Dev) (ws : List Word) (acc : Store Nat × Store PairEntry) (p : Nat) (h : d.Inv) :
    (Dev.evalPair d ws acc p).1.Inv := by
  unfold Dev.evalPair
  repeat' (first
    | (with_reducible assumption)
    | simp (disch := rfl) only [↓Dev.inv_hullSame, h, implies_true, and_self]
    | (with_reducible refine Dev.checkSpeed_inv _ _ ?_)
    | (with_reducible refine Dev.checkSpeedInput_inv _ _ ?_)
    | (with_reducible refine And.intro ?_ ?_)
    | (with_reducible intro _)
    | split)

theorem Dev.evalPairs_inv (d : Dev) (ws : List Word) (h : d.Inv) :
    (Dev.evalPairs d ws).1.Inv := by
  unfold Dev.evalPairs
  repeat' (first
    | (with_reducible assumption)
    | simp only [h, implies_true, and_self]
    | (with_reducible refine Dev.evalPair_inv _ _ _ _ ?_)
    | (with_reducible refine Dev.inv_foldl (fun e x he => ?_) _ ?_)
    | (with_reducible refine Dev.inv_foldlPair (fun e x he => ?_) _ ?_)
    | (with_reducible refine And.intro ?_ ?_)
    | (with_reducible intro _)
    | split)

theorem summaryArrival_inv (bytes : List Byte) (faulted : Bool) (clocks : Nat) (d : Dev) (h : d.Inv) :
    (summaryArrival bytes faulted clocks d).Inv := by
  unfold summaryArrival
  repeat' (first
    | (with_reducible assumption)
    | simp only [↓(Dev.modCand_frame _ _).inv (by decide), ↓(Dev.raise_frame _ _ _ _).inv (by decide), ↓Dev.inv_ite,
      ↓Dev.inv_ite1, h, implies_true, and_self]
    | (with_reducible refine Dev.evalPairs_inv _ _ ?_)
    | (with_reducible refine And.intro ?_ ?_)
    | (with_reducible intro _)
    | split)

theorem execSummaryArrival_inv (bytes : List Byte) (faulted : Bool) (clocks : Nat) (s : State) (h : s.dev.Inv) :
    ∃ d, execSummaryArrival bytes faulted clocks s = .next { s with dev := d } ∧ d.Inv := ⟨_, rfl, summaryArrival_inv _ _ _ _ h⟩

theorem speedSettleExpiry_inv (p : Nat) (d : Dev) (h : d.Inv) :
    (speedSettleExpiry p d).Inv := by
  unfold speedSettleExpiry
  repeat' (first
    | (with_reducible assumption)
    | simp (disch := rfl) only [↓(Dev.raise_frame _ _ _ _).inv (by decide), ↓Dev.inv_ite, ↓Dev.inv_ite1,
      ↓Dev.inv_hullSame, h, implies_true, and_self]
    | (with_reducible refine Dev.demand_inv _ _ _ _ ?_)
    | (with_reducible refine And.intro ?_ ?_)
    | (with_reducible intro _)
    | split)

theorem execSpeedSettleExpiry_inv (pair : Fin 256) (s : State) (h : s.dev.Inv) :
    ∃ d, execSpeedSettleExpiry pair s = .next { s with dev := d } ∧ d.Inv := ⟨_, rfl, speedSettleExpiry_inv _ _ h⟩

theorem hullLockstep_inv (d : Dev) (h : d.Inv) :
    (hullLockstep d).Inv := by
  have k := Dev.hullFault_inv d srcLockstep 0x0B01 0 h
  unfold hullLockstep
  generalize d.hullFault srcLockstep 0x0B01 0 = e at k
  exact ⟨k.1, k.2.1, k.2.2.1, k.2.2.2.1, fun t => ⟨(k.2.2.2.2 t).1, rfl, rfl⟩⟩

theorem execHullLockstep_inv (s : State) (h : s.dev.Inv) :
    ∃ d, execHullLockstep s = .next { s with dev := d } ∧ d.Inv := ⟨_, rfl, hullLockstep_inv _ h⟩

theorem stopDarkTest_inv (b readsLow : Bool) (d : Dev) (h : d.Inv) :
    (stopDarkTest b readsLow d).Inv := by
  unfold stopDarkTest
  repeat' (first
    | (with_reducible assumption)
    | simp (disch := rfl) only [↓Dev.inv_ite, ↓Dev.inv_ite1, ↓Dev.inv_hullSame, h, implies_true, and_self]
    | (with_reducible refine Dev.hullFault_inv _ _ _ _ ?_)
    | (with_reducible refine And.intro ?_ ?_)
    | (with_reducible intro _)
    | split)

theorem execStopDarkTest_inv (pinB : Bool) (readsLow : Bool) (s : State) (h : s.dev.Inv) :
    ∃ d, execStopDarkTest pinB readsLow s = .next { s with dev := d } ∧ d.Inv := ⟨_, rfl, stopDarkTest_inv _ _ _ h⟩

theorem stopPinReadback_inv (b high : Bool) (d : Dev) (h : d.Inv) :
    (stopPinReadback b high d).Inv := by
  unfold stopPinReadback
  repeat' (first
    | (with_reducible assumption)
    | simp only [↓Dev.inv_ite, ↓Dev.inv_ite1, h, implies_true, and_self]
    | (with_reducible refine Dev.hullFault_inv _ _ _ _ ?_)
    | (with_reducible refine And.intro ?_ ?_)
    | (with_reducible intro _)
    | split)

theorem execStopPinReadback_inv (pinB : Bool) (high : Bool) (s : State) (h : s.dev.Inv) :
    ∃ d, execStopPinReadback pinB high s = .next { s with dev := d } ∧ d.Inv := ⟨_, rfl, stopPinReadback_inv _ _ _ h⟩

theorem offDelayExpiry_inv (q : Nat) (d : Dev) (h : d.Inv) :
    (offDelayExpiry q d).Inv := by
  unfold offDelayExpiry
  repeat' (first
    | (with_reducible assumption)
    | simp (disch := rfl) only [↓(Dev.sendCommand_frame _).inv (by decide), ↓Dev.inv_ite, ↓Dev.inv_ite1,
      ↓Dev.inv_hullSame, h, implies_true, and_self]
    | (with_reducible refine And.intro ?_ ?_)
    | (with_reducible intro _)
    | split)

theorem execOffDelayExpiry_inv (q : Fin 4) (s : State) (h : s.dev.Inv) :
    ∃ d, execOffDelayExpiry q s = .next { s with dev := d } ∧ d.Inv := ⟨_, rfl, offDelayExpiry_inv _ _ h⟩

theorem Dev.releaseTarget_latch (d : Dev) (a b : Bool) :
    ({ d with hull := { d.hull with latch := a, needReset := b } } : Dev).releaseTarget = d.releaseTarget := rfl

theorem Dev.releaseTarget_le (d : Dev) : d.releaseTarget ≤ 3 := by
  unfold Dev.releaseTarget
  dsimp only
  split
  · omega
  · split
    · omega
    · split <;> omega

theorem Dev.acceptReset_inv (d : Dev) (h : d.Inv) :
    (Dev.acceptReset d).Inv := by
  unfold Dev.acceptReset
  split
  · exact ((Dev.raise_frame _ _ _ _).inv (by decide)).2 h
  · rename_i hr
    have hn : d.hull.tier = 3 → d.releaseTarget < 3 := by
      intro t
      have l := (h.hull.2 t).1
      have hr' : ¬ (decide (d.demanded = 3) || (d.hull.latch && !d.releaseDone)) = true := hr
      rw [l] at hr'
      simp only [Bool.true_and, Bool.or_eq_true, not_or, Bool.not_eq_true', Bool.not_eq_false] at hr'
      exact of_decide_eq_true hr'.2
    dsimp only
    rw [Dev.releaseTarget_latch]
    have hl := Dev.releaseTarget_le d
    generalize d.releaseTarget = tgt at hn hl
    refine ((Dev.sendCommand_frame _).inv (by decide)).2 (Dev.restoreOutputs_inv _
      (((Dev.clearChannels_frame _).inv (by decide)).2 ?_))
    split
    · rename_i ht
      have lt3 : tgt < 3 := Nat.lt_of_lt_of_le ht h.hull.1
      have ne : tgt ≠ 3 := Nat.ne_of_lt lt3
      exact Dev.showTier_inv _ ⟨h.1, h.2.1, h.2.2.1, hl, fun e => absurd e ne⟩
    · rename_i ht
      have ne : d.hull.tier ≠ 3 := fun e => ht (by rw [e]; exact hn e)
      exact ⟨h.1, h.2.1, h.2.2.1, h.hull.1, fun e => absurd e ne⟩

theorem safetyChannelTimeout_inv (d : Dev) (h : d.Inv) :
    (safetyChannelTimeout d).Inv := by
  unfold safetyChannelTimeout
  repeat' (first
    | (with_reducible assumption)
    | simp (disch := rfl) only [↓(Dev.raise_frame _ _ _ _).inv (by decide), ↓Dev.inv_ite, ↓Dev.inv_ite1,
      ↓Dev.inv_hullSame, h, implies_true, and_self]
    | (with_reducible refine Dev.demand_inv _ _ _ _ ?_)
    | (with_reducible refine And.intro ?_ ?_)
    | (with_reducible intro _)
    | split)

theorem execSafetyChannelTimeout_inv (s : State) (h : s.dev.Inv) :
    ∃ d, execSafetyChannelTimeout s = .next { s with dev := d } ∧ d.Inv := ⟨_, rfl, safetyChannelTimeout_inv _ h⟩

theorem statusInterval_inv (d : Dev) (h : d.Inv) :
    (statusInterval d).Inv := by
  unfold statusInterval
  repeat' (first
    | (with_reducible assumption)
    | simp only [↓Dev.inv_ite, ↓Dev.inv_ite1, h, implies_true, and_self]
    | (with_reducible refine Dev.sendStatus_inv _ ?_)
    | (with_reducible refine And.intro ?_ ?_)
    | (with_reducible intro _)
    | split)

theorem execStatusInterval_inv (s : State) (h : s.dev.Inv) :
    ∃ d, execStatusInterval s = .next { s with dev := d } ∧ d.Inv := ⟨_, rfl, statusInterval_inv _ h⟩

theorem Dev.mismatch_inv (d : Dev) (h : d.Inv) :
    (Dev.mismatch d).Inv := by
  unfold Dev.mismatch
  dsimp only
  split
  · refine Dev.demand_inv _ _ _ _ (((Dev.recEvent_frame _ _).inv (by decide)).2 (((Dev.raise_frame _ _ _ _).inv (by
      decide)).2 ?_))
    exact (Dev.inv_hullSame rfl rfl rfl rfl).2 (Dev.inv_twin.2 h)
  · exact Dev.inv_twin.2 h

theorem Dev.agreed_inv (d : Dev) (h : d.Inv) :
    (Dev.agreed d).Inv := by
  unfold Dev.agreed
  repeat' (first
    | (with_reducible assumption)
    | simp only [↓Dev.inv_twin, ↓Dev.inv_ite, ↓Dev.inv_ite1, h, implies_true, and_self]
    | (with_reducible refine Dev.demand_inv _ _ _ _ ?_)
    | (with_reducible refine And.intro ?_ ?_)
    | (with_reducible intro _)
    | split)

theorem Dev.tolerance_inv (d : Dev) (ok : Bool) (h : d.Inv) :
    (Dev.tolerance d ok).Inv := by
  unfold Dev.tolerance
  repeat' (first
    | (with_reducible assumption)
    | simp only [↓(Dev.raise_frame _ _ _ _).inv (by decide), ↓(Dev.recEvent_frame _ _).inv (by decide),
      ↓Dev.inv_twin, ↓Dev.inv_ite, ↓Dev.inv_ite1, h, implies_true, and_self]
    | (with_reducible refine Dev.demand_inv _ _ _ _ ?_)
    | (with_reducible refine And.intro ?_ ?_)
    | (with_reducible intro _)
    | split)

theorem Dev.crossCheck_inv (d : Dev) (t : Decided) (h : d.Inv) :
    (Dev.crossCheck d t).Inv := by
  unfold Dev.crossCheck
  repeat' (first
    | (with_reducible assumption)
    | simp only [↓(Dev.markCompared_frame _ _).inv (by decide), ↓Dev.inv_ite, ↓Dev.inv_ite1, h, implies_true,
      and_self]
    | (with_reducible refine Dev.agreed_inv _ ?_)
    | (with_reducible refine Dev.mismatch_inv _ ?_)
    | (with_reducible refine And.intro ?_ ?_)
    | (with_reducible intro _)
    | split)

theorem Dev.alignment_inv (d : Dev) (tv : Int) (h : d.Inv) :
    (Dev.alignment d tv).Inv := by
  unfold Dev.alignment
  repeat' (first
    | (with_reducible assumption)
    | simp only [↓(Dev.raise_frame _ _ _ _).inv (by decide), ↓Dev.inv_twin, ↓Dev.inv_ite, ↓Dev.inv_ite1, h,
      implies_true, and_self]
    | (with_reducible refine Dev.demand_inv _ _ _ _ ?_)
    | (with_reducible refine And.intro ?_ ?_)
    | (with_reducible intro _)
    | split)

theorem decision_inv (f : TwinFrame) (d : Dev) (h : d.Inv) :
    (decision f d).Inv := by
  unfold decision
  repeat' (first
    | (with_reducible assumption)
    | simp only [↓(Dev.useFrame_frame _ _).inv (by decide), ↓Dev.inv_twin, ↓Dev.inv_ite, ↓Dev.inv_ite1, h,
      implies_true, and_self]
    | (with_reducible refine Dev.alignment_inv _ _ ?_)
    | (with_reducible refine Dev.crossCheck_inv _ _ ?_)
    | (with_reducible refine Dev.demand_inv _ _ _ _ ?_)
    | (with_reducible refine And.intro ?_ ?_)
    | (with_reducible intro _)
    | split)

theorem execDecision_inv (f : TwinFrame) (s : State) (h : s.dev.Inv) :
    ∃ d, execDecision f s = .next { s with dev := d } ∧ d.Inv := ⟨_, rfl, decision_inv _ _ h⟩

theorem values_inv (f : TwinFrame) (d : Dev) (h : d.Inv) :
    (values f d).Inv := by
  unfold values
  repeat' (first
    | (with_reducible assumption)
    | simp only [↓(Dev.useFrame_frame _ _).inv (by decide), ↓Dev.inv_twin, ↓Dev.inv_ite, ↓Dev.inv_ite1, h,
      implies_true, and_self]
    | (with_reducible refine Dev.tolerance_inv _ _ ?_)
    | (with_reducible refine And.intro ?_ ?_)
    | (with_reducible intro _)
    | split)

theorem execValues_inv (f : TwinFrame) (s : State) (h : s.dev.Inv) :
    ∃ d, execValues f s = .next { s with dev := d } ∧ d.Inv := ⟨_, rfl, values_inv _ _ h⟩

theorem crossCheckWindowExpiry_inv (c : Nat) (d : Dev) (h : d.Inv) :
    (crossCheckWindowExpiry c d).Inv := by
  unfold crossCheckWindowExpiry
  repeat' (first
    | (with_reducible assumption)
    | simp only [↓(Dev.markCompared_frame _ _).inv (by decide), ↓Dev.inv_ite, ↓Dev.inv_ite1, h, implies_true,
      and_self]
    | (with_reducible refine Dev.mismatch_inv _ ?_)
    | (with_reducible refine And.intro ?_ ?_)
    | (with_reducible intro _)
    | split)

theorem execCrossCheckWindowExpiry_inv (cycle : BitVec 48) (s : State) (h : s.dev.Inv) :
    ∃ d, execCrossCheckWindowExpiry cycle s = .next { s with dev := d } ∧ d.Inv := ⟨_, rfl, crossCheckWindowExpiry_inv _ _ h⟩

theorem Dev.earlyValues_inv (d : Dev) (x : Decided) (h : d.Inv) :
    (Dev.earlyValues d x).Inv := by
  unfold Dev.earlyValues
  repeat' (first
    | (with_reducible assumption)
    | simp only [↓Dev.inv_twin, ↓Dev.inv_ite, ↓Dev.inv_ite1, h, implies_true, and_self]
    | (with_reducible refine Dev.tolerance_inv _ _ ?_)
    | (with_reducible refine And.intro ?_ ?_)
    | (with_reducible intro _)
    | split)

theorem Dev.keepDecision_inv (d : Dev) (x : Decided) (h : d.Inv) :
    (Dev.keepDecision d x).Inv := by
  unfold Dev.keepDecision
  repeat' (first
    | (with_reducible assumption)
    | simp only [↓Dev.inv_twin, ↓Dev.inv_ite, ↓Dev.inv_ite1, h, implies_true, and_self]
    | (with_reducible refine Dev.crossCheck_inv _ _ ?_)
    | (with_reducible refine Dev.earlyValues_inv _ _ ?_)
    | (with_reducible refine And.intro ?_ ?_)
    | (with_reducible intro _)
    | split)

theorem Dev.pairFrom_inv (d : Dev) (tv : Int) (h : d.Inv) :
    (Dev.pairFrom d tv).Inv := by
  unfold Dev.pairFrom
  repeat' (first
    | (with_reducible assumption)
    | simp only [↓Dev.inv_twin, ↓Dev.inv_ite, ↓Dev.inv_ite1, h, implies_true, and_self]
    | (with_reducible refine Dev.demand_inv _ _ _ _ ?_)
    | (with_reducible refine And.intro ?_ ?_)
    | (with_reducible intro _)
    | split)

theorem Dev.single_inv (d : Dev) (h : d.Inv) :
    (Dev.single d).Inv := by
  unfold Dev.single
  repeat' (first
    | (with_reducible assumption)
    | simp only [↓(Dev.raise_frame _ _ _ _).inv (by decide), h, implies_true, and_self]
    | (with_reducible refine Dev.demand_inv _ _ _ _ ?_)
    | (with_reducible refine And.intro ?_ ?_)
    | (with_reducible intro _)
    | split)

theorem twinLinkLost_inv (d : Dev) (h : d.Inv) :
    (twinLinkLost d).Inv := by
  unfold twinLinkLost
  repeat' (first
    | (with_reducible assumption)
    | simp only [↓Dev.inv_twin, ↓Dev.inv_ite, ↓Dev.inv_ite1, h, implies_true, and_self]
    | (with_reducible refine Dev.demand_inv _ _ _ _ ?_)
    | (with_reducible refine Dev.single_inv _ ?_)
    | (with_reducible refine And.intro ?_ ?_)
    | (with_reducible intro _)
    | split)

theorem execTwinLinkLost_inv (s : State) (h : s.dev.Inv) :
    ∃ d, execTwinLinkLost s = .next { s with dev := d } ∧ d.Inv := ⟨_, rfl, twinLinkLost_inv _ h⟩

theorem Dev.discovered_inv (d : Dev) (h : d.Inv) :
    (Dev.discovered d).Inv := by
  unfold Dev.discovered
  repeat' (first
    | (with_reducible assumption)
    | simp only [↓Dev.inv_twin, ↓Dev.inv_ite, ↓Dev.inv_ite1, h, implies_true, and_self]
    | (with_reducible refine Dev.demand_inv _ _ _ _ ?_)
    | (with_reducible refine And.intro ?_ ?_)
    | (with_reducible intro _)
    | split)

theorem identity_inv (f : TwinFrame) (d : Dev) (h : d.Inv) :
    (identity f d).Inv := by
  unfold identity
  repeat' (first
    | (with_reducible assumption)
    | simp only [↓(Dev.checkFails_frame _ _).inv (by decide), ↓(Dev.useFrame_frame _ _).inv (by decide),
      ↓Dev.inv_twin, ↓Dev.inv_ite, ↓Dev.inv_ite1, h, implies_true, and_self]
    | (with_reducible refine Dev.demand_inv _ _ _ _ ?_)
    | (with_reducible refine Dev.discovered_inv _ ?_)
    | (with_reducible refine And.intro ?_ ?_)
    | (with_reducible intro _)
    | split)

theorem execIdentity_inv (f : TwinFrame) (s : State) (h : s.dev.Inv) :
    ∃ d, execIdentity f s = .next { s with dev := d } ∧ d.Inv := ⟨_, rfl, identity_inv _ _ h⟩

theorem partnerDiscovery_inv (d : Dev) (h : d.Inv) :
    (partnerDiscovery d).Inv := by
  unfold partnerDiscovery
  repeat' (first
    | (with_reducible assumption)
    | simp only [↓(Dev.raise_frame _ _ _ _).inv (by decide), ↓Dev.inv_twin, ↓Dev.inv_ite, ↓Dev.inv_ite1, h,
      implies_true, and_self]
    | (with_reducible refine Dev.single_inv _ ?_)
    | (with_reducible refine And.intro ?_ ?_)
    | (with_reducible intro _)
    | split)

theorem execPartnerDiscovery_inv (s : State) (h : s.dev.Inv) :
    ∃ d, execPartnerDiscovery s = .next { s with dev := d } ∧ d.Inv := ⟨_, rfl, partnerDiscovery_inv _ h⟩

theorem edgeCommandFrameSend_inv (d : Dev) (h : d.Inv) :
    (edgeCommandFrameSend d).Inv := by
  unfold edgeCommandFrameSend
  repeat' (first
    | (with_reducible assumption)
    | simp only [↓(Dev.modEdge_frame _ _).inv (by decide), ↓(Dev.sendCommand_frame _).inv (by decide), ↓Dev.inv_ite,
      ↓Dev.inv_ite1, ↓Dev.inv_onEdge, h, implies_true, and_self]
    | (with_reducible refine Dev.restoreOutputs_inv _ ?_)
    | (refine Dev.onEdge_inv _ _ ?_)
    | (with_reducible refine And.intro ?_ ?_)
    | (with_reducible intro _)
    | split)

theorem execEdgeCommandFrameSend_inv (s : State) (h : s.dev.Inv) :
    ∃ d, execEdgeCommandFrameSend s = .next { s with dev := d } ∧ d.Inv := ⟨_, rfl, edgeCommandFrameSend_inv _ h⟩

theorem Dev.protectOnce_inv (d : Dev) (tier cause : Nat) (h : d.Inv) :
    (Dev.protectOnce d tier cause).Inv := by
  unfold Dev.protectOnce
  repeat' (first
    | (with_reducible assumption)
    | simp only [↓(Dev.effect_frame _ _ _).inv (by decide), ↓(Dev.occur_frame _ _ _).inv (by decide),
      ↓(Dev.recEvent_frame _ _).inv (by decide), h, implies_true, and_self]
    | (with_reducible refine Dev.demandOnce_inv _ _ _ ?_)
    | (with_reducible refine And.intro ?_ ?_)
    | (with_reducible intro _)
    | split)

theorem Dev.useReport_inv (d : Dev) (r : Nat × Nat × Nat) (h : d.Inv) :
    (Dev.useReport d r).Inv := by
  unfold Dev.useReport
  repeat' (first
    | (with_reducible assumption)
    | simp only [↓(Dev.raise_frame _ _ _ _).inv (by decide), ↓Dev.inv_ite, ↓Dev.inv_ite1, h, implies_true, and_self]
    | (with_reducible refine Dev.demand_inv _ _ _ _ ?_)
    | (with_reducible refine Dev.protect_inv _ _ _ _ ?_)
    | (with_reducible refine Dev.protectOnce_inv _ _ _ ?_)
    | (with_reducible refine And.intro ?_ ?_)
    | (with_reducible intro _)
    | split)

theorem Dev.resetInput_inv (d : Dev) (p old new : Nat) (h : d.Inv) :
    (Dev.resetInput d p old new).Inv := by
  unfold Dev.resetInput
  repeat' (first
    | (with_reducible assumption)
    | simp (disch := rfl) only [↓Dev.inv_ite, ↓Dev.inv_ite1, ↓Dev.inv_hullSame, h, implies_true, and_self]
    | (with_reducible refine Dev.acceptReset_inv _ ?_)
    | (with_reducible refine And.intro ?_ ?_)
    | (with_reducible intro _)
    | split)

theorem Dev.usePair_inv (d : Dev) (p : Nat) (h : d.Inv) :
    (Dev.usePair d p).Inv := by
  unfold Dev.usePair
  repeat' (first
    | (with_reducible assumption)
    | simp (disch := rfl) only [↓(Dev.modEdge_frame _ _).inv (by decide), ↓Dev.inv_ite, ↓Dev.inv_ite1,
      ↓Dev.inv_hullSame, h, implies_true, and_self]
    | (with_reducible refine Dev.resetInput_inv _ _ _ _ ?_)
    | (with_reducible refine Dev.retier_inv _ _ _ ?_)
    | (with_reducible refine And.intro ?_ ?_)
    | (with_reducible intro _)
    | split)

theorem edgeStatusFrame_inv (lanes : Lanes) (d : Dev) (h : d.Inv) :
    (edgeStatusFrame lanes d).Inv := by
  unfold edgeStatusFrame
  repeat' (first
    | (with_reducible assumption)
    | simp only [↓(Dev.modEdge_frame _ _).inv (by decide), ↓(Dev.raise_frame _ _ _ _).inv (by decide), ↓Dev.inv_ite,
      ↓Dev.inv_ite1, ↓Dev.inv_onEdge, h, implies_true, and_self]
    | (with_reducible refine Dev.demand_inv _ _ _ _ ?_)
    | (with_reducible refine Dev.protectOnce_inv _ _ _ ?_)
    | (with_reducible refine Dev.usePair_inv _ _ ?_)
    | (with_reducible refine Dev.useReport_inv _ _ ?_)
    | (refine Dev.onEdge_inv _ _ ?_)
    | (with_reducible refine Dev.inv_foldl (fun e x he => ?_) _ ?_)
    | (with_reducible refine Dev.inv_foldlPair (fun e x he => ?_) _ ?_)
    | (with_reducible refine And.intro ?_ ?_)
    | (with_reducible intro _)
    | split)

theorem execEdgeStatusFrame_inv (lanes : Lanes) (s : State) (h : s.dev.Inv) :
    ∃ d, execEdgeStatusFrame lanes s = .next { s with dev := d } ∧ d.Inv := ⟨_, rfl, edgeStatusFrame_inv _ _ h⟩

theorem edgeLinkLost_inv (d : Dev) (h : d.Inv) :
    (edgeLinkLost d).Inv := by
  unfold edgeLinkLost
  repeat' (first
    | (with_reducible assumption)
    | simp only [↓(Dev.modEdge_frame _ _).inv (by decide), ↓(Dev.raise_frame _ _ _ _).inv (by decide), ↓Dev.inv_ite,
      ↓Dev.inv_ite1, ↓Dev.inv_onEdge, h, implies_true, and_self]
    | (with_reducible refine Dev.protect_inv _ _ _ _ ?_)
    | (refine Dev.onEdge_inv _ _ ?_)
    | (with_reducible refine And.intro ?_ ?_)
    | (with_reducible intro _)
    | split)

theorem execEdgeLinkLost_inv (s : State) (h : s.dev.Inv) :
    ∃ d, execEdgeLinkLost s = .next { s with dev := d } ∧ d.Inv := ⟨_, rfl, edgeLinkLost_inv _ h⟩

theorem sqFaultGone_inv (c : Nat) (d : Dev) (h : d.Inv) :
    (sqFaultGone c d).Inv := by
  unfold sqFaultGone
  repeat' (first
    | (with_reducible assumption)
    | simp only [↓(Dev.modSq_frame _ _ _).inv (by decide), ↓Dev.inv_ite, ↓Dev.inv_ite1, ↓Dev.inv_onEdge, h,
      implies_true, and_self]
    | (with_reducible refine Dev.demand_inv _ _ _ _ ?_)
    | (refine Dev.onEdge_inv _ _ ?_)
    | (with_reducible refine And.intro ?_ ?_)
    | (with_reducible intro _)
    | split)

theorem execSqFaultGone_inv (ch : Fin 8) (s : State) (h : s.dev.Inv) :
    ∃ d, execSqFaultGone ch s = .next { s with dev := d } ∧ d.Inv := ⟨_, rfl, sqFaultGone_inv _ _ h⟩

theorem edgeSupplyMeasure_inv (vedge vsens : Nat) (temp : Int) (d : Dev) (h : d.Inv) :
    (edgeSupplyMeasure vedge vsens temp d).Inv := by
  unfold edgeSupplyMeasure
  repeat' (first
    | (with_reducible assumption)
    | simp only [↓(Dev.allSqOff_frame _).inv (by decide), ↓(Dev.measured_frame _ _ _ _).inv (by decide),
      ↓(Dev.modEdge_frame _ _).inv (by decide), ↓(Dev.report_frame _ _ _ _).inv (by decide),
      ↓(Dev.suppliesOff_frame _).inv (by decide), ↓Dev.inv_ite, ↓Dev.inv_ite1, ↓Dev.inv_onEdge, h, implies_true,
      and_self]
    | (with_reducible refine Dev.demand_inv _ _ _ _ ?_)
    | (refine Dev.onEdge_inv _ _ ?_)
    | (with_reducible refine And.intro ?_ ?_)
    | (with_reducible intro _)
    | split)

theorem execEdgeSupplyMeasure_inv (vedge vsens : Nat) (temp : Int) (s : State) (h : s.dev.Inv) :
    ∃ d, execEdgeSupplyMeasure vedge vsens temp s = .next { s with dev := d } ∧ d.Inv := ⟨_, rfl, edgeSupplyMeasure_inv _ _ _ _ h⟩

theorem edgeTemperatureResume_inv (d : Dev) (h : d.Inv) :
    (edgeTemperatureResume d).Inv := by
  unfold edgeTemperatureResume
  repeat' (first
    | (with_reducible assumption)
    | simp only [↓(Dev.modEdge_frame _ _).inv (by decide), ↓Dev.inv_ite, ↓Dev.inv_ite1, ↓Dev.inv_onEdge, h,
      implies_true, and_self]
    | (with_reducible refine Dev.demand_inv _ _ _ _ ?_)
    | (refine Dev.onEdge_inv _ _ ?_)
    | (with_reducible refine And.intro ?_ ?_)
    | (with_reducible intro _)
    | split)

theorem execEdgeTemperatureResume_inv (s : State) (h : s.dev.Inv) :
    ∃ d, execEdgeTemperatureResume s = .next { s with dev := d } ∧ d.Inv := ⟨_, rfl, edgeTemperatureResume_inv _ h⟩

theorem extest_inv (d : Dev) (h : d.Inv) :
    (extest d).Inv := by
  unfold extest
  repeat' (first
    | (with_reducible assumption)
    | simp only [↓Dev.inv_ite, ↓Dev.inv_ite1, h, implies_true, and_self]
    | (with_reducible refine Dev.huskStop_inv _ ?_)
    | (with_reducible refine And.intro ?_ ?_)
    | (with_reducible intro _)
    | split)

theorem execExtest_inv (_intest : Bool) (s : State) (h : s.dev.Inv) :
    ∃ d, execExtest _intest s = .next { s with dev := d } ∧ d.Inv := ⟨_, rfl, extest_inv _ h⟩

theorem Dev.powerDown_inv (d : Dev) (st : PowerState) (clean flush : Bool) (h : d.Inv) :
    (Dev.powerDown d st clean flush).Inv := by
  have hs : ((Dev.huskStop d).stopNand flush).code = (Dev.huskStop d).code := (Dev.stopNand_frame _ flush) .code (by
      decide)
  have hc : (Dev.huskStop d).code = d.code := (Dev.huskStop_frame d) .code (by decide)
  have r := Dev.inv_reset
  unfold Dev.powerDown
  refine ⟨r.1, ?_, r.2.2.1, r.2.2.2⟩
  dsimp only
  rw [hs, hc]
  exact h.2.1

theorem Dev.resetDevice_inv (d : Dev) (kind : Nat) (causes : List Nat) (due : Bool) (h : d.Inv) :
    (Dev.resetDevice d kind causes due).Inv := by
  unfold Dev.resetDevice
  repeat' (first
    | (with_reducible assumption)
    | simp only [↓Dev.inv_power, ↓Dev.inv_start, ↓Dev.inv_power_start, h, implies_true, and_self]
    | (with_reducible refine Dev.powerDown_inv _ _ _ _ ?_)
    | (with_reducible refine And.intro ?_ ?_)
    | (with_reducible intro _)
    | split)

theorem Dev.toHusk_inv (d : Dev) (causes : List Nat) (clean flush : Bool) (h : d.Inv) :
    (Dev.toHusk d causes clean flush).Inv := by
  unfold Dev.toHusk
  repeat' (first
    | (with_reducible assumption)
    | simp only [↓Dev.inv_power, h, implies_true, and_self]
    | (with_reducible refine Dev.powerDown_inv _ _ _ _ ?_)
    | (with_reducible refine And.intro ?_ ?_)
    | (with_reducible intro _)
    | split)

theorem budgetEpoch_inv (d : Dev) (h : d.Inv) :
    (budgetEpoch d).Inv := by
  unfold budgetEpoch
  repeat' (first
    | (with_reducible assumption)
    | simp only [↓(Dev.count_frame _ _ _).inv (by decide), ↓(Dev.modPower_frame _ _).inv (by decide),
      ↓(Dev.raise_frame _ _ _ _).inv (by decide), ↓Dev.inv_pods, ↓Dev.inv_ite, ↓Dev.inv_ite1, h, implies_true,
      and_self]
    | (with_reducible refine Dev.demand_inv _ _ _ _ ?_)
    | (with_reducible refine Dev.protect_inv _ _ _ _ ?_)
    | (with_reducible refine Dev.inv_foldl (fun e x he => ?_) _ ?_)
    | (with_reducible refine Dev.inv_foldlPair (fun e x he => ?_) _ ?_)
    | (with_reducible refine And.intro ?_ ?_)
    | (with_reducible intro _)
    | split)

theorem execBudgetEpoch_inv (s : State) (h : s.dev.Inv) :
    ∃ d, execBudgetEpoch s = .next { s with dev := d } ∧ d.Inv := ⟨_, rfl, budgetEpoch_inv _ h⟩

theorem temperatureRead_inv (core iod : Int) (d : Dev) (h : d.Inv) :
    (temperatureRead core iod d).Inv := by
  unfold temperatureRead
  repeat' (first
    | (with_reducible assumption)
    | simp only [↓(Dev.modPower_frame _ _).inv (by decide), ↓(Dev.raiseIf_frame _ _ _ _ _).inv (by decide),
      ↓Dev.inv_ite, ↓Dev.inv_ite1, h, implies_true, and_self]
    | (with_reducible refine Dev.toHusk_inv _ _ _ _ ?_)
    | (with_reducible refine And.intro ?_ ?_)
    | (with_reducible intro _)
    | split)

theorem execTemperatureRead_inv (core iod : Int) (s : State) (h : s.dev.Inv) :
    ∃ d, execTemperatureRead core iod s = .next { s with dev := d } ∧ d.Inv := ⟨_, rfl, temperatureRead_inv _ _ _ h⟩

theorem railOutOfRange_inv (rail : Nat) (d : Dev) (h : d.Inv) :
    (railOutOfRange rail d).Inv := by
  unfold railOutOfRange
  repeat' (first
    | (with_reducible assumption)
    | simp only [↓(Dev.raise_frame _ _ _ _).inv (by decide), ↓Dev.inv_ite, ↓Dev.inv_ite1, h, implies_true, and_self]
    | (with_reducible refine Dev.protect_inv _ _ _ _ ?_)
    | (with_reducible refine And.intro ?_ ?_)
    | (with_reducible intro _)
    | split)

theorem execRailOutOfRange_inv (rail : Fin 6) (s : State) (h : s.dev.Inv) :
    ∃ d, execRailOutOfRange rail s = .next { s with dev := d } ∧ d.Inv := ⟨_, rfl, railOutOfRange_inv _ _ h⟩

theorem huskBrownout_inv (d : Dev) (h : d.Inv) :
    (huskBrownout d).Inv := by
  unfold huskBrownout
  repeat' (first
    | (with_reducible assumption)
    | simp only [↓(Dev.modPower_frame _ _).inv (by decide), ↓Dev.inv_ite, ↓Dev.inv_ite1, h, implies_true, and_self]
    | (with_reducible refine Dev.resetDevice_inv _ _ _ _ ?_)
    | (with_reducible refine And.intro ?_ ?_)
    | (with_reducible intro _)
    | split)

theorem execHuskBrownout_inv (s : State) (h : s.dev.Inv) :
    ∃ d, execHuskBrownout s = .next { s with dev := d } ∧ d.Inv := ⟨_, rfl, huskBrownout_inv _ h⟩

theorem crystalFault_inv (d : Dev) (h : d.Inv) :
    (crystalFault d).Inv := by
  unfold crystalFault
  repeat' (first
    | (with_reducible assumption)
    | simp only [↓(Dev.modPower_frame _ _).inv (by decide), ↓Dev.inv_ite, ↓Dev.inv_ite1, h, implies_true, and_self]
    | (with_reducible refine Dev.refFault_inv _ _ _ ?_)
    | (with_reducible refine And.intro ?_ ?_)
    | (with_reducible intro _)
    | split)

theorem execCrystalFault_inv (s : State) (h : s.dev.Inv) :
    ∃ d, execCrystalFault s = .next { s with dev := d } ∧ d.Inv := ⟨_, rfl, crystalFault_inv _ h⟩

theorem Dev.planAttention_inv (d : Dev) (c : Nat) (tv : Int) (h : d.Inv) :
    (Dev.planAttention d c tv).Inv := by
  unfold Dev.planAttention
  repeat' (first
    | (with_reducible assumption)
    | simp only [↓(Dev.occurN_frame _ _ _ _).inv (by decide), ↓(Dev.planRegion_frame _ _ _ _).inv (by decide),
      ↓(Dev.raise_frame _ _ _ _).inv (by decide), ↓(Dev.retirePoisoned_frame _).inv (by decide), ↓Dev.inv_ite,
      ↓Dev.inv_ite1, h, implies_true, and_self]
    | (with_reducible refine Dev.signal_inv _ _ _ _ _ ?_)
    | (with_reducible refine Dev.inv_foldl (fun e x he => ?_) _ ?_)
    | (with_reducible refine Dev.inv_foldlPair (fun e x he => ?_) _ ?_)
    | (with_reducible refine And.intro ?_ ?_)
    | (with_reducible intro _)
    | split)

theorem Dev.copyPages_inv (d : Dev) (hot pool : Nat) (h : d.Inv) :
    (Dev.copyPages d hot pool).Inv := by
  unfold Dev.copyPages
  repeat' (first
    | (with_reducible assumption)
    | simp only [h, implies_true, and_self]
    | (with_reducible refine Dev.store_inv _ _ _ ?_)
    | (with_reducible refine And.intro ?_ ?_)
    | (with_reducible intro _)
    | split)

theorem kvWriteBackComplete_inv (g : Nat) (faulted : Bool) (d : Dev) (h : d.Inv) :
    (kvWriteBackComplete g faulted d).Inv := by
  unfold kvWriteBackComplete
  repeat' (first
    | (with_reducible assumption)
    | simp only [↓(Dev.freePoolRun_frame _ _).inv (by decide), ↓(Dev.modKv_frame _ _).inv (by decide),
      ↓(Dev.modRecord_frame _ _ _ _).inv (by decide), ↓Dev.inv_ite, ↓Dev.inv_ite1, h, implies_true, and_self]
    | (with_reducible refine Dev.copyPages_inv _ _ _ ?_)
    | (with_reducible refine And.intro ?_ ?_)
    | (with_reducible intro _)
    | split)

theorem execKvWriteBackComplete_inv (region : Nat) (faulted : Bool) (s : State) (h : s.dev.Inv) :
    ∃ d, execKvWriteBackComplete region faulted s = .next { s with dev := d } ∧ d.Inv := ⟨_, rfl, kvWriteBackComplete_inv _ _ _ h⟩

theorem Dev.encodeBlock_inv (d : Dev) (own : Option Nat) (g tok : Nat) (kv4 : Bool) (src dst scale : Nat) (h : d.Inv)
      :
    (Dev.encodeBlock d own g tok kv4 src dst scale).Inv := by
  unfold Dev.encodeBlock
  repeat' (first
    | (with_reducible assumption)
    | simp only [↓(Dev.encodeCount_frame _ _).inv (by decide), ↓(Dev.modRecord_frame _ _ _ _).inv (by decide),
      ↓Dev.inv_ite, ↓Dev.inv_ite1, h, implies_true, and_self]
    | (with_reducible refine Dev.storeA_inv _ _ _ _ ?_)
    | (with_reducible refine And.intro ?_ ?_)
    | (with_reducible intro _)
    | split)

theorem Dev.widenBlocks_inv (d : Dev) (own : Option Nat) (bf16 kv4 : Bool) (n src scale dst : Nat) (h : d.Inv) :
    (Dev.widenBlocks d own bf16 kv4 n src scale dst).Inv := by
  unfold Dev.widenBlocks
  repeat' (first
    | (with_reducible assumption)
    | simp only [↓Dev.inv_ite, ↓Dev.inv_ite1, h, implies_true, and_self]
    | (with_reducible refine Dev.storeA_inv _ _ _ _ ?_)
    | (with_reducible refine And.intro ?_ ?_)
    | (with_reducible intro _)
    | split)

theorem Dev.softmaxRows_inv (d : Dev) (own : Option Nat) (rows first keys scores masks stats : Nat) (h : d.Inv) :
    (Dev.softmaxRows d own rows first keys scores masks stats).1.Inv := by
  unfold Dev.softmaxRows
  repeat' (first
    | (with_reducible assumption)
    | simp only [h, implies_true, and_self]
    | (with_reducible refine Dev.storeA_inv _ _ _ _ ?_)
    | (with_reducible refine And.intro ?_ ?_)
    | (with_reducible intro _)
    | split)

theorem Dev.liftRegion_inv (d : Dev) (own : Option Nat) (n g : Nat) (levels : List Nat) (dst : Nat) (h : d.Inv) :
    (Dev.liftRegion d own n g levels dst).Inv := by
  unfold Dev.liftRegion
  repeat' (first
    | (with_reducible assumption)
    | simp only [h, implies_true, and_self]
    | (with_reducible refine Dev.eltPut_inv _ _ _ _ _ ?_)
    | (with_reducible refine Dev.healElts_inv _ _ _ _ ?_)
    | (with_reducible refine Dev.putTimes_inv _ _ _ _ _ ?_)
    | (with_reducible refine Dev.inv_foldl (fun e x he => ?_) _ ?_)
    | (with_reducible refine Dev.inv_foldlPair (fun e x he => ?_) _ ?_)
    | (with_reducible refine And.intro ?_ ?_)
    | (with_reducible intro _)
    | split)

theorem Dev.buildCosts_inv (d : Dev) (own : Option Nat) (k list first n dst : Nat) (h : d.Inv) :
    (Dev.buildCosts d own k list first n dst).Inv := by
  unfold Dev.buildCosts
  repeat' (first
    | (with_reducible assumption)
    | simp only [↓(Dev.countCut_frame _ _ _).inv (by decide), ↓(Dev.countPruned_frame _ _ _ _).inv (by decide),
      ↓(Dev.modCand_frame _ _).inv (by decide), h, implies_true, and_self]
    | (with_reducible refine Dev.storeA_inv _ _ _ _ ?_)
    | (with_reducible refine Dev.inv_foldl (fun e x he => ?_) _ ?_)
    | (with_reducible refine Dev.inv_foldlPair (fun e x he => ?_) _ ?_)
    | (with_reducible refine And.intro ?_ ?_)
    | (with_reducible intro _)
    | split)

theorem Dev.storeFactor_inv (d : Dev) (j : Job) (h : Struc) (f : Factor) (hi : d.Inv) :
    (Dev.storeFactor d j h f).Inv := by
  unfold Dev.storeFactor
  repeat' (first
    | (with_reducible assumption)
    | simp only [↓Dev.inv_ite, ↓Dev.inv_ite1, hi, implies_true, and_self]
    | (with_reducible refine Dev.storeA_inv _ _ _ _ ?_)
    | (with_reducible refine And.intro ?_ ?_)
    | (with_reducible intro _)
    | split)

theorem Dev.putSol_inv (d : Dev) (j : Job) (x : Solution) (t : Option Times) (h : d.Inv) :
    (Dev.putSol d j x t).Inv := by
  unfold Dev.putSol
  repeat' (first
    | (with_reducible assumption)
    | simp only [↓(Dev.modFusN_frame _ _).inv (by decide), ↓Dev.inv_ite, ↓Dev.inv_ite1, h, implies_true, and_self]
    | (with_reducible refine Dev.eltPut_inv _ _ _ _ _ ?_)
    | (with_reducible refine Dev.healElts_inv _ _ _ _ ?_)
    | (with_reducible refine Dev.putTimes_inv _ _ _ _ _ ?_)
    | (with_reducible refine Dev.storeA_inv _ _ _ _ ?_)
    | (with_reducible refine Dev.inv_foldl (fun e x he => ?_) _ ?_)
    | (with_reducible refine Dev.inv_foldlPair (fun e x he => ?_) _ ?_)
    | (with_reducible refine And.intro ?_ ?_)
    | (with_reducible intro _)
    | split)

theorem Dev.endJob_inv (d : Dev) (e : Nat) (r : RunJob) (rec : Option Done) (err : Bool) (h : d.Inv) :
    (Dev.endJob d e r rec err).Inv := by
  unfold Dev.endJob
  repeat' (first
    | (with_reducible assumption)
    | simp only [↓(Dev.modSolver_frame _ _ _).inv (by decide), ↓Dev.inv_ite, ↓Dev.inv_ite1, h, implies_true, and_self]
    | (with_reducible refine Dev.finish_inv _ _ _ _ _ ?_)
    | (with_reducible refine Dev.storeA_inv _ _ _ _ ?_)
    | (with_reducible refine And.intro ?_ ?_)
    | (with_reducible intro _)
    | split)

theorem Dev.faultJob_inv (d : Dev) (e : Nat) (r : RunJob) (cause : Nat) (h : d.Inv) :
    (Dev.faultJob d e r cause).Inv := by
  unfold Dev.faultJob
  repeat' (first
    | (with_reducible assumption)
    | simp only [↓(Dev.modFusN_frame _ _).inv (by decide), h, implies_true, and_self]
    | (with_reducible refine Dev.endJob_inv _ _ _ _ _ ?_)
    | (with_reducible refine Dev.markFaulted_inv _ _ _ ?_)
    | (with_reducible refine And.intro ?_ ?_)
    | (with_reducible intro _)
    | split)

theorem Dev.engineOut_inv (d : Dev) (e : Nat) (h : d.Inv) :
    (Dev.engineOut d e).Inv := by
  unfold Dev.engineOut
  repeat' (first
    | (with_reducible assumption)
    | simp only [↓(Dev.modSolver_frame _ _ _).inv (by decide), ↓(Dev.raise_frame _ _ _ _).inv (by decide),
      ↓Dev.inv_ite, ↓Dev.inv_ite1, h, implies_true, and_self]
    | (with_reducible refine Dev.faultJob_inv _ _ _ _ ?_)
    | (with_reducible refine And.intro ?_ ?_)
    | (with_reducible intro _)
    | split)

theorem Dev.deliver_inv (d : Dev) (e : Nat) (r : RunJob) (x : Solution) (t : Option Times) (cut : Bool) (k : Done) (h
      : d.Inv) :
    (Dev.deliver d e r x t cut k).Inv := by
  unfold Dev.deliver
  repeat' (first
    | (with_reducible assumption)
    | simp only [↓(Dev.occur_frame _ _ _).inv (by decide), ↓(Dev.raise_frame _ _ _ _).inv (by decide), ↓Dev.inv_ite,
      ↓Dev.inv_ite1, h, implies_true, and_self]
    | (with_reducible refine Dev.endJob_inv _ _ _ _ _ ?_)
    | (with_reducible refine Dev.putSol_inv _ _ _ _ ?_)
    | (with_reducible refine Dev.inv_foldl (fun e x he => ?_) _ ?_)
    | (with_reducible refine Dev.inv_foldlPair (fun e x he => ?_) _ ?_)
    | (with_reducible refine And.intro ?_ ?_)
    | (with_reducible intro _)
    | split)

theorem Dev.abortJob_inv (d : Dev) (e : Nat) (r : RunJob) (h : d.Inv) :
    (Dev.abortJob d e r).Inv := by
  unfold Dev.abortJob
  repeat' (first
    | (with_reducible assumption)
    | simp only [h, implies_true, and_self]
    | (with_reducible refine Dev.deliver_inv _ _ _ _ _ _ _ ?_)
    | (with_reducible refine And.intro ?_ ?_)
    | (with_reducible intro _)
    | split)

theorem Dev.deliverAuction_inv (d : Dev) (e : Nat) (r : RunJob) (s : Auction) (m : CostMatrix) (status phases rounds
      : Nat) (cut : Bool) (h : d.Inv) :
    (Dev.deliverAuction d e r s m status phases rounds cut).Inv := by
  unfold Dev.deliverAuction
  repeat' (first
    | (with_reducible assumption)
    | simp only [↓(Dev.endAuction_frame _ _ _ _ _).inv (by decide), ↓(Dev.raiseIf_frame _ _ _ _ _).inv (by decide),
      ↓Dev.inv_ite, ↓Dev.inv_ite1, h, implies_true, and_self]
    | (with_reducible refine Dev.endJob_inv _ _ _ _ _ ?_)
    | (with_reducible refine And.intro ?_ ?_)
    | (with_reducible intro _)
    | split)

theorem Dev.runAuction_inv (d : Dev) (e : Nat) (r : RunJob) (cut : Option (Nat × Nat)) (h : d.Inv) :
    (Dev.runAuction d e r cut).Inv := by
  unfold Dev.runAuction
  repeat' (first
    | (with_reducible assumption)
    | simp only [↓Dev.inv_ite, ↓Dev.inv_ite1, h, implies_true, and_self]
    | (with_reducible refine Dev.deliverAuction_inv _ _ _ _ _ _ _ _ _ ?_)
    | (with_reducible refine And.intro ?_ ?_)
    | (with_reducible intro _)
    | split)

theorem Dev.runSparse_inv (d : Dev) (e : Nat) (r : RunJob) (h : d.Inv) :
    (Dev.runSparse d e r).Inv := by
  unfold Dev.runSparse
  repeat' (first
    | (with_reducible assumption)
    | simp only [↓(Dev.mergeDelta_frame _ _).inv (by decide), ↓(Dev.raise_frame _ _ _ _).inv (by decide),
      ↓Dev.inv_ite, ↓Dev.inv_ite1, h, implies_true, and_self]
    | (with_reducible refine Dev.deliver_inv _ _ _ _ _ _ _ ?_)
    | (with_reducible refine Dev.faultJob_inv _ _ _ _ ?_)
    | (with_reducible refine Dev.storeFactor_inv _ _ _ _ ?_)
    | (with_reducible refine And.intro ?_ ?_)
    | (with_reducible intro _)
    | split)

theorem Dev.runDense_inv (d : Dev) (e : Nat) (r : RunJob) (h : d.Inv) :
    (Dev.runDense d e r).Inv := by
  unfold Dev.runDense
  repeat' (first
    | (with_reducible assumption)
    | simp only [↓Dev.inv_ite, ↓Dev.inv_ite1, h, implies_true, and_self]
    | (with_reducible refine Dev.deliver_inv _ _ _ _ _ _ _ ?_)
    | (with_reducible refine Dev.eltPut_inv _ _ _ _ _ ?_)
    | (with_reducible refine Dev.healElts_inv _ _ _ _ ?_)
    | (with_reducible refine Dev.putTimes_inv _ _ _ _ _ ?_)
    | (with_reducible refine Dev.inv_foldl (fun e x he => ?_) _ ?_)
    | (with_reducible refine Dev.inv_foldlPair (fun e x he => ?_) _ ?_)
    | (with_reducible refine And.intro ?_ ?_)
    | (with_reducible intro _)
    | split)

theorem Dev.deliverIters_inv (d : Dev) (e : Nat) (r : RunJob) (j : Job) (s : Sys) (l : List Iter) (done : Nat) (cut :
      Bool) (h : d.Inv) :
    (Dev.deliverIters d e r j s l done cut).Inv := by
  unfold Dev.deliverIters
  repeat' (first
    | (with_reducible assumption)
    | simp only [↓(Dev.modSolver_frame _ _ _).inv (by decide), ↓Dev.inv_ite, ↓Dev.inv_ite1, h, implies_true, and_self]
    | (with_reducible refine Dev.deliver_inv _ _ _ _ _ _ _ ?_)
    | (with_reducible refine And.intro ?_ ?_)
    | (with_reducible intro _)
    | split)

theorem Dev.runIters_inv (d : Dev) (e : Nat) (r : RunJob) (cut : Option Nat) (h : d.Inv) :
    (Dev.runIters d e r cut).Inv := by
  unfold Dev.runIters
  repeat' (first
    | (with_reducible assumption)
    | simp only [↓(Dev.mergeDelta_frame _ _).inv (by decide), ↓(Dev.modSolver_frame _ _ _).inv (by decide),
      ↓(Dev.raise_frame _ _ _ _).inv (by decide), ↓Dev.inv_ite, ↓Dev.inv_ite1, h, implies_true, and_self]
    | (with_reducible refine Dev.deliverIters_inv _ _ _ _ _ _ _ _ ?_)
    | (with_reducible refine Dev.endJob_inv _ _ _ _ _ ?_)
    | (with_reducible refine Dev.faultJob_inv _ _ _ _ ?_)
    | (with_reducible refine Dev.storeA_inv _ _ _ _ ?_)
    | (with_reducible refine And.intro ?_ ?_)
    | (with_reducible intro _)
    | split)

theorem Dev.runJob_inv (d : Dev) (e : Nat) (r : RunJob) (h : d.Inv) :
    (Dev.runJob d e r).Inv := by
  unfold Dev.runJob
  repeat' (first
    | (with_reducible assumption)
    | simp only [↓Dev.inv_ite, ↓Dev.inv_ite1, h, implies_true, and_self]
    | (with_reducible refine Dev.runAuction_inv _ _ _ _ ?_)
    | (with_reducible refine Dev.runDense_inv _ _ _ ?_)
    | (with_reducible refine Dev.runIters_inv _ _ _ _ ?_)
    | (with_reducible refine Dev.runSparse_inv _ _ _ ?_)
    | (with_reducible refine And.intro ?_ ?_)
    | (with_reducible intro _)
    | split)

theorem Dev.cutJob_inv (d : Dev) (e : Nat) (r : RunJob) (done rounds : Nat) (h : d.Inv) :
    (Dev.cutJob d e r done rounds).Inv := by
  unfold Dev.cutJob
  repeat' (first
    | (with_reducible assumption)
    | simp only [↓Dev.inv_ite, ↓Dev.inv_ite1, h, implies_true, and_self]
    | (with_reducible refine Dev.abortJob_inv _ _ _ ?_)
    | (with_reducible refine Dev.runAuction_inv _ _ _ _ ?_)
    | (with_reducible refine Dev.runIters_inv _ _ _ _ ?_)
    | (with_reducible refine And.intro ?_ ?_)
    | (with_reducible intro _)
    | split)

theorem solve_inv (e : Nat) (w : List Word) (part work : Nat) (track : Option Nat) (d : Dev) (h : d.Inv) :
    (solve e w part work track d).Inv := by
  unfold solve
  repeat' (first
    | (with_reducible assumption)
    | simp only [↓(Dev.modSolver_frame _ _ _).inv (by decide), ↓(Dev.raise_frame _ _ _ _).inv (by decide),
      ↓(Dev.startEntry_frame _ _ _).inv (by decide), ↓Dev.inv_ite, ↓Dev.inv_ite1, h, implies_true, and_self]
    | (with_reducible refine Dev.cutJob_inv _ _ _ _ _ ?_)
    | (with_reducible refine Dev.faultJob_inv _ _ _ _ ?_)
    | (with_reducible refine Dev.skipEntry_inv _ _ _ _ ?_)
    | (with_reducible refine And.intro ?_ ?_)
    | (with_reducible intro _)
    | split)

theorem execSolve_inv (e : Fin 4) (job : List Word) (partition : Fin 8) (work : Nat) (trackClass : Option (Fin 8)) (s
      : State) (h : s.dev.Inv) :
    ∃ d, execSolve e job partition work trackClass s = .next { s with dev := d } ∧ d.Inv := ⟨_, rfl, solve_inv _ _ _ _ _ _ h⟩

theorem Dev.engineCompare_inv (d : Dev) (e : Nat) (h : d.Inv) :
    (Dev.engineCompare d e).Inv := by
  unfold Dev.engineCompare
  repeat' (first
    | (with_reducible assumption)
    | simp only [↓(Dev.modSolver_frame _ _ _).inv (by decide), ↓(Dev.occur_frame _ _ _).inv (by decide),
      ↓(Dev.raise_frame _ _ _ _).inv (by decide), ↓Dev.inv_ite, ↓Dev.inv_ite1, h, implies_true, and_self]
    | (with_reducible refine Dev.engineOut_inv _ _ ?_)
    | (with_reducible refine And.intro ?_ ?_)
    | (with_reducible intro _)
    | split)

theorem solverJobComplete_inv (e : Nat) (lost parity : Bool) (ecc : List EccEvent) (d : Dev) (h : d.Inv) :
    (solverJobComplete e lost parity ecc d).Inv := by
  unfold solverJobComplete
  repeat' (first
    | (with_reducible assumption)
    | simp only [↓(Dev.bumpFree_frame _).inv (by decide), ↓(Dev.raise_frame _ _ _ _).inv (by decide), ↓Dev.inv_ite,
      ↓Dev.inv_ite1, h, implies_true, and_self]
    | (with_reducible refine Dev.engineCompare_inv _ _ ?_)
    | (with_reducible refine Dev.faultJob_inv _ _ _ _ ?_)
    | (with_reducible refine Dev.readKeys_inv _ _ _ ?_)
    | (with_reducible refine Dev.runJob_inv _ _ _ ?_)
    | (with_reducible refine And.intro ?_ ?_)
    | (with_reducible intro _)
    | split)

theorem execSolverJobComplete_inv (e : Fin 4) (compareLost parity : Bool) (ecc : List EccEvent) (s : State) (h :
      s.dev.Inv) :
    ∃ d, execSolverJobComplete e compareLost parity ecc s = .next { s with dev := d } ∧ d.Inv := ⟨_, rfl, solverJobComplete_inv _ _ _ _ _ h⟩

theorem solverCut_inv (e done rounds : Nat) (d : Dev) (h : d.Inv) :
    (solverCut e done rounds d).Inv := by
  unfold solverCut
  repeat' (first
    | (with_reducible assumption)
    | simp only [↓Dev.inv_ite, ↓Dev.inv_ite1, h, implies_true, and_self]
    | (with_reducible refine Dev.cutJob_inv _ _ _ _ _ ?_)
    | (with_reducible refine And.intro ?_ ?_)
    | (with_reducible intro _)
    | split)

theorem execSolverCut_inv (e : Fin 4) (done rounds : Nat) (s : State) (h : s.dev.Inv) :
    ∃ d, execSolverCut e done rounds s = .next { s with dev := d } ∧ d.Inv := ⟨_, rfl, solverCut_inv _ _ _ _ h⟩

theorem solverSelftest_inv (e : Nat) (ok : Bool) (d : Dev) (h : d.Inv) :
    (solverSelftest e ok d).Inv := by
  unfold solverSelftest
  repeat' (first
    | (with_reducible assumption)
    | simp only [↓(Dev.dropChunk_frame _ _ _).inv (by decide), ↓(Dev.occur_frame _ _ _).inv (by decide),
      ↓(Dev.raise_frame _ _ _ _).inv (by decide), ↓Dev.inv_ite, ↓Dev.inv_ite1, h, implies_true, and_self]
    | (with_reducible refine Dev.engineOut_inv _ _ ?_)
    | (with_reducible refine Dev.tested_inv _ _ _ ?_)
    | (with_reducible refine And.intro ?_ ?_)
    | (with_reducible intro _)
    | split)

theorem execSolverSelftest_inv (e : Fin 4) (digestOk : Bool) (s : State) (h : s.dev.Inv) :
    ∃ d, execSolverSelftest e digestOk s = .next { s with dev := d } ∧ d.Inv := ⟨_, rfl, solverSelftest_inv _ _ _ h⟩

theorem pllLossOfLock_inv (pll : Nat) (d : Dev) (h : d.Inv) :
    (pllLossOfLock pll d).Inv := by
  unfold pllLossOfLock
  repeat' (first
    | (with_reducible assumption)
    | simp only [↓(Dev.raise_frame _ _ _ _).inv (by decide), ↓Dev.inv_ite, ↓Dev.inv_ite1, h, implies_true, and_self]
    | (with_reducible refine Dev.engineOut_inv _ _ ?_)
    | (with_reducible refine Dev.refFault_inv _ _ _ ?_)
    | (with_reducible refine Dev.takeOut_inv _ _ ?_)
    | (with_reducible refine hullLockstep_inv _ ?_)
    | (with_reducible refine And.intro ?_ ?_)
    | (with_reducible intro _)
    | split)

theorem execPllLossOfLock_inv (pll : Fin 32) (s : State) (h : s.dev.Inv) :
    ∃ d, execPllLossOfLock pll s = .next { s with dev := d } ∧ d.Inv := ⟨_, rfl, pllLossOfLock_inv _ _ h⟩

theorem Dev.pipWork_inv (d : Dev) (own : Option Nat) (out len : Nat) (w : PipWork) (h : d.Inv) :
    (Dev.pipWork d own out len w).1.Inv := by
  unfold Dev.pipWork
  repeat' (first
    | (with_reducible assumption)
    | simp only [↓(Dev.calibrateOne_frame _ _ _).inv (by decide), ↓(Dev.cellState_frame _ _ _).inv (by decide),
      ↓(Dev.count_frame _ _ _).inv (by decide), ↓(Dev.healthChecks_frame _ _).inv (by decide),
      ↓(Dev.predictClass_frame _ _).inv (by decide), ↓(Dev.raise_frame _ _ _ _).inv (by decide),
      ↓(Dev.updateClass_frame _ _ _ _ _).inv (by decide), ↓Dev.inv_ite, ↓Dev.inv_ite1, h, implies_true, and_self]
    | (with_reducible refine Dev.buildCosts_inv _ _ _ _ _ _ _ ?_)
    | (with_reducible refine Dev.encodeBlock_inv _ _ _ _ _ _ _ _ ?_)
    | (with_reducible refine Dev.liftRegion_inv _ _ _ _ _ _ ?_)
    | (with_reducible refine Dev.softmaxRows_inv _ _ _ _ _ _ _ _ ?_)
    | (with_reducible refine Dev.storeA_inv _ _ _ _ ?_)
    | (with_reducible refine Dev.widenBlocks_inv _ _ _ _ _ _ _ _ ?_)
    | (refine Dev.readSlots_inv (fun e he => ?_) _ _ _ _ ?_)
    | (with_reducible refine Dev.inv_foldl (fun e x he => ?_) _ ?_)
    | (with_reducible refine Dev.inv_foldlPair (fun e x he => ?_) _ ?_)
    | (with_reducible refine And.intro ?_ ?_)
    | (with_reducible intro _)
    | split)

theorem pipStep_inv (l : Nat) (s : PipStep) (forbidden : Bool) (d : Dev) (h : d.Inv) :
    (pipStep l s forbidden d).Inv := by
  unfold pipStep
  repeat' (first
    | (with_reducible assumption)
    | simp only [↓(Dev.modPod_frame _ _ _).inv (by decide), ↓(Dev.raise_frame _ _ _ _).inv (by decide),
      ↓(Dev.startEntry_frame _ _ _).inv (by decide), ↓Dev.inv_ite, ↓Dev.inv_ite1, h, implies_true, and_self]
    | (with_reducible refine Dev.endPip_inv _ _ _ _ _ ?_)
    | (with_reducible refine Dev.inv_foldl (fun e x he => ?_) _ ?_)
    | (with_reducible refine Dev.inv_foldlPair (fun e x he => ?_) _ ?_)
    | (with_reducible refine And.intro ?_ ?_)
    | (with_reducible intro _)
    | split)

theorem execPipStep_inv (l : Fin 24) (p : PipStep) (forbidden : Bool) (s : State) (h : s.dev.Inv) :
    ∃ d, execPipStep l p forbidden s = .next { s with dev := d } ∧ d.Inv := ⟨_, rfl, pipStep_inv _ _ _ _ h⟩

theorem Dev.pipOutput_inv (d : Dev) (l p : Nat) (s : PipStep) (flips : List Byte) (poison : Bool) (h : d.Inv) :
    (Dev.pipOutput d l p s flips poison).1.Inv := by
  unfold Dev.pipOutput
  repeat' (first
    | (with_reducible assumption)
    | simp only [↓Dev.inv_ite, ↓Dev.inv_ite1, h, implies_true, and_self]
    | (with_reducible refine Dev.store_inv _ _ _ ?_)
    | (with_reducible refine Dev.storeA_inv _ _ _ _ ?_)
    | (with_reducible refine And.intro ?_ ?_)
    | (with_reducible intro _)
    | split)

theorem pipStepComplete_inv (l core : Nat) (flips : List Byte) (ecc : List EccEvent) (d : Dev) (h : d.Inv) :
    (pipStepComplete l core flips ecc d).Inv := by
  unfold pipStepComplete
  repeat' (first
    | (with_reducible assumption)
    | simp only [↓(Dev.bumpFree_frame _).inv (by decide), ↓(Dev.raiseIf_frame _ _ _ _ _).inv (by decide),
      ↓Dev.inv_ite, ↓Dev.inv_ite1, h, implies_true, and_self]
    | (with_reducible refine Dev.endPip_inv _ _ _ _ _ ?_)
    | (with_reducible refine Dev.pipOutput_inv _ _ _ _ _ _ ?_)
    | (with_reducible refine Dev.pipWork_inv _ _ _ _ _ ?_)
    | (with_reducible refine Dev.readKeys_inv _ _ _ ?_)
    | (with_reducible refine And.intro ?_ ?_)
    | (with_reducible intro _)
    | split)

theorem execPipStepComplete_inv (l : Fin 24) (core : Fin 4) (flips : List Byte) (ecc : List EccEvent) (s : State) (h
      : s.dev.Inv) :
    ∃ d, execPipStepComplete l core flips ecc s = .next { s with dev := d } ∧ d.Inv := ⟨_, rfl, pipStepComplete_inv _ _ _ _ _ h⟩

theorem pipOverrun_inv (l core : Nat) (d : Dev) (h : d.Inv) :
    (pipOverrun l core d).Inv := by
  unfold pipOverrun
  repeat' (first
    | (with_reducible assumption)
    | simp only [↓(Dev.raise_frame _ _ _ _).inv (by decide), ↓Dev.inv_ite, ↓Dev.inv_ite1, h, implies_true, and_self]
    | (with_reducible refine Dev.endPip_inv _ _ _ _ _ ?_)
    | (with_reducible refine And.intro ?_ ?_)
    | (with_reducible intro _)
    | split)

theorem execPipOverrun_inv (l : Fin 24) (core : Fin 4) (s : State) (h : s.dev.Inv) :
    ∃ d, execPipOverrun l core s = .next { s with dev := d } ∧ d.Inv := ⟨_, rfl, pipOverrun_inv _ _ _ h⟩

end Sys2Proof.Machine
end

