-- ==== Sys2Proof/Laws/InvState.lean ====
section
/-! SUPPORT. The invariant is kept by entry to RUN, packages, start-up, transitions, cycles, requests and ports; one lemma for each operation and each command that reaches memory, the
cycle or the Hull. -/

set_option linter.unusedSimpArgs false
set_option linter.unusedTactic false
set_option linter.unreachableTactic false

namespace Sys2Proof.Machine

open Sys2Proof

theorem Dev.resetHull_inv (d : Dev) (h : d.Inv) :
    (Dev.resetHull d).Inv := by
  unfold Dev.resetHull
  repeat' (first
    | (with_reducible assumption)
    | simp (disch := rfl) only [↓Dev.inv_hullSame, h, implies_true, and_self]
    | (with_reducible refine And.intro ?_ ?_)
    | (with_reducible intro _)
    | split)

theorem Dev.enterRun_inv (d : Dev) (h : d.Inv) :
    (Dev.enterRun d).Inv := by
  unfold Dev.enterRun
  dsimp only
  refine ((Dev.rescheduleTrigs_frame _).inv (by decide)).2 (Dev.inv_cyc_intake_sched.2 (Dev.inv_cycSame (Nat.zero_le
      _) ?_))
  exact Dev.resetHull_inv _ (((Dev.resetFusion_frame _).inv (by decide)).2 h)

theorem Dev.leaveRun_inv (d : Dev) (st : PowerState) (h : d.Inv) :
    (Dev.leaveRun d st).Inv := by
  unfold Dev.leaveRun
  dsimp only
  split
  · refine Dev.sendStatus_inv _ (((Dev.sendDecision_frame _).inv (by decide)).2 (((Dev.occur_frame _ _ _).inv (by
      decide)).2
      (((Dev.sendCommand_frame _).inv (by decide)).2 ?_)))
    exact ⟨h.1, h.2.1, Nat.zero_le _, Nat.le_refl 3, fun _ => ⟨rfl, rfl, rfl⟩⟩
  · refine ((Dev.sendCommand_frame _).inv (by decide)).2 ?_
    exact ⟨h.1, h.2.1, Nat.zero_le _, Nat.le_refl 3, fun _ => ⟨rfl, rfl, rfl⟩⟩

theorem Dev.loadPackage_inv (d : Dev) (p : Package) (h : d.Inv) :
    (Dev.loadPackage d p).Inv := by
  unfold Dev.loadPackage
  repeat' (first
    | (with_reducible assumption)
    | simp only [↓(Dev.emptyRings_frame _).inv (by decide), ↓(Dev.loadWindows_frame _ _).inv (by decide),
      ↓(Dev.reportPackage_frame _ _).inv (by decide), ↓(Dev.setObj_frame _ _ _ _).inv (by decide), ↓Dev.inv_prog,
      ↓Dev.inv_sched, ↓Dev.inv_sync, ↓Dev.inv_fus, ↓Dev.inv_sched_sync_fus, ↓Dev.inv_ite, ↓Dev.inv_ite1, h,
      implies_true, and_self]
    | (with_reducible refine Dev.storeA_inv _ _ _ _ ?_)
    | (with_reducible refine Dev.inv_foldl (fun e x he => ?_) _ ?_)
    | (with_reducible refine Dev.inv_foldlPair (fun e x he => ?_) _ ?_)
    | (with_reducible refine And.intro ?_ ?_)
    | (with_reducible intro _)
    | split)

theorem Dev.activateSlot_inv (d : Dev) (s : Nat) (h : d.Inv) :
    (Dev.activateSlot d s).1.Inv := by
  unfold Dev.activateSlot
  repeat' (first
    | (with_reducible assumption)
    | simp only [↓(Dev.raiseIf_frame _ _ _ _ _).inv (by decide), ↓(Dev.recomputeCrc_frame _).inv (by decide),
      ↓(Dev.refusePkg_frame _ _ _).inv (by decide), ↓(Dev.storeDefault_frame _ _ _).inv (by decide), ↓Dev.inv_prog,
      h, implies_true, and_self]
    | (with_reducible refine Dev.loadPackage_inv _ _ ?_)
    | (with_reducible refine Dev.inv_foldl (fun e x he => ?_) _ ?_)
    | (with_reducible refine Dev.inv_foldlPair (fun e x he => ?_) _ ?_)
    | (with_reducible refine And.intro ?_ ?_)
    | (with_reducible intro _)
    | split)

theorem writeActivate_inv (v : List Nat) (d : Dev) (h : d.Inv) :
    (writeActivate v d).1.Inv := by
  unfold writeActivate
  repeat' (first
    | (with_reducible assumption)
    | simp (disch := rfl) only [↓(Dev.modPower_frame _ _).inv (by decide), ↓(Dev.pkgRefused_frame _).inv (by decide),
      ↓Dev.inv_prog, ↓Dev.inv_cyc_prog, ↓Dev.inv_ite, ↓Dev.inv_ite1, ↓Dev.inv_flightSame, h, implies_true, and_self]
    | (with_reducible refine And.intro ?_ ?_)
    | (with_reducible intro _)
    | split)

theorem activate_inv (r : Req) (slot : Byte) (d : Dev) (h : d.Inv) :
    (activate r slot d).Inv := by
  unfold activate
  repeat' (first
    | (with_reducible assumption)
    | simp only [h, implies_true, and_self]
    | (with_reducible refine writeActivate_inv _ _ ?_)
    | (refine Dev.writeWith_inv (fun n e he => ?_) _ _ _ _ _ _ _ ?_)
    | (with_reducible refine And.intro ?_ ?_)
    | (with_reducible intro _)
    | split)

theorem execActivate_inv (r : Req) (slot : Byte) (s : State) (h : s.dev.Inv) :
    ∃ d, execActivate r slot s = .next { s with dev := d } ∧ d.Inv := ⟨_, rfl, activate_inv _ _ _ h⟩

theorem activationComplete_inv (d : Dev) (h : d.Inv) :
    (activationComplete d).Inv := by
  unfold activationComplete
  repeat' (first
    | (with_reducible assumption)
    | simp only [↓(Dev.markTrial_frame _ _ _).inv (by decide), ↓Dev.inv_prog, ↓Dev.inv_ite, ↓Dev.inv_ite1, h,
      implies_true, and_self]
    | (with_reducible refine Dev.activateSlot_inv _ _ ?_)
    | (with_reducible refine And.intro ?_ ?_)
    | (with_reducible intro _)
    | split)

theorem execActivationComplete_inv (s : State) (h : s.dev.Inv) :
    ∃ d, execActivationComplete s = .next { s with dev := d } ∧ d.Inv := ⟨_, rfl, activationComplete_inv _ h⟩

theorem Dev.bootPackage_inv (d : Dev) (h : d.Inv) :
    (Dev.bootPackage d).1.Inv := by
  unfold Dev.bootPackage
  repeat' (first
    | (with_reducible assumption)
    | simp only [↓(Dev.dropTrial_frame _).inv (by decide), ↓(Dev.raise_frame _ _ _ _).inv (by decide),
      ↓(Dev.runAs_frame _ _).inv (by decide), ↓Dev.inv_prog, ↓Dev.inv_ite, ↓Dev.inv_ite1, h, implies_true, and_self]
    | (with_reducible refine Dev.activateSlot_inv _ _ ?_)
    | (with_reducible refine And.intro ?_ ?_)
    | (with_reducible intro _)
    | split)

theorem vhuskRemoved_inv (d : Dev) (h : d.Inv) :
    (vhuskRemoved d).Inv := by
  unfold vhuskRemoved
  repeat' (first
    | (with_reducible assumption)
    | simp only [↓(Dev.modPower_frame _ _).inv (by decide), ↓Dev.inv_ite, ↓Dev.inv_ite1, h, implies_true, and_self]
    | (with_reducible refine Dev.powerDown_inv _ _ _ _ ?_)
    | (with_reducible refine And.intro ?_ ?_)
    | (with_reducible intro _)
    | split)

theorem execVhuskRemoved_inv (s : State) (h : s.dev.Inv) :
    ∃ d, execVhuskRemoved s = .next { s with dev := d } ∧ d.Inv := ⟨_, rfl, vhuskRemoved_inv _ h⟩

theorem pwrOkFalling_inv (d : Dev) (h : d.Inv) :
    (pwrOkFalling d).Inv := by
  unfold pwrOkFalling
  repeat' (first
    | (with_reducible assumption)
    | simp only [↓(Dev.modPower_frame _ _).inv (by decide), ↓Dev.inv_ite, ↓Dev.inv_ite1, h, implies_true, and_self]
    | (with_reducible refine Dev.toHusk_inv _ _ _ _ ?_)
    | (with_reducible refine And.intro ?_ ?_)
    | (with_reducible intro _)
    | split)

theorem execPwrOkFalling_inv (s : State) (h : s.dev.Inv) :
    ∃ d, execPwrOkFalling s = .next { s with dev := d } ∧ d.Inv := ⟨_, rfl, pwrOkFalling_inv _ h⟩

theorem resetNAssert_inv (d : Dev) (h : d.Inv) :
    (resetNAssert d).Inv := by
  unfold resetNAssert
  repeat' (first
    | (with_reducible assumption)
    | simp only [↓(Dev.modPower_frame _ _).inv (by decide), ↓Dev.inv_ite, ↓Dev.inv_ite1, h, implies_true, and_self]
    | (with_reducible refine Dev.resetDevice_inv _ _ _ _ ?_)
    | (with_reducible refine And.intro ?_ ?_)
    | (with_reducible intro _)
    | split)

theorem execResetNAssert_inv (s : State) (h : s.dev.Inv) :
    ∃ d, execResetNAssert s = .next { s with dev := d } ∧ d.Inv := ⟨_, rfl, resetNAssert_inv _ h⟩

theorem debugReset_inv (d : Dev) (h : d.Inv) :
    (debugReset d).Inv := by
  unfold debugReset
  repeat' (first
    | (with_reducible assumption)
    | simp only [↓Dev.inv_ite, ↓Dev.inv_ite1, h, implies_true, and_self]
    | (with_reducible refine Dev.resetDevice_inv _ _ _ _ ?_)
    | (with_reducible refine And.intro ?_ ?_)
    | (with_reducible intro _)
    | split)

theorem execDebugReset_inv (s : State) (h : s.dev.Inv) :
    ∃ d, execDebugReset s = .next { s with dev := d } ∧ d.Inv := ⟨_, rfl, debugReset_inv _ h⟩

theorem watchdogReset_inv (d : Dev) (h : d.Inv) :
    (watchdogReset d).Inv := by
  unfold watchdogReset
  repeat' (first
    | (with_reducible assumption)
    | simp only [↓(Dev.modPower_frame _ _).inv (by decide), ↓Dev.inv_ite, ↓Dev.inv_ite1, h, implies_true, and_self]
    | (with_reducible refine Dev.resetDevice_inv _ _ _ _ ?_)
    | (with_reducible refine And.intro ?_ ?_)
    | (with_reducible intro _)
    | split)

theorem execWatchdogReset_inv (s : State) (h : s.dev.Inv) :
    ∃ d, execWatchdogReset s = .next { s with dev := d } ∧ d.Inv := ⟨_, rfl, watchdogReset_inv _ h⟩

theorem step2_inv (r : StepResult) (d : Dev) (h : d.Inv) :
    (step2 r d).Inv := by
  unfold step2
  repeat' (first
    | (with_reducible assumption)
    | simp (disch := rfl) only [↓(Dev.modPower_frame _ _).inv (by decide), ↓(Dev.modStart_frame _ _).inv (by decide),
      ↓(Dev.reportRetained_frame _).inv (by decide), ↓(Dev.retain_frame _ _).inv (by decide),
      ↓(Dev.stepDone_frame _ _).inv (by decide), ↓(Dev.stopStart_frame _).inv (by decide), ↓Dev.inv_ite,
      ↓Dev.inv_ite1, ↓Dev.inv_hullSame, h, implies_true, and_self]
    | (with_reducible refine And.intro ?_ ?_)
    | (with_reducible intro _)
    | split)

theorem step5_inv (r : StepResult) (d : Dev) (h : d.Inv) :
    (step5 r d).Inv := by
  unfold step5
  repeat' (first
    | (with_reducible assumption)
    | simp only [↓(Dev.modPod_frame _ _ _).inv (by decide), ↓(Dev.modStart_frame _ _).inv (by decide),
      ↓(Dev.placePods_frame _ _).inv (by decide), ↓(Dev.raise_frame _ _ _ _).inv (by decide),
      ↓(Dev.stepDone_frame _ _).inv (by decide), ↓Dev.inv_ite, ↓Dev.inv_ite1, h, implies_true, and_self]
    | (with_reducible refine Dev.protect_inv _ _ _ _ ?_)
    | (with_reducible refine Dev.inv_foldl (fun e x he => ?_) _ ?_)
    | (with_reducible refine Dev.inv_foldlPair (fun e x he => ?_) _ ?_)
    | (with_reducible refine And.intro ?_ ?_)
    | (with_reducible intro _)
    | split)

theorem step8_inv (d : Dev) (h : d.Inv) :
    (step8 d).Inv := by
  unfold step8
  repeat' (first
    | (with_reducible assumption)
    | simp only [↓(Dev.reach_frame _ _).inv (by decide), ↓(Dev.repairRows_frame _).inv (by decide),
      ↓(Dev.stepDone_frame _ _).inv (by decide), ↓(Dev.stopStart_frame _).inv (by decide), ↓Dev.inv_ite,
      ↓Dev.inv_ite1, h, implies_true, and_self]
    | (with_reducible refine Dev.bootPackage_inv _ ?_)
    | (with_reducible refine And.intro ?_ ?_)
    | (with_reducible intro _)
    | split)

theorem step10_inv (d : Dev) (h : d.Inv) :
    (step10 d).Inv := by
  unfold step10
  repeat' (first
    | (with_reducible assumption)
    | simp only [↓(Dev.modPower_frame _ _).inv (by decide), ↓(Dev.stepDone_frame _ _).inv (by decide),
      ↓(Dev.stopStart_frame _).inv (by decide), ↓Dev.inv_ite, ↓Dev.inv_ite1, h, implies_true, and_self]
    | (with_reducible refine Dev.single_inv _ ?_)
    | (with_reducible refine And.intro ?_ ?_)
    | (with_reducible intro _)
    | split)

theorem step11_inv (d : Dev) (h : d.Inv) :
    (step11 d).Inv := by
  unfold step11
  repeat' (first
    | (with_reducible assumption)
    | simp only [↓(Dev.modPower_frame _ _).inv (by decide), ↓(Dev.raise_frame _ _ _ _).inv (by decide),
      ↓(Dev.stopStart_frame _).inv (by decide), ↓Dev.inv_ite, ↓Dev.inv_ite1, h, implies_true, and_self]
    | (with_reducible refine Dev.enterRun_inv _ ?_)
    | (with_reducible refine And.intro ?_ ?_)
    | (with_reducible intro _)
    | split)

theorem startupStepComplete_inv (r : StepResult) (d : Dev) (h : d.Inv) :
    (startupStepComplete r d).Inv := by
  unfold startupStepComplete
  repeat' (first
    | (with_reducible assumption)
    | simp only [↓(step1_frame _ _).inv (by decide), ↓(step3_frame _ _).inv (by decide),
      ↓(step4_frame _ _).inv (by decide), ↓(step6_frame _ _).inv (by decide), ↓(step7_frame _ _).inv (by decide),
      ↓(step9_frame _ _).inv (by decide), h, implies_true, and_self]
    | (with_reducible refine step10_inv _ ?_)
    | (with_reducible refine step11_inv _ ?_)
    | (with_reducible refine step2_inv _ _ ?_)
    | (with_reducible refine step5_inv _ _ ?_)
    | (with_reducible refine step8_inv _ ?_)
    | (with_reducible refine And.intro ?_ ?_)
    | (with_reducible intro _)
    | split)

theorem execStartupStepComplete_inv (res : StepResult) (s : State) (h : s.dev.Inv) :
    ∃ d, execStartupStepComplete res s = .next { s with dev := d } ∧ d.Inv := ⟨_, rfl, startupStepComplete_inv _ _ h⟩

theorem writeState_inv (v : List Nat) (d : Dev) (h : d.Inv) :
    (writeState v d).1.Inv := by
  unfold writeState
  repeat' (first
    | (with_reducible assumption)
    | simp (disch := rfl) only [↓(Dev.modPower_frame _ _).inv (by decide),
      ↓(Dev.raiseRefusal_frame _ _).inv (by decide), ↓Dev.inv_ite, ↓Dev.inv_ite1, ↓Dev.inv_flightSame, h,
      implies_true, and_self]
    | (with_reducible refine And.intro ?_ ?_)
    | (with_reducible intro _)
    | split)

theorem stateRequest_inv (r : Req) (code : Byte) (d : Dev) (h : d.Inv) :
    (stateRequest r code d).Inv := Dev.writeWith_inv writeState_inv _ _ _ _ _ _ _ h

theorem execStateRequestHusk_inv (r : Req) (s : State) (h : s.dev.Inv) :
    ∃ d, execStateRequestHusk r s = .next { s with dev := d } ∧ d.Inv := ⟨_, rfl, stateRequest_inv _ _ _ h⟩

theorem execStateRequestStandby_inv (r : Req) (s : State) (h : s.dev.Inv) :
    ∃ d, execStateRequestStandby r s = .next { s with dev := d } ∧ d.Inv := ⟨_, rfl, stateRequest_inv _ _ _ h⟩

theorem execStateRequestReady_inv (r : Req) (s : State) (h : s.dev.Inv) :
    ∃ d, execStateRequestReady r s = .next { s with dev := d } ∧ d.Inv := ⟨_, rfl, stateRequest_inv _ _ _ h⟩

theorem execStateRequestRun_inv (r : Req) (s : State) (h : s.dev.Inv) :
    ∃ d, execStateRequestRun r s = .next { s with dev := d } ∧ d.Inv := ⟨_, rfl, stateRequest_inv _ _ _ h⟩

theorem Dev.saveResident_inv (d : Dev) (h : d.Inv) :
    (Dev.saveResident d).Inv := by
  unfold Dev.saveResident
  repeat' (first
    | (with_reducible assumption)
    | simp only [h, implies_true, and_self]
    | (with_reducible refine Dev.store_inv _ _ _ ?_)
    | (with_reducible refine Dev.inv_foldl (fun e x he => ?_) _ ?_)
    | (with_reducible refine Dev.inv_foldlPair (fun e x he => ?_) _ ?_)
    | (with_reducible refine And.intro ?_ ?_)
    | (with_reducible intro _)
    | split)

theorem Dev.restoreResident_inv (d : Dev) (h : d.Inv) :
    (Dev.restoreResident d).Inv := by
  unfold Dev.restoreResident
  repeat' (first
    | (with_reducible assumption)
    | simp only [h, implies_true, and_self]
    | (with_reducible refine Dev.store_inv _ _ _ ?_)
    | (with_reducible refine Dev.inv_foldl (fun e x he => ?_) _ ?_)
    | (with_reducible refine Dev.inv_foldlPair (fun e x he => ?_) _ ?_)
    | (with_reducible refine And.intro ?_ ?_)
    | (with_reducible intro _)
    | split)

theorem Dev.coreOn_inv (d : Dev) (h : d.Inv) :
    (Dev.coreOn d).Inv := by
  unfold Dev.coreOn
  extract_lets good d1 r0 d2 d3 d4
  have h2 : d2.Inv := Dev.inv_mem_ddr.2 (Dev.inv_mem (((Dev.modPower_frame _ _).inv (by decide)).2 h)
    (Memory.clearRange_wf (Memory.clearRange_wf (show Memory.wf d1.mem = true from h.1) _ _) _ _))
  have h3 : d3.Inv := ((Dev.placePods_frame _ _).inv (by decide)).2 (Dev.restoreResident_inv _ h2)
  have h4 : d4.Inv := by
    unfold d4
    split
    · exact ((Dev.loadWindows_frame _ _).inv (by decide)).2 h3
    · exact h3
  clear_value d4
  exact Dev.inv_foldl (fun e x he => ((Dev.repairRow_frame _ _).inv (by decide)).2 he) _ h4

theorem Dev.coreOff_inv (d : Dev) (h : d.Inv) :
    (Dev.coreOff d).Inv := by
  unfold Dev.coreOff
  repeat' (first
    | (with_reducible assumption)
    | simp only [↓(Dev.journalReads_frame _).inv (by decide), ↓(Dev.modPower_frame _ _).inv (by decide),
      ↓(Dev.saveCalib_frame _).inv (by decide), ↓Dev.inv_pods, ↓Dev.inv_movers, ↓Dev.inv_ddr, ↓Dev.inv_solvers,
      ↓Dev.inv_pods_movers_ddr_solvers, ↓Dev.inv_ite, ↓Dev.inv_ite1, h, implies_true, and_self]
    | (with_reducible refine Dev.saveResident_inv _ ?_)
    | (with_reducible refine Dev.inv_foldl (fun e x he => ?_) _ ?_)
    | (with_reducible refine Dev.inv_foldlPair (fun e x he => ?_) _ ?_)
    | (with_reducible refine And.intro ?_ ?_)
    | (with_reducible intro _)
    | split)

theorem Dev.legRun_inv (d : Dev) (h : d.Inv) :
    (Dev.legRun d).Inv := by
  unfold Dev.legRun
  repeat' (first
    | (with_reducible assumption)
    | simp only [↓(Dev.modPower_frame _ _).inv (by decide), ↓(Dev.raiseRefusal_frame _ _).inv (by decide),
      ↓Dev.inv_ite, ↓Dev.inv_ite1, h, implies_true, and_self]
    | (with_reducible refine Dev.enterRun_inv _ ?_)
    | (with_reducible refine And.intro ?_ ?_)
    | (with_reducible intro _)
    | split)

theorem Dev.legOutOfRun_inv (d : Dev) (h : d.Inv) :
    (Dev.legOutOfRun d).Inv := by
  unfold Dev.legOutOfRun
  repeat' (first
    | (with_reducible assumption)
    | simp only [↓(Dev.arrived_frame _).inv (by decide), ↓(Dev.endTransfers_frame _).inv (by decide),
      ↓(Dev.modStart_frame _ _).inv (by decide), ↓(Dev.repairRows_frame _).inv (by decide), ↓Dev.inv_ite,
      ↓Dev.inv_ite1, h, implies_true, and_self]
    | (with_reducible refine Dev.leaveRun_inv _ _ ?_)
    | (with_reducible refine And.intro ?_ ?_)
    | (with_reducible intro _)
    | split)

theorem stateTransitionComplete_inv (d : Dev) (h : d.Inv) :
    (stateTransitionComplete d).Inv := by
  unfold stateTransitionComplete
  repeat' (first
    | (with_reducible assumption)
    | simp only [↓(Dev.arrived_frame _).inv (by decide), ↓(Dev.reach_frame _ _).inv (by decide), ↓Dev.inv_ite,
      ↓Dev.inv_ite1, h, implies_true, and_self]
    | (with_reducible refine Dev.coreOff_inv _ ?_)
    | (with_reducible refine Dev.coreOn_inv _ ?_)
    | (with_reducible refine Dev.legOutOfRun_inv _ ?_)
    | (with_reducible refine Dev.legRun_inv _ ?_)
    | (with_reducible refine Dev.toHusk_inv _ _ _ _ ?_)
    | (with_reducible refine And.intro ?_ ?_)
    | (with_reducible intro _)
    | split)

theorem execStateTransitionComplete_inv (s : State) (h : s.dev.Inv) :
    ∃ d, execStateTransitionComplete s = .next { s with dev := d } ∧ d.Inv := ⟨_, rfl, stateTransitionComplete_inv _ h⟩

theorem resetRequest_inv (r : Req) (part : Bool) (payload : List Byte) (d : Dev) (h : d.Inv) :
    (resetRequest r part payload d).Inv := by
  unfold resetRequest
  have k : Dev.Inv (d.writeWith r 0x2000 5 part payload (fun _ d => (d, .good []))) :=
    Dev.writeWith_inv (fun v e he => he) _ _ _ _ _ _ _ h
  dsimp only
  split
  · exact Dev.resetDevice_inv _ _ _ _ (((Dev.endTransfers_frame _).inv (by decide)).2 k)
  · exact k

theorem execResetRequest_inv (r : Req) (value : Byte) (s : State) (h : s.dev.Inv) :
    ∃ d, execResetRequest r value s = .next { s with dev := d } ∧ d.Inv := ⟨_, rfl, resetRequest_inv _ _ _ _ h⟩

theorem Dev.lockStep_inv (d : Dev) (x : Dom) (h : d.Inv) :
    (Dev.lockStep d x).Inv := by
  unfold Dev.lockStep
  extract_lets delta oa ob t0 c0 d1 d2 d3
  have h1 : d1.Inv := Dev.inv_time_cyc.2 (Dev.inv_cycSame (by simp) h)
  have h2 : d2.Inv := Dev.inv_foldl (fun e n he => ((Dev.modSlot_frame _ _ _).inv (by decide)).2 he) _ h1
  have h3 : d3.Inv := ((Dev.setTimeState_frame _).inv (by decide)).2 h2
  clear_value d3
  split
  · exact ((Dev.modStart_frame _ _).inv (by decide)).2 h3
  · exact h3

theorem Dev.beginRun_inv (d : Dev) (h : d.Inv) :
    (Dev.beginRun d).Inv := by
  unfold Dev.beginRun
  repeat' (first
    | (with_reducible assumption)
    | simp (disch := rfl) only [↓(Dev.modPower_frame _ _).inv (by decide), ↓(Dev.reach_frame _ _).inv (by decide),
      ↓Dev.inv_ite, ↓Dev.inv_ite1, ↓Dev.inv_hullSame, h, implies_true, and_self]
    | (with_reducible refine And.intro ?_ ?_)
    | (with_reducible intro _)
    | split)

theorem Dev.openCycleAt_inv (d : Dev) (tv nx : Int) (h : d.Inv) (hl : d.cyc.flight.length < 2) :
    (Dev.openCycleAt d tv nx).Inv := by
  unfold Dev.openCycleAt
  refine ⟨h.1, h.2.1, ?_, h.2.2.2⟩
  dsimp only
  rw [List.length_append]
  exact hl

theorem Dev.lockStep_flight (d : Dev) (x : Dom) : (Dev.lockStep d x).cyc.flight.length = d.cyc.flight.length := by
  have fold : ∀ (g : Dev → Nat → Dev), (∀ e q, (g e q).cyc = e.cyc) → ∀ (l : List Nat) (e : Dev), (l.foldl g e).cyc = e.cyc := by
    intro g hg l
    induction l with
    | nil => exact fun e => rfl
    | cons q l ih => exact fun e => (ih _).trans (hg e q)
  unfold Dev.lockStep
  extract_lets delta oa ob t0 c0 d1 d2 d3
  have h1 : d1.cyc.flight.length = d.cyc.flight.length := by simp [d1, c0]
  have h2 : d2.cyc = d1.cyc := fold _ (fun e n => (Dev.modSlot_frame _ _ _) .cyc (by decide)) _ _
  have h3 : d3.cyc = d2.cyc := (Dev.setTimeState_frame d2) .cyc (by decide)
  clear_value d3
  split
  · have h4 : (d3.modStart (fun s => { s with last := 0xFF })).cyc = d3.cyc := (Dev.modStart_frame _ _) .cyc (by decide)
    rw [h4, h3, h2, h1]
  · rw [h3, h2, h1]

theorem Dev.nextInstant_inv (d : Dev) (n : Int) (h : d.Inv) (hl : d.cyc.flight.length < 2) :
    (Dev.nextInstant d n).Inv := by
  unfold Dev.nextInstant
  split
  · rename_i x _
    dsimp only
    refine ((Dev.rescheduleTrigs_frame _).inv (by decide)).2 ((Dev.inv_flightSame rfl).2
      (Dev.openCycleAt_inv _ _ _ (Dev.lockStep_inv _ x h) ?_))
    rw [Dev.lockStep_flight]
    exact hl
  · exact Dev.openCycleAt_inv _ _ _ h hl

theorem cycleInstant_inv (d : Dev) (h : d.Inv) :
    (cycleInstant d).Inv := by
  unfold cycleInstant
  split
  · exact h
  · split
    · rename_i hc
      dsimp only
      refine Dev.inv_foldl (fun e x he => ((Dev.armPass_frame _ _).inv (by decide)).2 he) _ ?_
      refine ((Dev.takeReplacement_frame _).inv (by decide)).2 (((Dev.countSilence_frame _).inv (by decide)).2 ?_)
      refine Dev.pairFrom_inv _ _ (Dev.nextInstant_inv _ _ (Dev.beginRun_inv _ h) ?_)
      have k : (Dev.beginRun d).cyc = d.cyc := (Dev.beginRun_frame d) .cyc (by decide)
      rw [k]
      exact hc.2.1
    · exact h

theorem execCycleInstant_inv (s : State) (h : s.dev.Inv) :
    ∃ d, execCycleInstant s = .next { s with dev := d } ∧ d.Inv := ⟨_, rfl, cycleInstant_inv _ h⟩

theorem acceptanceWindowClose_inv (d : Dev) (h : d.Inv) :
    (acceptanceWindowClose d).Inv := by
  unfold acceptanceWindowClose
  split
  · exact h
  · rename_i c rest heq
    refine Dev.inv_ite.2 ⟨fun _ => ?_, fun _ => h⟩
    · dsimp only
      refine Dev.checkIntake_inv _ (Dev.remark_inv _ _ (Dev.planAttention_inv _ _ _ (((Dev.startCandidate_frame
      _).inv (by decide)).2 ?_)))
      exact Dev.inv_cycSame (by rw [heq]; simp) h

theorem execAcceptanceWindowClose_inv (s : State) (h : s.dev.Inv) :
    ∃ d, execAcceptanceWindowClose s = .next { s with dev := d } ∧ d.Inv := ⟨_, rfl, acceptanceWindowClose_inv _ h⟩

theorem Dev.countRelease_inv (d : Dev) (h : d.Inv) :
    (Dev.countRelease d).Inv := by
  unfold Dev.countRelease
  repeat' (first
    | (with_reducible assumption)
    | simp (disch := rfl) only [↓Dev.inv_ite, ↓Dev.inv_ite1, ↓Dev.inv_hullSame, h, implies_true, and_self]
    | (with_reducible refine And.intro ?_ ?_)
    | (with_reducible intro _)
    | split)

theorem Dev.latchCommit_inv (d : Dev) (c : CycleCtx) (zones : BitVec 64) (tiers : Store Nat) (h : d.Inv) :
    (Dev.latchCommit d c zones tiers).Inv := by
  unfold Dev.latchCommit
  dsimp only
  refine ((Dev.count_frame _ _ _).inv (by decide)).2 (Dev.countRelease_inv _ ?_)
  refine ⟨h.1, h.2.1, ?_, h.2.2.2⟩
  dsimp only
  rw [List.length_drop]
  exact Nat.le_trans (Nat.sub_le _ _) h.2.2.1

theorem Dev.settleTier_inv (d : Dev) (h : d.Inv) :
    (Dev.settleTier d).Inv := by
  unfold Dev.settleTier
  repeat' (first
    | (with_reducible assumption)
    | simp only [↓(Dev.sendCommand_frame _).inv (by decide), ↓Dev.inv_ite, ↓Dev.inv_ite1, h, implies_true, and_self]
    | (with_reducible refine Dev.lower_inv _ ?_)
    | (with_reducible refine Dev.restoreOutputs_inv _ ?_)
    | (with_reducible refine Dev.retier_inv _ _ _ ?_)
    | (with_reducible refine And.intro ?_ ?_)
    | (with_reducible intro _)
    | split)

theorem Dev.announce_inv (d : Dev) (statusSeq txSeq : BitVec 16) (h : d.Inv) :
    (Dev.announce d statusSeq txSeq).Inv := by
  unfold Dev.announce
  repeat' (first
    | (with_reducible assumption)
    | simp only [↓(Dev.sendDecision_frame _).inv (by decide), ↓Dev.inv_ite, ↓Dev.inv_ite1, h, implies_true, and_self]
    | (with_reducible refine Dev.sendStatus_inv _ ?_)
    | (with_reducible refine And.intro ?_ ?_)
    | (with_reducible intro _)
    | split)

theorem commitCycle_inv (c : CycleCtx) (zones : BitVec 64) (tiers : Store Nat) (vals : Store PairEntry) (d : Dev) (h
      : d.Inv) :
    (commitCycle c zones tiers vals d).Inv := by
  unfold commitCycle
  repeat' (first
    | (with_reducible assumption)
    | simp only [↓(Dev.commitAttention_frame _ _).inv (by decide), ↓(Dev.commitGrid_frame _).inv (by decide),
      ↓(Dev.cycleRecords_frame _ _ _).inv (by decide), ↓(Dev.endStep11_frame _).inv (by decide),
      ↓(Dev.firstCommitDone_frame _).inv (by decide), ↓(Dev.resolveParents_frame _ _).inv (by decide),
      ↓(Dev.sendValues_frame _ _ _).inv (by decide), ↓(Dev.trialCommitted_frame _).inv (by decide), ↓Dev.inv_ite,
      ↓Dev.inv_ite1, h, implies_true, and_self]
    | (with_reducible refine Dev.announce_inv _ _ _ ?_)
    | (with_reducible refine Dev.keepDecision_inv _ _ ?_)
    | (with_reducible refine Dev.latchCommit_inv _ _ _ _ ?_)
    | (with_reducible refine Dev.settleTier_inv _ ?_)
    | (with_reducible refine And.intro ?_ ?_)
    | (with_reducible intro _)
    | split)

theorem Dev.countDiscard_inv (d : Dev) (c : CycleCtx) (h : d.Inv) :
    (Dev.countDiscard d c).Inv := by
  unfold Dev.countDiscard
  extract_lets d1 c0 h0 d2
  have h1 : d1.Inv := ((Dev.count_frame _ _ _).inv (by decide)).2 (((Dev.effect_frame _ _ _).inv (by decide)).2
    (((Dev.raise_frame _ _ _ _).inv (by decide)).2 h))
  have h2 : d2.Inv := by
    refine ⟨h1.1, h1.2.1, ?_, h1.2.2.2⟩
    unfold d2
    dsimp only
    rw [List.length_drop]
    exact Nat.le_trans (Nat.sub_le _ _) h1.2.2.1
  clear_value d2
  split
  · exact Dev.demand_inv _ _ _ _ (((Dev.raise_frame _ _ _ _).inv (by decide)).2 h2)
  · exact h2

theorem discardCycle_inv (c : CycleCtx) (d : Dev) (h : d.Inv) :
    (discardCycle c d).Inv := by
  unfold discardCycle
  repeat' (first
    | (with_reducible assumption)
    | simp only [↓(Dev.blameDiscard_frame _).inv (by decide), ↓(Dev.comparePointers_frame _).inv (by decide),
      ↓(Dev.cycleRecords_frame _ _ _).inv (by decide), ↓(Dev.discardAttention_frame _).inv (by decide), h,
      implies_true, and_self]
    | (with_reducible refine Dev.announce_inv _ _ _ ?_)
    | (with_reducible refine Dev.countDiscard_inv _ _ ?_)
    | (with_reducible refine Dev.keepDecision_inv _ _ ?_)
    | (with_reducible refine And.intro ?_ ?_)
    | (with_reducible intro _)
    | split)

theorem commitDeadline_inv (d : Dev) (h : d.Inv) :
    (commitDeadline d).Inv := by
  unfold commitDeadline
  repeat' (first
    | (with_reducible assumption)
    | simp only [↓Dev.inv_ite, ↓Dev.inv_ite1, h, implies_true, and_self]
    | (with_reducible refine commitCycle_inv _ _ _ _ _ ?_)
    | (with_reducible refine discardCycle_inv _ _ ?_)
    | (with_reducible refine And.intro ?_ ?_)
    | (with_reducible intro _)
    | split)

theorem execCommitDeadline_inv (s : State) (h : s.dev.Inv) :
    ∃ d, execCommitDeadline s = .next { s with dev := d } ∧ d.Inv := ⟨_, rfl, commitDeadline_inv _ h⟩

theorem Dev.patrolCorrected_inv (d : Dev) (k : Nat) (writePending : Bool) (h : d.Inv) :
    (Dev.patrolCorrected d k writePending).Inv := by
  unfold Dev.patrolCorrected
  repeat' (first
    | (with_reducible assumption)
    | simp (disch := rfl) only [↓Dev.inv_ddr, ↓Dev.inv_mem_ddr, ↓Dev.inv_ite, ↓Dev.inv_ite1, ↓Dev.inv_bytesSame, h,
      implies_true, and_self]
    | (with_reducible refine And.intro ?_ ?_)
    | (with_reducible intro _)
    | split)

theorem Dev.patrolBad_inv (d : Dev) (k : Nat) (h : d.Inv) :
    (Dev.patrolBad d k).Inv := by
  unfold Dev.patrolBad
  repeat' (first
    | (with_reducible assumption)
    | simp (disch := rfl) only [↓(Dev.badRow_frame _ _).inv (by decide), ↓(Dev.raise_frame _ _ _ _).inv (by decide),
      ↓(Dev.retirePage_frame _ _ _).inv (by decide), ↓(Dev.sweepRuns_frame _).inv (by decide), ↓Dev.inv_ite,
      ↓Dev.inv_ite1, ↓Dev.inv_bytesSame, h, implies_true, and_self]
    | (with_reducible refine Dev.inv_foldl (fun e x he => ?_) _ ?_)
    | (with_reducible refine Dev.inv_foldlPair (fun e x he => ?_) _ ?_)
    | (with_reducible refine And.intro ?_ ?_)
    | (with_reducible intro _)
    | split)

theorem patrolRead_inv (addr : Nat) (r : BurstResult) (writePending : Bool) (d : Dev) (h : d.Inv) :
    (patrolRead addr r writePending d).Inv := by
  unfold patrolRead
  repeat' (first
    | (with_reducible assumption)
    | simp only [↓(Dev.patrolNext_frame _ _).inv (by decide), ↓Dev.inv_ite, ↓Dev.inv_ite1, h, implies_true, and_self]
    | (with_reducible refine Dev.patrolBad_inv _ _ ?_)
    | (with_reducible refine Dev.patrolCorrected_inv _ _ _ ?_)
    | (with_reducible refine And.intro ?_ ?_)
    | (with_reducible intro _)
    | split)

theorem execPatrolRead_inv (addr : Nat) (r : BurstResult) (writePending : Bool) (s : State) (h : s.dev.Inv) :
    ∃ d, execPatrolRead addr r writePending s = .next { s with dev := d } ∧ d.Inv := ⟨_, rfl, patrolRead_inv _ _ _ _ h⟩

theorem ownWrite_inv (idx sub : Nat) (v : List Nat) (d : Dev) (h : d.Inv) :
    (ownWrite idx sub v d).1.Inv := by
  unfold ownWrite
  repeat' (first
    | (with_reducible assumption)
    | simp only [↓(writeConfirm_frame _ _).inv (by decide), ↓(writeGeometry_frame _ _ _).inv (by decide),
      ↓(writeLoadSlot_frame _ _).inv (by decide), ↓(writeNonce_frame _ _).inv (by decide),
      ↓(writePlain_frame _ _ _ _).inv (by decide), ↓(writeReference_frame _ _ _ _).inv (by decide),
      ↓(writeRestore_frame _ _).inv (by decide), ↓(writeSecVersion_frame _ _).inv (by decide),
      ↓(writeSupply_frame _ _ _).inv (by decide), ↓(writeUnmask_frame _ _).inv (by decide), ↓Dev.inv_ite,
      ↓Dev.inv_ite1, h, implies_true, and_self]
    | (with_reducible refine writeActivate_inv _ _ ?_)
    | (with_reducible refine writeState_inv _ _ ?_)
    | (with_reducible refine And.intro ?_ ?_)
    | (with_reducible intro _)
    | split)

theorem writeRequest_inv (r : Req) (idx sub : Nat) (part : Bool) (payload : List Byte) (d : Dev) (h : d.Inv) :
    (writeRequest r idx sub part payload d).Inv := by
  unfold writeRequest
  split
  · exact resetRequest_inv _ _ _ _ h
  · exact Dev.writeWith_inv (ownWrite_inv _ _) _ _ _ _ _ _ _ h

theorem execWrite_inv (r : Req) (idx : BitVec 16) (sub : Byte) (part : Bool) (payload : List Byte) (s : State) (h :
      s.dev.Inv) :
    ∃ d, execWrite r idx sub part payload s = .next { s with dev := d } ∧ d.Inv := ⟨_, rfl, writeRequest_inv _ _ _ _ _ _ h⟩

theorem evClear_inv (r : Req) (idx sub : Nat) (sameClock : Bool) (d : Dev) (h : d.Inv) :
    (evClear r idx sub sameClock d).Inv := Dev.writeWith_inv (ownWrite_inv _ _) _ _ _ _ _ _ _ h

theorem execEvClear_inv (r : Req) (idx : BitVec 16) (sub : Byte) (sameClock : Bool) (s : State) (h : s.dev.Inv) :
    ∃ d, execEvClear r idx sub sameClock s = .next { s with dev := d } ∧ d.Inv := ⟨_, rfl, evClear_inv _ _ _ _ _ h⟩

theorem configurationLock_inv (r : Req) (value : Byte) (d : Dev) (h : d.Inv) :
    (configurationLock r value d).Inv := Dev.writeWith_inv (ownWrite_inv _ _) _ _ _ _ _ _ _ h

theorem execConfigurationLock_inv (r : Req) (value : Byte) (s : State) (h : s.dev.Inv) :
    ∃ d, execConfigurationLock r value s = .next { s with dev := d } ∧ d.Inv := ⟨_, rfl, configurationLock_inv _ _ _ h⟩

theorem Dev.useCommand_inv (d : Dev) (pdu : List Byte) (h : d.Inv) :
    (Dev.useCommand d pdu).Inv := by
  unfold Dev.useCommand
  repeat' (first
    | (with_reducible assumption)
    | simp (disch := rfl) only [↓Dev.inv_ite, ↓Dev.inv_ite1, ↓Dev.inv_hullSame, h, implies_true, and_self]
    | (with_reducible refine Dev.acceptReset_inv _ ?_)
    | (with_reducible refine Dev.demand_inv _ _ _ _ ?_)
    | (with_reducible refine And.intro ?_ ?_)
    | (with_reducible intro _)
    | split)

theorem safetyCommand_inv (port : ReqPort) (f : HostFrame) (addr : BitVec 128) (pdu : List Byte) (d : Dev) (h :
      d.Inv) :
    (safetyCommand port f addr pdu d).Inv := by
  unfold safetyCommand
  repeat' (first
    | (with_reducible assumption)
    | simp only [↓(Dev.raise_frame _ _ _ _).inv (by decide), ↓Dev.inv_ite, ↓Dev.inv_ite1, h, implies_true, and_self]
    | (with_reducible refine Dev.useCommand_inv _ _ ?_)
    | (refine Dev.datagram_inv (fun e he => ?_) _ _ _ _ ?_)
    | (with_reducible refine And.intro ?_ ?_)
    | (with_reducible intro _)
    | split)

theorem execSafetyCommand_inv (port : ReqPort) (frame : HostFrame) (addr : BitVec 128) (pdu : List Byte) (s : State)
      (h : s.dev.Inv) :
    ∃ d, execSafetyCommand port frame addr pdu s = .next { s with dev := d } ∧ d.Inv := ⟨_, rfl, safetyCommand_inv _ _ _ _ _ h⟩

theorem Dev.serviceFrame_inv (d : Dev) (frame : List Byte) (pkg : Option PkgContent) (h : d.Inv) :
    (Dev.serviceFrame d frame pkg).Inv := by
  unfold Dev.serviceFrame
  dsimp only
  split
  · exact ((readRequest_frame _ _ _ _ _ _).inv (by decide)).2 h
  · exact writeRequest_inv _ _ _ _ _ _ h
  · exact ((blockStart_frame _ _ _ _ _).inv (by decide)).2 h
  · exact ((blockData_frame _ _ _ _ _ _ _).inv (by decide)).2 h
  · exact ((subscribe_frame _ _ _ _ _).inv (by decide)).2 h
  · exact ((unsubscribe_frame _ _ _ _).inv (by decide)).2 h
  · exact Dev.serve_inv (fun n e he => he) _ _ _ _ _ _ _ _ h

theorem writeFrame_inv (bytes : List Byte) (pkg : Option PkgContent) (known : Bool) (d : Dev) (h : d.Inv) :
    (writeFrame bytes pkg known d).Inv := by
  unfold writeFrame
  repeat' (first
    | (with_reducible assumption)
    | simp only [↓(Dev.raise_frame _ _ _ _).inv (by decide), ↓Dev.inv_ite, ↓Dev.inv_ite1, h, implies_true, and_self]
    | (with_reducible refine Dev.serviceFrame_inv _ _ _ ?_)
    | (with_reducible refine safetyCommand_inv _ _ _ _ _ ?_)
    | (with_reducible refine And.intro ?_ ?_)
    | (with_reducible intro _)
    | split)

theorem execWriteFrame_inv (bytes : List Byte) (pkg : Option PkgContent) (known : Bool) (s : State) (h : s.dev.Inv) :
    ∃ d, execWriteFrame bytes pkg known s = .next { s with dev := d } ∧ d.Inv := ⟨_, rfl, writeFrame_inv _ _ _ _ h⟩

end Sys2Proof.Machine
end

