-- ==== Sys2Proof/Laws/Report.lean ====
section
/-! SUPPORT. What a raised cause leaves: the newest fault-log entry, which later operations of the same command keep. -/

namespace Sys2Proof.Machine

theorem Dev.occurAll_log (l : List (Nat × Nat)) (d : Dev) : (d.occurAll l).log = d.log :=
  (Dev.occurAll_frame d l) .log (by decide)

theorem Dev.logFault_newest (d : Dev) (cause inst detail : Nat) :
    (d.logFault cause inst detail).newest = some (cause, inst, d.cyc.number.toNat) := by
  unfold Dev.logFault Dev.newest
  dsimp only
  split
  · split
    · rename_i h
      simp [h.1, h.2.1, h.2.2]
    · rw [show ∀ e : Dev, (e.occur 0xB000 3).log = e.log from fun e => rfl, show ∀ (e : Dev) k p, (e.record k p).log = e.log from fun e k p => rfl]
      rfl
  · rw [show ∀ e : Dev, (e.occur 0xB000 3).log = e.log from fun e => rfl, show ∀ (e : Dev) k p, (e.record k p).log = e.log from fun e k p => rfl]
    rfl

/-- Two devices with the same log and cycle agree about reports. -/
theorem Dev.reports_congr {a b : Dev} (h1 : b.log = a.log) (h2 : b.cyc = a.cyc) (c i : Nat) : b.Reports c i ↔ a.Reports c i := by
  unfold Dev.Reports Dev.newest
  rw [h1, h2]

/-- An operation that leaves the fault log and the cycle alone keeps a report. -/
theorem Dev.Frame.reports {l : List Part} {a b : Dev} (h : Dev.Frame l a b) (s : (!l.contains .log && !l.contains .cyc) = true)
    (c i : Nat) : b.Reports c i ↔ a.Reports c i := by
  simp only [Bool.and_eq_true, Bool.not_eq_true', List.contains_eq_mem, decide_eq_false_iff_not] at s
  exact Dev.reports_congr (h .log s.1) (h .cyc s.2) c i

/-- A raised cause is the newest entry. -/
theorem Dev.raise_reports {d : Dev} (h : d.up = true) (cause inst detail : Nat) : (d.raise cause inst detail).Reports cause inst := by
  have k := Dev.logFault_newest d cause inst detail
  have f : (d.logFault cause inst detail).cyc = d.cyc := (Dev.logFault_frame d cause inst detail) .cyc (by decide)
  unfold Dev.raise
  rw [if_pos h]
  refine ((Dev.occurAll_frame _ _).reports (by decide) _ _).2 ?_
  unfold Dev.Reports
  rw [k, f]

/-- Settling an effect keeps the newest entry's cause, instance and cycle. -/
theorem Dev.effect_newest (d : Dev) (cause eff : Nat) : (d.effect cause eff).newest = d.newest := by
  unfold Dev.effect Dev.newest
  dsimp only
  cases d.log.entries with
  | nil => rfl
  | cons e t =>
    unfold Dev.effect.go
    split <;> rfl

theorem Dev.effect_reports (d : Dev) (cause eff c i : Nat) : (d.effect cause eff).Reports c i ↔ d.Reports c i := by
  unfold Dev.Reports
  rw [Dev.effect_newest]
  exact Iff.rfl

theorem Dev.recEvent_reports (d : Dev) (cause c i : Nat) : (d.recEvent cause).Reports c i ↔ d.Reports c i :=
  (Dev.recEvent_frame d cause).reports (by decide) c i

theorem Dev.showTier_reports (d : Dev) (c i : Nat) : d.showTier.Reports c i ↔ d.Reports c i :=
  (Dev.showTier_frame d).reports (by decide) c i

theorem Dev.enterStop_reports (d : Dev) (cause : Nat) (cat0 : Bool) (c i : Nat) :
    (d.enterStop cause cat0).Reports c i ↔ d.Reports c i := by
  have fold : ∀ (g : Dev → Nat → Dev), (∀ e q, (g e q).log = e.log ∧ (g e q).cyc = e.cyc) →
      ∀ (l : List Nat) (e : Dev), (l.foldl g e).log = e.log ∧ (l.foldl g e).cyc = e.cyc := by
    intro g hg l
    induction l with
    | nil => exact fun e => ⟨rfl, rfl⟩
    | cons q l ih => exact fun e => ⟨(ih _).1.trans (hg e q).1, (ih _).2.trans (hg e q).2⟩
  have tail : ∀ e : Dev, (if (e.effect cause 3).inRun ||
      (e.effect cause 3).log.entries.any (fun x => x.cause == cause && x.effect == 3) then (e.effect cause 3).recEvent cause
      else e.effect cause 3).Reports c i ↔ e.Reports c i := by
    intro e
    split
    · exact (Dev.recEvent_reports _ _ _ _).trans (Dev.effect_reports _ _ _ _ _)
    · exact Dev.effect_reports _ _ _ _ _
  unfold Dev.enterStop
  dsimp only
  refine (tail _).trans ?_
  have k := fold (fun d q =>
    if d.cfg 0x7200 (q + 1) = 1 ∧ d.hull.offDone.contains q = false then
      (if cat0 = true ∨ d.cfg 0x7200 (q + 5) = 0 then
        { d with hull := { d.hull with offDone := sins q d.hull.offDone, offDelay := kset none d.hull.offDelay q none } }
      else if d.offRunning q then d
      else { d with hull := { d.hull with offDelay := kset none d.hull.offDelay q (some (d.tick + msTicks (d.cfg 0x7200 (q + 5)))) } })
    else d) (fun e q => by
      dsimp only
      split
      · split
        · exact ⟨rfl, rfl⟩
        · split <;> exact ⟨rfl, rfl⟩
      · exact ⟨rfl, rfl⟩) (List.range 4) ({ d with hull := { d.hull with latch := true, stopCause := cause } }.occur 0x7000 0x10)
  exact Dev.reports_congr k.1 k.2 c i

theorem Dev.retier_reports (d : Dev) (cause : Nat) (cat0 : Bool) (c i : Nat) : (d.retier cause cat0).Reports c i ↔ d.Reports c i := by
  unfold Dev.retier
  dsimp only
  split
  · refine (Dev.showTier_reports _ _ _).trans ?_
    split
    · exact (Dev.enterStop_reports _ _ _ _ _).trans (Dev.reports_congr rfl rfl c i)
    · exact Dev.reports_congr rfl rfl c i
  · split
    · exact ((Dev.sendCommand_frame _).reports (by decide) c i).trans (Dev.reports_congr rfl rfl c i)
    · exact Iff.rfl

theorem Dev.demand_reports (d : Dev) (src tier cause c i : Nat) : (d.demand src tier cause).Reports c i ↔ d.Reports c i :=
  (Dev.retier_reports _ _ _ _ _).trans (Dev.reports_congr rfl rfl c i)

theorem Dev.protect_reports (d : Dev) (src tier cause c i : Nat) : (d.protect src tier cause).Reports c i ↔ d.Reports c i := by
  unfold Dev.protect
  exact (Dev.demand_reports _ _ _ _ _ _).trans ((Dev.recEvent_reports _ _ _ _).trans ((Dev.effect_reports _ _ _ _ _).trans
    ((Dev.occur_frame _ _ _).reports (by decide) c i)))

end Sys2Proof.Machine
end

