-- ==== Sys2Proof/Laws/State.lean ====
section
/-! SUPPORT. Each field of the device after each named update, and what the entries of its stores read after one. -/

namespace Sys2Proof.Machine

open Sys2Proof

@[simp] theorem Dev.setObj_code (d : Dev) (idx sub : Nat) (v : List Nat) : (d.setObj idx sub v).code = d.code := rfl
@[simp] theorem Dev.setObj_time (d : Dev) (idx sub : Nat) (v : List Nat) : (d.setObj idx sub v).time = d.time := rfl
@[simp] theorem Dev.setObj_log (d : Dev) (idx sub : Nat) (v : List Nat) : (d.setObj idx sub v).log = d.log := rfl
@[simp] theorem Dev.setObj_cyc (d : Dev) (idx sub : Nat) (v : List Nat) : (d.setObj idx sub v).cyc = d.cyc := rfl
@[simp] theorem Dev.setObj_intake (d : Dev) (idx sub : Nat) (v : List Nat) : (d.setObj idx sub v).intake = d.intake := rfl
@[simp] theorem Dev.setObj_pods (d : Dev) (idx sub : Nat) (v : List Nat) : (d.setObj idx sub v).pods = d.pods := rfl
@[simp] theorem Dev.setObj_movers (d : Dev) (idx sub : Nat) (v : List Nat) : (d.setObj idx sub v).movers = d.movers := rfl
@[simp] theorem Dev.setObj_mem (d : Dev) (idx sub : Nat) (v : List Nat) : (d.setObj idx sub v).mem = d.mem := rfl
@[simp] theorem Dev.setObj_ddr (d : Dev) (idx sub : Nat) (v : List Nat) : (d.setObj idx sub v).ddr = d.ddr := rfl
@[simp] theorem Dev.setObj_prog (d : Dev) (idx sub : Nat) (v : List Nat) : (d.setObj idx sub v).prog = d.prog := rfl
@[simp] theorem Dev.setObj_sched (d : Dev) (idx sub : Nat) (v : List Nat) : (d.setObj idx sub v).sched = d.sched := rfl
@[simp] theorem Dev.setObj_sync (d : Dev) (idx sub : Nat) (v : List Nat) : (d.setObj idx sub v).sync = d.sync := rfl
@[simp] theorem Dev.setObj_cover (d : Dev) (idx sub : Nat) (v : List Nat) : (d.setObj idx sub v).cover = d.cover := rfl
@[simp] theorem Dev.setObj_fus (d : Dev) (idx sub : Nat) (v : List Nat) : (d.setObj idx sub v).fus = d.fus := rfl
@[simp] theorem Dev.setObj_kv (d : Dev) (idx sub : Nat) (v : List Nat) : (d.setObj idx sub v).kv = d.kv := rfl
@[simp] theorem Dev.setObj_solvers (d : Dev) (idx sub : Nat) (v : List Nat) : (d.setObj idx sub v).solvers = d.solvers := rfl
@[simp] theorem Dev.setObj_hull (d : Dev) (idx sub : Nat) (v : List Nat) : (d.setObj idx sub v).hull = d.hull := rfl
@[simp] theorem Dev.setObj_twin (d : Dev) (idx sub : Nat) (v : List Nat) : (d.setObj idx sub v).twin = d.twin := rfl
@[simp] theorem Dev.setObj_palca (d : Dev) (idx sub : Nat) (v : List Nat) : (d.setObj idx sub v).palca = d.palca := rfl
@[simp] theorem Dev.setObj_power (d : Dev) (idx sub : Nat) (v : List Nat) : (d.setObj idx sub v).power = d.power := rfl
@[simp] theorem Dev.setObj_start (d : Dev) (idx sub : Nat) (v : List Nat) : (d.setObj idx sub v).start = d.start := rfl
@[simp] theorem Dev.setObj_recd (d : Dev) (idx sub : Nat) (v : List Nat) : (d.setObj idx sub v).recd = d.recd := rfl
@[simp] theorem Dev.setObj_sec (d : Dev) (idx sub : Nat) (v : List Nat) : (d.setObj idx sub v).sec = d.sec := rfl
@[simp] theorem Dev.setObj_edge (d : Dev) (idx sub : Nat) (v : List Nat) : (d.setObj idx sub v).edge = d.edge := rfl
@[simp] theorem Dev.setObj_out (d : Dev) (idx sub : Nat) (v : List Nat) : (d.setObj idx sub v).out = d.out := rfl
@[simp] theorem Dev.setObj_free (d : Dev) (idx sub : Nat) (v : List Nat) : (d.setObj idx sub v).free = d.free := rfl
@[simp] theorem Dev.occurN_code (d : Dev) (idx sub n : Nat) : (d.occurN idx sub n).code = d.code := rfl
@[simp] theorem Dev.occurN_time (d : Dev) (idx sub n : Nat) : (d.occurN idx sub n).time = d.time := rfl
@[simp] theorem Dev.occurN_log (d : Dev) (idx sub n : Nat) : (d.occurN idx sub n).log = d.log := rfl
@[simp] theorem Dev.occurN_cyc (d : Dev) (idx sub n : Nat) : (d.occurN idx sub n).cyc = d.cyc := rfl
@[simp] theorem Dev.occurN_intake (d : Dev) (idx sub n : Nat) : (d.occurN idx sub n).intake = d.intake := rfl
@[simp] theorem Dev.occurN_pods (d : Dev) (idx sub n : Nat) : (d.occurN idx sub n).pods = d.pods := rfl
@[simp] theorem Dev.occurN_movers (d : Dev) (idx sub n : Nat) : (d.occurN idx sub n).movers = d.movers := rfl
@[simp] theorem Dev.occurN_mem (d : Dev) (idx sub n : Nat) : (d.occurN idx sub n).mem = d.mem := rfl
@[simp] theorem Dev.occurN_ddr (d : Dev) (idx sub n : Nat) : (d.occurN idx sub n).ddr = d.ddr := rfl
@[simp] theorem Dev.occurN_prog (d : Dev) (idx sub n : Nat) : (d.occurN idx sub n).prog = d.prog := rfl
@[simp] theorem Dev.occurN_sched (d : Dev) (idx sub n : Nat) : (d.occurN idx sub n).sched = d.sched := rfl
@[simp] theorem Dev.occurN_sync (d : Dev) (idx sub n : Nat) : (d.occurN idx sub n).sync = d.sync := rfl
@[simp] theorem Dev.occurN_cover (d : Dev) (idx sub n : Nat) : (d.occurN idx sub n).cover = d.cover := rfl
@[simp] theorem Dev.occurN_fus (d : Dev) (idx sub n : Nat) : (d.occurN idx sub n).fus = d.fus := rfl
@[simp] theorem Dev.occurN_kv (d : Dev) (idx sub n : Nat) : (d.occurN idx sub n).kv = d.kv := rfl
@[simp] theorem Dev.occurN_solvers (d : Dev) (idx sub n : Nat) : (d.occurN idx sub n).solvers = d.solvers := rfl
@[simp] theorem Dev.occurN_hull (d : Dev) (idx sub n : Nat) : (d.occurN idx sub n).hull = d.hull := rfl
@[simp] theorem Dev.occurN_twin (d : Dev) (idx sub n : Nat) : (d.occurN idx sub n).twin = d.twin := rfl
@[simp] theorem Dev.occurN_palca (d : Dev) (idx sub n : Nat) : (d.occurN idx sub n).palca = d.palca := rfl
@[simp] theorem Dev.occurN_power (d : Dev) (idx sub n : Nat) : (d.occurN idx sub n).power = d.power := rfl
@[simp] theorem Dev.occurN_start (d : Dev) (idx sub n : Nat) : (d.occurN idx sub n).start = d.start := rfl
@[simp] theorem Dev.occurN_recd (d : Dev) (idx sub n : Nat) : (d.occurN idx sub n).recd = d.recd := rfl
@[simp] theorem Dev.occurN_sec (d : Dev) (idx sub n : Nat) : (d.occurN idx sub n).sec = d.sec := rfl
@[simp] theorem Dev.occurN_edge (d : Dev) (idx sub n : Nat) : (d.occurN idx sub n).edge = d.edge := rfl
@[simp] theorem Dev.occurN_out (d : Dev) (idx sub n : Nat) : (d.occurN idx sub n).out = d.out := rfl
@[simp] theorem Dev.occurN_free (d : Dev) (idx sub n : Nat) : (d.occurN idx sub n).free = d.free := rfl
@[simp] theorem Dev.occur_code (d : Dev) (idx sub : Nat) : (d.occur idx sub).code = d.code := rfl
@[simp] theorem Dev.occur_time (d : Dev) (idx sub : Nat) : (d.occur idx sub).time = d.time := rfl
@[simp] theorem Dev.occur_log (d : Dev) (idx sub : Nat) : (d.occur idx sub).log = d.log := rfl
@[simp] theorem Dev.occur_cyc (d : Dev) (idx sub : Nat) : (d.occur idx sub).cyc = d.cyc := rfl
@[simp] theorem Dev.occur_intake (d : Dev) (idx sub : Nat) : (d.occur idx sub).intake = d.intake := rfl
@[simp] theorem Dev.occur_pods (d : Dev) (idx sub : Nat) : (d.occur idx sub).pods = d.pods := rfl
@[simp] theorem Dev.occur_movers (d : Dev) (idx sub : Nat) : (d.occur idx sub).movers = d.movers := rfl
@[simp] theorem Dev.occur_mem (d : Dev) (idx sub : Nat) : (d.occur idx sub).mem = d.mem := rfl
@[simp] theorem Dev.occur_ddr (d : Dev) (idx sub : Nat) : (d.occur idx sub).ddr = d.ddr := rfl
@[simp] theorem Dev.occur_prog (d : Dev) (idx sub : Nat) : (d.occur idx sub).prog = d.prog := rfl
@[simp] theorem Dev.occur_sched (d : Dev) (idx sub : Nat) : (d.occur idx sub).sched = d.sched := rfl
@[simp] theorem Dev.occur_sync (d : Dev) (idx sub : Nat) : (d.occur idx sub).sync = d.sync := rfl
@[simp] theorem Dev.occur_cover (d : Dev) (idx sub : Nat) : (d.occur idx sub).cover = d.cover := rfl
@[simp] theorem Dev.occur_fus (d : Dev) (idx sub : Nat) : (d.occur idx sub).fus = d.fus := rfl
@[simp] theorem Dev.occur_kv (d : Dev) (idx sub : Nat) : (d.occur idx sub).kv = d.kv := rfl
@[simp] theorem Dev.occur_solvers (d : Dev) (idx sub : Nat) : (d.occur idx sub).solvers = d.solvers := rfl
@[simp] theorem Dev.occur_hull (d : Dev) (idx sub : Nat) : (d.occur idx sub).hull = d.hull := rfl
@[simp] theorem Dev.occur_twin (d : Dev) (idx sub : Nat) : (d.occur idx sub).twin = d.twin := rfl
@[simp] theorem Dev.occur_palca (d : Dev) (idx sub : Nat) : (d.occur idx sub).palca = d.palca := rfl
@[simp] theorem Dev.occur_power (d : Dev) (idx sub : Nat) : (d.occur idx sub).power = d.power := rfl
@[simp] theorem Dev.occur_start (d : Dev) (idx sub : Nat) : (d.occur idx sub).start = d.start := rfl
@[simp] theorem Dev.occur_recd (d : Dev) (idx sub : Nat) : (d.occur idx sub).recd = d.recd := rfl
@[simp] theorem Dev.occur_sec (d : Dev) (idx sub : Nat) : (d.occur idx sub).sec = d.sec := rfl
@[simp] theorem Dev.occur_edge (d : Dev) (idx sub : Nat) : (d.occur idx sub).edge = d.edge := rfl
@[simp] theorem Dev.occur_out (d : Dev) (idx sub : Nat) : (d.occur idx sub).out = d.out := rfl
@[simp] theorem Dev.occur_free (d : Dev) (idx sub : Nat) : (d.occur idx sub).free = d.free := rfl
@[simp] theorem Dev.clearEv_code (d : Dev) (idx sub : Nat) : (d.clearEv idx sub).code = d.code := rfl
@[simp] theorem Dev.clearEv_time (d : Dev) (idx sub : Nat) : (d.clearEv idx sub).time = d.time := rfl
@[simp] theorem Dev.clearEv_log (d : Dev) (idx sub : Nat) : (d.clearEv idx sub).log = d.log := rfl
@[simp] theorem Dev.clearEv_cyc (d : Dev) (idx sub : Nat) : (d.clearEv idx sub).cyc = d.cyc := rfl
@[simp] theorem Dev.clearEv_intake (d : Dev) (idx sub : Nat) : (d.clearEv idx sub).intake = d.intake := rfl
@[simp] theorem Dev.clearEv_pods (d : Dev) (idx sub : Nat) : (d.clearEv idx sub).pods = d.pods := rfl
@[simp] theorem Dev.clearEv_movers (d : Dev) (idx sub : Nat) : (d.clearEv idx sub).movers = d.movers := rfl
@[simp] theorem Dev.clearEv_mem (d : Dev) (idx sub : Nat) : (d.clearEv idx sub).mem = d.mem := rfl
@[simp] theorem Dev.clearEv_ddr (d : Dev) (idx sub : Nat) : (d.clearEv idx sub).ddr = d.ddr := rfl
@[simp] theorem Dev.clearEv_prog (d : Dev) (idx sub : Nat) : (d.clearEv idx sub).prog = d.prog := rfl
@[simp] theorem Dev.clearEv_sched (d : Dev) (idx sub : Nat) : (d.clearEv idx sub).sched = d.sched := rfl
@[simp] theorem Dev.clearEv_sync (d : Dev) (idx sub : Nat) : (d.clearEv idx sub).sync = d.sync := rfl
@[simp] theorem Dev.clearEv_cover (d : Dev) (idx sub : Nat) : (d.clearEv idx sub).cover = d.cover := rfl
@[simp] theorem Dev.clearEv_fus (d : Dev) (idx sub : Nat) : (d.clearEv idx sub).fus = d.fus := rfl
@[simp] theorem Dev.clearEv_kv (d : Dev) (idx sub : Nat) : (d.clearEv idx sub).kv = d.kv := rfl
@[simp] theorem Dev.clearEv_solvers (d : Dev) (idx sub : Nat) : (d.clearEv idx sub).solvers = d.solvers := rfl
@[simp] theorem Dev.clearEv_hull (d : Dev) (idx sub : Nat) : (d.clearEv idx sub).hull = d.hull := rfl
@[simp] theorem Dev.clearEv_twin (d : Dev) (idx sub : Nat) : (d.clearEv idx sub).twin = d.twin := rfl
@[simp] theorem Dev.clearEv_palca (d : Dev) (idx sub : Nat) : (d.clearEv idx sub).palca = d.palca := rfl
@[simp] theorem Dev.clearEv_power (d : Dev) (idx sub : Nat) : (d.clearEv idx sub).power = d.power := rfl
@[simp] theorem Dev.clearEv_start (d : Dev) (idx sub : Nat) : (d.clearEv idx sub).start = d.start := rfl
@[simp] theorem Dev.clearEv_recd (d : Dev) (idx sub : Nat) : (d.clearEv idx sub).recd = d.recd := rfl
@[simp] theorem Dev.clearEv_sec (d : Dev) (idx sub : Nat) : (d.clearEv idx sub).sec = d.sec := rfl
@[simp] theorem Dev.clearEv_edge (d : Dev) (idx sub : Nat) : (d.clearEv idx sub).edge = d.edge := rfl
@[simp] theorem Dev.clearEv_out (d : Dev) (idx sub : Nat) : (d.clearEv idx sub).out = d.out := rfl
@[simp] theorem Dev.clearEv_free (d : Dev) (idx sub : Nat) : (d.clearEv idx sub).free = d.free := rfl
@[simp] theorem Dev.countN_code (d : Dev) (idx sub n : Nat) : (d.countN idx sub n).code = d.code := rfl
@[simp] theorem Dev.countN_time (d : Dev) (idx sub n : Nat) : (d.countN idx sub n).time = d.time := rfl
@[simp] theorem Dev.countN_log (d : Dev) (idx sub n : Nat) : (d.countN idx sub n).log = d.log := rfl
@[simp] theorem Dev.countN_cyc (d : Dev) (idx sub n : Nat) : (d.countN idx sub n).cyc = d.cyc := rfl
@[simp] theorem Dev.countN_intake (d : Dev) (idx sub n : Nat) : (d.countN idx sub n).intake = d.intake := rfl
@[simp] theorem Dev.countN_pods (d : Dev) (idx sub n : Nat) : (d.countN idx sub n).pods = d.pods := rfl
@[simp] theorem Dev.countN_movers (d : Dev) (idx sub n : Nat) : (d.countN idx sub n).movers = d.movers := rfl
@[simp] theorem Dev.countN_mem (d : Dev) (idx sub n : Nat) : (d.countN idx sub n).mem = d.mem := rfl
@[simp] theorem Dev.countN_ddr (d : Dev) (idx sub n : Nat) : (d.countN idx sub n).ddr = d.ddr := rfl
@[simp] theorem Dev.countN_prog (d : Dev) (idx sub n : Nat) : (d.countN idx sub n).prog = d.prog := rfl
@[simp] theorem Dev.countN_sched (d : Dev) (idx sub n : Nat) : (d.countN idx sub n).sched = d.sched := rfl
@[simp] theorem Dev.countN_sync (d : Dev) (idx sub n : Nat) : (d.countN idx sub n).sync = d.sync := rfl
@[simp] theorem Dev.countN_cover (d : Dev) (idx sub n : Nat) : (d.countN idx sub n).cover = d.cover := rfl
@[simp] theorem Dev.countN_fus (d : Dev) (idx sub n : Nat) : (d.countN idx sub n).fus = d.fus := rfl
@[simp] theorem Dev.countN_kv (d : Dev) (idx sub n : Nat) : (d.countN idx sub n).kv = d.kv := rfl
@[simp] theorem Dev.countN_solvers (d : Dev) (idx sub n : Nat) : (d.countN idx sub n).solvers = d.solvers := rfl
@[simp] theorem Dev.countN_hull (d : Dev) (idx sub n : Nat) : (d.countN idx sub n).hull = d.hull := rfl
@[simp] theorem Dev.countN_twin (d : Dev) (idx sub n : Nat) : (d.countN idx sub n).twin = d.twin := rfl
@[simp] theorem Dev.countN_palca (d : Dev) (idx sub n : Nat) : (d.countN idx sub n).palca = d.palca := rfl
@[simp] theorem Dev.countN_power (d : Dev) (idx sub n : Nat) : (d.countN idx sub n).power = d.power := rfl
@[simp] theorem Dev.countN_start (d : Dev) (idx sub n : Nat) : (d.countN idx sub n).start = d.start := rfl
@[simp] theorem Dev.countN_recd (d : Dev) (idx sub n : Nat) : (d.countN idx sub n).recd = d.recd := rfl
@[simp] theorem Dev.countN_sec (d : Dev) (idx sub n : Nat) : (d.countN idx sub n).sec = d.sec := rfl
@[simp] theorem Dev.countN_edge (d : Dev) (idx sub n : Nat) : (d.countN idx sub n).edge = d.edge := rfl
@[simp] theorem Dev.countN_out (d : Dev) (idx sub n : Nat) : (d.countN idx sub n).out = d.out := rfl
@[simp] theorem Dev.countN_free (d : Dev) (idx sub n : Nat) : (d.countN idx sub n).free = d.free := rfl
@[simp] theorem Dev.count_code (d : Dev) (idx sub : Nat) : (d.count idx sub).code = d.code := rfl
@[simp] theorem Dev.count_time (d : Dev) (idx sub : Nat) : (d.count idx sub).time = d.time := rfl
@[simp] theorem Dev.count_log (d : Dev) (idx sub : Nat) : (d.count idx sub).log = d.log := rfl
@[simp] theorem Dev.count_cyc (d : Dev) (idx sub : Nat) : (d.count idx sub).cyc = d.cyc := rfl
@[simp] theorem Dev.count_intake (d : Dev) (idx sub : Nat) : (d.count idx sub).intake = d.intake := rfl
@[simp] theorem Dev.count_pods (d : Dev) (idx sub : Nat) : (d.count idx sub).pods = d.pods := rfl
@[simp] theorem Dev.count_movers (d : Dev) (idx sub : Nat) : (d.count idx sub).movers = d.movers := rfl
@[simp] theorem Dev.count_mem (d : Dev) (idx sub : Nat) : (d.count idx sub).mem = d.mem := rfl
@[simp] theorem Dev.count_ddr (d : Dev) (idx sub : Nat) : (d.count idx sub).ddr = d.ddr := rfl
@[simp] theorem Dev.count_prog (d : Dev) (idx sub : Nat) : (d.count idx sub).prog = d.prog := rfl
@[simp] theorem Dev.count_sched (d : Dev) (idx sub : Nat) : (d.count idx sub).sched = d.sched := rfl
@[simp] theorem Dev.count_sync (d : Dev) (idx sub : Nat) : (d.count idx sub).sync = d.sync := rfl
@[simp] theorem Dev.count_cover (d : Dev) (idx sub : Nat) : (d.count idx sub).cover = d.cover := rfl
@[simp] theorem Dev.count_fus (d : Dev) (idx sub : Nat) : (d.count idx sub).fus = d.fus := rfl
@[simp] theorem Dev.count_kv (d : Dev) (idx sub : Nat) : (d.count idx sub).kv = d.kv := rfl
@[simp] theorem Dev.count_solvers (d : Dev) (idx sub : Nat) : (d.count idx sub).solvers = d.solvers := rfl
@[simp] theorem Dev.count_hull (d : Dev) (idx sub : Nat) : (d.count idx sub).hull = d.hull := rfl
@[simp] theorem Dev.count_twin (d : Dev) (idx sub : Nat) : (d.count idx sub).twin = d.twin := rfl
@[simp] theorem Dev.count_palca (d : Dev) (idx sub : Nat) : (d.count idx sub).palca = d.palca := rfl
@[simp] theorem Dev.count_power (d : Dev) (idx sub : Nat) : (d.count idx sub).power = d.power := rfl
@[simp] theorem Dev.count_start (d : Dev) (idx sub : Nat) : (d.count idx sub).start = d.start := rfl
@[simp] theorem Dev.count_recd (d : Dev) (idx sub : Nat) : (d.count idx sub).recd = d.recd := rfl
@[simp] theorem Dev.count_sec (d : Dev) (idx sub : Nat) : (d.count idx sub).sec = d.sec := rfl
@[simp] theorem Dev.count_edge (d : Dev) (idx sub : Nat) : (d.count idx sub).edge = d.edge := rfl
@[simp] theorem Dev.count_out (d : Dev) (idx sub : Nat) : (d.count idx sub).out = d.out := rfl
@[simp] theorem Dev.count_free (d : Dev) (idx sub : Nat) : (d.count idx sub).free = d.free := rfl
@[simp] theorem Dev.emit_code (d : Dev) (k : OutKind) (unit : Nat) (data : List Nat) : (d.emit k unit data).code = d.code := rfl
@[simp] theorem Dev.emit_time (d : Dev) (k : OutKind) (unit : Nat) (data : List Nat) : (d.emit k unit data).time = d.time := rfl
@[simp] theorem Dev.emit_log (d : Dev) (k : OutKind) (unit : Nat) (data : List Nat) : (d.emit k unit data).log = d.log := rfl
@[simp] theorem Dev.emit_dict (d : Dev) (k : OutKind) (unit : Nat) (data : List Nat) : (d.emit k unit data).dict = d.dict := rfl
@[simp] theorem Dev.emit_cyc (d : Dev) (k : OutKind) (unit : Nat) (data : List Nat) : (d.emit k unit data).cyc = d.cyc := rfl
@[simp] theorem Dev.emit_intake (d : Dev) (k : OutKind) (unit : Nat) (data : List Nat) : (d.emit k unit data).intake = d.intake := rfl
@[simp] theorem Dev.emit_pods (d : Dev) (k : OutKind) (unit : Nat) (data : List Nat) : (d.emit k unit data).pods = d.pods := rfl
@[simp] theorem Dev.emit_movers (d : Dev) (k : OutKind) (unit : Nat) (data : List Nat) : (d.emit k unit data).movers = d.movers := rfl
@[simp] theorem Dev.emit_mem (d : Dev) (k : OutKind) (unit : Nat) (data : List Nat) : (d.emit k unit data).mem = d.mem := rfl
@[simp] theorem Dev.emit_ddr (d : Dev) (k : OutKind) (unit : Nat) (data : List Nat) : (d.emit k unit data).ddr = d.ddr := rfl
@[simp] theorem Dev.emit_prog (d : Dev) (k : OutKind) (unit : Nat) (data : List Nat) : (d.emit k unit data).prog = d.prog := rfl
@[simp] theorem Dev.emit_sched (d : Dev) (k : OutKind) (unit : Nat) (data : List Nat) : (d.emit k unit data).sched = d.sched := rfl
@[simp] theorem Dev.emit_sync (d : Dev) (k : OutKind) (unit : Nat) (data : List Nat) : (d.emit k unit data).sync = d.sync := rfl
@[simp] theorem Dev.emit_cover (d : Dev) (k : OutKind) (unit : Nat) (data : List Nat) : (d.emit k unit data).cover = d.cover := rfl
@[simp] theorem Dev.emit_fus (d : Dev) (k : OutKind) (unit : Nat) (data : List Nat) : (d.emit k unit data).fus = d.fus := rfl
@[simp] theorem Dev.emit_kv (d : Dev) (k : OutKind) (unit : Nat) (data : List Nat) : (d.emit k unit data).kv = d.kv := rfl
@[simp] theorem Dev.emit_solvers (d : Dev) (k : OutKind) (unit : Nat) (data : List Nat) : (d.emit k unit data).solvers = d.solvers := rfl
@[simp] theorem Dev.emit_hull (d : Dev) (k : OutKind) (unit : Nat) (data : List Nat) : (d.emit k unit data).hull = d.hull := rfl
@[simp] theorem Dev.emit_twin (d : Dev) (k : OutKind) (unit : Nat) (data : List Nat) : (d.emit k unit data).twin = d.twin := rfl
@[simp] theorem Dev.emit_palca (d : Dev) (k : OutKind) (unit : Nat) (data : List Nat) : (d.emit k unit data).palca = d.palca := rfl
@[simp] theorem Dev.emit_power (d : Dev) (k : OutKind) (unit : Nat) (data : List Nat) : (d.emit k unit data).power = d.power := rfl
@[simp] theorem Dev.emit_start (d : Dev) (k : OutKind) (unit : Nat) (data : List Nat) : (d.emit k unit data).start = d.start := rfl
@[simp] theorem Dev.emit_recd (d : Dev) (k : OutKind) (unit : Nat) (data : List Nat) : (d.emit k unit data).recd = d.recd := rfl
@[simp] theorem Dev.emit_sec (d : Dev) (k : OutKind) (unit : Nat) (data : List Nat) : (d.emit k unit data).sec = d.sec := rfl
@[simp] theorem Dev.emit_edge (d : Dev) (k : OutKind) (unit : Nat) (data : List Nat) : (d.emit k unit data).edge = d.edge := rfl
@[simp] theorem Dev.emit_free (d : Dev) (k : OutKind) (unit : Nat) (data : List Nat) : (d.emit k unit data).free = d.free := rfl
@[simp] theorem Dev.bumpFree_code (d : Dev) : (d.bumpFree).code = d.code := rfl
@[simp] theorem Dev.bumpFree_time (d : Dev) : (d.bumpFree).time = d.time := rfl
@[simp] theorem Dev.bumpFree_log (d : Dev) : (d.bumpFree).log = d.log := rfl
@[simp] theorem Dev.bumpFree_dict (d : Dev) : (d.bumpFree).dict = d.dict := rfl
@[simp] theorem Dev.bumpFree_cyc (d : Dev) : (d.bumpFree).cyc = d.cyc := rfl
@[simp] theorem Dev.bumpFree_intake (d : Dev) : (d.bumpFree).intake = d.intake := rfl
@[simp] theorem Dev.bumpFree_pods (d : Dev) : (d.bumpFree).pods = d.pods := rfl
@[simp] theorem Dev.bumpFree_movers (d : Dev) : (d.bumpFree).movers = d.movers := rfl
@[simp] theorem Dev.bumpFree_mem (d : Dev) : (d.bumpFree).mem = d.mem := rfl
@[simp] theorem Dev.bumpFree_ddr (d : Dev) : (d.bumpFree).ddr = d.ddr := rfl
@[simp] theorem Dev.bumpFree_prog (d : Dev) : (d.bumpFree).prog = d.prog := rfl
@[simp] theorem Dev.bumpFree_sched (d : Dev) : (d.bumpFree).sched = d.sched := rfl
@[simp] theorem Dev.bumpFree_sync (d : Dev) : (d.bumpFree).sync = d.sync := rfl
@[simp] theorem Dev.bumpFree_cover (d : Dev) : (d.bumpFree).cover = d.cover := rfl
@[simp] theorem Dev.bumpFree_fus (d : Dev) : (d.bumpFree).fus = d.fus := rfl
@[simp] theorem Dev.bumpFree_kv (d : Dev) : (d.bumpFree).kv = d.kv := rfl
@[simp] theorem Dev.bumpFree_solvers (d : Dev) : (d.bumpFree).solvers = d.solvers := rfl
@[simp] theorem Dev.bumpFree_hull (d : Dev) : (d.bumpFree).hull = d.hull := rfl
@[simp] theorem Dev.bumpFree_twin (d : Dev) : (d.bumpFree).twin = d.twin := rfl
@[simp] theorem Dev.bumpFree_palca (d : Dev) : (d.bumpFree).palca = d.palca := rfl
@[simp] theorem Dev.bumpFree_power (d : Dev) : (d.bumpFree).power = d.power := rfl
@[simp] theorem Dev.bumpFree_start (d : Dev) : (d.bumpFree).start = d.start := rfl
@[simp] theorem Dev.bumpFree_recd (d : Dev) : (d.bumpFree).recd = d.recd := rfl
@[simp] theorem Dev.bumpFree_sec (d : Dev) : (d.bumpFree).sec = d.sec := rfl
@[simp] theorem Dev.bumpFree_edge (d : Dev) : (d.bumpFree).edge = d.edge := rfl
@[simp] theorem Dev.bumpFree_out (d : Dev) : (d.bumpFree).out = d.out := rfl
@[simp] theorem Dev.modSlot_code (d : Dev) (n : Nat) (f : Slot → Slot) : (d.modSlot n f).code = d.code := rfl
@[simp] theorem Dev.modSlot_time (d : Dev) (n : Nat) (f : Slot → Slot) : (d.modSlot n f).time = d.time := rfl
@[simp] theorem Dev.modSlot_log (d : Dev) (n : Nat) (f : Slot → Slot) : (d.modSlot n f).log = d.log := rfl
@[simp] theorem Dev.modSlot_dict (d : Dev) (n : Nat) (f : Slot → Slot) : (d.modSlot n f).dict = d.dict := rfl
@[simp] theorem Dev.modSlot_cyc (d : Dev) (n : Nat) (f : Slot → Slot) : (d.modSlot n f).cyc = d.cyc := rfl
@[simp] theorem Dev.modSlot_pods (d : Dev) (n : Nat) (f : Slot → Slot) : (d.modSlot n f).pods = d.pods := rfl
@[simp] theorem Dev.modSlot_movers (d : Dev) (n : Nat) (f : Slot → Slot) : (d.modSlot n f).movers = d.movers := rfl
@[simp] theorem Dev.modSlot_mem (d : Dev) (n : Nat) (f : Slot → Slot) : (d.modSlot n f).mem = d.mem := rfl
@[simp] theorem Dev.modSlot_ddr (d : Dev) (n : Nat) (f : Slot → Slot) : (d.modSlot n f).ddr = d.ddr := rfl
@[simp] theorem Dev.modSlot_prog (d : Dev) (n : Nat) (f : Slot → Slot) : (d.modSlot n f).prog = d.prog := rfl
@[simp] theorem Dev.modSlot_sched (d : Dev) (n : Nat) (f : Slot → Slot) : (d.modSlot n f).sched = d.sched := rfl
@[simp] theorem Dev.modSlot_sync (d : Dev) (n : Nat) (f : Slot → Slot) : (d.modSlot n f).sync = d.sync := rfl
@[simp] theorem Dev.modSlot_cover (d : Dev) (n : Nat) (f : Slot → Slot) : (d.modSlot n f).cover = d.cover := rfl
@[simp] theorem Dev.modSlot_fus (d : Dev) (n : Nat) (f : Slot → Slot) : (d.modSlot n f).fus = d.fus := rfl
@[simp] theorem Dev.modSlot_kv (d : Dev) (n : Nat) (f : Slot → Slot) : (d.modSlot n f).kv = d.kv := rfl
@[simp] theorem Dev.modSlot_solvers (d : Dev) (n : Nat) (f : Slot → Slot) : (d.modSlot n f).solvers = d.solvers := rfl
@[simp] theorem Dev.modSlot_hull (d : Dev) (n : Nat) (f : Slot → Slot) : (d.modSlot n f).hull = d.hull := rfl
@[simp] theorem Dev.modSlot_twin (d : Dev) (n : Nat) (f : Slot → Slot) : (d.modSlot n f).twin = d.twin := rfl
@[simp] theorem Dev.modSlot_palca (d : Dev) (n : Nat) (f : Slot → Slot) : (d.modSlot n f).palca = d.palca := rfl
@[simp] theorem Dev.modSlot_power (d : Dev) (n : Nat) (f : Slot → Slot) : (d.modSlot n f).power = d.power := rfl
@[simp] theorem Dev.modSlot_start (d : Dev) (n : Nat) (f : Slot → Slot) : (d.modSlot n f).start = d.start := rfl
@[simp] theorem Dev.modSlot_recd (d : Dev) (n : Nat) (f : Slot → Slot) : (d.modSlot n f).recd = d.recd := rfl
@[simp] theorem Dev.modSlot_sec (d : Dev) (n : Nat) (f : Slot → Slot) : (d.modSlot n f).sec = d.sec := rfl
@[simp] theorem Dev.modSlot_edge (d : Dev) (n : Nat) (f : Slot → Slot) : (d.modSlot n f).edge = d.edge := rfl
@[simp] theorem Dev.modSlot_out (d : Dev) (n : Nat) (f : Slot → Slot) : (d.modSlot n f).out = d.out := rfl
@[simp] theorem Dev.modSlot_free (d : Dev) (n : Nat) (f : Slot → Slot) : (d.modSlot n f).free = d.free := rfl
@[simp] theorem Dev.modKin_code (d : Dev) (c : Nat) (f : Kin → Kin) : (d.modKin c f).code = d.code := rfl
@[simp] theorem Dev.modKin_time (d : Dev) (c : Nat) (f : Kin → Kin) : (d.modKin c f).time = d.time := rfl
@[simp] theorem Dev.modKin_log (d : Dev) (c : Nat) (f : Kin → Kin) : (d.modKin c f).log = d.log := rfl
@[simp] theorem Dev.modKin_dict (d : Dev) (c : Nat) (f : Kin → Kin) : (d.modKin c f).dict = d.dict := rfl
@[simp] theorem Dev.modKin_cyc (d : Dev) (c : Nat) (f : Kin → Kin) : (d.modKin c f).cyc = d.cyc := rfl
@[simp] theorem Dev.modKin_pods (d : Dev) (c : Nat) (f : Kin → Kin) : (d.modKin c f).pods = d.pods := rfl
@[simp] theorem Dev.modKin_movers (d : Dev) (c : Nat) (f : Kin → Kin) : (d.modKin c f).movers = d.movers := rfl
@[simp] theorem Dev.modKin_mem (d : Dev) (c : Nat) (f : Kin → Kin) : (d.modKin c f).mem = d.mem := rfl
@[simp] theorem Dev.modKin_ddr (d : Dev) (c : Nat) (f : Kin → Kin) : (d.modKin c f).ddr = d.ddr := rfl
@[simp] theorem Dev.modKin_prog (d : Dev) (c : Nat) (f : Kin → Kin) : (d.modKin c f).prog = d.prog := rfl
@[simp] theorem Dev.modKin_sched (d : Dev) (c : Nat) (f : Kin → Kin) : (d.modKin c f).sched = d.sched := rfl
@[simp] theorem Dev.modKin_sync (d : Dev) (c : Nat) (f : Kin → Kin) : (d.modKin c f).sync = d.sync := rfl
@[simp] theorem Dev.modKin_cover (d : Dev) (c : Nat) (f : Kin → Kin) : (d.modKin c f).cover = d.cover := rfl
@[simp] theorem Dev.modKin_fus (d : Dev) (c : Nat) (f : Kin → Kin) : (d.modKin c f).fus = d.fus := rfl
@[simp] theorem Dev.modKin_kv (d : Dev) (c : Nat) (f : Kin → Kin) : (d.modKin c f).kv = d.kv := rfl
@[simp] theorem Dev.modKin_solvers (d : Dev) (c : Nat) (f : Kin → Kin) : (d.modKin c f).solvers = d.solvers := rfl
@[simp] theorem Dev.modKin_hull (d : Dev) (c : Nat) (f : Kin → Kin) : (d.modKin c f).hull = d.hull := rfl
@[simp] theorem Dev.modKin_twin (d : Dev) (c : Nat) (f : Kin → Kin) : (d.modKin c f).twin = d.twin := rfl
@[simp] theorem Dev.modKin_palca (d : Dev) (c : Nat) (f : Kin → Kin) : (d.modKin c f).palca = d.palca := rfl
@[simp] theorem Dev.modKin_power (d : Dev) (c : Nat) (f : Kin → Kin) : (d.modKin c f).power = d.power := rfl
@[simp] theorem Dev.modKin_start (d : Dev) (c : Nat) (f : Kin → Kin) : (d.modKin c f).start = d.start := rfl
@[simp] theorem Dev.modKin_recd (d : Dev) (c : Nat) (f : Kin → Kin) : (d.modKin c f).recd = d.recd := rfl
@[simp] theorem Dev.modKin_sec (d : Dev) (c : Nat) (f : Kin → Kin) : (d.modKin c f).sec = d.sec := rfl
@[simp] theorem Dev.modKin_edge (d : Dev) (c : Nat) (f : Kin → Kin) : (d.modKin c f).edge = d.edge := rfl
@[simp] theorem Dev.modKin_out (d : Dev) (c : Nat) (f : Kin → Kin) : (d.modKin c f).out = d.out := rfl
@[simp] theorem Dev.modKin_free (d : Dev) (c : Nat) (f : Kin → Kin) : (d.modKin c f).free = d.free := rfl
@[simp] theorem Dev.modPod_code (d : Dev) (p : Nat) (f : Pod → Pod) : (d.modPod p f).code = d.code := rfl
@[simp] theorem Dev.modPod_time (d : Dev) (p : Nat) (f : Pod → Pod) : (d.modPod p f).time = d.time := rfl
@[simp] theorem Dev.modPod_log (d : Dev) (p : Nat) (f : Pod → Pod) : (d.modPod p f).log = d.log := rfl
@[simp] theorem Dev.modPod_dict (d : Dev) (p : Nat) (f : Pod → Pod) : (d.modPod p f).dict = d.dict := rfl
@[simp] theorem Dev.modPod_cyc (d : Dev) (p : Nat) (f : Pod → Pod) : (d.modPod p f).cyc = d.cyc := rfl
@[simp] theorem Dev.modPod_intake (d : Dev) (p : Nat) (f : Pod → Pod) : (d.modPod p f).intake = d.intake := rfl
@[simp] theorem Dev.modPod_movers (d : Dev) (p : Nat) (f : Pod → Pod) : (d.modPod p f).movers = d.movers := rfl
@[simp] theorem Dev.modPod_mem (d : Dev) (p : Nat) (f : Pod → Pod) : (d.modPod p f).mem = d.mem := rfl
@[simp] theorem Dev.modPod_ddr (d : Dev) (p : Nat) (f : Pod → Pod) : (d.modPod p f).ddr = d.ddr := rfl
@[simp] theorem Dev.modPod_prog (d : Dev) (p : Nat) (f : Pod → Pod) : (d.modPod p f).prog = d.prog := rfl
@[simp] theorem Dev.modPod_sched (d : Dev) (p : Nat) (f : Pod → Pod) : (d.modPod p f).sched = d.sched := rfl
@[simp] theorem Dev.modPod_sync (d : Dev) (p : Nat) (f : Pod → Pod) : (d.modPod p f).sync = d.sync := rfl
@[simp] theorem Dev.modPod_cover (d : Dev) (p : Nat) (f : Pod → Pod) : (d.modPod p f).cover = d.cover := rfl
@[simp] theorem Dev.modPod_fus (d : Dev) (p : Nat) (f : Pod → Pod) : (d.modPod p f).fus = d.fus := rfl
@[simp] theorem Dev.modPod_kv (d : Dev) (p : Nat) (f : Pod → Pod) : (d.modPod p f).kv = d.kv := rfl
@[simp] theorem Dev.modPod_solvers (d : Dev) (p : Nat) (f : Pod → Pod) : (d.modPod p f).solvers = d.solvers := rfl
@[simp] theorem Dev.modPod_hull (d : Dev) (p : Nat) (f : Pod → Pod) : (d.modPod p f).hull = d.hull := rfl
@[simp] theorem Dev.modPod_twin (d : Dev) (p : Nat) (f : Pod → Pod) : (d.modPod p f).twin = d.twin := rfl
@[simp] theorem Dev.modPod_palca (d : Dev) (p : Nat) (f : Pod → Pod) : (d.modPod p f).palca = d.palca := rfl
@[simp] theorem Dev.modPod_power (d : Dev) (p : Nat) (f : Pod → Pod) : (d.modPod p f).power = d.power := rfl
@[simp] theorem Dev.modPod_start (d : Dev) (p : Nat) (f : Pod → Pod) : (d.modPod p f).start = d.start := rfl
@[simp] theorem Dev.modPod_recd (d : Dev) (p : Nat) (f : Pod → Pod) : (d.modPod p f).recd = d.recd := rfl
@[simp] theorem Dev.modPod_sec (d : Dev) (p : Nat) (f : Pod → Pod) : (d.modPod p f).sec = d.sec := rfl
@[simp] theorem Dev.modPod_edge (d : Dev) (p : Nat) (f : Pod → Pod) : (d.modPod p f).edge = d.edge := rfl
@[simp] theorem Dev.modPod_out (d : Dev) (p : Nat) (f : Pod → Pod) : (d.modPod p f).out = d.out := rfl
@[simp] theorem Dev.modPod_free (d : Dev) (p : Nat) (f : Pod → Pod) : (d.modPod p f).free = d.free := rfl
@[simp] theorem Dev.modMover_code (d : Dev) (m : Nat) (f : Mover → Mover) : (d.modMover m f).code = d.code := rfl
@[simp] theorem Dev.modMover_time (d : Dev) (m : Nat) (f : Mover → Mover) : (d.modMover m f).time = d.time := rfl
@[simp] theorem Dev.modMover_log (d : Dev) (m : Nat) (f : Mover → Mover) : (d.modMover m f).log = d.log := rfl
@[simp] theorem Dev.modMover_dict (d : Dev) (m : Nat) (f : Mover → Mover) : (d.modMover m f).dict = d.dict := rfl
@[simp] theorem Dev.modMover_cyc (d : Dev) (m : Nat) (f : Mover → Mover) : (d.modMover m f).cyc = d.cyc := rfl
@[simp] theorem Dev.modMover_intake (d : Dev) (m : Nat) (f : Mover → Mover) : (d.modMover m f).intake = d.intake := rfl
@[simp] theorem Dev.modMover_pods (d : Dev) (m : Nat) (f : Mover → Mover) : (d.modMover m f).pods = d.pods := rfl
@[simp] theorem Dev.modMover_mem (d : Dev) (m : Nat) (f : Mover → Mover) : (d.modMover m f).mem = d.mem := rfl
@[simp] theorem Dev.modMover_ddr (d : Dev) (m : Nat) (f : Mover → Mover) : (d.modMover m f).ddr = d.ddr := rfl
@[simp] theorem Dev.modMover_prog (d : Dev) (m : Nat) (f : Mover → Mover) : (d.modMover m f).prog = d.prog := rfl
@[simp] theorem Dev.modMover_sched (d : Dev) (m : Nat) (f : Mover → Mover) : (d.modMover m f).sched = d.sched := rfl
@[simp] theorem Dev.modMover_sync (d : Dev) (m : Nat) (f : Mover → Mover) : (d.modMover m f).sync = d.sync := rfl
@[simp] theorem Dev.modMover_cover (d : Dev) (m : Nat) (f : Mover → Mover) : (d.modMover m f).cover = d.cover := rfl
@[simp] theorem Dev.modMover_fus (d : Dev) (m : Nat) (f : Mover → Mover) : (d.modMover m f).fus = d.fus := rfl
@[simp] theorem Dev.modMover_kv (d : Dev) (m : Nat) (f : Mover → Mover) : (d.modMover m f).kv = d.kv := rfl
@[simp] theorem Dev.modMover_solvers (d : Dev) (m : Nat) (f : Mover → Mover) : (d.modMover m f).solvers = d.solvers := rfl
@[simp] theorem Dev.modMover_hull (d : Dev) (m : Nat) (f : Mover → Mover) : (d.modMover m f).hull = d.hull := rfl
@[simp] theorem Dev.modMover_twin (d : Dev) (m : Nat) (f : Mover → Mover) : (d.modMover m f).twin = d.twin := rfl
@[simp] theorem Dev.modMover_palca (d : Dev) (m : Nat) (f : Mover → Mover) : (d.modMover m f).palca = d.palca := rfl
@[simp] theorem Dev.modMover_power (d : Dev) (m : Nat) (f : Mover → Mover) : (d.modMover m f).power = d.power := rfl
@[simp] theorem Dev.modMover_start (d : Dev) (m : Nat) (f : Mover → Mover) : (d.modMover m f).start = d.start := rfl
@[simp] theorem Dev.modMover_recd (d : Dev) (m : Nat) (f : Mover → Mover) : (d.modMover m f).recd = d.recd := rfl
@[simp] theorem Dev.modMover_sec (d : Dev) (m : Nat) (f : Mover → Mover) : (d.modMover m f).sec = d.sec := rfl
@[simp] theorem Dev.modMover_edge (d : Dev) (m : Nat) (f : Mover → Mover) : (d.modMover m f).edge = d.edge := rfl
@[simp] theorem Dev.modMover_out (d : Dev) (m : Nat) (f : Mover → Mover) : (d.modMover m f).out = d.out := rfl
@[simp] theorem Dev.modMover_free (d : Dev) (m : Nat) (f : Mover → Mover) : (d.modMover m f).free = d.free := rfl
@[simp] theorem Dev.modSolver_code (d : Dev) (e : Nat) (f : Solver → Solver) : (d.modSolver e f).code = d.code := rfl
@[simp] theorem Dev.modSolver_time (d : Dev) (e : Nat) (f : Solver → Solver) : (d.modSolver e f).time = d.time := rfl
@[simp] theorem Dev.modSolver_log (d : Dev) (e : Nat) (f : Solver → Solver) : (d.modSolver e f).log = d.log := rfl
@[simp] theorem Dev.modSolver_dict (d : Dev) (e : Nat) (f : Solver → Solver) : (d.modSolver e f).dict = d.dict := rfl
@[simp] theorem Dev.modSolver_cyc (d : Dev) (e : Nat) (f : Solver → Solver) : (d.modSolver e f).cyc = d.cyc := rfl
@[simp] theorem Dev.modSolver_intake (d : Dev) (e : Nat) (f : Solver → Solver) : (d.modSolver e f).intake = d.intake := rfl
@[simp] theorem Dev.modSolver_pods (d : Dev) (e : Nat) (f : Solver → Solver) : (d.modSolver e f).pods = d.pods := rfl
@[simp] theorem Dev.modSolver_movers (d : Dev) (e : Nat) (f : Solver → Solver) : (d.modSolver e f).movers = d.movers := rfl
@[simp] theorem Dev.modSolver_mem (d : Dev) (e : Nat) (f : Solver → Solver) : (d.modSolver e f).mem = d.mem := rfl
@[simp] theorem Dev.modSolver_ddr (d : Dev) (e : Nat) (f : Solver → Solver) : (d.modSolver e f).ddr = d.ddr := rfl
@[simp] theorem Dev.modSolver_prog (d : Dev) (e : Nat) (f : Solver → Solver) : (d.modSolver e f).prog = d.prog := rfl
@[simp] theorem Dev.modSolver_sched (d : Dev) (e : Nat) (f : Solver → Solver) : (d.modSolver e f).sched = d.sched := rfl
@[simp] theorem Dev.modSolver_sync (d : Dev) (e : Nat) (f : Solver → Solver) : (d.modSolver e f).sync = d.sync := rfl
@[simp] theorem Dev.modSolver_cover (d : Dev) (e : Nat) (f : Solver → Solver) : (d.modSolver e f).cover = d.cover := rfl
@[simp] theorem Dev.modSolver_fus (d : Dev) (e : Nat) (f : Solver → Solver) : (d.modSolver e f).fus = d.fus := rfl
@[simp] theorem Dev.modSolver_kv (d : Dev) (e : Nat) (f : Solver → Solver) : (d.modSolver e f).kv = d.kv := rfl
@[simp] theorem Dev.modSolver_hull (d : Dev) (e : Nat) (f : Solver → Solver) : (d.modSolver e f).hull = d.hull := rfl
@[simp] theorem Dev.modSolver_twin (d : Dev) (e : Nat) (f : Solver → Solver) : (d.modSolver e f).twin = d.twin := rfl
@[simp] theorem Dev.modSolver_palca (d : Dev) (e : Nat) (f : Solver → Solver) : (d.modSolver e f).palca = d.palca := rfl
@[simp] theorem Dev.modSolver_power (d : Dev) (e : Nat) (f : Solver → Solver) : (d.modSolver e f).power = d.power := rfl
@[simp] theorem Dev.modSolver_start (d : Dev) (e : Nat) (f : Solver → Solver) : (d.modSolver e f).start = d.start := rfl
@[simp] theorem Dev.modSolver_recd (d : Dev) (e : Nat) (f : Solver → Solver) : (d.modSolver e f).recd = d.recd := rfl
@[simp] theorem Dev.modSolver_sec (d : Dev) (e : Nat) (f : Solver → Solver) : (d.modSolver e f).sec = d.sec := rfl
@[simp] theorem Dev.modSolver_edge (d : Dev) (e : Nat) (f : Solver → Solver) : (d.modSolver e f).edge = d.edge := rfl
@[simp] theorem Dev.modSolver_out (d : Dev) (e : Nat) (f : Solver → Solver) : (d.modSolver e f).out = d.out := rfl
@[simp] theorem Dev.modSolver_free (d : Dev) (e : Nat) (f : Solver → Solver) : (d.modSolver e f).free = d.free := rfl
@[simp] theorem Dev.modPass_code (d : Dev) (t : Nat) (f : Pass → Pass) : (d.modPass t f).code = d.code := rfl
@[simp] theorem Dev.modPass_time (d : Dev) (t : Nat) (f : Pass → Pass) : (d.modPass t f).time = d.time := rfl
@[simp] theorem Dev.modPass_log (d : Dev) (t : Nat) (f : Pass → Pass) : (d.modPass t f).log = d.log := rfl
@[simp] theorem Dev.modPass_dict (d : Dev) (t : Nat) (f : Pass → Pass) : (d.modPass t f).dict = d.dict := rfl
@[simp] theorem Dev.modPass_cyc (d : Dev) (t : Nat) (f : Pass → Pass) : (d.modPass t f).cyc = d.cyc := rfl
@[simp] theorem Dev.modPass_intake (d : Dev) (t : Nat) (f : Pass → Pass) : (d.modPass t f).intake = d.intake := rfl
@[simp] theorem Dev.modPass_pods (d : Dev) (t : Nat) (f : Pass → Pass) : (d.modPass t f).pods = d.pods := rfl
@[simp] theorem Dev.modPass_movers (d : Dev) (t : Nat) (f : Pass → Pass) : (d.modPass t f).movers = d.movers := rfl
@[simp] theorem Dev.modPass_mem (d : Dev) (t : Nat) (f : Pass → Pass) : (d.modPass t f).mem = d.mem := rfl
@[simp] theorem Dev.modPass_ddr (d : Dev) (t : Nat) (f : Pass → Pass) : (d.modPass t f).ddr = d.ddr := rfl
@[simp] theorem Dev.modPass_prog (d : Dev) (t : Nat) (f : Pass → Pass) : (d.modPass t f).prog = d.prog := rfl
@[simp] theorem Dev.modPass_sync (d : Dev) (t : Nat) (f : Pass → Pass) : (d.modPass t f).sync = d.sync := rfl
@[simp] theorem Dev.modPass_cover (d : Dev) (t : Nat) (f : Pass → Pass) : (d.modPass t f).cover = d.cover := rfl
@[simp] theorem Dev.modPass_fus (d : Dev) (t : Nat) (f : Pass → Pass) : (d.modPass t f).fus = d.fus := rfl
@[simp] theorem Dev.modPass_kv (d : Dev) (t : Nat) (f : Pass → Pass) : (d.modPass t f).kv = d.kv := rfl
@[simp] theorem Dev.modPass_solvers (d : Dev) (t : Nat) (f : Pass → Pass) : (d.modPass t f).solvers = d.solvers := rfl
@[simp] theorem Dev.modPass_hull (d : Dev) (t : Nat) (f : Pass → Pass) : (d.modPass t f).hull = d.hull := rfl
@[simp] theorem Dev.modPass_twin (d : Dev) (t : Nat) (f : Pass → Pass) : (d.modPass t f).twin = d.twin := rfl
@[simp] theorem Dev.modPass_palca (d : Dev) (t : Nat) (f : Pass → Pass) : (d.modPass t f).palca = d.palca := rfl
@[simp] theorem Dev.modPass_power (d : Dev) (t : Nat) (f : Pass → Pass) : (d.modPass t f).power = d.power := rfl
@[simp] theorem Dev.modPass_start (d : Dev) (t : Nat) (f : Pass → Pass) : (d.modPass t f).start = d.start := rfl
@[simp] theorem Dev.modPass_recd (d : Dev) (t : Nat) (f : Pass → Pass) : (d.modPass t f).recd = d.recd := rfl
@[simp] theorem Dev.modPass_sec (d : Dev) (t : Nat) (f : Pass → Pass) : (d.modPass t f).sec = d.sec := rfl
@[simp] theorem Dev.modPass_edge (d : Dev) (t : Nat) (f : Pass → Pass) : (d.modPass t f).edge = d.edge := rfl
@[simp] theorem Dev.modPass_out (d : Dev) (t : Nat) (f : Pass → Pass) : (d.modPass t f).out = d.out := rfl
@[simp] theorem Dev.modPass_free (d : Dev) (t : Nat) (f : Pass → Pass) : (d.modPass t f).free = d.free := rfl
@[simp] theorem Dev.modCover_code (d : Dev) (kind unit : Nat) (f : Coverage → Coverage) : (d.modCover kind unit f).code = d.code := rfl
@[simp] theorem Dev.modCover_time (d : Dev) (kind unit : Nat) (f : Coverage → Coverage) : (d.modCover kind unit f).time = d.time := rfl
@[simp] theorem Dev.modCover_log (d : Dev) (kind unit : Nat) (f : Coverage → Coverage) : (d.modCover kind unit f).log = d.log := rfl
@[simp] theorem Dev.modCover_dict (d : Dev) (kind unit : Nat) (f : Coverage → Coverage) : (d.modCover kind unit f).dict = d.dict := rfl
@[simp] theorem Dev.modCover_cyc (d : Dev) (kind unit : Nat) (f : Coverage → Coverage) : (d.modCover kind unit f).cyc = d.cyc := rfl
@[simp] theorem Dev.modCover_intake (d : Dev) (kind unit : Nat) (f : Coverage → Coverage) : (d.modCover kind unit f).intake = d.intake := rfl
@[simp] theorem Dev.modCover_pods (d : Dev) (kind unit : Nat) (f : Coverage → Coverage) : (d.modCover kind unit f).pods = d.pods := rfl
@[simp] theorem Dev.modCover_movers (d : Dev) (kind unit : Nat) (f : Coverage → Coverage) : (d.modCover kind unit f).movers = d.movers := rfl
@[simp] theorem Dev.modCover_mem (d : Dev) (kind unit : Nat) (f : Coverage → Coverage) : (d.modCover kind unit f).mem = d.mem := rfl
@[simp] theorem Dev.modCover_ddr (d : Dev) (kind unit : Nat) (f : Coverage → Coverage) : (d.modCover kind unit f).ddr = d.ddr := rfl
@[simp] theorem Dev.modCover_prog (d : Dev) (kind unit : Nat) (f : Coverage → Coverage) : (d.modCover kind unit f).prog = d.prog := rfl
@[simp] theorem Dev.modCover_sched (d : Dev) (kind unit : Nat) (f : Coverage → Coverage) : (d.modCover kind unit f).sched = d.sched := rfl
@[simp] theorem Dev.modCover_sync (d : Dev) (kind unit : Nat) (f : Coverage → Coverage) : (d.modCover kind unit f).sync = d.sync := rfl
@[simp] theorem Dev.modCover_fus (d : Dev) (kind unit : Nat) (f : Coverage → Coverage) : (d.modCover kind unit f).fus = d.fus := rfl
@[simp] theorem Dev.modCover_kv (d : Dev) (kind unit : Nat) (f : Coverage → Coverage) : (d.modCover kind unit f).kv = d.kv := rfl
@[simp] theorem Dev.modCover_solvers (d : Dev) (kind unit : Nat) (f : Coverage → Coverage) : (d.modCover kind unit f).solvers = d.solvers := rfl
@[simp] theorem Dev.modCover_hull (d : Dev) (kind unit : Nat) (f : Coverage → Coverage) : (d.modCover kind unit f).hull = d.hull := rfl
@[simp] theorem Dev.modCover_twin (d : Dev) (kind unit : Nat) (f : Coverage → Coverage) : (d.modCover kind unit f).twin = d.twin := rfl
@[simp] theorem Dev.modCover_palca (d : Dev) (kind unit : Nat) (f : Coverage → Coverage) : (d.modCover kind unit f).palca = d.palca := rfl
@[simp] theorem Dev.modCover_power (d : Dev) (kind unit : Nat) (f : Coverage → Coverage) : (d.modCover kind unit f).power = d.power := rfl
@[simp] theorem Dev.modCover_start (d : Dev) (kind unit : Nat) (f : Coverage → Coverage) : (d.modCover kind unit f).start = d.start := rfl
@[simp] theorem Dev.modCover_recd (d : Dev) (kind unit : Nat) (f : Coverage → Coverage) : (d.modCover kind unit f).recd = d.recd := rfl
@[simp] theorem Dev.modCover_sec (d : Dev) (kind unit : Nat) (f : Coverage → Coverage) : (d.modCover kind unit f).sec = d.sec := rfl
@[simp] theorem Dev.modCover_edge (d : Dev) (kind unit : Nat) (f : Coverage → Coverage) : (d.modCover kind unit f).edge = d.edge := rfl
@[simp] theorem Dev.modCover_out (d : Dev) (kind unit : Nat) (f : Coverage → Coverage) : (d.modCover kind unit f).out = d.out := rfl
@[simp] theorem Dev.modCover_free (d : Dev) (kind unit : Nat) (f : Coverage → Coverage) : (d.modCover kind unit f).free = d.free := rfl
@[simp] theorem Dev.modPower_code (d : Dev) (f : Power → Power) : (d.modPower f).code = d.code := rfl
@[simp] theorem Dev.modPower_time (d : Dev) (f : Power → Power) : (d.modPower f).time = d.time := rfl
@[simp] theorem Dev.modPower_log (d : Dev) (f : Power → Power) : (d.modPower f).log = d.log := rfl
@[simp] theorem Dev.modPower_dict (d : Dev) (f : Power → Power) : (d.modPower f).dict = d.dict := rfl
@[simp] theorem Dev.modPower_cyc (d : Dev) (f : Power → Power) : (d.modPower f).cyc = d.cyc := rfl
@[simp] theorem Dev.modPower_intake (d : Dev) (f : Power → Power) : (d.modPower f).intake = d.intake := rfl
@[simp] theorem Dev.modPower_pods (d : Dev) (f : Power → Power) : (d.modPower f).pods = d.pods := rfl
@[simp] theorem Dev.modPower_movers (d : Dev) (f : Power → Power) : (d.modPower f).movers = d.movers := rfl
@[simp] theorem Dev.modPower_mem (d : Dev) (f : Power → Power) : (d.modPower f).mem = d.mem := rfl
@[simp] theorem Dev.modPower_ddr (d : Dev) (f : Power → Power) : (d.modPower f).ddr = d.ddr := rfl
@[simp] theorem Dev.modPower_prog (d : Dev) (f : Power → Power) : (d.modPower f).prog = d.prog := rfl
@[simp] theorem Dev.modPower_sched (d : Dev) (f : Power → Power) : (d.modPower f).sched = d.sched := rfl
@[simp] theorem Dev.modPower_sync (d : Dev) (f : Power → Power) : (d.modPower f).sync = d.sync := rfl
@[simp] theorem Dev.modPower_cover (d : Dev) (f : Power → Power) : (d.modPower f).cover = d.cover := rfl
@[simp] theorem Dev.modPower_fus (d : Dev) (f : Power → Power) : (d.modPower f).fus = d.fus := rfl
@[simp] theorem Dev.modPower_kv (d : Dev) (f : Power → Power) : (d.modPower f).kv = d.kv := rfl
@[simp] theorem Dev.modPower_solvers (d : Dev) (f : Power → Power) : (d.modPower f).solvers = d.solvers := rfl
@[simp] theorem Dev.modPower_hull (d : Dev) (f : Power → Power) : (d.modPower f).hull = d.hull := rfl
@[simp] theorem Dev.modPower_twin (d : Dev) (f : Power → Power) : (d.modPower f).twin = d.twin := rfl
@[simp] theorem Dev.modPower_palca (d : Dev) (f : Power → Power) : (d.modPower f).palca = d.palca := rfl
@[simp] theorem Dev.modPower_start (d : Dev) (f : Power → Power) : (d.modPower f).start = d.start := rfl
@[simp] theorem Dev.modPower_recd (d : Dev) (f : Power → Power) : (d.modPower f).recd = d.recd := rfl
@[simp] theorem Dev.modPower_sec (d : Dev) (f : Power → Power) : (d.modPower f).sec = d.sec := rfl
@[simp] theorem Dev.modPower_edge (d : Dev) (f : Power → Power) : (d.modPower f).edge = d.edge := rfl
@[simp] theorem Dev.modPower_out (d : Dev) (f : Power → Power) : (d.modPower f).out = d.out := rfl
@[simp] theorem Dev.modPower_free (d : Dev) (f : Power → Power) : (d.modPower f).free = d.free := rfl
@[simp] theorem Dev.modSec_code (d : Dev) (f : Security → Security) : (d.modSec f).code = d.code := rfl
@[simp] theorem Dev.modSec_time (d : Dev) (f : Security → Security) : (d.modSec f).time = d.time := rfl
@[simp] theorem Dev.modSec_log (d : Dev) (f : Security → Security) : (d.modSec f).log = d.log := rfl
@[simp] theorem Dev.modSec_dict (d : Dev) (f : Security → Security) : (d.modSec f).dict = d.dict := rfl
@[simp] theorem Dev.modSec_cyc (d : Dev) (f : Security → Security) : (d.modSec f).cyc = d.cyc := rfl
@[simp] theorem Dev.modSec_intake (d : Dev) (f : Security → Security) : (d.modSec f).intake = d.intake := rfl
@[simp] theorem Dev.modSec_pods (d : Dev) (f : Security → Security) : (d.modSec f).pods = d.pods := rfl
@[simp] theorem Dev.modSec_movers (d : Dev) (f : Security → Security) : (d.modSec f).movers = d.movers := rfl
@[simp] theorem Dev.modSec_mem (d : Dev) (f : Security → Security) : (d.modSec f).mem = d.mem := rfl
@[simp] theorem Dev.modSec_ddr (d : Dev) (f : Security → Security) : (d.modSec f).ddr = d.ddr := rfl
@[simp] theorem Dev.modSec_prog (d : Dev) (f : Security → Security) : (d.modSec f).prog = d.prog := rfl
@[simp] theorem Dev.modSec_sched (d : Dev) (f : Security → Security) : (d.modSec f).sched = d.sched := rfl
@[simp] theorem Dev.modSec_sync (d : Dev) (f : Security → Security) : (d.modSec f).sync = d.sync := rfl
@[simp] theorem Dev.modSec_cover (d : Dev) (f : Security → Security) : (d.modSec f).cover = d.cover := rfl
@[simp] theorem Dev.modSec_fus (d : Dev) (f : Security → Security) : (d.modSec f).fus = d.fus := rfl
@[simp] theorem Dev.modSec_kv (d : Dev) (f : Security → Security) : (d.modSec f).kv = d.kv := rfl
@[simp] theorem Dev.modSec_solvers (d : Dev) (f : Security → Security) : (d.modSec f).solvers = d.solvers := rfl
@[simp] theorem Dev.modSec_hull (d : Dev) (f : Security → Security) : (d.modSec f).hull = d.hull := rfl
@[simp] theorem Dev.modSec_twin (d : Dev) (f : Security → Security) : (d.modSec f).twin = d.twin := rfl
@[simp] theorem Dev.modSec_palca (d : Dev) (f : Security → Security) : (d.modSec f).palca = d.palca := rfl
@[simp] theorem Dev.modSec_power (d : Dev) (f : Security → Security) : (d.modSec f).power = d.power := rfl
@[simp] theorem Dev.modSec_start (d : Dev) (f : Security → Security) : (d.modSec f).start = d.start := rfl
@[simp] theorem Dev.modSec_recd (d : Dev) (f : Security → Security) : (d.modSec f).recd = d.recd := rfl
@[simp] theorem Dev.modSec_edge (d : Dev) (f : Security → Security) : (d.modSec f).edge = d.edge := rfl
@[simp] theorem Dev.modSec_out (d : Dev) (f : Security → Security) : (d.modSec f).out = d.out := rfl
@[simp] theorem Dev.modSec_free (d : Dev) (f : Security → Security) : (d.modSec f).free = d.free := rfl
@[simp] theorem Dev.modStart_code (d : Dev) (f : Startup → Startup) : (d.modStart f).code = d.code := rfl
@[simp] theorem Dev.modStart_time (d : Dev) (f : Startup → Startup) : (d.modStart f).time = d.time := rfl
@[simp] theorem Dev.modStart_log (d : Dev) (f : Startup → Startup) : (d.modStart f).log = d.log := rfl
@[simp] theorem Dev.modStart_dict (d : Dev) (f : Startup → Startup) : (d.modStart f).dict = d.dict := rfl
@[simp] theorem Dev.modStart_cyc (d : Dev) (f : Startup → Startup) : (d.modStart f).cyc = d.cyc := rfl
@[simp] theorem Dev.modStart_intake (d : Dev) (f : Startup → Startup) : (d.modStart f).intake = d.intake := rfl
@[simp] theorem Dev.modStart_pods (d : Dev) (f : Startup → Startup) : (d.modStart f).pods = d.pods := rfl
@[simp] theorem Dev.modStart_movers (d : Dev) (f : Startup → Startup) : (d.modStart f).movers = d.movers := rfl
@[simp] theorem Dev.modStart_mem (d : Dev) (f : Startup → Startup) : (d.modStart f).mem = d.mem := rfl
@[simp] theorem Dev.modStart_ddr (d : Dev) (f : Startup → Startup) : (d.modStart f).ddr = d.ddr := rfl
@[simp] theorem Dev.modStart_prog (d : Dev) (f : Startup → Startup) : (d.modStart f).prog = d.prog := rfl
@[simp] theorem Dev.modStart_sched (d : Dev) (f : Startup → Startup) : (d.modStart f).sched = d.sched := rfl
@[simp] theorem Dev.modStart_sync (d : Dev) (f : Startup → Startup) : (d.modStart f).sync = d.sync := rfl
@[simp] theorem Dev.modStart_cover (d : Dev) (f : Startup → Startup) : (d.modStart f).cover = d.cover := rfl
@[simp] theorem Dev.modStart_fus (d : Dev) (f : Startup → Startup) : (d.modStart f).fus = d.fus := rfl
@[simp] theorem Dev.modStart_kv (d : Dev) (f : Startup → Startup) : (d.modStart f).kv = d.kv := rfl
@[simp] theorem Dev.modStart_solvers (d : Dev) (f : Startup → Startup) : (d.modStart f).solvers = d.solvers := rfl
@[simp] theorem Dev.modStart_hull (d : Dev) (f : Startup → Startup) : (d.modStart f).hull = d.hull := rfl
@[simp] theorem Dev.modStart_twin (d : Dev) (f : Startup → Startup) : (d.modStart f).twin = d.twin := rfl
@[simp] theorem Dev.modStart_palca (d : Dev) (f : Startup → Startup) : (d.modStart f).palca = d.palca := rfl
@[simp] theorem Dev.modStart_power (d : Dev) (f : Startup → Startup) : (d.modStart f).power = d.power := rfl
@[simp] theorem Dev.modStart_recd (d : Dev) (f : Startup → Startup) : (d.modStart f).recd = d.recd := rfl
@[simp] theorem Dev.modStart_sec (d : Dev) (f : Startup → Startup) : (d.modStart f).sec = d.sec := rfl
@[simp] theorem Dev.modStart_edge (d : Dev) (f : Startup → Startup) : (d.modStart f).edge = d.edge := rfl
@[simp] theorem Dev.modStart_out (d : Dev) (f : Startup → Startup) : (d.modStart f).out = d.out := rfl
@[simp] theorem Dev.modStart_free (d : Dev) (f : Startup → Startup) : (d.modStart f).free = d.free := rfl
@[simp] theorem Dev.modRec_code (d : Dev) (f : Recorder → Recorder) : (d.modRec f).code = d.code := rfl
@[simp] theorem Dev.modRec_time (d : Dev) (f : Recorder → Recorder) : (d.modRec f).time = d.time := rfl
@[simp] theorem Dev.modRec_log (d : Dev) (f : Recorder → Recorder) : (d.modRec f).log = d.log := rfl
@[simp] theorem Dev.modRec_dict (d : Dev) (f : Recorder → Recorder) : (d.modRec f).dict = d.dict := rfl
@[simp] theorem Dev.modRec_cyc (d : Dev) (f : Recorder → Recorder) : (d.modRec f).cyc = d.cyc := rfl
@[simp] theorem Dev.modRec_intake (d : Dev) (f : Recorder → Recorder) : (d.modRec f).intake = d.intake := rfl
@[simp] theorem Dev.modRec_pods (d : Dev) (f : Recorder → Recorder) : (d.modRec f).pods = d.pods := rfl
@[simp] theorem Dev.modRec_movers (d : Dev) (f : Recorder → Recorder) : (d.modRec f).movers = d.movers := rfl
@[simp] theorem Dev.modRec_mem (d : Dev) (f : Recorder → Recorder) : (d.modRec f).mem = d.mem := rfl
@[simp] theorem Dev.modRec_ddr (d : Dev) (f : Recorder → Recorder) : (d.modRec f).ddr = d.ddr := rfl
@[simp] theorem Dev.modRec_prog (d : Dev) (f : Recorder → Recorder) : (d.modRec f).prog = d.prog := rfl
@[simp] theorem Dev.modRec_sched (d : Dev) (f : Recorder → Recorder) : (d.modRec f).sched = d.sched := rfl
@[simp] theorem Dev.modRec_sync (d : Dev) (f : Recorder → Recorder) : (d.modRec f).sync = d.sync := rfl
@[simp] theorem Dev.modRec_cover (d : Dev) (f : Recorder → Recorder) : (d.modRec f).cover = d.cover := rfl
@[simp] theorem Dev.modRec_fus (d : Dev) (f : Recorder → Recorder) : (d.modRec f).fus = d.fus := rfl
@[simp] theorem Dev.modRec_kv (d : Dev) (f : Recorder → Recorder) : (d.modRec f).kv = d.kv := rfl
@[simp] theorem Dev.modRec_solvers (d : Dev) (f : Recorder → Recorder) : (d.modRec f).solvers = d.solvers := rfl
@[simp] theorem Dev.modRec_hull (d : Dev) (f : Recorder → Recorder) : (d.modRec f).hull = d.hull := rfl
@[simp] theorem Dev.modRec_twin (d : Dev) (f : Recorder → Recorder) : (d.modRec f).twin = d.twin := rfl
@[simp] theorem Dev.modRec_palca (d : Dev) (f : Recorder → Recorder) : (d.modRec f).palca = d.palca := rfl
@[simp] theorem Dev.modRec_power (d : Dev) (f : Recorder → Recorder) : (d.modRec f).power = d.power := rfl
@[simp] theorem Dev.modRec_start (d : Dev) (f : Recorder → Recorder) : (d.modRec f).start = d.start := rfl
@[simp] theorem Dev.modRec_sec (d : Dev) (f : Recorder → Recorder) : (d.modRec f).sec = d.sec := rfl
@[simp] theorem Dev.modRec_edge (d : Dev) (f : Recorder → Recorder) : (d.modRec f).edge = d.edge := rfl
@[simp] theorem Dev.modRec_out (d : Dev) (f : Recorder → Recorder) : (d.modRec f).out = d.out := rfl
@[simp] theorem Dev.modRec_free (d : Dev) (f : Recorder → Recorder) : (d.modRec f).free = d.free := rfl
@[simp] theorem Dev.modBlock_code (d : Dev) (b : Nat) (f : NandBlock → NandBlock) : (d.modBlock b f).code = d.code := rfl
@[simp] theorem Dev.modBlock_time (d : Dev) (b : Nat) (f : NandBlock → NandBlock) : (d.modBlock b f).time = d.time := rfl
@[simp] theorem Dev.modBlock_log (d : Dev) (b : Nat) (f : NandBlock → NandBlock) : (d.modBlock b f).log = d.log := rfl
@[simp] theorem Dev.modBlock_dict (d : Dev) (b : Nat) (f : NandBlock → NandBlock) : (d.modBlock b f).dict = d.dict := rfl
@[simp] theorem Dev.modBlock_cyc (d : Dev) (b : Nat) (f : NandBlock → NandBlock) : (d.modBlock b f).cyc = d.cyc := rfl
@[simp] theorem Dev.modBlock_intake (d : Dev) (b : Nat) (f : NandBlock → NandBlock) : (d.modBlock b f).intake = d.intake := rfl
@[simp] theorem Dev.modBlock_pods (d : Dev) (b : Nat) (f : NandBlock → NandBlock) : (d.modBlock b f).pods = d.pods := rfl
@[simp] theorem Dev.modBlock_movers (d : Dev) (b : Nat) (f : NandBlock → NandBlock) : (d.modBlock b f).movers = d.movers := rfl
@[simp] theorem Dev.modBlock_mem (d : Dev) (b : Nat) (f : NandBlock → NandBlock) : (d.modBlock b f).mem = d.mem := rfl
@[simp] theorem Dev.modBlock_ddr (d : Dev) (b : Nat) (f : NandBlock → NandBlock) : (d.modBlock b f).ddr = d.ddr := rfl
@[simp] theorem Dev.modBlock_prog (d : Dev) (b : Nat) (f : NandBlock → NandBlock) : (d.modBlock b f).prog = d.prog := rfl
@[simp] theorem Dev.modBlock_sched (d : Dev) (b : Nat) (f : NandBlock → NandBlock) : (d.modBlock b f).sched = d.sched := rfl
@[simp] theorem Dev.modBlock_sync (d : Dev) (b : Nat) (f : NandBlock → NandBlock) : (d.modBlock b f).sync = d.sync := rfl
@[simp] theorem Dev.modBlock_cover (d : Dev) (b : Nat) (f : NandBlock → NandBlock) : (d.modBlock b f).cover = d.cover := rfl
@[simp] theorem Dev.modBlock_fus (d : Dev) (b : Nat) (f : NandBlock → NandBlock) : (d.modBlock b f).fus = d.fus := rfl
@[simp] theorem Dev.modBlock_kv (d : Dev) (b : Nat) (f : NandBlock → NandBlock) : (d.modBlock b f).kv = d.kv := rfl
@[simp] theorem Dev.modBlock_solvers (d : Dev) (b : Nat) (f : NandBlock → NandBlock) : (d.modBlock b f).solvers = d.solvers := rfl
@[simp] theorem Dev.modBlock_hull (d : Dev) (b : Nat) (f : NandBlock → NandBlock) : (d.modBlock b f).hull = d.hull := rfl
@[simp] theorem Dev.modBlock_twin (d : Dev) (b : Nat) (f : NandBlock → NandBlock) : (d.modBlock b f).twin = d.twin := rfl
@[simp] theorem Dev.modBlock_palca (d : Dev) (b : Nat) (f : NandBlock → NandBlock) : (d.modBlock b f).palca = d.palca := rfl
@[simp] theorem Dev.modBlock_power (d : Dev) (b : Nat) (f : NandBlock → NandBlock) : (d.modBlock b f).power = d.power := rfl
@[simp] theorem Dev.modBlock_start (d : Dev) (b : Nat) (f : NandBlock → NandBlock) : (d.modBlock b f).start = d.start := rfl
@[simp] theorem Dev.modBlock_sec (d : Dev) (b : Nat) (f : NandBlock → NandBlock) : (d.modBlock b f).sec = d.sec := rfl
@[simp] theorem Dev.modBlock_edge (d : Dev) (b : Nat) (f : NandBlock → NandBlock) : (d.modBlock b f).edge = d.edge := rfl
@[simp] theorem Dev.modBlock_out (d : Dev) (b : Nat) (f : NandBlock → NandBlock) : (d.modBlock b f).out = d.out := rfl
@[simp] theorem Dev.modBlock_free (d : Dev) (b : Nat) (f : NandBlock → NandBlock) : (d.modBlock b f).free = d.free := rfl
@[simp] theorem Dev.setSync_code (d : Dev) (o : Nat) (w : Word) : (d.setSync o w).code = d.code := rfl
@[simp] theorem Dev.setSync_time (d : Dev) (o : Nat) (w : Word) : (d.setSync o w).time = d.time := rfl
@[simp] theorem Dev.setSync_log (d : Dev) (o : Nat) (w : Word) : (d.setSync o w).log = d.log := rfl
@[simp] theorem Dev.setSync_dict (d : Dev) (o : Nat) (w : Word) : (d.setSync o w).dict = d.dict := rfl
@[simp] theorem Dev.setSync_cyc (d : Dev) (o : Nat) (w : Word) : (d.setSync o w).cyc = d.cyc := rfl
@[simp] theorem Dev.setSync_intake (d : Dev) (o : Nat) (w : Word) : (d.setSync o w).intake = d.intake := rfl
@[simp] theorem Dev.setSync_pods (d : Dev) (o : Nat) (w : Word) : (d.setSync o w).pods = d.pods := rfl
@[simp] theorem Dev.setSync_movers (d : Dev) (o : Nat) (w : Word) : (d.setSync o w).movers = d.movers := rfl
@[simp] theorem Dev.setSync_mem (d : Dev) (o : Nat) (w : Word) : (d.setSync o w).mem = d.mem := rfl
@[simp] theorem Dev.setSync_ddr (d : Dev) (o : Nat) (w : Word) : (d.setSync o w).ddr = d.ddr := rfl
@[simp] theorem Dev.setSync_prog (d : Dev) (o : Nat) (w : Word) : (d.setSync o w).prog = d.prog := rfl
@[simp] theorem Dev.setSync_sched (d : Dev) (o : Nat) (w : Word) : (d.setSync o w).sched = d.sched := rfl
@[simp] theorem Dev.setSync_cover (d : Dev) (o : Nat) (w : Word) : (d.setSync o w).cover = d.cover := rfl
@[simp] theorem Dev.setSync_fus (d : Dev) (o : Nat) (w : Word) : (d.setSync o w).fus = d.fus := rfl
@[simp] theorem Dev.setSync_kv (d : Dev) (o : Nat) (w : Word) : (d.setSync o w).kv = d.kv := rfl
@[simp] theorem Dev.setSync_solvers (d : Dev) (o : Nat) (w : Word) : (d.setSync o w).solvers = d.solvers := rfl
@[simp] theorem Dev.setSync_hull (d : Dev) (o : Nat) (w : Word) : (d.setSync o w).hull = d.hull := rfl
@[simp] theorem Dev.setSync_twin (d : Dev) (o : Nat) (w : Word) : (d.setSync o w).twin = d.twin := rfl
@[simp] theorem Dev.setSync_palca (d : Dev) (o : Nat) (w : Word) : (d.setSync o w).palca = d.palca := rfl
@[simp] theorem Dev.setSync_power (d : Dev) (o : Nat) (w : Word) : (d.setSync o w).power = d.power := rfl
@[simp] theorem Dev.setSync_start (d : Dev) (o : Nat) (w : Word) : (d.setSync o w).start = d.start := rfl
@[simp] theorem Dev.setSync_recd (d : Dev) (o : Nat) (w : Word) : (d.setSync o w).recd = d.recd := rfl
@[simp] theorem Dev.setSync_sec (d : Dev) (o : Nat) (w : Word) : (d.setSync o w).sec = d.sec := rfl
@[simp] theorem Dev.setSync_edge (d : Dev) (o : Nat) (w : Word) : (d.setSync o w).edge = d.edge := rfl
@[simp] theorem Dev.setSync_out (d : Dev) (o : Nat) (w : Word) : (d.setSync o w).out = d.out := rfl
@[simp] theorem Dev.setSync_free (d : Dev) (o : Nat) (w : Word) : (d.setSync o w).free = d.free := rfl
@[simp] theorem Dev.setDom_code (d : Dev) (x : Dom) (v : Domain) : (d.setDom x v).code = d.code := by cases x <;> rfl
@[simp] theorem Dev.setDom_log (d : Dev) (x : Dom) (v : Domain) : (d.setDom x v).log = d.log := by cases x <;> rfl
@[simp] theorem Dev.setDom_dict (d : Dev) (x : Dom) (v : Domain) : (d.setDom x v).dict = d.dict := by cases x <;> rfl
@[simp] theorem Dev.setDom_cyc (d : Dev) (x : Dom) (v : Domain) : (d.setDom x v).cyc = d.cyc := by cases x <;> rfl
@[simp] theorem Dev.setDom_intake (d : Dev) (x : Dom) (v : Domain) : (d.setDom x v).intake = d.intake := by cases x <;> rfl
@[simp] theorem Dev.setDom_pods (d : Dev) (x : Dom) (v : Domain) : (d.setDom x v).pods = d.pods := by cases x <;> rfl
@[simp] theorem Dev.setDom_movers (d : Dev) (x : Dom) (v : Domain) : (d.setDom x v).movers = d.movers := by cases x <;> rfl
@[simp] theorem Dev.setDom_mem (d : Dev) (x : Dom) (v : Domain) : (d.setDom x v).mem = d.mem := by cases x <;> rfl
@[simp] theorem Dev.setDom_ddr (d : Dev) (x : Dom) (v : Domain) : (d.setDom x v).ddr = d.ddr := by cases x <;> rfl
@[simp] theorem Dev.setDom_prog (d : Dev) (x : Dom) (v : Domain) : (d.setDom x v).prog = d.prog := by cases x <;> rfl
@[simp] theorem Dev.setDom_sched (d : Dev) (x : Dom) (v : Domain) : (d.setDom x v).sched = d.sched := by cases x <;> rfl
@[simp] theorem Dev.setDom_sync (d : Dev) (x : Dom) (v : Domain) : (d.setDom x v).sync = d.sync := by cases x <;> rfl
@[simp] theorem Dev.setDom_cover (d : Dev) (x : Dom) (v : Domain) : (d.setDom x v).cover = d.cover := by cases x <;> rfl
@[simp] theorem Dev.setDom_fus (d : Dev) (x : Dom) (v : Domain) : (d.setDom x v).fus = d.fus := by cases x <;> rfl
@[simp] theorem Dev.setDom_kv (d : Dev) (x : Dom) (v : Domain) : (d.setDom x v).kv = d.kv := by cases x <;> rfl
@[simp] theorem Dev.setDom_solvers (d : Dev) (x : Dom) (v : Domain) : (d.setDom x v).solvers = d.solvers := by cases x <;> rfl
@[simp] theorem Dev.setDom_hull (d : Dev) (x : Dom) (v : Domain) : (d.setDom x v).hull = d.hull := by cases x <;> rfl
@[simp] theorem Dev.setDom_twin (d : Dev) (x : Dom) (v : Domain) : (d.setDom x v).twin = d.twin := by cases x <;> rfl
@[simp] theorem Dev.setDom_palca (d : Dev) (x : Dom) (v : Domain) : (d.setDom x v).palca = d.palca := by cases x <;> rfl
@[simp] theorem Dev.setDom_power (d : Dev) (x : Dom) (v : Domain) : (d.setDom x v).power = d.power := by cases x <;> rfl
@[simp] theorem Dev.setDom_start (d : Dev) (x : Dom) (v : Domain) : (d.setDom x v).start = d.start := by cases x <;> rfl
@[simp] theorem Dev.setDom_recd (d : Dev) (x : Dom) (v : Domain) : (d.setDom x v).recd = d.recd := by cases x <;> rfl
@[simp] theorem Dev.setDom_sec (d : Dev) (x : Dom) (v : Domain) : (d.setDom x v).sec = d.sec := by cases x <;> rfl
@[simp] theorem Dev.setDom_edge (d : Dev) (x : Dom) (v : Domain) : (d.setDom x v).edge = d.edge := by cases x <;> rfl
@[simp] theorem Dev.setDom_out (d : Dev) (x : Dom) (v : Domain) : (d.setDom x v).out = d.out := by cases x <;> rfl
@[simp] theorem Dev.setDom_free (d : Dev) (x : Dom) (v : Domain) : (d.setDom x v).free = d.free := by cases x <;> rfl
@[simp] theorem Dev.setTimeState_code (d : Dev) : (d.setTimeState).code = d.code := rfl
@[simp] theorem Dev.setTimeState_log (d : Dev) : (d.setTimeState).log = d.log := rfl
@[simp] theorem Dev.setTimeState_dict (d : Dev) : (d.setTimeState).dict = d.dict := rfl
@[simp] theorem Dev.setTimeState_cyc (d : Dev) : (d.setTimeState).cyc = d.cyc := rfl
@[simp] theorem Dev.setTimeState_intake (d : Dev) : (d.setTimeState).intake = d.intake := rfl
@[simp] theorem Dev.setTimeState_pods (d : Dev) : (d.setTimeState).pods = d.pods := rfl
@[simp] theorem Dev.setTimeState_movers (d : Dev) : (d.setTimeState).movers = d.movers := rfl
@[simp] theorem Dev.setTimeState_mem (d : Dev) : (d.setTimeState).mem = d.mem := rfl
@[simp] theorem Dev.setTimeState_ddr (d : Dev) : (d.setTimeState).ddr = d.ddr := rfl
@[simp] theorem Dev.setTimeState_prog (d : Dev) : (d.setTimeState).prog = d.prog := rfl
@[simp] theorem Dev.setTimeState_sched (d : Dev) : (d.setTimeState).sched = d.sched := rfl
@[simp] theorem Dev.setTimeState_sync (d : Dev) : (d.setTimeState).sync = d.sync := rfl
@[simp] theorem Dev.setTimeState_cover (d : Dev) : (d.setTimeState).cover = d.cover := rfl
@[simp] theorem Dev.setTimeState_fus (d : Dev) : (d.setTimeState).fus = d.fus := rfl
@[simp] theorem Dev.setTimeState_kv (d : Dev) : (d.setTimeState).kv = d.kv := rfl
@[simp] theorem Dev.setTimeState_solvers (d : Dev) : (d.setTimeState).solvers = d.solvers := rfl
@[simp] theorem Dev.setTimeState_hull (d : Dev) : (d.setTimeState).hull = d.hull := rfl
@[simp] theorem Dev.setTimeState_twin (d : Dev) : (d.setTimeState).twin = d.twin := rfl
@[simp] theorem Dev.setTimeState_palca (d : Dev) : (d.setTimeState).palca = d.palca := rfl
@[simp] theorem Dev.setTimeState_power (d : Dev) : (d.setTimeState).power = d.power := rfl
@[simp] theorem Dev.setTimeState_start (d : Dev) : (d.setTimeState).start = d.start := rfl
@[simp] theorem Dev.setTimeState_recd (d : Dev) : (d.setTimeState).recd = d.recd := rfl
@[simp] theorem Dev.setTimeState_sec (d : Dev) : (d.setTimeState).sec = d.sec := rfl
@[simp] theorem Dev.setTimeState_edge (d : Dev) : (d.setTimeState).edge = d.edge := rfl
@[simp] theorem Dev.setTimeState_out (d : Dev) : (d.setTimeState).out = d.out := rfl
@[simp] theorem Dev.setTimeState_free (d : Dev) : (d.setTimeState).free = d.free := rfl
@[simp] theorem Dev.modDelay_code (d : Dev) (port : Nat) (f : PortDelay → PortDelay) : (d.modDelay port f).code = d.code := rfl
@[simp] theorem Dev.modDelay_log (d : Dev) (port : Nat) (f : PortDelay → PortDelay) : (d.modDelay port f).log = d.log := rfl
@[simp] theorem Dev.modDelay_dict (d : Dev) (port : Nat) (f : PortDelay → PortDelay) : (d.modDelay port f).dict = d.dict := rfl
@[simp] theorem Dev.modDelay_cyc (d : Dev) (port : Nat) (f : PortDelay → PortDelay) : (d.modDelay port f).cyc = d.cyc := rfl
@[simp] theorem Dev.modDelay_intake (d : Dev) (port : Nat) (f : PortDelay → PortDelay) : (d.modDelay port f).intake = d.intake := rfl
@[simp] theorem Dev.modDelay_pods (d : Dev) (port : Nat) (f : PortDelay → PortDelay) : (d.modDelay port f).pods = d.pods := rfl
@[simp] theorem Dev.modDelay_movers (d : Dev) (port : Nat) (f : PortDelay → PortDelay) : (d.modDelay port f).movers = d.movers := rfl
@[simp] theorem Dev.modDelay_mem (d : Dev) (port : Nat) (f : PortDelay → PortDelay) : (d.modDelay port f).mem = d.mem := rfl
@[simp] theorem Dev.modDelay_ddr (d : Dev) (port : Nat) (f : PortDelay → PortDelay) : (d.modDelay port f).ddr = d.ddr := rfl
@[simp] theorem Dev.modDelay_prog (d : Dev) (port : Nat) (f : PortDelay → PortDelay) : (d.modDelay port f).prog = d.prog := rfl
@[simp] theorem Dev.modDelay_sched (d : Dev) (port : Nat) (f : PortDelay → PortDelay) : (d.modDelay port f).sched = d.sched := rfl
@[simp] theorem Dev.modDelay_sync (d : Dev) (port : Nat) (f : PortDelay → PortDelay) : (d.modDelay port f).sync = d.sync := rfl
@[simp] theorem Dev.modDelay_cover (d : Dev) (port : Nat) (f : PortDelay → PortDelay) : (d.modDelay port f).cover = d.cover := rfl
@[simp] theorem Dev.modDelay_fus (d : Dev) (port : Nat) (f : PortDelay → PortDelay) : (d.modDelay port f).fus = d.fus := rfl
@[simp] theorem Dev.modDelay_kv (d : Dev) (port : Nat) (f : PortDelay → PortDelay) : (d.modDelay port f).kv = d.kv := rfl
@[simp] theorem Dev.modDelay_solvers (d : Dev) (port : Nat) (f : PortDelay → PortDelay) : (d.modDelay port f).solvers = d.solvers := rfl
@[simp] theorem Dev.modDelay_hull (d : Dev) (port : Nat) (f : PortDelay → PortDelay) : (d.modDelay port f).hull = d.hull := rfl
@[simp] theorem Dev.modDelay_twin (d : Dev) (port : Nat) (f : PortDelay → PortDelay) : (d.modDelay port f).twin = d.twin := rfl
@[simp] theorem Dev.modDelay_palca (d : Dev) (port : Nat) (f : PortDelay → PortDelay) : (d.modDelay port f).palca = d.palca := rfl
@[simp] theorem Dev.modDelay_power (d : Dev) (port : Nat) (f : PortDelay → PortDelay) : (d.modDelay port f).power = d.power := rfl
@[simp] theorem Dev.modDelay_start (d : Dev) (port : Nat) (f : PortDelay → PortDelay) : (d.modDelay port f).start = d.start := rfl
@[simp] theorem Dev.modDelay_recd (d : Dev) (port : Nat) (f : PortDelay → PortDelay) : (d.modDelay port f).recd = d.recd := rfl
@[simp] theorem Dev.modDelay_sec (d : Dev) (port : Nat) (f : PortDelay → PortDelay) : (d.modDelay port f).sec = d.sec := rfl
@[simp] theorem Dev.modDelay_edge (d : Dev) (port : Nat) (f : PortDelay → PortDelay) : (d.modDelay port f).edge = d.edge := rfl
@[simp] theorem Dev.modDelay_out (d : Dev) (port : Nat) (f : PortDelay → PortDelay) : (d.modDelay port f).out = d.out := rfl
@[simp] theorem Dev.modDelay_free (d : Dev) (port : Nat) (f : PortDelay → PortDelay) : (d.modDelay port f).free = d.free := rfl
@[simp] theorem Dev.modTrig_code (d : Dev) (pin : Nat) (f : Trig → Trig) : (d.modTrig pin f).code = d.code := rfl
@[simp] theorem Dev.modTrig_log (d : Dev) (pin : Nat) (f : Trig → Trig) : (d.modTrig pin f).log = d.log := rfl
@[simp] theorem Dev.modTrig_dict (d : Dev) (pin : Nat) (f : Trig → Trig) : (d.modTrig pin f).dict = d.dict := rfl
@[simp] theorem Dev.modTrig_cyc (d : Dev) (pin : Nat) (f : Trig → Trig) : (d.modTrig pin f).cyc = d.cyc := rfl
@[simp] theorem Dev.modTrig_intake (d : Dev) (pin : Nat) (f : Trig → Trig) : (d.modTrig pin f).intake = d.intake := rfl
@[simp] theorem Dev.modTrig_pods (d : Dev) (pin : Nat) (f : Trig → Trig) : (d.modTrig pin f).pods = d.pods := rfl
@[simp] theorem Dev.modTrig_movers (d : Dev) (pin : Nat) (f : Trig → Trig) : (d.modTrig pin f).movers = d.movers := rfl
@[simp] theorem Dev.modTrig_mem (d : Dev) (pin : Nat) (f : Trig → Trig) : (d.modTrig pin f).mem = d.mem := rfl
@[simp] theorem Dev.modTrig_ddr (d : Dev) (pin : Nat) (f : Trig → Trig) : (d.modTrig pin f).ddr = d.ddr := rfl
@[simp] theorem Dev.modTrig_prog (d : Dev) (pin : Nat) (f : Trig → Trig) : (d.modTrig pin f).prog = d.prog := rfl
@[simp] theorem Dev.modTrig_sched (d : Dev) (pin : Nat) (f : Trig → Trig) : (d.modTrig pin f).sched = d.sched := rfl
@[simp] theorem Dev.modTrig_sync (d : Dev) (pin : Nat) (f : Trig → Trig) : (d.modTrig pin f).sync = d.sync := rfl
@[simp] theorem Dev.modTrig_cover (d : Dev) (pin : Nat) (f : Trig → Trig) : (d.modTrig pin f).cover = d.cover := rfl
@[simp] theorem Dev.modTrig_fus (d : Dev) (pin : Nat) (f : Trig → Trig) : (d.modTrig pin f).fus = d.fus := rfl
@[simp] theorem Dev.modTrig_kv (d : Dev) (pin : Nat) (f : Trig → Trig) : (d.modTrig pin f).kv = d.kv := rfl
@[simp] theorem Dev.modTrig_solvers (d : Dev) (pin : Nat) (f : Trig → Trig) : (d.modTrig pin f).solvers = d.solvers := rfl
@[simp] theorem Dev.modTrig_hull (d : Dev) (pin : Nat) (f : Trig → Trig) : (d.modTrig pin f).hull = d.hull := rfl
@[simp] theorem Dev.modTrig_twin (d : Dev) (pin : Nat) (f : Trig → Trig) : (d.modTrig pin f).twin = d.twin := rfl
@[simp] theorem Dev.modTrig_palca (d : Dev) (pin : Nat) (f : Trig → Trig) : (d.modTrig pin f).palca = d.palca := rfl
@[simp] theorem Dev.modTrig_power (d : Dev) (pin : Nat) (f : Trig → Trig) : (d.modTrig pin f).power = d.power := rfl
@[simp] theorem Dev.modTrig_start (d : Dev) (pin : Nat) (f : Trig → Trig) : (d.modTrig pin f).start = d.start := rfl
@[simp] theorem Dev.modTrig_recd (d : Dev) (pin : Nat) (f : Trig → Trig) : (d.modTrig pin f).recd = d.recd := rfl
@[simp] theorem Dev.modTrig_sec (d : Dev) (pin : Nat) (f : Trig → Trig) : (d.modTrig pin f).sec = d.sec := rfl
@[simp] theorem Dev.modTrig_edge (d : Dev) (pin : Nat) (f : Trig → Trig) : (d.modTrig pin f).edge = d.edge := rfl
@[simp] theorem Dev.modTrig_out (d : Dev) (pin : Nat) (f : Trig → Trig) : (d.modTrig pin f).out = d.out := rfl
@[simp] theorem Dev.modTrig_free (d : Dev) (pin : Nat) (f : Trig → Trig) : (d.modTrig pin f).free = d.free := rfl
@[simp] theorem Dev.modEdge_code (d : Dev) (f : Edge → Edge) : (d.modEdge f).code = d.code := rfl
@[simp] theorem Dev.modEdge_time (d : Dev) (f : Edge → Edge) : (d.modEdge f).time = d.time := rfl
@[simp] theorem Dev.modEdge_log (d : Dev) (f : Edge → Edge) : (d.modEdge f).log = d.log := rfl
@[simp] theorem Dev.modEdge_dict (d : Dev) (f : Edge → Edge) : (d.modEdge f).dict = d.dict := rfl
@[simp] theorem Dev.modEdge_cyc (d : Dev) (f : Edge → Edge) : (d.modEdge f).cyc = d.cyc := rfl
@[simp] theorem Dev.modEdge_intake (d : Dev) (f : Edge → Edge) : (d.modEdge f).intake = d.intake := rfl
@[simp] theorem Dev.modEdge_pods (d : Dev) (f : Edge → Edge) : (d.modEdge f).pods = d.pods := rfl
@[simp] theorem Dev.modEdge_movers (d : Dev) (f : Edge → Edge) : (d.modEdge f).movers = d.movers := rfl
@[simp] theorem Dev.modEdge_mem (d : Dev) (f : Edge → Edge) : (d.modEdge f).mem = d.mem := rfl
@[simp] theorem Dev.modEdge_ddr (d : Dev) (f : Edge → Edge) : (d.modEdge f).ddr = d.ddr := rfl
@[simp] theorem Dev.modEdge_prog (d : Dev) (f : Edge → Edge) : (d.modEdge f).prog = d.prog := rfl
@[simp] theorem Dev.modEdge_sched (d : Dev) (f : Edge → Edge) : (d.modEdge f).sched = d.sched := rfl
@[simp] theorem Dev.modEdge_sync (d : Dev) (f : Edge → Edge) : (d.modEdge f).sync = d.sync := rfl
@[simp] theorem Dev.modEdge_cover (d : Dev) (f : Edge → Edge) : (d.modEdge f).cover = d.cover := rfl
@[simp] theorem Dev.modEdge_fus (d : Dev) (f : Edge → Edge) : (d.modEdge f).fus = d.fus := rfl
@[simp] theorem Dev.modEdge_kv (d : Dev) (f : Edge → Edge) : (d.modEdge f).kv = d.kv := rfl
@[simp] theorem Dev.modEdge_solvers (d : Dev) (f : Edge → Edge) : (d.modEdge f).solvers = d.solvers := rfl
@[simp] theorem Dev.modEdge_hull (d : Dev) (f : Edge → Edge) : (d.modEdge f).hull = d.hull := rfl
@[simp] theorem Dev.modEdge_twin (d : Dev) (f : Edge → Edge) : (d.modEdge f).twin = d.twin := rfl
@[simp] theorem Dev.modEdge_palca (d : Dev) (f : Edge → Edge) : (d.modEdge f).palca = d.palca := rfl
@[simp] theorem Dev.modEdge_power (d : Dev) (f : Edge → Edge) : (d.modEdge f).power = d.power := rfl
@[simp] theorem Dev.modEdge_start (d : Dev) (f : Edge → Edge) : (d.modEdge f).start = d.start := rfl
@[simp] theorem Dev.modEdge_recd (d : Dev) (f : Edge → Edge) : (d.modEdge f).recd = d.recd := rfl
@[simp] theorem Dev.modEdge_sec (d : Dev) (f : Edge → Edge) : (d.modEdge f).sec = d.sec := rfl
@[simp] theorem Dev.modEdge_out (d : Dev) (f : Edge → Edge) : (d.modEdge f).out = d.out := rfl
@[simp] theorem Dev.modEdge_free (d : Dev) (f : Edge → Edge) : (d.modEdge f).free = d.free := rfl
@[simp] theorem Dev.modSq_code (d : Dev) (c : Nat) (f : SqChannel → SqChannel) : (d.modSq c f).code = d.code := rfl
@[simp] theorem Dev.modSq_time (d : Dev) (c : Nat) (f : SqChannel → SqChannel) : (d.modSq c f).time = d.time := rfl
@[simp] theorem Dev.modSq_log (d : Dev) (c : Nat) (f : SqChannel → SqChannel) : (d.modSq c f).log = d.log := rfl
@[simp] theorem Dev.modSq_dict (d : Dev) (c : Nat) (f : SqChannel → SqChannel) : (d.modSq c f).dict = d.dict := rfl
@[simp] theorem Dev.modSq_cyc (d : Dev) (c : Nat) (f : SqChannel → SqChannel) : (d.modSq c f).cyc = d.cyc := rfl
@[simp] theorem Dev.modSq_intake (d : Dev) (c : Nat) (f : SqChannel → SqChannel) : (d.modSq c f).intake = d.intake := rfl
@[simp] theorem Dev.modSq_pods (d : Dev) (c : Nat) (f : SqChannel → SqChannel) : (d.modSq c f).pods = d.pods := rfl
@[simp] theorem Dev.modSq_movers (d : Dev) (c : Nat) (f : SqChannel → SqChannel) : (d.modSq c f).movers = d.movers := rfl
@[simp] theorem Dev.modSq_mem (d : Dev) (c : Nat) (f : SqChannel → SqChannel) : (d.modSq c f).mem = d.mem := rfl
@[simp] theorem Dev.modSq_ddr (d : Dev) (c : Nat) (f : SqChannel → SqChannel) : (d.modSq c f).ddr = d.ddr := rfl
@[simp] theorem Dev.modSq_prog (d : Dev) (c : Nat) (f : SqChannel → SqChannel) : (d.modSq c f).prog = d.prog := rfl
@[simp] theorem Dev.modSq_sched (d : Dev) (c : Nat) (f : SqChannel → SqChannel) : (d.modSq c f).sched = d.sched := rfl
@[simp] theorem Dev.modSq_sync (d : Dev) (c : Nat) (f : SqChannel → SqChannel) : (d.modSq c f).sync = d.sync := rfl
@[simp] theorem Dev.modSq_cover (d : Dev) (c : Nat) (f : SqChannel → SqChannel) : (d.modSq c f).cover = d.cover := rfl
@[simp] theorem Dev.modSq_fus (d : Dev) (c : Nat) (f : SqChannel → SqChannel) : (d.modSq c f).fus = d.fus := rfl
@[simp] theorem Dev.modSq_kv (d : Dev) (c : Nat) (f : SqChannel → SqChannel) : (d.modSq c f).kv = d.kv := rfl
@[simp] theorem Dev.modSq_solvers (d : Dev) (c : Nat) (f : SqChannel → SqChannel) : (d.modSq c f).solvers = d.solvers := rfl
@[simp] theorem Dev.modSq_hull (d : Dev) (c : Nat) (f : SqChannel → SqChannel) : (d.modSq c f).hull = d.hull := rfl
@[simp] theorem Dev.modSq_twin (d : Dev) (c : Nat) (f : SqChannel → SqChannel) : (d.modSq c f).twin = d.twin := rfl
@[simp] theorem Dev.modSq_palca (d : Dev) (c : Nat) (f : SqChannel → SqChannel) : (d.modSq c f).palca = d.palca := rfl
@[simp] theorem Dev.modSq_power (d : Dev) (c : Nat) (f : SqChannel → SqChannel) : (d.modSq c f).power = d.power := rfl
@[simp] theorem Dev.modSq_start (d : Dev) (c : Nat) (f : SqChannel → SqChannel) : (d.modSq c f).start = d.start := rfl
@[simp] theorem Dev.modSq_recd (d : Dev) (c : Nat) (f : SqChannel → SqChannel) : (d.modSq c f).recd = d.recd := rfl
@[simp] theorem Dev.modSq_sec (d : Dev) (c : Nat) (f : SqChannel → SqChannel) : (d.modSq c f).sec = d.sec := rfl
@[simp] theorem Dev.modSq_out (d : Dev) (c : Nat) (f : SqChannel → SqChannel) : (d.modSq c f).out = d.out := rfl
@[simp] theorem Dev.modSq_free (d : Dev) (c : Nat) (f : SqChannel → SqChannel) : (d.modSq c f).free = d.free := rfl
@[simp] theorem Dev.modPair_code (d : Dev) (p : Nat) (f : InputPair → InputPair) : (d.modPair p f).code = d.code := rfl
@[simp] theorem Dev.modPair_time (d : Dev) (p : Nat) (f : InputPair → InputPair) : (d.modPair p f).time = d.time := rfl
@[simp] theorem Dev.modPair_log (d : Dev) (p : Nat) (f : InputPair → InputPair) : (d.modPair p f).log = d.log := rfl
@[simp] theorem Dev.modPair_dict (d : Dev) (p : Nat) (f : InputPair → InputPair) : (d.modPair p f).dict = d.dict := rfl
@[simp] theorem Dev.modPair_cyc (d : Dev) (p : Nat) (f : InputPair → InputPair) : (d.modPair p f).cyc = d.cyc := rfl
@[simp] theorem Dev.modPair_intake (d : Dev) (p : Nat) (f : InputPair → InputPair) : (d.modPair p f).intake = d.intake := rfl
@[simp] theorem Dev.modPair_pods (d : Dev) (p : Nat) (f : InputPair → InputPair) : (d.modPair p f).pods = d.pods := rfl
@[simp] theorem Dev.modPair_movers (d : Dev) (p : Nat) (f : InputPair → InputPair) : (d.modPair p f).movers = d.movers := rfl
@[simp] theorem Dev.modPair_mem (d : Dev) (p : Nat) (f : InputPair → InputPair) : (d.modPair p f).mem = d.mem := rfl
@[simp] theorem Dev.modPair_ddr (d : Dev) (p : Nat) (f : InputPair → InputPair) : (d.modPair p f).ddr = d.ddr := rfl
@[simp] theorem Dev.modPair_prog (d : Dev) (p : Nat) (f : InputPair → InputPair) : (d.modPair p f).prog = d.prog := rfl
@[simp] theorem Dev.modPair_sched (d : Dev) (p : Nat) (f : InputPair → InputPair) : (d.modPair p f).sched = d.sched := rfl
@[simp] theorem Dev.modPair_sync (d : Dev) (p : Nat) (f : InputPair → InputPair) : (d.modPair p f).sync = d.sync := rfl
@[simp] theorem Dev.modPair_cover (d : Dev) (p : Nat) (f : InputPair → InputPair) : (d.modPair p f).cover = d.cover := rfl
@[simp] theorem Dev.modPair_fus (d : Dev) (p : Nat) (f : InputPair → InputPair) : (d.modPair p f).fus = d.fus := rfl
@[simp] theorem Dev.modPair_kv (d : Dev) (p : Nat) (f : InputPair → InputPair) : (d.modPair p f).kv = d.kv := rfl
@[simp] theorem Dev.modPair_solvers (d : Dev) (p : Nat) (f : InputPair → InputPair) : (d.modPair p f).solvers = d.solvers := rfl
@[simp] theorem Dev.modPair_hull (d : Dev) (p : Nat) (f : InputPair → InputPair) : (d.modPair p f).hull = d.hull := rfl
@[simp] theorem Dev.modPair_twin (d : Dev) (p : Nat) (f : InputPair → InputPair) : (d.modPair p f).twin = d.twin := rfl
@[simp] theorem Dev.modPair_palca (d : Dev) (p : Nat) (f : InputPair → InputPair) : (d.modPair p f).palca = d.palca := rfl
@[simp] theorem Dev.modPair_power (d : Dev) (p : Nat) (f : InputPair → InputPair) : (d.modPair p f).power = d.power := rfl
@[simp] theorem Dev.modPair_start (d : Dev) (p : Nat) (f : InputPair → InputPair) : (d.modPair p f).start = d.start := rfl
@[simp] theorem Dev.modPair_recd (d : Dev) (p : Nat) (f : InputPair → InputPair) : (d.modPair p f).recd = d.recd := rfl
@[simp] theorem Dev.modPair_sec (d : Dev) (p : Nat) (f : InputPair → InputPair) : (d.modPair p f).sec = d.sec := rfl
@[simp] theorem Dev.modPair_out (d : Dev) (p : Nat) (f : InputPair → InputPair) : (d.modPair p f).out = d.out := rfl
@[simp] theorem Dev.modPair_free (d : Dev) (p : Nat) (f : InputPair → InputPair) : (d.modPair p f).free = d.free := rfl
@[simp] theorem Dev.modKv_code (d : Dev) (f : KvCache → KvCache) : (d.modKv f).code = d.code := rfl
@[simp] theorem Dev.modKv_time (d : Dev) (f : KvCache → KvCache) : (d.modKv f).time = d.time := rfl
@[simp] theorem Dev.modKv_log (d : Dev) (f : KvCache → KvCache) : (d.modKv f).log = d.log := rfl
@[simp] theorem Dev.modKv_dict (d : Dev) (f : KvCache → KvCache) : (d.modKv f).dict = d.dict := rfl
@[simp] theorem Dev.modKv_cyc (d : Dev) (f : KvCache → KvCache) : (d.modKv f).cyc = d.cyc := rfl
@[simp] theorem Dev.modKv_intake (d : Dev) (f : KvCache → KvCache) : (d.modKv f).intake = d.intake := rfl
@[simp] theorem Dev.modKv_pods (d : Dev) (f : KvCache → KvCache) : (d.modKv f).pods = d.pods := rfl
@[simp] theorem Dev.modKv_movers (d : Dev) (f : KvCache → KvCache) : (d.modKv f).movers = d.movers := rfl
@[simp] theorem Dev.modKv_mem (d : Dev) (f : KvCache → KvCache) : (d.modKv f).mem = d.mem := rfl
@[simp] theorem Dev.modKv_ddr (d : Dev) (f : KvCache → KvCache) : (d.modKv f).ddr = d.ddr := rfl
@[simp] theorem Dev.modKv_prog (d : Dev) (f : KvCache → KvCache) : (d.modKv f).prog = d.prog := rfl
@[simp] theorem Dev.modKv_sched (d : Dev) (f : KvCache → KvCache) : (d.modKv f).sched = d.sched := rfl
@[simp] theorem Dev.modKv_sync (d : Dev) (f : KvCache → KvCache) : (d.modKv f).sync = d.sync := rfl
@[simp] theorem Dev.modKv_cover (d : Dev) (f : KvCache → KvCache) : (d.modKv f).cover = d.cover := rfl
@[simp] theorem Dev.modKv_fus (d : Dev) (f : KvCache → KvCache) : (d.modKv f).fus = d.fus := rfl
@[simp] theorem Dev.modKv_solvers (d : Dev) (f : KvCache → KvCache) : (d.modKv f).solvers = d.solvers := rfl
@[simp] theorem Dev.modKv_hull (d : Dev) (f : KvCache → KvCache) : (d.modKv f).hull = d.hull := rfl
@[simp] theorem Dev.modKv_twin (d : Dev) (f : KvCache → KvCache) : (d.modKv f).twin = d.twin := rfl
@[simp] theorem Dev.modKv_palca (d : Dev) (f : KvCache → KvCache) : (d.modKv f).palca = d.palca := rfl
@[simp] theorem Dev.modKv_power (d : Dev) (f : KvCache → KvCache) : (d.modKv f).power = d.power := rfl
@[simp] theorem Dev.modKv_start (d : Dev) (f : KvCache → KvCache) : (d.modKv f).start = d.start := rfl
@[simp] theorem Dev.modKv_recd (d : Dev) (f : KvCache → KvCache) : (d.modKv f).recd = d.recd := rfl
@[simp] theorem Dev.modKv_sec (d : Dev) (f : KvCache → KvCache) : (d.modKv f).sec = d.sec := rfl
@[simp] theorem Dev.modKv_edge (d : Dev) (f : KvCache → KvCache) : (d.modKv f).edge = d.edge := rfl
@[simp] theorem Dev.modKv_out (d : Dev) (f : KvCache → KvCache) : (d.modKv f).out = d.out := rfl
@[simp] theorem Dev.modKv_free (d : Dev) (f : KvCache → KvCache) : (d.modKv f).free = d.free := rfl
@[simp] theorem Dev.modRecord_code (d : Dev) (g k : Nat) (f : KvRecord → KvRecord) : (d.modRecord g k f).code = d.code := rfl
@[simp] theorem Dev.modRecord_time (d : Dev) (g k : Nat) (f : KvRecord → KvRecord) : (d.modRecord g k f).time = d.time := rfl
@[simp] theorem Dev.modRecord_log (d : Dev) (g k : Nat) (f : KvRecord → KvRecord) : (d.modRecord g k f).log = d.log := rfl
@[simp] theorem Dev.modRecord_dict (d : Dev) (g k : Nat) (f : KvRecord → KvRecord) : (d.modRecord g k f).dict = d.dict := rfl
@[simp] theorem Dev.modRecord_cyc (d : Dev) (g k : Nat) (f : KvRecord → KvRecord) : (d.modRecord g k f).cyc = d.cyc := rfl
@[simp] theorem Dev.modRecord_intake (d : Dev) (g k : Nat) (f : KvRecord → KvRecord) : (d.modRecord g k f).intake = d.intake := rfl
@[simp] theorem Dev.modRecord_pods (d : Dev) (g k : Nat) (f : KvRecord → KvRecord) : (d.modRecord g k f).pods = d.pods := rfl
@[simp] theorem Dev.modRecord_movers (d : Dev) (g k : Nat) (f : KvRecord → KvRecord) : (d.modRecord g k f).movers = d.movers := rfl
@[simp] theorem Dev.modRecord_mem (d : Dev) (g k : Nat) (f : KvRecord → KvRecord) : (d.modRecord g k f).mem = d.mem := rfl
@[simp] theorem Dev.modRecord_ddr (d : Dev) (g k : Nat) (f : KvRecord → KvRecord) : (d.modRecord g k f).ddr = d.ddr := rfl
@[simp] theorem Dev.modRecord_prog (d : Dev) (g k : Nat) (f : KvRecord → KvRecord) : (d.modRecord g k f).prog = d.prog := rfl
@[simp] theorem Dev.modRecord_sched (d : Dev) (g k : Nat) (f : KvRecord → KvRecord) : (d.modRecord g k f).sched = d.sched := rfl
@[simp] theorem Dev.modRecord_sync (d : Dev) (g k : Nat) (f : KvRecord → KvRecord) : (d.modRecord g k f).sync = d.sync := rfl
@[simp] theorem Dev.modRecord_cover (d : Dev) (g k : Nat) (f : KvRecord → KvRecord) : (d.modRecord g k f).cover = d.cover := rfl
@[simp] theorem Dev.modRecord_fus (d : Dev) (g k : Nat) (f : KvRecord → KvRecord) : (d.modRecord g k f).fus = d.fus := rfl
@[simp] theorem Dev.modRecord_solvers (d : Dev) (g k : Nat) (f : KvRecord → KvRecord) : (d.modRecord g k f).solvers = d.solvers := rfl
@[simp] theorem Dev.modRecord_hull (d : Dev) (g k : Nat) (f : KvRecord → KvRecord) : (d.modRecord g k f).hull = d.hull := rfl
@[simp] theorem Dev.modRecord_twin (d : Dev) (g k : Nat) (f : KvRecord → KvRecord) : (d.modRecord g k f).twin = d.twin := rfl
@[simp] theorem Dev.modRecord_palca (d : Dev) (g k : Nat) (f : KvRecord → KvRecord) : (d.modRecord g k f).palca = d.palca := rfl
@[simp] theorem Dev.modRecord_power (d : Dev) (g k : Nat) (f : KvRecord → KvRecord) : (d.modRecord g k f).power = d.power := rfl
@[simp] theorem Dev.modRecord_start (d : Dev) (g k : Nat) (f : KvRecord → KvRecord) : (d.modRecord g k f).start = d.start := rfl
@[simp] theorem Dev.modRecord_recd (d : Dev) (g k : Nat) (f : KvRecord → KvRecord) : (d.modRecord g k f).recd = d.recd := rfl
@[simp] theorem Dev.modRecord_sec (d : Dev) (g k : Nat) (f : KvRecord → KvRecord) : (d.modRecord g k f).sec = d.sec := rfl
@[simp] theorem Dev.modRecord_edge (d : Dev) (g k : Nat) (f : KvRecord → KvRecord) : (d.modRecord g k f).edge = d.edge := rfl
@[simp] theorem Dev.modRecord_out (d : Dev) (g k : Nat) (f : KvRecord → KvRecord) : (d.modRecord g k f).out = d.out := rfl
@[simp] theorem Dev.modRecord_free (d : Dev) (g k : Nat) (f : KvRecord → KvRecord) : (d.modRecord g k f).free = d.free := rfl
@[simp] theorem Dev.modCand_code (d : Dev) (f : Candidate → Candidate) : (d.modCand f).code = d.code := rfl
@[simp] theorem Dev.modCand_time (d : Dev) (f : Candidate → Candidate) : (d.modCand f).time = d.time := rfl
@[simp] theorem Dev.modCand_log (d : Dev) (f : Candidate → Candidate) : (d.modCand f).log = d.log := rfl
@[simp] theorem Dev.modCand_dict (d : Dev) (f : Candidate → Candidate) : (d.modCand f).dict = d.dict := rfl
@[simp] theorem Dev.modCand_cyc (d : Dev) (f : Candidate → Candidate) : (d.modCand f).cyc = d.cyc := rfl
@[simp] theorem Dev.modCand_intake (d : Dev) (f : Candidate → Candidate) : (d.modCand f).intake = d.intake := rfl
@[simp] theorem Dev.modCand_pods (d : Dev) (f : Candidate → Candidate) : (d.modCand f).pods = d.pods := rfl
@[simp] theorem Dev.modCand_movers (d : Dev) (f : Candidate → Candidate) : (d.modCand f).movers = d.movers := rfl
@[simp] theorem Dev.modCand_mem (d : Dev) (f : Candidate → Candidate) : (d.modCand f).mem = d.mem := rfl
@[simp] theorem Dev.modCand_ddr (d : Dev) (f : Candidate → Candidate) : (d.modCand f).ddr = d.ddr := rfl
@[simp] theorem Dev.modCand_prog (d : Dev) (f : Candidate → Candidate) : (d.modCand f).prog = d.prog := rfl
@[simp] theorem Dev.modCand_sched (d : Dev) (f : Candidate → Candidate) : (d.modCand f).sched = d.sched := rfl
@[simp] theorem Dev.modCand_sync (d : Dev) (f : Candidate → Candidate) : (d.modCand f).sync = d.sync := rfl
@[simp] theorem Dev.modCand_cover (d : Dev) (f : Candidate → Candidate) : (d.modCand f).cover = d.cover := rfl
@[simp] theorem Dev.modCand_kv (d : Dev) (f : Candidate → Candidate) : (d.modCand f).kv = d.kv := rfl
@[simp] theorem Dev.modCand_solvers (d : Dev) (f : Candidate → Candidate) : (d.modCand f).solvers = d.solvers := rfl
@[simp] theorem Dev.modCand_hull (d : Dev) (f : Candidate → Candidate) : (d.modCand f).hull = d.hull := rfl
@[simp] theorem Dev.modCand_twin (d : Dev) (f : Candidate → Candidate) : (d.modCand f).twin = d.twin := rfl
@[simp] theorem Dev.modCand_palca (d : Dev) (f : Candidate → Candidate) : (d.modCand f).palca = d.palca := rfl
@[simp] theorem Dev.modCand_power (d : Dev) (f : Candidate → Candidate) : (d.modCand f).power = d.power := rfl
@[simp] theorem Dev.modCand_start (d : Dev) (f : Candidate → Candidate) : (d.modCand f).start = d.start := rfl
@[simp] theorem Dev.modCand_recd (d : Dev) (f : Candidate → Candidate) : (d.modCand f).recd = d.recd := rfl
@[simp] theorem Dev.modCand_sec (d : Dev) (f : Candidate → Candidate) : (d.modCand f).sec = d.sec := rfl
@[simp] theorem Dev.modCand_edge (d : Dev) (f : Candidate → Candidate) : (d.modCand f).edge = d.edge := rfl
@[simp] theorem Dev.modCand_out (d : Dev) (f : Candidate → Candidate) : (d.modCand f).out = d.out := rfl
@[simp] theorem Dev.modCand_free (d : Dev) (f : Candidate → Candidate) : (d.modCand f).free = d.free := rfl
@[simp] theorem Dev.setFusN_code (d : Dev) (x : Fusion) : (d.setFusN x).code = d.code := by unfold Dev.setFusN; split <;> rfl
@[simp] theorem Dev.setFusN_time (d : Dev) (x : Fusion) : (d.setFusN x).time = d.time := by unfold Dev.setFusN; split <;> rfl
@[simp] theorem Dev.setFusN_log (d : Dev) (x : Fusion) : (d.setFusN x).log = d.log := by unfold Dev.setFusN; split <;> rfl
@[simp] theorem Dev.setFusN_dict (d : Dev) (x : Fusion) : (d.setFusN x).dict = d.dict := by unfold Dev.setFusN; split <;> rfl
@[simp] theorem Dev.setFusN_cyc (d : Dev) (x : Fusion) : (d.setFusN x).cyc = d.cyc := by unfold Dev.setFusN; split <;> rfl
@[simp] theorem Dev.setFusN_intake (d : Dev) (x : Fusion) : (d.setFusN x).intake = d.intake := by unfold Dev.setFusN; split <;> rfl
@[simp] theorem Dev.setFusN_pods (d : Dev) (x : Fusion) : (d.setFusN x).pods = d.pods := by unfold Dev.setFusN; split <;> rfl
@[simp] theorem Dev.setFusN_movers (d : Dev) (x : Fusion) : (d.setFusN x).movers = d.movers := by unfold Dev.setFusN; split <;> rfl
@[simp] theorem Dev.setFusN_mem (d : Dev) (x : Fusion) : (d.setFusN x).mem = d.mem := by unfold Dev.setFusN; split <;> rfl
@[simp] theorem Dev.setFusN_ddr (d : Dev) (x : Fusion) : (d.setFusN x).ddr = d.ddr := by unfold Dev.setFusN; split <;> rfl
@[simp] theorem Dev.setFusN_prog (d : Dev) (x : Fusion) : (d.setFusN x).prog = d.prog := by unfold Dev.setFusN; split <;> rfl
@[simp] theorem Dev.setFusN_sched (d : Dev) (x : Fusion) : (d.setFusN x).sched = d.sched := by unfold Dev.setFusN; split <;> rfl
@[simp] theorem Dev.setFusN_sync (d : Dev) (x : Fusion) : (d.setFusN x).sync = d.sync := by unfold Dev.setFusN; split <;> rfl
@[simp] theorem Dev.setFusN_cover (d : Dev) (x : Fusion) : (d.setFusN x).cover = d.cover := by unfold Dev.setFusN; split <;> rfl
@[simp] theorem Dev.setFusN_kv (d : Dev) (x : Fusion) : (d.setFusN x).kv = d.kv := by unfold Dev.setFusN; split <;> rfl
@[simp] theorem Dev.setFusN_solvers (d : Dev) (x : Fusion) : (d.setFusN x).solvers = d.solvers := by unfold Dev.setFusN; split <;> rfl
@[simp] theorem Dev.setFusN_hull (d : Dev) (x : Fusion) : (d.setFusN x).hull = d.hull := by unfold Dev.setFusN; split <;> rfl
@[simp] theorem Dev.setFusN_twin (d : Dev) (x : Fusion) : (d.setFusN x).twin = d.twin := by unfold Dev.setFusN; split <;> rfl
@[simp] theorem Dev.setFusN_palca (d : Dev) (x : Fusion) : (d.setFusN x).palca = d.palca := by unfold Dev.setFusN; split <;> rfl
@[simp] theorem Dev.setFusN_power (d : Dev) (x : Fusion) : (d.setFusN x).power = d.power := by unfold Dev.setFusN; split <;> rfl
@[simp] theorem Dev.setFusN_start (d : Dev) (x : Fusion) : (d.setFusN x).start = d.start := by unfold Dev.setFusN; split <;> rfl
@[simp] theorem Dev.setFusN_recd (d : Dev) (x : Fusion) : (d.setFusN x).recd = d.recd := by unfold Dev.setFusN; split <;> rfl
@[simp] theorem Dev.setFusN_sec (d : Dev) (x : Fusion) : (d.setFusN x).sec = d.sec := by unfold Dev.setFusN; split <;> rfl
@[simp] theorem Dev.setFusN_edge (d : Dev) (x : Fusion) : (d.setFusN x).edge = d.edge := by unfold Dev.setFusN; split <;> rfl
@[simp] theorem Dev.setFusN_out (d : Dev) (x : Fusion) : (d.setFusN x).out = d.out := by unfold Dev.setFusN; split <;> rfl
@[simp] theorem Dev.setFusN_free (d : Dev) (x : Fusion) : (d.setFusN x).free = d.free := by unfold Dev.setFusN; split <;> rfl
@[simp] theorem Dev.modFusN_code (d : Dev) (f : Fusion → Fusion) : (d.modFusN f).code = d.code := by unfold Dev.modFusN; simp
@[simp] theorem Dev.modFusN_time (d : Dev) (f : Fusion → Fusion) : (d.modFusN f).time = d.time := by unfold Dev.modFusN; simp
@[simp] theorem Dev.modFusN_log (d : Dev) (f : Fusion → Fusion) : (d.modFusN f).log = d.log := by unfold Dev.modFusN; simp
@[simp] theorem Dev.modFusN_dict (d : Dev) (f : Fusion → Fusion) : (d.modFusN f).dict = d.dict := by unfold Dev.modFusN; simp
@[simp] theorem Dev.modFusN_cyc (d : Dev) (f : Fusion → Fusion) : (d.modFusN f).cyc = d.cyc := by unfold Dev.modFusN; simp
@[simp] theorem Dev.modFusN_intake (d : Dev) (f : Fusion → Fusion) : (d.modFusN f).intake = d.intake := by unfold Dev.modFusN; simp
@[simp] theorem Dev.modFusN_pods (d : Dev) (f : Fusion → Fusion) : (d.modFusN f).pods = d.pods := by unfold Dev.modFusN; simp
@[simp] theorem Dev.modFusN_movers (d : Dev) (f : Fusion → Fusion) : (d.modFusN f).movers = d.movers := by unfold Dev.modFusN; simp
@[simp] theorem Dev.modFusN_mem (d : Dev) (f : Fusion → Fusion) : (d.modFusN f).mem = d.mem := by unfold Dev.modFusN; simp
@[simp] theorem Dev.modFusN_ddr (d : Dev) (f : Fusion → Fusion) : (d.modFusN f).ddr = d.ddr := by unfold Dev.modFusN; simp
@[simp] theorem Dev.modFusN_prog (d : Dev) (f : Fusion → Fusion) : (d.modFusN f).prog = d.prog := by unfold Dev.modFusN; simp
@[simp] theorem Dev.modFusN_sched (d : Dev) (f : Fusion → Fusion) : (d.modFusN f).sched = d.sched := by unfold Dev.modFusN; simp
@[simp] theorem Dev.modFusN_sync (d : Dev) (f : Fusion → Fusion) : (d.modFusN f).sync = d.sync := by unfold Dev.modFusN; simp
@[simp] theorem Dev.modFusN_cover (d : Dev) (f : Fusion → Fusion) : (d.modFusN f).cover = d.cover := by unfold Dev.modFusN; simp
@[simp] theorem Dev.modFusN_kv (d : Dev) (f : Fusion → Fusion) : (d.modFusN f).kv = d.kv := by unfold Dev.modFusN; simp
@[simp] theorem Dev.modFusN_solvers (d : Dev) (f : Fusion → Fusion) : (d.modFusN f).solvers = d.solvers := by unfold Dev.modFusN; simp
@[simp] theorem Dev.modFusN_hull (d : Dev) (f : Fusion → Fusion) : (d.modFusN f).hull = d.hull := by unfold Dev.modFusN; simp
@[simp] theorem Dev.modFusN_twin (d : Dev) (f : Fusion → Fusion) : (d.modFusN f).twin = d.twin := by unfold Dev.modFusN; simp
@[simp] theorem Dev.modFusN_palca (d : Dev) (f : Fusion → Fusion) : (d.modFusN f).palca = d.palca := by unfold Dev.modFusN; simp
@[simp] theorem Dev.modFusN_power (d : Dev) (f : Fusion → Fusion) : (d.modFusN f).power = d.power := by unfold Dev.modFusN; simp
@[simp] theorem Dev.modFusN_start (d : Dev) (f : Fusion → Fusion) : (d.modFusN f).start = d.start := by unfold Dev.modFusN; simp
@[simp] theorem Dev.modFusN_recd (d : Dev) (f : Fusion → Fusion) : (d.modFusN f).recd = d.recd := by unfold Dev.modFusN; simp
@[simp] theorem Dev.modFusN_sec (d : Dev) (f : Fusion → Fusion) : (d.modFusN f).sec = d.sec := by unfold Dev.modFusN; simp
@[simp] theorem Dev.modFusN_edge (d : Dev) (f : Fusion → Fusion) : (d.modFusN f).edge = d.edge := by unfold Dev.modFusN; simp
@[simp] theorem Dev.modFusN_out (d : Dev) (f : Fusion → Fusion) : (d.modFusN f).out = d.out := by unfold Dev.modFusN; simp
@[simp] theorem Dev.modFusN_free (d : Dev) (f : Fusion → Fusion) : (d.modFusN f).free = d.free := by unfold Dev.modFusN; simp
@[simp] theorem Dev.modPkgSlot_code (d : Dev) (s : Nat) (f : PkgSlot → PkgSlot) : (d.modPkgSlot s f).code = d.code := rfl
@[simp] theorem Dev.modPkgSlot_time (d : Dev) (s : Nat) (f : PkgSlot → PkgSlot) : (d.modPkgSlot s f).time = d.time := rfl
@[simp] theorem Dev.modPkgSlot_log (d : Dev) (s : Nat) (f : PkgSlot → PkgSlot) : (d.modPkgSlot s f).log = d.log := rfl
@[simp] theorem Dev.modPkgSlot_dict (d : Dev) (s : Nat) (f : PkgSlot → PkgSlot) : (d.modPkgSlot s f).dict = d.dict := rfl
@[simp] theorem Dev.modPkgSlot_cyc (d : Dev) (s : Nat) (f : PkgSlot → PkgSlot) : (d.modPkgSlot s f).cyc = d.cyc := rfl
@[simp] theorem Dev.modPkgSlot_intake (d : Dev) (s : Nat) (f : PkgSlot → PkgSlot) : (d.modPkgSlot s f).intake = d.intake := rfl
@[simp] theorem Dev.modPkgSlot_pods (d : Dev) (s : Nat) (f : PkgSlot → PkgSlot) : (d.modPkgSlot s f).pods = d.pods := rfl
@[simp] theorem Dev.modPkgSlot_movers (d : Dev) (s : Nat) (f : PkgSlot → PkgSlot) : (d.modPkgSlot s f).movers = d.movers := rfl
@[simp] theorem Dev.modPkgSlot_mem (d : Dev) (s : Nat) (f : PkgSlot → PkgSlot) : (d.modPkgSlot s f).mem = d.mem := rfl
@[simp] theorem Dev.modPkgSlot_ddr (d : Dev) (s : Nat) (f : PkgSlot → PkgSlot) : (d.modPkgSlot s f).ddr = d.ddr := rfl
@[simp] theorem Dev.modPkgSlot_sched (d : Dev) (s : Nat) (f : PkgSlot → PkgSlot) : (d.modPkgSlot s f).sched = d.sched := rfl
@[simp] theorem Dev.modPkgSlot_sync (d : Dev) (s : Nat) (f : PkgSlot → PkgSlot) : (d.modPkgSlot s f).sync = d.sync := rfl
@[simp] theorem Dev.modPkgSlot_cover (d : Dev) (s : Nat) (f : PkgSlot → PkgSlot) : (d.modPkgSlot s f).cover = d.cover := rfl
@[simp] theorem Dev.modPkgSlot_fus (d : Dev) (s : Nat) (f : PkgSlot → PkgSlot) : (d.modPkgSlot s f).fus = d.fus := rfl
@[simp] theorem Dev.modPkgSlot_kv (d : Dev) (s : Nat) (f : PkgSlot → PkgSlot) : (d.modPkgSlot s f).kv = d.kv := rfl
@[simp] theorem Dev.modPkgSlot_solvers (d : Dev) (s : Nat) (f : PkgSlot → PkgSlot) : (d.modPkgSlot s f).solvers = d.solvers := rfl
@[simp] theorem Dev.modPkgSlot_hull (d : Dev) (s : Nat) (f : PkgSlot → PkgSlot) : (d.modPkgSlot s f).hull = d.hull := rfl
@[simp] theorem Dev.modPkgSlot_twin (d : Dev) (s : Nat) (f : PkgSlot → PkgSlot) : (d.modPkgSlot s f).twin = d.twin := rfl
@[simp] theorem Dev.modPkgSlot_palca (d : Dev) (s : Nat) (f : PkgSlot → PkgSlot) : (d.modPkgSlot s f).palca = d.palca := rfl
@[simp] theorem Dev.modPkgSlot_power (d : Dev) (s : Nat) (f : PkgSlot → PkgSlot) : (d.modPkgSlot s f).power = d.power := rfl
@[simp] theorem Dev.modPkgSlot_start (d : Dev) (s : Nat) (f : PkgSlot → PkgSlot) : (d.modPkgSlot s f).start = d.start := rfl
@[simp] theorem Dev.modPkgSlot_recd (d : Dev) (s : Nat) (f : PkgSlot → PkgSlot) : (d.modPkgSlot s f).recd = d.recd := rfl
@[simp] theorem Dev.modPkgSlot_sec (d : Dev) (s : Nat) (f : PkgSlot → PkgSlot) : (d.modPkgSlot s f).sec = d.sec := rfl
@[simp] theorem Dev.modPkgSlot_edge (d : Dev) (s : Nat) (f : PkgSlot → PkgSlot) : (d.modPkgSlot s f).edge = d.edge := rfl
@[simp] theorem Dev.modPkgSlot_out (d : Dev) (s : Nat) (f : PkgSlot → PkgSlot) : (d.modPkgSlot s f).out = d.out := rfl
@[simp] theorem Dev.modPkgSlot_free (d : Dev) (s : Nat) (f : PkgSlot → PkgSlot) : (d.modPkgSlot s f).free = d.free := rfl
@[simp] theorem Dev.tickOnce_code (d : Dev) : (d.tickOnce).code = d.code := by unfold Dev.tickOnce; split <;> rfl
@[simp] theorem Dev.tickOnce_log (d : Dev) : (d.tickOnce).log = d.log := by unfold Dev.tickOnce; split <;> rfl
@[simp] theorem Dev.tickOnce_dict (d : Dev) : (d.tickOnce).dict = d.dict := by unfold Dev.tickOnce; split <;> rfl
@[simp] theorem Dev.tickOnce_cyc (d : Dev) : (d.tickOnce).cyc = d.cyc := by unfold Dev.tickOnce; split <;> rfl
@[simp] theorem Dev.tickOnce_intake (d : Dev) : (d.tickOnce).intake = d.intake := by unfold Dev.tickOnce; split <;> rfl
@[simp] theorem Dev.tickOnce_pods (d : Dev) : (d.tickOnce).pods = d.pods := by unfold Dev.tickOnce; split <;> rfl
@[simp] theorem Dev.tickOnce_movers (d : Dev) : (d.tickOnce).movers = d.movers := by unfold Dev.tickOnce; split <;> rfl
@[simp] theorem Dev.tickOnce_mem (d : Dev) : (d.tickOnce).mem = d.mem := by unfold Dev.tickOnce; split <;> rfl
@[simp] theorem Dev.tickOnce_ddr (d : Dev) : (d.tickOnce).ddr = d.ddr := by unfold Dev.tickOnce; split <;> rfl
@[simp] theorem Dev.tickOnce_prog (d : Dev) : (d.tickOnce).prog = d.prog := by unfold Dev.tickOnce; split <;> rfl
@[simp] theorem Dev.tickOnce_sched (d : Dev) : (d.tickOnce).sched = d.sched := by unfold Dev.tickOnce; split <;> rfl
@[simp] theorem Dev.tickOnce_sync (d : Dev) : (d.tickOnce).sync = d.sync := by unfold Dev.tickOnce; split <;> rfl
@[simp] theorem Dev.tickOnce_cover (d : Dev) : (d.tickOnce).cover = d.cover := by unfold Dev.tickOnce; split <;> rfl
@[simp] theorem Dev.tickOnce_fus (d : Dev) : (d.tickOnce).fus = d.fus := by unfold Dev.tickOnce; split <;> rfl
@[simp] theorem Dev.tickOnce_kv (d : Dev) : (d.tickOnce).kv = d.kv := by unfold Dev.tickOnce; split <;> rfl
@[simp] theorem Dev.tickOnce_solvers (d : Dev) : (d.tickOnce).solvers = d.solvers := by unfold Dev.tickOnce; split <;> rfl
@[simp] theorem Dev.tickOnce_hull (d : Dev) : (d.tickOnce).hull = d.hull := by unfold Dev.tickOnce; split <;> rfl
@[simp] theorem Dev.tickOnce_twin (d : Dev) : (d.tickOnce).twin = d.twin := by unfold Dev.tickOnce; split <;> rfl
@[simp] theorem Dev.tickOnce_palca (d : Dev) : (d.tickOnce).palca = d.palca := by unfold Dev.tickOnce; split <;> rfl
@[simp] theorem Dev.tickOnce_power (d : Dev) : (d.tickOnce).power = d.power := by unfold Dev.tickOnce; split <;> rfl
@[simp] theorem Dev.tickOnce_start (d : Dev) : (d.tickOnce).start = d.start := by unfold Dev.tickOnce; split <;> rfl
@[simp] theorem Dev.tickOnce_recd (d : Dev) : (d.tickOnce).recd = d.recd := by unfold Dev.tickOnce; split <;> rfl
@[simp] theorem Dev.tickOnce_sec (d : Dev) : (d.tickOnce).sec = d.sec := by unfold Dev.tickOnce; split <;> rfl
@[simp] theorem Dev.tickOnce_edge (d : Dev) : (d.tickOnce).edge = d.edge := by unfold Dev.tickOnce; split <;> rfl
@[simp] theorem Dev.tickOnce_out (d : Dev) : (d.tickOnce).out = d.out := by unfold Dev.tickOnce; split <;> rfl
@[simp] theorem Dev.tickOnce_free (d : Dev) : (d.tickOnce).free = d.free := by unfold Dev.tickOnce; split <;> rfl
@[simp] theorem Dev.setObj_dict (d : Dev) (idx sub : Nat) (v : List Nat) : (d.setObj idx sub v).dict = { d.dict with vals := kset [] d.dict.vals (okey idx sub) v } := rfl
@[simp] theorem Dev.occurN_dict (d : Dev) (idx sub n : Nat) : (d.occurN idx sub n).dict = { d.dict with evs := kmod Ev.reset d.dict.evs (okey idx sub) (fun e => { pending := true, count := (e.count + n) % 2 ^ 32 }) } := rfl
@[simp] theorem Dev.clearEv_dict (d : Dev) (idx sub : Nat) : (d.clearEv idx sub).dict = { d.dict with evs := kmod Ev.reset d.dict.evs (okey idx sub) (fun e => { e with pending := false }) } := rfl
@[simp] theorem Dev.countN_dict (d : Dev) (idx sub n : Nat) : (d.countN idx sub n).dict = { d.dict with counters := kmod 0 d.dict.counters (okey idx sub) (fun c => satU 64 (c + n)) } := rfl
@[simp] theorem Dev.emit_out (d : Dev) (k : OutKind) (unit : Nat) (data : List Nat) : (d.emit k unit data).out = { kind := k, unit := unit, tag := 0, data := data } :: d.out := rfl
@[simp] theorem Dev.bumpFree_free (d : Dev) : (d.bumpFree).free = d.free + 1 := rfl
@[simp] theorem Dev.modSlot_intake (d : Dev) (n : Nat) (f : Slot → Slot) : (d.modSlot n f).intake = { d.intake with slots := kmod Slot.reset d.intake.slots n f } := rfl
@[simp] theorem Dev.modKin_intake (d : Dev) (c : Nat) (f : Kin → Kin) : (d.modKin c f).intake = { d.intake with kins := kmod Kin.reset d.intake.kins c f } := rfl
@[simp] theorem Dev.modPod_pods (d : Dev) (p : Nat) (f : Pod → Pod) : (d.modPod p f).pods = { d.pods with pods := kmod Pod.reset d.pods.pods p f } := rfl
@[simp] theorem Dev.modMover_movers (d : Dev) (m : Nat) (f : Mover → Mover) : (d.modMover m f).movers = kmod Mover.reset d.movers m f := rfl
@[simp] theorem Dev.modSolver_solvers (d : Dev) (e : Nat) (f : Solver → Solver) : (d.modSolver e f).solvers = kmod Solver.reset d.solvers e f := rfl
@[simp] theorem Dev.modPass_sched (d : Dev) (t : Nat) (f : Pass → Pass) : (d.modPass t f).sched = { d.sched with passes := kmod Pass.reset d.sched.passes t f } := rfl
@[simp] theorem Dev.modCover_cover (d : Dev) (kind unit : Nat) (f : Coverage → Coverage) : (d.modCover kind unit f).cover = kmod Coverage.reset d.cover (32 * kind + unit) f := rfl
@[simp] theorem Dev.modPower_power (d : Dev) (f : Power → Power) : (d.modPower f).power = f d.power := rfl
@[simp] theorem Dev.modSec_sec (d : Dev) (f : Security → Security) : (d.modSec f).sec = f d.sec := rfl
@[simp] theorem Dev.modStart_start (d : Dev) (f : Startup → Startup) : (d.modStart f).start = f d.start := rfl
@[simp] theorem Dev.modRec_recd (d : Dev) (f : Recorder → Recorder) : (d.modRec f).recd = f d.recd := rfl
@[simp] theorem Dev.modEdge_edge (d : Dev) (f : Edge → Edge) : (d.modEdge f).edge = f d.edge := rfl
@[simp] theorem Dev.modKv_kv (d : Dev) (f : KvCache → KvCache) : (d.modKv f).kv = f d.kv := rfl
@[simp] theorem Dev.setSync_sync (d : Dev) (o : Nat) (w : Word) : (d.setSync o w).sync = { d.sync with objs := kset 0 d.sync.objs o w } := rfl
@[simp] theorem Dev.setTimeState_time (d : Dev) : (d.setTimeState).time = { d.time with state := d.timeState } := rfl
@[simp] theorem Dev.modDelay_time (d : Dev) (port : Nat) (f : PortDelay → PortDelay) : (d.modDelay port f).time = { d.time with delays := kmod PortDelay.reset d.time.delays port f } := rfl
@[simp] theorem Dev.modTrig_time (d : Dev) (pin : Nat) (f : Trig → Trig) : (d.modTrig pin f).time = { d.time with trigs := kmod Trig.reset d.time.trigs pin f } := rfl
@[simp] theorem Dev.modCand_fus (d : Dev) (f : Candidate → Candidate) : (d.modCand f).fus = { d.fus with cand := f d.fus.cand } := rfl
@[simp] theorem Dev.modPkgSlot_prog (d : Dev) (s : Nat) (f : PkgSlot → PkgSlot) : (d.modPkgSlot s f).prog = { d.prog with slots := kmod PkgSlot.reset d.prog.slots s f } := rfl

/-! Entries of the stores. -/

@[simp] theorem Dev.modSlot_slot (d : Dev) (n : Nat) (f : Slot → Slot) : (d.modSlot n f).slot n = f (d.slot n) := kget_kset_same
theorem Dev.modSlot_slot_other (d : Dev) (n : Nat) (f : Slot → Slot) (j : Nat) (h : j ≠ n) : (d.modSlot n f).slot j = d.slot j := kget_kset_other h
@[simp] theorem Dev.modKin_kin (d : Dev) (c : Nat) (f : Kin → Kin) : (d.modKin c f).kin c = f (d.kin c) := kget_kset_same
theorem Dev.modKin_kin_other (d : Dev) (c : Nat) (f : Kin → Kin) (j : Nat) (h : j ≠ c) : (d.modKin c f).kin j = d.kin j := kget_kset_other h
@[simp] theorem Dev.modPod_pod (d : Dev) (p : Nat) (f : Pod → Pod) : (d.modPod p f).pod p = f (d.pod p) := kget_kset_same
theorem Dev.modPod_pod_other (d : Dev) (p : Nat) (f : Pod → Pod) (j : Nat) (h : j ≠ p) : (d.modPod p f).pod j = d.pod j := kget_kset_other h
@[simp] theorem Dev.modMover_mover (d : Dev) (m : Nat) (f : Mover → Mover) : (d.modMover m f).mover m = f (d.mover m) := kget_kset_same
theorem Dev.modMover_mover_other (d : Dev) (m : Nat) (f : Mover → Mover) (j : Nat) (h : j ≠ m) : (d.modMover m f).mover j = d.mover j := kget_kset_other h
@[simp] theorem Dev.modSolver_solver (d : Dev) (e : Nat) (f : Solver → Solver) : (d.modSolver e f).solver e = f (d.solver e) := kget_kset_same
theorem Dev.modSolver_solver_other (d : Dev) (e : Nat) (f : Solver → Solver) (j : Nat) (h : j ≠ e) : (d.modSolver e f).solver j = d.solver j := kget_kset_other h
@[simp] theorem Dev.modPass_pass (d : Dev) (t : Nat) (f : Pass → Pass) : (d.modPass t f).pass t = f (d.pass t) := kget_kset_same
theorem Dev.modPass_pass_other (d : Dev) (t : Nat) (f : Pass → Pass) (j : Nat) (h : j ≠ t) : (d.modPass t f).pass j = d.pass j := kget_kset_other h
@[simp] theorem Dev.modDelay_delay (d : Dev) (port : Nat) (f : PortDelay → PortDelay) : (d.modDelay port f).delay port = f (d.delay port) := kget_kset_same
theorem Dev.modDelay_delay_other (d : Dev) (port : Nat) (f : PortDelay → PortDelay) (j : Nat) (h : j ≠ port) : (d.modDelay port f).delay j = d.delay j := kget_kset_other h
@[simp] theorem Dev.modTrig_trig (d : Dev) (pin : Nat) (f : Trig → Trig) : (d.modTrig pin f).trig pin = f (d.trig pin) := kget_kset_same
theorem Dev.modTrig_trig_other (d : Dev) (pin : Nat) (f : Trig → Trig) (j : Nat) (h : j ≠ pin) : (d.modTrig pin f).trig j = d.trig j := kget_kset_other h
@[simp] theorem Dev.modSq_sq (d : Dev) (c : Nat) (f : SqChannel → SqChannel) : (d.modSq c f).sq c = f (d.sq c) := kget_kset_same
theorem Dev.modSq_sq_other (d : Dev) (c : Nat) (f : SqChannel → SqChannel) (j : Nat) (h : j ≠ c) : (d.modSq c f).sq j = d.sq j := kget_kset_other h
@[simp] theorem Dev.modBlock_block (d : Dev) (b : Nat) (f : NandBlock → NandBlock) : (d.modBlock b f).block b = f (d.block b) := kget_kset_same
theorem Dev.modBlock_block_other (d : Dev) (b : Nat) (f : NandBlock → NandBlock) (j : Nat) (h : j ≠ b) : (d.modBlock b f).block j = d.block j := kget_kset_other h
@[simp] theorem Dev.modPkgSlot_pkgSlot (d : Dev) (s : Nat) (f : PkgSlot → PkgSlot) : (d.modPkgSlot s f).pkgSlot s = f (d.pkgSlot s) := kget_kset_same
theorem Dev.modPkgSlot_pkgSlot_other (d : Dev) (s : Nat) (f : PkgSlot → PkgSlot) (j : Nat) (h : j ≠ s) : (d.modPkgSlot s f).pkgSlot j = d.pkgSlot j := kget_kset_other h
@[simp] theorem Dev.setSync_syncObj (d : Dev) (o : Nat) (w : Word) : (d.setSync o w).syncObj o = w := kget_kset_same
theorem Dev.setSync_syncObj_other (d : Dev) (o : Nat) (w : Word) (j : Nat) (h : j ≠ o) : (d.setSync o w).syncObj j = d.syncObj j := kget_kset_other h
theorem Dev.occurN_ev (d : Dev) (idx sub n : Nat) : (d.occurN idx sub n).ev idx sub = { pending := true, count := ((d.ev idx sub).count + n) % 2 ^ 32 } := by unfold Dev.ev Dev.occurN kmod; simp only [kget_kset_same]
theorem Dev.clearEv_ev (d : Dev) (idx sub : Nat) : (d.clearEv idx sub).ev idx sub = { (d.ev idx sub) with pending := false } := kget_kset_same
theorem Dev.countN_counter (d : Dev) (idx sub n : Nat) : (d.countN idx sub n).counter idx sub = satU 64 (d.counter idx sub + n) := kget_kset_same

end Sys2Proof.Machine
end

