-- ==== Sys2Proof/Laws/Tier.lean ====
section
/-! SUPPORT. The output tier: what a demand does to it. -/

namespace Sys2Proof.Machine

theorem Dev.showTier_tier (d : Dev) : d.showTier.hull.tier = d.hull.tier := by
  have k : ∀ e : Dev, e.sendStatus.hull.tier = e.hull.tier := by
    intro e
    have f1 : ∀ (ps : List Nat) (l : List Nat) (e : Dev), (ps.foldl (fun d p => d.emitHost 3 .statusPdu p l) e).hull = e.hull := by
      intro ps l
      induction ps with
      | nil => exact fun e => rfl
      | cons p t ih => exact fun e => (ih _).trans ((Dev.emitHost_frame _ _ _ _ _) .hull (by decide))
    have f2 : ∀ (b : List Nat) (hs : List (List Nat)) (e : Dev),
        (hs.foldl (fun d x => d.palca.up.foldl (fun d p => d.emitHost 3 .statusPdu p (x.take 16 ++ b)) d) e).hull = e.hull := by
      intro b hs
      induction hs with
      | nil => exact fun e => rfl
      | cons x t ih => exact fun e => (ih _).trans (f1 _ _ _)
    unfold Dev.sendStatus
    split
    · rfl
    · dsimp only
      rw [f2]
  unfold Dev.showTier
  dsimp only
  rw [k, show ∀ e : Dev, e.sendDecision.hull = e.hull from fun e => (Dev.sendDecision_frame e) .hull (by decide),
    show ∀ e : Dev, e.sendCommand.hull = e.hull from fun e => (Dev.sendCommand_frame e) .hull (by decide)]

/-- R334: the output tier after a demanded tier has been taken up. -/
theorem Dev.retier_tier (d : Dev) (cause : Nat) (cat0 : Bool) : (d.retier cause cat0).hull.tier = max d.hull.tier d.demanded := by
  unfold Dev.retier
  dsimp only
  split
  · rename_i h
    rw [Dev.showTier_tier, Nat.max_eq_right (Nat.le_of_lt h)]
    split
    · exact (Dev.enterStop_hull _ _ _).1
    · rfl
  · rename_i h
    rw [Nat.max_eq_left (Nat.le_of_not_lt h)]
    split
    · rw [show ∀ e : Dev, e.sendCommand.hull = e.hull from fun e => (Dev.sendCommand_frame e) .hull (by decide)]
    · rfl

theorem foldl_max_ge (f : Nat × Nat → Nat) (l : List (Nat × Nat)) : ∀ t, t ≤ l.foldl (fun t p => max t (f p)) t := by
  induction l with
  | nil => exact fun t => Nat.le_refl t
  | cons a l ih => exact fun t => Nat.le_trans (Nat.le_max_left _ _) (ih _)

/-- A standing demand is among the demands. -/
theorem kset_max (k v : Nat) (hv : v ≠ 0) (m : Store Nat) (t : Nat) : v ≤ (kset 0 m k v).foldl (fun t p => max t p.2) t := by
  have put : ∀ (m : Store Nat) t, v ≤ (kput m k v).foldl (fun t p => max t p.2) t := by
    have head : ∀ (l : Store Nat) t, v ≤ ((k, v) :: l).foldl (fun t p => max t p.2) t := fun l t =>
      Nat.le_trans (Nat.le_max_right t v) (foldl_max_ge Prod.snd l _)
    intro m
    induction m with
    | nil => exact fun t => head [] t
    | cons a m ih =>
      intro t
      unfold kput
      split
      · exact head _ t
      · split
        · exact head _ t
        · exact ih _
  unfold kset
  rw [if_neg hv]
  exact put m t

/-- A demand for tier 3 stops the device (R333 to R335). -/
theorem Dev.demand_stopped {d : Dev} (h : d.Inv) (src cause : Nat) : (d.demand src 3 cause).Stopped := by
  have hi := (Dev.demand_inv d src 3 cause h).hull
  have key : ∀ x : Dev, 3 ≤ x.demanded → x.hull.tier ≤ 3 → (x.retier cause).hull.tier = 3 := by
    intro x ge le
    rw [Dev.retier_tier, Nat.max_eq_right (Nat.le_trans le ge)]
    exact Nat.le_antisymm (Nat.min_le_left _ _) ge
  have ge : 3 ≤ Dev.demanded { d with hull := { d.hull with demands := kset 0 d.hull.demands src 3 } } := by
    have := kset_max src 3 (by decide) d.hull.demands 0
    exact Nat.le_min.2 ⟨Nat.le_refl 3, Nat.le_trans this (Nat.le_trans (Nat.le_max_right _ _) (Nat.le_max_right _ _))⟩
  have ht : (d.demand src 3 cause).hull.tier = 3 := key _ ge h.hull.1
  exact ⟨ht, (hi.2 ht).1, (hi.2 ht).2⟩

theorem Dev.protect_stopped {d : Dev} (h : d.Inv) (src cause : Nat) : (d.protect src 3 cause).Stopped := by
  unfold Dev.protect
  exact Dev.demand_stopped (((Dev.recEvent_frame _ _).inv (by decide)).2 (((Dev.effect_frame _ _ _).inv (by decide)).2
    (((Dev.occur_frame _ _ _).inv (by decide)).2 h))) src cause

end Sys2Proof.Machine
end

