-- ==== Sys2Proof/WellFormed.lean ====
section
/-! DEFINITION. Which commands are well formed: those whose operands have the sizes that the manual gives them.
A command that is not well formed still has a meaning; these checks say what a sender can send. -/

namespace Sys2Proof

/-- LENGTH is a number of payload bytes, 0 to 1,408 (R401). -/
def Req.wellFormed (r : Req) : Bool := decide (r.length ≤ 1408)

/-- A CAN FD frame carries at most 64 bytes; an identifier that is not extended has 11 bits (R65). -/
def canOk (id : BitVec 29) (ext : Bool) (data : List Byte) : Bool :=
  decide (data.length ≤ 64) && (ext || decide (id.toNat < 2048))

/-- An SPI frame has 8 to 512 bits (R65). -/
def spiOk (data : List Byte) : Bool := decide (1 ≤ data.length) && decide (data.length ≤ 64)

/-- A queue holds at least one descriptor (R139), and each has eight words (R129). -/
def queueOk (ds : List (List Word)) : Bool := decide (1 ≤ ds.length) && ds.all (fun w => decide (w.length = 8))

/-- A job descriptor has eight words (R308). -/
def jobOk (ws : List Word) : Bool := decide (ws.length = 8)

/-- There are 16,384 sync objects (R213). -/
def objOk (obj : Nat) : Bool := decide (obj < 16384)

/-- Objects of a correction that a host resets: the persisted correction's three forms (R242). -/
def correctionSub (sub : Byte) : Bool := decide (sub.toNat = 1) || decide (sub.toNat = 2) || decide (sub.toNat = 0x0E)

/-- Geometry objects of the grid (R225). -/
def geometrySub (sub : Byte) : Bool := decide (sub.toNat = 2) || decide (sub.toNat = 5) || decide (sub.toNat = 6)

/-- A Twin frame carries at most 8,192 bytes of payload (R355). -/
def twinOk (f : TwinFrame) : Bool := decide (f.payload.length ≤ 1024)

/-- The command's operands have the sizes the manual gives them. -/
def Instr.wellFormed : Instr → Bool
  | .pdelayResponse _ _ t2 t3 => t2.isSome || t3.isSome
  | .canFrame _ id ext data _ => canOk id ext data
  | .spiFrameReceived _ data _ => spiOk data
  | .move _ _ _ descs => queueOk descs
  | .solve _ job _ _ _ => jobOk job
  | .syncSignal _ obj _ _ _ => objOk obj
  | .syncWait _ obj _ _ => objOk obj
  | .syncReset _ obj _ => objOk obj
  | .syncRead obj => objOk obj
  | .syncTimeout _ obj => objOk obj
  | .heartbeat f => twinOk f
  | .decision f => twinOk f
  | .values f => twinOk f
  | .identity f => twinOk f
  | .bulk f => twinOk f
  | .read r _ _ _ _ => r.wellFormed
  | .write r _ _ _ payload => r.wellFormed && decide (payload.length ≤ 1408)
  | .blockStart r _ _ _ => r.wellFormed
  | .blockData r _ _ _ segment _ => r.wellFormed && decide (1 ≤ segment.length) && decide (segment.length ≤ 1408)
  | .subscribe r _ _ _ => r.wellFormed
  | .unsubscribe r _ _ => r.wellFormed
  | .otpProgram _ key => decide (key.length = 68)
  | .resetCorrection r _ sub _ => r.wellFormed && correctionSub sub
  | .gridGeometryWrite r sub _ => r.wellFormed && geometrySub sub
  | .attestationNonce r nonce => r.wellFormed && decide (nonce.length = 32)
  | _ => true

end Sys2Proof
end

