-- ==== Sys2Proof/Tests/Slice0.lean ====
section
/-! SUPPORT. Tests. Small states that meet the hypotheses of the statements; ill-formed commands that each check refuses. -/

set_option Elab.async false
set_option linter.unusedVariables false
set_option maxRecDepth 100000

namespace Sys2Proof.Tests

open Sys2Proof Sys2Proof.Machine

/-! ## Small states -/

/-- A device in RUN, its time unit far from 0. -/
def bench : State :=
  { dev := { Dev.reset with
      power := { Dev.reset.power with state := .run, enIod := true, enCore := true, enDdr := true, vhusk := true, crystal := true, pwrOk := true }
      start := { Dev.reset.start with bootRom := false, last := 8, edgeFound := true }
      time := { Dev.reset.time with ticks := 1000000000000000, counter := 1000000000000000 * 4294967296 }
      hull := { Dev.reset.hull with tier := 0, latch := false, pinA := true, pinB := true, override := false } }
    pending := [] }

/-- The bench with its device changed. -/
def on (f : Dev → Dev) : State := { bench with dev := f bench.dev }

/-- The bench in another power state. -/
def inState (p : PowerState) (f : Dev → Dev) : State :=
  on (fun d => f { d with power := { d.power with state := p } })

/-- Stores a number of an object. -/
def obj (idx sub v : Nat) (d : Dev) : Dev := d.setObj idx sub [v]

/-- A good header on the SPI target port, with its LENGTH. -/
def rq (n : Nat) : Req := { port := .spi, frame := .plain, addr := 0, udp := 0, tag := 1, magic := 0x5041, version := 1, length := n, size := 24 + n }

/-- The same on HOST0. -/
def rqHost (n : Nat) : Req := { rq n with port := .host0 }

/-- What the sections of a small package hold. -/
def content : PkgContent :=
  { signatureOk := true, bodyOk := true, syncObjects := 16, streams := 1, trackSlots := 1, zones := 1, pairs := 1, floorA := 0, intakeUs := 0,
    summaryUs := 0, commitUs := 40, toUs := 0, partitionRanges := [[(2 * 2 ^ 44, 65536)]], readRanges := [], defaults := [], tables := [], generationObjects := [],
    syncRanges := [(0, 10)], streamRanges := [], partitionPods := [[0]], descriptors := [], jobs := [], barriers := [(4, 2)], intakeObj := 0,
    planObj := 0, grid := [], monitored := [], attention := [], neighbourhood := [], ageMask := [], classes := [], auction := [],
    streamMap := [], intakeDests := [], retained := [], resident := [], emits := [], outputs := [] }

/-- Its bytes: the header for a target, six empty sections, the signature (R179 to R182). -/
def image (target : Nat) : List Byte :=
  let w := fun (n : Nat) => leBytes 8 n
  w (0x47515750 * 2 ^ 32 + 1 * 2 ^ 16 + 256) ++ w (2 ^ 48 + target * 2 ^ 8) ++ w 6 ++ w 192 ++ w 100000 ++ List.replicate 40 0 ++ w (2 ^ 56) ++
    List.replicate 168 0 ++ [1, 2, 9, 10, 11, 12].flatMap (fun t => w (t * 2 ^ 56 + 255 * 2 ^ 48) ++ w 192 ++ List.replicate 16 0) ++
    List.replicate 2820 0

/-- The package as the device reads it. -/
def pkg : Package := readPackage (image 1) content

/-- The package is active. -/
def withPkg (f : Dev → Dev) : State :=
  on (fun d => f { d with prog := { d.prog with prog := some pkg, active := some 0 }, sec := { d.sec with valid := [0] } })

def who : SyncIssuer := { partition := 0, sigObj := 3, number := 9 }
def cyc1 : CycleCtx :=
  { number := 1, tv := 0, tick := 0, closed := true, intakeDone := false, intakeEnded := false, masked := 0, tstate := .free, epoch := false,
    excursion := false, sats := [], vals := [] }
def opd : OpDesc :=
  { m := 1, k := 1, n := 1, aType := 0, wType := 1, outType := 0, aDesc := 0, wDesc := 0, outDesc := 0, records := 0, cpl := 0, index := 0,
    work := 0, mixing := true }
def pip1 : PipStep :=
  { core := 0, checked := false, number := 0, wcet := 1, inputs := [], mixing := true, outDesc := 0, outAddr := 0, outLen := 0, localAt := 0,
    work := .program }
def tick1 : Ticket := { table := 0, entry := 0, bad := false, cause := 0 }
def run1 : RunStep := { step := pip1, ticket := tick1, tick := 0 }
/-- A descriptor whose destination tensor is described at the Hoard's first byte. -/
def acc1 : Accepted := { words := [0, 2 * 2 ^ 44], cause := 0, core := none, part := 0, bursts := [], lost := 0, at_ := 0, ahead := [1], since := 0 }
def rjob : RunJob := { words := [], ticket := { tick1 with table := 24 }, partition := 0, track := none }
def frm (l : Lanes) : TwinFrame := { lanes := l, role := true, seq := 1, stamp := 0, payload := [] }
def dec1 : Decided := { cycle := 0, tick := 0, tv := 0, discarded := false, zones := 0, tiers := [], vals := [], compared := false }
def smp : Sample :=
  { camera := true, tv := 0, told := 0, ref := 0, target := 0, openC := 0, lateness := 0, lines := [], points := [], poison := 0,
    tstate := 0, epoch := false, seq := 0, left := 0 }
def rec1 (p : Nat) : OutRecord :=
  { stream := 0, port := p, seq := 0, cycle := 0, content := 0, discarded := false, next := 0, stamped := true, old := false, data := [] }
def res (b : Bool) : StepResult :=
  { ok := b, units := [], oneBad := [], twoBad := [], trained := true, lostObjects := [], anchor := true, factoryBad := [], leafReads := true,
    floor := 0, secVersion := 0, firmware := 0, traversalOk := true, unsealed := false }
def kept1 (c : List Nat) : Kept := { port := .spi, addr := 0, udp := 0, tag := 1, content := c, tick := 1000000000000000, response := [] }
def xfer : Transfer := { idx := 0xA000, sub := 7, port := .spi, total := 2948, got := [], tick := 0 }
def sub1 : Sub := { port := .host0, addr := 0, dport := 0, key := okey 0x2040 4, renewed := 0, sentCount := 5, sentTick := 0 }
def log1 : LogEntry := { time := 0, cycle := 0, cause := 0x0D05, inst := 0, detail := 0, seq := 0, repeats := 0, effect := 0, tstate := .free }
def sigFrame : Frame := { stamp := 0, edge := none, valid := [], paid := 0 }
def sensorFrame (b : Bool) : EthFrame := { src := 0, tag := none, etherType := 0x0800, payload := [], fcsOk := b }
/-- An act of a kind under key slot 0: its body for nonce 1 on a device of serial number 0. -/
def act (kind arg : Nat) : List Word :=
  [BitVec.ofNat 64 (0x41435453 * 2 ^ 32 + kind * 2 ^ 24), 0, 0, 0, 0, 1, 0, 0, 0, 0, BitVec.ofNat 64 arg, 0, 0, 0, 0, 0]
/-- A safety command of SEQ 1 from source 1 (R417). -/
def command : List Byte :=
  let b : List Byte := [0x53, 0x46, 1, 2, 0, 1, 0, 32, 0, 0, 0, 1] ++ List.replicate 16 0
  b ++ beBytes 4 (crc32c b).toNat

/-- A word of a list of bytes. -/
theorem wat_leWords (n i : Nat) (l : List Byte) (h : i < n) :
    wat (leWords n l) i = BitVec.ofNat 64 (leNat ((l.drop (8 * i)).take 8)) := by
  induction n generalizing i l with
  | zero => omega
  | succ n ih =>
    cases i with
    | zero => simp [wat, leWords]
    | succ i =>
      have k := ih i (l.drop 8) (by omega)
      simp only [wat, leWords, List.getD_cons_succ, List.drop_drop] at k ⊢
      rw [k, show 8 + 8 * i = 8 * (i + 1) by omega]

/-- A summary's bytes before its CRC: cycle 1, generation 1. -/
def summary0 : List Byte := ((List.replicate 4632 0).set 2 1).set 20 1
/-- A safety summary of cycle 1 and generation 1 with its CRC (R344). -/
def summary1 : List Byte := summary0 ++ (leBytes 4 (crc32c summary0).toNat ++ [0, 0, 0, 0])

theorem summary0_length : summary0.length = 4632 := by simp [summary0]

theorem tail_crc (b : List Byte) (n : Nat) (hb : b.length = 8 * n) (c : BitVec 32) :
    wfld (wat (leWords (n + 1) (b ++ (leBytes 4 c.toNat ++ [0, 0, 0, 0]))) n) 31 0 = c.toNat := by
  rw [wat_leWords _ _ _ (Nat.lt_succ_self n), List.drop_left' hb]
  have hc := c.isLt
  simp only [leBytes, List.cons_append, List.nil_append, List.take_succ_cons, List.take_zero, leNat, wfld, fld, BitVec.toNat_ofNat]
  omega

theorem summary1_crc : wfld (wat (leWords 580 summary1) 579) 31 0 = (crc32c (summary1.take 4632)).toNat := by
  have h1 : ∀ (b t : List Byte) (n : Nat), b.length = n → crc32c ((b ++ t).take n) = crc32c b := fun b t n h => by rw [List.take_left' h]
  unfold summary1
  rw [h1 _ _ _ summary0_length]
  exact tail_crc summary0 579 summary0_length _

theorem summary1_word (i : Nat) (h : i < 579) : wat (leWords 580 summary1) i = BitVec.ofNat 64 (leNat ((summary0.drop (8 * i)).take 8)) := by
  rw [wat_leWords _ _ _ (by omega), summary1, List.drop_append_of_le_length (by rw [summary0_length]; omega), List.take_append_of_le_length]
  rw [List.length_drop, summary0_length]; omega
/-- Slot 0 takes camera frames of CSI0. -/
def camera (f : Option Frame) : State :=
  on (fun d => obj 0x3000 1 1 (obj 0x3000 2 0 (obj 0x3000 3 0 (obj 0x3000 0x10 (2 * 2 ^ 44)
    ((d.modSlot 0 (fun s => { s with state := .active, frame := f })))))))
/-- Slot 0 takes frames of SEN0; the first words of its decoder descriptor in memory. -/
def scanner (l : List Host.Cell) : State :=
  on (fun d => obj 0x3000 1 1 (obj 0x3000 2 0x10 (obj 0x3000 4 0 (obj 0x3000 0x10 (2 * 2 ^ 44)
    ({ d.modSlot 0 (fun s => { s with state := .active }) with mem := { d.mem with bytes := l } })))))
def table (t : Nat) (e : List Word) (p : Pass) (f : Dev → Dev) : State :=
  on (fun d => f { d with sched := { d.sched with tables := [(t, [e])], passes := [(t, p)] } })
def entrySig : List Word := [5 * 2 ^ 60, 1, 0, 4 * 2 ^ 50 + 2 ^ 49 + 1]
def open1 (l : List Nat) : Pass := { cycle := 0, tick := 0, started := l, done := [], skipped := [], late := [], ended := false }
/-- An entry of a kind: class S, release 0, deadline 1, signal 1 to object 4. -/
def entryOf (kind : Nat) : List Word := [BitVec.ofNat 64 (kind * 2 ^ 60), 1, 0, 4 * 2 ^ 50 + 2 ^ 49 + 1]
/-- Table `t` waits with one entry of a kind; the package is active and Pod 0 serves logical Pod 0. -/
def sched1 (t kind : Nat) (f : Pod → Pod) : State :=
  table t (entryOf kind) (open1 []) (fun d => ({ d with prog := { d.prog with prog := some pkg, active := some 0 } } : Dev).modPod 0 (fun p =>
    f { p with logical := some 0, state := .active }))
def idle1 : IdleItem := { table := 0, entry := 0, ready := 0, promoted := false }
/-- An engine operation of class B waits in the idle list. -/
def withIdle : State :=
  on (fun d => ({ d with sched := { d.sched with idle := [idle1], tables := [(0, [[1 * 2 ^ 60 + 3 * 2 ^ 58, 0xFFFFFFFF * 2 ^ 32, 0, 0]])] } } : Dev).modPod 0
    (fun p => { p with logical := some 0, state := .active }))
/-- Physical Pod 0 serves logical Pod 0. -/
def pod0 (f : Pod → Pod) : State := on (fun d => d.modPod 0 (fun p => f { p with logical := some 0, state := .active }))
def twin (f : Twin → Twin) (g : Dev → Dev) : State := on (fun d => g (obj 0x7100 1 1 { d with twin := f d.twin }))
def sq (c : Nat) (f : SqChannel → SqChannel) : State := on (fun d => d.modSq c f)

/-- A frame on the SPI target port with its length and CRC (R422). -/
def spiBytes (l : List Byte) : List Byte :=
  let b := beBytes 2 l.length ++ l
  b ++ beBytes 4 (crc32c b).toNat
/-- The transfer of an act, complete. -/
def actXfer (sub kind arg : Nat) : Transfer :=
  { xfer with sub := sub, got := (act kind arg).flatMap (fun w => beBytes 8 w.toNat) ++ List.replicate 2820 0 }
/-- READY, nonce 1 and some valid key slots, an act's transfer complete. -/
def acting (sub kind arg : Nat) (valid : List Nat) : State :=
  inState .ready (fun d => { d with sec := { d.sec with nonce := some 1, valid := valid }, palca := { d.palca with transfers := [actXfer sub kind arg] } })
def ring0 : NandPlace := { area := .ring, copy := 0, block := 700, page := 0 }
def store0 (c : Fin 2) : NandPlace := { area := .store, copy := c, block := 600, page := 0 }
def work1 (k : NandKind) (p : NandPlace) (ticket : Nat) : NandWork := { cls := 0, kind := k, place := p, ticket := ticket, bytes := 0, retried := false }
/-- LUN 0 runs an operation. -/
def nand (w : NandWork) : State := on (fun d => { d with recd := { d.recd with running := [(0, some w)] } })

theorem fitBytes_length (n : Nat) (l : List Byte) : (fitBytes n l).length = n := by simp [fitBytes]; omega
theorem kset_sum (m : Store (List Byte)) (v : List Byte) (h : m = []) : ((kset [] m 0 v).map (fun y => y.2.length)).sum = v.length := by
  subst h; unfold kset; split <;> simp [*, kput]

/-! ## Each clause of a statement has a state and operands that meet its hypotheses -/

theorem test_TimeServo_meets :
    (∃ (s : State), s.dev.up = true) ∧
    (∃ (s : State), s.dev.up = true ∧ s.dev.holding = true ∧ s.dev.time.exceeded = false ∧ s.dev.cfg 0x4000 0x0A < s.dev.uncertaintyNow) ∧
    (∃ (s : State), s.dev.up = true ∧ 8 ≤ s.dev.time.satRun) ∧
    (∃ (s : State), s.pending = [] ∧ s.dev.up = true) :=
  ⟨⟨bench, by decide +kernel⟩,
   ⟨on (fun d => { d with time := { d.time with epoch := true, state := .holdover, uncertainty := 20000, holdBase := 20000, holdTick := d.tick } }), by decide +kernel⟩,
   ⟨on (fun d => { d with time := { d.time with satRun := 8 } }), by decide +kernel⟩,
   ⟨bench, by decide +kernel⟩⟩

theorem test_DomainChanges_meets :
    (∃ (s : State) (x : Dom), s.dev.up = true ∧ s.dev.time.selected = some x ∧ x ≠ s.dev.preferred ∧ s.dev.tracks s.dev.preferred = true ∧ s.dev.revertDue = true) ∧
    (∃ (s : State) (x : Dom), s.dev.up = true ∧ (((s.dev.dom x).state = .acquiring ∨ (s.dev.dom x).state = .tracking)) ∧ (s.dev.dom x).lastRx + 3 * intervalTicks (s.dev.dom x).syncInterval ≤ s.dev.tick) :=
  ⟨⟨on (fun d => obj 0x4000 7 1 { d with time := { d.time with selected := some .b, domA := { d.time.domA with state := .tracking, trackingSince := some 0 } } }), .b, by decide +kernel⟩,
   ⟨on (fun d => { d with time := { d.time with domA := { d.time.domA with state := .acquiring } } }), .a, by decide +kernel⟩⟩

theorem test_DomainMessages_meets :
    (∃ (s : State) (p : Fin 2) (dn : Nat) (li : Int) (seq : BitVec 16) (two : Bool) (origin : Int) (x : Dom), s.dev.domOf dn = some x ∧ s.dev.takes x p.val li = true) ∧
    (∃ (s : State) (p : Fin 2) (dn : Nat) (li : Int) (seq : BitVec 16) (origin : Int) (x : Dom) (w : SyncWaiting), s.dev.domOf dn = some x ∧ s.dev.takes x p.val li = true ∧ ((s.dev.dom x).aged s.dev.tick).waiting = some w ∧ w.port = p.val ∧ w.seq = seq) ∧
    (∃ (s : State) (p : Fin 2) (dn : Nat) (li : Int) (ident : Nat) (gm : Word) (cc : Nat) (x : Dom), s.dev.domOf dn = some x ∧ s.dev.up = true ∧ (s.dev.delay p.val).capable = true ∧ (s.dev.dom x).state ≠ .disabled) :=
  ⟨⟨on (fun d => obj 0x4010 1 1 (obj 0x4010 2 7 { d with time := { d.time with delays := [(0, { PortDelay.reset with capable := true })], domA := { d.time.domA with state := .acquiring, port := some 0, waiting := some { port := 0, seq := 5, stamp := 0, tick := d.tick, adj := 0 } } } })), 0, 7, 0, 5, true, 0, .a, by decide +kernel⟩,
   ⟨on (fun d => obj 0x4010 1 1 (obj 0x4010 2 7 { d with time := { d.time with delays := [(0, { PortDelay.reset with capable := true })], domA := { d.time.domA with state := .acquiring, port := some 0, waiting := some { port := 0, seq := 5, stamp := 0, tick := d.tick, adj := 0 } } } })), 0, 7, 0, 5, 0, .a, { port := 0, seq := 5, stamp := 0, tick := bench.dev.tick, adj := 0 }, by decide +kernel⟩,
   ⟨on (fun d => obj 0x4010 1 1 (obj 0x4010 2 7 { d with time := { d.time with delays := [(0, { PortDelay.reset with capable := true })], domA := { d.time.domA with state := .acquiring, port := some 0, waiting := some { port := 0, seq := 5, stamp := 0, tick := d.tick, adj := 0 } } } })), 0, 7, 0, 1, 2, 6, .a, by decide +kernel⟩⟩

theorem test_PeerAndServedTime_meets :
    (∃ (s : State) (p : Fin 6), s.dev.pdelayOn p.val = true) ∧
    (∃ (s : State) (p : Fin 6) (t1 : Int) (t2 : Int) (t3 : Int), s.dev.pdelayOn p.val = true ∧ (s.dev.delay p.val).sent = some t1) ∧
    (∃ (s : State) (p : Fin 6) (seq : BitVec 16), s.dev.pdelayOn p.val = true) ∧
    (∃ (s : State) (p : Fin 4), s.dev.serves p.val = true ∧ kget 0 s.dev.time.senTick p.val + intervalTicks (sgn 32 (s.dev.cfg 0x4000 0x19)) ≤ s.dev.tick) ∧
    (∃ (s : State) (p : Fin 4), s.dev.serves p.val = true) :=
  ⟨⟨bench, 0, by decide +kernel⟩,
   ⟨on (fun d => d.modDelay 0 (fun q => { q with sent := some 0 })), 0, 0, 0, 0, by decide +kernel⟩,
   ⟨bench, 0, 0, by decide +kernel⟩,
   ⟨on (obj 0x4000 0x1A 1), 0, by decide +kernel⟩,
   ⟨on (obj 0x4000 0x1A 1), 0, by decide +kernel⟩⟩

theorem test_TriggersAndReference_meets :
    (∃ (s : State) (pin : Fin 16) (e : Int), s.dev.up = true ∧ (s.dev.trig pin.val).edge = some e ∧ e ≤ s.dev.nowPs) ∧
    (∃ (s : State) (pin : Fin 16) (st : BitVec 96) (n : Nat), (s.dev.trig pin.val).high = true ∧ (s.dev.trig pin.val).stamps.head? = some st ∧ s.dev.trigSlot pin.val = some n ∧ s.dev.stampPsNow st + (s.dev.cfg (0x3000 + n) 0x24 : Int) * 1000 ≤ s.dev.nowPs) ∧
    (∃ (s : State) (n : Nat), s.dev.Inv ∧ s.dev.up = true ∧ s.dev.power.refTick + 97656 ≤ s.dev.tick ∧ edgesOk n = false) ∧
    (∃ (s : State) (n : Nat), s.dev.up = true ∧ s.dev.power.refTick + 97656 ≤ s.dev.tick ∧ edgesOk n = true) :=
  ⟨⟨on (fun d => d.modTrig 3 (fun t => { t with edge := some 0 })), 3, 0, by decide +kernel⟩,
   ⟨on (fun d => obj 0x3000 0x20 3 (d.modTrig 3 (fun t => { t with high := true, stamps := [0] }))), 3, 0, 0, by decide +kernel⟩,
   ⟨bench, 0, by unfold Dev.Inv; decide +kernel, by decide +kernel⟩,
   ⟨bench, 6103, by decide +kernel⟩⟩

theorem test_SlotStates_meets :
    (∃ (s : State) (n : Fin 16), s.dev.up = true ∧ (s.dev.slot n.val).state = .active ∧ s.dev.cfg (0x3000 + n.val) 8 < (s.dev.slot n.val).silent) ∧
    (∃ (s : State) (n : Fin 16) (lane : Bool), (s.dev.slot n.val).state = .fault ∧ (s.dev.slot n.val).causes = [if lane then 0x0202 else 0x0204]) ∧
    (∃ (s : State) (n : Fin 16) (t : Nat), (s.dev.slot n.val).state = .fault ∧ (s.dev.slot n.val).causes = [] ∧ (s.dev.slot n.val).absentSince = some t ∧ t + msTicks 100 ≤ s.dev.tick) ∧
    (∃ (s : State) (p : Fin 4), s.dev.up = true) ∧
    (∃ (s : State) (p : SPort), sportCode p ∈ s.dev.intake.cfgFailed ∧ kget 0 s.dev.intake.cfgTick (sportCode p) + sTicks 1 ≤ s.dev.tick) :=
  ⟨⟨on (fun d => d.modSlot 2 (fun s => { s with state := .active, silent := 1000000 })), 2, by decide +kernel⟩,
   ⟨on (fun d => d.modSlot 2 (fun s => { s with state := .fault, causes := [0x0204] })), 2, false, by decide +kernel⟩,
   ⟨on (fun d => d.modSlot 2 (fun s => { s with state := .fault, absentSince := some 0 })), 2, 0, by decide +kernel⟩,
   ⟨bench, 1, by decide +kernel⟩,
   ⟨on (fun d => { d with intake := { d.intake with cfgFailed := [sportCode (.sen 1)] } }), .sen 1, by decide +kernel⟩⟩

theorem test_CameraFrame_meets :
    (∃ (s : State) (p : Fin 12) (vc : Fin 16) (h : HdrEcc) (n : Nat), h ≠ .bad ∧ s.dev.csiSlots p.val vc.val = [n] ∧ (s.dev.slot n).frame = none) ∧
    (∃ (s : State) (p : Fin 12) (vc : Fin 16) (dt : Byte) (line : Nat) (ls : Option Nat) (data : List Byte) (ok : Bool) (cut : Bool) (h : HdrEcc) (n : Nat) (f : Frame), h ≠ .bad ∧ pixelType dt.toNat = true ∧ s.dev.csiSlots p.val vc.val = [n] ∧ (s.dev.slot n).frame = some f ∧ line < s.dev.slotRows n ∧ (s.dev.slot n).fifo.blocked (s.dev.maxItem n) = false) ∧
    (∃ (s : State) (p : Fin 12) (vc : Fin 16) (h : HdrEcc) (n : Nat), h ≠ .bad ∧ s.dev.csiSlots p.val vc.val = [n]) :=
  ⟨⟨camera none, 0, 0, .ok, 0, by decide +kernel⟩,
   ⟨on (fun d => { (camera (some sigFrame)).dev with mem := { d.mem with bytes := [(2 * 2 ^ 44 + 4, 1)] } }), 0, 0, 0x2A, 0, none, [], true, false, .ok, 0, sigFrame, by decide +kernel⟩,
   ⟨camera none, 0, 0, .ok, 0, by decide +kernel⟩⟩

theorem test_KinematicSources_meets :
    (∃ (s : State) (k : Fin 32), isSpi (s.dev.cfg (0x3100 + k.val) 1) = true ∧ s.dev.up = true ∧ s.dev.pollDue k.val = true) ∧
    (∃ (s : State) (k : Fin 32) (data : List Byte) (ups : List Upset) (st : BitVec 96), (s.dev.kin k.val).select = some st) ∧
    (∃ (s : State) (c : Fin 4) (id : BitVec 29) (ext : Bool) (data : List Byte) (k : Nat), s.dev.kinsAt c.val = [k] ∧ s.dev.canMatch k id.toNat ext = true ∧ ((List.range 8).map (fun j => s.dev.cfg (0x3100 + k) (8 + j))).any (fun x => fieldPast x data) = false ∧ (List.range 8).all (fun j => fld (s.dev.cfg (0x3100 + k) (8 + j)) 31 30 != 3) = true ∧ (stampNs (s.dev.stampOf 4 c.val) : Int) - s.dev.cfgI (0x3100 + k) 0x20 ≤ s.dev.now ∧ stampEpoch (s.dev.stampOf 4 c.val) = s.dev.time.epoch) :=
  ⟨⟨on (obj 0x3100 1 0x10), 0, by decide +kernel⟩,
   ⟨on (fun d => d.modKin 0 (fun k => { k with select := some 0 })), 0, [1], [], 0, by decide +kernel⟩,
   ⟨on (fun d => obj 0x3100 1 1 (obj 0x3100 2 0 (obj 0x3100 3 0 d))), 1, 0, false, [], 0, by decide +kernel⟩⟩

theorem test_SensorFrames_meets :
    (∃ (s : State) (p : Fin 4) (f : EthFrame) (ups : List Upset), ethOk f = false) ∧
    (∃ (s : State) (p : Fin 4) (f : EthFrame) (ups : List Upset) (n : Nat), ethOk f = true ∧ s.dev.kinsAt (0x30 + p.val) = [] ∧ s.dev.senSlots p.val f.src = [n] ∧ (packetMatches (s.dev.decoder n) (ethContent f) && headerWhole (s.dev.decoder n) (ethContent f)) = false) ∧
    (∃ (s : State) (p : Fin 4) (f : EthFrame) (ups : List Upset) (n : Nat), ethOk f = true ∧ s.dev.kinsAt (0x30 + p.val) = [] ∧ s.dev.senSlots p.val f.src = [n] ∧ packetMatches (s.dev.decoder n) (ethContent f) = true ∧ headerWhole (s.dev.decoder n) (ethContent f) = true ∧ (s.dev.slot n).fifo.blocked (s.dev.maxItem n) = false ∧ (((wfld ((s.dev.decoder n).getD 12 0) 63 62 = 1 ∧ (s.dev.slot n).packets + 1 < wfld ((s.dev.decoder n).getD 12 0) 31 16) ∨ (wfld ((s.dev.decoder n).getD 12 0) 63 62 = 2 ∧ endFlag (s.dev.decoder n) (ethContent f) = false)))) ∧
    (∃ (s : State) (p : Fin 4) (f : EthFrame) (ups : List Upset) (n : Nat), ethOk f = true ∧ s.dev.kinsAt (0x30 + p.val) = [] ∧ s.dev.senSlots p.val f.src = [n] ∧ packetMatches (s.dev.decoder n) (ethContent f) = true ∧ headerWhole (s.dev.decoder n) (ethContent f) = true ∧ (s.dev.slot n).fifo.blocked (s.dev.maxItem n) = false ∧ (((wfld ((s.dev.decoder n).getD 12 0) 63 62 = 1 ∧ (s.dev.slot n).packets + 1 < wfld ((s.dev.decoder n).getD 12 0) 31 16) ∨ (wfld ((s.dev.decoder n).getD 12 0) 63 62 = 2 ∧ endFlag (s.dev.decoder n) (ethContent f) = false)))) :=
  ⟨⟨bench, 0, sensorFrame false, [], by decide +kernel⟩,
   ⟨scanner [(2 * 2 ^ 44, 1), (2 * 2 ^ 44 + 4, 255), (2 * 2 ^ 44 + 5, 255)], 0, sensorFrame true, [], 0, by decide +kernel⟩,
   ⟨scanner [(2 * 2 ^ 44 + 98, 2), (2 * 2 ^ 44 + 103, 64)], 0, sensorFrame true, [], 0, by decide +kernel⟩,
   ⟨scanner [(2 * 2 ^ 44 + 103, 128)], 0, sensorFrame true, [], 0, by decide +kernel⟩⟩

theorem test_FifoAndSlices_meets :
    (∃ (s : State) (n : Fin 16) (differ : Bool), s.dev.chunkRuns 3 0 = true ∧ (s.dev.coverOf 3 0).pos = n.val ∧ (s.dev.slot n.val).state ≠ .disabled) ∧
    (∃ (s : State) (n : Fin 16), (((s.dev.slot n.val).fifo.resetRead = true ∨ (s.dev.slot n.val).fifo.stalled = true ∧ ((s.dev.slot n.val).fifo.bank (s.dev.slot n.val).fifo.rBank).isEmpty = false))) ∧
    (∃ (s : State) (n : Fin 16), (((s.dev.slot n.val).fifo.resetRead = true ∨ (s.dev.slot n.val).fifo.stalled = true ∧ ((s.dev.slot n.val).fifo.bank (s.dev.slot n.val).fifo.rBank).isEmpty = false))) ∧
    (∃ (s : State) (ups : List Upset) (e : Nat), s.dev.nextEntry = some e ∧ s.dev.sliceAt e / 256 = 0xFF) ∧
    (∃ (s : State) (ups : List Upset) (e : Nat) (n : Nat), s.dev.nextEntry = some e ∧ s.dev.sliceAt e / 256 = n ∧ n ≠ 0xFF) :=
  ⟨⟨on (fun d => (d.modSlot 2 (fun s => { s with state := .active })).modCover 3 0 (fun c => { c with admitted := true, pos := 2 })), 2, true, by decide +kernel⟩,
   ⟨on (fun d => d.modSlot 2 (fun s => { s with fifo := { s.fifo with stalled := true, bank0 := [{ words := [], sample := 0, tag := 0 }] } })), 2, by decide +kernel⟩,
   ⟨on (fun d => d.modSlot 2 (fun s => { s with fifo := { s.fifo with resetRead := true } })), 2, by decide +kernel⟩,
   ⟨on (fun d => obj 0x3200 1 1 (obj 0x3200 0x10 0xFF00 d)), [], 0, by decide +kernel⟩,
   ⟨on (fun d => obj 0x3200 1 1 (obj 0x3200 0x10 0x0001 (d.modSlot 0 (fun s => { s with state := .active, fifo := { s.fifo with bank0 := [{ words := [], sample := 0, tag := 0 }] } })))), [], 0, 0, by decide +kernel⟩⟩

theorem test_IntakeConversion_meets :
    (∃ (s : State) (n : Fin 16) (x : Sample) (rest : List Sample), (s.dev.slot n.val).samples = x :: rest ∧ x.camera = true ∧ (s.dev.slot n.val).converted x = true ∧ invalidLines (s.dev.slotRows n.val) x.lines ≤ s.dev.cfg (0x3000 + n.val) 7) ∧
    (∃ (s : State) (x : CycleCtx), s.dev.deadlineCycle = some x ∧ x.tick + usTicks (s.dev.cfg 0x5000 7) ≤ s.dev.tick) :=
  ⟨⟨on (fun d => d.modSlot 0 (fun s => { s with samples := [smp] })), 0, smp, [], by decide +kernel⟩,
   ⟨on (fun d => { d with cyc := { d.cyc with flight := [cyc1] } }), cyc1, by decide +kernel⟩⟩

theorem test_SyncWords_meets :
    (∃ (s : State) (who : SyncIssuer) (obj : Nat) (inc : Nat) (err : Bool) (cause : BitVec 16), s.dev.syncOwned who.partition obj = true) ∧
    (∃ (s : State) (who : SyncIssuer) (obj : Nat) (th : Nat) (to_ : Nat), s.dev.syncOwned who.partition obj = true) ∧
    (∃ (s : State) (who : SyncIssuer) (obj : Nat) (v : BitVec 32), s.dev.syncOwned who.partition obj = true) ∧
    (∃ (s : State) (who : SyncIssuer) (obj : Nat) (w : Waiter) (t : Nat), s.dev.up = true ∧ w ∈ s.dev.sync.waiters ∧ w.who = who.number ∧ w.obj = obj ∧ w.due = some t ∧ t ≤ s.dev.tick ∧ waitResult (s.dev.syncObj obj) w.threshold = none) ∧
    (∃ (s : State) (who : SyncIssuer) (g : Nat) (err : Bool) (o : Nat) (n : Nat), s.dev.prog.prog.bind (fun p => p.barriers[g]?) = some (o, n)) :=
  ⟨⟨withPkg id, who, 2, 1, true, 5, by decide +kernel⟩,
   ⟨withPkg id, who, 2, 1, 0, by decide +kernel⟩,
   ⟨withPkg id, who, 2, 7, by decide +kernel⟩,
   ⟨on (fun d => { d with sync := { d.sync with waiters := [{ who := 9, obj := 2, threshold := 1, due := some 0 }] } }), who, 2, { who := 9, obj := 2, threshold := 1, due := some 0 }, 0, by decide +kernel⟩,
   ⟨withPkg id, who, 0, false, 4, 2, by decide +kernel⟩⟩

theorem test_SyncRange_meets :
    (∃ (s : State) (who : SyncIssuer) (obj : Nat) (inc : Nat) (err : Bool) (cause : BitVec 16), s.dev.up = true ∧ s.dev.syncOwned who.partition obj = false) ∧
    (∃ (s : State) (who : SyncIssuer) (obj : Nat) (th : Nat) (to_ : Nat), s.dev.up = true ∧ s.dev.syncOwned who.partition obj = false) ∧
    (∃ (s : State) (who : SyncIssuer) (obj : Nat) (v : BitVec 32), s.dev.up = true ∧ s.dev.syncOwned who.partition obj = false) :=
  ⟨⟨bench, who, 2, 1, true, 5, by decide +kernel⟩,
   ⟨bench, who, 2, 1, 0, by decide +kernel⟩,
   ⟨bench, who, 2, 7, by decide +kernel⟩⟩

theorem test_SelfTests_meets :
    (∃ (s : State) (b : Bank) (region : Nat) (ecc : List EccEvent), s.dev.chunkRuns (bankInfo b).2.2.2.1 (bankInfo b).2.2.2.2 = true ∧ s.dev.nextRegion (bankInfo b).2.2.2.1 (bankInfo b).2.2.2.2 = ((bankInfo b).1 * 4096 + region, false)) ∧
    (∃ (s : State) (b : Bank) (region : Nat) (ecc : List EccEvent), s.dev.chunkRuns (bankInfo b).2.2.2.1 (bankInfo b).2.2.2.2 = true ∧ s.dev.nextRegion (bankInfo b).2.2.2.1 (bankInfo b).2.2.2.2 = ((bankInfo b).1 * 4096 + region, true)) ∧
    (∃ (s : State), s.dev.chunkRuns 4 0 = true) ∧
    (∃ (s : State) (e : Fin 4), s.dev.up = true ∧ (s.dev.solver e.val).out = false ∧ s.dev.chunkRuns 5 e.val = true) ∧
    (∃ (s : State) (k : Fin 64), s.dev.chunkRuns 6 0 = true ∧ (s.dev.coverOf 6 0).pos = k.val) ∧
    (∃ (s : State) (kind : Fin 8) (unit : Fin 25), s.dev.up = true ∧ (s.dev.testUnits kind.val).contains unit.val = true ∧ s.dev.chunkRuns kind.val unit.val = false ∧ (s.dev.coverOf kind.val unit.val).due + usTicks (s.dev.cfg 0xB200 (kind.val + 1)) ≤ s.dev.tick) ∧
    (∃ (s : State) (b : Bank) (region : Nat) (ecc : List EccEvent) (early : Bool), s.dev.up = true ∧ s.dev.chunkRuns (bankInfo b).2.2.2.1 (bankInfo b).2.2.2.2 = true ∧ s.dev.nextRegion (bankInfo b).2.2.2.1 (bankInfo b).2.2.2.2 = ((bankInfo b).1 * 4096 + region, early) ∧ kget 0 s.dev.mem.spares (bankInfo b).1 < (bankInfo b).2.2.1) ∧
    (∃ (s : State) (e : Fin 4), s.dev.up = true ∧ (s.dev.solver e.val).out = false ∧ s.dev.chunkRuns 5 e.val = true) ∧
    (∃ (s : State), s.dev.Inv ∧ s.dev.up = true ∧ s.dev.chunkRuns 4 0 = true) ∧
    (∃ (s : State) (kind : Fin 8), s.dev.up = true ∧ s.dev.diagTicks kind.val * 3 ≤ s.dev.coverAge kind.val * 4 ∧ (s.dev.coverOf kind.val 31).late = false) ∧
    (∃ (s : State) (kind : Fin 8), s.dev.up = true ∧ s.dev.diagTicks kind.val ≤ s.dev.coverAge kind.val ∧ (s.dev.coverOf kind.val 31).exceeded = false) :=
  ⟨⟨on (fun d => d.modCover 2 0 (fun c => { c with admitted := true, pos := 0 })), .iod 0, 0, [], by decide +kernel⟩,
   ⟨on (fun d => ({ d with mem := { d.mem with hits := [(548 * 4096 + 5, 1000000)] } } : Dev).modCover 2 0 (fun c => { c with admitted := true })), .iod 0, 5, [], by decide +kernel⟩,
   ⟨on (fun d => d.modCover 4 0 (fun c => { c with admitted := true, pos := 0 })), by decide +kernel⟩,
   ⟨on (fun d => d.modCover 5 2 (fun c => { c with admitted := true, pos := 0 })), 2, by decide +kernel⟩,
   ⟨on (fun d => d.modCover 6 0 (fun c => { c with admitted := true, pos := 0 })), 0, by decide +kernel⟩,
   ⟨bench, 4, 0, by decide +kernel⟩,
   ⟨on (fun d => d.modCover 2 0 (fun c => { c with admitted := true, pos := 0 })), .iod 0, 0, [], false, by decide +kernel⟩,
   ⟨on (fun d => d.modCover 5 1 (fun c => { c with admitted := true, pos := 0 })), 1, by decide +kernel⟩,
   ⟨on (fun d => d.modCover 4 0 (fun c => { c with admitted := true, pos := 0 })), by unfold Dev.Inv; decide +kernel, by decide +kernel⟩,
   ⟨bench, 1, by decide +kernel⟩,
   ⟨bench, 1, by decide +kernel⟩⟩

theorem test_PodsAndLinks_meets :
    (∃ (s : State), s.dev.up = true ∧ s.dev.resting.isSome = true ∧ s.dev.pods.due = none ∧ s.dev.pods.lastDue + msTicks (s.dev.cfg 0xB210 1) ≤ s.dev.tick) ∧
    (∃ (s : State) (t : Nat) (r : Nat) (o : Nat) (l : Nat), s.dev.pods.due = some t ∧ s.dev.resting = some r ∧ s.dev.outgoing = some o ∧ r ≠ o ∧ (s.dev.pod o).logical = some l ∧ s.dev.handoverFits l = true ∧ (s.dev.pod o).engine = none ∧ (s.dev.pod o).cores.all (fun c => c.2.isNone) = true ∧ s.dev.mover o = Mover.reset ∧ s.dev.pods.replace = none) ∧
    (∃ (s : State) (t : Nat), s.dev.up = true ∧ s.dev.pods.due = some t ∧ t + 2 * msTicks (s.dev.cfg 0xB210 1) ≤ s.dev.tick ∧ s.dev.pods.stalled = false) ∧
    (∃ (s : State) (p : Fin 25), s.dev.goldenRuns p.val = true ∧ (s.dev.pod p.val).golden + 1 ≠ 2048) ∧
    (∃ (s : State) (p : Fin 25) (ok : Bool) (seen : Bool), p.val < podsOf s.dev.code ∧ s.dev.goldenRuns p.val = true ∧ (ok && seen) = false) ∧
    (∃ (s : State) (r : Fin 25) (dir : Fin 4) (lost : Option (Fin 27 × Nat)), (4 * r.val + dir.val) ∉ s.dev.pods.meshDown) ∧
    (∃ (s : State) (k : Fin 8) (lost : Option (Fin 27 × Nat)), s.dev.up = true ∧ k.val ∉ s.dev.pods.coreDown) ∧
    (∃ (s : State) (k : Fin 8) (lost : Option (Fin 27 × Nat)), s.dev.up = true ∧ k.val ∉ s.dev.pods.coreDown) ∧
    (∃ (s : State) (k : Fin 8) (lost : Option (Fin 27 × Nat)), k.val ∉ s.dev.pods.coreDown) :=
  ⟨⟨on (fun d => d.modPod 0 (fun p => { p with state := .resting })), by decide +kernel⟩,
   ⟨on (fun d => (({ d with pods := { d.pods with due := some 0 } } : Dev).modPod 0 (fun p => { p with state := .resting })).modPod 1 (fun p => { p with state := .active, logical := some 0 })), 0, 0, 1, 0, by decide +kernel⟩,
   ⟨on (fun d => { d with pods := { d.pods with due := some 0 } }), 0, by decide +kernel⟩,
   ⟨on (fun d => d.modPod 0 (fun p => { p with state := .resting })), 0, by decide +kernel⟩,
   ⟨on (fun d => d.modPod 0 (fun p => { p with state := .resting })), 0, false, true, by decide +kernel⟩,
   ⟨bench, 0, 0, none, by decide +kernel⟩,
   ⟨bench, 0, none, by decide +kernel⟩,
   ⟨on (fun d => d.modMover 25 (fun m => { m with groups := [{ descs := [acc1], ticket := none }] })), 0, some (25, 0), by decide +kernel⟩,
   ⟨bench, 0, none, by decide +kernel⟩⟩

theorem test_MemoryUpkeep_meets :
    (∃ (s : State) (m : Fin 27) (i : Nat) (addr : Nat) (n : Nat) (g : FenceGroup) (t : List FenceGroup) (a : Accepted), s.dev.up = true ∧ 3 ≤ n ∧ (s.dev.mover m.val).groups = g :: t ∧ g.descs[i]? = some a ∧ a.cause = 0 ∧ (s.dev.rowKeys (s.dev.moverOwn m.val) ((s.dev.tdescAt (s.dev.moverOwn m.val) (mdesc a.words).dst).boxRows (mdesc a.words).dd ((mdesc a.words).dstExt.map Int.ofNat))).any (fun r => decide (r.1 < 3 * 2 ^ 44 + addr / 64 * 64 + 64) && decide (3 * 2 ^ 44 + addr / 64 * 64 < r.2)) = true) ∧
    (∃ (s : State) (l : List Int), s.dev.ddrLive = true ∧ s.dev.ddr.oscTick + msTicks 16 ≤ s.dev.tick) ∧
    (∃ (s : State), s.dev.ddrLive = true ∧ s.dev.ddr.zqTick + msTicks 128 ≤ s.dev.tick) ∧
    (∃ (s : State) (addr : Nat) (wp : Bool), s.dev.ddrLive = true ∧ addr = s.dev.ddr.patrol ∧ addr + 64 < s.dev.ddrSize) ∧
    (∃ (s : State) (addr : Nat) (wp : Bool), s.dev.ddrLive = true ∧ addr = s.dev.ddr.patrol) ∧
    (∃ (s : State), s.dev.up = true ∧ s.dev.ddrLive = true ∧ s.dev.ddr.late = false ∧ s.dev.ddr.passStart + sTicks (s.dev.cfg 0x2030 5) ≤ s.dev.tick) ∧
    (∃ (s : State) (l : List Int) (m : Int), s.dev.power.enDdr = true ∧ s.dev.ddr.tempTick + msTicks 16 ≤ s.dev.tick) :=
  ⟨⟨on (fun d => ({ d with mem := { d.mem with bytes := [(2 * 2 ^ 44 + 5, 48)] } } : Dev).modMover 25 (fun m => { m with groups := [{ descs := [acc1], ticket := none }] })), 25, 0, 0, 3, { descs := [acc1], ticket := none }, [], acc1, by decide +kernel⟩,
   ⟨bench, [1], by decide +kernel⟩,
   ⟨bench, by decide +kernel⟩,
   ⟨bench, 0, false, by decide +kernel⟩,
   ⟨bench, 0, false, by decide +kernel⟩,
   ⟨bench, by decide +kernel⟩,
   ⟨bench, [90], 80, by decide +kernel⟩⟩

theorem test_Schedule_meets :
    (∃ (s : State) (t : TableId) (i : Nat) (o : Nat) (n : Nat) (word : BurstResult), word ≠ .uncorrectable ∧ (s.dev.passEntries (tableNo t)).contains i = true ∧ entryKind (s.dev.entry (tableNo t) i) = 5 ∧ s.dev.entryWaits (tableNo t) i = true ∧ s.dev.cyc.flight.any (fun c => decide ((s.dev.pass (tableNo t)).cycle < c.number) && decide (c.tick + entryRelease (s.dev.entry (tableNo t) i) ≤ s.dev.tick)) = false ∧ (s.dev.pass (tableNo t)).tick + entryRelease (s.dev.entry (tableNo t) i) ≤ s.dev.tick ∧ s.dev.waitMet (s.dev.entry (tableNo t) i) = true ∧ entrySignal (s.dev.entry (tableNo t) i) = some (o, n) ∧ s.dev.mayName (s.dev.tablePart (tableNo t)) o = true) ∧
    (∃ (s : State) (t : TableId) (i : Nat), s.dev.up = true ∧ entryTimed (s.dev.entry (tableNo t) i) = true ∧ (s.dev.passEntries (tableNo t)).contains i = true ∧ entryDeadline (s.dev.entry (tableNo t) i) ≠ 0 ∧ (s.dev.pass (tableNo t)).ended = false ∧ (s.dev.pass (tableNo t)).tick + entryDeadline (s.dev.entry (tableNo t) i) ≤ s.dev.tick ∧ (s.dev.pass (tableNo t)).skipped.contains i = false ∧ (s.dev.pass (tableNo t)).done.contains i = false ∧ (s.dev.pass (tableNo t)).started.contains i = true) ∧
    (∃ (s : State) (l : Fin 24) (p : Nat) (g : Nat), s.dev.physOf l.val = some p ∧ s.dev.gapOf l.val = some g ∧ (s.dev.pod p).state = .gated ∧ (s.dev.pod p).waking = false ∧ g ≤ max (nsTicks (s.dev.cfg 0x5000 4)) ((s.dev.pod p).wakeTicks + usTicks 2)) ∧
    (∃ (s : State) (p : Fin 25), (s.dev.pod p.val).waking = true ∧ (((s.dev.pod p.val).state = .gated ∨ (s.dev.pod p.val).state = .collapsed))) ∧
    (∃ (s : State) (t : TableId) (i : Nat) (x : IdleItem), s.dev.idleAt (tableNo t) i = some x ∧ s.dev.executorFree (tableNo t) (entryKind (s.dev.entry (tableNo t) i)) = true ∧ s.dev.itemFits (tableNo t) (entryKind (s.dev.entry (tableNo t) i)) (s.dev.tick + wcetTicks (entryWcet (s.dev.entry (tableNo t) i))) x.promoted = true ∧ s.dev.nextIdle (tableNo t) (entryKind (s.dev.entry (tableNo t) i)) = some x ∧ s.dev.waitMet (s.dev.entry (tableNo t) i) = true ∧ unitKind (entryKind (s.dev.entry (tableNo t) i)) ≠ 0) ∧
    (∃ (s : State) (t : TableId) (i : Nat) (x : IdleItem), s.dev.idleAt (tableNo t) i = some x ∧ x.promoted = false ∧ x.ready + msTicks (if entryClass (s.dev.entry (tableNo t) i) = 2 then s.dev.cfg 0x2040 1 else s.dev.cfg 0x2040 2) < s.dev.tick) ∧
    (∃ (s : State) (r : Fin 25) (m : Fin 27) (i : Nat) (g : FenceGroup) (rest : List FenceGroup) (a : Accepted), (s.dev.mover m.val).groups = g :: rest ∧ g.descs[i]? = some a ∧ a.cause = 0 ∧ a.at_ = r.val ∧ 2 ≤ s.dev.groupClass g ∧ 2 * s.dev.cfg 0x2040 3 < 7 * (s.dev.tick - a.since) ∧ s.dev.safetyWaits r.val a.ahead.head? = false) :=
  ⟨⟨sched1 0 5 id, .pod 0, 0, 4, 1, .good, by decide +kernel⟩,
   ⟨table 0 entrySig (open1 [0]) id, .pod 0, 0, by decide +kernel⟩,
   ⟨sched1 0 1 (fun p => { p with state := .gated }), 0, 0, 0, by decide +kernel⟩,
   ⟨on (fun d => d.modPod 0 (fun p => { p with state := .gated, waking := true })), 0, by decide +kernel⟩,
   ⟨withIdle, .pod 0, 0, idle1, by decide +kernel⟩,
   ⟨withIdle, .pod 0, 0, idle1, by decide +kernel⟩,
   ⟨on (fun d => d.modMover 25 (fun m => { m with groups := [{ descs := [acc1], ticket := none }] })), 0, 25, 0, { descs := [acc1], ticket := none }, [], acc1, by decide +kernel⟩⟩

theorem test_PodWork_meets :
    (∃ (s : State) (l : Fin 24) (o : OpDesc) (p : Nat), s.dev.physOf l.val = some p ∧ (s.dev.pod p).state = .active ∧ (s.dev.pod p).engine = none ∧ s.dev.starts l.val 1 o.work = some o.index ∧ s.dev.opRefusal (some l.val) o = 0) ∧
    (∃ (s : State) (l : Fin 24) (ups : List EngineUpset) (ecc : List EccEvent) (p : Nat) (r : RunOp), s.dev.physOf l.val = some p ∧ (s.dev.pod p).engine = some r) ∧
    (∃ (s : State) (l : Fin 24) (ups : List EngineUpset) (ecc : List EccEvent) (p : Nat) (o : Nat) (n : Nat) (r : RunOp), s.dev.physOf l.val = some p ∧ (s.dev.pod p).engine = some r ∧ (s.dev.opOutcome l.val r.desc ups ecc).causes = [] ∧ entrySignal (s.dev.entry r.ticket.table r.ticket.entry) = some (o, n) ∧ s.dev.mayName (s.dev.tablePart l.val) o = true) ∧
    (∃ (s : State) (l : Fin 24) (x : PipStep) (p : Nat) (i : Nat), s.dev.physOf l.val = some p ∧ s.dev.starts l.val 2 x.number = some i ∧ (s.dev.pod p).state = .active ∧ (pipCores ({ x with checked := x.checked || decide (entryClass (s.dev.entry l.val i) ≤ 1) || decide (x.work ≠ .program) })).all (fun c => (s.dev.stepOn p c).isNone) = true ∧ s.dev.pipRefusal l.val ({ x with checked := x.checked || decide (entryClass (s.dev.entry l.val i) ≤ 1) || decide (x.work ≠ .program) }) false = 0) ∧
    (∃ (s : State) (l : Fin 24) (core : Fin 4) (flips : List Byte) (ecc : List EccEvent) (p : Nat) (r : RunStep), s.dev.physOf l.val = some p ∧ s.dev.stepOn p core.val = some r) ∧
    (∃ (s : State) (l : Fin 24) (core : Fin 4) (p : Nat) (r : RunStep), s.dev.physOf l.val = some p ∧ s.dev.stepOn p core.val = some r ∧ 2 * r.step.wcet ≤ 7 * (s.dev.tick - r.tick)) :=
  ⟨⟨sched1 0 1 id, 0, opd, 0, by decide +kernel⟩,
   ⟨sched1 0 1 (fun p => { p with engine := some { desc := opd, ticket := tick1 } }), 0, [], [], 0, { desc := opd, ticket := tick1 }, by decide +kernel⟩,
   ⟨sched1 0 1 (fun p => { p with engine := some { desc := opd, ticket := tick1 } }), 0, [], [], 0, 4, 1, { desc := opd, ticket := tick1 }, by decide +kernel⟩,
   ⟨sched1 0 2 id, 0, pip1, 0, 0, by decide +kernel⟩,
   ⟨sched1 0 2 (fun p => { p with cores := [(0, some run1)] }), 0, 0, [], [], 0, run1, by decide +kernel⟩,
   ⟨sched1 0 2 (fun p => { p with cores := [(0, some run1)] }), 0, 0, 0, run1, by decide +kernel⟩⟩

theorem test_FusionSteps_meets :
    (∃ (s : State) (l : Fin 24) (core : Fin 4) (flips : List Byte) (ecc : List EccEvent) (p : Nat) (r : RunStep), s.dev.physOf l.val = some p ∧ s.dev.stepOn p core.val = some r ∧ r.step.work ≠ .program ∧ (s.dev.readKeys (s.dev.pipKeys l.val r.step) ecc).2 = 0 ∧ ((r.step.checked = false ∨ flips.all (fun x => x == 0) = true))) ∧
    (∃ (d : Dev) (e : Dev) (l : Nat) (s : PipStep), d.prog.prog.map (fun p => p.digest) = e.prog.prog.map (fun p => p.digest) ∧ (d.pipKeys l s).flatMap (fun r => d.mem.readN r.1 (r.2 - r.1)) = (e.pipKeys l s).flatMap (fun r => e.mem.readN r.1 (r.2 - r.1))) ∧
    (∃ (scores : List Nat) (mask : List Bool), mask.length = scores.length) ∧
    (∃ (d : Dev) (c : CycleCtx) (ev : List Evidence) (occ : List (Nat × Byte)) (i : Nat), d.computing = some c ∧ i < d.gridX * d.gridY) :=
  ⟨⟨sched1 0 2 (fun p => { p with cores := [(0, some { run1 with step := { pip1 with work := .predict 0 [] } })] }), 0, 0, [], [], 0, { run1 with step := { pip1 with work := .predict 0 [] } }, by decide +kernel⟩,
   ⟨(sched1 0 2 id).dev, (sched1 0 2 (fun p => { p with pll := true })).dev, 0, pip1, by decide +kernel⟩,
   ⟨[1, 2], [true, false], by decide +kernel⟩,
   ⟨(on (fun d => obj 0x5010 1 16 (obj 0x5010 3 16 { d with cyc := { d.cyc with flight := [cyc1] } }))).dev, cyc1, [], [], 0, by decide +kernel⟩⟩

theorem test_Movers_meets :
    (∃ (s : State) (m : Fin 27) (work : Nat) (part : Fin 8) (ws : List Word) (t : Nat) (i : Nat), s.dev.moverTable m.val = some t ∧ s.dev.starts t 3 work = some i) ∧
    (∃ (s : State) (m : Fin 27) (bad : List Nat) (ecc : List EccEvent) (g : FenceGroup) (rest : List FenceGroup), (s.dev.mover m.val).groups = g :: rest) ∧
    (∃ (s : State) (l : Fin 24) (w : Fin 64) (p : Nat) (i : Nat), s.dev.physOf l.val = some p ∧ (s.dev.passEntries l.val).find? (fun i => entryKind (s.dev.entry l.val i) == 4 && entryWork (s.dev.entry l.val i) % 64 == w.val && s.dev.entryWaits l.val i) = some i ∧ (s.dev.pass l.val).tick + entryRelease (s.dev.entry l.val i) ≤ s.dev.tick ∧ s.dev.waitMet (s.dev.entry l.val i) = true ∧ s.dev.podBusy p = false ∧ (kget Window.reset (s.dev.pod p).windows w.val).size ≠ 0) :=
  ⟨⟨sched1 28 3 id, 25, 0, 0, [1], 28, 0, by decide +kernel⟩,
   ⟨on (fun d => d.modMover 0 (fun m => { m with groups := [{ descs := [], ticket := none }] })), 0, [], [], { descs := [], ticket := none }, [], by decide +kernel⟩,
   ⟨sched1 0 4 (fun p => { p with windows := [(0, { Window.reset with size := 64, en := true, stp := 0 })] }), 0, 0, 0, 0, by decide +kernel⟩⟩

theorem test_SolverJobs_meets :
    (∃ (s : State) (e : Fin 4) (w : List Word) (part : Fin 8) (work : Nat) (i : Nat) (tr : Option (Fin 8)), s.dev.inRun = true ∧ (s.dev.solver e.val).out = false ∧ (s.dev.solver e.val).job = none ∧ s.dev.starts (24 + e.val) 6 work = some i ∧ (s.dev.startEntry (24 + e.val) i).jobRefusal w (entryClass (s.dev.entry (24 + e.val) i)) = 0 ∧ ((s.dev.startEntry (24 + e.val) i).jobWrites (jobOf w)).all (fun x => (s.dev.startEntry (24 + e.val) i).solverMay part.val x.1 x.2) = true ∧ (s.dev.startEntry (24 + e.val) i).cutDue e.val ({ words := w, ticket := s.dev.ticket (24 + e.val) i, partition := part.val, track := tr.map Fin.val }) = false) ∧
    (∃ (s : State) (e : Fin 4) (lost : Bool) (par : Bool) (ecc : List EccEvent) (r : RunJob), (s.dev.solver e.val).job = some r) ∧
    (∃ (s : State) (e : Fin 4) (n : Nat) (k : Nat) (r : RunJob), (s.dev.solver e.val).job = some r ∧ s.dev.cutDue e.val r = true) :=
  ⟨⟨table 24 [6 * 2 ^ 60, 0, 0, 0] (open1 []) (fun d => { d with prog := { d.prog with prog := some pkg, active := some 0 } }), 0, [9 * 2 ^ 60 + 2 * 2 ^ 44, 0, 0, 2 * 2 ^ 44, 2 * 2 ^ 44, 0, 0, 0], 0, 0, 0, none, by decide +kernel⟩,
   ⟨on (fun d => d.modSolver 0 (fun x => { x with job := some rjob })), 0, false, false, [], rjob, by decide +kernel⟩,
   ⟨table 24 (entryOf 6) (open1 []) (fun d => d.modSolver 0 (fun x => { x with job := some rjob })), 0, 0, 0, rjob, by decide +kernel⟩⟩

theorem test_CycleInstants_meets :
    (∃ (s : State) (n : Int), s.dev.cyc.next = some n ∧ n ≤ s.dev.now ∧ s.dev.cyc.flight.length < 2 ∧ s.dev.inRun = true ∧ s.dev.lockDue = none) ∧
    (∃ (s : State) (n : Int), s.dev.cyc.next = some n ∧ n ≤ s.dev.now ∧ s.dev.cyc.flight.length < 2 ∧ s.dev.inReady = true) ∧
    (∃ (s : State) (n : Int) (x : Dom), s.dev.cyc.next = some n ∧ n ≤ s.dev.now ∧ s.dev.cyc.flight.length < 2 ∧ s.dev.inRun = true ∧ s.dev.lockDue = some x) :=
  ⟨⟨on (fun d => { d with cyc := { d.cyc with next := some 0 } }), 0, by decide +kernel⟩,
   ⟨inState .ready (fun d => { d with cyc := { d.cyc with next := some 0 } }), 0, by decide +kernel⟩,
   ⟨on (fun d => { d with cyc := { d.cyc with next := some 0 }, time := { d.time with selected := some .a } }), 0, .a, by decide +kernel⟩⟩

theorem test_CycleEnd_meets :
    (∃ (s : State) (c : CycleCtx) (rest : List CycleCtx), s.dev.cyc.flight = c :: rest ∧ c.closed = false ∧ c.epoch = false ∧ c.tv + s.dev.margin ≤ (s.dev.now : Int)) ∧
    (∃ (s : State) (c : CycleCtx) (rest : List CycleCtx) (z : BitVec 64) (t : Store Nat) (v : Store PairEntry), s.dev.cyc.flight = c :: rest ∧ c.closed = true ∧ c.tick + usTicks (s.dev.cfg 0x5000 6) ≤ s.dev.tick ∧ s.dev.fus.cand.summary = some (z, t, v) ∧ s.dev.fus.cand.bad = false ∧ s.dev.hull.genFault = none ∧ s.dev.fus.cand.evalEnd ≤ c.tick + usTicks (s.dev.cfg 0x5000 6)) ∧
    (∃ (s : State) (c : CycleCtx) (rest : List CycleCtx), s.dev.cyc.flight = c :: rest ∧ c.closed = true ∧ c.tick + usTicks (s.dev.cfg 0x5000 6) ≤ s.dev.tick ∧ ((s.dev.fus.cand.summary = none ∨ s.dev.fus.cand.bad = true ∨ s.dev.hull.genFault.isSome = true ∨ c.tick + usTicks (s.dev.cfg 0x5000 6) < s.dev.fus.cand.evalEnd))) ∧
    (∃ (s : State) (c : CycleCtx) (rest : List CycleCtx), s.dev.cyc.flight = c :: rest ∧ c.closed = true ∧ c.tick + usTicks (s.dev.cfg 0x5000 6) ≤ s.dev.tick ∧ ((s.dev.fus.cand.summary = none ∨ s.dev.fus.cand.bad = true ∨ s.dev.hull.genFault.isSome = true ∨ c.tick + usTicks (s.dev.cfg 0x5000 6) < s.dev.fus.cand.evalEnd)) ∧ s.dev.Inv ∧ s.dev.cfg 0x7000 4 < satU 8 (s.dev.hull.discards + 1)) :=
  ⟨⟨on (fun d => { d with cyc := { d.cyc with flight := [{ cyc1 with closed := false }] } }), { cyc1 with closed := false }, [], by decide +kernel⟩,
   ⟨on (fun d => { d with cyc := { d.cyc with flight := [cyc1] }, fus := { d.fus with cand := { d.fus.cand with summary := some (0, [], []) } } }), cyc1, [], 0, [], [], by decide +kernel⟩,
   ⟨on (fun d => { d with cyc := { d.cyc with flight := [cyc1] } }), cyc1, [], by decide +kernel⟩,
   ⟨on (fun d => { d with cyc := { d.cyc with flight := [cyc1] }, hull := { d.hull with discards := 20 } }), cyc1, [], by decide +kernel, by decide +kernel, by decide +kernel, by decide +kernel, by unfold Dev.Inv; decide +kernel, by decide +kernel⟩⟩

theorem test_SummaryChecks_meets :
    (∃ (s : State) (c : CycleCtx) (rest : List CycleCtx) (bytes : List Byte) (faulted : Bool) (clocks : Nat), s.dev.up = true ∧ s.dev.cyc.flight = c :: rest ∧ ((faulted = true ∨ bytes.length ≠ 4640 ∨ wfld (wat (leWords 580 bytes) 579) 31 0 ≠ (crc32c (bytes.take 4632)).toNat ∨ wfld (wat (leWords 580 bytes) 0) 63 16 ≠ c.number ∨ (wat (leWords 580 bytes) 1).toNat ≠ (c.tv % 2 ^ 64).toNat ∨ wfld (wat (leWords 580 bytes) 2) 63 32 ≠ (s.dev.hull.g + 1).toNat))) ∧
    (∃ (s : State) (c : CycleCtx) (rest : List CycleCtx) (bytes : List Byte) (clocks : Nat), s.dev.cyc.flight = c :: rest ∧ bytes.length = 4640 ∧ wfld (wat (leWords 580 bytes) 579) 31 0 = (crc32c (bytes.take 4632)).toNat ∧ wfld (wat (leWords 580 bytes) 0) 63 16 = c.number ∧ (wat (leWords 580 bytes) 1).toNat = (c.tv % 2 ^ 64).toNat ∧ wfld (wat (leWords 580 bytes) 2) 63 32 = (s.dev.hull.g + 1).toNat ∧ s.dev.hull.genFault = none) :=
  ⟨⟨on (fun d => { d with cyc := { d.cyc with flight := [cyc1] } }), cyc1, [], [], true, 0, by decide +kernel⟩,
   ⟨on (fun d => { d with cyc := { d.cyc with flight := [cyc1] } }), cyc1, [], summary1, 1, rfl, by simp [summary1, summary0_length, leBytes], summary1_crc, by rw [summary1_word _ (by decide)]; decide +kernel, by rw [summary1_word _ (by decide)]; decide +kernel, by rw [summary1_word _ (by decide)]; decide +kernel, rfl⟩⟩

theorem test_HullStops_meets :
    (∃ (s : State), s.dev.Inv ∧ s.dev.up = true) ∧
    (∃ (s : State) (b : Bool), s.dev.Inv ∧ s.dev.up = true ∧ s.dev.pinHigh b = true ∧ s.dev.cfg 0x7000 0x0E = 1 ∧ s.dev.darkDue b = true) ∧
    (∃ (s : State) (b : Bool), s.dev.pinHigh b = true ∧ s.dev.cfg 0x7000 0x0E = 1 ∧ s.dev.darkDue b = true) ∧
    (∃ (s : State) (b : Bool) (high : Bool), s.dev.Inv ∧ s.dev.up = true ∧ high ≠ s.dev.pinHigh b) ∧
    (∃ (s : State) (p : Fin 256) (t : Nat) (lim : Nat) (v : Nat), s.dev.Inv ∧ s.dev.inRun = true ∧ kget none s.dev.hull.exceeded p.val = some (t, lim) ∧ s.dev.tierSpeed = some v ∧ s.dev.pairOn p.val = true ∧ t + usTicks (s.dev.cfg 0x7000 0x0A) < s.dev.tick ∧ v < s.dev.speedOf p.val ∧ kget 0 s.dev.hull.demands (srcSpeed p.val) = 0) :=
  ⟨⟨bench, by unfold Dev.Inv; decide +kernel, by decide +kernel⟩,
   ⟨on (obj 0x7000 0x0E 1), false, by unfold Dev.Inv; decide +kernel, by decide +kernel⟩,
   ⟨on (obj 0x7000 0x0E 1), false, by decide +kernel⟩,
   ⟨bench, false, false, by unfold Dev.Inv; decide +kernel, by decide +kernel⟩,
   ⟨on (fun d => obj 0x7400 1 1 (obj 0x7400 5 0xFF (obj 0x7400 7 300 { d with hull := { d.hull with tier := 2, exceeded := [(0, some (0, 250))] } }))), 0, 0, 250, 250, by unfold Dev.Inv; decide +kernel, by decide +kernel⟩⟩

theorem test_HullTimers_meets :
    (∃ (s : State) (q : Fin 4) (t : Nat), kget none s.dev.hull.offDelay q.val = some t ∧ t ≤ s.dev.tick) ∧
    (∃ (s : State), s.dev.cfg 0x7000 0x13 ≠ 0 ∧ s.dev.inRun = true ∧ s.dev.hull.watchdog = false ∧ s.dev.hull.cmdTick + msTicks (s.dev.cfg 0x7000 0x0B) ≤ s.dev.tick) ∧
    (∃ (s : State), s.dev.cfg 0x7000 0x13 ≠ 0 ∧ s.dev.hull.firstCommit = true ∧ s.dev.hull.statusTick + msTicks (s.dev.cfg 0x7000 0x14) ≤ s.dev.tick) :=
  ⟨⟨on (fun d => { d with hull := { d.hull with offDelay := [(1, some 0)] } }), 1, 0, by decide +kernel⟩,
   ⟨on (obj 0x7000 0x13 1), by decide +kernel⟩,
   ⟨on (fun d => obj 0x7000 0x13 1 { d with hull := { d.hull with firstCommit := true } }), by decide +kernel⟩⟩

theorem test_EdgeLink_meets :
    (∃ (s : State), hasEdge s.dev.code = true ∧ s.dev.edge.sendTick + usTicks 100 ≤ s.dev.tick) ∧
    (∃ (s : State) (sq : BitVec 8) (sp : BitVec 16), hasEdge s.dev.code = true) ∧
    (∃ (s : State) (l : Lanes) (sq : BitVec 8) (sp : BitVec 16), hasEdge s.dev.code = true ∧ l ≠ .agree) ∧
    (∃ (s : State), hasEdge s.dev.code = true ∧ s.dev.edge.cmdTick + usTicks 500 ≤ s.dev.tick) ∧
    (∃ (s : State), hasEdge s.dev.code = true) ∧
    (∃ (s : State) (k : Nat) (u : Nat) (x : Nat), hasEdge s.dev.code = true ∧ s.dev.Inv ∧ s.dev.edge.reports = [(k, u, x)] ∧ k ∈ [0x1201, 0x1202, 0x1203, 0x1204, 0x120A, 0x120B, 0x120D]) ∧
    (∃ (s : State) (l : Lanes), hasEdge s.dev.code = true ∧ s.dev.Inv ∧ s.dev.up = true ∧ l ≠ .agree) ∧
    (∃ (s : State), hasEdge s.dev.code = true ∧ s.dev.Inv ∧ s.dev.up = true ∧ s.dev.edge.lost = false ∧ s.dev.edge.statusTick + usTicks 500 ≤ s.dev.tick) :=
  ⟨⟨bench, by decide +kernel⟩,
   ⟨bench, 1, 1, by decide +kernel⟩,
   ⟨bench, .differ, 0, 0, by decide +kernel⟩,
   ⟨bench, by decide +kernel⟩,
   ⟨bench, by decide +kernel⟩,
   ⟨on (fun d => { d with edge := { d.edge with reports := [(0x1201, 2, 0)] } }), 0x1201, 2, 0, by decide +kernel, by unfold Dev.Inv; decide +kernel, by decide +kernel⟩,
   ⟨bench, .single, by decide +kernel, by unfold Dev.Inv; decide +kernel, by decide +kernel⟩,
   ⟨bench, by decide +kernel, by unfold Dev.Inv; decide +kernel, by decide +kernel⟩⟩

theorem test_SafetyOutputs_meets :
    (∃ (s : State) (fell : List (Fin 8)) (c : Nat) (rest : List Nat), hasEdge s.dev.code = true ∧ s.dev.edge.turns = c :: rest ∧ s.dev.edge.turnTick + usTicks 10 ≤ s.dev.tick) ∧
    (∃ (s : State) (ch : Fin 12), hasEdge s.dev.code = true ∧ ch.val < 8 ∧ (s.dev.sq ch.val).on = true ∧ s.dev.pulseDue ch.val = true) ∧
    (∃ (s : State) (ch : Fin 12) (raw : BitVec 16), hasEdge s.dev.code = true ∧ ch.val < 8 ∧ (s.dev.sq ch.val).pulse = true ∧ (s.dev.sq ch.val).void = false ∧ 19200 ≤ s.dev.edge.vedge ∧ s.dev.sampleDue (s.dev.sq ch.val).opened = true) ∧
    (∃ (s : State) (ch : Fin 12) (raw : BitVec 16), hasEdge s.dev.code = true ∧ ch.val < 8 ∧ (s.dev.sq ch.val).pulse = true ∧ s.dev.sampleDue (s.dev.sq ch.val).opened = true) ∧
    (∃ (s : State) (c : Fin 8), hasEdge s.dev.code = true ∧ (s.dev.sq c.val).on = false ∧ (s.dev.sq c.val).latched = 0 ∧ (∀ t, (s.dev.sq c.val).opened = some t → t + msTicks 1 ≤ s.dev.tick)) ∧
    (∃ (s : State) (c : Fin 8), hasEdge s.dev.code = true ∧ (s.dev.sq c.val).on = true ∧ (s.dev.sq c.val).onTick + msTicks 5 ≤ s.dev.tick) ∧
    (∃ (s : State) (c : Fin 8), hasEdge s.dev.code = true ∧ (s.dev.sq c.val).on = true ∧ (s.dev.sq c.val).onTick + msTicks 100 ≤ s.dev.tick) ∧
    (∃ (s : State) (c : Fin 8), hasEdge s.dev.code = true ∧ (((s.dev.sq c.val).latched = 0x1201 ∨ (s.dev.sq c.val).latched = 0x1203)) ∧ (s.dev.sq c.val).lowTick + msTicks 100 ≤ s.dev.tick) ∧
    (∃ (s : State) (c : Fin 8) (t : Nat), hasEdge s.dev.code = true ∧ (s.dev.sq c.val).watch = some t ∧ t ≤ s.dev.tick) ∧
    (∃ (s : State) (c : Fin 8) (k : Nat), hasEdge s.dev.code = true ∧ (s.dev.sq c.val).latched = 0x1201 ∧ s.dev.lastOpened c.val = some k) :=
  ⟨⟨on (fun d => { d with edge := { d.edge with turns := [1] } }), [], 1, [], by decide +kernel⟩,
   ⟨on (fun d => { (sq 2 (fun x => { x with on := true })).dev with edge := { (sq 2 (fun x => { x with on := true })).dev.edge with frameTick := d.tick - msTicks 2 } }), 2, by decide +kernel⟩,
   ⟨on (fun d => { (sq 2 (fun x => { x with on := true, pulse := true, opened := some 0 })).dev with edge := { (sq 2 (fun x => { x with on := true, pulse := true, opened := some 0 })).dev.edge with vedge := 24000 } }), 2, 0, by decide +kernel⟩,
   ⟨sq 2 (fun x => { x with on := true, pulse := true, opened := some 0 }), 2, 0, by decide +kernel⟩,
   ⟨bench, 3, by decide +kernel⟩,
   ⟨sq 2 (fun x => { x with on := true }), 2, by decide +kernel⟩,
   ⟨sq 2 (fun x => { x with on := true }), 2, by decide +kernel⟩,
   ⟨sq 2 (fun x => { x with latched := 0x1201 }), 2, by decide +kernel⟩,
   ⟨sq 2 (fun x => { x with watch := some 0 }), 2, 0, by decide +kernel⟩,
   ⟨on (fun d => (d.modSq 2 (fun x => { x with latched := 0x1201 })).modSq 4 (fun x => { x with opened := some d.tick })), 2, 4, by decide +kernel⟩⟩

theorem test_SafetyInputs_meets :
    (∃ (s : State) (i : Fin 16) (on : Bool), hasEdge s.dev.code = true ∧ s.dev.readingExcluded i.val = false) ∧
    (∃ (s : State) (p : Fin 8) (t : Nat), hasEdge s.dev.code = true ∧ (kget InputPair.reset s.dev.edge.pairs p.val).differ = some t ∧ (kget InputPair.reset s.dev.edge.pairs p.val).state < 2 ∧ t + msTicks (s.dev.cfg 0x7300 (p.val + 9)) ≤ s.dev.tick) ∧
    (∃ (s : State) (ch : Fin 12) (high : Bool) (raw : BitVec 16), hasEdge s.dev.code = true ∧ 8 ≤ ch.val ∧ s.dev.edge.pulsed.contains ch.val = true ∧ s.dev.edge.pulsed.contains (ch.val + 8) = false ∧ s.dev.sampleDue (kget none s.dev.edge.sourceTick (ch.val - 8)) = true) ∧
    (∃ (s : State), hasEdge s.dev.code = true ∧ s.dev.edge.frameTick + msTicks 20 ≤ s.dev.tick) :=
  ⟨⟨bench, 5, true, by decide +kernel⟩,
   ⟨on (fun d => d.modPair 1 (fun p => { p with differ := some 0 })), 1, 0, by decide +kernel⟩,
   ⟨on (fun d => { d with edge := { d.edge with pulsed := [8], sourceTick := [(0, some 0)] } }), 8, true, 0, by decide +kernel⟩,
   ⟨bench, by decide +kernel⟩⟩

theorem test_SensorSupplies_meets :
    (∃ (s : State) (n : Fin 16), hasEdge s.dev.code = true ∧ ((kget 0 s.dev.edge.supplies n.val = 1 ∨ kget 0 s.dev.edge.supplies n.val = 3 ∨ kget 0 s.dev.edge.supplies n.val = 4))) ∧
    (∃ (s : State) (n : Fin 16), hasEdge s.dev.code = true ∧ kget 0 s.dev.edge.supplies n.val = 1) ∧
    (∃ (s : State) (n : Fin 16), hasEdge s.dev.code = true ∧ ((kget 0 s.dev.edge.supplies n.val = 1 ∨ kget 0 s.dev.edge.supplies n.val = 3))) ∧
    (∃ (s : State) (n : Fin 16), hasEdge s.dev.code = true ∧ kget 0 s.dev.edge.supplies n.val = 3) ∧
    (∃ (s : State) (n : Fin 16), hasEdge s.dev.code = true ∧ kget 0 s.dev.edge.supplies n.val = 4) ∧
    (∃ (s : State) (vedge : Nat) (vsens : Nat) (temp : Int), hasEdge s.dev.code = true ∧ s.dev.edge.measureTick + usTicks 100 ≤ s.dev.tick) ∧
    (∃ (s : State) (u : Nat), hasEdge s.dev.code = true ∧ s.dev.edge.vedgeBad = some u ∧ u + msTicks 1 ≤ s.dev.tick ∧ kget 0 s.dev.hull.demands srcVedge = 0 ∧ s.dev.edge.reports.any (fun r => r.1 == 0x120A) = false) ∧
    (∃ (s : State) (u : Nat), hasEdge s.dev.code = true ∧ s.dev.edge.vsensOk = some u ∧ s.dev.edge.vsensOver = true ∧ u + msTicks 100 ≤ s.dev.tick) ∧
    (∃ (s : State) (u : Nat), hasEdge s.dev.code = true ∧ s.dev.edge.coolSince = some u ∧ s.dev.edge.hot = true ∧ u + sTicks 10 ≤ s.dev.tick) :=
  ⟨⟨on (fun d => { d with edge := { d.edge with supplies := [(3, 1)] } }), 3, by decide +kernel⟩,
   ⟨on (fun d => { d with edge := { d.edge with supplies := [(3, 1)] } }), 3, by decide +kernel⟩,
   ⟨on (fun d => { d with edge := { d.edge with supplies := [(3, 1)] } }), 3, by decide +kernel⟩,
   ⟨on (fun d => { d with edge := { d.edge with supplies := [(3, 3)] } }), 3, by decide +kernel⟩,
   ⟨on (fun d => { d with edge := { d.edge with supplies := [(3, 4)] } }), 3, by decide +kernel⟩,
   ⟨bench, 24000, 24000, 0, by decide +kernel⟩,
   ⟨on (fun d => { d with edge := { d.edge with vedgeBad := some 0 } }), 0, by decide +kernel⟩,
   ⟨on (fun d => { d with edge := { d.edge with vsensOk := some 0, vsensOver := true } }), 0, by decide +kernel⟩,
   ⟨on (fun d => { d with edge := { d.edge with coolSince := some 0, hot := true } }), 0, by decide +kernel⟩⟩

theorem test_TwinLink_meets :
    (∃ (s : State), s.dev.pairEnabled = true ∧ s.dev.paired = true ∧ s.dev.twin.beatTick + usTicks 100 ≤ s.dev.tick) ∧
    (∃ (s : State) (f : TwinFrame), s.dev.Usable f) ∧
    (∃ (s : State) (f : TwinFrame), s.dev.pairEnabled = true ∧ s.dev.twin.up = true ∧ f.lanes ≠ .agree) ∧
    (∃ (s : State), s.dev.pairEnabled = true ∧ s.dev.twin.up = true ∧ s.dev.paired = false ∧ s.dev.twin.discovering = true ∧ s.dev.twin.idTick + msTicks 10 ≤ s.dev.tick) ∧
    (∃ (s : State), s.dev.pairEnabled = true ∧ s.dev.twin.up = false) ∧
    (∃ (s : State), s.dev.pairEnabled = true ∧ s.dev.twin.up = false) ∧
    (∃ (s : State), s.dev.pairEnabled = true ∧ s.dev.twin.up = false ∧ s.dev.paired = false ∧ s.dev.twin.trainTick + sTicks 1 ≤ s.dev.tick) ∧
    (∃ (s : State) (f : TwinFrame), s.dev.pairEnabled = true ∧ s.dev.twin.up = true ∧ f.lanes = .single) ∧
    (∃ (s : State) (f : TwinFrame), f.lanes = .agree) ∧
    (∃ (s : State), s.dev.start.step = some 10 ∧ s.dev.pairEnabled = true ∧ s.dev.paired = false ∧ s.dev.start.stepTick + msTicks 200 ≤ s.dev.tick ∧ kget 0 s.dev.hull.demands srcLinkLoss = 0) ∧
    (∃ (s : State), s.dev.up = true ∧ s.dev.paired = true ∧ s.dev.twin.lastUsed + usTicks 300 ≤ s.dev.tick) :=
  ⟨⟨twin (fun t => { t with partner := 1 }) id, by decide +kernel⟩,
   ⟨twin (fun t => { t with up := true }) id, frm .agree, ⟨by decide +kernel, by decide +kernel, by decide +kernel, .inl rfl⟩⟩,
   ⟨twin (fun t => { t with up := true }) id, frm .differ, by decide +kernel⟩,
   ⟨twin (fun t => { t with up := true, discovering := true }) id, by decide +kernel⟩,
   ⟨twin id id, by decide +kernel⟩,
   ⟨twin id id, by decide +kernel⟩,
   ⟨twin id id, by decide +kernel⟩,
   ⟨twin (fun t => { t with up := true }) id, frm .single, by decide +kernel⟩,
   ⟨bench, frm .agree, by decide +kernel⟩,
   ⟨twin id (fun d => { d with start := { d.start with step := some 10 } }), by decide +kernel⟩,
   ⟨twin (fun t => { t with partner := 1 }) id, by decide +kernel⟩⟩

theorem test_TwinPair_meets :
    (∃ (s : State) (f : TwinFrame), s.dev.Usable f ∧ s.dev.paired = true) ∧
    (∃ (s : State) (f : TwinFrame) (x : Decided), s.dev.Usable f ∧ s.dev.paired = true ∧ s.dev.twin.own.find? (fun x => s.dev.pairsWith (wat f.payload 0).toInt x && !x.discarded) = some x ∧ s.dev.valuesAgree x.vals (valuesOf f.payload) = false ∧ s.dev.cfg 0x7100 7 ≤ s.dev.twin.tolBad + 1 ∧ kget 0 s.dev.hull.demands srcTolerance = 0) ∧
    (∃ (s : State) (c : BitVec 48) (x : Decided), s.dev.up = true ∧ s.dev.Inv ∧ s.dev.paired = true ∧ s.dev.twin.own.find? (fun y => y.cycle == c.toNat) = some x ∧ x.compared = false ∧ x.discarded = false ∧ x.tick + usTicks (s.dev.cfg 0x7100 0x0A) ≤ s.dev.tick) ∧
    (∃ (s : State) (f : TwinFrame), s.dev.Usable f ∧ s.dev.paired = false ∧ s.dev.Inv ∧ ((f.role = decide (s.dev.cfg 0x7100 2 = 1) ∨ wfld (wat f.payload 4) 63 32 ≠ s.dev.cfg 0x7000 1 ∨ wfld (wat f.payload 4) 31 0 ≠ s.dev.cfg 0x5000 1))) ∧
    (∃ (s : State) (f : TwinFrame), s.dev.Usable f ∧ s.dev.paired = false ∧ f.role ≠ decide (s.dev.cfg 0x7100 2 = 1) ∧ wfld (wat f.payload 4) 63 32 = s.dev.cfg 0x7000 1 ∧ wfld (wat f.payload 4) 31 0 = s.dev.cfg 0x5000 1 ∧ s.dev.sec.partner.toNat ≠ 0 ∧ packN [(64, (wat f.payload 0).toNat), (64, (wat f.payload 1).toNat), (64, (wat f.payload 2).toNat), (64, (wat f.payload 3).toNat)] = s.dev.sec.partner.toNat) :=
  ⟨⟨twin (fun t => { t with up := true, partner := 1 }) id, frm .agree, ⟨by decide +kernel, by decide +kernel, by decide +kernel, .inl rfl⟩, by decide +kernel⟩,
   ⟨twin (fun t => { t with up := true, partner := 1, own := [dec1] }) (fun d => obj 0x7100 7 1 (obj 0x7400 1 1 d)), frm .agree, dec1, ⟨by decide +kernel, by decide +kernel, by decide +kernel, .inl rfl⟩, by decide +kernel⟩,
   ⟨twin (fun t => { t with partner := 1, own := [dec1] }) id, 0, dec1, by decide +kernel, by unfold Dev.Inv; decide +kernel, by decide +kernel⟩,
   ⟨twin (fun t => { t with up := true }) (obj 0x7000 1 5), frm .agree, ⟨by decide +kernel, by decide +kernel, by decide +kernel, .inl rfl⟩, by decide +kernel, by unfold Dev.Inv; decide +kernel, by decide +kernel⟩,
   ⟨twin (fun t => { t with up := true }) (fun d => obj 0x7100 2 0 (obj 0x7000 1 5 { d with sec := { d.sec with partner := 1 } })), { frm .agree with payload := [0, 0, 0, 1, 5 * 2 ^ 32 + 10000, 0, 0, 1] }, ⟨by decide +kernel, by decide +kernel, by decide +kernel, .inl rfl⟩, by decide +kernel⟩⟩

theorem test_ServiceGate_meets :
    (∃ (s : State) (r : Req) (idx : BitVec 16) (sub : Byte) (part : Bool) (off : BitVec 32), s.dev.Takes r.port r.addr r.frame ∧ framed r = false ∧ r.port ≠ .spi) ∧
    (∃ (s : State) (r : Req) (idx : BitVec 16) (sub : Byte) (part : Bool) (off : BitVec 32), s.dev.Takes r.port r.addr r.frame ∧ framed r = true ∧ s.dev.start.bootRom = false ∧ s.dev.rightsOf r.port r.addr = none) ∧
    (∃ (s : State) (r : Req) (idx : BitVec 16) (sub : Byte) (part : Bool) (payload : List Byte) (k : Kept), s.dev.Takes r.port r.addr r.frame ∧ framed r = true ∧ s.dev.start.bootRom = false ∧ (s.dev.rightsOf r.port r.addr).isSome = true ∧ s.dev.repeatOf r ([2, idx.toNat, sub.toNat, b2n part, 0] ++ byteNats payload) = some k) ∧
    (∃ (s : State) (r : Req) (idx : BitVec 16) (sub : Byte) (part : Bool) (payload : List Byte), s.dev.Takes r.port r.addr r.frame ∧ framed r = true ∧ s.dev.start.bootRom = true ∧ s.dev.repeatOf r ([2, idx.toNat, sub.toNat, b2n part, 0] ++ byteNats payload) = none ∧ s.dev.heldOf r ([2, idx.toNat, sub.toNat, b2n part, 0] ++ byteNats payload) = none) ∧
    (∃ (s : State) (r : Req) (idx : BitVec 16) (sub : Byte) (part : Bool) (off : BitVec 32), r.port ≠ .spi ∧ s.dev.up = true ∧ s.dev.datagramTaken r.port r.addr = true ∧ s.dev.hostFilter (portNo r.port) (mappedV4 r.addr) r.frame = 2) ∧
    (∃ (s : State) (r : Req) (idx : BitVec 16) (sub : Byte) (part : Bool) (off : BitVec 32), r.port ≠ .spi ∧ s.dev.up = true ∧ s.dev.datagramTaken r.port r.addr = true ∧ s.dev.hostFilter (portNo r.port) (mappedV4 r.addr) r.frame = 1) ∧
    (∃ (d : Dev) (port : Nat) (v4 : Bool) (f : HostFrame), f.fcsOk = true ∧ f.bytes ≤ 1522) :=
  ⟨⟨bench, { rqHost 0 with magic := 0 }, 0x5000, 1, false, 0, by unfold Dev.Takes; decide +kernel, by decide +kernel⟩,
   ⟨on (fun d => d.setObj 0x1020 1 (1 :: List.replicate 19 0)), { rqHost 0 with addr := 5 }, 0x5000, 1, false, 0, by unfold Dev.Takes; decide +kernel, by decide +kernel⟩,
   ⟨on (fun d => { d with palca := { d.palca with kept := [kept1 [2, 0x2001, 1, 0, 0, 1]] } }), rq 1, 0x2001, 1, false, [1], kept1 [2, 0x2001, 1, 0, 0, 1], by unfold Dev.Takes; decide +kernel, by decide +kernel⟩,
   ⟨on (fun d => { d with start := { d.start with bootRom := true } }), rq 1, 0x2001, 1, false, [1], by unfold Dev.Takes; decide +kernel, by decide +kernel⟩,
   ⟨bench, { rqHost 0 with frame := { HostFrame.plain with tci := some 5 } }, 0x5000, 1, false, 0, by decide +kernel⟩,
   ⟨bench, { rqHost 0 with frame := { HostFrame.plain with bytes := 1523 } }, 0x5000, 1, false, 0, by decide +kernel⟩,
   ⟨bench.dev, 0, true, { HostFrame.plain with bytes := 1522 }, by decide +kernel⟩⟩

theorem test_ReadWrite_meets :
    (∃ (s : State) (r : Req) (idx : BitVec 16) (sub : Byte) (part : Bool) (off : BitVec 32) (rt : Nat), s.dev.Serves r 1 idx.toNat sub.toNat part off.toNat [] rt) ∧
    (∃ (s : State) (r : Req) (idx : BitVec 16) (sub : Byte) (part : Bool) (payload : List Byte) (rt : Nat) (x : Reply), s.dev.Serves r 2 idx.toNat sub.toNat part 0 payload rt ∧ isEv s.dev.code idx.toNat sub.toNat = false ∧ s.dev.checkWrite r.port rt idx.toNat sub.toNat payload = some x) ∧
    (∃ (s : State) (r : Req) (idx : BitVec 16) (part : Bool) (payload : List Byte), 0x7010 ≤ idx.toNat ∧ idx.toNat ≤ 0x704F ∧ s.dev.TakesWrite r idx.toNat 4 part payload) ∧
    (∃ (s : State) (r : Req) (rt : Nat), s.dev.Serves r 2 0x2001 1 false 0 [1] rt ∧ nbit rt 1 = true) ∧
    (∃ (s : State) (r : Req) (rt : Nat), s.dev.Serves r 2 0x2001 1 false 0 [0] rt ∧ nbit rt 1 = true ∧ r.port ≠ .spi) ∧
    (∃ (s : State) (r : Req) (rt : Nat), s.dev.Serves r 2 0x2001 1 false 0 [0] rt ∧ nbit rt 1 = true ∧ r.port = .spi ∧ s.dev.inReady = true) :=
  ⟨⟨bench, rq 0, 0x5000, 1, false, 0, 3, by unfold Dev.Serves Dev.Takes; decide +kernel⟩,
   ⟨bench, rq 1, 0x5000, 5, false, [0], 3, .refuse 2, by unfold Dev.Serves Dev.Takes; decide +kernel, by decide +kernel⟩,
   ⟨inState .ready id, rq 2, 0x7010, false, [0, 1], by decide +kernel, by decide +kernel, ⟨3, by unfold Dev.Serves Dev.Takes; decide +kernel, by decide +kernel, by decide +kernel⟩⟩,
   ⟨bench, rq 1, 3, by unfold Dev.Serves Dev.Takes; decide +kernel, by decide +kernel⟩,
   ⟨bench, rqHost 1, 3, by unfold Dev.Serves Dev.Takes; decide +kernel, by decide +kernel⟩,
   ⟨inState .ready id, rq 1, 3, by unfold Dev.Serves Dev.Takes; decide +kernel, by decide +kernel⟩⟩

theorem test_EvObjects_meets :
    (∃ (s : State) (r : Req) (idx : BitVec 16) (sub : Byte) (part : Bool) (off : BitVec 32) (rt : Nat), s.dev.Serves r 1 idx.toNat sub.toNat part off.toNat [] rt ∧ nbit rt 0 = true ∧ isEv s.dev.code idx.toNat sub.toNat = true ∧ r.length = 0) ∧
    (∃ (s : State) (r : Req) (idx : BitVec 16) (sub : Byte) (rt : Nat) (c : Instr), s.dev.Serves r 2 idx.toNat sub.toNat false 0 [0] rt ∧ nbit rt 1 = true ∧ isEv s.dev.code idx.toNat sub.toNat = true ∧ ((c = .write r idx sub false [0] ∨ c = .evClear r idx sub false))) ∧
    (∃ (s : State) (r : Req) (idx : BitVec 16) (sub : Byte) (part : Bool) (payload : List Byte) (rt : Nat), s.dev.Serves r 2 idx.toNat sub.toNat part 0 payload rt ∧ nbit rt 1 = true ∧ isEv s.dev.code idx.toNat sub.toNat = true ∧ ((part = true ∨ payload ≠ [0]))) ∧
    (∃ (s : State) (r : Req) (idx : BitVec 16) (sub : Byte) (rt : Nat), s.dev.Serves r 2 idx.toNat sub.toNat false 0 [0] rt ∧ nbit rt 1 = true ∧ isEv s.dev.code idx.toNat sub.toNat = true) :=
  ⟨⟨bench, rq 0, 0x2040, 4, false, 0, 3, by unfold Dev.Serves Dev.Takes; decide +kernel, by decide +kernel⟩,
   ⟨bench, rq 1, 0x2040, 4, 3, .write (rq 1) 0x2040 4 false [0], by unfold Dev.Serves Dev.Takes; decide +kernel, by decide +kernel⟩,
   ⟨bench, rq 1, 0x2040, 4, true, [0], 3, by unfold Dev.Serves Dev.Takes; decide +kernel, by decide +kernel⟩,
   ⟨bench, rq 1, 0x2040, 4, 3, by unfold Dev.Serves Dev.Takes; decide +kernel, by decide +kernel⟩⟩

theorem test_MarginRange_meets :
    (∃ (s : State) (r : Req) (part : Bool) (payload : List Byte) (rt : Nat), s.dev.Serves r 2 0x5000 2 part 0 payload rt ∧ ((beNat payload < 200 ∨ s.dev.cfg 0x5000 1 < 2 * beNat payload))) ∧
    (∃ (s : State) (r : Req) (part : Bool) (payload : List Byte) (rt : Nat), s.dev.Serves r 2 0x5000 3 part 0 payload rt ∧ ((beNat payload < 1 ∨ 3 < beNat payload))) :=
  ⟨⟨inState .ready id, rq 4, false, [0, 0, 0, 199], 3, by unfold Dev.Serves Dev.Takes; decide +kernel, by decide +kernel⟩,
   ⟨inState .ready id, rq 1, false, [4], 3, by unfold Dev.Serves Dev.Takes; decide +kernel, by decide +kernel⟩⟩

theorem test_BlockTransfer_meets :
    (∃ (s : State) (r : Req) (idx : BitVec 16) (sub : Byte) (total : Word) (rt : Nat) (row : DRow), s.dev.Serves r 3 idx.toNat sub.toNat false 0 (beBytes 8 total.toNat) rt ∧ nbit rt 1 = true ∧ objRow s.dev.code idx.toNat sub.toNat = some row ∧ row.ty = .blobVar ∧ row.acc ≠ .ro ∧ s.dev.locked = false ∧ r.length = 8 ∧ (¬ (idx = 0xC010 ∧ sub = 2)) ∧ total ≠ 0 ∧ s.dev.transferOf idx.toNat sub.toNat = none) ∧
    (∃ (s : State) (r : Req) (idx : BitVec 16) (sub : Byte) (off : BitVec 32) (seg : List Byte) (pkg : Option PkgContent) (rt : Nat) (x : Transfer), s.dev.Serves r 4 idx.toNat sub.toNat false off.toNat seg rt ∧ nbit rt 1 = true ∧ s.dev.locked = false ∧ s.dev.transferOf idx.toNat sub.toNat = some x ∧ seg ≠ [] ∧ seg.length ≤ 1408 ∧ off.toNat = x.got.length ∧ x.got.length + seg.length < x.total) ∧
    (∃ (s : State) (r : Req) (idx : BitVec 16) (sub : Byte) (off : BitVec 32) (seg : List Byte) (pkg : Option PkgContent) (rt : Nat) (x : Transfer), s.dev.Serves r 4 idx.toNat sub.toNat false off.toNat seg rt ∧ nbit rt 1 = true ∧ s.dev.locked = false ∧ s.dev.transferOf idx.toNat sub.toNat = some x ∧ seg ≠ [] ∧ seg.length ≤ 1408 ∧ off.toNat ≠ x.got.length) ∧
    (∃ (s : State) (r : Req) (sub : Byte) (off : BitVec 32) (seg : List Byte) (pkg : Option PkgContent) (rt : Nat) (x : Transfer), s.dev.Serves r 4 0xA000 sub.toNat false off.toNat seg rt ∧ nbit rt 1 = true ∧ s.dev.locked = false ∧ s.dev.transferOf 0xA000 sub.toNat = some x ∧ seg ≠ [] ∧ seg.length ≤ 1408 ∧ off.toNat = x.got.length ∧ x.got.length + seg.length = x.total) ∧
    (∃ (s : State) (idx : BitVec 16) (sub : Byte) (x : Transfer), s.dev.up = true ∧ s.dev.transferOf idx.toNat sub.toNat = some x ∧ x.got.length < x.total ∧ x.tick + sTicks 5 ≤ s.dev.tick) :=
  ⟨⟨bench, rq 8, 0xA000, 7, 2948, 3, (objRow 1 0xA000 7).getD (dn 0 0 0 0 0 .ro 0), by unfold Dev.Serves Dev.Takes; decide +kernel, by decide +kernel⟩,
   ⟨on (fun d => { d with palca := { d.palca with transfers := [xfer] } }), rq 1, 0xA000, 7, 0, [1], none, 3, xfer, by unfold Dev.Serves Dev.Takes; decide +kernel, by decide +kernel⟩,
   ⟨on (fun d => { d with palca := { d.palca with transfers := [xfer] } }), rq 1, 0xA000, 7, 5, [1], none, 3, xfer, by unfold Dev.Serves Dev.Takes; decide +kernel, by decide +kernel⟩,
   ⟨on (fun d => { d with palca := { d.palca with transfers := [{ xfer with total := 1 }] } }), rq 1, 7, 0, [1], none, 3, { xfer with total := 1 }, by unfold Dev.Serves Dev.Takes; decide +kernel, by decide +kernel⟩,
   ⟨on (fun d => { d with palca := { d.palca with transfers := [xfer] } }), 0xA000, 7, xfer, by decide +kernel⟩⟩

theorem test_Subscriptions_meets :
    (∃ (s : State) (r : Req) (idx : BitVec 16) (sub : Byte) (dport : BitVec 16) (rt : Nat), s.dev.Serves r 5 idx.toNat sub.toNat false 0 (beBytes 2 dport.toNat) rt ∧ nbit rt 1 = true ∧ isEv s.dev.code idx.toNat sub.toNat = true ∧ r.port ≠ .spi ∧ r.length = 2 ∧ s.dev.palca.subs.length < 64 ∧ s.dev.palca.subs.any (fun x => x.isFor r.addr (if dport = 0 then r.udp else dport) (okey idx.toNat sub.toNat)) = false) ∧
    (∃ (s : State) (r : Req) (idx : BitVec 16) (sub : Byte) (rt : Nat), s.dev.Serves r 6 idx.toNat sub.toNat false 0 [] rt ∧ r.port ≠ .spi) ∧
    (∃ (s : State) (i : Nat) (x : Sub), s.dev.up = true ∧ s.dev.palca.subs[i]? = some x ∧ s.dev.eventDue x = true ∧ s.dev.palca.up.contains (portNo x.port) = true) ∧
    (∃ (s : State) (i : Nat) (x : Sub), s.dev.palca.subs[i]? = some x ∧ x.renewed + sTicks (s.dev.cfg 0x1030 2) ≤ s.dev.tick) :=
  ⟨⟨bench, rqHost 2, 0x2040, 4, 0, 3, by unfold Dev.Serves Dev.Takes; decide +kernel, by decide +kernel⟩,
   ⟨bench, rqHost 0, 0x2040, 4, 3, by unfold Dev.Serves Dev.Takes; decide +kernel, by decide +kernel⟩,
   ⟨on (fun d => { d with palca := { d.palca with subs := [sub1], up := [portNo .host0] } }), 0, sub1, by decide +kernel⟩,
   ⟨on (fun d => { d with palca := { d.palca with subs := [sub1] } }), 0, sub1, by decide +kernel⟩⟩

theorem test_SafetyChannel_meets :
    (∃ (s : State) (port : ReqPort) (f : HostFrame) (addr : BitVec 128) (pdu : List Byte) (rt : Nat), s.dev.Takes port addr f ∧ s.dev.rightsOf port addr = some rt ∧ s.dev.inRun = true ∧ s.dev.cfg 0x7000 0x13 ≠ 0 ∧ nbit rt 2 = true ∧ s.dev.commandGood pdu = true ∧ s.dev.seqCheck (BitVec.ofNat 16 (wfld (beWord pdu 0) 31 16)) = 0 ∧ s.dev.hullCycle ≤ wfld (beWord pdu 2) 63 16 + 3) ∧
    (∃ (s : State) (port : ReqPort) (f : HostFrame) (addr : BitVec 128) (pdu : List Byte) (rt : Nat), s.dev.Takes port addr f ∧ s.dev.rightsOf port addr = some rt ∧ s.dev.inRun = true ∧ s.dev.cfg 0x7000 0x13 ≠ 0 ∧ nbit rt 2 = true ∧ s.dev.commandGood pdu = true ∧ s.dev.seqCheck (BitVec.ofNat 16 (wfld (beWord pdu 0) 31 16)) = 1) ∧
    (∃ (s : State) (port : ReqPort) (f : HostFrame) (addr : BitVec 128) (pdu : List Byte) (rt : Nat), s.dev.Takes port addr f ∧ s.dev.rightsOf port addr = some rt ∧ s.dev.inRun = true ∧ s.dev.cfg 0x7000 0x13 ≠ 0 ∧ ((nbit rt 2 = false ∨ s.dev.commandGood pdu = false))) :=
  ⟨⟨on (obj 0x7000 0x13 1), .spi, .plain, 0, command, 7, by unfold Dev.Takes; decide +kernel, by decide +kernel⟩,
   ⟨on (fun d => obj 0x7000 0x13 1 { d with hull := { d.hull with cmdSeq := some 1 } }), .spi, .plain, 0, command, 7, by unfold Dev.Takes; decide +kernel, by decide +kernel⟩,
   ⟨on (obj 0x7000 0x13 1), .spi, .plain, 0, [], 7, by unfold Dev.Takes; decide +kernel, by decide +kernel⟩⟩

theorem test_HostPorts_meets :
    (∃ (s : State) (p : Fin 2) (f : HostFrame) (target : BitVec 32) (sender : BitVec 32), s.dev.portServed p.val = true ∧ s.dev.ipv4 p.val ≠ 0 ∧ s.dev.hostFilter p.val false (HostFrame.toAll f) = 0) ∧
    (∃ (s : State) (p : Fin 2) (f : HostFrame) (target : BitVec 128) (sender : BitVec 128), s.dev.portServed p.val = true ∧ s.dev.hostFilter p.val false (HostFrame.toAll f) = 0) ∧
    (∃ (s : State) (p : Fin 2) (f : HostFrame) (v6 : Bool) (sender : BitVec 128) (data : List Byte), s.dev.portServed p.val = true ∧ ((v6 = true ∨ s.dev.ipv4 p.val ≠ 0)) ∧ s.dev.hostFilter p.val (!v6) f = 0) ∧
    (∃ (s : State) (p : Fin 2), s.dev.up = true) ∧
    (∃ (s : State) (p : Fin 2), s.dev.portServed p.val = true) ∧
    (∃ (s : State) (p : Fin 6) (code : Fin 4) (distance : BitVec 16) (e : LogEntry) (t : List LogEntry), s.dev.log.entries = e :: t ∧ s.dev.portDown p.val = true ∧ e.cause = (if p.val < 2 then 0x0D05 else 0x0204) ∧ e.inst = (if p.val < 2 then p.val else p.val - 2)) :=
  ⟨⟨on (fun d => { d with palca := { d.palca with up := [0], inForce := [(okey 0x1011 2, [5])] } }), 0, .plain, 5, 6, by decide +kernel⟩,
   ⟨on (fun d => { d with palca := { d.palca with up := [0], inForce := [(okey 0x1011 2, [5])] } }), 0, .plain, 5, 6, by decide +kernel⟩,
   ⟨on (fun d => { d with palca := { d.palca with up := [0], inForce := [(okey 0x1011 2, [5])] } }), 0, .plain, true, 0, [], by decide +kernel⟩,
   ⟨bench, 0, by decide +kernel⟩,
   ⟨on (fun d => { d with palca := { d.palca with up := [0], inForce := [(okey 0x1011 2, [5])] } }), 0, by decide +kernel⟩,
   ⟨on (fun d => { d with log := { d.log with entries := [log1] } }), 0, 1, 5, log1, [], by decide +kernel⟩⟩

theorem test_SpiAndStreams_meets :
    (∃ (s : State), s.dev.up = true) ∧
    (∃ (s : State) (bytes : List Byte) (pkg : Option PkgContent) (known : Bool), s.dev.up = true ∧ ((known = false ∨ spiPayload bytes = none))) ∧
    (∃ (s : State) (bytes : List Byte) (pkg : Option PkgContent) (known : Bool), s.dev.up = true ∧ ((known = false ∨ spiPayload bytes = none))) ∧
    (∃ (s : State) (bytes : List Byte) (frame : List Byte) (pkg : Option PkgContent), s.dev.up = true ∧ spiPayload bytes = some frame ∧ beNat (frame.take 2) = 0x5346) ∧
    (∃ (s : State) (bytes : List Byte) (frame : List Byte) (pkg : Option PkgContent), s.dev.up = true ∧ spiPayload bytes = some frame ∧ beNat (frame.take 2) ≠ 0x5346 ∧ 24 ≤ frame.length) ∧
    (∃ (s : State) (x : List Nat), s.dev.up = true ∧ s.dev.palca.spiStatus = some x) ∧
    (∃ (s : State) (x : List Nat) (t : List (List Nat)), s.dev.up = true ∧ s.dev.palca.spiStatus = none ∧ s.dev.palca.spiQueue = x :: t) ∧
    (∃ (s : State) (n : Fin 64) (r : OutRecord), s.dev.up = true ∧ s.dev.palca.sending.find? (fun x => x.stream == n.val && x.port == 2) = some r ∧ r.stamped = true) ∧
    (∃ (s : State) (n : Fin 64), s.dev.up = true ∧ s.dev.palca.sending.find? (fun x => x.stream == n.val && x.port == 2) = none) ∧
    (∃ (s : State) (p : Fin 3) (r : OutRecord), p.val < 2 ∧ s.dev.nextRecord p.val = some r ∧ r.stamped = true ∧ r.port = p.val ∧ s.dev.palca.sending.find? (fun x => x.stream == r.stream && x.port == r.port) = some r) ∧
    (∃ (s : State), s.dev.up = true) :=
  ⟨⟨bench, by decide +kernel⟩,
   ⟨bench, [], none, true, by decide +kernel⟩,
   ⟨bench, spiBytes [1], none, false, by decide +kernel⟩,
   ⟨bench, spiBytes [0x53, 0x46], [0x53, 0x46], none, by decide +kernel⟩,
   ⟨bench, spiBytes (List.replicate 24 0), List.replicate 24 0, none, by decide +kernel⟩,
   ⟨on (fun d => { d with palca := { d.palca with spiStatus := some [] } }), [], by decide +kernel⟩,
   ⟨on (fun d => { d with palca := { d.palca with spiQueue := [[]] } }), [], [], by decide +kernel⟩,
   ⟨on (fun d => { d with palca := { d.palca with sending := [rec1 2] } }), 0, rec1 2, by decide +kernel⟩,
   ⟨bench, 0, by decide +kernel⟩,
   ⟨on (fun d => { d with palca := { d.palca with sending := [rec1 0] } }), 0, rec1 0, by decide +kernel⟩,
   ⟨bench, by decide +kernel⟩⟩

theorem test_StateRequests_meets :
    (∃ (s : State) (r : Req) (v : Nat) (c : Instr) (st : PowerState), ((v = 1 ∧ c = .stateRequestHusk r ∧ st = .husk ∨ v = 2 ∧ c = .stateRequestStandby r ∧ st = .standby ∨ v = 3 ∧ c = .stateRequestReady r ∧ st = .ready)) ∧ s.dev.TakesWrite r 0x2000 2 false [BitVec.ofNat 8 v] ∧ s.dev.pastStep8 = true ∧ s.dev.power.target = none ∧ s.dev.power.state ≠ st) ∧
    (∃ (s : State) (r : Req), s.dev.TakesWrite r 0x2000 2 false [4] ∧ s.dev.pastStep8 = true ∧ s.dev.power.target = none ∧ s.dev.inRun = false ∧ s.dev.runRefusal = none) ∧
    (∃ (s : State) (r : Req) (x : Nat), s.dev.TakesWrite r 0x2000 2 false [4] ∧ s.dev.pastStep8 = true ∧ s.dev.power.target = none ∧ s.dev.inRun = false ∧ s.dev.runRefusal = some x) ∧
    (∃ (s : State) (r : Req), s.dev.TakesWrite r 0x2000 2 false [4] ∧ ((s.dev.pastStep8 = false ∨ s.dev.power.target ≠ none))) :=
  ⟨⟨inState .ready id, rq 1, 2, .stateRequestStandby (rq 1), .standby, by decide +kernel, ⟨3, by unfold Dev.Serves Dev.Takes; decide +kernel, by decide +kernel, by decide +kernel⟩, by decide +kernel⟩,
   ⟨inState .ready (fun d => { d with prog := { d.prog with active := some 0 } }), rq 1, ⟨3, by unfold Dev.Serves Dev.Takes; decide +kernel, by decide +kernel, by decide +kernel⟩, by decide +kernel⟩,
   ⟨inState .ready id, rq 1, 0x0F08, ⟨3, by unfold Dev.Serves Dev.Takes; decide +kernel, by decide +kernel, by decide +kernel⟩, by decide +kernel⟩,
   ⟨inState .ready (fun d => { d with power := { d.power with target := some .husk } }), rq 1, ⟨3, by unfold Dev.Serves Dev.Takes; decide +kernel, by decide +kernel, by decide +kernel⟩, by decide +kernel⟩⟩

theorem test_StateTransitions_meets :
    (∃ (s : State), s.dev.power.state = .standby ∧ s.dev.power.target = some .husk ∧ s.dev.prog.activating = none) ∧
    (∃ (s : State), s.dev.power.state = .standby ∧ s.dev.power.target = some .ready ∧ s.dev.prog.activating = none) ∧
    (∃ (s : State), s.dev.power.state = .ready ∧ s.dev.power.target = some .standby ∧ s.dev.prog.activating = none ∧ s.dev.anyBusy = false) ∧
    (∃ (s : State), s.dev.power.state = .ready ∧ s.dev.power.target = some .run ∧ s.dev.cyc.next = none ∧ s.dev.start.step ≠ some 11 ∧ s.dev.runRefusal = none ∧ s.dev.prog.activating = none) ∧
    (∃ (s : State), s.dev.power.state = .run ∧ s.dev.power.target = some .ready ∧ s.dev.cyc.flight = [] ∧ s.dev.prog.activating = none ∧ s.dev.anyBusy = false) ∧
    (∃ (s : State), ((s.dev.power.target = none ∨ s.dev.prog.activating.isSome = true))) :=
  ⟨⟨inState .standby (fun d => { d with power := { d.power with target := some .husk } }), by decide +kernel⟩,
   ⟨inState .standby (fun d => { d with power := { d.power with target := some .ready } }), by decide +kernel⟩,
   ⟨inState .ready (fun d => { d with power := { d.power with target := some .standby } }), by decide +kernel⟩,
   ⟨inState .ready (fun d => { d with power := { d.power with target := some .run }, prog := { d.prog with active := some 0 } }), by decide +kernel⟩,
   ⟨inState .run (fun d => { d with power := { d.power with target := some .ready } }), by decide +kernel⟩,
   ⟨bench, by decide +kernel⟩⟩

theorem test_OwnWrites_meets :
    (∃ (s : State) (r : Req) (v : Byte), s.dev.takesWrite r 0x2000 5 false [v] = true) ∧
    (∃ (s : State) (r : Req) (v : Byte), s.dev.TakesWrite r 0x2000 6 false [v] ∧ s.dev.inReady = true) ∧
    (∃ (s : State) (r : Req) (n : Fin 16) (v : Byte), s.dev.TakesWrite r 0x5203 (n.val + 1) false [v]) ∧
    (∃ (s : State) (r : Req) (n : Fin 16) (sub : Byte) (payload : List Byte), ((sub = 1 ∨ sub = 2 ∨ sub = 0x0E)) ∧ s.dev.TakesWrite r (0x5100 + n.val) sub.toNat false payload) ∧
    (∃ (s : State) (r : Req) (sub : Byte) (payload : List Byte), ((sub = 2 ∨ sub = 5 ∨ sub = 6)) ∧ s.dev.TakesWrite r 0x5010 sub.toNat false payload) ∧
    (∃ (s : State), s.dev.up = true ∧ s.dev.fus.savedAt + sTicks 600 ≤ s.dev.tick) ∧
    (∃ (s : State) (r : Req) (n : Fin 16) (v : Byte), s.dev.TakesWrite r 0x3300 (n.val + 1) false [v]) :=
  ⟨⟨bench, rq 1, 1, by decide +kernel⟩,
   ⟨inState .ready id, rq 1, 1, ⟨3, by unfold Dev.Serves Dev.Takes; decide +kernel, by decide +kernel, by decide +kernel⟩, by decide +kernel⟩,
   ⟨bench, rq 1, 0, 1, ⟨3, by unfold Dev.Serves Dev.Takes; decide +kernel, by decide +kernel, by decide +kernel⟩⟩,
   ⟨bench, rq 12, 0, 1, List.replicate 12 0, by decide +kernel, ⟨3, by unfold Dev.Serves Dev.Takes; decide +kernel, by decide +kernel, by decide +kernel⟩⟩,
   ⟨inState .ready id, rq 2, 2, [0, 10], by decide +kernel, ⟨3, by unfold Dev.Serves Dev.Takes; decide +kernel, by decide +kernel, by decide +kernel⟩⟩,
   ⟨bench, by decide +kernel⟩,
   ⟨bench, rq 1, 0, 1, ⟨3, by unfold Dev.Serves Dev.Takes; decide +kernel, by decide +kernel, by decide +kernel⟩⟩⟩

theorem test_Packages_meets :
    (∃ (s : State) (r : Req) (v : Byte), s.dev.TakesWrite r 0xC010 1 false [v]) ∧
    (∃ (s : State) (r : Req) (v : Byte), s.dev.TakesWrite r 0xC000 4 false [v]) ∧
    (∃ (s : State) (k : Nat) (p : Package), s.dev.prog.activating = some k ∧ s.dev.inReady = true ∧ (s.dev.pkgSlot k).pkg = some p ∧ s.dev.pkgCheck p 9 = none) ∧
    (∃ (s : State) (k : Nat) (x : Nat) (p : Package), s.dev.prog.activating = some k ∧ s.dev.inReady = true ∧ (s.dev.pkgSlot k).pkg = some p ∧ s.dev.pkgCheck p 9 = some x) ∧
    (∃ (s : State) (r : Req) (k : Nat), s.dev.TakesWrite r 0xC000 5 false [1] ∧ s.dev.prog.selTrial = some k ∧ (s.dev.pkgSlot k).state = .trial ∧ s.dev.prog.committed = true) ∧
    (∃ (s : State) (r : Req) (v : Byte), s.dev.TakesWrite r 0xC000 5 false [v] ∧ ((s.dev.prog.committed = false ∨ v ≠ 1))) ∧
    (∃ (s : State) (r : Req) (v : BitVec 32), s.dev.TakesWrite r 0xC000 7 false (beBytes 4 v.toNat)) :=
  ⟨⟨bench, rq 1, 1, ⟨3, by unfold Dev.Serves Dev.Takes; decide +kernel, by decide +kernel, by decide +kernel⟩⟩,
   ⟨bench, rq 1, 1, ⟨3, by unfold Dev.Serves Dev.Takes; decide +kernel, by decide +kernel, by decide +kernel⟩⟩,
   ⟨inState .ready (fun d => { d with prog := { d.prog with activating := some 0, slots := [(0, { state := .verified, image := image 1, content := some content, cause := 0 })] }, sec := { d.sec with valid := [0] } }), 0, pkg, by decide +kernel⟩,
   ⟨inState .ready (fun d => { d with prog := { d.prog with activating := some 0, slots := [(0, { state := .verified, image := image 2, content := some content, cause := 0 })] }, sec := { d.sec with valid := [0] } }), 0, 0x0F42, readPackage (image 2) content, by decide +kernel⟩,
   ⟨inState .ready (fun d => { d with prog := { d.prog with selTrial := some 0, committed := true, slots := [(0, { PkgSlot.reset with state := .trial })] }, sec := { d.sec with valid := [0] } }), rq 1, 0, ⟨3, by unfold Dev.Serves Dev.Takes; decide +kernel, by decide +kernel, by decide +kernel⟩, by decide +kernel⟩,
   ⟨bench, rq 1, 1, ⟨3, by unfold Dev.Serves Dev.Takes; decide +kernel, by decide +kernel, by decide +kernel⟩, by decide +kernel⟩,
   ⟨bench, rq 4, 3, ⟨3, by unfold Dev.Serves Dev.Takes; decide +kernel, by decide +kernel, by decide +kernel⟩⟩⟩

theorem test_Attestation_meets :
    (∃ (s : State) (r : Req) (nonce : List Byte), s.dev.TakesWrite r 0xA000 2 false nonce ∧ s.dev.nonceRefused = true) ∧
    (∃ (s : State) (r : Req) (nonce : List Byte), s.dev.TakesWrite r 0xA000 2 false nonce ∧ s.dev.nonceRefused = false) ∧
    (∃ (s : State) (body : List Byte) (l : Nat), s.dev.sec.signing = some (false, body) ∧ s.dev.usableLeaf = some l) ∧
    (∃ (s : State) (body : List Byte) (l : Nat), s.dev.sec.signing = some (false, body) ∧ s.dev.usableLeaf = some l) ∧
    (∃ (s : State) (b : Nat), s.dev.sec.failed = true ∧ s.dev.sec.retryTick + sTicks 1 ≤ s.dev.tick ∧ s.dev.sec.reserving = some b ∧ s.dev.lowestBlock ≤ b ∧ b < 2 ^ 28) ∧
    (∃ (s : State), s.dev.sec.failed = true ∧ s.dev.sec.retryTick + sTicks 1 ≤ s.dev.tick ∧ s.dev.up = true) :=
  ⟨⟨bench, rq 32, List.replicate 32 0, ⟨3, by unfold Dev.Serves Dev.Takes; decide +kernel, by decide +kernel, by decide +kernel⟩, by decide +kernel⟩,
   ⟨on (fun d => { d with sec := { d.sec with reserved := some 0 } }), rq 32, List.replicate 32 0, ⟨3, by unfold Dev.Serves Dev.Takes; decide +kernel, by decide +kernel, by decide +kernel⟩, by decide +kernel⟩,
   ⟨on (fun d => { d with sec := { d.sec with reserved := some 0, signing := some (false, []) } }), [], 0, by decide +kernel⟩,
   ⟨on (fun d => { d with sec := { d.sec with reserved := some 0, signing := some (false, []) } }), [], 0, by decide +kernel⟩,
   ⟨on (fun d => { d with sec := { d.sec with failed := true, reserving := some 0 } }), 0, by decide +kernel⟩,
   ⟨on (fun d => { d with sec := { d.sec with failed := true } }), by decide +kernel⟩⟩

theorem test_SignedActs_meets :
    (∃ (s : State) (t : Transfer) (sig : Bool), s.dev.actTransfer 7 = some t ∧ otherKind 7 1 (actBody t.got) = false ∧ s.dev.actCheck 1 (actBody t.got) t.total sig = none) ∧
    (∃ (s : State) (t : Transfer) (sig : Bool), s.dev.actTransfer 7 = some t ∧ otherKind 7 2 (actBody t.got) = false ∧ s.dev.actCheck 2 (actBody t.got) t.total sig = none) ∧
    (∃ (s : State) (t : Transfer) (sig : Bool), s.dev.actTransfer 7 = some t ∧ otherKind 7 3 (actBody t.got) = false ∧ s.dev.actCheck 3 (actBody t.got) t.total sig = none) ∧
    (∃ (s : State) (t : Transfer) (sig : Bool), s.dev.up = true ∧ s.dev.actTransfer 0x0B = some t ∧ otherKind 0x0B 4 (actBody t.got) = false ∧ s.dev.actCheck 4 (actBody t.got) t.total sig = none) ∧
    (∃ (s : State) (c : Instr) (sub : Nat) (kind : Nat) (t : Transfer) (sig : Bool), ((c = .commissioningAct sig ∧ sub = 7 ∧ kind = 1 ∨ c = .partnerBindingAct sig ∧ sub = 7 ∧ kind = 2 ∨ c = .keyRevocationAct sig ∧ sub = 7 ∧ kind = 3 ∨ c = .debugUnlockToken sig ∧ sub = 0x0B ∧ kind = 4)) ∧ s.dev.actTransfer sub = some t ∧ otherKind sub kind (actBody t.got) = true) ∧
    (∃ (s : State) (c : Instr) (sub : Nat) (kind : Nat) (t : Transfer) (sig : Bool), ((c = .commissioningAct sig ∧ sub = 7 ∧ kind = 1 ∨ c = .partnerBindingAct sig ∧ sub = 7 ∧ kind = 2 ∨ c = .keyRevocationAct sig ∧ sub = 7 ∧ kind = 3 ∨ c = .debugUnlockToken sig ∧ sub = 0x0B ∧ kind = 4)) ∧ s.dev.actTransfer sub = some t ∧ otherKind sub kind (actBody t.got) = false ∧ s.dev.actCheck kind (actBody t.got) t.total sig = some (.cause 0x1107)) :=
  ⟨⟨acting 7 1 0 [0], actXfer 7 1 0, true, by decide +kernel⟩,
   ⟨acting 7 2 5 [0], actXfer 7 2 5, true, by decide +kernel⟩,
   ⟨acting 7 3 1 [0, 1], actXfer 7 3 1, true, by decide +kernel⟩,
   ⟨acting 11 4 5 [0], actXfer 11 4 5, true, by decide +kernel⟩,
   ⟨acting 7 2 5 [0], .commissioningAct true, 7, 1, actXfer 7 2 5, true, by decide +kernel⟩,
   ⟨acting 11 4 5 [0], .debugUnlockToken false, 11, 4, actXfer 11 4 5, false, by decide +kernel⟩⟩

theorem test_JtagInstructions_meets :
    (∃ (s : State) (k : Fin 4) (key : List Byte), s.dev.up = true ∧ s.dev.sec.field = false ∧ s.dev.sec.valid.contains k.val = false) ∧
    (∃ (s : State) (k : Fin 4) (key : List Byte), (s.dev.sec.field = true ∨ s.dev.sec.valid.contains k.val = true)) ∧
    (∃ (s : State), s.dev.up = true ∧ s.dev.sec.valid ≠ []) ∧
    (∃ (s : State), s.dev.sec.valid = []) ∧
    (∃ (s : State) (i : Bool), s.dev.up = true ∧ s.dev.sec.debug = true ∧ nbit s.dev.sec.scope 2 = true) ∧
    (∃ (s : State), s.dev.up = true ∧ s.dev.sec.debug = true) :=
  ⟨⟨bench, 0, [], by decide +kernel⟩,
   ⟨on (fun d => { d with sec := { d.sec with field := true } }), 0, [], by decide +kernel⟩,
   ⟨on (fun d => { d with sec := { d.sec with valid := [0] } }), by decide +kernel⟩,
   ⟨bench, by decide +kernel⟩,
   ⟨on (fun d => { d with sec := { d.sec with debug := true, scope := 4 } }), true, by decide +kernel⟩,
   ⟨on (fun d => { d with sec := { d.sec with debug := true } }), by decide +kernel⟩⟩

theorem test_NandUpkeep_meets :
    (∃ (s : State) (p : NandPlace) (bits : Nat) (ok : Bool), s.dev.up = true ∧ s.dev.serveNand.runningOn (s.dev.lunOf p.block) = none ∧ bits ≤ 60 ∧ (s.dev.block p.block).reads + 1 < 100000) ∧
    (∃ (s : State) (p : NandPlace) (ok : Bool), s.dev.up = true ∧ s.dev.serveNand.runningOn (s.dev.lunOf p.block) = none ∧ 4 ≤ s.dev.recd.pageKiB ∧ s.dev.recd.readRetry = true) ∧
    (∃ (s : State) (p : NandPlace) (ok : Bool), s.dev.up = true ∧ s.dev.serveNand.runningOn (s.dev.lunOf p.block) = none ∧ 4 ≤ s.dev.recd.pageKiB) ∧
    (∃ (s : State) (p : NandPlace) (w : NandWork) (ok : Bool), s.dev.up = true ∧ s.dev.serveNand.runningOn (s.dev.lunOf p.block) = some w ∧ w.place = p ∧ w.kind = .erase) ∧
    (∃ (s : State) (p : NandPlace) (w : NandWork) (ok : Bool), s.dev.up = true ∧ s.dev.serveNand.runningOn (s.dev.lunOf p.block) = some w ∧ w.place = p ∧ w.kind = .program ∧ 4 ≤ s.dev.recd.pageKiB) ∧
    (∃ (s : State) (p : NandPlace) (w : NandWork) (l : List CwOutcome) (ok : Bool), s.dev.up = true ∧ s.dev.serveNand.runningOn (s.dev.lunOf p.block) = some w ∧ w.place = p ∧ w.kind = .readBack ∧ allHard l = true ∧ p.area = .ring ∧ w.ticket = 0) ∧
    (∃ (s : State) (p : NandPlace) (w : NandWork) (l : List CwOutcome) (ok : Bool), s.dev.up = true ∧ s.dev.serveNand.runningOn (s.dev.lunOf p.block) = some w ∧ w.place = p ∧ w.kind = .readBack ∧ allHard l = true ∧ p.area ≠ .ring ∧ w.ticket ≠ 0 ∧ p.copy = 0) ∧
    (∃ (s : State) (p : NandPlace) (w : NandWork) (l : List CwOutcome) (ok : Bool), s.dev.up = true ∧ s.dev.serveNand.runningOn (s.dev.lunOf p.block) = some w ∧ w.place = p ∧ w.kind = .readBack ∧ allHard l = true ∧ p.area ≠ .ring ∧ w.ticket ≠ 0 ∧ p.copy = 1) ∧
    (∃ (s : State) (p : NandPlace) (w : NandWork) (ok : Bool), s.dev.up = true ∧ s.dev.serveNand.runningOn (s.dev.lunOf p.block) = some w ∧ w.place = p ∧ ((w.kind = .program ∨ w.kind = .erase)) ∧ (s.dev.block p.block).bad = false) ∧
    (∃ (s : State) (p : NandPlace) (ok : Bool), s.dev.up = true ∧ s.dev.serveNand.runningOn (s.dev.lunOf p.block) = none ∧ s.dev.recd.lateReads.contains p = false) ∧
    (∃ (s : State) (p : NandPlace) (ok : Bool), s.dev.up = true ∧ s.dev.serveNand.runningOn (s.dev.lunOf p.block) = none ∧ s.dev.recd.lateReads.contains p = true ∧ 4 ≤ s.dev.recd.pageKiB) ∧
    (∃ (s : State) (p : NandPlace) (w : NandWork) (ok : Bool), s.dev.up = true ∧ s.dev.serveNand.runningOn (s.dev.lunOf p.block) = some w ∧ w.place = p ∧ w.retried = false) ∧
    (∃ (s : State) (p : NandPlace) (w : NandWork) (ok : Bool), s.dev.up = true ∧ s.dev.serveNand.runningOn (s.dev.lunOf p.block) = some w ∧ w.place = p ∧ w.retried = true ∧ (s.dev.block p.block).bad = false) ∧
    (∃ (s : State) (b : Nat) (n : Nat) (q : Nat × Nat), s.dev.up = true ∧ s.dev.serveNand.refreshTurn b = some q ∧ s.dev.serveNand.leastWorn (s.dev.serveNand.targets b) = some n) ∧
    (∃ (s : State), s.dev.up = true ∧ s.dev.recd.lastJournal + sTicks 600 ≤ s.dev.tick) ∧
    (∃ (s : State) (aged : List Nat) (soft : List Nat), s.dev.up = true ∧ s.dev.recd.lastScan + sTicks (168 * 3600) ≤ s.dev.tick) ∧
    (∃ (s : State), s.dev.up = true ∧ s.dev.recd.lastWear + sTicks (24 * 3600) ≤ s.dev.tick) ∧
    (∃ (s : State) (k : Fin 8), s.dev.hull.firstCommit = true) :=
  ⟨⟨bench, ring0, 60, true, by decide +kernel⟩,
   ⟨bench, ring0, true, by decide +kernel⟩,
   ⟨bench, ring0, true, by decide +kernel⟩,
   ⟨nand (work1 .erase ring0 0), ring0, work1 .erase ring0 0, true, by decide +kernel⟩,
   ⟨nand (work1 .program ring0 0), ring0, work1 .program ring0 0, true, by decide +kernel⟩,
   ⟨nand (work1 .readBack ring0 0), ring0, work1 .readBack ring0 0, [.hard 60], true, by decide +kernel⟩,
   ⟨nand (work1 .readBack (store0 0) 1), store0 0, work1 .readBack (store0 0) 1, [], true, by decide +kernel⟩,
   ⟨nand (work1 .readBack (store0 1) 1), store0 1, work1 .readBack (store0 1) 1, [], true, by decide +kernel⟩,
   ⟨nand (work1 .program ring0 0), ring0, work1 .program ring0 0, true, by decide +kernel⟩,
   ⟨bench, ring0, true, by decide +kernel⟩,
   ⟨on (fun d => { d with recd := { d.recd with lateReads := [ring0] } }), ring0, true, by decide +kernel⟩,
   ⟨nand (work1 .program ring0 0), ring0, work1 .program ring0 0, true, by decide +kernel⟩,
   ⟨nand { work1 .erase ring0 0 with retried := true }, ring0, { work1 .erase ring0 0 with retried := true }, true, by decide +kernel⟩,
   ⟨on (fun d => ({ d with recd := { d.recd with refresh := [(700, 1)] } } : Dev).modBlock 700 (fun b => { b with held := true })), 700, 172, (700, 1), by decide +kernel⟩,
   ⟨bench, by decide +kernel⟩,
   ⟨bench, [5], [6], by decide +kernel⟩,
   ⟨bench, by decide +kernel⟩,
   ⟨on (fun d => { d with hull := { d.hull with firstCommit := true } }), 0, by decide +kernel⟩⟩

theorem test_Segments_meets :
    (∃ (s : State), s.dev.up = true ∧ s.dev.recd.segTick + sTicks 60 ≤ s.dev.tick ∧ s.dev.recd.sealing = none) ∧
    (∃ (s : State) (k : Nat) (l : Nat) (body : List Byte) (recs : List Byte), s.dev.recd.sealing = some (k, body, recs) ∧ s.dev.sec.signing = none ∧ s.dev.usableLeaf = some l ∧ ((kset [] s.dev.recd.sealed k (recs ++ leBytes 8 (packN [(8, 8), (24, 0), (32, (body ++ s.dev.signature body l).length)]) ++ (body ++ s.dev.signature body l))).map (fun y => y.2.length)).sum ≤ s.dev.ringBytes) ∧
    (∃ (s : State) (k : Nat) (body : List Byte) (recs : List Byte), s.dev.recd.sealing = some (k, body, recs) ∧ s.dev.sec.signing = none ∧ s.dev.usableLeaf = none ∧ ((kset [] s.dev.recd.sealed k (recs ++ leBytes 8 (packN [(8, 8), (24, 0), (32, (body ++ List.replicate 5605 0).length)]) ++ (body ++ List.replicate 5605 0))).map (fun y => y.2.length)).sum ≤ s.dev.ringBytes) ∧
    (∃ (s : State), ((s.dev.recd.sealing = none ∨ s.dev.sec.signing.isSome = true))) :=
  ⟨⟨bench, by decide +kernel⟩,
   ⟨on (fun d => { d with recd := { d.recd with sealing := some (0, [], []) }, sec := { d.sec with reserved := some 0 } }), 0, 0, [], [], by decide +kernel, by decide +kernel, by decide +kernel, by refine le_of_eq_of_le (kset_sum _ _ (by rfl)) ?_; simp [Dev.signature, fitBytes_length, leBytes, Dev.ringBytes]; decide⟩,
   ⟨on (fun d => { d with recd := { d.recd with sealing := some (0, [], []) } }), 0, [], [], by decide +kernel, by decide +kernel, by decide +kernel, by refine le_of_eq_of_le (kset_sum _ _ (by rfl)) ?_; simp [leBytes, Dev.ringBytes]; decide⟩,
   ⟨bench, by decide +kernel⟩⟩

theorem test_CurrentBudget_meets :
    (∃ (s : State), s.dev.power.enCore = true ∧ s.dev.power.epochTick + usTicks 1 ≤ s.dev.tick) ∧
    (∃ (s : State), s.dev.Inv ∧ s.dev.up = true ∧ s.dev.power.enCore = true ∧ s.dev.power.epochTick + usTicks 1 ≤ s.dev.tick ∧ kget 0 s.dev.hull.demands srcFloor = 0 ∧ s.dev.availableAmps < ((s.dev.requests.filter (fun r => r.2.2 == 0)).map (fun r => r.2.1)).sum) ∧
    (∃ (s : State) (u : Fin 30), s.dev.up = true ∧ s.dev.power.enCore = true ∧ s.dev.power.droopEpoch = false) ∧
    (∃ (s : State) (u : Fin 30), s.dev.power.enCore = true ∧ s.dev.power.droopEpoch = true) :=
  ⟨⟨bench, by decide +kernel⟩,
   ⟨table 0 (entryOf 1) (open1 [0]) (fun d => obj 0x8000 1 60 (d.modPod 0 (fun p => { p with logical := some 0, state := .active, engine := some { desc := opd, ticket := tick1 } }))), by unfold Dev.Inv; decide +kernel, by decide +kernel⟩,
   ⟨bench, 0, by decide +kernel⟩,
   ⟨on (fun d => { d with power := { d.power with droopEpoch := true } }), 0, by decide +kernel⟩⟩

theorem test_SupplyFaults_meets :
    (∃ (s : State) (core : Int) (iod : Int), s.dev.up = true ∧ s.dev.power.tempTick + usTicks 100 ≤ s.dev.tick ∧ core < celsius 112 ∧ iod < celsius 112) ∧
    (∃ (s : State) (core : Int) (iod : Int), s.dev.up = true ∧ s.dev.power.tempTick + usTicks 100 ≤ s.dev.tick ∧ ((celsius 112 ≤ core ∨ celsius 112 ≤ iod))) ∧
    (∃ (s : State) (t : Nat), s.dev.up = true ∧ s.dev.power.stepTick + usTicks 100 ≤ s.dev.tick) ∧
    (∃ (s : State), s.dev.up = true ∧ s.dev.power.avsTick + msTicks 1 ≤ s.dev.tick ∧ kget 0 s.dev.power.avsFails 0 = 2) ∧
    (∃ (s : State) (l : List Bool) (t : Nat), s.dev.up = true ∧ s.dev.power.avsTick + msTicks 1 ≤ s.dev.tick ∧ l.all (fun a => a) = true ∧ s.dev.power.avsOk = some t ∧ t + sTicks 1 ≤ s.dev.tick) ∧
    (∃ (s : State) (r : Fin 6), s.dev.Inv ∧ s.dev.railOn r.val = true) ∧
    (∃ (s : State), s.dev.power.vhusk = true) ∧
    (∃ (s : State), s.dev.Inv ∧ s.dev.up = true ∧ s.dev.power.crystal = true) ∧
    (∃ (s : State), s.dev.power.vhusk = true) ∧
    (∃ (s : State) (pll : Fin 32), s.dev.up = true ∧ pll.val < 25 ∧ pll.val < podsOf s.dev.code) ∧
    (∃ (s : State) (pll : Fin 32), s.dev.up = true ∧ 25 ≤ pll.val ∧ pll.val ≤ 28) ∧
    (∃ (s : State) (pll : Fin 32), s.dev.up = true ∧ s.dev.Inv ∧ ((pll.val = 29 ∨ pll.val = 30))) ∧
    (∃ (s : State) (pll : Fin 32), s.dev.up = true ∧ s.dev.Inv ∧ pll.val = 31) :=
  ⟨⟨bench, 0, 0, by decide +kernel⟩,
   ⟨bench, 112 * 65536, 0, by decide +kernel⟩,
   ⟨bench, 760, by decide +kernel⟩,
   ⟨on (fun d => { d with power := { d.power with avsFails := [(0, 2)] } }), by decide +kernel⟩,
   ⟨on (fun d => { d with power := { d.power with avsOk := some 0 } }), [], 0, by decide +kernel⟩,
   ⟨bench, 0, by unfold Dev.Inv; decide +kernel, by decide +kernel⟩,
   ⟨bench, by decide +kernel⟩,
   ⟨bench, by unfold Dev.Inv; decide +kernel, by decide +kernel⟩,
   ⟨bench, by decide +kernel⟩,
   ⟨bench, 24, by decide +kernel⟩,
   ⟨bench, 28, by decide +kernel⟩,
   ⟨bench, 30, by decide +kernel, by unfold Dev.Inv; decide +kernel, by decide +kernel⟩,
   ⟨bench, 31, by decide +kernel, by unfold Dev.Inv; decide +kernel, by decide +kernel⟩⟩

theorem test_PowerPins_meets :
    (∃ (s : State), s.dev.power.vhusk = false) ∧
    (∃ (s : State), s.dev.power.vhusk = true) ∧
    (∃ (s : State), s.dev.mayStart = true ∧ s.dev.start.due = true) ∧
    (∃ (s : State), s.dev.mayStart = true ∧ s.dev.start.due = false) ∧
    (∃ (s : State), s.dev.up = true) ∧
    (∃ (s : State), s.dev.power.vhusk = true) ∧
    (∃ (s : State), s.dev.power.state = .husk ∧ s.dev.start.step = none) ∧
    (∃ (s : State) (n : Nat), s.dev.start.step = some n ∧ s.dev.watchdogDue n = true) :=
  ⟨⟨State.reset, by decide +kernel⟩,
   ⟨bench, by decide +kernel⟩,
   ⟨inState .husk (fun d => { d with start := { d.start with due := true } }), by decide +kernel⟩,
   ⟨inState .husk (fun d => { d with start := { d.start with due := false } }), by decide +kernel⟩,
   ⟨bench, by decide +kernel⟩,
   ⟨bench, by decide +kernel⟩,
   ⟨inState .husk (fun d => { d with start := { d.start with due := false } }), by decide +kernel⟩,
   ⟨inState .run (fun d => { d with start := { d.start with step := some 5 } }), 5, by decide +kernel⟩⟩

theorem test_StartupSteps_meets :
    (∃ (s : State) (r : StepResult) (n : Nat), s.dev.start.step = some n ∧ r.ok = true ∧ r.units = [] ∧ ((n = 1 ∨ n = 3 ∨ n = 4 ∨ n = 5 ∨ n = 6 ∨ (n = 2 ∧ s.dev.power.wdCount < 3) ∨ (n = 7 ∧ r.twoBad = [] ∧ s.dev.nandUnfit r = false) ∨ n = 9))) ∧
    (∃ (s : State) (r : StepResult), s.dev.start.step = some 1 ∧ r.ok = false) ∧
    (∃ (s : State) (r : StepResult), s.dev.start.step = some 2 ∧ r.ok = true) ∧
    (∃ (s : State) (r : StepResult), s.dev.up = true ∧ s.dev.start.step = some 4 ∧ r.ok = false) ∧
    (∃ (s : State) (r : StepResult), s.dev.up = true ∧ s.dev.start.step = some 6 ∧ r.ok = false) ∧
    (∃ (s : State) (r : StepResult), s.dev.start.step = some 8) ∧
    (∃ (s : State) (r : StepResult), s.dev.start.step = some 10 ∧ s.dev.step10Over = true) ∧
    (∃ (s : State) (r : StepResult), s.dev.start.step = some 11 ∧ s.dev.cyc.next = none ∧ s.dev.prog.activating = none ∧ s.dev.power.target = some .run ∧ s.dev.runRefusal = none) ∧
    (∃ (s : State) (r : StepResult) (x : Nat), s.dev.up = true ∧ s.dev.start.step = some 11 ∧ s.dev.cyc.next = none ∧ s.dev.prog.activating = none ∧ s.dev.power.target = some .run ∧ s.dev.runRefusal = some x) ∧
    (∃ (s : State) (n : Nat) (t : List Nat), s.dev.start.supplies = n :: t ∧ hasEdge s.dev.code = true ∧ s.dev.start.supplyTick + msTicks 1 ≤ s.dev.tick) :=
  ⟨⟨inState .run (fun d => { d with start := { d.start with step := some 1 } }), res true, 1, by decide +kernel⟩,
   ⟨inState .run (fun d => { d with start := { d.start with step := some 1 } }), res false, by decide +kernel⟩,
   ⟨inState .run (fun d => { d with start := { d.start with step := some 2 } }), res true, by decide +kernel⟩,
   ⟨inState .run (fun d => { d with start := { d.start with step := some 4 } }), res false, by decide +kernel⟩,
   ⟨inState .run (fun d => { d with start := { d.start with step := some 6 } }), res false, by decide +kernel⟩,
   ⟨inState .run (fun d => { d with start := { d.start with step := some 8 } }), res true, by decide +kernel⟩,
   ⟨inState .run (fun d => { d with start := { d.start with step := some 10 } }), res true, by decide +kernel⟩,
   ⟨inState .ready (fun d => { d with start := { d.start with step := some 11 }, power := { d.power with target := some .run, state := .ready }, prog := { d.prog with active := some 0 } }), res true, by decide +kernel⟩,
   ⟨inState .ready (fun d => { d with start := { d.start with step := some 11 }, power := { d.power with target := some .run, state := .ready } }), res true, 0x0F08, by decide +kernel⟩,
   ⟨inState .run (fun d => { d with start := { d.start with supplies := [3] } }), 3, [], by decide +kernel⟩⟩

theorem test_MemoryBytes_meets :
    (∃ (m : Memory) (k : Nat) (l : List Byte), m.wf = true) ∧
    (∃ (s : State) (g : Nat) (c : Nat) (run : Nat) (h : Nat) (p : Nat), s.dev.kv.backs.find? (fun b => b.1 == g) = some (g, c, run) ∧ (s.dev.kvRec g (s.dev.kvPos c)).cycle = c ∧ (s.dev.kvRec g (s.dev.kvPos c)).state = .present ∧ (s.dev.kvRec g (s.dev.kvPos c)).hot = true ∧ s.dev.kvBase 15 = some h ∧ s.dev.kvBase 16 = some p) ∧
    (∃ (s : State) (g : Nat) (c : Nat) (run : Nat), s.dev.kv.backs.find? (fun b => b.1 == g) = some (g, c, run)) :=
  ⟨⟨Dev.reset.mem, 5, [1], by decide +kernel⟩,
   ⟨on (fun d => { d with prog := { d.prog with prog := some { pkg with attention := [0, 4096, 8, 8, 4, 2, 0, 0, 1, 0, 1, 32, 1, 1, 1, 2 * 2 ^ 44, 3 * 2 ^ 44] } }, kv := { d.kv with backs := [(0, 1, 2)], recs := [(1, { KvRecord.reset with cycle := 1, state := .present, hot := true })] } }), 0, 1, 2, 2 * 2 ^ 44, 3 * 2 ^ 44, by decide +kernel⟩,
   ⟨on (fun d => { d with prog := { d.prog with prog := some { pkg with attention := [0, 4096, 8, 8, 4, 2, 0, 0, 1, 0, 1, 32, 1, 1, 1, 2 * 2 ^ 44, 3 * 2 ^ 44] } }, kv := { d.kv with backs := [(0, 1, 2)], recs := [(1, { KvRecord.reset with cycle := 1, state := .present, hot := true })] } }), 0, 1, 2, by decide +kernel⟩⟩

theorem test_StepRunsFront_meets :
    (∃ (s : State) (c : Instr) (rest : List Instr), s.pending = c :: rest) :=
  ⟨{ bench with pending := [.status] }, .status, [], by decide +kernel⟩

theorem test_StepKeepsInvariant_meets :
    (∃ (s : State) (t : State), s.dev.Inv ∧ step s = .next t) :=
  ⟨{ bench with pending := [] }, { bench with dev := bench.dev.tickOnce }, by unfold Dev.Inv; decide +kernel, rfl⟩

/-! ## Ill-formed commands, one for each check -/

theorem test_illformed_length : Instr.wellFormed (.read (rq 1409) 0x1000 0 false 0) = false := by decide
theorem test_illformed_request_of_subscribe : Instr.wellFormed (.subscribe (rq 1409) 0x2040 4 0) = false := by decide
theorem test_illformed_can_length : Instr.wellFormed (.canFrame 0 1 true (List.replicate 65 0) []) = false := by decide
theorem test_illformed_can_identifier : Instr.wellFormed (.canFrame 0 2048 false [] []) = false := by decide
theorem test_illformed_spi_empty : Instr.wellFormed (.spiFrameReceived 0 [] []) = false := by decide
theorem test_illformed_spi_length : Instr.wellFormed (.spiFrameReceived 0 (List.replicate 65 0) []) = false := by decide
theorem test_illformed_queue_empty : Instr.wellFormed (.move 0 (.schedule 0) 0 []) = false := by decide
theorem test_illformed_queue_words : Instr.wellFormed (.move 0 (.schedule 0) 0 [[0]]) = false := by decide
theorem test_illformed_job : Instr.wellFormed (.solve 0 [0] 0 0 none) = false := by decide
theorem test_illformed_object : Instr.wellFormed (.syncRead 16384) = false := by decide
theorem test_illformed_key : Instr.wellFormed (.otpProgram 0 [0]) = false := by decide
theorem test_illformed_correction : Instr.wellFormed (.resetCorrection (rq 0) 0 3 []) = false := by decide
theorem test_illformed_geometry : Instr.wellFormed (.gridGeometryWrite (rq 0) 1 []) = false := by decide
theorem test_illformed_twin : Instr.wellFormed (.bulk { frm .agree with payload := List.replicate 1025 0 }) = false := by decide +kernel
theorem test_illformed_payload : Instr.wellFormed (.write (rq 0) 0x2000 2 false (List.replicate 1409 0)) = false := by decide +kernel
theorem test_illformed_segment : Instr.wellFormed (.blockData (rq 0) 0xA000 7 0 [] none) = false := by decide
theorem test_illformed_nonce : Instr.wellFormed (.attestationNonce (rq 0) []) = false := by decide
theorem test_illformed_response : Instr.wellFormed (.pdelayResponse 0 0 none none) = false := by decide
theorem test_wellformed_read : Instr.wellFormed (.read (rq 1408) 0x1000 0 false 0) = true := by decide

/-! ## Examples of the manual -/

/-- 10_temporal_attention.md after R259: a KV8 block whose largest magnitude is 3.0 takes e = −5 and stores 96. -/
theorem test_kv8_example : kvEncode 127 [fVal 8 0x4040] = (-5, [96], 0) := by decide +kernel
/-- The same block in KV4 takes e = −1 and stores 6. -/
theorem test_kv4_example : kvEncode 7 [fVal 8 0x4040] = (-1, [6], 0) := by decide +kernel
/-- 12_solvers.md after R316: DIAG_RANGE 64.0 in N_A 16 and the shift of 20 give a floor of raw 4. -/
theorem test_floor_example : Job.floor { jobOf [] with diag := 4194304, floorShift := 20 } = 4 := by decide +kernel
/-- 09_fusion_grid.md, "A worked cycle", patch B: confidences 52 and 50 fuse to 245. -/
theorem test_confidence_example : fusedConf [52, 50] = 245 := by decide +kernel

end Sys2Proof.Tests
end

/-! PROOF. A request that the device serves and refuses is answered with the refusal and changes no object (R401, R404 to R406);
a write of [5000.02] or [5000.03] out of range is such a request (R79). -/

namespace Sys2Proof.Machine

open Sys2Proof

/-! ## Receiving and answering a request -/

/-- A frame that the port takes runs the service behind its filters. -/
theorem Dev.datagram_of_takes {d : Dev} {port : ReqPort} {addr : BitVec 128} {f : HostFrame} (h : d.Takes port addr f)
    (g : Dev → Dev) : d.datagram port addr f g = g d := by
  obtain ⟨hup, htaken, hport⟩ := h
  unfold Dev.datagram
  rw [if_neg (by simp [hup, htaken])]
  split
  · rfl
  · next hne =>
    simp only [Dev.hostReceive, hport.resolve_left hne]

/-- A served request for which the service gives a reply at once is answered with that reply. -/
theorem Dev.serve_of_serves {d e : Dev} {r : Req} {op idx sub : Nat} {part : Bool} {off : Nat} {payload : List Byte} {rt : Nat}
    {x : Reply} {f : Nat → Dev → Dev × Option Reply} (h : d.Serves r op idx sub part off payload rt) (hf : f rt d = (e, some x)) :
    d.serve r op idx sub part off payload f =
      e.answer r op idx sub (contentOf op idx sub part off payload) (responseBytes r op idx sub part off x) d.recd.jseq := by
  obtain ⟨htakes, hframed, hboot, hrepeat, hheld, hrights⟩ := h
  unfold contentOf at hrepeat hheld ⊢
  unfold Dev.serve
  rw [Dev.datagram_of_takes htakes]
  simp only [hframed, hboot, hrepeat, hheld, hrights, hf, Bool.false_eq_true, Bool.true_eq_false, if_false]

theorem Dev.sendService_last (d : Dev) (k : OutKind) (port : Nat) (data : List Nat) :
    let o : Output := { kind := k, unit := port, tag := d.hostTag port 1, data := data }
    (d.sendService k port data).out.head? = some o ∨ (d.sendService k port data).palca.waitingOut.getLast? = some o := by
  unfold Dev.sendService
  split
  · exact Or.inr List.getLast?_concat
  · exact Or.inl rfl

/-- The VLAN tag of a port is read from the dictionary alone. -/
theorem Dev.sendService_hostTag (d : Dev) (k : OutKind) (p : Nat) (data : List Nat) (port cls : Nat) :
    (d.sendService k p data).hostTag port cls = d.hostTag port cls := by
  unfold Dev.sendService
  split <;> rfl

theorem Dev.reply_answered (d : Dev) (r : Req) (bytes : List Nat) : (d.reply r bytes).Answered r bytes := by
  unfold Dev.Answered Dev.reply
  split
  · split <;> exact List.getLast?_concat
  · simpa only [Dev.sendService_hostTag] using d.sendService_last .response (portNo r.port) (r.addr.toNat :: r.udp.toNat :: bytes)

/-- Keeping a response for repeats does not touch what has been sent. -/
theorem Dev.keepResponse_answered {d : Dev} {r : Req} {bytes : List Nat} (h : d.Answered r bytes) (content kept : List Nat) :
    (d.keepResponse r content kept).Answered r bytes := h

/-- A response that waits for no new journal entry goes at once (R405). -/
theorem Dev.answer_answered (d : Dev) (r : Req) (op idx sub : Nat) (content bytes : List Nat) :
    (d.answer r op idx sub content bytes d.recd.jseq).Answered r bytes := by
  unfold Dev.answer
  simp only [ne_eq, not_true_eq_false, and_false, if_false]
  exact Dev.keepResponse_answered (d.reply_answered r bytes) _ _

/-- A served request whose service leaves the device as it is: the reply is sent, and only the host link and the outbox
change. -/
theorem Dev.serve_of_unchanged {d : Dev} {r : Req} {op idx sub : Nat} {part : Bool} {off : Nat} {payload : List Byte} {rt : Nat}
    {x : Reply} {f : Nat → Dev → Dev × Option Reply} (h : d.Serves r op idx sub part off payload rt) (hf : f rt d = (d, some x)) :
    (d.serve r op idx sub part off payload f).Answered r (responseBytes r op idx sub part off x) ∧
      Dev.Frame [.palca, .out] d (d.serve r op idx sub part off payload f) := by
  rw [Dev.serve_of_serves h hf]
  exact ⟨Dev.answer_answered _ _ _ _ _ _ _, Dev.answer_frame _ _ _ _ _ _ _ _⟩

/-- The stored value of an object depends on the dictionary and the ordering code alone. -/
theorem Dev.Frame.cfgList {l : List Part} {a b : Dev} (h : Dev.Frame l a b) (s : (!l.contains .dict && !l.contains .code) = true)
    (idx sub : Nat) : b.cfgList idx sub = a.cfgList idx sub := by
  simp only [Bool.and_eq_true, Bool.not_eq_true', List.contains_eq_mem, decide_eq_false_iff_not] at s
  have hdict : b.dict = a.dict := h .dict s.1
  have hcode : b.code = a.code := h .code s.2
  unfold Dev.cfgList
  rw [hdict, hcode]

/-! ## The checks of a write -/

/-- Every check of R404 refuses with a cause. -/
theorem Dev.checkWrite_status {d : Dev} {port : ReqPort} {rt idx sub : Nat} {payload : List Byte} {x : Reply}
    (h : d.checkWrite port rt idx sub payload = some x) : x.status ≠ 0 := by
  unfold Dev.checkWrite at h
  repeat' split at h
  all_goals simp only [Option.some.injEq, reduceCtorEq] at h
  all_goals subst h; decide

/-- A write that passes the checks of R404 has the length of its object and a value inside its table range. -/
theorem Dev.checkWrite_passed {d : Dev} {port : ReqPort} {rt idx sub : Nat} {payload : List Byte} {row : DRow}
    (hrow : objRow d.code idx sub = some row) (h : d.checkWrite port rt idx sub payload = none) :
    payload.length = row.ty.count * row.ty.width ∧ row.chk.ok (fromWire row.ty.count row.ty.width payload) = true := by
  unfold Dev.checkWrite at h
  rw [hrow] at h
  repeat' split at h
  all_goals simp_all

/-- One element takes the whole payload as its number. -/
theorem fromWire_one {w : Nat} {l : List Byte} (h : l.length = w) : fromWire 1 w l = [beNat l] := by
  simp [fromWire, ← h]

/-- A write that a check of R404 or the object's own rule refuses, with nothing stored, is answered with the refusal; only the
host link and the outbox change. -/
theorem write_completes_refused {s : State} {r : Req} {idx : BitVec 16} {sub : Byte} {part : Bool} {payload : List Byte} {rt : Nat}
    (hs : s.dev.Serves r 2 idx.toNat sub.toNat part 0 payload rt) (hev : isEv s.dev.code idx.toNat sub.toNat = false)
    (hreset : ¬ (idx.toNat = 0x2000 ∧ sub.toNat = 5))
    (hown : s.dev.checkWrite r.port rt idx.toNat sub.toNat payload = none →
      ∃ x : Reply, x.status ≠ 0 ∧
        ownWrite idx.toNat sub.toNat (wireValue s.dev.code idx.toNat sub.toNat payload) s.dev = (s.dev, x)) :
    Completes (.write r idx sub part payload) s (fun d =>
      (∃ x : Reply, x.status ≠ 0 ∧ d.Answered r (responseBytes r 2 idx.toNat sub.toNat part 0 x)) ∧
        Dev.Frame [.palca, .out] s.dev d) := by
  refine ⟨writeRequest r idx.toNat sub.toNat part payload s.dev, rfl, ?_⟩
  unfold writeRequest
  rw [if_neg hreset]
  unfold Dev.writeWith
  cases hcheck : s.dev.checkWrite r.port rt idx.toNat sub.toNat payload with
  | some x =>
    exact And.imp_left (fun h => ⟨x, Dev.checkWrite_status hcheck, h⟩)
      (Dev.serve_of_unchanged hs (by simp only [hev, hcheck, Bool.false_eq_true, if_false]))
  | none =>
    obtain ⟨x, hstatus, hrefused⟩ := hown hcheck
    exact And.imp_left (fun h => ⟨x, hstatus, h⟩)
      (Dev.serve_of_unchanged hs (by simp only [hev, hcheck, hrefused, Bool.false_eq_true, if_false]))

/-! ## The acceptance margin and the late bound (R79) -/

/-- The row of [5000.02]; its range is a rule of its own. -/
theorem objRow_margin (code : Nat) : objRow code 0x5000 2 = some (dn 0x5000 0x5000 2 2 4 .rwr 2500) := by
  have hon : onCode code 0x5000 2 = true := by simp [onCode]
  rw [objRow, if_pos hon]
  rfl

/-- The row of [5000.03]; its range stands in the table. -/
theorem objRow_lateBound (code : Nat) : objRow code 0x5000 3 = some (dn 0x5000 0x5000 3 3 1 .rwr 2 (.between 1 3)) := by
  have hon : onCode code 0x5000 3 = true := by simp [onCode]
  rw [objRow, if_pos hon]
  rfl

/-- R79: the own rule of [5000.02] refuses a margin below 200 µs or above half of the period and stores nothing. -/
theorem ownWrite_margin_outOfRange {d : Dev} {m : Nat} (h : m < 200 ∨ d.cfg 0x5000 1 < 2 * m) :
    ownWrite 0x5000 2 [m] d = (d, .refuse 4) := by
  have hout : d.outOfRange 0x5000 2 [m] = true := by simpa [Dev.outOfRange] using h
  have hplain : writePlain 0x5000 2 [m] d = (d, .refuse 4) := by simp [writePlain, hout]
  simpa [ownWrite] using hplain

/-- A margin that passes the checks of R404 is the number of its four bytes. -/
theorem wireValue_margin_of_passed {d : Dev} {port : ReqPort} {rt : Nat} {payload : List Byte}
    (h : d.checkWrite port rt 0x5000 2 payload = none) : wireValue d.code 0x5000 2 payload = [beNat payload] := by
  obtain ⟨hlen, -⟩ := Dev.checkWrite_passed (objRow_margin d.code) h
  simp only [wireValue, objRow_margin]
  exact fromWire_one hlen

/-- A late bound that passes the checks of R404 is 1 to 3. -/
theorem lateBound_of_passed {d : Dev} {port : ReqPort} {rt : Nat} {payload : List Byte}
    (h : d.checkWrite port rt 0x5000 3 payload = none) : 1 ≤ beNat payload ∧ beNat payload ≤ 3 := by
  obtain ⟨hlen, hrange⟩ := Dev.checkWrite_passed (objRow_lateBound d.code) h
  have hvalue : fromWire 1 1 payload = [beNat payload] := fromWire_one hlen
  simpa [dn, Chk.ok, DTy.count, DTy.width, hvalue] using hrange

/-- Settles O36: the checks of R404 or R79's own rule refuse the value before anything is stored. -/
theorem marginRange : Obligations.MarginRange := by
  unfold Obligations.MarginRange
  refine ⟨fun s r part payload rt hs hout => ?_, fun s r part payload rt hs hout => ?_⟩
  · have hown : s.dev.checkWrite r.port rt 0x5000 2 payload = none →
        ∃ x : Reply, x.status ≠ 0 ∧ ownWrite 0x5000 2 (wireValue s.dev.code 0x5000 2 payload) s.dev = (s.dev, x) := by
      intro hpassed
      rw [wireValue_margin_of_passed hpassed]
      exact ⟨.refuse 4, by decide, ownWrite_margin_outOfRange hout⟩
    obtain ⟨d, hexec, hanswered, hframe⟩ :=
      write_completes_refused (idx := 0x5000) (sub := 2) hs (by simp [isEv, objRow_margin, dn]) (by decide) hown
    exact ⟨d, hexec, hanswered, hframe.cfgList (by decide) _ _⟩
  · have hown : s.dev.checkWrite r.port rt 0x5000 3 payload = none →
        ∃ x : Reply, x.status ≠ 0 ∧ ownWrite 0x5000 3 (wireValue s.dev.code 0x5000 3 payload) s.dev = (s.dev, x) := by
      intro hpassed
      have := lateBound_of_passed hpassed
      omega
    obtain ⟨d, hexec, hanswered, hframe⟩ :=
      write_completes_refused (idx := 0x5000) (sub := 3) hs (by simp [isEv, objRow_lateBound, dn]) (by decide) hown
    exact ⟨d, hexec, hanswered, hframe.cfgList (by decide) _ _⟩

end Sys2Proof.Machine

/-! PROOF. A sync object that the issuer's partition does not own stays as it is: the access raises 0x0609, a refused SIGNAL
is a signal with error on the issuer's own SIG_OBJ, and a refused WAIT returns ERROR (R214 to R216). -/

namespace Sys2Proof.Machine

open Sys2Proof

/-! ## The words of sync objects -/

/-- An operation that leaves the Sync fabric alone keeps every sync object. -/
theorem Dev.Frame.syncObj {l : List Part} {a b : Dev} (h : Dev.Frame l a b) (hs : Part.sync ∉ l) (o : Nat) :
    b.syncObj o = a.syncObj o := by
  have hsync : b.sync = a.sync := h .sync hs
  rw [Dev.syncObj, Dev.syncObj, hsync]

/-- Releasing waiters takes them off the list and leaves the objects' words. -/
theorem Dev.releaseWaiters_syncObj (d : Dev) (o j : Nat) : (d.releaseWaiters o).syncObj j = d.syncObj j := by
  unfold Dev.releaseWaiters
  exact Dev.Frame.syncObj
    ((Dev.frame_foldl (l := [.out]) (fun e x => Dev.waitReturn_frame e _ _ _) _ _ _).2 (.refl d)) (by decide) j

/-- R214: a SIGNAL writes the word of its object and of no other one. -/
theorem Dev.signal_syncObj (d : Dev) (o inc : Nat) (err : Bool) (cause j : Nat) :
    (d.signal o inc err cause).syncObj j = if j = o then
      syncWord (if err = true ∧ syncCause (d.syncObj o) = 0 then cause else syncCause (d.syncObj o))
        (syncErr (d.syncObj o) || err) (satU 32 (syncCount (d.syncObj o) + inc))
    else d.syncObj j := by
  unfold Dev.signal
  dsimp only
  rw [Dev.releaseWaiters_syncObj]
  have hraise (e : Dev) (b : Bool) : (e.raiseIf b 0x0607 0 o).syncObj j = e.syncObj j :=
    (Dev.raiseIf_frame e b 0x0607 0 o).syncObj (by decide) j
  have hgen (e : Dev) : (if err = true ∧ e.isGeneration o = true then e.genFault cause else e).syncObj j = e.syncObj j := by
    split
    · exact (Dev.genFault_frame e cause).syncObj (by decide) j
    · rfl
  have hset (w : Word) : (d.setSync o w).syncObj j = if j = o then w else d.syncObj j := kget_kset
  rw [hgen, hraise, hset]

/-! ## The report of a refused SIGNAL -/

/-- R214, R215, R373: what a SIGNAL does once it has reported a saturated count reaches neither the fault log nor the cycle. -/
theorem Dev.signal_frame_from_report (d : Dev) (o inc : Nat) (err : Bool) (cause : Nat) :
    Dev.Frame [.sync, .hull, .out]
      ((d.setSync o ((d.signal o inc err cause).syncObj o)).raiseIf (decide (2 ^ 32 ≤ syncCount (d.syncObj o) + inc)) 0x0607 0 o)
      (d.signal o inc err cause) := by
  rw [Dev.signal_syncObj, if_pos rfl]
  unfold Dev.signal
  simp (disch := decide) only [(Dev.releaseWaiters_frame _ _).iff, (Dev.genFault_frame _ _).iff, Dev.frame_ite, Dev.frame_self,
    implies_true, and_self]

/-- A SIGNAL whose count does not saturate reports nothing of its own: the report before it stays the newest. -/
theorem Dev.signal_reports_of_lt {d : Dev} {o inc : Nat} (h : syncCount (d.syncObj o) + inc < 2 ^ 32) (err : Bool)
    (cause c i : Nat) : (d.signal o inc err cause).Reports c i ↔ d.Reports c i := by
  rw [(d.signal_frame_from_report o inc err cause).reports (by decide), decide_eq_false (Nat.not_le.2 h)]
  exact (Dev.setSync_frame d o _).reports (by decide) c i

/-- R391, R392: a cause that differs from the newest entry's is a new entry, and the newest one stays in the log behind it. -/
theorem Dev.raise_keeps_newest {d : Dev} {e : LogEntry} {cause : Nat} (he : d.log.entries.head? = some e) (hne : e.cause ≠ cause)
    (inst detail : Nat) : e ∈ (d.raise cause inst detail).log.entries := by
  obtain ⟨t, ht⟩ := List.head?_eq_some_iff.1 he
  unfold Dev.raise
  split
  · rw [Dev.occurAll_log]
    simp [Dev.logFault, ht, hne, Dev.record]
  · simp [ht]

/-- A SIGNAL keeps the newest entry of a cause other than that of a saturated count. -/
theorem Dev.signal_keeps_newest {d : Dev} {e : LogEntry} (he : d.log.entries.head? = some e) (hne : e.cause ≠ 0x0607)
    (o inc : Nat) (err : Bool) (cause : Nat) : e ∈ (d.signal o inc err cause).log.entries := by
  have hlog : (d.signal o inc err cause).log = _ := d.signal_frame_from_report o inc err cause .log (by decide)
  rw [hlog]
  unfold Dev.raiseIf
  split
  · exact Dev.raise_keeps_newest (d := d.setSync o _) he hne 0 o
  · exact List.mem_of_head? he

/-! ## Refused accesses -/

/-- The newest entry after a report. -/
theorem Dev.Reports.exists_entry {d : Dev} {c i : Nat} (h : d.Reports c i) :
    ∃ e, d.log.entries.head? = some e ∧ e.cause = c ∧ e.inst = i ∧ e.cycle = d.cyc.number.toNat := by
  simpa [Dev.Reports, Dev.newest] using h

theorem syncSignal_of_not_owned {d : Dev} {who : SyncIssuer} {obj : Nat} (h : d.syncOwned who.partition obj = false) (inc : Nat)
    (err : Bool) (cause : Nat) :
    syncSignal who obj inc err cause d = (d.raise 0x0609 who.number obj).signal who.sigObj inc true 0x0609 := by
  simp [syncSignal, h]

theorem syncWait_of_not_owned {d : Dev} {who : SyncIssuer} {obj : Nat} (h : d.syncOwned who.partition obj = false) (th to_ : Nat) :
    syncWait who obj th to_ d = (d.raise 0x0609 who.number obj).waitReturn who.number obj waitError := by
  simp [syncWait, h]

theorem syncReset_of_not_owned {d : Dev} {who : SyncIssuer} {obj : Nat} (h : d.syncOwned who.partition obj = false) (v : Nat) :
    syncReset who obj v d = d.raise 0x0609 who.number obj := by
  simp [syncReset, h]

/-- Settles O13: each refused access is the raised 0x0609, which leaves the Sync fabric alone, and then the signal with error on
SIG_OBJ, the returned ERROR, or nothing. -/
theorem syncRange : Obligations.SyncRange := by
  unfold Obligations.SyncRange
  refine ⟨fun s who obj inc err cause hup hown => ⟨_, rfl, ?_⟩, fun s who obj th to_ hup hown => ⟨_, rfl, ?_⟩,
    fun s who obj v hup hown => ⟨_, rfl, ?_⟩⟩
  all_goals
    have hraise := Dev.raise_frame s.dev 0x0609 who.number obj
    have hreports := Dev.raise_reports hup 0x0609 who.number obj
  · rw [syncSignal_of_not_owned hown]
    have hobj := hraise.syncObj (by decide)
    have hcyc : (s.dev.raise 0x0609 who.number obj).cyc = s.dev.cyc := hraise .cyc (by decide)
    refine ⟨fun o ho => ?_, ?_, fun hlt => ?_, ?_⟩
    · rw [Dev.signal_syncObj, if_neg ho, hobj]
    · simp [Dev.signal_syncObj, hobj]
    · exact (Dev.signal_reports_of_lt (by rwa [hobj]) _ _ _ _).2 hreports
    · obtain ⟨e, hhead, hcause, hinst, hcycle⟩ := hreports.exists_entry
      exact ⟨e, Dev.signal_keeps_newest hhead (by simp [hcause]) _ _ _ _, hcause, hinst, by rw [hcycle, hcyc]⟩
  · rw [syncWait_of_not_owned hown]
    have hsync : (s.dev.raise 0x0609 who.number obj).sync = s.dev.sync := hraise .sync (by decide)
    have hout : (s.dev.raise 0x0609 who.number obj).out = s.dev.out := hraise .out (by decide)
    exact ⟨hsync, ((Dev.waitReturn_frame _ _ _ _).reports (by decide) _ _).2 hreports, by simp [Dev.waitReturn, hout]⟩
  · rw [syncReset_of_not_owned hown]
    exact ⟨hraise .sync (by decide), hreports⟩

end Sys2Proof.Machine

/-! PROOF. An event object is read by parts, cleared by a write of 0 with PART 0, refused every other write, and set and counted
by each occurrence (R13, R407). -/

namespace Sys2Proof.Machine

open Sys2Proof

/-! ## Event objects of the dictionary -/

/-- Every row of type EV in the dictionary has the access class EV, so no event is write-only. -/
theorem dictRows_event_acc : ∀ row ∈ dictRows, row.ty = .ev → row.acc = .ev := by
  decide +kernel

theorem objRow_event_acc {code idx sub : Nat} {row : DRow} (h : objRow code idx sub = some row) (hty : row.ty = .ev) :
    row.acc = .ev := by
  have hlisted : ∀ j, rowOf idx j = some row → row.acc = .ev := fun j hj =>
    dictRows_event_acc row (List.mem_of_find?_eq_some hj) hty
  obtain ⟨-, hrow⟩ := Option.ite_none_right_eq_some.mp h
  split at hrow
  · rcases Option.or_eq_some_iff.mp hrow with hfound | ⟨-, hzero⟩
    · exact hlisted 0 hfound
    · obtain ⟨-, hnum⟩ := Option.ite_none_right_eq_some.mp hzero
      cases hnum
      cases hty
  · exact hlisted sub hrow

/-- The row of an event object. -/
theorem objRow_of_isEv {code idx sub : Nat} (h : isEv code idx sub = true) :
    ∃ row, objRow code idx sub = some row ∧ row.ty = .ev ∧ row.acc = .ev := by
  unfold isEv at h
  split at h
  · next row hrow => exact ⟨row, hrow, of_decide_eq_true h, objRow_event_acc hrow (of_decide_eq_true h)⟩
  · cases h

/-- R432: the reset request [2000.05] is a number. -/
theorem isEv_resetRequest (code : Nat) : isEv code 0x2000 5 = false := by
  have hon : onCode code 0x2000 5 = true := by simp [onCode]
  rw [isEv, objRow, if_pos hon]
  rfl

/-! ## Services that change the device -/

/-- A served request whose service starts no journal entry: the reply goes at once, and what the service left changes in the host
link and the outbox only. -/
theorem Dev.serve_of_recd_eq {d e : Dev} {r : Req} {op idx sub : Nat} {part : Bool} {off : Nat} {payload : List Byte} {rt : Nat}
    {x : Reply} {f : Nat → Dev → Dev × Option Reply} (h : d.Serves r op idx sub part off payload rt) (hf : f rt d = (e, some x))
    (hrecd : e.recd = d.recd) :
    (d.serve r op idx sub part off payload f).Answered r (responseBytes r op idx sub part off x) ∧
      Dev.Frame [.palca, .out] e (d.serve r op idx sub part off payload f) := by
  rw [Dev.serve_of_serves h hf, ← hrecd]
  exact ⟨Dev.answer_answered _ _ _ _ _ _ _, Dev.answer_frame _ _ _ _ _ _ _ _⟩

/-- An operation that leaves the dictionary alone keeps every event. -/
theorem Dev.Frame.ev {l : List Part} {a b : Dev} (h : Dev.Frame l a b) (hs : Part.dict ∉ l) (idx sub : Nat) :
    b.ev idx sub = a.ev idx sub := by
  have hdict : b.dict = a.dict := h .dict hs
  rw [Dev.ev, Dev.ev, hdict]

/-! ## Reads -/

/-- R407: an event is read by its part. -/
theorem Dev.readObj_of_isEv {d : Dev} {rt idx sub : Nat} (hev : isEv d.code idx sub = true) (hread : nbit rt 0 = true)
    (part : Bool) (off : Nat) : d.readObj rt idx sub part off 0 = .good (d.readEv idx sub part) := by
  obtain ⟨row, hrow, hty, hacc⟩ := objRow_of_isEv hev
  simp [Dev.readObj, hread, hrow, hty, hacc]

/-- A served READ is answered with what it reads. -/
theorem readRequest_answered {d : Dev} {r : Req} {idx sub : Nat} {part : Bool} {off rt : Nat}
    (h : d.Serves r 1 idx sub part off [] rt) :
    (readRequest r idx sub part off d).Answered r
      (responseBytes r 1 idx sub part off (d.readObj rt idx sub part off r.length)) :=
  (Dev.serve_of_recd_eq h rfl (by split <;> rfl)).1

/-! ## Writes -/

theorem Dev.writeEv_clear (d : Dev) (idx sub : Nat) : d.writeEv idx sub false false [0] = (d.clearEv idx sub, .good []) := by
  simp [Dev.writeEv]

/-- R219: an occurrence in the clock of the clear wins. -/
theorem Dev.writeEv_stays (d : Dev) (idx sub : Nat) : d.writeEv idx sub false true [0] = (d, .good []) := by
  simp [Dev.writeEv]

theorem Dev.writeEv_refused {part : Bool} {payload : List Byte} (h : part = true ∨ payload ≠ [0]) (d : Dev) (idx sub : Nat)
    (stays : Bool) : d.writeEv idx sub part stays payload = (d, .refuse 2) := by
  unfold Dev.writeEv
  rw [if_neg (by rintro ⟨rfl, rfl⟩; simp at h)]

/-- A served write to an event does what R407 says of it, answers with R407's reply, and changes nothing else but the host link and
the outbox. -/
theorem Dev.writeWith_of_isEv {d e : Dev} {x : Reply} {r : Req} {idx sub : Nat} {part stays : Bool} {payload : List Byte} {rt : Nat}
    (h : d.Serves r 2 idx sub part 0 payload rt) (hwrite : nbit rt 1 = true) (hev : isEv d.code idx sub = true)
    (hx : d.writeEv idx sub part stays payload = (e, x)) (own : List Nat → Dev → Dev × Reply) :
    (d.writeWith r idx sub part payload own stays).Answered r (responseBytes r 2 idx sub part 0 x) ∧
      Dev.Frame [.palca, .out] e (d.writeWith r idx sub part payload own stays) := by
  have hframe := Dev.writeEv_frame d idx sub part stays payload
  rw [hx] at hframe
  unfold Dev.writeWith
  exact Dev.serve_of_recd_eq h (by simp [hev, hwrite, hx]) (hframe .recd (by decide))

/-- WRITE has no rule of its own for an event. -/
theorem writeRequest_of_isEv {d : Dev} {idx sub : Nat} (hev : isEv d.code idx sub = true) (r : Req) (part : Bool)
    (payload : List Byte) :
    writeRequest r idx sub part payload d = d.writeWith r idx sub part payload (ownWrite idx sub) := by
  unfold writeRequest
  rw [if_neg]
  rintro ⟨rfl, rfl⟩
  simp [isEv_resetRequest] at hev

/-! ## Occurrences -/

theorem Dev.occur_ev (d : Dev) (idx sub : Nat) :
    (d.occur idx sub).ev idx sub = { pending := true, count := ((d.ev idx sub).count + 1) % 2 ^ 32 } :=
  d.occurN_ev idx sub 1

/-- Whom the device serves does not depend on its events. -/
theorem Dev.Serves.occur {d : Dev} {r : Req} {op idx sub : Nat} {part : Bool} {off : Nat} {payload : List Byte} {rt : Nat}
    (h : d.Serves r op idx sub part off payload rt) (i j : Nat) : (d.occur i j).Serves r op idx sub part off payload rt :=
  h

/-- Settles O35: a read gives the part, a clear is `Dev.clearEv` and keeps the count, any other write is refused before anything
changes, and a clear that meets an occurrence in its clock leaves the bit set (R219). -/
theorem evObjects : Obligations.EvObjects := by
  unfold Obligations.EvObjects
  refine ⟨fun s r idx sub part off rt hs hread hev hlen => ⟨_, rfl, ?_⟩, fun s r idx sub rt hs hwrite hev c hc => ?_,
    fun s r idx sub part payload rt hs hwrite hev hbad => ?_, fun s r idx sub rt hs hwrite hev => ⟨_, rfl, ?_⟩,
    fun d i j => d.occur_ev i j⟩
  · have hanswered := readRequest_answered hs
    rwa [hlen, Dev.readObj_of_isEv hev hread] at hanswered
  · obtain ⟨hanswered, hframe⟩ :=
      Dev.writeWith_of_isEv hs hwrite hev (s.dev.writeEv_clear _ _) (ownWrite idx.toNat sub.toNat)
    have hcleared := (hframe.ev (by decide) idx.toNat sub.toNat).trans (s.dev.clearEv_ev _ _)
    rcases hc with rfl | rfl
    · rw [← writeRequest_of_isEv hev] at hanswered hcleared
      exact ⟨_, rfl, hanswered, hcleared⟩
    · exact ⟨_, rfl, hanswered, hcleared⟩
  · obtain ⟨hanswered, hframe⟩ :=
      Dev.writeWith_of_isEv hs hwrite hev (Dev.writeEv_refused hbad s.dev _ _ false) (ownWrite idx.toNat sub.toNat)
    rw [← writeRequest_of_isEv hev] at hanswered hframe
    exact ⟨_, rfl, hanswered, hframe .dict (by decide)⟩
  · obtain ⟨-, hframe⟩ :=
      Dev.writeWith_of_isEv (hs.occur idx.toNat sub.toNat) hwrite hev (Dev.writeEv_stays _ _ _) (ownWrite idx.toNat sub.toNat)
    exact (hframe.ev (by decide) _ _).trans (s.dev.occur_ev _ _)

end Sys2Proof.Machine

/-! PROOF. The statements about every command at once: the front of the queue, the reset state, the invariant (every command keeps
it, so every step does), and the frames that `partsOf` lists, which one command breaks. -/

namespace Sys2Proof.Machine

open Sys2Proof

/-! ## One step, and reset -/

/-- Settles O56: `step` is defined by that case. -/
theorem stepRunsFront : Obligations.StepRunsFront := by
  intro s c rest h
  unfold step
  rw [h]

/-- Settles O58: every value is a field of the reset state, and an empty store reads its default. -/
theorem resetValues : Obligations.ResetValues :=
  ⟨rfl, rfl, rfl, rfl, rfl, rfl, rfl, rfl, rfl, rfl, ⟨rfl, rfl, rfl, rfl⟩, rfl, rfl, fun _ => rfl, fun _ _ => rfl, fun _ _ => rfl,
    fun _ => rfl, fun _ _ => rfl⟩

/-- Settles O59. -/
theorem resetInvariant : Obligations.ResetInvariant := Dev.inv_reset

/-! ## The frame of each command -/

/-- Every command but FENCE_GROUP_COMPLETE changes only the parts that `partsOf` lists for it. -/
theorem exec_frame (c : Instr) (s : State) (hc : ∀ m bad ecc, c ≠ .fenceGroupComplete m bad ecc) :
    Completes c s (fun d => Dev.Frame (partsOf c) s.dev d) := by
  cases c with
  | servoUpdate => exact execServoUpdate_frame _
  | holdoverExceeded => exact execHoldoverExceeded_frame _
  | slewSaturated => exact execSlewSaturated_frame _
  | revertHoldOffExpiry => exact execRevertHoldOffExpiry_frame _
  | ptpSync => exact execPtpSync_frame _ _ _ _ _ _ _
  | ptpFollowUp => exact execPtpFollowUp_frame _ _ _ _ _ _
  | ptpAnnounce => exact execPtpAnnounce_frame _ _ _ _ _ _ _
  | domainReceiptTimeout => exact execDomainReceiptTimeout_frame _ _
  | pdelayInterval => exact execPdelayInterval_frame _ _
  | pdelayResponse => exact execPdelayResponse_frame _ _ _ _ _
  | pdelayReq => exact execPdelayReq_frame _ _ _
  | sensorPortSync => exact execSensorPortSync_frame _ _
  | sensorPortAnnounce => exact execSensorPortAnnounce_frame _ _
  | trigEdge => exact execTrigEdge_frame _ _
  | trigPulseEnd => exact execTrigPulseEnd_frame _ _
  | refClockWindow => exact execRefClockWindow_frame _ _
  | cycleInstant => exact execCycleInstant_frame _
  | acceptanceWindowClose => exact execAcceptanceWindowClose_frame _
  | slotLinkUp => exact execSlotLinkUp_frame _ _
  | slotSilent => exact execSlotSilent_frame _ _
  | slotFaultHoldExpiry => exact execSlotFaultHoldExpiry_frame _ _
  | streamPortConfigRetry => exact execStreamPortConfigRetry_frame _ _ _
  | csiFrameStart => exact execCsiFrameStart_frame _ _ _ _
  | csiLongPacket => exact execCsiLongPacket_frame _ _ _ _ _ _ _ _ _ _
  | csiFrameEnd => exact execCsiFrameEnd_frame _ _ _ _
  | csiLaneFault => exact execCsiLaneFault_frame _ _ _
  | senFrame => exact execSenFrame_frame _ _ _ _
  | senPhyFault => exact execSenPhyFault_frame _ _
  | canFrame => exact execCanFrame_frame _ _ _ _ _ _
  | canBusFault => exact execCanBusFault_frame _ _
  | spiPoll => exact execSpiPoll_frame _ _
  | spiFrameReceived => exact execSpiFrameReceived_frame _ _ _ _
  | encoderLatch => exact execEncoderLatch_frame _ _ _ _ _ _
  | fifoReadResume => exact execFifoReadResume_frame _ _
  | fifoPointerCompare => exact execFifoPointerCompare_frame _ _ _
  | timesliceEntry => exact execTimesliceEntry_frame _ _
  | sampleConversionComplete => exact execSampleConversionComplete_frame _ _
  | intakeCompletionDeadline => exact execIntakeCompletionDeadline_frame _
  | entryRelease => exact execEntryRelease_frame _ _ _ _
  | op => exact execOp_frame _ _ _
  | opComplete => exact execOpComplete_frame _ _ _ _
  | pipStep => exact execPipStep_frame _ _ _ _
  | pipStepComplete => exact execPipStepComplete_frame _ _ _ _ _
  | pipOverrun => exact execPipOverrun_frame _ _ _
  | move => exact execMove_frame _ _ _ _ _
  | fenceGroupComplete => exact absurd rfl (hc _ _ _)
  | advance => exact execAdvance_frame _ _ _
  | solve => exact execSolve_frame _ _ _ _ _ _
  | solverJobComplete => exact execSolverJobComplete_frame _ _ _ _ _
  | solverCut => exact execSolverCut_frame _ _ _ _
  | entryDeadline => exact execEntryDeadline_frame _ _ _
  | podWakeRequest => exact execPodWakeRequest_frame _ _
  | podWakeComplete => exact execPodWakeComplete_frame _ _
  | idleItemStart => exact execIdleItemStart_frame _ _ _
  | promotion => exact execPromotion_frame _ _ _
  | meshAgePromotion => exact execMeshAgePromotion_frame _ _ _ _
  | selftestChunkDue => exact execSelftestChunkDue_frame _ _ _
  | memtestRegionComplete => exact execMemtestRegionComplete_frame _ _ _ _ _
  | hullCheckerTest => exact execHullCheckerTest_frame _ _
  | solverSelftest => exact execSolverSelftest_frame _ _ _
  | syncFabricTest => exact execSyncFabricTest_frame _ _ _
  | coverageLate => exact execCoverageLate_frame _ _
  | diagIntervalExceeded => exact execDiagIntervalExceeded_frame _ _
  | syncSignal => exact execSyncSignal_frame _ _ _ _ _ _
  | syncWait => exact execSyncWait_frame _ _ _ _ _
  | syncReset => exact execSyncReset_frame _ _ _ _
  | syncRead => exact execSyncRead_frame _ _
  | barrierArrive => exact execBarrierArrive_frame _ _ _ _
  | syncTimeout => exact execSyncTimeout_frame _ _ _
  | correctedWriteBack => exact execCorrectedWriteBack_frame _ _
  | ddrWriteCrcAlert => exact execDdrWriteCrcAlert_frame _ _ _ _ _
  | ddrOscillatorRead => exact execDdrOscillatorRead_frame _ _
  | zqCalibration => exact execZqCalibration_frame _
  | ddrTemperatureRead => exact execDdrTemperatureRead_frame _ _ _
  | patrolRead => exact execPatrolRead_frame _ _ _ _
  | patrolLate => exact execPatrolLate_frame _
  | summaryArrival => exact execSummaryArrival_frame _ _ _ _
  | commitDeadline => exact execCommitDeadline_frame _
  | kvWriteBackComplete => exact execKvWriteBackComplete_frame _ _ _
  | speedSettleExpiry => exact execSpeedSettleExpiry_frame _ _
  | hullLockstep => exact execHullLockstep_frame _
  | stopDarkTest => exact execStopDarkTest_frame _ _ _
  | stopPinReadback => exact execStopPinReadback_frame _ _ _
  | offDelayExpiry => exact execOffDelayExpiry_frame _ _
  | safetyChannelTimeout => exact execSafetyChannelTimeout_frame _
  | statusInterval => exact execStatusInterval_frame _
  | safetyCommand => exact execSafetyCommand_frame _ _ _ _ _
  | twinHeartbeatSend => exact execTwinHeartbeatSend_frame _
  | heartbeat => exact execHeartbeat_frame _ _
  | decision => exact execDecision_frame _ _
  | values => exact execValues_frame _ _
  | identity => exact execIdentity_frame _ _
  | bulk => exact execBulk_frame _ _
  | crossCheckWindowExpiry => exact execCrossCheckWindowExpiry_frame _ _
  | twinLinkLost => exact execTwinLinkLost_frame _
  | identitySend => exact execIdentitySend_frame _
  | twinLaneTraining => exact execTwinLaneTraining_frame _ _
  | partnerDiscovery => exact execPartnerDiscovery_frame _
  | read => exact execRead_frame _ _ _ _ _ _
  | write => exact execWrite_frame _ _ _ _ _ _
  | blockStart => exact execBlockStart_frame _ _ _ _ _
  | blockData => exact execBlockData_frame _ _ _ _ _ _ _
  | subscribe => exact execSubscribe_frame _ _ _ _ _
  | unsubscribe => exact execUnsubscribe_frame _ _ _ _
  | event => exact execEvent_frame _ _
  | subscriptionLeaseExpiry => exact execSubscriptionLeaseExpiry_frame _ _
  | transferAborted => exact execTransferAborted_frame _ _ _
  | evClear => exact execEvClear_frame _ _ _ _ _
  | configurationLock => exact execConfigurationLock_frame _ _ _
  | addressChangeEffect => exact execAddressChangeEffect_frame _ _
  | fragmentTransmit => exact execFragmentTransmit_frame _ _
  | arpRequest => exact execArpRequest_frame _ _ _ _ _
  | neighbourDiscovery => exact execNeighbourDiscovery_frame _ _ _ _ _
  | echoRequest => exact execEchoRequest_frame _ _ _ _ _ _
  | hostLinkUp => exact execHostLinkUp_frame _ _
  | hostLinkDown => exact execHostLinkDown_frame _ _
  | cableTest => exact execCableTest_frame _ _ _ _
  | status => exact execStatus_frame _
  | writeFrame => exact execWriteFrame_frame _ _ _ _
  | readFrame => exact execReadFrame_frame _
  | readStream => exact execReadStream_frame _ _
  | readEvents => exact execReadEvents_frame _
  | stateRequestHusk => exact execStateRequestHusk_frame _ _
  | stateRequestStandby => exact execStateRequestStandby_frame _ _
  | stateRequestReady => exact execStateRequestReady_frame _ _
  | stateRequestRun => exact execStateRequestRun_frame _ _
  | stateTransitionComplete => exact execStateTransitionComplete_frame _
  | resetRequest => exact execResetRequest_frame _ _ _
  | restoreDefaults => exact execRestoreDefaults_frame _ _ _
  | loadSlot => exact execLoadSlot_frame _ _ _
  | activate => exact execActivate_frame _ _ _
  | activationComplete => exact execActivationComplete_frame _
  | confirm => exact execConfirm_frame _ _ _
  | minimumSecurityVersion => exact execMinimumSecurityVersion_frame _ _ _
  | unmaskRequest => exact execUnmaskRequest_frame _ _ _ _
  | resetCorrection => exact execResetCorrection_frame _ _ _ _ _
  | gridGeometryWrite => exact execGridGeometryWrite_frame _ _ _ _
  | calibrationPersist => exact execCalibrationPersist_frame _
  | supplyEnable => exact execSupplyEnable_frame _ _ _ _
  | attestationNonce => exact execAttestationNonce_frame _ _ _
  | attestationSignatureComplete => exact execAttestationSignatureComplete_frame _ _
  | commissioningAct => exact execCommissioningAct_frame _ _
  | partnerBindingAct => exact execPartnerBindingAct_frame _ _
  | keyRevocationAct => exact execKeyRevocationAct_frame _ _
  | debugUnlockToken => exact execDebugUnlockToken_frame _ _
  | otpProgram => exact execOtpProgram_frame _ _ _
  | otpClose => exact execOtpClose_frame _
  | extest intest => exact execExtest_frame intest _
  | leafReservationRetry => exact execLeafReservationRetry_frame _ _
  | traversalStateRecompute => exact execTraversalStateRecompute_frame _
  | segmentEnd => exact execSegmentEnd_frame _
  | nandOperationComplete => exact execNandOperationComplete_frame _ _ _ _
  | nandTimeout => exact execNandTimeout_frame _ _ _
  | blockRefresh => exact execBlockRefresh_frame _ _
  | readCountJournal => exact execReadCountJournal_frame _
  | retentionScan => exact execRetentionScan_frame _ _ _
  | wearLevelling => exact execWearLevelling_frame _
  | firmwareCopyRepair => exact execFirmwareCopyRepair_frame _ _
  | rotationDue => exact execRotationDue_frame _
  | handover => exact execHandover_frame _
  | rotationStalled => exact execRotationStalled_frame _
  | goldenFrame => exact execGoldenFrame_frame _ _ _ _
  | meshTransferCrcFail => exact execMeshTransferCrcFail_frame _ _ _ _ _
  | coreIoTransferCrcFail => exact execCoreIoTransferCrcFail_frame _ _ _ _
  | budgetEpoch => exact execBudgetEpoch_frame _
  | droop => exact execDroop_frame _ _
  | droopRecovery => exact execDroopRecovery_frame _ _
  | temperatureRead => exact execTemperatureRead_frame _ _ _
  | avsVoltageStep => exact execAvsVoltageStep_frame _ _
  | avsReadback => exact execAvsReadback_frame _ _
  | railOutOfRange => exact execRailOutOfRange_frame _ _
  | pllLossOfLock => exact execPllLossOfLock_frame _ _
  | huskBrownout => exact execHuskBrownout_frame _
  | crystalStable => exact execCrystalStable_frame _
  | crystalFault => exact execCrystalFault_frame _
  | powerOn => exact execPowerOn_frame _
  | vhuskRemoved => exact execVhuskRemoved_frame _
  | wakeN => exact execWakeN_frame _
  | pwrOkRising => exact execPwrOkRising_frame _
  | pwrOkFalling => exact execPwrOkFalling_frame _
  | resetNAssert => exact execResetNAssert_frame _
  | resetNRelease => exact execResetNRelease_frame _
  | startMoment => exact execStartMoment_frame _
  | startupStepComplete => exact execStartupStepComplete_frame _ _
  | watchdogReset => exact execWatchdogReset_frame _
  | supplySwitchOn => exact execSupplySwitchOn_frame _
  | edgeCommandFrameSend => exact execEdgeCommandFrameSend_frame _
  | edgeCommandFrame => exact execEdgeCommandFrame_frame _ _ _ _
  | edgeStatusFrame => exact execEdgeStatusFrame_frame _ _
  | edgeCommandTimeout => exact execEdgeCommandTimeout_frame _
  | edgeLinkLost => exact execEdgeLinkLost_frame _
  | switchOffTurn => exact execSwitchOffTurn_frame _ _
  | testFrame => exact execTestFrame_frame _
  | darkPulse => exact execDarkPulse_frame _ _ _
  | darkPulseSample => exact execDarkPulseSample_frame _ _ _ _
  | sqOffReadbackHigh => exact execSqOffReadbackHigh_frame _ _
  | sqShort0v => exact execSqShort0v_frame _ _
  | sqOpenLoad => exact execSqOpenLoad_frame _ _
  | crossShortWatchExpiry => exact execCrossShortWatchExpiry_frame _ _ _
  | terminalStateChange => exact execTerminalStateChange_frame _ _ _
  | siDiscrepancy => exact execSiDiscrepancy_frame _ _
  | spShort => exact execSpShort_frame _ _
  | spOpenLoad => exact execSpOpenLoad_frame _ _
  | spReverse => exact execSpReverse_frame _ _
  | edgeSupplyMeasure => exact execEdgeSupplyMeasure_frame _ _ _ _
  | vedgeOutOfRange => exact execVedgeOutOfRange_frame _
  | vsensRecovery => exact execVsensRecovery_frame _
  | edgeTemperatureResume => exact execEdgeTemperatureResume_frame _
  | slotFaultCauseEnd => exact execSlotFaultCauseEnd_frame _ _ _
  | canBusRecovered => exact execCanBusRecovered_frame _ _
  | spOpenLoadEnd => exact execSpOpenLoadEnd_frame _ _
  | spReverseEnd => exact execSpReverseEnd_frame _ _
  | sqFaultGone => exact execSqFaultGone_frame _ _
  | debugReset => exact execDebugReset_frame _
  | twinLanesUp => exact execTwinLanesUp_frame _
  -- the command that is left is SEAL, whose name is a keyword of Lean
  | _ => exact execSeal_frame _

/-- A mover of the memory hub with one group, of one descriptor. -/
def waitingGroup : State :=
  { State.reset with dev := State.reset.dev.modMover 25 (fun m => { m with groups :=
      [{ descs := [{ words := [], cause := 0, core := none, part := 0, bursts := [], lost := 0, at_ := 0, ahead := [], since := 0 }],
         ticket := none }] }) }

/-- An uncorrectable error in the first word of DDR5. -/
def lostBurst : EccEvent := { word := 3 * 2 ^ 41, correctable := false }

/-- The group that meets the error marks the row of its burst as bad, which is state of the DDR5. -/
theorem fenceGroupComplete_badRows : (fenceGroupComplete 25 [] [lostBurst] waitingGroup.dev).ddr.badRows = [0] := by decide +kernel

/-- Refutes O57: `partsOf` does not list the DDR5 for FENCE_GROUP_COMPLETE, and a group that reads an uncorrectable burst of it
changes the list of bad rows. -/
theorem not_commandFrames : ¬ Obligations.CommandFrames := by
  unfold Obligations.CommandFrames
  intro h
  obtain ⟨d, hnext, hframe⟩ := h (.fenceGroupComplete 25 [] [lostBurst]) waitingGroup
  have hd : fenceGroupComplete 25 [] [lostBurst] waitingGroup.dev = d := by
    injection hnext with hnext
    exact congrArg State.dev hnext
  have hddr : d.ddr = waitingGroup.dev.ddr := hframe .ddr (by decide)
  have hrows : [0] = waitingGroup.dev.ddr.badRows := by rw [← hddr, ← hd, fenceGroupComplete_badRows]
  exact List.cons_ne_nil _ _ hrows

/-! ## The invariant -/

/-- A command whose frame leaves alone what the invariant speaks of keeps the invariant. -/
theorem Completes.inv {c : Instr} {s : State} {l : List Part} (hc : Completes c s (fun d => Dev.Frame l s.dev d))
    (hoff : Part.offInv l = true) (h : s.dev.Inv) : Completes c s Dev.Inv := by
  obtain ⟨d, hnext, hframe⟩ := hc
  exact ⟨d, hnext, (hframe.inv hoff).2 h⟩

/-- Every command keeps the invariant: by its own lemma where it reaches memory, the cycle or the Hull, else by its frame. -/
theorem exec_inv (c : Instr) (s : State) (h : s.dev.Inv) : Completes c s Dev.Inv := by
  cases c with
  | refClockWindow => exact execRefClockWindow_inv _ _ h
  | cycleInstant => exact execCycleInstant_inv _ h
  | acceptanceWindowClose => exact execAcceptanceWindowClose_inv _ h
  | fifoPointerCompare => exact execFifoPointerCompare_inv _ _ _ h
  | sampleConversionComplete => exact execSampleConversionComplete_inv _ _ h
  | intakeCompletionDeadline => exact execIntakeCompletionDeadline_inv _ h
  | entryRelease => exact execEntryRelease_inv _ _ _ _ h
  | op => exact execOp_inv _ _ _ h
  | opComplete => exact execOpComplete_inv _ _ _ _ h
  | pipStep => exact execPipStep_inv _ _ _ _ h
  | pipStepComplete => exact execPipStepComplete_inv _ _ _ _ _ h
  | pipOverrun => exact execPipOverrun_inv _ _ _ h
  | move => exact execMove_inv _ _ _ _ _ h
  | fenceGroupComplete => exact execFenceGroupComplete_inv _ _ _ _ h
  | advance => exact execAdvance_inv _ _ _ h
  | solve => exact execSolve_inv _ _ _ _ _ _ h
  | solverJobComplete => exact execSolverJobComplete_inv _ _ _ _ _ h
  | solverCut => exact execSolverCut_inv _ _ _ _ h
  | entryDeadline => exact execEntryDeadline_inv _ _ _ h
  | podWakeComplete => exact execPodWakeComplete_inv _ _ h
  | idleItemStart => exact execIdleItemStart_inv _ _ _ h
  | memtestRegionComplete => exact execMemtestRegionComplete_inv _ _ _ _ _ h
  | hullCheckerTest => exact execHullCheckerTest_inv _ _ h
  | solverSelftest => exact execSolverSelftest_inv _ _ _ h
  | syncFabricTest => exact execSyncFabricTest_inv _ _ _ h
  | diagIntervalExceeded => exact execDiagIntervalExceeded_inv _ _ h
  | syncSignal => exact execSyncSignal_inv _ _ _ _ _ _ h
  | barrierArrive => exact execBarrierArrive_inv _ _ _ _ h
  | correctedWriteBack => exact execCorrectedWriteBack_inv _ _ h
  | ddrTemperatureRead => exact execDdrTemperatureRead_inv _ _ _ h
  | patrolRead => exact execPatrolRead_inv _ _ _ _ h
  | summaryArrival => exact execSummaryArrival_inv _ _ _ _ h
  | commitDeadline => exact execCommitDeadline_inv _ h
  | kvWriteBackComplete => exact execKvWriteBackComplete_inv _ _ _ h
  | speedSettleExpiry => exact execSpeedSettleExpiry_inv _ _ h
  | hullLockstep => exact execHullLockstep_inv _ h
  | stopDarkTest => exact execStopDarkTest_inv _ _ _ h
  | stopPinReadback => exact execStopPinReadback_inv _ _ _ h
  | offDelayExpiry => exact execOffDelayExpiry_inv _ _ h
  | safetyChannelTimeout => exact execSafetyChannelTimeout_inv _ h
  | statusInterval => exact execStatusInterval_inv _ h
  | safetyCommand => exact execSafetyCommand_inv _ _ _ _ _ h
  | decision => exact execDecision_inv _ _ h
  | values => exact execValues_inv _ _ h
  | identity => exact execIdentity_inv _ _ h
  | crossCheckWindowExpiry => exact execCrossCheckWindowExpiry_inv _ _ h
  | twinLinkLost => exact execTwinLinkLost_inv _ h
  | partnerDiscovery => exact execPartnerDiscovery_inv _ h
  | write => exact execWrite_inv _ _ _ _ _ _ h
  | evClear => exact execEvClear_inv _ _ _ _ _ h
  | configurationLock => exact execConfigurationLock_inv _ _ _ h
  | writeFrame => exact execWriteFrame_inv _ _ _ _ h
  | stateRequestHusk => exact execStateRequestHusk_inv _ _ h
  | stateRequestStandby => exact execStateRequestStandby_inv _ _ h
  | stateRequestReady => exact execStateRequestReady_inv _ _ h
  | stateRequestRun => exact execStateRequestRun_inv _ _ h
  | stateTransitionComplete => exact execStateTransitionComplete_inv _ h
  | resetRequest => exact execResetRequest_inv _ _ _ h
  | activate => exact execActivate_inv _ _ _ h
  | activationComplete => exact execActivationComplete_inv _ h
  | extest intest => exact execExtest_inv intest _ h
  | handover => exact execHandover_inv _ h
  | goldenFrame => exact execGoldenFrame_inv _ _ _ _ h
  | meshTransferCrcFail => exact execMeshTransferCrcFail_inv _ _ _ _ _ h
  | budgetEpoch => exact execBudgetEpoch_inv _ h
  | temperatureRead => exact execTemperatureRead_inv _ _ _ h
  | railOutOfRange => exact execRailOutOfRange_inv _ _ h
  | pllLossOfLock => exact execPllLossOfLock_inv _ _ h
  | huskBrownout => exact execHuskBrownout_inv _ h
  | crystalFault => exact execCrystalFault_inv _ h
  | vhuskRemoved => exact execVhuskRemoved_inv _ h
  | pwrOkFalling => exact execPwrOkFalling_inv _ h
  | resetNAssert => exact execResetNAssert_inv _ h
  | startupStepComplete => exact execStartupStepComplete_inv _ _ h
  | watchdogReset => exact execWatchdogReset_inv _ h
  | edgeCommandFrameSend => exact execEdgeCommandFrameSend_inv _ h
  | edgeStatusFrame => exact execEdgeStatusFrame_inv _ _ h
  | edgeLinkLost => exact execEdgeLinkLost_inv _ h
  | edgeSupplyMeasure => exact execEdgeSupplyMeasure_inv _ _ _ _ h
  | edgeTemperatureResume => exact execEdgeTemperatureResume_inv _ h
  | sqFaultGone => exact execSqFaultGone_inv _ _ h
  | debugReset => exact execDebugReset_inv _ h
  | _ => exact (exec_frame _ s (fun _ _ _ => Instr.noConfusion)).inv rfl h

/-- Settles O60: a step is a tick of time or a command. -/
theorem stepKeepsInvariant : Obligations.StepKeepsInvariant := by
  intro s t h hstep
  unfold step at hstep
  split at hstep
  next =>
    cases hstep
    exact ((Dev.tickOnce_frame _).inv (by decide)).2 h
  next c rest _ =>
    obtain ⟨d, hnext, hinv⟩ := exec_inv c { s with pending := rest } h
    rw [hnext] at hstep
    cases hstep
    exact hinv

end Sys2Proof.Machine

/-! PROOF. What a report and a protective request leave alone: each part of the device that their frames do not list, the values of
the objects, the power state, and of the Hull all but its decision. -/

namespace Sys2Proof.Machine

open Sys2Proof

/-! ## Parts outside a frame -/

theorem Dev.Frame.code {l : List Part} {a b : Dev} (h : Dev.Frame l a b) (hp : Part.code ∉ l) : b.code = a.code := h .code hp
theorem Dev.Frame.time {l : List Part} {a b : Dev} (h : Dev.Frame l a b) (hp : Part.time ∉ l) : b.time = a.time := h .time hp
theorem Dev.Frame.log {l : List Part} {a b : Dev} (h : Dev.Frame l a b) (hp : Part.log ∉ l) : b.log = a.log := h .log hp
theorem Dev.Frame.dict {l : List Part} {a b : Dev} (h : Dev.Frame l a b) (hp : Part.dict ∉ l) : b.dict = a.dict := h .dict hp
theorem Dev.Frame.cyc {l : List Part} {a b : Dev} (h : Dev.Frame l a b) (hp : Part.cyc ∉ l) : b.cyc = a.cyc := h .cyc hp
theorem Dev.Frame.intake {l : List Part} {a b : Dev} (h : Dev.Frame l a b) (hp : Part.intake ∉ l) : b.intake = a.intake := h .intake hp
theorem Dev.Frame.pods {l : List Part} {a b : Dev} (h : Dev.Frame l a b) (hp : Part.pods ∉ l) : b.pods = a.pods := h .pods hp
theorem Dev.Frame.movers {l : List Part} {a b : Dev} (h : Dev.Frame l a b) (hp : Part.movers ∉ l) : b.movers = a.movers := h .movers hp
theorem Dev.Frame.mem {l : List Part} {a b : Dev} (h : Dev.Frame l a b) (hp : Part.mem ∉ l) : b.mem = a.mem := h .mem hp
theorem Dev.Frame.ddr {l : List Part} {a b : Dev} (h : Dev.Frame l a b) (hp : Part.ddr ∉ l) : b.ddr = a.ddr := h .ddr hp
theorem Dev.Frame.prog {l : List Part} {a b : Dev} (h : Dev.Frame l a b) (hp : Part.prog ∉ l) : b.prog = a.prog := h .prog hp
theorem Dev.Frame.sched {l : List Part} {a b : Dev} (h : Dev.Frame l a b) (hp : Part.sched ∉ l) : b.sched = a.sched := h .sched hp
theorem Dev.Frame.sync {l : List Part} {a b : Dev} (h : Dev.Frame l a b) (hp : Part.sync ∉ l) : b.sync = a.sync := h .sync hp
theorem Dev.Frame.cover {l : List Part} {a b : Dev} (h : Dev.Frame l a b) (hp : Part.cover ∉ l) : b.cover = a.cover := h .cover hp
theorem Dev.Frame.fus {l : List Part} {a b : Dev} (h : Dev.Frame l a b) (hp : Part.fus ∉ l) : b.fus = a.fus := h .fus hp
theorem Dev.Frame.kv {l : List Part} {a b : Dev} (h : Dev.Frame l a b) (hp : Part.kv ∉ l) : b.kv = a.kv := h .kv hp
theorem Dev.Frame.solvers {l : List Part} {a b : Dev} (h : Dev.Frame l a b) (hp : Part.solvers ∉ l) : b.solvers = a.solvers := h .solvers hp
theorem Dev.Frame.hull {l : List Part} {a b : Dev} (h : Dev.Frame l a b) (hp : Part.hull ∉ l) : b.hull = a.hull := h .hull hp
theorem Dev.Frame.twin {l : List Part} {a b : Dev} (h : Dev.Frame l a b) (hp : Part.twin ∉ l) : b.twin = a.twin := h .twin hp
theorem Dev.Frame.palca {l : List Part} {a b : Dev} (h : Dev.Frame l a b) (hp : Part.palca ∉ l) : b.palca = a.palca := h .palca hp
theorem Dev.Frame.power {l : List Part} {a b : Dev} (h : Dev.Frame l a b) (hp : Part.power ∉ l) : b.power = a.power := h .power hp
theorem Dev.Frame.start {l : List Part} {a b : Dev} (h : Dev.Frame l a b) (hp : Part.start ∉ l) : b.start = a.start := h .start hp
theorem Dev.Frame.recd {l : List Part} {a b : Dev} (h : Dev.Frame l a b) (hp : Part.recd ∉ l) : b.recd = a.recd := h .recd hp
theorem Dev.Frame.sec {l : List Part} {a b : Dev} (h : Dev.Frame l a b) (hp : Part.sec ∉ l) : b.sec = a.sec := h .sec hp
theorem Dev.Frame.edge {l : List Part} {a b : Dev} (h : Dev.Frame l a b) (hp : Part.edge ∉ l) : b.edge = a.edge := h .edge hp
theorem Dev.Frame.out {l : List Part} {a b : Dev} (h : Dev.Frame l a b) (hp : Part.out ∉ l) : b.out = a.out := h .out hp
theorem Dev.Frame.free {l : List Part} {a b : Dev} (h : Dev.Frame l a b) (hp : Part.free ∉ l) : b.free = a.free := h .free hp

/-! ## A raised cause -/

@[simp] theorem Dev.raise_code (d : Dev) (c i x : Nat) : (d.raise c i x).code = d.code := (Dev.raise_frame _ _ _ _).code (by decide)
@[simp] theorem Dev.raise_time (d : Dev) (c i x : Nat) : (d.raise c i x).time = d.time := (Dev.raise_frame _ _ _ _).time (by decide)
@[simp] theorem Dev.raise_cyc (d : Dev) (c i x : Nat) : (d.raise c i x).cyc = d.cyc := (Dev.raise_frame _ _ _ _).cyc (by decide)
@[simp] theorem Dev.raise_intake (d : Dev) (c i x : Nat) : (d.raise c i x).intake = d.intake := (Dev.raise_frame _ _ _ _).intake (by decide)
@[simp] theorem Dev.raise_pods (d : Dev) (c i x : Nat) : (d.raise c i x).pods = d.pods := (Dev.raise_frame _ _ _ _).pods (by decide)
@[simp] theorem Dev.raise_movers (d : Dev) (c i x : Nat) : (d.raise c i x).movers = d.movers := (Dev.raise_frame _ _ _ _).movers (by decide)
@[simp] theorem Dev.raise_mem (d : Dev) (c i x : Nat) : (d.raise c i x).mem = d.mem := (Dev.raise_frame _ _ _ _).mem (by decide)
@[simp] theorem Dev.raise_ddr (d : Dev) (c i x : Nat) : (d.raise c i x).ddr = d.ddr := (Dev.raise_frame _ _ _ _).ddr (by decide)
@[simp] theorem Dev.raise_prog (d : Dev) (c i x : Nat) : (d.raise c i x).prog = d.prog := (Dev.raise_frame _ _ _ _).prog (by decide)
@[simp] theorem Dev.raise_sched (d : Dev) (c i x : Nat) : (d.raise c i x).sched = d.sched := (Dev.raise_frame _ _ _ _).sched (by decide)
@[simp] theorem Dev.raise_sync (d : Dev) (c i x : Nat) : (d.raise c i x).sync = d.sync := (Dev.raise_frame _ _ _ _).sync (by decide)
@[simp] theorem Dev.raise_cover (d : Dev) (c i x : Nat) : (d.raise c i x).cover = d.cover := (Dev.raise_frame _ _ _ _).cover (by decide)
@[simp] theorem Dev.raise_fus (d : Dev) (c i x : Nat) : (d.raise c i x).fus = d.fus := (Dev.raise_frame _ _ _ _).fus (by decide)
@[simp] theorem Dev.raise_kv (d : Dev) (c i x : Nat) : (d.raise c i x).kv = d.kv := (Dev.raise_frame _ _ _ _).kv (by decide)
@[simp] theorem Dev.raise_solvers (d : Dev) (c i x : Nat) : (d.raise c i x).solvers = d.solvers := (Dev.raise_frame _ _ _ _).solvers (by decide)
@[simp] theorem Dev.raise_hull (d : Dev) (c i x : Nat) : (d.raise c i x).hull = d.hull := (Dev.raise_frame _ _ _ _).hull (by decide)
@[simp] theorem Dev.raise_twin (d : Dev) (c i x : Nat) : (d.raise c i x).twin = d.twin := (Dev.raise_frame _ _ _ _).twin (by decide)
@[simp] theorem Dev.raise_palca (d : Dev) (c i x : Nat) : (d.raise c i x).palca = d.palca := (Dev.raise_frame _ _ _ _).palca (by decide)
@[simp] theorem Dev.raise_start (d : Dev) (c i x : Nat) : (d.raise c i x).start = d.start := (Dev.raise_frame _ _ _ _).start (by decide)
@[simp] theorem Dev.raise_sec (d : Dev) (c i x : Nat) : (d.raise c i x).sec = d.sec := (Dev.raise_frame _ _ _ _).sec (by decide)
@[simp] theorem Dev.raise_edge (d : Dev) (c i x : Nat) : (d.raise c i x).edge = d.edge := (Dev.raise_frame _ _ _ _).edge (by decide)
@[simp] theorem Dev.raise_out (d : Dev) (c i x : Nat) : (d.raise c i x).out = d.out := (Dev.raise_frame _ _ _ _).out (by decide)
@[simp] theorem Dev.raise_free (d : Dev) (c i x : Nat) : (d.raise c i x).free = d.free := (Dev.raise_frame _ _ _ _).free (by decide)
@[simp] theorem Dev.effect_code (d : Dev) (c e : Nat) : (d.effect c e).code = d.code := (Dev.effect_frame _ _ _).code (by decide)
@[simp] theorem Dev.effect_time (d : Dev) (c e : Nat) : (d.effect c e).time = d.time := (Dev.effect_frame _ _ _).time (by decide)
@[simp] theorem Dev.effect_dict (d : Dev) (c e : Nat) : (d.effect c e).dict = d.dict := (Dev.effect_frame _ _ _).dict (by decide)
@[simp] theorem Dev.effect_cyc (d : Dev) (c e : Nat) : (d.effect c e).cyc = d.cyc := (Dev.effect_frame _ _ _).cyc (by decide)
@[simp] theorem Dev.effect_intake (d : Dev) (c e : Nat) : (d.effect c e).intake = d.intake := (Dev.effect_frame _ _ _).intake (by decide)
@[simp] theorem Dev.effect_pods (d : Dev) (c e : Nat) : (d.effect c e).pods = d.pods := (Dev.effect_frame _ _ _).pods (by decide)
@[simp] theorem Dev.effect_movers (d : Dev) (c e : Nat) : (d.effect c e).movers = d.movers := (Dev.effect_frame _ _ _).movers (by decide)
@[simp] theorem Dev.effect_mem (d : Dev) (c e : Nat) : (d.effect c e).mem = d.mem := (Dev.effect_frame _ _ _).mem (by decide)
@[simp] theorem Dev.effect_ddr (d : Dev) (c e : Nat) : (d.effect c e).ddr = d.ddr := (Dev.effect_frame _ _ _).ddr (by decide)
@[simp] theorem Dev.effect_prog (d : Dev) (c e : Nat) : (d.effect c e).prog = d.prog := (Dev.effect_frame _ _ _).prog (by decide)
@[simp] theorem Dev.effect_sched (d : Dev) (c e : Nat) : (d.effect c e).sched = d.sched := (Dev.effect_frame _ _ _).sched (by decide)
@[simp] theorem Dev.effect_sync (d : Dev) (c e : Nat) : (d.effect c e).sync = d.sync := (Dev.effect_frame _ _ _).sync (by decide)
@[simp] theorem Dev.effect_cover (d : Dev) (c e : Nat) : (d.effect c e).cover = d.cover := (Dev.effect_frame _ _ _).cover (by decide)
@[simp] theorem Dev.effect_fus (d : Dev) (c e : Nat) : (d.effect c e).fus = d.fus := (Dev.effect_frame _ _ _).fus (by decide)
@[simp] theorem Dev.effect_kv (d : Dev) (c e : Nat) : (d.effect c e).kv = d.kv := (Dev.effect_frame _ _ _).kv (by decide)
@[simp] theorem Dev.effect_solvers (d : Dev) (c e : Nat) : (d.effect c e).solvers = d.solvers := (Dev.effect_frame _ _ _).solvers (by decide)
@[simp] theorem Dev.effect_hull (d : Dev) (c e : Nat) : (d.effect c e).hull = d.hull := (Dev.effect_frame _ _ _).hull (by decide)
@[simp] theorem Dev.effect_twin (d : Dev) (c e : Nat) : (d.effect c e).twin = d.twin := (Dev.effect_frame _ _ _).twin (by decide)
@[simp] theorem Dev.effect_palca (d : Dev) (c e : Nat) : (d.effect c e).palca = d.palca := (Dev.effect_frame _ _ _).palca (by decide)
@[simp] theorem Dev.effect_power (d : Dev) (c e : Nat) : (d.effect c e).power = d.power := (Dev.effect_frame _ _ _).power (by decide)
@[simp] theorem Dev.effect_start (d : Dev) (c e : Nat) : (d.effect c e).start = d.start := (Dev.effect_frame _ _ _).start (by decide)
@[simp] theorem Dev.effect_recd (d : Dev) (c e : Nat) : (d.effect c e).recd = d.recd := (Dev.effect_frame _ _ _).recd (by decide)
@[simp] theorem Dev.effect_sec (d : Dev) (c e : Nat) : (d.effect c e).sec = d.sec := (Dev.effect_frame _ _ _).sec (by decide)
@[simp] theorem Dev.effect_edge (d : Dev) (c e : Nat) : (d.effect c e).edge = d.edge := (Dev.effect_frame _ _ _).edge (by decide)
@[simp] theorem Dev.effect_out (d : Dev) (c e : Nat) : (d.effect c e).out = d.out := (Dev.effect_frame _ _ _).out (by decide)
@[simp] theorem Dev.effect_free (d : Dev) (c e : Nat) : (d.effect c e).free = d.free := (Dev.effect_frame _ _ _).free (by decide)

/-! ## A demand and a protective request -/

@[simp] theorem Dev.retier_code (d : Dev) (c : Nat) (b : Bool) : (d.retier c b).code = d.code := (Dev.retier_frame _ _ _).code (by decide)
@[simp] theorem Dev.retier_time (d : Dev) (c : Nat) (b : Bool) : (d.retier c b).time = d.time := (Dev.retier_frame _ _ _).time (by decide)
@[simp] theorem Dev.retier_cyc (d : Dev) (c : Nat) (b : Bool) : (d.retier c b).cyc = d.cyc := (Dev.retier_frame _ _ _).cyc (by decide)
@[simp] theorem Dev.retier_intake (d : Dev) (c : Nat) (b : Bool) : (d.retier c b).intake = d.intake := (Dev.retier_frame _ _ _).intake (by decide)
@[simp] theorem Dev.retier_pods (d : Dev) (c : Nat) (b : Bool) : (d.retier c b).pods = d.pods := (Dev.retier_frame _ _ _).pods (by decide)
@[simp] theorem Dev.retier_movers (d : Dev) (c : Nat) (b : Bool) : (d.retier c b).movers = d.movers := (Dev.retier_frame _ _ _).movers (by decide)
@[simp] theorem Dev.retier_mem (d : Dev) (c : Nat) (b : Bool) : (d.retier c b).mem = d.mem := (Dev.retier_frame _ _ _).mem (by decide)
@[simp] theorem Dev.retier_ddr (d : Dev) (c : Nat) (b : Bool) : (d.retier c b).ddr = d.ddr := (Dev.retier_frame _ _ _).ddr (by decide)
@[simp] theorem Dev.retier_prog (d : Dev) (c : Nat) (b : Bool) : (d.retier c b).prog = d.prog := (Dev.retier_frame _ _ _).prog (by decide)
@[simp] theorem Dev.retier_sched (d : Dev) (c : Nat) (b : Bool) : (d.retier c b).sched = d.sched := (Dev.retier_frame _ _ _).sched (by decide)
@[simp] theorem Dev.retier_sync (d : Dev) (c : Nat) (b : Bool) : (d.retier c b).sync = d.sync := (Dev.retier_frame _ _ _).sync (by decide)
@[simp] theorem Dev.retier_cover (d : Dev) (c : Nat) (b : Bool) : (d.retier c b).cover = d.cover := (Dev.retier_frame _ _ _).cover (by decide)
@[simp] theorem Dev.retier_fus (d : Dev) (c : Nat) (b : Bool) : (d.retier c b).fus = d.fus := (Dev.retier_frame _ _ _).fus (by decide)
@[simp] theorem Dev.retier_kv (d : Dev) (c : Nat) (b : Bool) : (d.retier c b).kv = d.kv := (Dev.retier_frame _ _ _).kv (by decide)
@[simp] theorem Dev.retier_solvers (d : Dev) (c : Nat) (b : Bool) : (d.retier c b).solvers = d.solvers := (Dev.retier_frame _ _ _).solvers (by decide)
@[simp] theorem Dev.retier_power (d : Dev) (c : Nat) (b : Bool) : (d.retier c b).power = d.power := (Dev.retier_frame _ _ _).power (by decide)
@[simp] theorem Dev.retier_start (d : Dev) (c : Nat) (b : Bool) : (d.retier c b).start = d.start := (Dev.retier_frame _ _ _).start (by decide)
@[simp] theorem Dev.retier_sec (d : Dev) (c : Nat) (b : Bool) : (d.retier c b).sec = d.sec := (Dev.retier_frame _ _ _).sec (by decide)
@[simp] theorem Dev.retier_edge (d : Dev) (c : Nat) (b : Bool) : (d.retier c b).edge = d.edge := (Dev.retier_frame _ _ _).edge (by decide)
@[simp] theorem Dev.retier_free (d : Dev) (c : Nat) (b : Bool) : (d.retier c b).free = d.free := (Dev.retier_frame _ _ _).free (by decide)
@[simp] theorem Dev.demand_code (d : Dev) (src tier c : Nat) : (d.demand src tier c).code = d.code := (Dev.demand_frame _ _ _ _).code (by decide)
@[simp] theorem Dev.demand_time (d : Dev) (src tier c : Nat) : (d.demand src tier c).time = d.time := (Dev.demand_frame _ _ _ _).time (by decide)
@[simp] theorem Dev.demand_cyc (d : Dev) (src tier c : Nat) : (d.demand src tier c).cyc = d.cyc := (Dev.demand_frame _ _ _ _).cyc (by decide)
@[simp] theorem Dev.demand_intake (d : Dev) (src tier c : Nat) : (d.demand src tier c).intake = d.intake := (Dev.demand_frame _ _ _ _).intake (by decide)
@[simp] theorem Dev.demand_pods (d : Dev) (src tier c : Nat) : (d.demand src tier c).pods = d.pods := (Dev.demand_frame _ _ _ _).pods (by decide)
@[simp] theorem Dev.demand_movers (d : Dev) (src tier c : Nat) : (d.demand src tier c).movers = d.movers := (Dev.demand_frame _ _ _ _).movers (by decide)
@[simp] theorem Dev.demand_mem (d : Dev) (src tier c : Nat) : (d.demand src tier c).mem = d.mem := (Dev.demand_frame _ _ _ _).mem (by decide)
@[simp] theorem Dev.demand_ddr (d : Dev) (src tier c : Nat) : (d.demand src tier c).ddr = d.ddr := (Dev.demand_frame _ _ _ _).ddr (by decide)
@[simp] theorem Dev.demand_prog (d : Dev) (src tier c : Nat) : (d.demand src tier c).prog = d.prog := (Dev.demand_frame _ _ _ _).prog (by decide)
@[simp] theorem Dev.demand_sched (d : Dev) (src tier c : Nat) : (d.demand src tier c).sched = d.sched := (Dev.demand_frame _ _ _ _).sched (by decide)
@[simp] theorem Dev.demand_sync (d : Dev) (src tier c : Nat) : (d.demand src tier c).sync = d.sync := (Dev.demand_frame _ _ _ _).sync (by decide)
@[simp] theorem Dev.demand_cover (d : Dev) (src tier c : Nat) : (d.demand src tier c).cover = d.cover := (Dev.demand_frame _ _ _ _).cover (by decide)
@[simp] theorem Dev.demand_fus (d : Dev) (src tier c : Nat) : (d.demand src tier c).fus = d.fus := (Dev.demand_frame _ _ _ _).fus (by decide)
@[simp] theorem Dev.demand_kv (d : Dev) (src tier c : Nat) : (d.demand src tier c).kv = d.kv := (Dev.demand_frame _ _ _ _).kv (by decide)
@[simp] theorem Dev.demand_solvers (d : Dev) (src tier c : Nat) : (d.demand src tier c).solvers = d.solvers := (Dev.demand_frame _ _ _ _).solvers (by decide)
@[simp] theorem Dev.demand_power (d : Dev) (src tier c : Nat) : (d.demand src tier c).power = d.power := (Dev.demand_frame _ _ _ _).power (by decide)
@[simp] theorem Dev.demand_start (d : Dev) (src tier c : Nat) : (d.demand src tier c).start = d.start := (Dev.demand_frame _ _ _ _).start (by decide)
@[simp] theorem Dev.demand_sec (d : Dev) (src tier c : Nat) : (d.demand src tier c).sec = d.sec := (Dev.demand_frame _ _ _ _).sec (by decide)
@[simp] theorem Dev.demand_edge (d : Dev) (src tier c : Nat) : (d.demand src tier c).edge = d.edge := (Dev.demand_frame _ _ _ _).edge (by decide)
@[simp] theorem Dev.demand_free (d : Dev) (src tier c : Nat) : (d.demand src tier c).free = d.free := (Dev.demand_frame _ _ _ _).free (by decide)
@[simp] theorem Dev.protect_code (d : Dev) (src tier c : Nat) : (d.protect src tier c).code = d.code := (Dev.protect_frame _ _ _ _).code (by decide)
@[simp] theorem Dev.protect_time (d : Dev) (src tier c : Nat) : (d.protect src tier c).time = d.time := (Dev.protect_frame _ _ _ _).time (by decide)
@[simp] theorem Dev.protect_cyc (d : Dev) (src tier c : Nat) : (d.protect src tier c).cyc = d.cyc := (Dev.protect_frame _ _ _ _).cyc (by decide)
@[simp] theorem Dev.protect_intake (d : Dev) (src tier c : Nat) : (d.protect src tier c).intake = d.intake := (Dev.protect_frame _ _ _ _).intake (by decide)
@[simp] theorem Dev.protect_pods (d : Dev) (src tier c : Nat) : (d.protect src tier c).pods = d.pods := (Dev.protect_frame _ _ _ _).pods (by decide)
@[simp] theorem Dev.protect_movers (d : Dev) (src tier c : Nat) : (d.protect src tier c).movers = d.movers := (Dev.protect_frame _ _ _ _).movers (by decide)
@[simp] theorem Dev.protect_mem (d : Dev) (src tier c : Nat) : (d.protect src tier c).mem = d.mem := (Dev.protect_frame _ _ _ _).mem (by decide)
@[simp] theorem Dev.protect_ddr (d : Dev) (src tier c : Nat) : (d.protect src tier c).ddr = d.ddr := (Dev.protect_frame _ _ _ _).ddr (by decide)
@[simp] theorem Dev.protect_prog (d : Dev) (src tier c : Nat) : (d.protect src tier c).prog = d.prog := (Dev.protect_frame _ _ _ _).prog (by decide)
@[simp] theorem Dev.protect_sched (d : Dev) (src tier c : Nat) : (d.protect src tier c).sched = d.sched := (Dev.protect_frame _ _ _ _).sched (by decide)
@[simp] theorem Dev.protect_sync (d : Dev) (src tier c : Nat) : (d.protect src tier c).sync = d.sync := (Dev.protect_frame _ _ _ _).sync (by decide)
@[simp] theorem Dev.protect_cover (d : Dev) (src tier c : Nat) : (d.protect src tier c).cover = d.cover := (Dev.protect_frame _ _ _ _).cover (by decide)
@[simp] theorem Dev.protect_fus (d : Dev) (src tier c : Nat) : (d.protect src tier c).fus = d.fus := (Dev.protect_frame _ _ _ _).fus (by decide)
@[simp] theorem Dev.protect_kv (d : Dev) (src tier c : Nat) : (d.protect src tier c).kv = d.kv := (Dev.protect_frame _ _ _ _).kv (by decide)
@[simp] theorem Dev.protect_solvers (d : Dev) (src tier c : Nat) : (d.protect src tier c).solvers = d.solvers := (Dev.protect_frame _ _ _ _).solvers (by decide)
@[simp] theorem Dev.protect_power (d : Dev) (src tier c : Nat) : (d.protect src tier c).power = d.power := (Dev.protect_frame _ _ _ _).power (by decide)
@[simp] theorem Dev.protect_start (d : Dev) (src tier c : Nat) : (d.protect src tier c).start = d.start := (Dev.protect_frame _ _ _ _).start (by decide)
@[simp] theorem Dev.protect_sec (d : Dev) (src tier c : Nat) : (d.protect src tier c).sec = d.sec := (Dev.protect_frame _ _ _ _).sec (by decide)
@[simp] theorem Dev.protect_edge (d : Dev) (src tier c : Nat) : (d.protect src tier c).edge = d.edge := (Dev.protect_frame _ _ _ _).edge (by decide)
@[simp] theorem Dev.protect_free (d : Dev) (src tier c : Nat) : (d.protect src tier c).free = d.free := (Dev.protect_frame _ _ _ _).free (by decide)

/-! ## Objects and the power state -/

/-- The stored values of the objects decide, with the ordering code, what every object reads. -/
theorem Dev.cfgList_of_vals {a b : Dev} (hv : b.dict.vals = a.dict.vals) (hc : b.code = a.code) (i j : Nat) :
    b.cfgList i j = a.cfgList i j := by
  unfold Dev.cfgList
  rw [hv, hc]

theorem Dev.cfg_of_vals {a b : Dev} (hv : b.dict.vals = a.dict.vals) (hc : b.code = a.code) (i j : Nat) : b.cfg i j = a.cfg i j := by
  unfold Dev.cfg
  rw [Dev.cfgList_of_vals hv hc]

/-- A frame without dictionary and ordering code keeps what every object reads. -/
theorem Dev.Frame.cfg {l : List Part} {a b : Dev} (h : Dev.Frame l a b) (hs : Part.dict ∉ l ∧ Part.code ∉ l) (i j : Nat) :
    b.cfg i j = a.cfg i j := Dev.cfg_of_vals (congrArg Dict.vals (h.dict hs.1)) (h.code hs.2) i j

@[simp] theorem Dev.occur_vals (d : Dev) (i j : Nat) : (d.occur i j).dict.vals = d.dict.vals := rfl
@[simp] theorem Dev.count_vals (d : Dev) (i j : Nat) : (d.count i j).dict.vals = d.dict.vals := rfl
@[simp] theorem Dev.countN_vals (d : Dev) (i j n : Nat) : (d.countN i j n).dict.vals = d.dict.vals := rfl

/-! ## Addresses and loads -/

/-- None of the parts that address resolution and memory reads use is listed. -/
def Part.offLoads (l : List Part) : Bool := !l.contains .mem && !l.contains .pods && !l.contains .ddr && !l.contains .code

theorem Part.offLoads_iff {l : List Part} :
    Part.offLoads l = true ↔ Part.mem ∉ l ∧ Part.pods ∉ l ∧ Part.ddr ∉ l ∧ Part.code ∉ l := by
  simp [Part.offLoads, and_assoc]

theorem Dev.Frame.addrKey {l : List Part} {a b : Dev} (h : Dev.Frame l a b) (hs : Part.pods ∉ l ∧ Part.ddr ∉ l ∧ Part.code ∉ l)
    (own : Option Nat) (x : Nat) : b.addrKey own x = a.addrKey own x := by
  unfold Dev.addrKey Dev.physOf Dev.pod Dev.ddrSize
  rw [h.pods hs.1, h.ddr hs.2.1, h.code hs.2.2]

theorem Dev.Frame.loadA {l : List Part} {a b : Dev} (h : Dev.Frame l a b) (hs : Part.offLoads l = true) (own : Option Nat) :
    ∀ (n x : Nat), b.loadA own x n = a.loadA own x n
  | 0, _ => rfl
  | n + 1, x => by
    obtain ⟨hmem, hkey⟩ := Part.offLoads_iff.1 hs
    unfold Dev.loadA
    rw [h.loadA hs own n (x + 1), h.addrKey hkey, h.mem hmem]

theorem Dev.Frame.loadW {l : List Part} {a b : Dev} (h : Dev.Frame l a b) (hs : Part.offLoads l = true) (own : Option Nat) (x : Nat) :
    b.loadW own x = a.loadW own x := by
  unfold Dev.loadW
  rw [h.loadA hs]

theorem Dev.Frame.loadWs {l : List Part} {a b : Dev} (h : Dev.Frame l a b) (hs : Part.offLoads l = true) (own : Option Nat) :
    ∀ (n x : Nat), b.loadWs own x n = a.loadWs own x n
  | 0, _ => rfl
  | n + 1, x => by
    unfold Dev.loadWs
    rw [h.loadW hs, h.loadWs hs own n]

/-- A quantity that no step of a fold changes is unchanged by the fold. -/
theorem foldl_keeps {α β γ : Type} {f : β → α → β} {g : β → γ} (h : ∀ b a, g (f b a) = g b) :
    ∀ (l : List α) (b : β), g (l.foldl f b) = g b
  | [], _ => rfl
  | a :: l, b => (foldl_keeps h l (f b a)).trans (h b a)

/-- The same over the members of the list alone. -/
theorem foldl_keeps_of_mem {α β γ : Type} {f : β → α → β} {g : β → γ} :
    ∀ (l : List α) (_ : ∀ a ∈ l, ∀ b, g (f b a) = g b) (b : β), g (l.foldl f b) = g b
  | [], _, _ => rfl
  | a :: l, h, b =>
    (foldl_keeps_of_mem l (fun a ha => h a (List.mem_cons_of_mem _ ha)) (f b a)).trans (h a List.mem_cons_self b)

@[simp] theorem Dev.occurAll_vals (l : List (Nat × Nat)) (d : Dev) : (d.occurAll l).dict.vals = d.dict.vals :=
  foldl_keeps (g := fun d : Dev => d.dict.vals) (by intros; rfl) l d

@[simp] theorem Dev.logFault_vals (d : Dev) (c i x : Nat) : (d.logFault c i x).dict.vals = d.dict.vals := by
  unfold Dev.logFault
  dsimp only
  split
  · split <;> rfl
  · rfl

@[simp] theorem Dev.raise_vals (d : Dev) (c i x : Nat) : (d.raise c i x).dict.vals = d.dict.vals := by
  unfold Dev.raise
  split
  · simp
  · rfl

@[simp] theorem Dev.raise_cfg (d : Dev) (c i x j k : Nat) : (d.raise c i x).cfg j k = d.cfg j k :=
  Dev.cfg_of_vals (by simp) (by simp) j k

/-- Of the power unit a raised cause can change the retained record alone. -/
def Power.unretained (p : Power) : Power := { p with retained := [] }

theorem Dev.raise_unretained (d : Dev) (c i x : Nat) : (d.raise c i x).power.unretained = d.power.unretained := by
  unfold Dev.raise
  split
  · rw [(Dev.occurAll_frame _ _).power (by decide), (Dev.logFault_frame _ _ _ _).power (by decide)]
  · rfl

/-- Past start-up step 2 a raised cause leaves the power unit alone. -/
theorem Dev.raise_power {d : Dev} (h : d.up = true) (c i x : Nat) : (d.raise c i x).power = d.power := by
  unfold Dev.raise
  rw [if_pos h, (Dev.occurAll_frame _ _).power (by decide), (Dev.logFault_frame _ _ _ _).power (by decide)]

@[simp] theorem Dev.raise_state (d : Dev) (c i x : Nat) : (d.raise c i x).power.state = d.power.state :=
  (congrArg Power.state (d.raise_unretained c i x) :)

@[simp] theorem Dev.raise_up (d : Dev) (c i x : Nat) : (d.raise c i x).up = d.up := by simp [Dev.up]

@[simp] theorem Dev.raise_inRun (d : Dev) (c i x : Nat) : (d.raise c i x).inRun = d.inRun := by simp [Dev.inRun]

/-! ## The Hull's decision -/

/-- The Hull without what a change of the output tier brings with it. -/
def Hull.undecided (h : Hull) : Hull :=
  { h with tier := 0, latch := false, stopCause := 0, rel := [], pinA := false, pinB := false, exceeded := [], offDelay := [],
           offDone := [], statusSeq := 0, statusTick := 0 }

theorem Dev.sendStatus_undecided (d : Dev) : d.sendStatus.hull.undecided = d.hull.undecided := by
  unfold Dev.sendStatus
  split
  · rfl
  · refine (foldl_keeps (g := fun d : Dev => d.hull.undecided) (fun d e => ?_) _ _).trans rfl
    exact foldl_keeps (g := fun d : Dev => d.hull.undecided) (by intros; rfl) _ _

theorem Dev.showTier_undecided (d : Dev) : d.showTier.hull.undecided = d.hull.undecided := by
  unfold Dev.showTier
  rw [Dev.sendStatus_undecided, (Dev.sendDecision_frame _).hull (by decide), (Dev.sendCommand_frame _).hull (by decide)]
  rfl

theorem Dev.enterStop_undecided (d : Dev) (c : Nat) (b : Bool) : (d.enterStop c b).hull.undecided = d.hull.undecided := by
  have settled : ∀ e : Dev, (if (e.effect c 3).inRun || (e.effect c 3).log.entries.any (fun x => x.cause == c && x.effect == 3)
      then (e.effect c 3).recEvent c else e.effect c 3).hull = e.hull := by
    intro e
    split
    · rw [(Dev.recEvent_frame _ _).hull (by decide), Dev.effect_hull]
    · rw [Dev.effect_hull]
  unfold Dev.enterStop
  rw [settled]
  refine (foldl_keeps (g := fun d : Dev => d.hull.undecided) (fun e q => ?_) _ _).trans rfl
  split
  · split
    · rfl
    · split <;> rfl
  · rfl

theorem Dev.retier_undecided (d : Dev) (c : Nat) (b : Bool) : (d.retier c b).hull.undecided = d.hull.undecided := by
  unfold Dev.retier
  dsimp only
  split
  · rw [Dev.showTier_undecided]
    split
    · rw [Dev.enterStop_undecided]
      rfl
    · rfl
  · split
    · rw [(Dev.sendCommand_frame _).hull (by decide)]
      rfl
    · rfl

/-- A demand changes the standing demands and, beyond them, the Hull's decision alone. -/
theorem Dev.demand_undecided (d : Dev) (src tier c : Nat) :
    (d.demand src tier c).hull.undecided = { d.hull.undecided with demands := kset 0 d.hull.demands src tier } :=
  Dev.retier_undecided _ _ _

theorem Dev.protect_undecided (d : Dev) (src tier c : Nat) :
    (d.protect src tier c).hull.undecided = { d.hull.undecided with demands := kset 0 d.hull.demands src tier } := by
  unfold Dev.protect
  rw [Dev.demand_undecided, (Dev.recEvent_frame _ _).hull (by decide), Dev.effect_hull, Dev.occur_hull]

@[simp] theorem Dev.demand_demands (d : Dev) (src tier c : Nat) :
    (d.demand src tier c).hull.demands = kset 0 d.hull.demands src tier := (congrArg Hull.demands (d.demand_undecided src tier c) :)

@[simp] theorem Dev.protect_demands (d : Dev) (src tier c : Nat) :
    (d.protect src tier c).hull.demands = kset 0 d.hull.demands src tier := (congrArg Hull.demands (d.protect_undecided src tier c) :)

@[simp] theorem Dev.demand_fault (d : Dev) (src tier c : Nat) : (d.demand src tier c).hull.fault = d.hull.fault :=
  (congrArg Hull.fault (d.demand_undecided src tier c) :)

@[simp] theorem Dev.protect_fault (d : Dev) (src tier c : Nat) : (d.protect src tier c).hull.fault = d.hull.fault :=
  (congrArg Hull.fault (d.protect_undecided src tier c) :)

@[simp] theorem Dev.demand_override (d : Dev) (src tier c : Nat) : (d.demand src tier c).hull.override = d.hull.override :=
  (congrArg Hull.override (d.demand_undecided src tier c) :)

@[simp] theorem Dev.protect_override (d : Dev) (src tier c : Nat) : (d.protect src tier c).hull.override = d.hull.override :=
  (congrArg Hull.override (d.protect_undecided src tier c) :)

end Sys2Proof.Machine

/-! PROOF. Network time: what the servo, the domains, their messages, the served time, the triggers and the reference check do
(R31 to R54, R388). -/

namespace Sys2Proof.Machine

open Sys2Proof

/-! ## The servo, holdover and the tick -/

@[simp] theorem Dev.select_selected (d : Dev) (new : Option Dom) : (d.select new).time.selected = new := by
  unfold Dev.select
  split
  next h => exact h.symm
  next =>
    split
    · simp
    · dsimp only
      split
      · simp
      · rfl

@[simp] theorem Dev.raiseIf_time (d : Dev) (b : Bool) (c i x : Nat) : (d.raiseIf b c i x).time = d.time :=
  (Dev.raiseIf_frame _ _ _ _ _).time (by decide)

@[simp] theorem Dev.checkHoldover_selected (d : Dev) : d.checkHoldover.time.selected = d.time.selected := by
  unfold Dev.checkHoldover
  dsimp only
  split
  · simp [Dev.growUncertainty]
  · rfl

@[simp] theorem Dev.steer_selected (d : Dev) : d.steer.time.selected = d.time.selected := by
  unfold Dev.steer
  split
  · simp
  · rfl

/-- R42, R44: the selection of a servo update and the time state that follows from it. -/
theorem servoUpdate_settles {d : Dev} (h : d.up = true) :
    (servoUpdate d).time.state = (servoUpdate d).timeState ∧
      (servoUpdate d).time.selected = ((d.evalDom .a).evalDom .b).choose := by
  unfold servoUpdate
  rw [if_pos h]
  refine ⟨rfl, ?_⟩
  simp

/-- R47: the first excess of a holdover. -/
theorem Dev.checkHoldover_exceeded {d : Dev} (hold : d.holding = true) (hx : d.time.exceeded = false)
    (hu : d.cfg 0x4000 0x0A < d.uncertaintyNow) :
    d.checkHoldover = { d with time := { d.time with uncertainty := d.uncertaintyNow, exceeded := true } }.raise 0x0105 0 0 := by
  have hgrown : d.growUncertainty = { d with time := { d.time with uncertainty := d.uncertaintyNow } } := by
    rw [Dev.growUncertainty, Dev.uncertaintyRead, if_pos hold]
  unfold Dev.checkHoldover
  rw [hgrown]
  refine if_pos ?_
  simp only [Bool.and_eq_true, Bool.not_eq_true', decide_eq_true_eq]
  exact ⟨⟨hold, hx⟩, hu⟩

theorem holdoverExceeded_unlocks {d : Dev} (hup : d.up = true) (hold : d.holding = true) (hx : d.time.exceeded = false)
    (hu : d.cfg 0x4000 0x0A < d.uncertaintyNow) :
    (holdoverExceeded d).Reports 0x0105 0 ∧ (holdoverExceeded d).time.state = .unlocked ∧
      (holdoverExceeded d).time.exceeded = true := by
  have hsel : d.time.epoch = true ∧ d.time.selected = none := by simpa [Dev.holding] using hold
  unfold holdoverExceeded
  rw [Dev.checkHoldover_exceeded hold hx hu]
  refine ⟨Dev.raise_reports (by exact hup) 0x0105 0 0, ?_, ?_⟩
  · have hcfg := Nat.not_le.2 hu
    unfold Dev.cfg at hcfg
    simp [Dev.setTimeState, Dev.timeState, hsel.1, hsel.2]
    exact hu
  · simp [Dev.setTimeState]

theorem slewSaturated_restarts {d : Dev} (hup : d.up = true) (h : 8 ≤ d.time.satRun) :
    (slewSaturated d).Reports 0x0107 0 ∧ (slewSaturated d).time.satRun = 0 := by
  unfold slewSaturated
  rw [if_pos h]
  exact ⟨Dev.raise_reports (by exact hup) _ _ _, by simp⟩

theorem Dev.tickOnce_of_up {d : Dev} (h : d.up = true) :
    d.tickOnce = { d with time := { d.time with ticks := d.time.ticks + 1, counter := d.time.counter + d.time.inc.zeroExtend 96 } } :=
  if_pos h

/-- Settles O1: the servo update ends with the selection and the state that follows from it, the alarms are single raised causes, and
an idle step is `Dev.tickOnce`. -/
theorem timeServo : Obligations.TimeServo := by
  unfold Obligations.TimeServo
  refine ⟨fun s hup => ⟨_, rfl, servoUpdate_settles hup⟩,
    fun s hup hold hx hu => ⟨_, rfl, holdoverExceeded_unlocks hup hold hx hu⟩,
    fun s hup h => ⟨_, rfl, slewSaturated_restarts hup h⟩, fun s hs hup => ?_⟩
  refine ⟨s.dev.tickOnce, by unfold step; rw [hs], ?_, ?_, Dev.tickOnce_frame _⟩ <;> rw [Dev.tickOnce_of_up hup]

/-! ## Selections and domains that fall silent -/

@[simp] theorem Dev.setDom_dom (d : Dev) (x : Dom) (v : Domain) : (d.setDom x v).dom x = v := by cases x <;> rfl

/-- R42: a selection that is new is reported with the number of the domain it selects. -/
theorem Dev.select_reports {d : Dev} {x : Dom} (hup : d.up = true) (h : some x ≠ d.time.selected) :
    (d.select (some x)).Reports 0x0103 (match (generalizing := false) x with | .a => 0 | .b => 1) := by
  unfold Dev.select
  rw [if_neg h]
  cases x <;> exact Dev.raise_reports (by exact hup) _ _ _

theorem revertHoldOffExpiry_selects {d : Dev} {x : Dom} (hup : d.up = true) (hsel : d.time.selected = some x)
    (hx : x ≠ d.preferred) (ht : d.tracks d.preferred = true) (hr : d.revertDue = true) :
    (revertHoldOffExpiry d).time.selected = some d.preferred ∧
      (revertHoldOffExpiry d).Reports 0x0103 (match (generalizing := false) d.preferred with | .a => 0 | .b => 1) := by
  have hnew : some d.preferred ≠ d.time.selected := fun e => hx (Option.some.inj (e.trans hsel)).symm
  unfold revertHoldOffExpiry
  rw [hsel]
  dsimp only
  rw [if_pos ⟨hx, ht, hr⟩]
  exact ⟨d.select_selected _, Dev.select_reports hup hnew⟩

/-- R41: entry to ABSENT. -/
theorem Dev.enterAbsent_absent {d : Dev} (hup : d.up = true) (x : Dom) :
    ((d.enterAbsent x).dom x).state = .absent ∧ ((d.enterAbsent x).dom x).port = none ∧
      (d.enterAbsent x).Reports (match x with | .a => 0x0101 | .b => 0x0102) 0 := by
  unfold Dev.enterAbsent
  cases x <;> exact ⟨by simp [Dev.dom, Dev.setDom], by simp [Dev.dom, Dev.setDom], Dev.raise_reports (by exact hup) _ _ _⟩

/-- Settles O2. -/
theorem domainChanges : Obligations.DomainChanges := by
  unfold Obligations.DomainChanges
  refine ⟨fun s x hup hsel hx ht hr => ⟨_, rfl, revertHoldOffExpiry_selects hup hsel hx ht hr⟩,
    fun s x hup hst hdue => ⟨_, rfl, ?_⟩⟩
  unfold domainReceiptTimeout
  rw [if_pos ⟨hst, hdue⟩]
  exact Dev.enterAbsent_absent hup x

/-! ## Messages of a domain -/

theorem ptpSync_of_takes {d : Dev} {port dn : Nat} {li : Int} {x : Dom} (hx : d.domOf dn = some x) (ht : d.takes x port li = true)
    (seq : BitVec 16) (two : Bool) (origin : Int) :
    (ptpSync port dn li seq two origin d).dom x =
      let v := { ((d.dom x).aged d.tick).heard d.tick with syncInterval := li }
      if two then { v with waiting := some { port := port, seq := seq, stamp := d.counterI, tick := d.tick, adj := d.steered } }
      else { d.addEstimate v port origin d.counterI d.tick d.steered with waiting := none } := by
  unfold ptpSync
  rw [hx]
  dsimp only
  rw [if_pos ht, Dev.setDom_dom]

/-- A Follow_Up that belongs to the waiting Sync adds its estimate. -/
theorem ptpFollowUp_of_waiting {d : Dev} {port dn : Nat} {li : Int} {x : Dom} {w : SyncWaiting} {seq : BitVec 16}
    (hx : d.domOf dn = some x) (ht : d.takes x port li = true) (hw : ((d.dom x).aged d.tick).waiting = some w)
    (hp : w.port = port) (hs : w.seq = seq) (origin : Int) :
    (ptpFollowUp port dn li seq origin d).dom x =
      { d.addEstimate (((d.dom x).aged d.tick).heard d.tick) port origin w.stamp w.tick w.adj with waiting := none } := by
  unfold ptpFollowUp
  rw [hx]
  dsimp only
  rw [if_pos ht, Dev.setDom_dom, show (((d.dom x).aged d.tick).heard d.tick).waiting = some w from hw]
  exact if_pos ⟨hp, hs⟩

/-- R38: the port picked is the one with the better Announce; the Announces stay. -/
theorem Domain.pickPort_port (v : Domain) :
    v.pickPort.port = betterPort v.ann0 v.ann1 ∧ v.pickPort.ann0 = v.ann0 ∧ v.pickPort.ann1 = v.ann1 := by
  have hset : ∀ u : Domain, u = (if betterPort v.ann0 v.ann1 = v.port then v
      else { v with port := betterPort v.ann0 v.ann1, ests := [], waiting := none }) →
      u.port = betterPort v.ann0 v.ann1 ∧ u.ann0 = v.ann0 ∧ u.ann1 = v.ann1 := by
    rintro u rfl
    split
    next h => exact ⟨h.symm, rfl, rfl⟩
    next => exact ⟨rfl, rfl, rfl⟩
  have hpicked := hset _ rfl
  unfold Domain.pickPort
  dsimp only
  split <;> exact hpicked

theorem ptpAnnounce_settles {d : Dev} {port dn : Nat} {x : Dom} (hx : d.domOf dn = some x) (hup : d.up = true)
    (hc : (d.delay port).capable = true) (hst : (d.dom x).state ≠ .disabled) (li : Int) (ident : Nat) (gm : Word) (cc : Nat) :
    let v := (ptpAnnounce port dn li ident gm cc d).dom x
    v.port = betterPort v.ann0 v.ann1 ∧ (if port = 0 then v.ann0 else v.ann1) =
      some { identity := ident, gm := gm, clockClass := cc, interval := li, tick := d.tick } := by
  unfold ptpAnnounce
  rw [hx]
  dsimp only
  rw [if_pos (by simp [hup, hc, hst]), Dev.setDom_dom]
  obtain ⟨hport, hann0, hann1⟩ := Domain.pickPort_port _
  rw [hport, hann0, hann1]
  split <;> exact ⟨rfl, rfl⟩

/-- Settles O3. -/
theorem domainMessages : Obligations.DomainMessages := by
  unfold Obligations.DomainMessages
  refine ⟨fun s p dn li seq two origin x hx ht => ⟨_, rfl, ?_⟩, fun s p dn li seq origin x w hx ht hw hp hs => ⟨_, rfl, ?_⟩,
    fun s p dn li ident gm cc x hx hup hc hst => ⟨_, rfl, ptpAnnounce_settles hx hup hc hst li ident gm cc⟩⟩
  · beta_reduce
    rw [ptpSync_of_takes hx ht]
    cases two <;> exact ⟨rfl, rfl, by simp [Dev.addEstimate]⟩
  · beta_reduce
    rw [ptpFollowUp_of_waiting hx ht hw hp hs]
    exact ⟨rfl, by simp [Dev.addEstimate]⟩

/-! ## Peer delay and served time -/

theorem pdelayResponse_of_both {d : Dev} {port : Nat} {t1 : Int} (hon : d.pdelayOn port = true)
    (hsent : (d.delay port).sent = some t1) (t2 t3 : Int) :
    (pdelayResponse port (d.delay port).seq (some t2) (some t3) d).delay port =
      { d.delay port with
          fails := 0, capable := true, delay := ((d.counterI - t1) - (t3 * 2 ^ 16 - t2 * 2 ^ 16)) / 2, sent := none, got := none,
          t2 := none } := by
  unfold pdelayResponse
  simp only [hsent]
  rw [if_pos ⟨trivial, hon⟩]
  exact Dev.modDelay_delay _ _ _

/-- Settles O4. -/
theorem peerAndServedTime : Obligations.PeerAndServedTime := by
  unfold Obligations.PeerAndServedTime
  refine ⟨fun s p hon => ⟨_, rfl, ?_⟩, fun s p t1 t2 t3 hon hsent => ⟨_, rfl, ?_⟩, fun s p seq hon => ⟨_, rfl, ?_⟩,
    fun s p hs hdue => ⟨_, rfl, ?_⟩, fun s p hs => ⟨_, rfl, ?_⟩⟩
  · unfold pdelayInterval
    rw [if_pos hon]
    rfl
  · beta_reduce
    rw [pdelayResponse_of_both hon hsent]
    exact ⟨rfl, rfl⟩
  · unfold pdelayReq
    rw [if_pos hon]
    rfl
  · unfold sensorPortSync
    rw [if_pos ⟨hs, hdue⟩]
    rfl
  · unfold sensorPortAnnounce
    rw [if_pos hs]
    rfl

/-! ## Triggers and the reference -/

theorem trigEdge_drives {d : Dev} {pin : Nat} {e : Int} (hup : d.up = true) (hedge : (d.trig pin).edge = some e) (he : e ≤ d.nowPs) :
    (trigEdge pin d).trig pin =
      { d.trig pin with high := true, edge := none, stamps := (d.stampOf 7 pin :: (d.trig pin).stamps).take 8 } := by
  unfold trigEdge
  rw [hedge]
  dsimp only
  rw [if_pos ⟨he, hup⟩, Dev.modTrig_trig]

@[simp] theorem Dev.raise_trig (d : Dev) (c i x pin : Nat) : (d.raise c i x).trig pin = d.trig pin := by simp [Dev.trig]

/-- Scheduling sets a pin's next edge and its cycle; its level and its last stamps stay. -/
theorem Dev.scheduleTrig_level (d : Dev) (pin start : Nat) :
    ((d.scheduleTrig pin start).trig pin).high = (d.trig pin).high ∧ ((d.scheduleTrig pin start).trig pin).fall = (d.trig pin).fall := by
  unfold Dev.scheduleTrig
  split
  · dsimp only
    split <;> simp
  · simp

theorem trigPulseEnd_falls {d : Dev} {pin n : Nat} {st : BitVec 96} (hh : (d.trig pin).high = true)
    (hst : (d.trig pin).stamps.head? = some st) (hn : d.trigSlot pin = some n)
    (hdue : d.stampPsNow st + (d.cfg (0x3000 + n) 0x24 : Int) * 1000 ≤ d.nowPs) :
    ((trigPulseEnd pin d).trig pin).high = false ∧ ((trigPulseEnd pin d).trig pin).fall = some (d.stampOf 7 pin) := by
  unfold trigPulseEnd
  simp only [hh, hst, hn]
  rw [if_pos hdue]
  split
  · obtain ⟨hhigh, hfall⟩ := Dev.scheduleTrig_level _ pin _
    rw [hhigh, hfall]
    simp
  · simp

theorem Dev.huskStop_override (d : Dev) : d.huskStop.hull = { d.hull with override := true } := by
  unfold Dev.huskStop
  dsimp only
  split <;> rfl

/-- R388, R449: the answer to a bad clock. -/
theorem Dev.refFault_stops {d : Dev} (hinv : d.Inv) (hup : d.up = true) (cause src : Nat) :
    (d.refFault cause src).Stopped ∧ (d.refFault cause src).hull.override = true ∧ (d.refFault cause src).Reports cause 0 := by
  have hraised : (d.raise cause 0 0).huskStop.Inv := Dev.huskStop_inv _ (((Dev.raise_frame _ _ _ _).inv (by decide)).2 hinv)
  refine ⟨Dev.protect_stopped hraised _ _, ?_, ?_⟩
  · unfold Dev.refFault
    rw [Dev.protect_override, Dev.huskStop_override]
  · exact (Dev.protect_reports _ _ _ _ _ _).2
      (((Dev.huskStop_frame _).reports (by decide) _ _).2 (Dev.raise_reports hup _ _ _))

/-- Settles O5. -/
theorem triggersAndReference : Obligations.TriggersAndReference := by
  unfold Obligations.TriggersAndReference
  refine ⟨fun s pin e hup hedge he => ⟨_, rfl, ?_⟩,
    fun s pin st n hh hst hn hdue => ⟨_, rfl, trigPulseEnd_falls hh hst hn hdue⟩,
    fun s n hinv hup hdue hbad => ⟨_, rfl, ?_⟩, fun s n hup hdue hok => ⟨_, rfl, ?_⟩⟩
  · beta_reduce
    rw [trigEdge_drives hup hedge he]
    exact ⟨rfl, rfl, rfl⟩
  · unfold refClockWindow
    rw [if_pos (by simp [hup, hdue])]
    dsimp only
    rw [if_neg (by simp [hbad])]
    exact Dev.refFault_stops (by exact hinv) (by exact hup) _ _
  · unfold refClockWindow
    simp [hup, hdue, hok]

end Sys2Proof.Machine

/-! PROOF. Stream slots and camera frames (R50, R51, R58 to R64, R69, R548). -/

namespace Sys2Proof.Machine

open Sys2Proof

/-! ## Sets of numbers, and folds over units -/

@[simp] theorem mem_sins {a k : Nat} : ∀ {l : List Nat}, a ∈ sins k l ↔ a = k ∨ a ∈ l
  | [] => by simp [sins]
  | b :: t => by
    have ih := mem_sins (a := a) (k := k) (l := t)
    unfold sins
    split
    · simp
    · split
      next h => simp [h]
      next => simp [ih, or_left_comm]

@[simp] theorem mem_sdel {a k : Nat} {l : List Nat} : a ∈ sdel k l ↔ a ∈ l ∧ a ≠ k := by simp [sdel]

/-- A fold over different units, each step of which changes its own unit alone: what a unit of the list becomes is what its own step
makes of it, in a state that agrees with the first about the unit and about a quantity that no step changes. -/
theorem foldl_at {σ ι β γ : Type} [DecidableEq ι] {f : σ → ι → σ} {get : σ → ι → β} {g : σ → γ}
    (other : ∀ d n j, j ≠ n → get (f d n) j = get d j) (keeps : ∀ d n, g (f d n) = g d) {j : ι} :
    ∀ (l : List ι) (_ : l.Nodup) (_ : j ∈ l) (d : σ),
      ∃ e, get (l.foldl f d) j = get (f e j) j ∧ get e j = get d j ∧ g e = g d
  | [], _, hj, _ => absurd hj List.not_mem_nil
  | n :: l, hl, hj, d => by
    obtain ⟨hn, hl⟩ := List.nodup_cons.1 hl
    rcases List.mem_cons.1 hj with rfl | hj
    · refine ⟨d, ?_, rfl, rfl⟩
      exact foldl_keeps_of_mem (g := fun d => get d j) l (fun a ha b => other b a j (fun e => hn (e ▸ ha))) (f d j)
    · obtain ⟨e, hget, hunit, hkeep⟩ := foldl_at other keeps l hl hj (f d n)
      have hjn : j ≠ n := fun e => hn (e ▸ hj)
      exact ⟨e, hget, hunit.trans (other d n j hjn), hkeep.trans (keeps d n)⟩

/-! ## Slots under a report and under a fold over slots -/

@[simp] theorem Dev.raise_slot (d : Dev) (c i x n : Nat) : (d.raise c i x).slot n = d.slot n := by simp [Dev.slot]

@[simp] theorem Dev.occur_slot (d : Dev) (i j n : Nat) : (d.occur i j).slot n = d.slot n := rfl

theorem Dev.slotsAt_nodup (d : Dev) (code : Nat) : (d.slotsAt code).Nodup := List.nodup_range.filter _

/-- Updating every slot of a list in turn. -/
theorem Dev.foldl_modSlot_slot (f : Slot → Slot) {l : List Nat} (hl : l.Nodup) {n : Nat} (hn : n ∈ l) (d : Dev) :
    (l.foldl (fun d n => d.modSlot n f) d).slot n = f (d.slot n) := by
  obtain ⟨e, hget, hunit, -⟩ := foldl_at (f := fun (d : Dev) n => d.modSlot n f) (get := Dev.slot) (g := fun _ => ())
    (fun d n j h => d.modSlot_slot_other n f j h) (fun _ _ => rfl) l hl hn d
  rw [hget, Dev.modSlot_slot, hunit]

/-! ## States of a slot -/

theorem slotLinkUp_syncs (p : SPort) (d : Dev) : sportCode p ∈ (slotLinkUp p d).intake.linkUp ∧
    ∀ n, n ∈ d.slotsAt (sportCode p) → (d.slot n).state = .waitLink → ((slotLinkUp p d).slot n).state = .syncing := by
  unfold slotLinkUp
  refine ⟨?_, fun n hn hw => ?_⟩
  · rw [foldl_keeps (g := fun d : Dev => d.intake.linkUp) (by intros; rfl)]
    simp
  · refine (congrArg Slot.state (Dev.foldl_modSlot_slot _ (Dev.slotsAt_nodup _ _) hn _)).trans ?_
    exact congrArg Slot.state (if_pos hw)

theorem slotSilent_syncs {d : Dev} {n : Nat} (hup : d.up = true) (hst : (d.slot n).state = .active)
    (h : d.cfg (0x3000 + n) 8 < (d.slot n).silent) :
    ((slotSilent n d).slot n).state = .syncing ∧ ((slotSilent n d).slot n).silent = 0 ∧ (slotSilent n d).Reports 0x0205 n := by
  unfold slotSilent
  dsimp only
  rw [if_pos ⟨hst, h⟩]
  exact ⟨by simp, by simp, Dev.raise_reports (by exact hup) _ _ _⟩

/-- R548: with its last cause gone, a slot in FAULT starts its wait. -/
theorem Slot.causeEnds_last {s : Slot} {c : Nat} (hst : s.state = .fault) (hc : s.causes = [c]) (tick : Nat) :
    s.causeEnds c tick = { s with causes := [], absentSince := some tick } := by
  have hdel : sdel c s.causes = [] := by simp [sdel, hc]
  unfold Slot.causeEnds
  rw [if_pos ⟨hst, by simp [hc]⟩, hdel, if_pos rfl]

theorem slotFaultHoldExpiry_waits {d : Dev} {n t : Nat} (hst : (d.slot n).state = .fault) (hc : (d.slot n).causes = [])
    (ha : (d.slot n).absentSince = some t) (hdue : t + msTicks 100 ≤ d.tick) :
    ((slotFaultHoldExpiry n d).slot n).state = .waitLink ∧ ((slotFaultHoldExpiry n d).slot n).absentSince = none := by
  unfold slotFaultHoldExpiry
  simp only [hst, hc, ha]
  rw [if_pos hdue, Dev.modSlot_slot]
  exact ⟨rfl, rfl⟩

/-- A fault of one slot leaves the others. -/
theorem Dev.slotFault_slot_other (d : Dev) (n c j : Nat) (h : j ≠ n) : (d.slotFault n c).slot j = d.slot j := by
  unfold Dev.slotFault
  split
  · rfl
  · dsimp only
    rw [Dev.modSlot_slot_other _ _ _ _ h]
    split <;> rfl

/-- R59: what a fault makes of a slot that is enabled. -/
theorem Dev.slotFault_slot {d : Dev} {n : Nat} (h : (d.slot n).state ≠ .disabled) (c : Nat) :
    (d.slotFault n c).slot n = (d.slot n).enterFault c d.tick := by
  unfold Dev.slotFault
  rw [if_neg h]
  dsimp only
  split <;> exact Dev.modSlot_slot _ _ _

/-- A port's fault takes its enabled slots into FAULT with the cause. -/
theorem Dev.portFault_faults (d : Dev) {code c n : Nat} (hc : c ≠ 0x020A) (hn : n ∈ d.slotsAt code)
    (hst : (d.slot n).state ≠ .disabled) :
    ((d.portFault code c).slot n).state = .fault ∧ c ∈ ((d.portFault code c).slot n).causes := by
  obtain ⟨e, hget, hunit, -⟩ := foldl_at (f := fun (d : Dev) n => d.slotFault n c) (get := Dev.slot) (g := fun _ => ())
    (fun d n j h => d.slotFault_slot_other n c j h) (fun _ _ => rfl) _ (d.slotsAt_nodup code) hn d
  unfold Dev.portFault
  rw [hget, Dev.slotFault_slot (hunit ▸ hst)]
  unfold Slot.enterFault
  rw [if_neg hc]
  exact ⟨rfl, mem_sins.2 (.inl rfl)⟩

/-- Faults of slots leave the links of the ports. -/
@[simp] theorem Dev.portFault_linkUp (d : Dev) (code c : Nat) : (d.portFault code c).intake.linkUp = d.intake.linkUp := by
  unfold Dev.portFault
  refine foldl_keeps (g := fun d : Dev => d.intake.linkUp) (fun d n => ?_) _ _
  unfold Dev.slotFault
  split
  · rfl
  · dsimp only
    split <;> rfl

theorem Dev.slotsAt_of_cfg {a b : Dev} (hcfg : ∀ i j, b.cfg i j = a.cfg i j) (hcode : b.code = a.code) (code : Nat) :
    b.slotsAt code = a.slotsAt code := by
  unfold Dev.slotsAt Dev.slotOn
  simp only [hcfg, hcode]

@[simp] theorem Dev.raise_slotsAt (d : Dev) (c i x code : Nat) : (d.raise c i x).slotsAt code = d.slotsAt code :=
  Dev.slotsAt_of_cfg (by simp) (by simp) code

/-- R62, R64, R548: what the loss of a port's link does, by a cause that stands. -/
theorem Dev.linkLost_faults (d : Dev) {p c i x : Nat} (hc : c ≠ 0x020A) :
    let e := Dev.portFault { d.raise c i x with intake := { (d.raise c i x).intake with
      linkUp := sdel p (d.raise c i x).intake.linkUp } } p c
    p ∉ e.intake.linkUp ∧ ∀ n, n ∈ d.slotsAt p → (d.slot n).state ≠ .disabled →
      (e.slot n).state = .fault ∧ c ∈ (e.slot n).causes := by
  refine ⟨by simp, fun n hn hst => ?_⟩
  have hraised := d.raise_slot c i x n
  exact Dev.portFault_faults _ hc ((d.raise_slotsAt c i x p).symm ▸ hn) (by rw [← hraised] at hst; exact hst)

/-- A cause ends in every slot of a list, and one of them had no other. -/
theorem Dev.foldl_causeEnds {d : Dev} {l : List Nat} (hl : l.Nodup) {n c : Nat} (hn : n ∈ l) (hst : (d.slot n).state = .fault)
    (hc : (d.slot n).causes = [c]) :
    ((l.foldl (fun d n => d.modSlot n (fun s => s.causeEnds c d.tick)) d).slot n).causes = [] ∧
      ((l.foldl (fun d n => d.modSlot n (fun s => s.causeEnds c d.tick)) d).slot n).absentSince = some d.tick := by
  obtain ⟨e, hget, hunit, htick⟩ := foldl_at (f := fun (d : Dev) n => d.modSlot n (fun s => s.causeEnds c d.tick))
    (get := Dev.slot) (g := Dev.tick) (fun d n j h => d.modSlot_slot_other n _ j h) (fun _ _ => rfl) l hl hn d
  rw [hget, Dev.modSlot_slot, hunit, htick, Slot.causeEnds_last hst hc]
  exact ⟨rfl, rfl⟩

theorem streamPortConfigRetry_ends {d : Dev} {p : SPort} (hf : sportCode p ∈ d.intake.cfgFailed)
    (hdue : kget 0 d.intake.cfgTick (sportCode p) + sTicks 1 ≤ d.tick) :
    sportCode p ∉ (streamPortConfigRetry p true d).intake.cfgFailed ∧
      ∀ n, n ∈ d.slotsAt (sportCode p) → (d.slot n).state = .fault → (d.slot n).causes = [0x0F09] →
        ((streamPortConfigRetry p true d).slot n).causes = [] ∧
          ((streamPortConfigRetry p true d).slot n).absentSince = some d.tick := by
  unfold streamPortConfigRetry
  dsimp only
  rw [if_pos ⟨by simpa using hf, hdue⟩, if_pos rfl]
  refine ⟨?_, fun n hn hst hcs => ?_⟩
  · rw [foldl_keeps (g := fun d : Dev => d.intake.cfgFailed) (by intros; rfl)]
    simp
  · exact Dev.foldl_causeEnds (Dev.slotsAt_nodup _ _) hn (by exact hst) (by exact hcs)

/-- Settles O6. -/
theorem slotStates : Obligations.SlotStates := by
  unfold Obligations.SlotStates
  refine ⟨fun s p => ⟨_, rfl, slotLinkUp_syncs p s.dev⟩, fun s n hup hst h => ⟨_, rfl, slotSilent_syncs hup hst h⟩,
    fun s n lane hst hc => ⟨_, rfl, ?_⟩, fun s n t hst hc ha hdue => ⟨_, rfl, slotFaultHoldExpiry_waits hst hc ha hdue⟩,
    fun s p obs => ⟨_, rfl, Dev.linkLost_faults _ (by decide)⟩, fun s p hup => ⟨_, rfl, ?_⟩,
    fun s p hf hdue => ⟨_, rfl, streamPortConfigRetry_ends hf hdue⟩⟩
  · unfold slotFaultCauseEnd
    beta_reduce
    rw [Dev.modSlot_slot, Slot.causeEnds_last hst hc]
    exact ⟨rfl, rfl⟩
  · obtain ⟨hlink, hslots⟩ := Dev.linkLost_faults s.dev (p := 0x10 + p.val) (c := 0x0204) (i := p.val) (x := 0) (by decide)
    refine ⟨hlink, ?_, hslots⟩
    exact ((Dev.portFault_frame _ _ _).reports (by decide) _ _).2 (Dev.raise_reports hup _ _ _)

end Sys2Proof.Machine

/-! PROOF. What the intake takes in: camera frames, kinematic samples and sensor frames (R50 to R53, R61 to R69, R77, R81). -/

namespace Sys2Proof.Machine

open Sys2Proof

/-! ## Writing an item -/

/-- A slot without what the writing of an item changes. -/
def Slot.unwritten (s : Slot) : Slot := { s with fifo := Fifo.reset, tag := 0, overflow := false }

/-- An item written to a slot's FIFO, or discarded, changes the slot's FIFO, its tag and its overflow mark alone. -/
theorem Dev.putItem_slot (d : Dev) (n : Nat) (len : Bool → Nat → Word) (cut : Bool) (st : BitVec 96) (data : List Byte) :
    ((d.putItem n len cut st data).1.slot n).unwritten = (d.slot n).unwritten := by
  unfold Dev.putItem Dev.fifoWrite
  by_cases hb : (d.slot n).fifo.blocked (d.maxItem n) = true
  · simp only [hb, if_true, Bool.false_eq_true, if_false]
    split <;> simp [Slot.unwritten]
  · simp [hb, Slot.unwritten]

theorem Dev.putItem_slotFrame (d : Dev) (n : Nat) (len : Bool → Nat → Word) (cut : Bool) (st : BitVec 96) (data : List Byte) :
    ((d.putItem n len cut st data).1.slot n).frame = (d.slot n).frame :=
  (congrArg Slot.frame (d.putItem_slot n len cut st data) :)

theorem Dev.putItem_seq (d : Dev) (n : Nat) (len : Bool → Nat → Word) (cut : Bool) (st : BitVec 96) (data : List Byte) :
    ((d.putItem n len cut st data).1.slot n).seq = (d.slot n).seq :=
  (congrArg Slot.seq (d.putItem_slot n len cut st data) :)

/-- R70: an item is written where the FIFO is not blocked. -/
theorem Dev.putItem_written {d : Dev} {n : Nat} (h : (d.slot n).fifo.blocked (d.maxItem n) = false) (len : Bool → Nat → Word) (cut : Bool)
    (st : BitVec 96) (data : List Byte) : (d.putItem n len cut st data).2 = true := by
  unfold Dev.putItem Dev.fifoWrite
  simp [h]

/-! ## Camera frames -/

/-- Classification leaves the frame in arrival. -/
theorem Dev.classify_slotFrame (d : Dev) (n : Nat) (x : Sample) : ((d.classify n x).slot n).frame = (d.slot n).frame := by
  unfold Dev.classify
  dsimp only
  split
  · simp [Slot.forget, Slot.heard]
  · split
    · simp [Slot.forget, Slot.heard]
    · split
      · unfold Dev.beyondSlot
        dsimp only
        split <;> simp [Slot.forget, Slot.heard]
      · simp [Slot.sampled, Slot.heard]

theorem Dev.closeFrame_none (d : Dev) (n : Nat) : ((d.closeFrame n).slot n).frame = none := by
  unfold Dev.closeFrame
  split
  next h => exact h
  next =>
    dsimp only
    split
    · simp [Dev.defective, Slot.forget]
    · split
      · simp [Slot.forget]
      · rw [Dev.classify_slotFrame, Dev.modSlot_slot]

theorem Dev.closeFrame_of_none {d : Dev} {n : Nat} (h : (d.slot n).frame = none) : d.closeFrame n = d := by
  unfold Dev.closeFrame
  rw [h]

/-- R50, R51: the frame that a frame start opens in a slot without one. -/
theorem csiFrameStart_opens {d : Dev} {p vc n : Nat} {h : HdrEcc} (hh : h ≠ .bad) (hs : d.csiSlots p vc = [n])
    (hf : (d.slot n).frame = none) :
    ((csiFrameStart p vc h d).slot n).seq = (d.slot n).seq + 1 ∧ ((csiFrameStart p vc h d).slot n).frame =
      some { stamp := d.stampOf 2 p, edge := d.exposedBy n (d.stampOf 2 p), valid := [], paid := 0 } := by
  unfold csiFrameStart Dev.csiItem
  rw [if_neg hh, hs]
  simp only [List.foldl_cons, List.foldl_nil]
  rw [Dev.closeFrame_of_none hf]
  rw [Dev.putItem_slotFrame, Dev.putItem_seq, Dev.modSlot_slot]
  exact ⟨rfl, rfl⟩

theorem csiLongPacket_marks {d : Dev} {p vc dt line n : Nat} {ls : Option Nat} {data : List Byte} {ok cut : Bool} {h : HdrEcc} {f : Frame}
    (hh : h ≠ .bad) (hdt : pixelType dt = true) (hs : d.csiSlots p vc = [n]) (hf : (d.slot n).frame = some f)
    (hl : line < d.slotRows n) (hb : (d.slot n).fifo.blocked (d.maxItem n) = false) :
    ((csiLongPacket p vc dt line ls data ok cut h d).slot n).frame = some { f with valid := setLine f.valid line (ok && !cut) } := by
  unfold csiLongPacket Dev.csiItem
  rw [if_neg hh, if_neg (by simp [hdt]), hs]
  simp only [List.foldl_cons, List.foldl_nil, hf]
  rw [if_neg (Nat.not_le.2 hl), Dev.modSlot_slot, Dev.putItem_written hb]
  rw [Dev.putItem_slotFrame]
  simp [hf]

theorem csiFrameEnd_closes {d : Dev} {p vc n : Nat} {h : HdrEcc} (hh : h ≠ .bad) (hs : d.csiSlots p vc = [n]) :
    ((csiFrameEnd p vc h d).slot n).frame = none := by
  unfold csiFrameEnd
  rw [if_neg hh, hs]
  exact Dev.closeFrame_none _ _

/-- Settles O7. -/
theorem cameraFrame : Obligations.CameraFrame := by
  unfold Obligations.CameraFrame
  exact ⟨fun s p vc h n hh hs hf => ⟨_, rfl, csiFrameStart_opens hh hs hf⟩,
    fun s p vc dt line ls data ok cut h n f hh hdt hs hf hl hb => ⟨_, rfl, csiLongPacket_marks hh hdt hs hf hl hb⟩,
    fun s p vc h n hh hs => ⟨_, rfl, csiFrameEnd_closes hh hs⟩⟩

/-! ## Kinematic samples -/

@[simp] theorem Dev.raise_kin (d : Dev) (c i x k : Nat) : (d.raise c i x).kin k = d.kin k := by simp [Dev.kin]

@[simp] theorem Dev.occur_kin (d : Dev) (i j k : Nat) : (d.occur i j).kin k = d.kin k := rfl

/-- A sample of a channel leaves the encoders, and the chip select of its own channel. -/
theorem Dev.kinSample_keeps (d : Dev) (k : Nat) (st : BitVec 96) (data : List Byte) (ph : Bool) :
    (d.kinSample k st data ph).intake.encoders = d.intake.encoders ∧ ((d.kinSample k st data ph).kin k).select = (d.kin k).select := by
  have hbump : d.bumpFree.kin k = d.kin k := rfl
  unfold Dev.kinSample
  dsimp only
  split
  · exact ⟨rfl, rfl⟩
  · repeat' split
    all_goals simp [hbump]

theorem Dev.kinTake_keeps (d : Dev) (k : Nat) (st : BitVec 96) (data : List Byte) (ph : Bool) (ups : List Upset) :
    (d.kinTake k st data ph ups).intake.encoders = d.intake.encoders ∧ ((d.kinTake k st data ph ups).kin k).select = (d.kin k).select := by
  have hrecord : (d.kinRecord k st data ups).1.intake = d.intake := (Dev.kinRecord_frame _ _ _ _ _).intake (by decide)
  unfold Dev.kinTake
  dsimp only
  split
  · obtain ⟨henc, hsel⟩ := Dev.kinSample_keeps (d.kinRecord k st data ups).1 k st data ph
    rw [henc, hsel, Dev.kin, hrecord]
    exact ⟨rfl, rfl⟩
  · rw [Dev.kin, hrecord]
    exact ⟨rfl, rfl⟩

theorem canBusFault_marks (c : Nat) (d : Dev) : c ∈ (canBusFault c d).intake.canBad := by
  unfold canBusFault
  split
  next h => simpa using h
  next =>
    dsimp only
    rw [foldl_keeps (g := fun d : Dev => d.intake.canBad) (by intros; simp)]
    simp

theorem spiPoll_polls {d : Dev} {k : Nat} (hs : isSpi (d.cfg (0x3100 + k) 1) = true) (hup : d.up = true) (hp : d.pollDue k = true) :
    spiPoll k d = (d.modKin k (fun c => { c with
        select := some (d.stampOf 5 (d.cfg (0x3100 + k) 1 - 0x10)), polled := some d.tick })).emit .spiCommand
      (d.cfg (0x3100 + k) 1 - 0x10) [k, d.cfg (0x3100 + k) 7, d.cfg (0x3100 + k) 5, d.cfg (0x3100 + k) 6] := by
  unfold spiPoll
  simp [hs, hup, hp]

theorem encoderLatch_counts (e : Nat) (n : Int) (ph z : Bool) (ups : List Upset) (d : Dev) :
    kget 0 (encoderLatch e n ph z ups d).intake.encoders e = sgn 32 (pat 32 (kget 0 d.intake.encoders e + n)) := by
  have hkeep : ∀ (d : Dev) (k : Nat) (c : Int), (if z || d.pollDue k then
      (if ph then ((if z then d else d.modKin k (fun c => { c with polled := some d.tick })).occur (0x3100 + k) 0x32).raise 0x020B k 0
        else if z then d else d.modKin k (fun c => { c with polled := some d.tick })).kinTake k
          (Dev.stampOf (if ph then ((if z then d else d.modKin k (fun c => { c with polled := some d.tick })).occur (0x3100 + k) 0x32).raise
            0x020B k 0 else if z then d else d.modKin k (fun c => { c with polled := some d.tick })) 6 e) (leBytes 4 (pat 32 c)) ph ups
      else d).intake.encoders = d.intake.encoders := by
    intro d k c
    split
    · rw [(Dev.kinTake_keeps _ _ _ _ _ _).1]
      split <;> split <;> simp
    · rfl
  unfold encoderLatch
  dsimp only
  rw [foldl_keeps (g := fun d : Dev => d.intake.encoders) (fun d k => hkeep d k _)]
  exact kget_kset_same

/-- A word as the FIFO stores it passes its own parity check. -/
theorem fifoWord_good (w : Word) : (fifoWord w).bad = false := by simp [FifoWord.bad, fifoWord]

/-- An item that nothing has upset has no bad word. -/
theorem badWords_makeItem (sample tag : Nat) (len : Word) (st : BitVec 96) (data : List Byte) :
    (makeItem sample tag len st data).badWords = [] := by
  unfold Item.badWords
  refine List.filter_eq_nil_iff.2 (fun k hk => ?_)
  unfold makeItem at hk ⊢
  rw [List.mem_range] at hk
  rw [List.getD_eq_getElem _ _ hk, List.getElem_map, fifoWord_good]
  exact Bool.false_ne_true

theorem Dev.kinTake_of_no_upset (d : Dev) (k : Nat) (st : BitVec 96) (data : List Byte) (ph : Bool) :
    d.kinTake k st data ph [] = d.kinSample k st data ph := by
  have hbad := badWords_makeItem 0 0 (lengthWord 3 false false false 0 0 0 data.length) st data
  unfold Dev.kinTake Dev.kinRecord Item.upset
  simp [hbad]

/-- The kinematic sample that a record with its reference time in the past gives (R53, R66, R81). -/
theorem Dev.kinSample_ring {d : Dev} {k : Nat} {st : BitVec 96} {data : List Byte}
    (hpast : ((List.range 8).map (fun j => d.cfg (0x3100 + k) (8 + j))).any (fun x => fieldPast x data) = false)
    (hkind : (List.range 8).all (fun j => fld (d.cfg (0x3100 + k) (8 + j)) 31 30 != 3) = true)
    (hnow : (stampNs st : Int) - d.cfgI (0x3100 + k) 0x20 ≤ d.now) (hep : stampEpoch st = d.time.epoch) (ph : Bool) :
    ∃ x rest, ((d.kinSample k st data ph).kin k).ring = x :: rest ∧ x.stamp = st ∧
      x.tv = (stampNs st : Int) - d.cfgI (0x3100 + k) 0x20 ∧ x.tick = d.tick ∧
      x.values = (List.range 8).map (fun j => d.fieldValue j (d.cfg (0x3100 + k) (8 + j)) data) := by
  have hnone : (List.range 8).find? (fun j => fld (((List.range 8).map (fun j => d.cfg (0x3100 + k) (8 + j))).getD j 0) 31 30 == 3) = none := by
    refine List.find?_eq_none.2 (fun j hj => ?_)
    have hj8 : j < 8 := List.mem_range.1 hj
    have := List.all_eq_true.1 hkind j hj
    simpa [hj8] using this
  have hscale : d.onScale (stampEpoch st) (stampNs st) = stampNs st := by
    unfold Dev.onScale
    rw [hep]
    exact if_neg (by simp)
  have hbump : ∀ e : Dev, e.bumpFree.kin k = e.kin k := fun _ => rfl
  have hvals : (List.range 8).map (fun j => if fld (((List.range 8).map (fun j => d.cfg (0x3100 + k) (8 + j))).getD j 0) 31 30 = 3 then none
      else ((List.range 8).map (fun j => d.fieldValue j (((List.range 8).map (fun j => d.cfg (0x3100 + k) (8 + j))).getD j 0) data)).getD j none)
      = (List.range 8).map (fun j => d.fieldValue j (d.cfg (0x3100 + k) (8 + j)) data) := by
    refine List.map_congr_left (fun j hj => ?_)
    have hj8 : j < 8 := List.mem_range.1 hj
    have := List.all_eq_true.1 hkind j hj
    simp [hj8] at this ⊢
    intro h
    exact absurd h this
  have hfull : ∀ (p : Prop) [Decidable p] (e : Dev) (i j c x : Nat), (if p then (e.occur i j).raise c x 0 else e).kin k = e.kin k := by
    intro p _ e i j c x
    split <;> simp
  unfold Dev.kinSample
  dsimp only
  rw [if_neg (by simpa using hpast), hnone]
  dsimp only
  rw [hscale, hvals, if_neg (by exact Int.not_lt.2 hnow)]
  split
  · rw [Dev.modKin_kin]
    exact ⟨_, _, rfl, rfl, rfl, rfl, rfl⟩
  · split
    · split
      · rw [Dev.occur_kin, Dev.modKin_kin]
        exact ⟨_, _, rfl, rfl, rfl, rfl, rfl⟩
      · rw [Dev.raise_kin, Dev.modKin_kin, Dev.occur_kin, Dev.modKin_kin]
        exact ⟨_, _, rfl, rfl, rfl, rfl, rfl⟩
    · rw [hfull, Dev.modKin_kin, Dev.modKin_kin]
      exact ⟨_, _, rfl, rfl, rfl, rfl, rfl⟩

/-- Settles O8. -/
theorem kinematicSources : Obligations.KinematicSources := by
  unfold Obligations.KinematicSources
  refine ⟨fun s c => ⟨_, rfl, canBusFault_marks c.val s.dev⟩, fun s c => ⟨_, rfl, by simp [canBusRecovered]⟩,
    fun s k hs hup hp => ⟨_, rfl, ?_⟩, fun s k data ups st hst => ⟨_, rfl, ?_⟩,
    fun s e n ph z ups => ⟨_, rfl, encoderLatch_counts e.val n ph z ups s.dev⟩,
    fun s c id ext data k hk hm hpast hkind hnow hep => ⟨_, rfl, ?_⟩⟩
  · beta_reduce
    rw [spiPoll_polls hs hup hp]
    have hkin : ∀ (d : Dev) o u l j, (d.emit o u l).kin j = d.kin j := fun _ _ _ _ _ => rfl
    simp [hkin]
  · unfold spiFrameReceived
    rw [hst]
    refine (Dev.kinTake_keeps _ _ _ _ _ _).2.trans ?_
    rw [Dev.modKin_kin]
  · unfold canFrame
    rw [hk]
    simp only [List.foldl_cons, List.foldl_nil, hm, if_true, Dev.kinTake_of_no_upset]
    exact Dev.kinSample_ring hpast hkind hnow hep false

/-! ## Sensor frames -/

/-- Writing an item leaves the values of the objects. -/
theorem Dev.putItem_vals (d : Dev) (n : Nat) (len : Bool → Nat → Word) (cut : Bool) (st : BitVec 96) (data : List Byte) :
    (d.putItem n len cut st data).1.dict.vals = d.dict.vals := by
  unfold Dev.putItem Dev.fifoWrite
  by_cases hb : (d.slot n).fifo.blocked (d.maxItem n) = true
  · simp only [hb, if_true, Bool.false_eq_true, if_false]
    split <;> simp
  · simp [hb]

/-- The points of a packet of a slot whose samples do not end at an azimuth (R77). -/
theorem Dev.addPoints_joins {w : List Word} (hw : wfld (w.getD 12 0) 63 62 ≠ 0) (n : Nat) :
    ∀ (l : List (ScanPoint × Option Nat)) (d : Dev),
      ((d.addPoints n w l).slot n).points = (d.slot n).points ++ l.map Prod.fst ∧
        ((d.addPoints n w l).slot n).packets = (d.slot n).packets ∧ ((d.addPoints n w l).slot n).discarded = (d.slot n).discarded ∧
        (d.addPoints n w l).dict.vals = d.dict.vals
  | [], d => by simp [Dev.addPoints]
  | q :: l, d => by
    have hstep : d.addPoints n w (q :: l) = (d.modSlot n (fun s => { s with
        points := s.points ++ [q.1], azimuth := if q.2.isSome then q.2 else s.azimuth })).addPoints n w l := by
      unfold Dev.addPoints
      rw [List.foldl_cons]
      split
      · rw [if_neg (fun h => hw h.1)]
      · rfl
    obtain ⟨hpts, hpk, hdis, hvals⟩ := Dev.addPoints_joins hw n l (d.modSlot n (fun s => { s with
        points := s.points ++ [q.1], azimuth := if q.2.isSome then q.2 else s.azimuth }))
    rw [hstep, hpts, hpk, hdis, hvals, Dev.modSlot_slot]
    exact ⟨by simp, rfl, rfl, rfl⟩

@[simp] theorem Dev.raiseIf_slot (d : Dev) (b : Bool) (c i x n : Nat) : (d.raiseIf b c i x).slot n = d.slot n := by
  unfold Dev.raiseIf
  split <;> simp

@[simp] theorem Dev.raiseIf_cfg (d : Dev) (b : Bool) (c i x j k : Nat) : (d.raiseIf b c i x).cfg j k = d.cfg j k := by
  unfold Dev.raiseIf
  split <;> simp

/-- The descriptor of a slot, and with it the maximum item, depends on the objects and on what memory reads alone. -/
theorem Dev.Frame.maxItem {l : List Part} {a b : Dev} (h : Dev.Frame l a b) (hs : Part.offLoads l = true)
    (hcfg : ∀ i j, b.cfg i j = a.cfg i j) (n : Nat) : b.maxItem n = a.maxItem n := by
  unfold Dev.maxItem Dev.slotDesc
  simp only [hcfg, h.loadW hs]

theorem Dev.kinsAt_of_cfg {a b : Dev} (hcfg : ∀ i j, b.cfg i j = a.cfg i j) (src : Nat) : b.kinsAt src = a.kinsAt src := by
  unfold Dev.kinsAt
  simp only [hcfg]

/-- What a packet that ends no sample does (R52, R66, R69, R77). -/
theorem Dev.scanPacket_joins {d : Dev} {n p : Nat} {f : EthFrame} (hm : packetMatches (d.decoder n) (ethContent f) = true)
    (hw : headerWhole (d.decoder n) (ethContent f) = true) (hfree : (d.slot n).fifo.blocked (d.maxItem n) = false)
    (hend : (wfld ((d.decoder n).getD 12 0) 63 62 = 1 ∧ (d.slot n).packets + 1 < wfld ((d.decoder n).getD 12 0) 31 16) ∨
      (wfld ((d.decoder n).getD 12 0) 63 62 = 2 ∧ endFlag (d.decoder n) (ethContent f) = false)) :
    ((d.scanPacket n p f).slot n).points = (d.slot n).points ++ d.pointTimes n
        ((decodePacket (d.decoder n) d.free (d.slot n).tag (ethContent f)).map Prod.fst) ∧
      ((d.scanPacket n p f).slot n).packets = (d.slot n).packets + 1 ∧
      ((d.scanPacket n p f).slot n).discarded = (d.slot n).discarded + invalidPoints (d.decoder n) d.free (ethContent f) ∧
      (d.scanPacket n p f).dict.vals = d.dict.vals := by
  have hmode : wfld ((d.decoder n).getD 12 0) 63 62 ≠ 0 := by
    intro h0
    rcases hend with ⟨h, -⟩ | ⟨h, -⟩ <;> omega
  unfold Dev.scanPacket
  rw [if_pos (by rw [hm, hw]; rfl)]
  dsimp only
  generalize hb : Dev.implausible d n _ = bad
  generalize he : Dev.raiseIf _ _ _ _ _ = e
  have hframe : Dev.Frame [.log, .dict, .power, .recd, .free] d e :=
    he ▸ ((Dev.bumpFree_frame d).mono (by decide)).trans ((Dev.raiseIf_frame _ _ _ _ _).mono (by decide))
  have hslot : e.slot n = d.slot n := by rw [← he, Dev.raiseIf_slot]; rfl
  have hcfg : ∀ i j, e.cfg i j = d.cfg i j := fun i j => by rw [← he, Dev.raiseIf_cfg]; rfl
  have hev : e.dict.vals = d.dict.vals := by
    rw [← he, Dev.raiseIf]
    split
    · exact Dev.raise_vals _ _ _ _
    · rfl
  have hok := Dev.putItem_written (by rw [hslot, hframe.maxItem (by decide) hcfg]; exact hfree)
    (fun t l => lengthWord 2 false false t 0 0 0 l) false (e.stampOf 1 p) (ethContent f)
  have hput := Dev.putItem_slot e n (fun t l => lengthWord 2 false false t 0 0 0 l) false (e.stampOf 1 p) (ethContent f)
  have hvals := Dev.putItem_vals e n (fun t l => lengthWord 2 false false t 0 0 0 l) false (e.stampOf 1 p) (ethContent f)
  generalize e.putItem n _ _ _ _ = x at hok hput hvals ⊢
  rw [if_pos hok]
  generalize hy : x.1.modSlot n _ = y
  have hyn : y.slot n = { x.1.slot n with
      packets := (x.1.slot n).packets + 1, discarded := (x.1.slot n).discarded + invalidPoints (d.decoder n) d.free (ethContent f) } := by
    rw [← hy, Dev.modSlot_slot]
  have hyv : y.dict.vals = x.1.dict.vals := by rw [← hy]; rfl
  obtain ⟨hpts, hpk, hdisc, hv⟩ := Dev.addPoints_joins hmode n ((decodePacket (d.decoder n) d.free (d.slot n).tag (ethContent f)).map
    (fun q => (d.pointTime n bad q.1, q.2))) y
  generalize y.addPoints n _ _ = z at hpts hpk hdisc hv ⊢
  have hxp : (x.1.slot n).packets = (d.slot n).packets := by rw [← hslot]; exact (congrArg Slot.packets hput :)
  have hzp : (z.slot n).packets = (d.slot n).packets + 1 := by rw [hpk, hyn, hxp]
  have hopen : z.packetEnds n (d.decoder n) (ethContent f) = false := by
    unfold Dev.packetEnds
    rcases hend with ⟨h, hlt⟩ | ⟨h, hflag⟩ <;> rw [h]
    · exact decide_eq_false (by omega)
    · exact hflag
  rw [if_neg (by rw [hopen]; decide)]
  refine ⟨?_, hzp, ?_, hv.trans (hyv.trans (hvals.trans hev))⟩
  · have hxs : (x.1.slot n).points = (d.slot n).points := by rw [← hslot]; exact (congrArg Slot.points hput :)
    rw [hpts, hyn]
    simp [hxs, Dev.pointTimes, hb, Function.comp_def]
  · have hxd : (x.1.slot n).discarded = (d.slot n).discarded := by rw [← hslot]; exact (congrArg Slot.discarded hput :)
    rw [hdisc, hyn]
    simp [hxd]

/-- A good frame that no CAN-style channel reads and one slot takes is scanned by that slot (R63). -/
theorem Dev.senFrame_scanned {d : Dev} {p n : Nat} {f : EthFrame} (hok : ethOk f = true) (hslots : d.senSlots p f.src = [n])
    (hnone : (d.scanPacket n p f).kinsAt (0x30 + p) = []) (ups : List Upset) : senFrame p f ups d = d.scanPacket n p f := by
  unfold senFrame
  rw [if_pos hok]
  simp only [hslots, List.foldl_cons, List.foldl_nil, hnone]

theorem Dev.scanPacket_unmatched {d : Dev} {n : Nat} {f : EthFrame}
    (h : (packetMatches (d.decoder n) (ethContent f) && headerWhole (d.decoder n) (ethContent f)) = false) (p : Nat) :
    d.scanPacket n p f = d.modSlot n (fun s => { s with discarded := s.discarded + 1 }) := by
  unfold Dev.scanPacket
  rw [if_neg (by rw [h]; decide)]

/-- Settles O9. -/
theorem sensorFrames : Obligations.SensorFrames := by
  refine ⟨fun s p f ups hbad => ⟨_, rfl, ?_⟩, fun s p f ups n hok hkin hslots hno => ⟨_, rfl, ?_⟩,
    fun s p f ups n hok hkin hslots hm hw hfree hend => ⟨_, rfl, ?_⟩⟩
  · exact if_neg (by rw [hbad]; decide)
  · have hscan := Dev.scanPacket_unmatched hno p.val
    show ((senFrame p f ups s.dev).slot n).discarded = _
    rw [Dev.senFrame_scanned hok hslots (by rw [hscan]; exact hkin), hscan, Dev.modSlot_slot]
  · obtain ⟨hpoints, hpackets, hdiscarded, hvals⟩ := Dev.scanPacket_joins (p := p.val) hm hw hfree hend
    have hcfg := Dev.cfg_of_vals hvals ((Dev.scanPacket_frame s.dev n p.val f).code (by decide))
    show ((senFrame p f ups s.dev).slot n).points = _ ∧ ((senFrame p f ups s.dev).slot n).packets = _ ∧
      ((senFrame p f ups s.dev).slot n).discarded = _
    rw [Dev.senFrame_scanned hok hslots (by rw [Dev.kinsAt_of_cfg hcfg]; exact hkin)]
    exact ⟨hpoints, hpackets, hdiscarded⟩

end Sys2Proof.Machine

/-! PROOF. The ping-pong FIFO, the time-slice table and the tensors of converted samples (R70 to R76, R374). -/

namespace Sys2Proof.Machine
open Sys2Proof

/-! The self-test passes: a chunk that ran. -/

theorem Dev.modCover_coverOf (d : Dev) (kind unit : Nat) (f : Coverage → Coverage) :
    (d.modCover kind unit f).coverOf kind unit = f (d.coverOf kind unit) := kget_kset_same

theorem Dev.modCover_coverOf_other (d : Dev) {kind unit k u : Nat} (h : 32 * k + u ≠ 32 * kind + unit) (f : Coverage → Coverage) :
    (d.modCover kind unit f).coverOf k u = d.coverOf k u := kget_kset_other h

/-- The end of a diagnostic pass writes only the pass's own unit 31 (R212). -/
theorem Dev.endDiag_coverOf (d : Dev) (kind : Nat) {k u : Nat} (h : 32 * k + u ≠ 32 * kind + 31) :
    (d.endDiag kind).coverOf k u = d.coverOf k u := by
  have hdemand : ∀ (e : Dev) (a b c : Nat), (e.demand a b c).coverOf k u = e.coverOf k u := fun e a b c => by
    simp only [Dev.coverOf, (Dev.demand_frame e a b c).cover (by decide)]
  have hmod : ∀ (e : Dev) (f : Coverage → Coverage), (e.modCover kind 31 f).coverOf k u = e.coverOf k u := fun e f =>
    Dev.modCover_coverOf_other e h f
  simp only [Dev.endDiag]
  split_ifs <;> simp only [hdemand, hmod]

theorem Dev.tested_coverOf (d : Dev) (kind : Nat) {unit : Nat} (h : unit ≠ 31) :
    (d.tested kind unit).coverOf kind unit = { d.coverOf kind unit with
      since := if (d.coverOf kind unit).pos = 0 then d.tick else (d.coverOf kind unit).since,
      pos := ((d.coverOf kind unit).pos + 1) % passChunks kind, admitted := false } := by
  rw [Dev.tested, Dev.endDiag_coverOf _ _ (by omega), Dev.modCover_coverOf]

/-! The pointer comparison (R70). -/

theorem Dev.pointerMismatch_slot {d : Dev} {n : Nat} (h : (d.slot n).state ≠ .disabled) :
    ((d.pointerMismatch n).slot n).state = .fault ∧
      ((d.pointerMismatch n).slot n).fifo = { Fifo.reset with resetRead := (d.slot n).fifo.stalled } := by
  have hreset : ((d.modSlot n Slot.resetQueue).raise 0x020A n 0).slot n = (d.slot n).resetQueue := by
    rw [Dev.raise_slot, Dev.modSlot_slot]
  rw [Dev.pointerMismatch, Dev.slotFault_slot (by rw [hreset]; exact h), hreset]
  exact ⟨rfl, rfl⟩

theorem Dev.fifoPointerCompare_eq {d : Dev} {n : Nat} (hrun : d.chunkRuns 3 0 = true) (hpos : (d.coverOf 3 0).pos = n) (differ : Bool) :
    fifoPointerCompare n differ d = (if differ || (d.slot n).fifo.differ then d.pointerMismatch n else d).tested 3 0 :=
  if_pos ⟨hrun, hpos⟩

/-! The time-slice engine (R71 to R74). -/

theorem Slot.take_fifo (s : Slot) (i : Item) : (s.take i).fifo = s.fifo := by
  unfold Slot.take
  split_ifs <;> rfl

theorem Slot.loseLine_fifo (s : Slot) (sample line : Nat) : (s.loseLine sample line).fifo = s.fifo := by
  unfold Slot.loseLine
  split_ifs <;> rfl

/-- Reading a bank moves neither the queue of a slot nor the engine's place in its table. -/
def Dev.Reading (n : Nat) (a b : Dev) : Prop :=
  (b.slot n).fifo = (a.slot n).fifo ∧ b.intake.entry = a.intake.entry ∧ b.intake.gated = a.intake.gated

theorem Dev.Reading.trans {n : Nat} {a b c : Dev} (h : Dev.Reading n a b) (g : Dev.Reading n b c) : Dev.Reading n a c :=
  ⟨g.1.trans h.1, g.2.1.trans h.2.1, g.2.2.trans h.2.2⟩

theorem Dev.modSlot_reading (d : Dev) (n : Nat) {f : Slot → Slot} (hf : ∀ s, (f s).fifo = s.fifo) : Dev.Reading n d (d.modSlot n f) :=
  ⟨by rw [Dev.modSlot_slot, hf], rfl, rfl⟩

theorem Dev.badWord_reading (d : Dev) (n : Nat) (i : Item) (k : Nat) : Dev.Reading n d (d.badWord n i k) := by
  unfold Dev.badWord
  split
  · exact d.modSlot_reading n (fun s => s.loseLine_fifo _ _)
  · exact d.modSlot_reading n (fun _ => rfl)
  · exact ⟨rfl, rfl, rfl⟩

theorem Dev.foldl_reading {β : Type} {n : Nat} {f : Dev → β → Dev} (hf : ∀ d x, Dev.Reading n d (f d x)) :
    ∀ (l : List β) (d : Dev), Dev.Reading n d (l.foldl f d)
  | [], _ => ⟨rfl, rfl, rfl⟩
  | x :: l, d => (hf d x).trans (Dev.foldl_reading hf l (f d x))

theorem Dev.readItems_reading (n : Nat) (upsets : List Upset) :
    ∀ (items : List Item) (base : Nat) (d : Dev), Dev.Reading n d (d.readItems n base upsets items)
  | [], _, _ => ⟨rfl, rfl, rfl⟩
  | i :: t, base, d => by
    have hreport : ∀ (d : Dev) (_ : Nat), Dev.Reading n d ((d.occur (0x3000 + n) 0x33).raise 0x0209 n 0) := fun d _ =>
      ⟨by simp, by simp, by simp⟩
    simp only [Dev.readItems]
    split
    · exact (Dev.foldl_reading hreport _ d).trans (Dev.foldl_reading (fun d x => d.badWord_reading n x 0) _ _)
    · exact (((Dev.foldl_reading hreport _ d).trans (Dev.modSlot_reading _ n (fun s => s.take_fifo _))).trans
        (Dev.foldl_reading (fun d k => d.badWord_reading n _ k) _ _)).trans (Dev.readItems_reading n upsets t _ _)

theorem Fifo.setBank_bank (f : Fifo) (b : Bool) (l : List Item) : (f.setBank b l).bank b = l := by cases b <;> rfl

theorem Fifo.setBank_rBank (f : Fifo) (b : Bool) (l : List Item) : (f.setBank b l).rBank = f.rBank ∧ (f.setBank b l).wBank = f.wBank := by
  cases b <;> exact ⟨rfl, rfl⟩

/-- What the queue is once the bank it reads has been read out (R71). -/
def Fifo.readOut (f : Fifo) (begun : Bool) : Fifo :=
  let g := (f.setBank f.rBank []).advanceR (bankWords (f.bank f.rBank))
  if g.rBank = g.wBank then { g with stalled := (f.bank f.rBank).isEmpty && begun } else { g with rBank := !g.rBank, otherFree := true }

theorem Fifo.readOut_bank (f : Fifo) (begun : Bool) : (f.readOut begun).bank f.rBank = [] := by
  unfold Fifo.readOut
  have hfree := f.setBank_bank f.rBank []
  dsimp only
  split
  · exact hfree
  · exact hfree

theorem Fifo.readOut_released {f : Fifo} (h : f.rBank ≠ f.wBank) (begun : Bool) :
    (f.readOut begun).rBank = !f.rBank ∧ (f.readOut begun).otherFree = true := by
  obtain ⟨hr, hw⟩ := f.setBank_rBank f.rBank []
  have hne : ¬ ((f.setBank f.rBank []).advanceR (bankWords (f.bank f.rBank))).rBank =
      ((f.setBank f.rBank []).advanceR (bankWords (f.bank f.rBank))).wBank := by
    show ¬ (f.setBank f.rBank []).rBank = (f.setBank f.rBank []).wBank
    rw [hr, hw]
    exact h
  rw [Fifo.readOut, if_neg hne]
  exact ⟨congrArg Bool.not hr, rfl⟩

theorem Dev.work_slot (d : Dev) (n clocks : Nat) :
    ((d.work n clocks).slot n).fifo = (d.slot n).fifo ∧ ((d.work n clocks).slot n).samples = (spend clocks (d.slot n).samples).1 := by
  rw [Dev.work, Dev.modSlot_slot]
  exact ⟨rfl, rfl⟩

theorem Dev.serveSlot_fifo (d : Dev) (n clocks : Nat) (upsets : List Upset) :
    ∃ begun, ((d.serveSlot n clocks upsets).slot n).fifo = (d.slot n).fifo.readOut begun := by
  obtain ⟨hread, -, -⟩ := Dev.readItems_reading n upsets ((d.slot n).fifo.bank (d.slot n).fifo.rBank) 0 d
  refine ⟨((d.readItems n 0 upsets ((d.slot n).fifo.bank (d.slot n).fifo.rBank)).slot n).begun, ?_⟩
  rw [Dev.serveSlot, (Dev.work_slot _ _ _).1, Dev.modSlot_slot]
  dsimp only
  rw [hread]
  rfl

theorem Dev.serveSlot_entry (d : Dev) (n clocks : Nat) (upsets : List Upset) :
    (d.serveSlot n clocks upsets).intake.entry = d.intake.entry ∧ (d.serveSlot n clocks upsets).intake.gated = d.intake.gated := by
  obtain ⟨-, hentry, hgated⟩ := Dev.readItems_reading n upsets ((d.slot n).fifo.bank (d.slot n).fifo.rBank) 0 d
  exact ⟨hentry, hgated⟩

theorem Dev.serveSlot_samples {d : Dev} {n : Nat} (h : (d.slot n).fifo.bank (d.slot n).fifo.rBank = []) (clocks : Nat) (upsets : List Upset) :
    ((d.serveSlot n clocks upsets).slot n).samples = (spend clocks (d.slot n).samples).1 := by
  rw [Dev.serveSlot, (Dev.work_slot _ _ _).2, Dev.modSlot_slot, h]
  rfl

/-- Settles O10. -/
theorem fifoAndSlices : Obligations.FifoAndSlices := by
  refine ⟨fun s n differ hrun hpos hstate => ⟨_, rfl, ?_⟩, fun s n h => ⟨_, rfl, ?_⟩, fun s ups e he hidle => ⟨_, rfl, ?_⟩,
    fun s ups e n he hn hbusy => ⟨_, rfl, ?_⟩⟩
  · beta_reduce
    rw [Dev.fifoPointerCompare_eq hrun hpos]
    set d := s.dev
    generalize hx : (if differ || (d.slot n.val).fifo.differ then d.pointerMismatch n.val else d) = x
    have hcover : x.coverOf 3 0 = d.coverOf 3 0 := by
      rw [← hx]
      split
      · simp only [Dev.coverOf, (Dev.pointerMismatch_frame d n.val).cover (by decide)]
      · rfl
    have htested := Dev.tested_coverOf x 3 (unit := 0) (by decide)
    have hintake : (x.tested 3 0).intake = x.intake := (x.tested_frame 3 0).intake (by decide)
    have hslot : (x.tested 3 0).slot n.val = x.slot n.val := by simp only [Dev.slot, hintake]
    refine ⟨?_, ?_, ?_⟩
    · rw [htested, hcover, ← hpos]
      rfl
    · rw [Dev.chunkRuns, htested]
    · by_cases hd : differ = true ∨ (d.slot n.val).fifo.differ = true
      · rw [if_pos hd, hslot, ← hx, if_pos (by simpa using hd)]
        exact Dev.pointerMismatch_slot hstate
      · rw [if_neg hd, hintake, ← hx, if_neg (by simpa using hd)]
  · beta_reduce
    rw [fifoReadResume, Dev.modSlot_slot, if_pos (by simpa using h)]
  · show timesliceEntry ups s.dev = _
    simp only [timesliceEntry, he]
    rw [if_pos hidle]
    simp [hidle]
  · show (timesliceEntry ups s.dev).intake.entry = _ ∧ _
    subst hn
    have hserve : timesliceEntry ups s.dev = ({ s.dev with intake := { s.dev.intake with entry := e, gated := false } } : Dev).serveSlot
        (s.dev.sliceAt e / 256) (256 * (s.dev.sliceAt e % 256)) ups := by
      simp only [timesliceEntry, he]
      rw [if_neg hbusy, decide_eq_false hbusy]
      rfl
    rw [hserve]
    obtain ⟨hentry, hgated⟩ := Dev.serveSlot_entry ({ s.dev with intake := { s.dev.intake with entry := e, gated := false } } : Dev)
      (s.dev.sliceAt e / 256) (256 * (s.dev.sliceAt e % 256)) ups
    obtain ⟨begun, hfifo⟩ := Dev.serveSlot_fifo ({ s.dev with intake := { s.dev.intake with entry := e, gated := false } } : Dev)
      (s.dev.sliceAt e / 256) (256 * (s.dev.sliceAt e % 256)) ups
    refine ⟨hentry, hgated, ?_, fun hne => ?_, fun hempty => Dev.serveSlot_samples (by exact hempty) _ _⟩
    · rw [hfifo]
      exact Fifo.readOut_bank _ _
    · rw [hfifo]
      exact Fifo.readOut_released hne _

/-! A converted sample (R75). -/

theorem Dev.checkIntake_slot (d : Dev) (n : Nat) : d.checkIntake.slot n = d.slot n := by
  simp only [Dev.slot, (Dev.checkIntake_frame d).intake (by decide)]

@[simp] theorem Dev.modDeliv_slot (d : Dev) (c : Nat) (f : Deliv → Deliv) (n : Nat) : (d.modDeliv c f).slot n = d.slot n := rfl

theorem Dev.writeIntake_slot (d : Dev) (n : Nat) (camera : Bool) (rows : List LineRead) (t : IntakeTensor) (j : Nat) :
    (d.writeIntake n camera rows t).slot j = d.slot j := by
  simp only [Dev.slot, (Dev.writeIntake_frame d n camera rows t).intake (by decide)]

theorem Dev.sampleConversionComplete_camera {d : Dev} {n : Nat} {x : Sample} {rest : List Sample} (hs : (d.slot n).samples = x :: rest)
    (hcam : x.camera = true) (hconv : (d.slot n).converted x = true)
    (hlines : invalidLines (d.slotRows n) x.lines ≤ d.cfg (0x3000 + n) 7) :
    ((sampleConversionComplete n d).slot n).samples = rest ∧
      ∃ t, ((sampleConversionComplete n d).slot n).tensor = some t ∧ t.cycle = x.sink.toNat ∧ t.tv = x.tv ∧ t.told = x.told ∧
        t.lines = x.lines ∧ t.tstate = x.tstate ∧ t.lateness = x.lateness.toNat ∧ t.masked = d.maskedIn x.sink.toNat n := by
  have hgood : ¬ (x.camera = true ∧ (d.modSlot n (fun s => { s.forget x.seq with samples := rest })).cfg (0x3000 + n) 7 <
      invalidLines ((d.modSlot n (fun s => { s.forget x.seq with samples := rest })).slotRows n) x.lines) := fun h =>
    absurd h.2 (Nat.not_lt.2 hlines)
  have hlate : (max 0 x.lateness).toNat = x.lateness.toNat := by omega
  unfold sampleConversionComplete
  simp only [hs]
  rw [if_neg (by rw [hconv]; decide), if_neg hgood]
  simp only [hcam, if_true, Option.isNone_some, Dev.raiseIf, if_neg Bool.false_ne_true]
  rw [Dev.checkIntake_slot, Dev.writeIntake_slot, Dev.modDeliv_slot, Dev.modSlot_slot]
  refine ⟨?_, _, rfl, rfl, rfl, rfl, rfl, rfl, hlate, rfl⟩
  rw [Dev.modSlot_slot]

/-! The intake deadline (R374). -/

/-- The cycles in flight once the intake of cycle `c` has ended, or is complete. -/
def CycleCtx.ended (c : Nat) (y : CycleCtx) : CycleCtx := if y.number = c then { y with intakeEnded := true } else y

def CycleCtx.done (c : Nat) (y : CycleCtx) : CycleCtx := if y.number = c then { y with intakeDone := true } else y

theorem Dev.intakeComplete_flight (d : Dev) (c : Nat) : (d.intakeComplete c).cyc.flight = d.cyc.flight.map (CycleCtx.done c) := by
  have hsignal : ∀ (e : Dev) (o i : Nat) (b : Bool) (k : Nat), (e.signal o i b k).cyc = e.cyc := fun e o i b k =>
    (e.signal_frame o i b k).cyc (by decide)
  have hgen : ∀ (e : Dev) (k : Nat), (e.genFault k).cyc = e.cyc := fun e k => (e.genFault_frame k).cyc (by decide)
  cases hp : d.prog.prog with
  | none =>
    simp only [Dev.intakeComplete, hp]
    split_ifs <;> simp only [hgen, Dev.raise_cyc] <;> rfl
  | some p =>
    simp only [Dev.intakeComplete, hp]
    split_ifs <;> simp only [hgen, Dev.raise_cyc, hsignal] <;> rfl

/-- A sample that stays waits for a later cycle (R62, R374). -/
theorem Dev.carryOver_sinks (d : Dev) (n c : Nat) : ∀ y ∈ ((d.carryOver n c).slot n).samples, (c : Int) < y.sink := by
  have hbeyond : ∀ e : Dev, ((e.beyondSlot n).slot n).samples = (e.slot n).samples := fun e => by
    simp only [Dev.beyondSlot]
    split_ifs
    · rfl
    · rw [Dev.raise_slot, Dev.modSlot_slot]
      rfl
  unfold Dev.carryOver
  refine List.foldlRecOn (motive := fun e : Dev => ∀ y ∈ (e.slot n).samples, (c : Int) < y.sink) _ _ ?_ ?_
  · rw [Dev.modSlot_slot]
    exact fun y hy => absurd hy List.not_mem_nil
  · intro e he x _ y hy
    dsimp only at hy
    by_cases hsink : x.sink ≤ (c : Int)
    · rw [if_pos hsink] at hy
      split at hy
      · rw [hbeyond, Dev.modSlot_slot] at hy
        exact he y hy
      · rw [Dev.modSlot_slot, List.mem_append, List.mem_singleton] at hy
        rcases hy with hy | rfl
        · exact he y hy
        · unfold Sample.sink
          dsimp only
          split_ifs <;> omega
    · rw [if_neg hsink] at hy
      rw [Dev.modSlot_slot, List.mem_append, List.mem_singleton] at hy
      rcases hy with hy | rfl
      · exact he y hy
      · exact not_le.1 hsink

theorem Dev.carryOver_slot_other (d : Dev) (n c j : Nat) (h : j ≠ n) : (d.carryOver n c).slot j = d.slot j := by
  have hbeyond : ∀ e : Dev, (e.beyondSlot n).slot j = e.slot j := fun e => by
    simp only [Dev.beyondSlot]
    split_ifs
    · rfl
    · rw [Dev.raise_slot, Dev.modSlot_slot_other _ _ _ _ h]
      rfl
  unfold Dev.carryOver
  rw [foldl_keeps (g := fun e : Dev => e.slot j) fun e x => ?_, Dev.modSlot_slot_other _ _ _ _ h]
  dsimp only
  split
  · split
    · rw [hbeyond, Dev.modSlot_slot_other _ _ _ _ h]
    · rw [Dev.modSlot_slot_other _ _ _ _ h]
  · rw [Dev.modSlot_slot_other _ _ _ _ h]

theorem Dev.carryOver_cyc (d : Dev) (n c : Nat) : (d.carryOver n c).cyc = d.cyc := (d.carryOver_frame n c).cyc (by decide)

/-- The device at the intake deadline of cycle `x`, before that cycle's intake is complete. -/
def Dev.intakeEnds (d : Dev) (x : CycleCtx) : Dev :=
  ((List.range (slotsOf d.code)).foldl (fun (d : Dev) n => d.carryOver n x.number)
    { d with cyc := { d.cyc with flight := d.cyc.flight.map (CycleCtx.ended x.number) } }).raiseIf (d.waitsFor x.number) 0x020E 0 0

theorem Dev.intakeEnds_flight (d : Dev) (x : CycleCtx) :
    (d.intakeEnds x).cyc.flight = d.cyc.flight.map (CycleCtx.ended x.number) := by
  rw [Dev.intakeEnds, (Dev.raiseIf_frame _ _ _ _ _).cyc (by decide),
    foldl_keeps (g := fun e : Dev => e.cyc) (by intros; exact Dev.carryOver_cyc _ _ _)]

theorem Dev.intakeEnds_sinks (d : Dev) (x : CycleCtx) {n : Nat} (h : n < slotsOf d.code) :
    ∀ y ∈ ((d.intakeEnds x).slot n).samples, (x.number : Int) < y.sink := by
  obtain ⟨e, he, -, -⟩ := foldl_at (f := fun (d : Dev) n => d.carryOver n x.number) (get := Dev.slot) (g := fun d : Dev => d.cyc)
    (fun d n j hj => d.carryOver_slot_other n _ j hj) (fun d n => d.carryOver_cyc n _) (List.range (slotsOf d.code)) List.nodup_range
    (List.mem_range.2 h) { d with cyc := { d.cyc with flight := d.cyc.flight.map (CycleCtx.ended x.number) } }
  rw [Dev.intakeEnds, Dev.raiseIf_slot, he]
  exact e.carryOver_sinks n x.number

theorem intakeCompletionDeadline_eq {d : Dev} {x : CycleCtx} (hx : d.deadlineCycle = some x)
    (hdue : x.tick + usTicks (d.cfg 0x5000 7) ≤ d.tick) :
    intakeCompletionDeadline d = if x.intakeDone then d.intakeEnds x else (d.intakeEnds x).intakeComplete x.number := by
  simp only [intakeCompletionDeadline, hx]
  rw [if_pos hdue]
  rfl

theorem intakeCompletionDeadline_flight {d : Dev} {x : CycleCtx} (hx : d.deadlineCycle = some x)
    (hdue : x.tick + usTicks (d.cfg 0x5000 7) ≤ d.tick) {y : CycleCtx} (hy : y ∈ (intakeCompletionDeadline d).cyc.flight)
    (hnum : y.number = x.number) : y.intakeEnded = true ∧ (x.intakeDone = false → y.intakeDone = true) := by
  have hended : ∀ z : CycleCtx, (z.ended x.number).number = x.number → (z.ended x.number).intakeEnded = true := fun z hz => by
    unfold CycleCtx.ended at hz ⊢
    split_ifs at hz ⊢
    · rfl
    · contradiction
  rw [intakeCompletionDeadline_eq hx hdue] at hy
  cases hd : x.intakeDone with
  | true =>
    rw [hd, if_pos rfl, Dev.intakeEnds_flight, List.mem_map] at hy
    obtain ⟨z, -, rfl⟩ := hy
    exact ⟨hended z hnum, nofun⟩
  | false =>
    rw [hd, if_neg Bool.false_ne_true, Dev.intakeComplete_flight, Dev.intakeEnds_flight, List.mem_map] at hy
    obtain ⟨w, hw, rfl⟩ := hy
    obtain ⟨z, -, rfl⟩ := List.mem_map.1 hw
    have hz : (z.ended x.number).number = x.number := by
      by_contra hne
      rw [CycleCtx.done, if_neg hne] at hnum
      exact hne hnum
    rw [CycleCtx.done, if_pos hz]
    exact ⟨hended z hz, fun _ => rfl⟩

/-- Settles O11. -/
theorem intakeConversion : Obligations.IntakeConversion := by
  refine ⟨fun s n x rest hs hcam hconv hlines => ⟨_, rfl, Dev.sampleConversionComplete_camera hs hcam hconv hlines⟩,
    fun s x hx hdue => ⟨_, rfl, fun y hy hnum => intakeCompletionDeadline_flight hx hdue hy hnum, fun n hn y hy => ?_⟩⟩
  refine s.dev.intakeEnds_sinks x hn y ?_
  have hslot : (intakeCompletionDeadline s.dev).slot n = (s.dev.intakeEnds x).slot n := by
    rw [intakeCompletionDeadline_eq hx hdue]
    split
    · rfl
    · simp only [Dev.slot, (Dev.intakeComplete_frame _ _).intake (by decide)]
  exact hslot ▸ hy

end Sys2Proof.Machine

/-! PROOF. The sync fabric's operations (R214 to R216, R218). -/

namespace Sys2Proof.Machine
open Sys2Proof

/-- The waiters that a release leaves were waiting before, and those of its object wait for a count not reached. -/
theorem Dev.releaseWaiters_waiters (d : Dev) (o : Nat) {w : Waiter} (hw : w ∈ (d.releaseWaiters o).sync.waiters) :
    w ∈ d.sync.waiters ∧ (w.obj = o → waitResult (d.syncObj o) w.threshold = none) := by
  have hkeep : ∀ (l : List Waiter) (e : Dev), (l.foldl (fun (e : Dev) x => e.waitReturn x.who o
      ((waitResult (d.syncObj o) x.threshold).getD waitOk)) e).sync = e.sync :=
    foldl_keeps (g := fun e : Dev => e.sync) (by intros; rfl)
  unfold Dev.releaseWaiters at hw
  dsimp only at hw
  rw [hkeep, List.mem_filter] at hw
  obtain ⟨hmem, hnot⟩ := hw
  refine ⟨hmem, fun hobj => ?_⟩
  simpa [hobj] using hnot

/-- A signal ends with a release of the object's waiters. -/
theorem Dev.signal_releases (d : Dev) (o inc : Nat) (err : Bool) (cause : Nat) :
    ∃ e : Dev, d.signal o inc err cause = e.releaseWaiters o ∧ e.sync.waiters = d.sync.waiters := by
  have hraise : ∀ (w : Word) (b : Bool), ((d.setSync o w).raiseIf b 0x0607 0 o).sync = (d.setSync o w).sync := fun w b =>
    (Dev.raiseIf_frame _ _ _ _ _).sync (by decide)
  unfold Dev.signal
  refine ⟨_, rfl, ?_⟩
  have hgen : ∀ (e : Dev) (p : Prop) [Decidable p], (if p then e.genFault cause else e).sync = e.sync := fun e p _ => by
    split <;> rfl
  rw [hgen, hraise, Dev.setSync_sync]

theorem Dev.signal_waiters (d : Dev) (o inc : Nat) (err : Bool) (cause : Nat) {w : Waiter}
    (hw : w ∈ (d.signal o inc err cause).sync.waiters) :
    w ∈ d.sync.waiters ∧ (w.obj = o → waitResult ((d.signal o inc err cause).syncObj o) w.threshold = none) := by
  obtain ⟨e, he, hwaiters⟩ := d.signal_releases o inc err cause
  rw [he] at hw ⊢
  obtain ⟨hmem, hwait⟩ := e.releaseWaiters_waiters o hw
  exact ⟨hwaiters ▸ hmem, fun hobj => by rw [Dev.releaseWaiters_syncObj]; exact hwait hobj⟩

theorem syncWait_met {d : Dev} {who : SyncIssuer} {obj th r : Nat} (howned : d.syncOwned who.partition obj = true)
    (h : waitResult (d.syncObj obj) th = some r) (to_ : Nat) : syncWait who obj th to_ d = d.waitReturn who.number obj r := by
  rw [syncWait, if_pos howned, h]

theorem syncWait_waits {d : Dev} {who : SyncIssuer} {obj th : Nat} (howned : d.syncOwned who.partition obj = true)
    (h : waitResult (d.syncObj obj) th = none) (to_ : Nat) :
    syncWait who obj th to_ d = { d with sync := { d.sync with waiters := d.sync.waiters ++
      [{ who := who.number, obj := obj, threshold := th, due := if to_ = 0 then none else some (d.tick + to_) }] } } := by
  rw [syncWait, if_pos howned, h]

theorem syncTimeout_ends {d : Dev} {who : SyncIssuer} {obj t : Nat} {w : Waiter} (hup : d.up = true) (hw : w ∈ d.sync.waiters)
    (hwho : w.who = who.number) (hobj : w.obj = obj) (hdue : w.due = some t) (ht : t ≤ d.tick)
    (hnone : waitResult (d.syncObj obj) w.threshold = none) :
    w ∉ (syncTimeout who obj d).sync.waiters ∧ (syncTimeout who obj d).Reports 0x0608 who.number ∧
      (syncTimeout who obj d).out.head? = some { kind := .syncResult, unit := who.number, tag := 0, data := [obj, waitTimeout] } := by
  unfold syncTimeout
  dsimp only
  split
  · refine ⟨?_, ?_, rfl⟩
    · show w ∉ (Dev.raise _ _ _ _).sync.waiters
      rw [Dev.raise_sync, List.mem_filter]
      simp [hwho, hobj, hdue, ht, hnone]
    · exact Dev.raise_reports (by exact hup) _ _ _
  · next hfind =>
    have hno := List.find?_eq_none.1 hfind w hw
    simp [hwho, hobj, hdue, ht, hnone] at hno

theorem barrierArrive_syncObj {d : Dev} {g o n : Nat} (h : d.prog.prog.bind (fun p => p.barriers[g]?) = some (o, n)) (who : SyncIssuer)
    (err : Bool) (j : Nat) : (barrierArrive who g err d).syncObj j = (d.signal o 1 err 0x0602).syncObj j := by
  simp only [barrierArrive, h]
  split <;> rfl

/-- Settles O12. -/
theorem syncWords : Obligations.SyncWords := by
  refine ⟨fun s who obj inc err cause howned => ⟨_, rfl, ?_⟩, fun s who obj th to_ howned => ⟨_, rfl, ?_⟩,
    fun s who obj v howned => ⟨_, rfl, ?_⟩, fun s obj => ⟨_, rfl, rfl, rfl⟩,
    fun s who obj w t hup hw hwho hobj hdue ht hnone => ⟨_, rfl, syncTimeout_ends hup hw hwho hobj hdue ht hnone⟩,
    fun s who g err o n hg => ⟨_, rfl, ?_⟩⟩
  · have heq : syncSignal who obj inc err cause.toNat s.dev = s.dev.signal obj inc err cause.toNat := if_pos howned
    beta_reduce
    rw [heq]
    refine ⟨by rw [Dev.signal_syncObj, if_pos rfl], fun w hw => Dev.signal_waiters _ _ _ _ _ hw⟩
  · beta_reduce
    cases h : waitResult (s.dev.syncObj obj) th with
    | some r =>
      rw [syncWait_met howned h]
      exact ⟨rfl, rfl⟩
    | none =>
      rw [syncWait_waits howned h]
      exact ⟨rfl, rfl⟩
  · have heq : syncReset who obj v.toNat s.dev = s.dev.syncResetTo obj v.toNat := if_pos howned
    beta_reduce
    rw [heq, Dev.syncResetTo, Dev.releaseWaiters_syncObj, Dev.setSync_syncObj]
  · beta_reduce
    rw [barrierArrive_syncObj hg, Dev.signal_syncObj, if_pos rfl]

end Sys2Proof.Machine

/-! PROOF. Self-test chunks, spares and coverage alarms (R158 to R161, R211, R212, R329, R348). -/

namespace Sys2Proof.Machine
open Sys2Proof

/-! What a read in error leaves of the memory. -/

/-- The memory without the marks that a read in error sets. -/
def Memory.unread (m : Memory) : Memory := { m with corrected := [], hits := [], backs := [], poisoned := [] }

theorem Dev.eccRead_unread (d : Dev) (e : EccEvent) : (d.eccRead e).mem.unread = d.mem.unread := by
  unfold Dev.eccRead
  split
  · rfl
  · dsimp only
    unfold Dev.poisonRead
    rw [Dev.raise_mem]
    split <;> rfl

theorem Dev.eccReads_unread (d : Dev) (l : List EccEvent) : (d.eccReads l).mem.unread = d.mem.unread :=
  foldl_keeps (g := fun d : Dev => d.mem.unread) (by intros; exact Dev.eccRead_unread _ _) l d

theorem Dev.eccRead_up (d : Dev) (e : EccEvent) : (d.eccRead e).up = d.up := by
  unfold Dev.eccRead
  split
  · rfl
  · dsimp only
    unfold Dev.poisonRead
    rw [Dev.raise_up]
    split <;> rfl

theorem Dev.eccReads_up (d : Dev) (l : List EccEvent) : (d.eccReads l).up = d.up :=
  foldl_keeps (g := Dev.up) (by intros; exact Dev.eccRead_up _ _) l d

/-! A region whose test ends. -/

/-- The device at the end of a region's test, before its pass moves on. -/
def Dev.readRegion (d : Dev) (key : Nat) (ecc : List EccEvent) : Dev :=
  let d := (d.eccReads (ecc.filter (fun e => regionOf e.word == key))).countRegion
  { d with mem := { d.mem with hits := kset 0 d.mem.hits key 0 } }

theorem Dev.endTest_eq (d : Dev) (kind unit key : Nat) (early : Bool) (ecc : List EccEvent) :
    d.endTest kind unit key early ecc =
      if early then (d.readRegion key ecc).dropChunk kind unit else (d.readRegion key ecc).tested kind unit := rfl

theorem Dev.readRegion_mem (d : Dev) (key : Nat) (ecc : List EccEvent) :
    (d.readRegion key ecc).mem.tested = satU 64 (d.mem.tested + 1) ∧ (d.readRegion key ecc).mem.bytes = d.mem.bytes ∧
      (d.readRegion key ecc).mem.spares = d.mem.spares ∧ kget 0 (d.readRegion key ecc).mem.hits key = 0 := by
  have h := d.eccReads_unread (ecc.filter (fun e => regionOf e.word == key))
  have htested : (d.eccReads (ecc.filter (fun e => regionOf e.word == key))).mem.tested = d.mem.tested := (congrArg Memory.tested h :)
  unfold Dev.readRegion Dev.countRegion
  dsimp only
  exact ⟨by rw [htested], (congrArg Memory.bytes h :), (congrArg Memory.spares h :), kget_kset_same⟩

theorem Dev.readRegion_cover (d : Dev) (key : Nat) (ecc : List EccEvent) : (d.readRegion key ecc).cover = d.cover :=
  (d.eccReads_frame _).cover (by decide)

theorem Dev.readRegion_up (d : Dev) (key : Nat) (ecc : List EccEvent) : (d.readRegion key ecc).up = d.up := d.eccReads_up _

theorem Dev.endTest_mem (d : Dev) (kind unit key : Nat) (early : Bool) (ecc : List EccEvent) :
    (d.endTest kind unit key early ecc).mem = (d.readRegion key ecc).mem := by
  rw [Dev.endTest_eq]
  split
  · rfl
  · exact (Dev.tested_frame _ _ _).mem (by decide)

theorem Dev.endTest_up (d : Dev) (kind unit key : Nat) (early : Bool) (ecc : List EccEvent) :
    (d.endTest kind unit key early ecc).up = d.up := by
  rw [← d.readRegion_up key ecc, Dev.endTest_eq]
  split
  · rfl
  · simp only [Dev.up, (Dev.tested_frame _ _ _).power (by decide)]

theorem bankInfo_unit (b : Bank) : (bankInfo b).2.2.2.2 ≠ 31 := by
  cases b <;> simp only [bankInfo] <;> omega

theorem memtestRegionComplete_passes {d : Dev} {b : Bank} {region : Nat} {early : Bool}
    (hrun : d.chunkRuns (bankInfo b).2.2.2.1 (bankInfo b).2.2.2.2 = true)
    (hnext : d.nextRegion (bankInfo b).2.2.2.1 (bankInfo b).2.2.2.2 = ((bankInfo b).1 * 4096 + region, early)) (ecc : List EccEvent) :
    memtestRegionComplete b region false ecc d =
      d.endTest (bankInfo b).2.2.2.1 (bankInfo b).2.2.2.2 ((bankInfo b).1 * 4096 + region) early ecc := by
  simp only [memtestRegionComplete, Dev.testRegion, hnext]
  rw [if_neg (by rw [hrun]; simp), if_pos (by decide)]

theorem memtestRegionComplete_fails {d : Dev} {b : Bank} {region : Nat} {early : Bool}
    (hrun : d.chunkRuns (bankInfo b).2.2.2.1 (bankInfo b).2.2.2.2 = true)
    (hnext : d.nextRegion (bankInfo b).2.2.2.1 (bankInfo b).2.2.2.2 = ((bankInfo b).1 * 4096 + region, early))
    (hspare : kget 0 d.mem.spares (bankInfo b).1 < (bankInfo b).2.2.1) (ecc : List EccEvent) :
    memtestRegionComplete b region true ecc d =
      ((d.endTest (bankInfo b).2.2.2.1 (bankInfo b).2.2.2.2 ((bankInfo b).1 * 4096 + region) early ecc).useSpare
        (bankInfo b).1 ((bankInfo b).1 * 4096 + region)).raise 0x0503 (bankInst b) ((bankInfo b).1 * 4096 + region) := by
  have hleft : kget 0 (d.endTest (bankInfo b).2.2.2.1 (bankInfo b).2.2.2.2 ((bankInfo b).1 * 4096 + region) early ecc).mem.spares
      (bankInfo b).1 < (bankInfo b).2.2.1 := by
    rw [Dev.endTest_mem, (d.readRegion_mem _ _).2.2.1]
    exact hspare
  simp only [memtestRegionComplete, Dev.testRegion, hnext]
  rw [if_neg (by rw [hrun]; simp), if_neg (by decide), if_pos hleft]

/-! An engine, or the checker, that fails its test. -/

theorem Dev.endJob_out (d : Dev) (e : Nat) (r : RunJob) (rec : Option Done) (err : Bool) :
    ((d.endJob e r rec err).solver e).out = (d.solver e).out := by
  unfold Dev.endJob
  dsimp only
  have hfinish : ∀ (x : Dev) (k : Ticket) (p : Option Nat) (b : Bool) (c : Nat), (x.finish k p b c).solvers = x.solvers := fun x k p b c =>
    (Dev.finish_frame x k p b c).solvers (by decide)
  simp only [Dev.solver, hfinish]
  split
  · rw [(Dev.storeA_frame _ _ _ _).solvers (by decide)]
    rw [Dev.modSolver, kget_kmod_same]
  · rw [Dev.modSolver, kget_kmod_same]

theorem Dev.faultJob_out (d : Dev) (e : Nat) (r : RunJob) (cause : Nat) : ((d.faultJob e r cause).solver e).out = (d.solver e).out := by
  unfold Dev.faultJob
  dsimp only
  rw [Dev.endJob_out]
  simp only [Dev.solver, (Dev.modFusN_frame _ _).solvers (by decide), (Dev.markFaulted_frame _ _ _).solvers (by decide)]

theorem Dev.engineOut_out (d : Dev) (e : Nat) : ((d.engineOut e).solver e).out = true := by
  unfold Dev.engineOut
  split
  · assumption
  · dsimp only
    split
    · rw [Dev.faultJob_out, Dev.modSolver_solver]
    · rw [Dev.modSolver_solver]

theorem Dev.hullFault_stops {d : Dev} (hinv : d.Inv) (hup : d.up = true) (src cause inst : Nat) :
    (d.hullFault src cause inst).Stopped ∧ (d.hullFault src cause inst).hull.fault = true ∧ (d.hullFault src cause inst).Reports cause inst := by
  have hfault : ({ d with hull := { d.hull with fault := true } } : Dev).Inv := hinv
  refine ⟨Dev.demand_stopped (((Dev.raise_frame _ _ _ _).inv (by decide)).2 hfault) _ _, ?_, ?_⟩
  · rw [Dev.hullFault, Dev.demand_fault, Dev.raise_hull]
  · exact (Dev.demand_reports _ _ _ _ _ _).2 (Dev.raise_reports (by exact hup) _ _ _)

/-! A chunk that falls due. -/

theorem selftestChunkDue_eq {d : Dev} {kind unit : Nat} (hup : d.up = true) (hunit : (d.testUnits kind).contains unit = true)
    (hidle : d.chunkRuns kind unit = false) (hdue : (d.coverOf kind unit).due + usTicks (d.cfg 0xB200 (kind + 1)) ≤ d.tick) :
    selftestChunkDue kind unit d = if d.chunkFits kind unit then
        d.modCover kind unit (fun x => { x with deferred := false, admitted := true, due := d.tick })
      else (d.modCover kind unit (fun x => { x with deferred := true, due := d.tick })).occur 0xB203 (kind + 1) := by
  have hidle' : (d.coverOf kind unit).admitted = false := hidle
  unfold selftestChunkDue
  simp only [hup, hunit, hidle', hdue, decide_true, Bool.true_or, if_true, Bool.true_eq_false, Bool.false_eq_true, false_or, if_false]

/-- Settles O14. -/
theorem selfTests : Obligations.SelfTests := by
  refine ⟨fun s b region ecc hrun hnext => ⟨_, rfl, ?_⟩, fun s b region ecc hrun hnext => ⟨_, rfl, ?_⟩, fun s hrun => ⟨_, rfl, ?_⟩,
    fun s e hup hin hrun => ⟨_, rfl, ?_⟩, fun s k hrun hpos => ⟨_, rfl, ?_⟩, fun s kind unit hup hunit hidle hdue => ⟨_, rfl, ?_⟩,
    fun s b region ecc early hup hrun hnext hspare => ⟨_, rfl, ?_⟩, fun s e hup hin hrun => ⟨_, rfl, ?_⟩,
    fun s hinv hup hrun => ⟨_, rfl, ?_⟩, fun s kind hup hage hlate => ⟨_, rfl, ?_⟩, fun s kind hup hage hex => ⟨_, rfl, ?_⟩⟩
  · beta_reduce
    rw [memtestRegionComplete_passes hrun hnext]
    obtain ⟨htested, hbytes, -, hhits⟩ := s.dev.readRegion_mem ((bankInfo b).1 * 4096 + region) ecc
    rw [Dev.endTest_mem]
    have hcover := Dev.tested_coverOf (s.dev.readRegion ((bankInfo b).1 * 4096 + region) ecc) (bankInfo b).2.2.2.1 (bankInfo_unit b)
    refine ⟨htested, hbytes, hhits, ?_, ?_⟩
    · rw [Dev.endTest_eq, if_neg (by decide), Dev.chunkRuns, hcover]
    · rw [Dev.endTest_eq, if_neg (by decide), hcover]
      simp only [Dev.coverOf, Dev.readRegion_cover]
  · beta_reduce
    rw [memtestRegionComplete_passes hrun hnext]
    obtain ⟨htested, -, -, hhits⟩ := s.dev.readRegion_mem ((bankInfo b).1 * 4096 + region) ecc
    rw [Dev.endTest_mem]
    refine ⟨htested, hhits, ?_⟩
    rw [Dev.endTest_eq, if_pos rfl, Dev.dropChunk, Dev.modCover_coverOf]
    simp only [Dev.coverOf, Dev.readRegion_cover]
  · have heq : hullCheckerTest true s.dev = s.dev.tested 4 0 := by
      rw [hullCheckerTest, if_neg (by rw [hrun]; decide), if_pos rfl]
    beta_reduce
    rw [heq, Dev.tested_coverOf _ _ (by decide)]
    rfl
  · have heq : solverSelftest e.val true s.dev = s.dev.tested 5 e.val := by
      rw [solverSelftest, if_neg (by simp [hup, hin, hrun]), if_pos rfl]
    beta_reduce
    rw [heq, Dev.tested_coverOf _ _ (by omega)]
    rfl
  · have heq : syncFabricTest k.val true s.dev = s.dev.tested 6 0 := by
      rw [syncFabricTest, if_pos ⟨hrun, hpos⟩, if_pos rfl]
    beta_reduce
    rw [heq, Dev.tested_coverOf _ _ (by decide), hpos]
    rfl
  · beta_reduce
    rw [selftestChunkDue_eq hup hunit hidle hdue]
    cases hfit : s.dev.chunkFits kind.val unit.val with
    | true =>
      rw [if_pos rfl, Dev.modCover_coverOf]
      exact ⟨rfl, rfl, rfl, rfl⟩
    | false =>
      rw [if_neg Bool.false_ne_true]
      have hkept : ((s.dev.modCover kind.val unit.val (fun x => { x with deferred := true, due := s.dev.tick })).occur 0xB203
          (kind.val + 1)).coverOf kind.val unit.val = { s.dev.coverOf kind.val unit.val with deferred := true, due := s.dev.tick }  := by
        rw [Dev.coverOf, (Dev.occur_frame _ _ _).cover (by decide)]
        exact Dev.modCover_coverOf _ _ _ _
      rw [hkept, Dev.occur_ev]
      exact ⟨rfl, hidle, rfl, rfl⟩
  · beta_reduce
    rw [memtestRegionComplete_fails hrun hnext hspare]
    refine ⟨Dev.raise_reports ?_ _ _ _, ?_⟩
    · exact (Dev.endTest_up _ _ _ _ _ _).trans hup
    · rw [Dev.raise_mem]
      unfold Dev.useSpare
      rw [kget_kmod_same, Dev.endTest_mem, (s.dev.readRegion_mem _ _).2.2.1]
  · beta_reduce
    rw [solverSelftest, if_neg (by simp [hup, hin, hrun]), if_neg (by decide)]
    exact Dev.engineOut_out _ _
  · beta_reduce
    rw [hullCheckerTest, if_neg (by rw [hrun]; decide), if_neg (by decide)]
    exact Dev.hullFault_stops (d := s.dev.dropChunk 4 0) hinv hup _ _ _
  · beta_reduce
    rw [coverageLate, if_pos ⟨hage, hlate⟩]
    refine ⟨Dev.raise_reports (by exact hup) _ _ _, ?_⟩
    simp only [Dev.coverOf, Dev.raise_cover]
    exact congrArg Coverage.late (Dev.modCover_coverOf _ _ _ _)
  · beta_reduce
    rw [diagIntervalExceeded, if_pos ⟨hage, hex⟩]
    refine ⟨(Dev.protect_reports _ _ _ _ _ _).2 (Dev.raise_reports (by exact hup) _ _ _), ?_⟩
    simp only [Dev.coverOf, (Dev.protect_frame _ _ _ _).cover (by decide), Dev.raise_cover]
    exact congrArg Coverage.exceeded (Dev.modCover_coverOf _ _ _ _)

end Sys2Proof.Machine

/-! PROOF. The rotation of the resting Pod, golden frames, and the resends of links (R20, R143, R380 to R387). -/

namespace Sys2Proof.Machine
open Sys2Proof

/-! Counters and reports. -/

@[simp] theorem Dev.occurAll_counters (l : List (Nat × Nat)) (d : Dev) : (d.occurAll l).dict.counters = d.dict.counters :=
  foldl_keeps (g := fun d : Dev => d.dict.counters) (by intros; rfl) l d

@[simp] theorem Dev.logFault_counters (d : Dev) (c i x : Nat) : (d.logFault c i x).dict.counters = d.dict.counters := by
  unfold Dev.logFault
  dsimp only
  split
  · split <;> rfl
  · rfl

@[simp] theorem Dev.raise_counter (d : Dev) (c i x j k : Nat) : (d.raise c i x).counter j k = d.counter j k := by
  have h : (d.raise c i x).dict.counters = d.dict.counters := by
    unfold Dev.raise
    split
    · rw [Dev.occurAll_counters, Dev.logFault_counters]
    · rfl
  simp only [Dev.counter, h]

/-! A Pod that goes out. -/

/-- A Pod without its windows, which a Pod that goes out hands to the resting one. -/
def Pod.unwindowed (x : Pod) : Pod := { x with windows := [] }

/-- A Pod that goes out (R109, R384). -/
def Pod.goesOut (x : Pod) : Pod :=
  { x with state := .out, logical := none, engine := none, acc := [], cores := [], pll := false, gateWaits := false, gatedNow := false,
           waking := false }

/-- Pod `p` is `x` but for its windows, and the mesh links that are down are those of `l`. -/
def Dev.GoneOut (p : Nat) (l : List Nat) (x : Pod) (d : Dev) : Prop := (d.pod p).unwindowed = x.unwindowed ∧ d.pods.meshDown = l

theorem Dev.GoneOut.of_fields {p : Nat} {l : List Nat} {x : Pod} {a b : Dev} (h : Dev.GoneOut p l x a) (hp : b.pods.pods = a.pods.pods)
    (hm : b.pods.meshDown = a.pods.meshDown) : Dev.GoneOut p l x b := by
  unfold Dev.GoneOut Dev.pod at *
  rw [hp, hm]
  exact h

theorem Dev.GoneOut.of_pods {p : Nat} {l : List Nat} {x : Pod} {a b : Dev} (h : Dev.GoneOut p l x a) (hp : b.pods = a.pods) : Dev.GoneOut p l x b :=
  h.of_fields (by rw [hp]) (by rw [hp])

theorem Dev.GoneOut.raise {p : Nat} {l : List Nat} {x : Pod} {d : Dev} (h : Dev.GoneOut p l x d) (c i y : Nat) : Dev.GoneOut p l x (d.raise c i y) :=
  h.of_pods (Dev.raise_pods _ _ _ _)

theorem Dev.GoneOut.shortage {p : Nat} {l : List Nat} {x : Pod} {d : Dev} (h : Dev.GoneOut p l x d) (c i y src tier cause : Nat) :
    Dev.GoneOut p l x ((d.raise c i y).protect src tier cause) :=
  (h.raise c i y).of_pods ((Dev.protect_frame _ _ _ _).pods (by decide))

theorem Dev.GoneOut.windows {p : Nat} {l : List Nat} {x : Pod} {d : Dev} (h : Dev.GoneOut p l x d) (r : Nat) (w : Store Window) :
    Dev.GoneOut p l x (d.modPod r (fun x => { x with windows := w })) := by
  refine ⟨?_, h.2⟩
  by_cases hr : p = r
  · subst hr
    rw [Dev.modPod_pod]
    exact h.1
  · rw [Dev.modPod_pod_other _ _ _ _ hr]
    exact h.1

theorem Dev.takeOut_goneOut {d : Dev} {p : Nat} (hout : ¬ ((d.pod p).state = .out ∨ podsOf d.code ≤ p)) :
    Dev.GoneOut p d.pods.meshDown (d.pod p).goesOut (d.takeOut p) := by
  unfold Dev.takeOut
  rw [if_neg hout]
  dsimp only
  generalize he : Dev.modPod (d.cutPod p) p _ = e
  have hgone : Dev.GoneOut p d.pods.meshDown (d.pod p).goesOut e := by
    rw [← he]
    have hcut : (d.cutPod p).pod p = d.pod p := by rw [Dev.pod, (d.cutPod_frame p).pods (by decide)]; rfl
    refine ⟨by rw [Dev.modPod_pod, hcut]; rfl, ?_⟩
    show (d.cutPod p).pods.meshDown = _
    rw [(d.cutPod_frame p).pods (by decide)]
  have hspoil : ∀ x : Dev, Dev.GoneOut p d.pods.meshDown (d.pod p).goesOut x → Dev.GoneOut p d.pods.meshDown (d.pod p).goesOut (x.spoil 0x030A) := fun x hx =>
    hx.of_pods ((Dev.spoil_frame _ _).pods (by decide))
  generalize hf : ({ e with mem := _, pods := _ } : Dev) = f
  have hfgone : Dev.GoneOut p d.pods.meshDown (d.pod p).goesOut f := hf ▸ hgone.of_fields rfl rfl
  split
  · split
    · refine Dev.GoneOut.shortage ?_ _ _ _ _ _ _
      exact (hfgone.raise 0x030D p 0).of_fields rfl rfl
    · exact hfgone.raise _ _ _
  · split
    · exact hfgone
    · split
      · refine Dev.GoneOut.raise ?_ _ _ _
        exact ((hspoil f hfgone).windows _ _).of_fields rfl rfl
      · refine Dev.GoneOut.shortage ?_ _ _ _ _ _ _
        exact (hspoil f hfgone).of_fields rfl rfl

theorem Dev.takeOut_meshDown (d : Dev) (p : Nat) : (d.takeOut p).pods.meshDown = d.pods.meshDown := by
  by_cases hout : (d.pod p).state = .out ∨ podsOf d.code ≤ p
  · rw [Dev.takeOut, if_pos hout]
  · exact (Dev.takeOut_goneOut hout).2

theorem Dev.takeOut_state {d : Dev} {p : Nat} (hp : p < podsOf d.code) : ((d.takeOut p).pod p).state = .out := by
  by_cases hout : (d.pod p).state = .out ∨ podsOf d.code ≤ p
  · rw [Dev.takeOut, if_pos hout]
    exact hout.resolve_right (by omega)
  · exact (congrArg Pod.state (Dev.takeOut_goneOut hout).1 :)

/-- A Pod that goes out ends what it does; one that cannot go out keeps it. -/
theorem Dev.takeOut_idle {d : Dev} {p : Nat} (h : (d.pod p).engine = none) : ((d.takeOut p).pod p).engine = none := by
  by_cases hout : (d.pod p).state = .out ∨ podsOf d.code ≤ p
  · rw [Dev.takeOut, if_pos hout]
    exact h
  · exact (congrArg Pod.engine (Dev.takeOut_goneOut hout).1 :)

/-! The handover (R382). -/

theorem handover_pods {d : Dev} {t r o l : Nat} (hdue : d.pods.due = some t) (hr : d.resting = some r) (ho : d.outgoing = some o)
    (hl : (d.pod o).logical = some l) (hfits : d.handoverFits l = true) (heng : (d.pod o).engine = none)
    (hcores : (d.pod o).cores.all (fun c => c.2.isNone) = true) (hmov : d.mover o = Mover.reset) (hrep : d.pods.replace = none) :
    (handover d).pods.due = none ∧ ∀ j, (handover d).pod j =
      ((d.modPod r (fun x => { x with state := .active, logical := some l, windows := (d.pod o).windows, golden := 0, pll := (d.pod o).pll })).modPod o
        (fun x => { x with state := .resting, logical := none, windows := [], golden := 0, acc := [], cores := [],
                           gateWaits := false, gatedNow := false, waking := false })).pod j := by
  unfold handover
  simp only [hdue, hr, ho, hl]
  rw [if_pos (by simp only [hfits, heng, hcores, hmov, hrep]; rfl)]
  exact ⟨rfl, fun _ => rfl⟩

/-! Resends. -/

theorem Dev.modDesc_desc {d : Dev} {m i : Nat} {a : Accepted} (h : (d.mover m).groups.head?.bind (fun g => g.descs[i]?) = some a)
    (f : Accepted → Accepted) : ((d.modDesc m i f).mover m).groups.head?.bind (fun g => g.descs[i]?) = some (f a) := by
  rw [Dev.modDesc, Dev.modMover_mover]
  cases hg : (d.mover m).groups with
  | nil => simp [hg] at h
  | cons g t =>
    rw [hg] at h
    simp only [List.head?_cons, Option.bind_some] at h
    simp [h]

/-- The device after a link's transfer whose resends all fail, before the link is removed (R387). -/
def Dev.transferFails (d : Dev) (link ctr n : Nat) (lost : Option (Nat × Nat)) (cause : Nat) : Dev :=
  ((d.countN 0xB000 ctr n).resend link n).loseMove lost cause

theorem Dev.linkFailed_all (d : Dev) (link : Nat) : d.linkFailed link true = true := rfl

theorem meshTransferCrcFail_removes {d : Dev} {router dir : Nat} (h : 4 * router + dir ∉ d.pods.meshDown) (lost : Option (Nat × Nat)) :
    4 * router + dir ∈ (meshTransferCrcFail router dir true lost d).pods.meshDown := by
  unfold meshTransferCrcFail
  dsimp only
  rw [if_neg (by simpa using h), if_pos (Dev.linkFailed_all _ _)]
  generalize hx : Dev.raise _ _ _ _ = x
  have hdown : 4 * router + dir ∈ x.pods.meshDown := by
    rw [← hx, Dev.raise_pods]
    exact mem_sins.2 (Or.inl rfl)
  split
  · exact hdown
  · rw [Dev.takeOut_meshDown]
    exact hdown

theorem coreIoTransferCrcFail_removes {d : Dev} {link : Nat} (h : link ∉ d.pods.coreDown) (lost : Option (Nat × Nat)) :
    coreIoTransferCrcFail link true lost d =
      ({ d.transferFails (100 + link) 8 4 lost 0x040A with pods := { (d.transferFails (100 + link) 8 4 lost 0x040A).pods with
        coreDown := sins link (d.transferFails (100 + link) 8 4 lost 0x040A).pods.coreDown } } : Dev).raise 0x040A link 0 := by
  unfold coreIoTransferCrcFail
  dsimp only
  rw [if_neg (by simpa using h), if_pos (Dev.linkFailed_all _ _)]
  rfl

/-- Settles O15. -/
theorem podsAndLinks : Obligations.PodsAndLinks := by
  refine ⟨fun s hup hrest hnone hdue => ⟨_, rfl, ?_⟩, fun s t r o l hdue hr ho hne hl hfits heng hcores hmov hrep => ⟨_, rfl, ?_⟩,
    fun s t hup hdue ht hst => ⟨_, rfl, ?_⟩, fun s p hrun hlast => ⟨_, rfl, ?_⟩, fun s p ok seen hp hrun hbad => ⟨_, rfl, ?_⟩,
    fun s r dir lost hlink => ⟨_, rfl, ?_⟩, fun s k lost hup hlink => ⟨_, rfl, ?_⟩, fun s k lost hlink => ⟨_, rfl, ?_⟩⟩
  all_goals beta_reduce
  · rw [rotationDue, if_pos (by simp [hup, hrest, hnone, hdue])]
  · obtain ⟨hnone, hpod⟩ := handover_pods hdue hr ho hl hfits heng hcores hmov hrep
    rw [hpod r, hpod o, Dev.modPod_pod_other _ _ _ _ hne, Dev.modPod_pod, Dev.modPod_pod]
    exact ⟨hnone, rfl, rfl, rfl, rfl, rfl⟩
  · simp only [rotationStalled, hdue]
    rw [if_pos ⟨ht, hst⟩]
    exact ⟨Dev.raise_reports (by exact hup) _ _ _, by rw [Dev.raise_pods]⟩
  · have hgolden : (((s.dev.modPod p.val (fun x => { x with golden := x.golden + 1 })).dropChunk 7 p.val).pod p.val).golden =
        (s.dev.pod p.val).golden + 1 := congrArg Pod.golden (Dev.modPod_pod s.dev p.val _)
    unfold goldenFrame
    rw [if_pos hrun, if_pos (by decide)]
    dsimp only
    rw [if_neg (by rw [hgolden]; exact hlast)]
    exact hgolden
  · unfold goldenFrame
    rw [if_pos hrun, if_neg (by rw [hbad]; decide)]
    exact Dev.takeOut_state (by rw [Dev.raise_code]; exact hp)
  · exact meshTransferCrcFail_removes hlink _
  · rw [coreIoTransferCrcFail_removes hlink]
    refine ⟨?_, Dev.raise_reports ?_ _ _ _, ?_, fun m i a hlost ha h0 => ?_⟩
    · rw [Dev.raise_pods]
      exact mem_sins.2 (Or.inl rfl)
    · cases lost <;> exact hup
    · rw [Dev.raise_counter]
      cases lost <;> exact Dev.countN_counter _ _ _ _
    · subst hlost
      have hdesc := Dev.modDesc_desc (d := (s.dev.countN 0xB000 8 4).resend (100 + k.val) 4) ha
        (fun a => if a.lost = 0 then { a with lost := 0x040A } else a)
      rw [if_pos h0] at hdesc
      simp only [Dev.mover, Dev.raise_movers]
      exact hdesc
  · have hcount : ∀ e : Dev, (e.raise 0x040A k.val 0).counter 0xB000 8 = e.counter 0xB000 8 := fun e => Dev.raise_counter _ _ _ _ _ _
    unfold coreIoTransferCrcFail
    dsimp only
    rw [if_neg (by simpa using hlink), if_neg Bool.false_ne_true, if_neg Bool.false_ne_true]
    split
    · rw [hcount]
      exact Dev.countN_counter _ _ _ _
    · exact Dev.countN_counter _ _ _ _

end Sys2Proof.Machine

/-! PROOF. Upkeep of the on-chip memories and of the DDR5 (R148, R165 to R169). -/

namespace Sys2Proof.Machine
open Sys2Proof

/-- A report stands in the fault log and names the cycle; nothing else of the device bears on it. -/
theorem Dev.Reports.of_log {a b : Dev} {c i : Nat} (h : a.Reports c i) (hl : b.log = a.log) (hc : b.cyc = a.cyc) : b.Reports c i := by
  unfold Dev.Reports Dev.newest at *
  rw [hl, hc]
  exact h

/-- A burst of the mover's oldest group whose write fails for good (R166): it is reported, and marked with its descriptor. -/
theorem ddrWriteCrcAlert_fails {d : Dev} {mv i addr n : Nat} {g : FenceGroup} {t : List FenceGroup} {a : Accepted} (hn : 3 ≤ n)
    (hg : (d.mover mv).groups = g :: t) (ha : g.descs[i]? = some a) (hc : a.cause = 0)
    (hrow : (d.rowKeys (d.moverOwn mv) ((d.tdescAt (d.moverOwn mv) (mdesc a.words).dst).boxRows (mdesc a.words).dd
      ((mdesc a.words).dstExt.map Int.ofNat))).any (fun r =>
        decide (r.1 < 3 * 2 ^ 44 + addr / 64 * 64 + 64) && decide (3 * 2 ^ 44 + addr / 64 * 64 < r.2)) = true) :
    ddrWriteCrcAlert mv i addr n d = (d.raise 0x0507 (27 + ddrChannel d.code addr) (addr / 64 * 64)).modDesc mv i
      (fun a => { a with bursts := sins (3 * 2 ^ 44 + addr / 64 * 64) a.bursts }) := by
  simp only [ddrWriteCrcAlert, hg, ha]
  rw [if_neg]
  rw [hc, hrow]
  simp
  omega

theorem patrolRead_due {d : Dev} {addr : Nat} (hlive : d.ddrLive = true) (ha : addr = d.ddr.patrol) (wp : Bool) :
    patrolRead addr .good wp d = d.patrolNext addr ∧
      patrolRead addr .corrected wp d = (d.patrolCorrected (3 * 2 ^ 44 + addr) wp).patrolNext addr := by
  unfold patrolRead
  exact ⟨if_pos ⟨hlive, ha⟩, if_pos ⟨hlive, ha⟩⟩

/-- Every reading of the temperatures settles the refresh rate and its own time (R168). -/
theorem ddrTemperatureRead_doubled {d : Dev} (hen : d.power.enDdr = true) (hdue : d.ddr.tempTick + msTicks 16 ≤ d.tick) (l : List Int) (m : Int) :
    (ddrTemperatureRead l m d).ddr.doubled = l.any (fun t => decide (85 ≤ t)) ∧ (ddrTemperatureRead l m d).ddr.tempTick = d.tick := by
  have hprotect : ∀ (e : Dev) (a b c : Nat), (e.protect a b c).ddr = e.ddr := fun e a b c => (Dev.protect_frame e a b c).ddr (by decide)
  have hdemand : ∀ (e : Dev) (a b c : Nat), (e.demand a b c).ddr = e.ddr := fun e a b c => (Dev.demand_frame e a b c).ddr (by decide)
  unfold ddrTemperatureRead
  rw [if_pos ⟨hen, hdue⟩]
  dsimp only
  split
  · split
    · exact ⟨rfl, rfl⟩
    · simp only [hprotect, Dev.raise_ddr, and_self]
  · split
    · split
      · split
        · simp only [hdemand, and_self]
        · exact ⟨rfl, rfl⟩
      · exact ⟨rfl, rfl⟩
    · exact ⟨rfl, rfl⟩

/-- The report and the demand of a memory that becomes too hot (R168). -/
def Dev.notesHeat (d : Dev) : Dev := if d.ddr.hot then d else (d.raise 0x050A 0 0).protect srcDdrHot (d.cfg 0xB120 2) 0x050A

theorem Dev.notesHeat_reports {d : Dev} (hup : d.up = true) (hcold : d.ddr.hot = false) : d.notesHeat.Reports 0x050A 0 := by
  rw [Dev.notesHeat, if_neg (by rw [hcold]; decide)]
  exact (Dev.protect_reports _ _ _ _ _ _).2 (Dev.raise_reports hup _ _ _)

theorem ddrTemperatureRead_hot {d : Dev} (hen : d.power.enDdr = true) (hdue : d.ddr.tempTick + msTicks 16 ≤ d.tick) {l : List Int} {m : Int}
    (hhot : l.any (fun t => decide (m < t)) = true) :
    (ddrTemperatureRead l m d).ddr.hot = true ∧ (d.up = true → d.ddr.hot = false → (ddrTemperatureRead l m d).Reports 0x050A 0) := by
  obtain ⟨x, hup, hcold, hx⟩ : ∃ x : Dev, x.up = d.up ∧ x.ddr.hot = d.ddr.hot ∧
      ddrTemperatureRead l m d = { x.notesHeat with ddr := { x.notesHeat.ddr with hot := true, coolSince := none } } := by
    refine ⟨{ d with ddr := { d.ddr with tempTick := d.tick, doubled := l.any (fun t => decide (85 ≤ t)) } }, rfl, rfl, ?_⟩
    unfold ddrTemperatureRead
    rw [if_pos ⟨hen, hdue⟩]
    exact if_pos hhot
  rw [hx]
  exact ⟨rfl, fun hu hc => (Dev.notesHeat_reports (hup.trans hu) (hcold.trans hc)).of_log rfl rfl⟩

/-- Settles O16. -/
theorem memoryUpkeep : Obligations.MemoryUpkeep := by
  refine ⟨fun s w => ⟨_, rfl, fun h => (mem_sdel.1 h).2 rfl, rfl⟩, fun s m i addr n g t a hup hn hg ha hc hrow => ⟨_, rfl, ?_⟩,
    fun s l hlive hdue => ⟨_, rfl, ?_⟩, fun s hlive hdue => ⟨_, rfl, ?_⟩, fun s addr wp hlive ha hmore => ⟨_, rfl, ?_⟩,
    fun s addr wp hlive ha => ⟨_, rfl, ?_⟩, fun s hup hlive hlate hdue => ⟨_, rfl, ?_⟩, fun s l m hen hdue => ⟨_, rfl, ?_⟩⟩
  · beta_reduce
    rw [ddrWriteCrcAlert_fails hn hg ha hc hrow]
    refine ⟨((Dev.modDesc_frame _ _ _ _).reports (by decide) _ _).2 (Dev.raise_reports hup _ _ _), ?_, ?_⟩
    · rw [(Dev.modDesc_frame _ _ _ _).mem (by decide), Dev.raise_mem]
    · refine Dev.modDesc_desc ?_ (fun a => { a with bursts := sins (3 * 2 ^ 44 + addr / 64 * 64) a.bursts })
      simp only [Dev.mover, Dev.raise_movers] at hg ⊢
      rw [hg]
      exact ha
  · beta_reduce
    rw [ddrOscillatorRead, if_pos (by simp [hlive, hdue])]
    exact ⟨rfl, rfl⟩
  · beta_reduce
    rw [zqCalibration, if_pos (by simp [hlive, hdue])]
  · beta_reduce
    rw [(patrolRead_due hlive ha wp).1, Dev.patrolNext, if_pos hmore]
  · beta_reduce
    rw [(patrolRead_due hlive ha wp).2, (Dev.patrolNext_frame _ _).mem (by decide), Dev.patrolCorrected]
    rw [kget_kmod_same (α := Nat)]
  · beta_reduce
    rw [patrolLate, if_pos ⟨hlive, hlate, hdue⟩]
    exact ⟨Dev.raise_reports (by exact hup) _ _ _, by rw [Dev.raise_ddr]⟩
  · obtain ⟨hdoubled, htick⟩ := ddrTemperatureRead_doubled hen hdue l m
    exact ⟨hdoubled, htick, ddrTemperatureRead_hot hen hdue⟩

end Sys2Proof.Machine

/-! PROOF. The schedule: entries, Pod wakes, idle items and promotions (R147, R201 to R210). -/

namespace Sys2Proof.Machine
open Sys2Proof

/-! What an entry is does not depend on the passes. -/

/-- Two devices with the same tables, partitions and sync objects. -/
structure Dev.SameTables (a b : Dev) : Prop where
  tables : b.sched.tables = a.sched.tables
  prog : b.prog = a.prog
  sync : b.sync = a.sync

theorem Dev.SameTables.trans {a b c : Dev} (h : Dev.SameTables a b) (g : Dev.SameTables b c) : Dev.SameTables a c :=
  ⟨g.tables.trans h.tables, g.prog.trans h.prog, g.sync.trans h.sync⟩

theorem Dev.Frame.sameTables {l : List Part} {a b : Dev} (h : Dev.Frame l a b) (hs : Part.sched ∉ l ∧ Part.prog ∉ l ∧ Part.sync ∉ l) :
    Dev.SameTables a b := ⟨by rw [h.sched hs.1], h.prog hs.2.1, h.sync hs.2.2⟩

theorem Dev.SameTables.entry {a b : Dev} (h : Dev.SameTables a b) (t i : Nat) : b.entry t i = a.entry t i := by
  simp only [Dev.entry, Dev.table, h.tables]

theorem Dev.SameTables.syncObj {a b : Dev} (h : Dev.SameTables a b) (o : Nat) : b.syncObj o = a.syncObj o := by
  simp only [Dev.syncObj, h.sync]

theorem Dev.SameTables.mayName {a b : Dev} (h : Dev.SameTables a b) (part : Option Nat) (o : Nat) : b.mayName part o = a.mayName part o := by
  simp only [Dev.mayName, Dev.syncOwned, h.prog]

theorem Dev.SameTables.tablePart {a b : Dev} (h : Dev.SameTables a b) (t : Nat) : b.tablePart t = a.tablePart t := by
  simp only [Dev.tablePart, h.prog]

theorem Dev.SameTables.ticket {a b : Dev} (h : Dev.SameTables a b) (t i : Nat) : b.ticket t i = a.ticket t i := by
  simp only [Dev.ticket, h.entry, h.syncObj]

theorem Dev.SameTables.waitMet {a b : Dev} (h : Dev.SameTables a b) (e : List Word) : b.waitMet e = a.waitMet e := by
  simp only [Dev.waitMet, h.syncObj]

theorem Dev.startEntry_sameTables (d : Dev) (t i : Nat) : Dev.SameTables d (d.startEntry t i) := ⟨rfl, rfl, rfl⟩

/-! An entry that ends (R201). -/

/-- The word that a signal of `n` leaves in an object that held `w`. -/
def signalled (w : Word) (n : Nat) (err : Bool) (cause : Nat) : Word :=
  syncWord (if err = true ∧ syncCause w = 0 then cause else syncCause w) (syncErr w || err) (satU 32 (syncCount w + n))

/-- An entry that ends signals the object it may name, with the error it ended with. -/
theorem Dev.finish_syncObj {d : Dev} {k : Ticket} {part : Option Nat} {o n : Nat} (hs : entrySignal (d.entry k.table k.entry) = some (o, n))
    (hname : d.mayName part o = true) (err : Bool) (cause : Nat) :
    (d.finish k part err cause).syncObj o = signalled (d.syncObj o) n err cause := by
  rw [Dev.finish, (Dev.endEntry_frame _ _ _).syncObj (by decide), Dev.signalEntry]
  simp only [hs]
  rw [Dev.entrySignals]
  dsimp only
  rw [if_pos (by cases part <;> exact hname), Dev.signal_syncObj, if_pos rfl, signalled]

/-- The sequencer runs a SIGNAL entry: it signals with the error that its wait was met with (R205). -/
theorem Dev.sequencer_signal {d : Dev} {t i o n : Nat} (hk : entryKind (d.entry t i) = 5) (hs : entrySignal (d.entry t i) = some (o, n))
    (hname : d.mayName (d.tablePart t) o = true) :
    (d.sequencer t i).syncObj o = signalled (d.syncObj o) n (d.ticket t i).bad (d.ticket t i).cause := by
  have hsame := d.startEntry_sameTables t i
  have hticket : (d.ticket t i).table = t ∧ (d.ticket t i).entry = i := by
    unfold Dev.ticket
    split <;> exact ⟨rfl, rfl⟩
  have hrun : d.sequencer t i = (d.startEntry t i).finish (d.ticket t i) (d.tablePart t) (d.ticket t i).bad (d.ticket t i).cause := by
    unfold Dev.sequencer
    dsimp only
    rw [hk]
    rfl
  rw [hrun, Dev.finish_syncObj (by rw [hticket.1, hticket.2, hsame.entry]; exact hs) (by rw [hsame.mayName]; exact hname), hsame.syncObj]

theorem entryReleased_runs {d : Dev} {t i : Nat} {word : BurstResult} (hword : word ≠ .uncorrectable)
    (hin : (d.passEntries t).contains i = true) (hk : entryKind (d.entry t i) = 5) (hwaits : d.entryWaits t i = true)
    (hlater : d.cyc.flight.any (fun c => decide ((d.pass t).cycle < c.number) && decide (c.tick + entryRelease (d.entry t i) ≤ d.tick)) = false)
    (hdue : (d.pass t).tick + entryRelease (d.entry t i) ≤ d.tick) (hmet : d.waitMet (d.entry t i) = true) :
    entryReleased t i word d = (d.readEntry t i word).sequencer t i := by
  have hframe := d.readEntry_frame t i word
  have hsame := hframe.sameTables (by decide)
  have hsched := hframe.sched (by decide)
  have hwaits' : (d.readEntry t i word).entryWaits t i = true := by
    rw [← hwaits]
    simp only [Dev.entryWaits, Dev.pass, Dev.passEntries, Dev.beforeEnd, Dev.table, hsched]
  have hmay : (d.readEntry t i word).sequencerMay t i = true := by
    simp [Dev.sequencerMay, hsame.entry, hsame.waitMet, hk, hmet]
  have htick : (d.readEntry t i word).tick = d.tick := by rw [Dev.tick, hframe.time (by decide)]; rfl
  unfold entryReleased
  dsimp only
  rw [if_neg (by rw [hin]; decide), if_neg (by rw [hlater]; simp), if_neg (by rw [hwaits']; decide), if_neg hword,
    if_pos (by rw [htick, hmay, decide_eq_true hdue]; rfl)]

/-! A running entry past its deadline (R206). -/

theorem entryDeadlinePassed_late {d : Dev} {t i : Nat} (htimed : entryTimed (d.entry t i) = true)
    (hin : (d.passEntries t).contains i = true) (hd : entryDeadline (d.entry t i) ≠ 0) (hrun : (d.pass t).ended = false)
    (hdue : (d.pass t).tick + entryDeadline (d.entry t i) ≤ d.tick) (hskip : (d.pass t).skipped.contains i = false)
    (hdone : (d.pass t).done.contains i = false) (hstart : (d.pass t).started.contains i = true) :
    entryDeadlinePassed t i d = if (d.pass t).late.contains i then d
      else (d.modPass t (fun p => { p with late := sins i p.late })).raise 0x0601 t i := by
  unfold entryDeadlinePassed
  dsimp only
  rw [if_pos ⟨htimed, hin, hd, hrun, hdue, hskip, hdone⟩, if_pos hstart]

/-! A Pod that wakes (R115, R116). -/

theorem podWakeRequest_wakes {d : Dev} {l p g : Nat} (hp : d.physOf l = some p) (hg : d.gapOf l = some g) (hst : (d.pod p).state = .gated)
    (hw : (d.pod p).waking = false) (hlead : g ≤ max (nsTicks (d.cfg 0x5000 4)) ((d.pod p).wakeTicks + usTicks 2)) :
    podWakeRequest l d = if (d.pod p).gatedNow = true then
        d.modPod p (fun x => { x with state := .active, gatedNow := false, pll := true })
      else d.modPod p (fun x => { x with waking := true, pll := true }) := by
  simp only [podWakeRequest, hp, hg, hst, hw, decide_eq_true hlead, true_or, true_and, and_self, if_true]

theorem podWakeComplete_pod {d : Dev} {p : Nat} (hw : (d.pod p).waking = true) (hst : (d.pod p).state = .gated ∨ (d.pod p).state = .collapsed) :
    ((podWakeComplete p d).pod p).state = .active ∧ ((podWakeComplete p d).pod p).waking = false := by
  have hraise : ∀ (e : Dev) (b : Bool) (c i x : Nat), (e.raiseIf b c i x).pod p = e.pod p := fun e b c i x => by
    rw [Dev.pod, (Dev.raiseIf_frame _ _ _ _ _).pods (by decide)]
    rfl
  unfold podWakeComplete
  dsimp only
  rw [if_pos ⟨hw, hst⟩]
  split
  · rw [hraise, Dev.modPod_pod]
    exact ⟨rfl, rfl⟩
  · rw [Dev.modPod_pod]
    exact ⟨rfl, rfl⟩

/-! Idle items (R208 to R210). -/

/-- The key of an idle item. -/
def IdleItem.isAt (t i : Nat) (y : IdleItem) : Bool := y.table == t && y.entry == i

theorem find?_promoted {t i : Nat} {x : IdleItem} {l : List IdleItem} (h : l.find? (IdleItem.isAt t i) = some x) :
    (l.map (fun y => if y.isAt t i then { y with promoted := true } else y)).find? (IdleItem.isAt t i) = some { x with promoted := true } := by
  have hsame : IdleItem.isAt t i ∘ (fun y : IdleItem => if y.isAt t i then { y with promoted := true } else y) = IdleItem.isAt t i := by
    funext y
    simp only [Function.comp]
    split <;> rfl
  rw [List.find?_map, hsame, h, Option.map_some, if_pos (List.find?_some h)]

/-- Settles O17. -/
theorem schedule : Obligations.Schedule := by
  refine ⟨fun s t i o n word hword hin hk hwaits hlater hdue hmet hs hname => ⟨_, rfl, ?_⟩,
    fun s t i hup htimed hin hd hrun hdue hskip hdone hstart => ⟨_, rfl, ?_⟩, fun s l p g hp hg hst hw hlead => ⟨_, rfl, ?_⟩,
    fun s p hw hst => ⟨_, rfl, podWakeComplete_pod hw hst⟩, fun s t i x hx hfree hfits hnext hmet hk => ⟨_, rfl, ?_⟩,
    fun s t i x hx hnot hdue => ⟨_, rfl, ?_⟩, fun s r m i g rest a hg ha hc hat hcls hage hsafe => ⟨_, rfl, ?_⟩⟩
  · have hsame := (s.dev.readEntry_frame (tableNo t) i word).sameTables (by decide)
    have hseq := Dev.sequencer_signal (d := s.dev.readEntry (tableNo t) i word) (t := tableNo t) (i := i) (by rw [hsame.entry]; exact hk)
      (by rw [hsame.entry]; exact hs) (by rw [hsame.mayName, hsame.tablePart]; exact hname)
    rw [hsame.ticket, hsame.syncObj] at hseq
    beta_reduce
    rw [entryReleased_runs hword hin hk hwaits hlater hdue hmet, hseq]
    rfl
  · beta_reduce
    rw [entryDeadlinePassed_late htimed hin hd hrun hdue hskip hdone hstart]
    split
    · rfl
    · refine ⟨Dev.raise_reports (by exact hup) _ _ _, ?_⟩
      rw [Dev.pass, Dev.raise_sched]
      show i ∈ (Dev.pass (Dev.modPass _ _ _) _).late
      rw [Dev.modPass_pass]
      exact mem_sins.2 (Or.inl rfl)
  · beta_reduce
    rw [podWakeRequest_wakes hp hg hst hw hlead]
    split <;> (rw [Dev.modPod_pod]; exact ⟨rfl, rfl⟩)
  · beta_reduce
    simp only [idleItemStart, hx]
    rw [if_pos ⟨hfree, hfits, hnext, hmet, Or.inl hk⟩, if_neg hk]
    refine ⟨List.find?_eq_none.2 fun y hy => ?_, rfl⟩
    have hnot := (List.mem_filter.1 hy).2
    rw [Bool.not_eq_true'] at hnot
    exact fun h => Bool.false_ne_true (hnot.symm.trans h)
  · have heq : promotion (tableNo t) i s.dev = ({ s.dev with sched := { s.dev.sched with
        idle := s.dev.sched.idle.map (fun (y : IdleItem) => if y.isAt (tableNo t) i then { y with promoted := true } else y) } } :
          Dev).occur 0x2040 4 := by
      simp only [promotion, hx]
      exact if_pos ⟨hnot, hdue⟩
    beta_reduce
    rw [heq, Dev.occur_ev]
    exact ⟨find?_promoted hx, rfl⟩
  · have heq : meshAgePromotion r.val m.val i s.dev = (s.dev.modDesc m.val i (fun a =>
        { a with at_ := a.ahead.headD a.at_, ahead := a.ahead.drop 1, since := s.dev.tick })).occur 0x2040 4 := by
      simp only [meshAgePromotion, hg, ha]
      exact if_pos ⟨hc, hat, hcls, hage, hsafe⟩
    have hdesc := Dev.modDesc_desc (d := s.dev) (m := m.val) (i := i) (a := a) (by rw [hg]; exact ha) (fun a =>
      { a with at_ := a.ahead.headD a.at_, ahead := a.ahead.drop 1, since := s.dev.tick })
    beta_reduce
    rw [heq, Dev.occur_ev]
    exact ⟨hdesc, rfl⟩

end Sys2Proof.Machine

/-! PROOF. Engine operations and Pip steps start and end (R90, R93, R110, R113, R114, R178, R201). -/

namespace Sys2Proof.Machine
open Sys2Proof

/-! The engine. -/

theorem op_starts {d : Dev} {l p : Nat} {o : OpDesc} (hp : d.physOf l = some p) (hst : (d.pod p).state = .active)
    (heng : (d.pod p).engine = none) (hi : d.starts l 1 o.work = some o.index) (hok : d.opRefusal (some l) o = 0) :
    op l o d = (d.startEntry l o.index).modPod p (fun x => { x with engine := some { desc := o, ticket := d.ticket l o.index } }) := by
  unfold op
  simp only [hp, hi]
  rw [if_pos ⟨hst, heng, trivial⟩, if_neg (by rw [hok]; decide)]

/-- Two devices in which the engine and the cores of a Pod do the same work. -/
def Dev.SameWork (p : Nat) (a b : Dev) : Prop := (b.pod p).engine = (a.pod p).engine ∧ (b.pod p).cores = (a.pod p).cores

theorem Dev.SameWork.trans {p : Nat} {a b c : Dev} (h : Dev.SameWork p a b) (g : Dev.SameWork p b c) : Dev.SameWork p a c :=
  ⟨g.1.trans h.1, g.2.trans h.2⟩

theorem Dev.modPod_sameWork (d : Dev) (p : Nat) {f : Pod → Pod} (hf : ∀ x, (f x).engine = x.engine ∧ (f x).cores = x.cores) :
    Dev.SameWork p d (d.modPod p f) := by
  unfold Dev.SameWork
  rw [Dev.modPod_pod]
  exact hf _

theorem Dev.SameWork.ite {p : Nat} {a b c : Dev} {q : Prop} [Decidable q] (hb : Dev.SameWork p a b) (hc : Dev.SameWork p a c) :
    Dev.SameWork p a (if q then b else c) := by
  split
  · exact hb
  · exact hc

theorem Dev.collapse_sameWork (d : Dev) (p l : Nat) : Dev.SameWork p d (d.collapse p l) := by
  refine Dev.SameWork.trans ?_ (Dev.modPod_sameWork _ p fun _ => ⟨rfl, rfl⟩)
  simp only [Dev.SameWork, Dev.pod, (Dev.copyKeys_frame _ _).pods (by decide), and_self]

/-- Gating a Pod, or not, changes neither its engine nor its cores (R116, R206). -/
theorem Dev.idleEntry_sameWork (d : Dev) (p : Nat) : Dev.SameWork p d (d.idleEntry p) := by
  cases hl : (d.pod p).logical with
  | none =>
    simp only [Dev.idleEntry, hl]
    exact ⟨rfl, rfl⟩
  | some l =>
    simp only [Dev.idleEntry, hl]
    have hgate : Dev.SameWork p d (d.modPod p (fun x => { x with gateWaits := false, gatedNow := true })) :=
      d.modPod_sameWork p fun _ => ⟨rfl, rfl⟩
    refine .ite (d.modPod_sameWork p fun _ => ⟨rfl, rfl⟩) (.ite (d.modPod_sameWork p fun _ => ⟨rfl, rfl⟩)
      (.ite (hgate.trans (Dev.modPod_sameWork _ p fun _ => ⟨rfl, rfl⟩)) (.ite (hgate.trans (Dev.collapse_sameWork _ p l))
        (hgate.trans (Dev.modPod_sameWork _ p fun _ => ⟨rfl, rfl⟩)))))

theorem Dev.arithFault_idle {d : Dev} {p : Nat} (h : (d.pod p).engine = none) : ((d.arithFault p).pod p).engine = none := by
  unfold Dev.arithFault
  dsimp only
  generalize hx : Dev.modPod _ _ _ = x
  have hidle : (x.pod p).engine = none := by
    rw [← hx, Dev.modPod_pod]
    exact h
  split
  · refine Dev.takeOut_idle ?_
    rw [Dev.pod, Dev.raise_pods]
    exact hidle
  · exact hidle

theorem Dev.opFaults_idle {p : Nat} : ∀ (l : List Nat) {d : Dev} (_ : (d.pod p).engine = none), ((d.opFaults p l).pod p).engine = none
  | [], _, h => h
  | c :: l, d, h => by
    refine Dev.opFaults_idle (d := (d.raise c p 0).arithFault p) l (Dev.arithFault_idle ?_)
    rw [Dev.pod, Dev.raise_pods]
    exact h

theorem Dev.foldl_sameTables {β : Type} {f : Dev → β → Dev} (hf : ∀ d x, Dev.SameTables d (f d x)) :
    ∀ (l : List β) (d : Dev), Dev.SameTables d (l.foldl f d)
  | [], _ => ⟨rfl, rfl, rfl⟩
  | x :: l, d => (hf d x).trans (Dev.foldl_sameTables hf l (f d x))

/-- An operation that ends has freed its engine before its entry finishes. -/
theorem opComplete_ends {d : Dev} {l p : Nat} {r : RunOp} (hp : d.physOf l = some p) (hr : (d.pod p).engine = some r)
    (upsets : List EngineUpset) (ecc : List EccEvent) :
    ∃ (e : Dev) (bad : Bool) (cause : Nat), (e.pod p).engine = none ∧ Dev.SameTables d e ∧ opComplete l upsets ecc d =
      ((e.finish r.ticket (e.tablePart l) bad cause).idleEntry p).opFaults p (d.opOutcome l r.desc upsets ecc).causes := by
  unfold opComplete
  simp only [hp, hr]
  refine ⟨_, _, _, ?_, ?_, rfl⟩
  · rw [Dev.pod, (Dev.countSats_frame _ _ _ _ _).pods (by decide), (Dev.raiseIf_frame _ _ _ _ _).pods (by decide)]
    exact congrArg Pod.engine (Dev.modPod_pod _ _ _)
  · refine Dev.SameTables.trans ?_ ((Dev.countSats_frame _ _ _ _ _).sameTables (by decide))
    refine Dev.SameTables.trans ?_ ((Dev.raiseIf_frame _ _ _ _ _).sameTables (by decide))
    refine Dev.SameTables.trans ?_ ((Dev.modPod_frame _ _ _).sameTables (by decide))
    refine Dev.SameTables.trans ?_ ((Dev.storeA_frame _ _ _ _).sameTables (by decide))
    refine Dev.SameTables.trans ?_ ((Dev.putRegions_frame _ _ _ _).sameTables (by decide))
    refine Dev.SameTables.trans ?_ ((Dev.putTimes_frame _ _ _ _ _).sameTables (by decide))
    refine Dev.SameTables.trans ?_ (Dev.foldl_sameTables (fun d x => (Dev.putRow_frame d _ _ _ _).sameTables (by decide)) _ _)
    exact ((Dev.readKeys_frame _ _ _).sameTables (by decide)).trans ((Dev.bumpFree_frame _).sameTables (by decide))

/-! Pip steps. -/

theorem kget_foldl_kset {α : Type} [DecidableEq α] {z v : α} {c : Nat} :
    ∀ (l : List Nat) (m : Store α), c ∈ l ∨ kget z m c = v → kget z (l.foldl (fun m k => kset z m k v) m) c = v
  | [], _, h => h.resolve_left List.not_mem_nil
  | k :: l, m, h => by
    refine kget_foldl_kset l (kset z m k v) ?_
    by_cases hk : c = k
    · exact Or.inr (by rw [hk, kget_kset_same])
    · rw [kget_kset_other hk]
      exact h.imp_left fun hc => (List.mem_cons.1 hc).resolve_left hk

theorem Dev.endPip_frees (d : Dev) (l p : Nat) (r : RunStep) (cause : Nat) {c : Nat} (hc : c ∈ pipCores r.step) :
    (d.endPip l p r cause).stepOn p c = none := by
  unfold Dev.endPip Dev.stepOn
  dsimp only
  rw [(Dev.idleEntry_sameWork _ _).2, Dev.pod, (Dev.finish_frame _ _ _ _ _).pods (by decide), (Dev.closeLeft_frame _ _ _).pods (by decide)]
  refine (congrArg (fun x : Pod => kget none x.cores c) (Dev.modPod_pod _ _ _)).trans ?_
  exact kget_foldl_kset _ _ (Or.inl hc)

theorem pipStep_starts {d : Dev} {l p i : Nat} {x : PipStep} (hp : d.physOf l = some p) (hi : d.starts l 2 x.number = some i)
    (hst : (d.pod p).state = .active) {y : PipStep}
    (hy : y = { x with checked := x.checked || decide (entryClass (d.entry l i) ≤ 1) || decide (x.work ≠ .program) })
    (hfree : (pipCores y).all (fun c => (d.stepOn p c).isNone) = true) (hok : d.pipRefusal l y false = 0) :
    pipStep l x false d = (d.startEntry l i).modPod p (fun z => { z with
      cores := (pipCores y).foldl (fun m c => kset none m c (some { step := y, ticket := d.ticket l i, tick := d.tick })) z.cores }) := by
  subst hy
  unfold pipStep
  simp only [hp, hi]
  rw [if_pos ⟨hst, hfree⟩, if_neg (by rw [hok]; decide)]

/-- Settles O18. -/
theorem podWork : Obligations.PodWork := by
  refine ⟨fun s l o p hp hst heng hi hok => ⟨_, rfl, ?_⟩, fun s l ups ecc p r hp hr => ⟨_, rfl, ?_⟩,
    fun s l ups ecc p o n r hp hr hgood hs hname => ⟨_, rfl, ?_⟩, fun s l x p i hp hi hst => ?_,
    fun s l core flips ecc p r hp hr => ⟨_, rfl, fun c hc => ?_⟩, fun s l core p r hp hr hlate => ⟨_, rfl, fun c hc => ?_⟩⟩
  · beta_reduce
    rw [op_starts hp hst heng hi hok, Dev.modPod_pod]
  · obtain ⟨e, bad, cause, hfree, -, heq⟩ := opComplete_ends hp hr ups ecc
    rw [heq]
    refine Dev.opFaults_idle _ ?_
    rw [(Dev.idleEntry_sameWork _ _).1, Dev.pod, (Dev.finish_frame _ _ _ _ _).pods (by decide)]
    exact hfree
  · obtain ⟨e, bad, cause, -, hsame, heq⟩ := opComplete_ends hp hr ups ecc
    rw [heq, hgood]
    have hword : (((e.finish r.ticket (e.tablePart l.val) bad cause).idleEntry p).opFaults p []).syncObj o =
        signalled (s.dev.syncObj o) n bad cause := by
      show (Dev.idleEntry _ _).syncObj _ = _
      rw [(Dev.idleEntry_frame _ _).syncObj (by decide), Dev.finish_syncObj (by rw [hsame.entry]; exact hs)
        (by rw [hsame.mayName, hsame.tablePart]; exact hname), hsame.syncObj]
    exact ⟨_, _, hword⟩
  · intro y hfree hok
    refine ⟨_, rfl, fun c hc => ?_⟩
    rw [pipStep_starts hp hi hst rfl hfree hok, Dev.stepOn, Dev.modPod_pod]
    exact kget_foldl_kset _ _ (Or.inl hc)
  · simp only [pipStepComplete, hp, hr]
    exact Dev.endPip_frees _ _ _ _ _ hc
  · simp only [pipOverrun, hp, hr]
    rw [if_pos hlate]
    exact Dev.endPip_frees _ _ _ _ _ hc

end Sys2Proof.Machine

/-! PROOF. What a Pip step that ends has written, and the cell-state step (R114, R118, R176, R231, R275). -/

namespace Sys2Proof.Machine
open Sys2Proof

/-! Two copies of a checked step's result. -/

theorem flatMap_chunks {α : Type} (n : Nat) (a : List α) : ∀ k, (List.range k).flatMap (fun i => (a.drop (n * i)).take n) = a.take (n * k)
  | 0 => by simp
  | k + 1 => by
    rw [List.range_succ, List.flatMap_append, flatMap_chunks n a k, List.flatMap_singleton, Nat.mul_succ, List.take_add]

theorem takeWhile_range (p : Nat → Bool) (n : Nat) : ∃ k, (List.range n).takeWhile p = List.range k := by
  refine ⟨min ((List.range n).takeWhile p).length n, ?_⟩
  rw [← List.take_range]
  exact List.prefix_iff_eq_take.1 (List.takeWhile_prefix p)

/-- Both results begin with the words they agree in. -/
theorem agreeing_begins (a b : List Byte) : agreeing a b <+: a ∧ agreeing a b <+: b := by
  obtain ⟨k, hk⟩ := takeWhile_range (fun i => (a.drop (8 * i)).take 8 == (b.drop (8 * i)).take 8) (ceilDiv (max a.length b.length) 8)
  have ha : agreeing a b = a.take (8 * k) := by rw [agreeing, hk, flatMap_chunks]
  have hb : agreeing a b = b.take (8 * k) := by
    rw [agreeing, hk, ← flatMap_chunks]
    refine List.flatMap_congr fun i hi => ?_
    rw [← hk] at hi
    have hsame := List.mem_takeWhile_imp (p := fun i => (a.drop (8 * i)).take 8 == (b.drop (8 * i)).take 8) hi
    exact eq_of_beq hsame
  exact ⟨ha ▸ List.take_prefix _ _, hb ▸ List.take_prefix _ _⟩

/-! A masked softmax. -/

theorem softmaxRow_none {scores : List Nat} {mask : List Bool} (h : ∀ b, b ∈ mask → b = false) :
    softmaxRow scores mask = (0, (scores.map bf16To32).map (fun _ => 0), 0) := by
  have hempty : (((scores.map bf16To32).zip mask).filter Prod.snd).map Prod.fst = [] := by
    rw [List.map_eq_nil_iff, List.filter_eq_nil_iff]
    intro x hx
    rw [h x.2 (List.of_mem_zip hx).2]
    decide
  simp only [softmaxRow, hempty]

theorem softmaxRow_length {scores : List Nat} {mask : List Bool} (h : mask.length = scores.length) :
    (softmaxRow scores mask).2.1.length = scores.length := by
  unfold softmaxRow
  dsimp only
  split <;> simp [h]

theorem softmaxRow_masked (scores : List Nat) {mask : List Bool} {j : Nat} (h : mask.getD j false = false) :
    (softmaxRow scores mask).2.1.getD j 0 = 0 := by
  unfold softmaxRow
  dsimp only
  split
  · rw [List.getD_eq_getElem?_getD, List.getElem?_map]
    cases (scores.map bf16To32)[j]? <;> rfl
  · rw [List.getD_eq_getElem?_getD, List.getElem?_map]
    cases hx : ((scores.map bf16To32).zip mask)[j]? with
    | none => rfl
    | some x =>
      have hmask := (List.getElem?_zip_eq_some.1 hx).2
      have hoff : x.2 = false := by rw [← h, List.getD_eq_getElem?_getD, hmask]; rfl
      simp only [Option.map_some, Option.getD_some, hoff, Bool.false_eq_true, if_false]

/-! The cells of the grid. -/

theorem kget_foldl_pairs {α : Type} [DecidableEq α] {z : α} (f : Nat → α) {i : Nat} :
    ∀ (l : List Nat) (m : Store α), i ∈ l ∨ kget z m i = f i →
      kget z ((l.map (fun k => (k, f k))).foldl (fun m x => kset z m x.1 x.2) m) i = f i
  | [], _, h => h.resolve_left List.not_mem_nil
  | k :: l, m, h => by
    refine kget_foldl_pairs f l (kset z m k (f k)) ?_
    by_cases hk : i = k
    · exact Or.inr (by rw [hk, kget_kset_same])
    · rw [kget_kset_other hk]
      exact h.imp_left fun hc => (List.mem_cons.1 hc).resolve_left hk

theorem Dev.modFusN_fusN (d : Dev) (f : Fusion → Fusion) : (d.modFusN f).fusN = f d.fusN := by
  unfold Dev.modFusN Dev.setFusN
  split
  · next h => exact if_pos h
  · next h => exact if_neg h

theorem Dev.modCand_fusN (d : Dev) (f : Candidate → Candidate) : (d.modCand f).fusN = d.fusN := rfl

/-- The cell-state step gives every cell what its evidence says (R231, R232, R246). -/
theorem Dev.cellState_cell {d : Dev} {c : CycleCtx} (hc : d.computing = some c) (ev : List Evidence) (occ : List (Nat × Byte)) {i : Nat}
    (hi : i < d.gridX * d.gridY) :
    ∃ told, (d.cellState ev occ).fusN.cell i =
      { d.evalCell c.tv (ev.filter (fun e => !d.excluded e.slot.val && d.slotLive e.slot.val)) occ i with told := told } := by
  unfold Dev.cellState
  simp only [hc]
  rw [Dev.modCand_fusN, Dev.modFusN_fusN, Fusion.cell]
  simp only [List.map_map, Function.comp_def]
  exact ⟨_, kget_foldl_pairs _ _ _ (Or.inl (List.mem_range.2 hi))⟩

/-- A step that does the contract's own work on good operands has done it when it ends (R114). -/
theorem pipStepComplete_works {d : Dev} {l core p : Nat} {r : RunStep} (hp : d.physOf l = some p) (hr : d.stepOn p core = some r)
    (hwork : r.step.work ≠ .program) {flips : List Byte} {ecc : List EccEvent} (hgood : (d.readKeys (d.pipKeys l r.step) ecc).2 = 0)
    (hsame : r.step.checked = false ∨ flips.all (fun x => x == 0) = true) :
    ∃ x, pipStepComplete l core flips ecc d = ((d.readKeys (d.pipKeys l r.step) ecc).1.bumpFree.pipWork (some l) r.step.outAddr
      r.step.outLen r.step.work).1.endPip l p r x := by
  have hno : (r.step.checked && flips.any (· != 0)) = false := by
    rcases hsame with h | h
    · rw [h, Bool.false_and]
    · have hany : flips.any (· != 0) = false := by
        rw [List.any_eq_false]
        intro x hx
        simpa using List.all_eq_true.1 h x hx
      rw [hany, Bool.and_false]
  unfold pipStepComplete
  simp only [hp, hr]
  rw [if_neg hwork, hgood, hno]
  exact ⟨_, rfl⟩

theorem Dev.pipBytes_eq {d e : Dev} {l : Nat} {s : PipStep} (hprog : d.prog.prog.map (fun p => p.digest) = e.prog.prog.map (fun p => p.digest))
    (hin : (d.pipKeys l s).flatMap (fun r => d.mem.readN r.1 (r.2 - r.1)) = (e.pipKeys l s).flatMap (fun r => e.mem.readN r.1 (r.2 - r.1))) :
    d.pipBytes l s false = e.pipBytes l s false := by
  unfold Dev.pipBytes
  rw [hin]
  cases hd : d.prog.prog with
  | none =>
    cases he : e.prog.prog with
    | none => rfl
    | some q => rw [hd, he] at hprog; cases hprog
  | some p =>
    cases he : e.prog.prog with
    | none => rw [hd, he] at hprog; cases hprog
    | some q =>
      rw [hd, he] at hprog
      simp only [Option.some.inj hprog, Bool.false_eq_true, if_false]

/-- Settles O19. -/
theorem fusionSteps : Obligations.FusionSteps := by
  refine ⟨fun s l core flips ecc p r hp hr hwork hgood hsame => ⟨_, rfl, ?_⟩, fun d e l s hprog hin => Dev.pipBytes_eq hprog hin,
    agreeing_begins, fun scores mask hlen => ⟨softmaxRow_length hlen, fun j hj => softmaxRow_masked scores hj, fun h => ?_⟩,
    fun d c ev occ i hc hi => ?_⟩
  · obtain ⟨x, hx⟩ := pipStepComplete_works hp hr hwork hgood hsame
    rw [hx]
    have hframe := Dev.endPip_frame ((s.dev.readKeys (s.dev.pipKeys l.val r.step) ecc).1.bumpFree.pipWork (some l.val) r.step.outAddr
      r.step.outLen r.step.work).1 l.val p r x
    exact ⟨hframe.fus (by decide), hframe.kv (by decide)⟩
  · rw [softmaxRow_none h]
    exact ⟨rfl, rfl⟩
  · obtain ⟨told, hcell⟩ := Dev.cellState_cell hc ev occ hi
    dsimp only
    rw [hcell]
    exact ⟨rfl, rfl, rfl⟩

end Sys2Proof.Machine

/-! PROOF. Movers, window advance and solver jobs (R127, R131 to R133, R139, R140, R157, R309, R323, R326, R329). -/

namespace Sys2Proof.Machine
open Sys2Proof

/-! A mover's groups. -/

/-- What a group was accepted with. -/
def FenceGroup.shape (g : FenceGroup) : Option Ticket × List (List Word × Nat) := (g.ticket, g.descs.map (fun a => (a.words, a.cause)))

/-- The launch of a mover's oldest group places its descriptors on the mesh; nothing else of it changes. -/
theorem Dev.launch_shape (d : Dev) (mv : Nat) :
    ((d.launch mv).mover mv).groups.map FenceGroup.shape = (d.mover mv).groups.map FenceGroup.shape ∧
      ((d.launch mv).mover mv).opened = (d.mover mv).opened ∧ ((d.launch mv).mover mv).ticket = (d.mover mv).ticket := by
  unfold Dev.launch
  dsimp only
  rw [Dev.modMover_mover]
  refine ⟨?_, rfl, rfl⟩
  cases (d.mover mv).groups with
  | nil => rfl
  | cons g t => simp [FenceGroup.shape, Function.comp_def]

/-- A group that is closed waits behind the others. -/
theorem Dev.closeGroup_mover {d : Dev} {mv : Nat} (h : (d.mover mv).opened ≠ []) :
    ((d.closeGroup mv).mover mv).opened = [] ∧ ∃ g, ((d.closeGroup mv).mover mv).groups = (d.mover mv).groups ++ [g] ∧
      g.descs.map (fun a => (a.words, a.cause)) = (d.mover mv).opened.map (fun a => (a.words, a.cause)) := by
  unfold Dev.closeGroup
  dsimp only
  generalize hx : Dev.modMover d mv _ = x
  have hxm : x.mover mv = Mover.mk [] none ((d.mover mv).groups ++ [{ descs := (d.mover mv).opened, ticket := (d.mover mv).ticket }]) := by
    rw [← hx, Dev.modMover_mover, if_neg h]
  by_cases hfirst : (d.mover mv).groups.isEmpty = true
  · rw [if_pos hfirst]
    obtain ⟨hshape, hopened, -⟩ := x.launch_shape mv
    rw [hxm, List.isEmpty_iff.1 hfirst] at hshape
    refine ⟨by rw [hopened, hxm], ?_⟩
    obtain ⟨g, hg, hgs⟩ := List.map_eq_singleton_iff.1 hshape
    exact ⟨g, by rw [hg, List.isEmpty_iff.1 hfirst]; rfl, (congrArg Prod.snd hgs :)⟩
  · rw [if_neg hfirst, hxm]
    exact ⟨rfl, _, rfl, rfl⟩

theorem Mover.tag_closed {m : Mover} {k : Ticket} {gs : List FenceGroup} {g : FenceGroup} (ho : m.opened = []) (hg : m.groups = gs ++ [g]) :
    (m.tag k).opened = [] ∧ (m.tag k).groups = gs ++ [{ g with ticket := some k }] := by
  rw [Mover.tag, if_pos ho, hg]
  refine ⟨ho, ?_⟩
  have hkeep : ∀ x ∈ gs.zipIdx, (if x.2 + 1 = (gs ++ [g]).length then { x.1 with ticket := some k } else x.1) = x.1 := fun x hx => by
    have hlt := List.snd_lt_of_mem_zipIdx hx
    rw [if_neg]
    simp only [List.length_append, List.length_singleton]
    omega
  rw [List.zipIdx_append, List.map_append, List.map_congr_left hkeep, List.zipIdx_map_fst]
  simp

/-- The descriptor that a MOVE entry hands to its mover. -/
def Accepted.fresh (ws : List Word) (c q : Nat) : Accepted :=
  { words := ws, cause := c, core := none, part := q, bursts := [], lost := 0, at_ := 0, ahead := [], since := 0 }

theorem Dev.enqueue_mover (d : Dev) (mv q : Nat) (k : Option Ticket) (ws : List Word) :
    ∃ y : Dev, y.mover mv = { d.mover mv with
        opened := (d.mover mv).opened ++ [Accepted.fresh ws (d.acceptCause mv q none (d.mover mv).opened ws) q] } ∧
      d.enqueue mv q none none k ws = if (mdesc ws).fence then y.closeGroup mv
        else if 64 ≤ (y.mover mv).opened.length then (y.raise 0x0409 mv 0).closeGroup mv else y := by
  unfold Dev.enqueue
  refine ⟨_, ?_, rfl⟩
  rw [Dev.modMover_mover]
  have hrefuse : ∀ c, (if c = 0 then d else d.refuse mv q k (mdesc ws) c).mover mv = d.mover mv := fun c => by
    split
    · rfl
    · simp only [Dev.mover, (Dev.refuse_frame _ _ _ _ _ _).movers (by decide)]
  rw [hrefuse]
  rfl

/-- A mover whose schedule hands it one descriptor: the descriptor joins the open group, or closes it (R131, R132). -/
theorem move_mover {d : Dev} {mv t i : Nat} {work : Nat} (ht : d.moverTable mv = some t) (hi : d.starts t 3 work = some i) (part : Nat)
    (ws : List Word) :
    ∃ y : Dev, y.mover mv = { d.mover mv with opened := (d.mover mv).opened ++ [Accepted.fresh ws
        ((d.startEntry t i).acceptCause mv (d.moverPart mv part) none (d.mover mv).opened ws) (d.moverPart mv part)] } ∧
      (move mv (.schedule work) part [ws] d).mover mv = ((if (mdesc ws).fence then y.closeGroup mv
        else if 64 ≤ (y.mover mv).opened.length then (y.raise 0x0409 mv 0).closeGroup mv else y).mover mv).tag (d.ticket t i) := by
  obtain ⟨y, hy, henq⟩ := (d.startEntry t i).enqueue_mover mv (d.moverPart mv part) (some (d.ticket t i)) ws
  refine ⟨y, hy, ?_⟩
  unfold move
  simp only [ht, hi, Option.bind_some, Option.map_some, List.foldl_cons, List.foldl_nil, List.cons_ne_nil, if_false]
  rw [henq, Dev.modMover_mover]

/-- What stands in the mover once its group has completed, but for the places on the mesh. -/
theorem fenceGroupComplete_mover {d : Dev} {mv : Nat} {g : FenceGroup} {rest : List FenceGroup} (hg : (d.mover mv).groups = g :: rest)
    (bad : List Nat) (ecc : List EccEvent) :
    (fenceGroupComplete mv bad ecc d).mover mv = ((d.modMover mv (fun x => { x with groups := rest })).launch mv).mover mv := by
  have hreads : ∀ (e : Dev) own l, (e.moveReads own bad ecc l).1.movers = e.movers := fun e own l =>
    (Dev.moveReads_frame e own bad ecc l).movers (by decide)
  have hfinish : ∀ (e : Dev) k p b c, (e.finish k p b c).movers = e.movers := fun e k p b c => (Dev.finish_frame e k p b c).movers (by decide)
  have hfold : ∀ {β : Type} (f : Dev → β → Dev), (∀ e x, (f e x).movers = e.movers) → ∀ (l : List β) (e : Dev), (l.foldl f e).movers = e.movers :=
    fun f hf l e => foldl_keeps (g := fun e : Dev => e.movers) hf l e
  have hidle : ∀ e : Dev, (if mv < 25 then e.idleEntry mv else e).movers = e.movers := fun e => by
    split
    · exact (Dev.idleEntry_frame _ _).movers (by decide)
    · rfl
  unfold fenceGroupComplete
  simp only [hg]
  rw [Dev.mover, hidle]
  generalize hk : g.ticket = k
  have hsettle : ∀ (l : List Moved) (own : Option Nat) (e : Dev), (l.foldl (fun d i => d.settle own mv k i) e).movers = e.movers := fun l own e =>
    hfold _ (fun e x => (Dev.settle_frame _ _ _ _ _).movers (by decide)) l e
  have hdst : ∀ (l : List Nat) own b info (e : Dev), (l.foldl (fun d x => d.settleDst mv own x b info) e).movers = e.movers := fun l own b info e =>
    hfold _ (fun e x => (Dev.settleDst_frame _ _ _ _ _ _).movers (by decide)) l e
  have hdata : ∀ (l : List Moved) own (e : Dev), (l.foldl (fun d i => d.dataPhase mv own i) e).movers = e.movers := fun l own e =>
    hfold _ (fun e x => (Dev.dataPhase_frame _ _ _ _).movers (by decide)) l e
  have hpad : ∀ (l : List Moved) own (e : Dev), (l.foldl (fun d i => d.padPhase mv own i.acc) e).movers = e.movers := fun l own e =>
    hfold _ (fun e x => (Dev.padPhase_frame _ _ _ _).movers (by decide)) l e
  have hraise : ∀ (l : List Moved) (e : Dev), (l.foldl (fun d _ => d.raise 0x0408 mv 0) e).movers = e.movers := fun l e =>
    hfold _ (fun e x => Dev.raise_movers _ _ _ _) l e
  cases k with
  | none =>
    dsimp only
    rw [hsettle, hdst, hdata, Dev.bumpFree_movers, hpad, hraise, hreads]
    rfl
  | some k =>
    dsimp only
    rw [hfinish, hsettle, hdst, hdata, Dev.bumpFree_movers, hpad, hraise, hreads]
    rfl

theorem FenceGroup.words_of_shape {a b : List FenceGroup} (h : a.map FenceGroup.shape = b.map FenceGroup.shape) :
    a.map (fun g => (g.ticket, g.descs.map Accepted.words)) = b.map (fun g => (g.ticket, g.descs.map Accepted.words)) := by
  have hmap : ∀ l : List FenceGroup, l.map (fun g => (g.ticket, g.descs.map Accepted.words)) =
      (l.map FenceGroup.shape).map (fun x => (x.1, x.2.map Prod.fst)) := fun l => by
    simp [FenceGroup.shape, Function.comp_def]
  rw [hmap, hmap, h]

/-! The window advance (R157). -/

theorem advance_turns {d : Dev} {l w p i : Nat} (hp : d.physOf l = some p)
    (hfind : (d.passEntries l).find? (fun i => entryKind (d.entry l i) == 4 && entryWork (d.entry l i) % 64 == w && d.entryWaits l i) = some i)
    (hdue : (d.pass l).tick + entryRelease (d.entry l i) ≤ d.tick) (hmet : d.waitMet (d.entry l i) = true) (hidle : d.podBusy p = false) :
    (advance l w d).pod p = ((d.startEntry l i).turnWindow p w).pod p := by
  have hi := List.find?_some hfind
  simp only [Bool.and_eq_true, beq_iff_eq] at hi
  obtain ⟨⟨hkind, hw⟩, -⟩ := hi
  have hmay : d.sequencerMay l i = true := by simp [Dev.sequencerMay, hkind, hmet, hp, hidle]
  simp only [advance, hfind]
  rw [if_pos (by rw [decide_eq_true hdue, hmay]; rfl)]
  have hp' : (d.startEntry l i).physOf l = some p := hp
  unfold Dev.sequencer
  simp only [hkind, hp', hw]
  rw [Dev.pod, (Dev.finish_frame _ _ _ _ _).pods (by decide)]
  rfl

theorem Dev.turnWindow_head {d : Dev} {p w : Nat} (h : (kget Window.reset (d.pod p).windows w).size ≠ 0) :
    (kget Window.reset ((d.turnWindow p w).pod p).windows w).head =
      ((kget Window.reset (d.pod p).windows w).head + (kget Window.reset (d.pod p).windows w).stp) %
        (kget Window.reset (d.pod p).windows w).size := by
  rw [Dev.turnWindow, Dev.modPod_pod]
  dsimp only
  rw [kget_kmod_same]
  exact if_neg h

/-- Settles O20. -/
theorem movers : Obligations.Movers := by
  refine ⟨fun s m work part ws t i ht hi => ⟨_, rfl, ?_⟩, fun s m bad ecc g rest hg => ⟨_, rfl, ?_⟩,
    fun s l w p i hp hfind hdue hmet hidle hsize => ⟨_, rfl, ?_⟩⟩
  · obtain ⟨y, hy, hmove⟩ := move_mover ht hi part.val ws
    have hopen : (y.mover m.val).opened ≠ [] := by rw [hy]; simp
    have hlen : (y.mover m.val).opened.length = (s.dev.mover m.val).opened.length + 1 := by rw [hy]; simp
    have hraise : ∀ c i x, (y.raise c i x).mover m.val = y.mover m.val := fun c i x => by simp only [Dev.mover, Dev.raise_movers]
    rw [hmove]
    split
    · next hclose =>
      obtain ⟨z, hz, heq⟩ : ∃ z : Dev, z.mover m.val = y.mover m.val ∧ (if (mdesc ws).fence = true then y.closeGroup m.val
          else if 64 ≤ (y.mover m.val).opened.length then (y.raise 0x0409 m.val 0).closeGroup m.val else y) = z.closeGroup m.val := by
        by_cases hf : (mdesc ws).fence = true
        · exact ⟨y, rfl, if_pos hf⟩
        · have h64 : 64 ≤ (y.mover m.val).opened.length := by rw [hlen]; have := hclose.resolve_left hf; omega
          exact ⟨_, hraise _ _ _, by rw [if_neg hf, if_pos h64]⟩
      rw [heq]
      obtain ⟨hnone, g, hgroups, hdescs⟩ := z.closeGroup_mover (mv := m.val) (by rw [hz]; exact hopen)
      obtain ⟨ho, hg⟩ := Mover.tag_closed (k := s.dev.ticket t i) hnone hgroups
      refine ⟨ho, _, hg.trans (by rw [hz, hy]), rfl, ?_⟩
      refine hdescs.trans ?_
      rw [hz, hy, List.map_append]
      rfl
    · next hstay =>
      rw [not_or] at hstay
      rw [if_neg hstay.1, if_neg (by omega), Mover.tag, if_neg hopen, hy]
      exact ⟨rfl, rfl, rfl⟩
  · beta_reduce
    rw [fenceGroupComplete_mover hg]
    refine FenceGroup.words_of_shape ((Dev.launch_shape _ _).1.trans ?_)
    rw [Dev.modMover_mover]
  · beta_reduce
    rw [advance_turns hp hfind hdue hmet hidle]
    exact Dev.turnWindow_head (d := s.dev.startEntry l.val i) hsize

/-! Solver jobs (R309, R323, R326, R329). -/

theorem Dev.solver_of_frame {l : List Part} {a b : Dev} (h : Dev.Frame l a b) (hs : Part.solvers ∉ l) (e : Nat) : b.solver e = a.solver e := by
  rw [Dev.solver, h.solvers hs]
  rfl

theorem Dev.endJob_frees (d : Dev) (e : Nat) (r : RunJob) (rec : Option Done) (err : Bool) : ((d.endJob e r rec err).solver e).job = none := by
  unfold Dev.endJob
  dsimp only
  rw [Dev.solver_of_frame (Dev.finish_frame _ _ _ _ _) (by decide)]
  split
  · rw [Dev.solver_of_frame (Dev.storeA_frame _ _ _ _) (by decide), Dev.modSolver_solver]
  · rw [Dev.modSolver_solver]

/-- Solver engine `e` works on no job. -/
def Dev.JobFree (e : Nat) (d : Dev) : Prop := (d.solver e).job = none

theorem Dev.JobFree.ite {e : Nat} {a b : Dev} {q : Prop} [Decidable q] (ha : a.JobFree e) (hb : b.JobFree e) :
    Dev.JobFree e (if q then a else b) := by
  split
  · exact ha
  · exact hb

theorem Dev.JobFree.modSolver {d : Dev} {e : Nat} (h : d.JobFree e) {f : Solver → Solver} (hf : ∀ s, (f s).job = s.job) :
    (d.modSolver e f).JobFree e := by
  rw [Dev.JobFree, Dev.modSolver_solver, hf]
  exact h

theorem Dev.faultJob_frees (d : Dev) (e : Nat) (r : RunJob) (cause : Nat) : (d.faultJob e r cause).JobFree e := by
  unfold Dev.faultJob
  exact Dev.endJob_frees _ _ _ _ _

theorem Dev.deliver_frees (d : Dev) (e : Nat) (r : RunJob) (x : Solution) (t : Option Times) (cut : Bool) (k : Done) :
    (d.deliver e r x t cut k).JobFree e := by
  unfold Dev.deliver
  exact Dev.endJob_frees _ _ _ _ _

theorem Dev.deliverAuction_frees (d : Dev) (e : Nat) (r : RunJob) (s : Auction) (m : CostMatrix) (status phases rounds : Nat) (cut : Bool) :
    (d.deliverAuction e r s m status phases rounds cut).JobFree e := by
  unfold Dev.deliverAuction
  exact Dev.endJob_frees _ _ _ _ _

theorem Dev.deliverIters_frees (d : Dev) (e : Nat) (r : RunJob) (j : Job) (s : Sys) (l : List Iter) (done : Nat) (cut : Bool) :
    (d.deliverIters e r j s l done cut).JobFree e := by
  unfold Dev.deliverIters
  exact Dev.deliver_frees _ _ _ _ _ _ _

theorem Dev.runAuction_frees (d : Dev) (e : Nat) (r : RunJob) (cut : Option (Nat × Nat)) : (d.runAuction e r cut).JobFree e := by
  unfold Dev.runAuction
  cases cut with
  | none => exact Dev.deliverAuction_frees _ _ _ _ _ _ _ _ _
  | some x => exact Dev.deliverAuction_frees _ _ _ _ _ _ _ _ _

theorem Dev.runIters_frees (d : Dev) (e : Nat) (r : RunJob) (cut : Option Nat) : (d.runIters e r cut).JobFree e := by
  unfold Dev.runIters
  refine .ite (Dev.endJob_frees _ _ _ _ _) (.ite (Dev.faultJob_frees _ _ _ _) ?_)
  cases cut with
  | none => exact .ite (Dev.endJob_frees _ _ _ _ _) (Dev.deliverIters_frees _ _ _ _ _ _ _ _)
  | some k => exact .ite (.modSolver (Dev.deliverIters_frees _ _ _ _ _ _ _ _) fun _ => rfl) (Dev.deliverIters_frees _ _ _ _ _ _ _ _)

theorem Dev.runSparse_frees (d : Dev) (e : Nat) (r : RunJob) : (d.runSparse e r).JobFree e := by
  unfold Dev.runSparse
  exact .ite (Dev.faultJob_frees _ _ _ _) (Dev.deliver_frees _ _ _ _ _ _ _)

theorem Dev.runDense_frees (d : Dev) (e : Nat) (r : RunJob) : (d.runDense e r).JobFree e := by
  unfold Dev.runDense
  exact Dev.deliver_frees _ _ _ _ _ _ _

/-- A job that runs to its end frees its engine. -/
theorem Dev.runJob_frees (d : Dev) (e : Nat) (r : RunJob) : (d.runJob e r).JobFree e := by
  unfold Dev.runJob
  exact .ite (Dev.runAuction_frees _ _ _ _) (.ite (Dev.runIters_frees _ _ _ _) (.ite (Dev.runSparse_frees _ _ _) (Dev.runDense_frees _ _ _)))

/-- A job that is cut frees its engine. -/
theorem Dev.cutJob_frees (d : Dev) (e : Nat) (r : RunJob) (done rounds : Nat) : (d.cutJob e r done rounds).JobFree e := by
  unfold Dev.cutJob
  refine .ite (Dev.runAuction_frees _ _ _ _) (.ite (Dev.runIters_frees _ _ _ _) ?_)
  unfold Dev.abortJob
  exact Dev.deliver_frees _ _ _ _ _ _ _

theorem Dev.engineOut_frees {d : Dev} {e : Nat} (h : d.JobFree e) : (d.engineOut e).JobFree e := by
  unfold Dev.engineOut
  refine .ite h ?_
  dsimp only
  split
  · exact Dev.faultJob_frees _ _ _ _
  · assumption

theorem Dev.engineCompare_frees {d : Dev} {e : Nat} (h : d.JobFree e) : (d.engineCompare e).JobFree e := by
  have hfree : ∀ l, ((((d.raise 0x0A08 e 0).occur 0x6802 (e + 1)).modSolver e (fun s => { s with compares := l }))).JobFree e := fun l => by
    refine .modSolver ?_ fun _ => rfl
    rw [Dev.JobFree, Dev.solver_of_frame (Dev.occur_frame _ _ _) (by decide), Dev.solver_of_frame (Dev.raise_frame _ _ _ _) (by decide)]
    exact h
  unfold Dev.engineCompare
  exact .ite (Dev.engineOut_frees (hfree _)) (hfree _)

theorem solverJobComplete_frees {d : Dev} {e : Nat} {r : RunJob} (hr : (d.solver e).job = some r) (lost parity : Bool) (ecc : List EccEvent) :
    (solverJobComplete e lost parity ecc d).JobFree e := by
  simp only [solverJobComplete, hr]
  refine .ite (Dev.engineCompare_frees (Dev.faultJob_frees _ _ _ _)) (.ite (Dev.faultJob_frees _ _ _ _) (.ite (Dev.faultJob_frees _ _ _ _)
    (.ite ?_ (Dev.runJob_frees _ _ _))))
  rw [Dev.JobFree, Dev.solver_of_frame (Dev.bumpFree_frame _) (by decide)]
  exact Dev.faultJob_frees _ _ _ _

/-- Settles O21. -/
theorem solverJobs : Obligations.SolverJobs := by
  refine ⟨fun s e w part work i tr hrun hin hfree hi => ?_, fun s e lost par ecc r hr => ⟨_, rfl, solverJobComplete_frees hr lost par ecc⟩,
    fun s e n k r hr hcut => ⟨_, rfl, ?_⟩⟩
  · intro r b hok hmay hcut
    refine ⟨_, rfl, ?_⟩
    unfold solve
    simp only [hin, hfree, hrun, hi]
    rw [if_neg (by decide), if_neg (by simp), if_neg (by rw [not_not]; exact hok), if_neg (by rw [hmay]; decide), if_neg (by rw [hcut]; decide),
      Dev.modSolver_solver]
  · beta_reduce
    simp only [solverCut, hr]
    rw [if_pos hcut]
    exact Dev.cutJob_frees _ _ _ _ _

end Sys2Proof.Machine

/-! PROOF. The cycle: instants, the acceptance window, the commit and the safety summary (R25, R27, R36, R37, R345 to R347, R376). -/

namespace Sys2Proof.Machine
open Sys2Proof

/-! Rules for what holds of both branches, or through every step of a fold. -/

theorem ite_both {α : Type} {P : α → Prop} {q : Prop} [Decidable q] {a b : α} (ha : P a) (hb : P b) : P (if q then a else b) := by
  split
  · exact ha
  · exact hb

/-! The instant (R25, R36, R37, R202). -/

/-- The power state, the time counter and the time scale. -/
def Dev.clock (d : Dev) : PowerState × BitVec 96 × Bool := (d.power.state, d.time.counter, d.time.epoch)

theorem Dev.Frame.clock {l : List Part} {a b : Dev} (h : Dev.Frame l a b) (hs : Part.power ∉ l ∧ Part.time ∉ l) : b.clock = a.clock := by
  rw [Dev.clock, h.power hs.1, h.time hs.2]
  rfl

theorem Dev.raise_clock (d : Dev) (c i x : Nat) : (d.raise c i x).clock = d.clock := by
  simp only [Dev.clock, Dev.raise_state, Dev.raise_time]

theorem Dev.scheduleTrig_clock (d : Dev) (pin start : Nat) : (d.scheduleTrig pin start).clock = d.clock := by
  have hmod : ∀ (e : Dev) (f : Trig → Trig), (e.modTrig pin f).clock = e.clock := fun _ _ => rfl
  unfold Dev.scheduleTrig
  split
  · exact ite_both (P := fun e : Dev => e.clock = d.clock) ((hmod _ _).trans (Dev.raise_clock _ _ _ _)) (hmod _ _)
  · exact hmod _ _

theorem Dev.rescheduleTrigs_clock (d : Dev) : d.rescheduleTrigs.clock = d.clock :=
  foldl_keeps (g := Dev.clock) (fun e _ => ite_both (P := fun x : Dev => x.clock = e.clock) (Dev.scheduleTrig_clock e _ _) rfl) _ d

theorem Dev.nextInstant_opens {d : Dev} (h : d.lockDue = none) (n : Int) : d.nextInstant n = d.openCycleAt n (n + d.period) := by
  simp only [Dev.nextInstant, h]

theorem Dev.nextInstant_steps {d : Dev} {x : Dom} (h : d.lockDue = some x) (n : Int) :
    ∃ e : Dev, d.nextInstant n = e.rescheduleTrigs ∧ e.clock = (d.lockStep x).clock ∧ e.cyc.number = (d.lockStep x).cyc.number + 1 := by
  simp only [Dev.nextInstant, h]
  exact ⟨_, rfl, rfl, rfl⟩

/-- The first-lock step sets the counter and the time scale, and opens no cycle itself (R37). -/
theorem Dev.lockStep_clock (d : Dev) (x : Dom) :
    (d.lockStep x).clock = (d.power.state, d.time.counter + BitVec.ofInt 96 (d.offsetNow x), true) ∧
      (d.lockStep x).cyc.number = d.cyc.number := by
  have hslots : ∀ (l : List Nat) (e : Dev),
      (l.foldl (fun (d : Dev) n => d.modSlot n (fun s => s.shift (d.cyc.number.toNat + 1) d.deltaNs)) e).clock = e.clock ∧
        (l.foldl (fun (d : Dev) n => d.modSlot n (fun s => s.shift (d.cyc.number.toNat + 1) d.deltaNs)) e).cyc = e.cyc := fun l e =>
    ⟨foldl_keeps (g := Dev.clock) (by intros; rfl) l e, foldl_keeps (g := fun d : Dev => d.cyc) (by intros; rfl) l e⟩
  have hset : ∀ e : Dev, e.setTimeState.clock = e.clock ∧ e.setTimeState.cyc = e.cyc := fun _ => ⟨rfl, rfl⟩
  have hstart : ∀ (e : Dev) (f : Startup → Startup), (e.modStart f).clock = e.clock ∧ (e.modStart f).cyc = e.cyc := fun _ _ => ⟨rfl, rfl⟩
  unfold Dev.lockStep
  refine ite_both (P := fun e : Dev => e.clock = _ ∧ e.cyc.number = _) ?_ ?_
  · rw [(hstart _ _).1, (hstart _ _).2, (hset _).1, (hset _).2, (hslots _ _).1, (hslots _ _).2]
    exact ⟨rfl, rfl⟩
  · rw [(hset _).1, (hset _).2, (hslots _ _).1, (hslots _ _).2]
    exact ⟨rfl, rfl⟩

/-- The device that opens the cycle: out of READY it is in RUN first (R420). -/
theorem Dev.beginRun_inRun {d : Dev} (h : d.inRun = true) : d.beginRun = d := if_pos h

theorem Dev.beginRun_runs (d : Dev) : d.beginRun.inRun = true := by
  unfold Dev.beginRun
  split
  · assumption
  · rfl

theorem Dev.nextInstant_number (d : Dev) (n : Int) :
    (d.nextInstant n).cyc.number = d.cyc.number + 1 ∧ (d.nextInstant n).power.state = d.power.state := by
  cases h : d.lockDue with
  | none =>
    rw [Dev.nextInstant_opens h]
    exact ⟨rfl, rfl⟩
  | some x =>
    obtain ⟨e, he, hclock, hnumber⟩ := Dev.nextInstant_steps h n
    obtain ⟨hlock, hkept⟩ := d.lockStep_clock x
    rw [he]
    refine ⟨?_, ?_⟩
    · rw [(Dev.rescheduleTrigs_frame _).cyc (by decide), hnumber, hkept]
    · have hclk : e.rescheduleTrigs.clock = _ := e.rescheduleTrigs_clock.trans (hclock.trans hlock)
      unfold Dev.clock at hclk
      exact (Prod.mk.inj hclk).1

/-- What a due instant does once its cycle stands: nothing of the cycle, of the power state or of the time changes any more. -/
theorem cycleInstant_opens {d : Dev} {n : Int} (hn : d.cyc.next = some n) (hdue : n ≤ d.now) (hroom : d.cyc.flight.length < 2)
    (hstate : d.inRun = true ∨ d.inReady = true) :
    (cycleInstant d).cyc = (d.beginRun.nextInstant n).cyc ∧ (cycleInstant d).clock = (d.beginRun.nextInstant n).clock := by
  have harm : ∀ (l : List Nat) (e : Dev), (l.foldl (fun (d : Dev) t => d.armPass t) e).cyc = e.cyc ∧
      (l.foldl (fun (d : Dev) t => d.armPass t) e).clock = e.clock := fun l e =>
    ⟨foldl_keeps (g := fun d : Dev => d.cyc) (fun d t => (d.armPass_frame t).cyc (by decide)) l e,
      foldl_keeps (g := Dev.clock) (fun d t => (d.armPass_frame t).clock (by decide)) l e⟩
  unfold cycleInstant
  simp only [hn]
  rw [if_pos ⟨hdue, hroom, hstate⟩, (harm _ _).1, (harm _ _).2, (Dev.takeReplacement_frame _).cyc (by decide),
    (Dev.takeReplacement_frame _).clock (by decide), (Dev.countSilence_frame _).cyc (by decide), (Dev.countSilence_frame _).clock (by decide),
    (Dev.pairFrom_frame _ _).cyc (by decide), (Dev.pairFrom_frame _ _).clock (by decide)]
  exact ⟨rfl, rfl⟩

/-- Settles O22. -/
theorem cycleInstants : Obligations.CycleInstants := by
  refine ⟨fun s n hn hdue hroom hrun hlock => ⟨_, rfl, ?_⟩, fun s n hn hdue hroom hready => ⟨_, rfl, ?_⟩,
    fun s n x hn hdue hroom hrun hlock => ⟨_, rfl, ?_⟩⟩
  · obtain ⟨hcyc, -⟩ := cycleInstant_opens hn hdue hroom (Or.inl hrun)
    rw [hcyc, Dev.beginRun_inRun hrun, Dev.nextInstant_opens hlock]
    exact ⟨rfl, rfl, rfl, List.length_append⟩
  · obtain ⟨hcyc, hclock⟩ := cycleInstant_opens hn hdue hroom (Or.inr hready)
    obtain ⟨hnumber, hstate⟩ := s.dev.beginRun.nextInstant_number n
    refine ⟨?_, ?_⟩
    · have hkept : (cycleInstant s.dev).power.state = s.dev.beginRun.power.state := (congrArg Prod.fst hclock).trans hstate
      have hrun := s.dev.beginRun_runs
      rw [Dev.inRun] at hrun ⊢
      rw [hkept]
      exact hrun
    · rw [hcyc, hnumber, (Dev.beginRun_frame _).cyc (by decide)]
  · obtain ⟨-, hclock⟩ := cycleInstant_opens hn hdue hroom (Or.inl hrun)
    obtain ⟨e, he, hstep, -⟩ := Dev.nextInstant_steps hlock n
    rw [Dev.beginRun_inRun hrun, he, Dev.rescheduleTrigs_clock, hstep, (s.dev.lockStep_clock x).1] at hclock
    exact ⟨(congrArg (fun c => c.2.2) hclock :), (congrArg (fun c => c.2.1) hclock :)⟩

/-! What a cycle decided, and what follows it (R346, R347, R362). -/

/-- What the commit or the discard of a cycle leaves in the Hull: generation, zones, pair tiers, the cycle, its outcome, and the discards
in a row. -/
def Hull.outcome (h : Hull) : BitVec 32 × BitVec 64 × Store Nat × Nat × Bool × Nat :=
  (h.g, h.zones, h.pairTiers, h.lastCycle, h.lastDiscarded, h.discards)

theorem Hull.outcome_of_undecided {a b : Hull} (h : b.undecided = a.undecided) : b.outcome = a.outcome := by
  have hkept := congrArg Hull.outcome h
  exact hkept

/-- A step after the decision: it leaves the outcome, the cycles and the fusion copies, and lowers no tier. -/
structure Dev.After (a b : Dev) : Prop where
  outcome : b.hull.outcome = a.hull.outcome
  tier : a.hull.tier ≤ b.hull.tier
  cyc : b.cyc = a.cyc
  fus : b.fus = a.fus

theorem Dev.After.refl (d : Dev) : Dev.After d d := ⟨rfl, Nat.le_refl _, rfl, rfl⟩

theorem Dev.After.trans {a b c : Dev} (h : Dev.After a b) (g : Dev.After b c) : Dev.After a c :=
  ⟨g.outcome.trans h.outcome, Nat.le_trans h.tier g.tier, g.cyc.trans h.cyc, g.fus.trans h.fus⟩

theorem Dev.After.ite {a b c : Dev} {q : Prop} [Decidable q] (hb : Dev.After a b) (hc : Dev.After a c) : Dev.After a (if q then b else c) :=
  ite_both (P := Dev.After a) hb hc

theorem Dev.After.of_twin {d c : Dev} {t : Twin} (h : Dev.After { d with twin := t } c) : Dev.After d c :=
  ⟨h.outcome, h.tier, h.cyc, h.fus⟩

theorem Dev.After.of_needReset {d c : Dev} {b : Bool} (h : Dev.After { d with hull := { d.hull with needReset := b } } c) : Dev.After d c :=
  ⟨h.outcome, h.tier, h.cyc, h.fus⟩

theorem Dev.Frame.after {l : List Part} {a b : Dev} (h : Dev.Frame l a b) (hs : Part.hull ∉ l ∧ Part.cyc ∉ l ∧ Part.fus ∉ l) :
    Dev.After a b := by
  have hhull := h.hull hs.1
  exact ⟨by rw [hhull], by rw [hhull], h.cyc hs.2.1, h.fus hs.2.2⟩

theorem Dev.demand_after (d : Dev) (src tier cause : Nat) : Dev.After d (d.demand src tier cause) := by
  refine ⟨Hull.outcome_of_undecided (b := (d.demand src tier cause).hull)
    (a := { d.hull with demands := kset 0 d.hull.demands src tier }) (d.demand_undecided src tier cause), ?_,
    (Dev.demand_frame _ _ _ _).cyc (by decide), (Dev.demand_frame _ _ _ _).fus (by decide)⟩
  rw [Dev.demand, Dev.retier_tier]
  exact Nat.le_max_left _ _

theorem Dev.sendStatus_after (d : Dev) : Dev.After d d.sendStatus := by
  refine ⟨Hull.outcome_of_undecided d.sendStatus_undecided, Nat.le_of_eq ?_, d.sendStatus_frame.cyc (by decide),
    d.sendStatus_frame.fus (by decide)⟩
  unfold Dev.sendStatus
  split
  · rfl
  · symm
    refine (foldl_keeps (g := fun d : Dev => d.hull.tier) (fun d e => ?_) _ _).trans rfl
    exact foldl_keeps (g := fun d : Dev => d.hull.tier) (by intros; rfl) _ _

theorem Dev.announce_after (d : Dev) (status tx : BitVec 16) : Dev.After d (d.announce status tx) := by
  have htwin : Dev.After d (if d.twin.txSeq = tx then d.sendDecision else d) :=
    .ite ((Dev.sendDecision_frame _).after (by decide)) (.refl d)
  unfold Dev.announce
  exact .ite (htwin.trans (Dev.sendStatus_after _)) htwin

theorem Dev.agreed_after (d : Dev) : Dev.After d d.agreed := by
  unfold Dev.agreed
  exact .of_twin (.ite (.refl _) (Dev.demand_after _ _ _ _))

/-- A report with its records, and the demand it makes. -/
theorem Dev.reportDemand_after (d : Dev) (cause src tier : Nat) :
    Dev.After d (((d.raise cause 0 0).recEvent cause).demand src tier cause) :=
  (((Dev.raise_frame d cause 0 0).after (by decide)).trans ((Dev.recEvent_frame _ _).after (by decide))).trans (Dev.demand_after _ _ _ _)

theorem Dev.mismatch_after (d : Dev) : Dev.After d d.mismatch := by
  unfold Dev.mismatch
  exact .of_twin (.ite (.of_needReset (Dev.reportDemand_after _ _ _ _)) (.refl _))

theorem Dev.tolerance_after (d : Dev) (ok : Bool) : Dev.After d (d.tolerance ok) := by
  unfold Dev.tolerance
  exact .ite (.of_twin (.ite (Dev.demand_after _ _ _ _) (.refl _))) (.of_twin (.ite (Dev.reportDemand_after _ _ _ _) (.refl _)))

theorem Dev.crossCheck_after (d : Dev) (t : Decided) : Dev.After d (d.crossCheck t) := by
  unfold Dev.crossCheck
  split
  · exact ((Dev.markCompared_frame d _).after (by decide)).trans (.ite (.refl _) (.ite (Dev.agreed_after _) (Dev.mismatch_after _)))
  · exact .refl d

theorem Dev.earlyValues_after (d : Dev) (x : Decided) : Dev.After d (d.earlyValues x) := by
  unfold Dev.earlyValues
  split
  · exact .of_twin (.ite (.refl _) (Dev.tolerance_after _ _))
  · exact .refl d

theorem Dev.keepDecision_after (d : Dev) (x : Decided) : Dev.After d (d.keepDecision x) := by
  unfold Dev.keepDecision
  refine .ite (.of_twin (t := { d.twin with own := (x :: d.twin.own).take 8 }) (.trans ?_ (Dev.earlyValues_after _ x))) (.refl d)
  split
  · exact Dev.crossCheck_after _ _
  · exact .refl _

theorem Dev.lower_outcome (d : Dev) : d.lower.hull.outcome = d.hull.outcome := by
  have hshow : ∀ e : Dev, e.showTier.hull.outcome = e.hull.outcome := fun e => Hull.outcome_of_undecided e.showTier_undecided
  have hlatch : ∀ (q : Prop) [Decidable q], (if q then { d with hull := { d.hull with latch := false } } else d : Dev).hull.outcome = d.hull.outcome :=
    fun q _ => ite_both (P := fun e : Dev => e.hull.outcome = d.hull.outcome) rfl rfl
  unfold Dev.lower
  refine ite_both (P := fun e : Dev => e.hull.outcome = d.hull.outcome)
    (ite_both (P := fun e : Dev => e.hull.outcome = d.hull.outcome) (hlatch _) ?_) rfl
  rw [hshow]
  exact hlatch _

theorem Dev.settleTier_outcome (d : Dev) : d.settleTier.hull.outcome = d.hull.outcome := by
  have hbase : (d.retier 0).lower.hull.outcome = d.hull.outcome :=
    (Dev.lower_outcome _).trans (Hull.outcome_of_undecided (d.retier_undecided 0 false))
  have hrestore : ∀ e : Dev, e.restoreOutputs.hull.outcome = e.hull.outcome := fun e => by
    unfold Dev.restoreOutputs
    exact ite_both (P := fun x : Dev => x.hull.outcome = e.hull.outcome) rfl rfl
  unfold Dev.settleTier
  refine ite_both (P := fun e : Dev => e.hull.outcome = d.hull.outcome) hbase ?_
  rw [(Dev.sendCommand_frame _).hull (by decide), hrestore]
  exact hbase

/-! The commit (R346). -/

theorem Dev.latchCommit_outcome (d : Dev) (c : CycleCtx) (zones : BitVec 64) (tiers : Store Nat) :
    (d.latchCommit c zones tiers).hull.outcome = (d.hull.g + 1, zones, tiers, c.number, false, 0) ∧
      (d.latchCommit c zones tiers).cyc.flight = d.cyc.flight.drop 1 := ⟨rfl, rfl⟩

/-- What a commit does to the Hull's record, to the flight and to the fusion copies. -/
theorem commitCycle_effect (c : CycleCtx) (zones : BitVec 64) (tiers : Store Nat) (vals : Store PairEntry) (d : Dev) :
    (commitCycle c zones tiers vals d).hull.outcome = (d.hull.g + 1, zones, tiers, c.number, false, 0) ∧
      (commitCycle c zones tiers vals d).cyc.flight = d.cyc.flight.drop 1 ∧
      (commitCycle c zones tiers vals d).fus = (d.commitGrid.resolveParents c.number).fus := by
  generalize hx : ((d.commitGrid.resolveParents c.number).commitAttention c.number).latchCommit c zones tiers = x
  have hatt := (d.commitGrid.resolveParents c.number).commitAttention_frame c.number
  have hgrid := d.commitGrid_frame
  have hpar := d.commitGrid.resolveParents_frame c.number
  have hg : ((d.commitGrid.resolveParents c.number).commitAttention c.number).hull.g = d.hull.g := by
    rw [hatt.hull (by decide), hpar.hull (by decide), hgrid.hull (by decide)]
  have hflight : ((d.commitGrid.resolveParents c.number).commitAttention c.number).cyc.flight = d.cyc.flight := by
    rw [hatt.cyc (by decide), hpar.cyc (by decide), hgrid.cyc (by decide)]
  have hlatch := ((d.commitGrid.resolveParents c.number).commitAttention c.number).latchCommit_outcome c zones tiers
  have hsettle := x.settleTier_frame
  have hafter : Dev.After x.settleTier (commitCycle c zones tiers vals d) := by
    unfold commitCycle
    rw [← hx]
    refine .trans ?_ ((Dev.cycleRecords_frame _ _ _).after (by decide))
    refine .trans ?_ (Dev.keepDecision_after _ _)
    refine .trans ?_ ((Dev.sendValues_frame _ _ _).after (by decide))
    refine .trans ?_ (Dev.announce_after _ _ _)
    refine .trans ?_ ((Dev.trialCommitted_frame _).after (by decide))
    refine .trans ?_ ((Dev.endStep11_frame _).after (by decide))
    exact .ite ((Dev.firstCommitDone_frame _).after (by decide)) (.refl _)
  rw [hx, hg, hflight] at hlatch
  refine ⟨?_, ?_, ?_⟩
  · rw [hafter.outcome, Dev.settleTier_outcome, hlatch.1]
  · rw [hafter.cyc, hsettle.cyc (by decide), hlatch.2]
  · rw [hafter.fus, hsettle.fus (by decide), ← hx, (Dev.latchCommit_frame _ _ _ _).fus (by decide), hatt.fus (by decide)]

/-- The generation after this one is the copy that the candidate is in. -/
theorem Dev.fusC_of_next {a b : Dev} (hg : b.hull.g = a.hull.g + 1) (hf : b.fus = a.fus) : b.fusC = a.fusN := by
  have hparity : (a.hull.g + 1).toNat % 2 = 0 ↔ ¬ a.hull.g.toNat % 2 = 0 := by
    rw [BitVec.toNat_add]
    have := a.hull.g.isLt
    simp
    omega
  unfold Dev.fusC Dev.fusN
  rw [hg, hf]
  by_cases h : a.hull.g.toNat % 2 = 0
  · rw [if_pos h, if_neg (fun k => hparity.1 k h)]
  · rw [if_neg h, if_pos (hparity.2 h)]

/-! The discard (R347, R376). -/

theorem Dev.retirePage_vals (d : Dev) (hot : Bool) (p : Nat) : (d.retirePage hot p).dict.vals = d.dict.vals := by
  unfold Dev.retirePage
  exact ite_both (P := fun e : Dev => e.dict.vals = d.dict.vals) rfl (Dev.raise_vals _ _ _ _)

theorem Dev.retirePoisoned_vals (d : Dev) : d.retirePoisoned.dict.vals = d.dict.vals := by
  have hpage : ∀ (e : Dev) (w : Nat), (match e.kvPage w with | some (h, p) => e.retirePage h p | none => e).dict.vals = e.dict.vals := fun e w => by
    split
    · exact Dev.retirePage_vals _ _ _
    · rfl
  unfold Dev.retirePoisoned
  exact ite_both (P := fun e : Dev => e.dict.vals = d.dict.vals) rfl (foldl_keeps (g := fun e : Dev => e.dict.vals) hpage _ d)

/-- The attention's part of a discard writes no object. -/
theorem Dev.discardAttention_vals (d : Dev) : d.discardAttention.dict.vals = d.dict.vals := by
  unfold Dev.discardAttention
  refine ite_both (P := fun e : Dev => e.dict.vals = d.dict.vals) rfl ((Dev.retirePoisoned_vals _).trans ?_)
  refine foldl_keeps (g := fun e : Dev => e.dict.vals) (fun e g => ?_) _ d
  refine (foldl_keeps (g := fun e : Dev => e.dict.vals) (fun e k => ?_) _ _).trans ?_
  · split <;> rfl
  · refine (congrArg Dict.vals ((Dev.modKv_frame _ _).dict (by decide))).trans ?_
    have hhot : (if (e.kvRec g 64).hot then e.freeHot (e.kvRec g 64).hotRun else e).dict.vals = e.dict.vals :=
      ite_both (P := fun x : Dev => x.dict.vals = e.dict.vals) rfl rfl
    exact ite_both (P := fun x : Dev => x.dict.vals = e.dict.vals) hhot hhot

/-- The device at a discard, before the count of discards is compared with its bound. -/
def Dev.discarded (d : Dev) (c : CycleCtx) : Dev :=
  let d := ((d.raise 0x0B04 0 0).effect 0x0B04 1).count 0xB000 2
  { d with
    cyc := { d.cyc with flight := d.cyc.flight.drop 1 },
    hull := { d.hull with
      discards := satU 8 (d.hull.discards + 1), genFault := none, lastCycle := c.number, lastDiscarded := true, lastTv := c.tv,
      rel := [0, 0, 0] } }

theorem Dev.countDiscard_eq (d : Dev) (c : CycleCtx) :
    d.countDiscard c = if (d.discarded c).cfg 0x7000 4 < (d.discarded c).hull.discards then
      ((d.discarded c).raise 0x0B05 0 0).demand srcDiscard 3 0x0B05 else d.discarded c := rfl

theorem Dev.discarded_effect (d : Dev) (c : CycleCtx) :
    (d.discarded c).hull.outcome = (d.hull.g, d.hull.zones, d.hull.pairTiers, c.number, true, satU 8 (d.hull.discards + 1)) ∧
      (d.discarded c).cyc.flight = d.cyc.flight.drop 1 ∧ (d.discarded c).fus = d.fus ∧ (d.discarded c).cfg 0x7000 4 = d.cfg 0x7000 4 := by
  refine ⟨?_, ?_, ?_, ?_⟩
  · simp only [Dev.discarded, Hull.outcome, Dev.count_hull, Dev.effect_hull, Dev.raise_hull]
  · simp only [Dev.discarded, Dev.count_cyc, Dev.effect_cyc, Dev.raise_cyc]
  · simp only [Dev.discarded, Dev.count_fus, Dev.effect_fus, Dev.raise_fus]
  · refine Dev.cfg_of_vals ?_ ?_ _ _
    · simp only [Dev.discarded, Dev.count_vals, Dev.effect_dict, Dev.raise_vals]
    · simp only [Dev.discarded, Dev.count_code, Dev.effect_code, Dev.raise_code]

theorem Dev.discarded_inv {d : Dev} (h : d.Inv) (c : CycleCtx) : (d.discarded c).Inv := by
  obtain ⟨hmem, hcode, hflight, hhull⟩ := h
  unfold Dev.Inv
  simp only [Dev.discarded, Dev.count_hull, Dev.effect_hull, Dev.raise_hull, Dev.count_cyc, Dev.effect_cyc, Dev.raise_cyc, Dev.count_mem,
    Dev.effect_mem, Dev.raise_mem, Dev.count_code, Dev.effect_code, Dev.raise_code]
  exact ⟨hmem, hcode, by rw [List.length_drop]; omega, hhull⟩

theorem Dev.countDiscard_after (d : Dev) (c : CycleCtx) : Dev.After (d.discarded c) (d.countDiscard c) := by
  rw [Dev.countDiscard_eq]
  exact .ite (.trans ((Dev.raise_frame _ _ _ _).after (by decide)) (Dev.demand_after _ _ _ _)) (.refl _)

theorem discardCycle_effect (c : CycleCtx) (d : Dev) :
    (discardCycle c d).hull.outcome = (d.hull.g, d.hull.zones, d.hull.pairTiers, c.number, true, satU 8 (d.hull.discards + 1)) ∧
      (discardCycle c d).cyc.flight = d.cyc.flight.drop 1 ∧ (discardCycle c d).fus = d.fus ∧
      (d.Inv → d.cfg 0x7000 4 < satU 8 (d.hull.discards + 1) → (discardCycle c d).Stopped) := by
  have hatt := d.discardAttention_frame
  have hblame := d.discardAttention.blameDiscard_frame
  have hbefore : Dev.Frame [.log, .dict, .kv, .power, .recd] d d.discardAttention.blameDiscard :=
    hatt.trans (hblame.mono (by decide))
  generalize hx : d.discardAttention.blameDiscard = x at hbefore
  obtain ⟨houtcome, hflight, hfus, hcfg⟩ := x.discarded_effect c
  have hafter : Dev.After (x.countDiscard c) (discardCycle c d) := by
    unfold discardCycle
    rw [hx]
    refine .trans ?_ ((Dev.cycleRecords_frame _ _ _).after (by decide))
    refine .trans ?_ (Dev.keepDecision_after _ _)
    refine .trans ?_ (Dev.announce_after _ _ _)
    exact (Dev.comparePointers_frame _).after (by decide)
  have hall := (x.countDiscard_after c).trans hafter
  rw [hbefore.hull (by decide)] at houtcome
  refine ⟨hall.outcome.trans houtcome, ?_, ?_, fun hinv hmany => ?_⟩
  · rw [hall.cyc, hflight, hbefore.cyc (by decide)]
  · rw [hall.fus, hfus, hbefore.fus (by decide)]
  · have hvals : x.dict.vals = d.dict.vals := by
      rw [← hx, hblame.dict (by decide), Dev.discardAttention_vals]
    have hxinv : x.Inv := (hbefore.inv (by decide)).2 hinv
    have hdiscards : (x.discarded c).hull.discards = satU 8 (d.hull.discards + 1) := by
      simp only [Hull.outcome, Prod.mk.injEq] at houtcome
      exact houtcome.2.2.2.2.2
    have hstop : (x.countDiscard c).hull.tier = 3 := by
      rw [Dev.countDiscard_eq, hcfg, hdiscards, Dev.cfg_of_vals hvals (hbefore.code (by decide)), if_pos hmany]
      exact (Dev.demand_stopped (((Dev.raise_frame _ _ _ _).inv (by decide)).2 (Dev.discarded_inv hxinv c)) _ _).1
    have hfinal := (discardCycle_inv c d hinv).hull
    have htier : (discardCycle c d).hull.tier = 3 := by
      have := hafter.tier
      have := hfinal.1
      omega
    exact ⟨htier, hfinal.2 htier⟩

/-! The window (R60, R81). -/

/-- The check of the intake keeps the flight, but for the marks of a complete intake. -/
theorem Dev.checkIntake_flight (d : Dev) : d.checkIntake.cyc.flight = d.cyc.flight ∨ ∃ k, d.checkIntake.cyc.flight = d.cyc.flight.map (CycleCtx.done k) := by
  unfold Dev.checkIntake
  split
  · split
    · exact Or.inl rfl
    · exact Or.inr ⟨_, Dev.intakeComplete_flight _ _⟩
  · exact Or.inl rfl

theorem CycleCtx.done_keeps (k : Nat) (c : CycleCtx) :
    (c.done k).closed = c.closed ∧ (c.done k).number = c.number ∧ (c.done k).masked = c.masked := by
  unfold CycleCtx.done
  split <;> exact ⟨rfl, rfl, rfl⟩

theorem acceptanceWindowClose_closes {d : Dev} {c : CycleCtx} {rest : List CycleCtx} (hf : d.cyc.flight = c :: rest) (hopen : c.closed = false)
    (hepoch : c.epoch = false) (hdue : c.tv + d.margin ≤ (d.now : Int)) :
    ∃ c', (acceptanceWindowClose d).cyc.flight.head? = some c' ∧ c'.closed = true ∧ c'.number = c.number ∧ c'.masked = d.committedMasks := by
  have hready : c.closed = false ∧ c.tv + (if c.epoch then d.deltaNs else 0) + d.margin ≤ (d.now : Int) := by
    rw [hepoch]
    exact ⟨hopen, by simpa using hdue⟩
  unfold acceptanceWindowClose
  simp only [hf]
  rw [if_pos hready]
  generalize hx : Dev.remark _ _ = x
  have hhead : x.cyc.flight = { c with closed := true, masked := d.committedMasks } :: rest := by
    rw [← hx, (Dev.remark_frame _ _).cyc (by decide), (Dev.planAttention_frame _ _ _).cyc (by decide), (Dev.startCandidate_frame _).cyc (by decide)]
  rcases x.checkIntake_flight with h | ⟨k, h⟩
  · rw [h, hhead]
    exact ⟨_, rfl, rfl, rfl, rfl⟩
  · rw [h, hhead]
    obtain ⟨h1, h2, h3⟩ := CycleCtx.done_keeps k { c with closed := true, masked := d.committedMasks }
    exact ⟨_, rfl, h1, h2, h3⟩

/-- Settles O23. -/
theorem cycleEnd : Obligations.CycleEnd := by
  refine ⟨fun s c rest hf hopen hepoch hdue => ⟨_, rfl, ?_⟩, fun s c rest z t v hf hclosed hdue hsum hgood hgen hend => ⟨_, rfl, ?_⟩,
    fun s c rest hf hclosed hdue hbad => ⟨_, rfl, ?_⟩⟩
  · exact acceptanceWindowClose_closes hf hopen hepoch hdue
  · have heq : commitDeadline s.dev = commitCycle c z t v s.dev := by
      simp only [commitDeadline, hf]
      rw [if_pos ⟨hclosed, hdue⟩, hsum]
      exact if_pos ⟨hgood, hgen, hend⟩
    obtain ⟨houtcome, hflight, hfus⟩ := commitCycle_effect c z t v s.dev
    beta_reduce
    rw [heq]
    simp only [Hull.outcome, Prod.mk.injEq] at houtcome
    obtain ⟨hg, hzones, htiers, hcycle, hlast, hdiscards⟩ := houtcome
    refine ⟨by rw [hflight, hf]; rfl, hg, hzones, htiers, hcycle, hlast, hdiscards, Dev.fusC_of_next ?_ hfus⟩
    rw [hg, (Dev.resolveParents_frame _ _).hull (by decide), (Dev.commitGrid_frame _).hull (by decide)]
  · have heq : commitDeadline s.dev = discardCycle c s.dev := by
      simp only [commitDeadline, hf]
      rw [if_pos ⟨hclosed, hdue⟩]
      split
      · next hsum =>
        refine if_neg fun ⟨hgood, hgen, hend⟩ => ?_
        rcases hbad with h | h | h | h
        · rw [h] at hsum; cases hsum
        · rw [hgood] at h; cases h
        · rw [hgen] at h; cases h
        · omega
      · rfl
    obtain ⟨houtcome, hflight, hfus, hstop⟩ := discardCycle_effect c s.dev
    beta_reduce
    rw [heq]
    simp only [Hull.outcome, Prod.mk.injEq] at houtcome
    obtain ⟨hg, hzones, htiers, -, hlast, hdiscards⟩ := houtcome
    refine ⟨by rw [hflight, hf]; rfl, hg, hzones, htiers, hlast, hdiscards, ?_, hstop⟩
    unfold Dev.fusC
    rw [hg, hfus]

end Sys2Proof.Machine

/-! PROOF. The safety summary's checks (R337, R345). -/

namespace Sys2Proof.Machine
open Sys2Proof

/-! What a demand leaves of the objects. -/

theorem Dev.enterStop_vals (d : Dev) (c : Nat) (b : Bool) : (d.enterStop c b).dict.vals = d.dict.vals := by
  unfold Dev.enterStop
  dsimp only
  refine ite_both (P := fun e : Dev => e.dict.vals = d.dict.vals) ?_ ?_
  all_goals
    try rw [(Dev.recEvent_frame _ _).dict (by decide)]
    rw [Dev.effect_dict]
    refine (foldl_keeps (g := fun e : Dev => e.dict.vals) (fun e q => ?_) _ _).trans rfl
    split_ifs <;> rfl

@[simp] theorem Dev.retier_vals (d : Dev) (c : Nat) (b : Bool) : (d.retier c b).dict.vals = d.dict.vals := by
  unfold Dev.retier
  refine ite_both (P := fun e : Dev => e.dict.vals = d.dict.vals) ?_ (ite_both (P := fun e : Dev => e.dict.vals = d.dict.vals) ?_ rfl)
  · rw [(Dev.showTier_frame _).dict (by decide)]
    exact ite_both (P := fun e : Dev => e.dict.vals = d.dict.vals) (Dev.enterStop_vals _ _ _) rfl
  · rw [(Dev.sendCommand_frame _).dict (by decide)]

@[simp] theorem Dev.demand_vals (d : Dev) (src tier c : Nat) : (d.demand src tier c).dict.vals = d.dict.vals := Dev.retier_vals _ _ _

/-! The pairs of a summary. -/

theorem Dev.checkSpeedInput_vals (d : Dev) (p : Nat) : (d.checkSpeedInput p).dict.vals = d.dict.vals := by
  unfold Dev.checkSpeedInput
  refine ite_both (P := fun e : Dev => e.dict.vals = d.dict.vals) rfl ?_
  split
  · rfl
  · exact ite_both (P := fun e : Dev => e.dict.vals = d.dict.vals) rfl (Dev.raise_vals _ _ _ _)

theorem Dev.checkSpeed_vals (d : Dev) (p : Nat) : (d.checkSpeed p).dict.vals = d.dict.vals := by
  unfold Dev.checkSpeed
  dsimp only
  split
  · exact ite_both (P := fun e : Dev => e.dict.vals = d.dict.vals) (Dev.demand_vals _ _ _ _) rfl
  · rfl

theorem Dev.evalPair_vals (d : Dev) (ws : List Word) (acc : Store Nat × Store PairEntry) (p : Nat) :
    (d.evalPair ws acc p).1.dict.vals = d.dict.vals := by
  unfold Dev.evalPair
  dsimp only
  rw [Dev.checkSpeed_vals]
  exact Dev.checkSpeedInput_vals d p

theorem Dev.evalPairs_vals (d : Dev) (ws : List Word) : (d.evalPairs ws).1.dict.vals = d.dict.vals := by
  unfold Dev.evalPairs
  exact foldl_keeps (g := fun a : Dev × Store Nat × Store PairEntry => a.1.dict.vals) (fun a p => Dev.evalPair_vals a.1 ws a.2 p) _ _

theorem Dev.evalPairs_cfg (d : Dev) (ws : List Word) (i j : Nat) : (d.evalPairs ws).1.cfg i j = d.cfg i j :=
  Dev.cfg_of_vals (d.evalPairs_vals ws) ((d.evalPairs_frame ws).code (by decide)) i j

/-! The checks. -/

/-- The checks 1 to 3 of R345 find a summary wrong. -/
def Dev.summaryWrong (d : Dev) (c : CycleCtx) (bytes : List Byte) (faulted : Bool) : Bool :=
  faulted || !(decide (bytes.length = summaryBytes) && decide (wfld (wat (leWords 580 bytes) 579) 31 0 = (crc32c (bytes.take 4632)).toNat)) ||
    !(decide (wfld (wat (leWords 580 bytes) 0) 63 16 = c.number) && decide ((wat (leWords 580 bytes) 1).toNat = (c.tv % 2 ^ 64).toNat) &&
      decide (wfld (wat (leWords 580 bytes) 2) 63 32 = (d.hull.g + 1).toNat))

theorem Dev.summaryWrong_iff (d : Dev) (c : CycleCtx) (bytes : List Byte) (faulted : Bool) :
    d.summaryWrong c bytes faulted = true ↔
      (faulted = true ∨ bytes.length ≠ 4640 ∨ wfld (wat (leWords 580 bytes) 579) 31 0 ≠ (crc32c (bytes.take 4632)).toNat ∨
        wfld (wat (leWords 580 bytes) 0) 63 16 ≠ c.number ∨ (wat (leWords 580 bytes) 1).toNat ≠ (c.tv % 2 ^ 64).toNat ∨
        wfld (wat (leWords 580 bytes) 2) 63 32 ≠ (d.hull.g + 1).toNat) := by
  unfold Dev.summaryWrong summaryBytes
  simp only [Bool.or_eq_true, Bool.not_eq_true', Bool.and_eq_false_iff, decide_eq_false_iff_not, ne_eq, or_assoc]

/-- The device once a summary has arrived. -/
def Dev.withSummary (d : Dev) (bytes : List Byte) : Dev := d.modCand (fun x => { x with arrived := bytes })

theorem summaryArrival_wrong {d : Dev} {c : CycleCtx} {rest : List CycleCtx} {bytes : List Byte} {faulted : Bool} (hf : d.cyc.flight = c :: rest)
    (hbad : d.summaryWrong c bytes faulted = true) (clocks : Nat) :
    summaryArrival bytes faulted clocks d = ((d.withSummary bytes).modCand (fun x => { x with bad := true })).raise 0x0B03 0 0 := by
  simp only [summaryArrival, hf]
  exact if_pos hbad

theorem summaryArrival_good {d : Dev} {c : CycleCtx} {rest : List CycleCtx} {bytes : List Byte} {faulted : Bool} (hf : d.cyc.flight = c :: rest)
    (hgood : ¬ d.summaryWrong c bytes faulted = true) (hgen : d.hull.genFault = none) (clocks : Nat) :
    ∃ (e : Dev) (t : Store Nat) (v : Store PairEntry), e = ((d.withSummary bytes).evalPairs (leWords 580 bytes)).1 ∧
      summaryArrival bytes faulted clocks d = e.modCand (fun x => { x with
        summary := some (e.activeZones (leWords 580 bytes), t, v), excursion := wbit (wat (leWords 580 bytes) 0) 12,
        evalEnd := e.tick + min clocks e.evalClocks }) := by
  refine ⟨_, ((d.withSummary bytes).evalPairs (leWords 580 bytes)).2.1, ((d.withSummary bytes).evalPairs (leWords 580 bytes)).2.2, rfl, ?_⟩
  simp only [summaryArrival, hf]
  refine (if_neg hgood).trans ?_
  refine (if_neg ?_).trans rfl
  show ¬ d.hull.genFault.isSome = true
  rw [hgen]
  decide

/-- Settles O24. -/
theorem summaryChecks : Obligations.SummaryChecks := by
  refine ⟨fun s c rest bytes faulted clocks hup hf hbad => ⟨_, rfl, ?_⟩, fun s c rest bytes clocks hf hlen hcrc hnum htv hg hgen => ⟨_, rfl, ?_⟩⟩
  · beta_reduce
    rw [summaryArrival_wrong hf ((s.dev.summaryWrong_iff c bytes faulted).2 hbad)]
    exact ⟨by rw [Dev.raise_fus]; rfl, Dev.raise_reports (by exact hup) _ _ _⟩
  · have hgood : ¬ s.dev.summaryWrong c bytes false = true := by
      rw [Dev.summaryWrong_iff, hlen, hcrc, hnum, htv, hg]
      simp
    obtain ⟨e, t, v, he, heq⟩ := summaryArrival_good hf hgood hgen clocks
    have hframe := (s.dev.withSummary bytes).evalPairs_frame (leWords 580 bytes)
    have hcfg := (s.dev.withSummary bytes).evalPairs_cfg (leWords 580 bytes)
    rw [← he] at hframe hcfg
    have hzones : e.activeZones (leWords 580 bytes) = s.dev.activeZones (leWords 580 bytes) := by
      unfold Dev.activeZones
      simp only [hcfg]
      rfl
    have htick : e.tick = s.dev.tick := by
      rw [Dev.tick, hframe.time (by decide)]
      rfl
    have hclocks : e.evalClocks = s.dev.evalClocks := by
      unfold Dev.evalClocks Dev.pairsOn
      have hpair : e.pairOn = s.dev.pairOn := by
        funext p
        unfold Dev.pairOn
        simp only [hcfg]
        rfl
      simp only [hcfg, hpair]
      rfl
    beta_reduce
    rw [heq, htick, hclocks, hzones]
    refine ⟨⟨t, v, rfl⟩, ?_, Nat.le_add_right _ _, Nat.add_le_add_left (Nat.min_le_right _ _) _, rfl⟩
    show e.fus.cand.bad = _
    rw [hframe.fus (by decide)]
    rfl

end Sys2Proof.Machine

/-! PROOF. What stops the device at once, and the Hull's timers (R332, R342, R348 to R351, R416, R420). -/

namespace Sys2Proof.Machine
open Sys2Proof

/-- The Hull's record of a pin's dark pulse changes no part of the device but the Hull, and keeps the invariant. -/
def Dev.markDark (d : Dev) (b : Bool) : Dev :=
  { d with hull := { d.hull with darkA := if b then d.hull.darkA else d.tick, darkB := if b then d.tick else d.hull.darkB } }

theorem stopDarkTest_due {d : Dev} {b : Bool} (hhigh : d.pinHigh b = true) (hon : d.cfg 0x7000 0x0E = 1) (hdue : d.darkDue b = true) (readsLow : Bool) :
    stopDarkTest b readsLow d = if readsLow then d.markDark b else (d.markDark b).hullFault srcReadback 0x0B02 (b2n b) := by
  refine if_pos ?_
  simp only [hhigh, hon, hdue, decide_true, Bool.and_self]

theorem Dev.up_of_inRun {d : Dev} (hrun : d.inRun = true) : d.up = true := by
  simp only [Dev.inRun, decide_eq_true_eq] at hrun
  simp only [Dev.up, hrun]
  rfl

/-- The Hull's record that a pair is faster than a tier's speed. -/
def Dev.keepExceeded (d : Dev) (p t v : Nat) : Dev := { d with hull := { d.hull with exceeded := kset none d.hull.exceeded p (some (t, v)) } }

theorem speedSettleExpiry_exceeded {d : Dev} {p t lim v : Nat} (hrun : d.inRun = true) (hexc : kget none d.hull.exceeded p = some (t, lim))
    (hspeed : d.tierSpeed = some v) (hon : d.pairOn p = true) (hsettle : t + usTicks (d.cfg 0x7000 0x0A) < d.tick) (hfast : v < d.speedOf p)
    (hnone : kget 0 d.hull.demands (srcSpeed p) = 0) :
    speedSettleExpiry p d = ((d.keepExceeded p t v).raise 0x0B0D p 0).demand (srcSpeed p) 3 0x0B0D := by
  have hall : d.inRun = true ∧ d.pairOn p = true ∧ t + usTicks (d.cfg 0x7000 0x0A) < d.tick ∧ v < d.speedOf p ∧
      kget 0 d.hull.demands (srcSpeed p) = 0 := ⟨hrun, hon, hsettle, hfast, hnone⟩
  simp only [speedSettleExpiry, hexc, hspeed]
  exact if_pos hall

/-- The stop pins of a stopped device set low once more. -/
def Dev.lowerPins (d : Dev) : Dev := { d with hull := { d.hull with pinA := false, pinB := false } }

theorem Dev.lowerPins_stops {d : Dev} {cause inst : Nat} (h : d.Stopped ∧ d.hull.fault = true ∧ d.Reports cause inst) :
    d.lowerPins.Stopped ∧ d.lowerPins.hull.fault = true ∧ d.lowerPins.Reports cause inst := by
  obtain ⟨⟨htier, hlatch, -, -⟩, hfault, hrep⟩ := h
  exact ⟨⟨htier, hlatch, rfl, rfl⟩, hfault, hrep⟩

/-- Settles O25. -/
theorem hullStops : Obligations.HullStops := by
  refine ⟨fun s hinv hup => ⟨_, rfl, ?_⟩, fun s b hinv hup hhigh hon hdue => ⟨_, rfl, ?_⟩, fun s b hhigh hon hdue => ⟨_, rfl, ?_⟩,
    fun s b high hinv hup hne => ⟨_, rfl, ?_⟩, fun s b => ⟨_, rfl, ?_⟩,
    fun s p t lim v hinv hrun hexc hspeed hon hsettle hfast hnone => ⟨_, rfl, ?_⟩⟩
  · exact Dev.lowerPins_stops (d := s.dev.hullFault srcLockstep 0x0B01 0) (Dev.hullFault_stops hinv hup srcLockstep 0x0B01 0)
  · beta_reduce
    rw [stopDarkTest_due hhigh hon hdue]
    exact Dev.hullFault_stops (d := s.dev.markDark b) hinv hup _ _ _
  · beta_reduce
    rw [stopDarkTest_due hhigh hon hdue, if_pos rfl]
    refine ⟨(Dev.frame_hull (by decide)).2 (Dev.Frame.refl _), rfl, ?_⟩
    cases b <;> rfl
  · beta_reduce
    have hdiffers : (s.dev.up && high != s.dev.pinHigh b) = true := by simp [hup, hne]
    rw [show stopPinReadback b high s.dev = _ from if_pos hdiffers]
    exact Dev.hullFault_stops hinv hup _ _ _
  · exact if_neg (by simp)
  · beta_reduce
    rw [speedSettleExpiry_exceeded hrun hexc hspeed hon hsettle hfast hnone]
    have hup : s.dev.up = true := Dev.up_of_inRun hrun
    have hkept : (s.dev.keepExceeded p t v).Inv := hinv
    have hraised : ((s.dev.keepExceeded p t v).raise 0x0B0D p 0).Inv := ((Dev.raise_frame _ _ _ _).inv (by decide)).2 hkept
    exact ⟨Dev.demand_stopped hraised _ _, (Dev.demand_reports _ _ _ _ _ _).2 (Dev.raise_reports (by exact hup) _ _ _)⟩

theorem Dev.demand_watchdog (d : Dev) (src tier cause : Nat) : (d.demand src tier cause).hull.watchdog = d.hull.watchdog :=
  (congrArg Hull.watchdog (d.demand_undecided src tier cause) :)

theorem Dev.tier_le_demand (d : Dev) (src tier cause : Nat) : d.hull.tier ≤ (d.demand src tier cause).hull.tier := by
  rw [Dev.demand, Dev.retier_tier]
  exact Nat.le_max_left _ _

theorem Dev.sendStatus_sent {d : Dev} (hon : d.cfg 0x7000 0x13 ≠ 0) (hfirst : d.hull.firstCommit = true) :
    d.sendStatus.hull = { d.hull with statusSeq := d.hull.statusSeq + 1, statusTick := d.tick } ∧ d.sendStatus.palca.spiStatus.isSome = true := by
  have hsent : ¬ (d.cfg 0x7000 0x13 = 0 ∨ d.hull.firstCommit = false) := by simp [hon, hfirst]
  rw [show d.sendStatus = _ from if_neg hsent]
  refine ⟨(foldl_keeps (g := Dev.hull) (fun e l => ?_) _ _).trans rfl, rfl⟩
  exact foldl_keeps (g := Dev.hull) (by intros; rfl) _ _

/-- Settles O26. -/
theorem hullTimers : Obligations.HullTimers := by
  refine ⟨fun s q t hoff hdue => ⟨_, rfl, ?_⟩, fun s hon hrun hwd hdue => ⟨_, rfl, ?_⟩, fun s hon hfirst hdue => ⟨_, rfl, ?_⟩⟩
  · beta_reduce
    simp only [offDelayExpiry, hoff]
    rw [if_pos hdue, (Dev.sendCommand_frame _).hull (by decide)]
    dsimp only
    exact ⟨kget_kset_same, mem_sins.2 (.inl rfl)⟩
  · beta_reduce
    rw [show safetyChannelTimeout s.dev = _ from if_pos ⟨hon, hrun, hwd, hdue⟩]
    have hup : s.dev.up = true := Dev.up_of_inRun hrun
    refine ⟨?_, ?_, ?_, ?_, (Dev.demand_reports _ _ _ _ _ _).2 (Dev.raise_reports (by exact hup) _ _ _)⟩
    · rw [Dev.demand_watchdog, Dev.raise_hull]
    · rw [Dev.demand_demands, Dev.raise_hull, kget_kset, if_neg (by decide), kget_kset_same]
    · rw [Dev.demand_demands, kget_kset_same]
      rfl
    · exact Nat.le_trans (by rw [Dev.raise_hull]) (Dev.tier_le_demand _ _ _ _)
  · beta_reduce
    rw [show statusInterval s.dev = _ from if_pos hdue]
    obtain ⟨hhull, hspi⟩ := Dev.sendStatus_sent hon hfirst
    rw [hhull]
    exact ⟨rfl, rfl, hspi⟩

end Sys2Proof.Machine

/-! PROOF. The edge-die link (R19, R351, R352, R530, R541). -/

namespace Sys2Proof.Machine
open Sys2Proof

/-- A stopped device whose release cycles [7000.05] are 0 and whose input pair 0 is a reset button, pressed for 200 ms and now
released; the edge die reports a readback fault, which demands tier 3 once. -/
def releasedButton : State :=
  { State.reset with dev := (({ State.reset.dev with
      time := { State.reset.dev.time with ticks := 80000000 },
      hull := { State.reset.dev.hull with tier := 3, latch := true, press := kset none [] 0 (some 0) },
      edge := { State.reset.dev.edge with reports := [(0x1202, 0, 0)], hullPairs := kset 0 [] 0 1 } } : Dev).setObj 0x7000 5 [0]).setObj 0x7300 1 [3] }

theorem releasedButton_inv : releasedButton.dev.Inv := by
  unfold Dev.Inv
  decide +kernel

/-- The status frame resets the stop that its report has just demanded. -/
theorem edgeStatusFrame_releasedButton : (edgeStatusFrame .agree releasedButton.dev).hull.tier = 0 := by decide +kernel

theorem State.next_inj {s : State} {x d : Dev} (h : s.next x = .next { s with dev := d }) : x = d := by
  injection h with h
  exact congrArg State.dev h

theorem edgeStatusFrame_notStopped {d : Dev} (h : exec (.edgeStatusFrame .agree) releasedButton = .next { releasedButton with dev := d }) :
    ¬ d.Stopped := by
  rintro ⟨htier, -⟩
  have hdev : edgeStatusFrame .agree releasedButton.dev = d := State.next_inj h
  rw [← hdev, edgeStatusFrame_releasedButton] at htier
  exact absurd htier (by decide)

/-- Refutes O27: a status frame hands its reports to the Hull before its input states, and with no release cycle to wait for, the
reset button's release in the same frame takes back the tier 3 that a report of 0x1202 demands once. -/
theorem not_edgeLink : ¬ Obligations.EdgeLink := by
  rintro ⟨-, -, -, -, -, hreport, -⟩
  obtain ⟨d, hd, hstop, -⟩ := hreport releasedButton 0x1202 0 0 (by decide +kernel) releasedButton_inv (by decide +kernel) (by decide)
  exact edgeStatusFrame_notStopped hd hstop

end Sys2Proof.Machine

/-! PROOF. The safety output channels (R531, R533 to R537, R547). -/

namespace Sys2Proof.Machine
open Sys2Proof

/-! ## What latching a channel leaves -/

/-- A channel as `latchSq` leaves it. -/
def SqChannel.latchedOff (x : SqChannel) (t cause : Nat) : SqChannel :=
  { x with
    on := false, latched := cause, gone := false, pulse := false, void := false, lowTick := t,
    opened := if x.on then some t else x.opened, watch := if cause = 0x1201 then some (t + msTicks 20) else none }

theorem Dev.latchSq_same (d : Dev) (c cause x : Nat) : (d.latchSq c cause x).sq c = (d.sq c).latchedOff d.tick cause := by
  show kget SqChannel.reset (kmod SqChannel.reset d.edge.sq c (fun x => x.latchedOff d.tick cause)) c = _
  rw [kget_kmod_same]
  rfl

theorem Dev.latchSq_other (d : Dev) (c cause x : Nat) {j : Nat} (h : j ≠ c) : (d.latchSq c cause x).sq j = d.sq j := by
  show kget SqChannel.reset (kmod SqChannel.reset d.edge.sq c (fun x => x.latchedOff d.tick cause)) j = _
  rw [kget_kmod_other h]
  rfl

theorem Dev.latchSq_reports (d : Dev) (c cause x : Nat) : (d.latchSq c cause x).edge.reports = d.edge.reports ++ [(cause, c, x)] := rfl

/-- A latched channel is off under its cause, and reported. -/
theorem Dev.latchSq_latched (d : Dev) (c cause x : Nat) :
    ((d.latchSq c cause x).sq c).latched = cause ∧ ((d.latchSq c cause x).sq c).on = false ∧
      (d.latchSq c cause x).edge.reports = d.edge.reports ++ [(cause, c, x)] := by
  rw [Dev.latchSq_same, Dev.latchSq_reports]
  exact ⟨rfl, rfl, rfl⟩

/-- Latching a channel switches none on. -/
theorem Dev.latchSq_off {d : Dev} {j : Nat} (h : (d.sq j).on = false) (c cause x : Nat) : ((d.latchSq c cause x).sq j).on = false := by
  by_cases hj : j = c
  · rw [hj, Dev.latchSq_same]
    rfl
  · rwa [Dev.latchSq_other d c cause x hj]

/-! ## Falling readbacks -/

/-- Takes the last report back. -/
def Dev.unreport (d : Dev) : Dev := d.modEdge (fun e => { e with reports := e.reports.dropLast })

theorem Dev.fall_latched {d : Dev} {c k : Nat} (hlatched : (d.sq c).latched = 0x1201) (hk : d.lastOpened c = some k) :
    d.fall c = (d.latchSq k 0x1203 c).unreport.latchSq c 0x1203 k := by
  unfold Dev.fall
  rw [if_pos hlatched, hk]
  rfl

/-- The two channels of a cross-short are latched together. -/
theorem Dev.fall_both {d : Dev} {c k : Nat} (hlatched : (d.sq c).latched = 0x1201) (hk : d.lastOpened c = some k) :
    ((d.fall c).sq c).latched = 0x1203 ∧ ((d.fall c).sq k).latched = 0x1203 := by
  rw [Dev.fall_latched hlatched hk]
  refine ⟨(Dev.latchSq_latched _ _ _ _).1, ?_⟩
  by_cases hkc : k = c
  · rw [hkc]
    exact (Dev.latchSq_latched _ _ _ _).1
  · rw [Dev.latchSq_other _ _ _ _ hkc]
    show ((d.latchSq k 0x1203 c).sq k).latched = _
    exact (Dev.latchSq_latched d k 0x1203 c).1

theorem Dev.fall_off {d : Dev} {j : Nat} (h : (d.sq j).on = false) (c : Nat) : ((d.fall c).sq j).on = false := by
  by_cases hlatched : (d.sq c).latched = 0x1201
  · cases hk : d.lastOpened c with
    | none => rwa [show d.fall c = d by rw [Dev.fall, if_pos hlatched, hk]]
    | some k =>
      rw [Dev.fall_latched hlatched hk]
      have hfirst : (((d.latchSq k 0x1203 c).unreport).sq j).on = false := Dev.latchSq_off h k 0x1203 c
      exact Dev.latchSq_off hfirst _ _ _
  · rwa [show d.fall c = d from if_neg hlatched]

theorem Dev.falls_off {d : Dev} {j : Nat} (h : (d.sq j).on = false) (l : List (Fin 8)) : ((d.falls l).sq j).on = false := by
  unfold Dev.falls
  induction l generalizing d with
  | nil => exact h
  | cons c t ih => exact ih (Dev.fall_off h _)

/-! ## The commands -/

theorem switchOffTurn_next {d : Dev} {c : Nat} {rest : List Nat} (hedge : hasEdge d.code = true) (hturns : d.edge.turns = c :: rest)
    (hdue : d.edge.turnTick + usTicks 10 ≤ d.tick) (fell : List (Fin 8)) :
    switchOffTurn fell d = ((d.openSwitch c).modEdge (fun e => { e with turns := rest, turnTick := d.tick })).falls fell := by
  rw [show switchOffTurn fell d = _ from (if_pos hedge).trans (if_pos hdue), hturns]

theorem darkPulse_begins {d : Dev} {ch : Nat} (hedge : hasEdge d.code = true) (hch : ch < 8) (hon : (d.sq ch).on = true) (hdue : d.pulseDue ch = true) :
    darkPulse ch [] d =
      (d.modEdge (fun e => { e with pulsed := sins ch e.pulsed })).modSq ch (fun x => { x with pulse := true, void := false, opened := some d.tick }) := by
  have hon' : ((d.modEdge (fun e => { e with pulsed := sins ch e.pulsed })).sq ch).on = true := hon
  exact (if_pos hedge).trans ((if_pos hdue).trans ((if_neg (Nat.not_le.2 hch)).trans (if_pos hon')))

theorem darkPulseSample_due {d : Dev} {ch : Nat} (hedge : hasEdge d.code = true) (hch : ch < 8) (hpulse : (d.sq ch).pulse = true)
    (hdue : d.sampleDue (d.sq ch).opened = true) (high : Bool) (raw : BitVec 16) :
    darkPulseSample ch high raw d =
      if ((d.sq ch).void || decide (d.edge.vedge < 19200) || !high) = true then d.modSq ch (fun x => { x with pulse := false, void := false })
      else (d.modSq ch (fun x => { x with pulse := false, void := false })).latchSq ch 0x1201 0 := by
  rw [show darkPulseSample ch high raw d = _ from if_pos hedge]
  dsimp only
  rw [if_pos hch, if_pos ⟨hpulse, hdue⟩]
  rfl

theorem sqOffReadbackHigh_latches {d : Dev} {c : Nat} (hedge : hasEdge d.code = true) (hoff : (d.sq c).on = false) (hlatched : (d.sq c).latched = 0)
    (hopened : ∀ t, (d.sq c).opened = some t → t + msTicks 1 ≤ d.tick) : sqOffReadbackHigh c d = d.latchSq c 0x1201 0 := by
  have hheld : ¬ ((d.sq c).on = true ∨ d.tick < (d.sq c).opened.elim 0 (· + msTicks 1)) := by
    rw [hoff]
    cases ho : (d.sq c).opened with
    | none => simp
    | some t => simpa using hopened t ho
  exact (if_pos hedge).trans ((if_neg hheld).trans (if_pos hlatched))

/-- The watch of a channel ends with its time and touches no latch. -/
def Dev.endWatch (d : Dev) (c : Nat) : Dev :=
  match (d.sq c).watch with
  | some t => if t ≤ d.tick then d.modSq c (fun x => { x with watch := none }) else d
  | none => d

theorem crossShortWatchExpiry_eq {d : Dev} (hedge : hasEdge d.code = true) (c : Nat) (fell : Bool) :
    crossShortWatchExpiry c fell d = (if fell then d.fall c else d).endWatch c := if_pos hedge

theorem Dev.endWatch_latched (d : Dev) (c j : Nat) : ((d.endWatch c).sq j).latched = (d.sq j).latched := by
  unfold Dev.endWatch
  split
  · split
    · by_cases hj : j = c
      · rw [hj, Dev.modSq_sq]
      · rw [Dev.modSq_sq_other _ _ _ _ hj]
    · rfl
  · rfl

theorem Dev.endWatch_ends {d : Dev} {c t : Nat} (hwatch : (d.sq c).watch = some t) (hdue : t ≤ d.tick) : ((d.endWatch c).sq c).watch = none := by
  unfold Dev.endWatch
  rw [hwatch]
  dsimp only
  rw [if_pos hdue, Dev.modSq_sq]

/-- Settles O28. -/
theorem safetyOutputs : Obligations.SafetyOutputs := by
  refine ⟨fun s fell c rest hedge hturns hdue => ⟨_, rfl, ?_⟩, fun s ch hedge hch hon hdue => ⟨_, rfl, ?_⟩,
    fun s ch raw hedge hch hpulse hvoid hvedge hdue => ⟨_, rfl, ?_⟩, fun s ch raw hedge hch hpulse hdue => ⟨_, rfl, ?_⟩,
    fun s c hedge hoff hlatched hopened => ⟨_, rfl, ?_⟩, fun s c hedge hon hdue => ⟨_, rfl, ?_⟩, fun s c hedge hon hdue => ⟨_, rfl, ?_⟩,
    fun s c hedge hlatched hdue => ⟨_, rfl, ?_⟩, fun s c t hedge hwatch hdue => ⟨_, rfl, ?_⟩, fun s c k hedge hlatched hk => ⟨_, rfl, ?_⟩⟩
  · beta_reduce
    rw [switchOffTurn_next hedge hturns hdue]
    refine ⟨Dev.falls_off ?_ fell, fun h => by rw [h]; rfl⟩
    show ((s.dev.openSwitch c).sq c).on = false
    rw [Dev.openSwitch, Dev.modSq_sq]
  · beta_reduce
    rw [darkPulse_begins hedge hch hon hdue]
    refine ⟨congrArg SqChannel.pulse (Dev.modSq_sq _ _ _), (congrArg SqChannel.on (Dev.modSq_sq _ _ _)).trans hon⟩
  · beta_reduce
    rw [darkPulseSample_due hedge hch hpulse hdue, if_neg (by simp [hvoid, Nat.not_lt.2 hvedge])]
    exact Dev.latchSq_latched _ _ _ _
  · beta_reduce
    rw [darkPulseSample_due hedge hch hpulse hdue, if_pos (by simp), Dev.modSq_sq]
    exact ⟨rfl, rfl, rfl⟩
  · beta_reduce
    rw [sqOffReadbackHigh_latches hedge hoff hlatched hopened]
    obtain ⟨hcause, -, hrep⟩ := s.dev.latchSq_latched c.val 0x1201 0
    exact ⟨hcause, hrep⟩
  · beta_reduce
    rw [show sqShort0v c.val s.dev = _ from (if_pos hedge).trans (if_pos ⟨hon, hdue⟩)]
    exact Dev.latchSq_latched _ _ _ _
  · beta_reduce
    rw [show sqOpenLoad c.val s.dev = _ from (if_pos hedge).trans (if_pos ⟨hon, hdue⟩)]
    exact Dev.latchSq_latched _ _ _ _
  · beta_reduce
    rw [show sqFaultGone c.val s.dev = _ from (if_pos hedge).trans (if_pos ⟨hlatched, hdue⟩)]
    refine ⟨?_, by rw [Dev.demand_demands, kget_kset_same]⟩
    rw [Dev.sq, Dev.demand_edge]
    exact congrArg SqChannel.gone (Dev.modSq_sq s.dev c.val _)
  · beta_reduce
    rw [crossShortWatchExpiry_eq hedge]
    exact ⟨Dev.endWatch_ends hwatch hdue, Dev.endWatch_latched _ _ _⟩
  · beta_reduce
    rw [crossShortWatchExpiry_eq hedge, if_pos rfl, Dev.endWatch_latched, Dev.endWatch_latched]
    exact Dev.fall_both hlatched hk

end Sys2Proof.Machine

/-! PROOF. The safety inputs (R539, R540). -/

namespace Sys2Proof.Machine
open Sys2Proof

/-! ## Terminals and pairs -/

/-- A one-bit field that is set reads what it was set to. -/
theorem setFld_bit (w i : Nat) (on : Bool) : (setFld w i i (b2n on)).testBit i = on := by
  have hsplit : setFld w i i (b2n on) = 2 ^ i * (w / 2 ^ i - w / 2 ^ i % 2 + b2n on) + w % 2 ^ i := by
    have hw := Nat.div_add_mod w (2 ^ i)
    have hbit : 2 ^ i * (w / 2 ^ i % 2) ≤ 2 ^ i * (w / 2 ^ i) := Nat.mul_le_mul_left _ (Nat.mod_le _ _)
    have hmod : b2n on % 2 = b2n on := by cases on <;> rfl
    rw [setFld, fld, Nat.add_sub_cancel_left, pow_one, hmod, Nat.mul_add, Nat.mul_sub, Nat.mul_comm (w / 2 ^ i % 2), Nat.mul_comm (b2n on)]
    omega
  rw [Nat.testBit_eq_decide_div_mod_eq, hsplit, Nat.mul_add_div (Nat.two_pow_pos i), Nat.div_eq_of_lt (Nat.mod_lt _ (Nat.two_pow_pos i))]
  cases on <;> simp only [b2n, Bool.false_eq_true, if_true, if_false, decide_eq_true_eq, decide_eq_false_iff_not] <;> omega

/-- Input pair p. -/
def Dev.pair (d : Dev) (p : Nat) : InputPair := kget InputPair.reset d.edge.pairs p

theorem Dev.modPair_pair (d : Dev) (p : Nat) (f : InputPair → InputPair) : (d.modPair p f).pair p = f (d.pair p) := kget_kmod_same

theorem Dev.modPair_pair_other (d : Dev) (p : Nat) (f : InputPair → InputPair) {j : Nat} (h : j ≠ p) : (d.modPair p f).pair j = d.pair j :=
  kget_kmod_other h

/-- What a pair's state becomes when its terminals are read. -/
theorem Dev.evalPairState_state (d : Dev) (p : Nat) :
    (((d.pair p).state < 2 → ((d.evalPairState p).pair p).state = b2n (d.terminal (2 * p) && d.terminal (2 * p + 1))) ∧
      ((d.pair p).state = 3 → ((d.evalPairState p).pair p).state = 3)) := by
  rw [Dev.evalPairState, Dev.modPair_pair]
  refine ⟨fun h => ?_, fun h => ?_⟩
  · rw [if_neg (by omega), if_neg (by omega)]
  · rw [if_pos h]
    exact h

theorem Dev.evalPairState_other (d : Dev) (p : Nat) {j : Nat} (h : j ≠ p) : (d.evalPairState p).pair j = d.pair j :=
  Dev.modPair_pair_other _ _ _ h

/-- Terminal i is set to a level. -/
def Dev.setTerminal (d : Dev) (i : Nat) (on : Bool) : Dev :=
  d.modEdge (fun e => { e with terminals := BitVec.ofNat 16 (setFld e.terminals.toNat i i (b2n on)) })

theorem Dev.setTerminal_terminal (d : Dev) {i : Nat} (h : i < 16) (on : Bool) : (d.setTerminal i on).terminal i = on := by
  show (BitVec.ofNat 16 (setFld d.edge.terminals.toNat i i (b2n on))).getLsbD i = on
  rw [BitVec.getLsbD_ofNat, setFld_bit, decide_eq_true h, Bool.true_and]

theorem terminalStateChange_taken {d : Dev} {i : Nat} (hedge : hasEdge d.code = true) (hheld : d.readingExcluded i = false) (on : Bool) :
    terminalStateChange i on d = (d.setTerminal i on).evalPairState (i / 2) := by
  have hheld' : ¬ d.readingExcluded i = true := by rw [hheld]; decide
  exact (if_pos hedge).trans (if_neg hheld')

/-! ## Test-pulse sources -/

/-- A terminal does not follow the sample of source j. -/
def Dev.misread (d : Dev) (j : Nat) (raw : BitVec 16) (i : Nat) : Bool := d.terminal i && (if i % 4 = j then raw.getLsbD i else !raw.getLsbD i)

theorem Dev.sourceSample_misread {d : Dev} {j p i : Nat} {raw : BitVec 16} (hi : i = 2 * p ∨ i = 2 * p + 1) (h : d.misread j raw i = true) :
    ((d.sourceSample j p raw).pair p).state = 3 := by
  have hbad : (d.misread j raw (2 * p) || d.misread j raw (2 * p + 1)) = true := by
    rcases hi with rfl | rfl <;> simp [h]
  rw [show d.sourceSample j p raw = _ from if_pos hbad]
  show ((d.modPair p (fun x => { x with state := 3, passed := [] })).pair p).state = 3
  rw [Dev.modPair_pair]

theorem Dev.sourceSample_other (d : Dev) (j : Nat) (raw : BitVec 16) {p q : Nat} (h : q ≠ p) : (d.sourceSample j p raw).pair q = d.pair q := by
  unfold Dev.sourceSample
  refine ite_both (P := fun e : Dev => e.pair q = d.pair q) ?_ (Dev.modPair_pair_other _ _ _ h)
  exact Dev.modPair_pair_other d p (fun x => { x with state := 3, passed := [] }) h

theorem Dev.sourceSample_terminals (d : Dev) (j p : Nat) (raw : BitVec 16) : (d.sourceSample j p raw).edge.terminals = d.edge.terminals := by
  unfold Dev.sourceSample
  exact ite_both (P := fun e : Dev => e.edge.terminals = d.edge.terminals) rfl rfl

theorem darkPulseSample_source {d : Dev} {ch : Nat} (hedge : hasEdge d.code = true) (hch : 8 ≤ ch) (hpulsed : d.edge.pulsed.contains ch = true)
    (hfresh : d.edge.pulsed.contains (ch + 8) = false) (hdue : d.sampleDue (kget none d.edge.sourceTick (ch - 8)) = true) (high : Bool) (raw : BitVec 16) :
    darkPulseSample ch high raw d =
      (List.range 8).foldl (fun d p => d.sourceSample (ch - 8) p raw) (d.modEdge (fun e => { e with pulsed := sins (ch + 8) e.pulsed })) :=
  (if_pos hedge).trans ((if_neg (Nat.not_lt.2 hch)).trans (if_pos ⟨hpulsed, hfresh, hdue⟩))

theorem siDiscrepancy_due {d : Dev} {p t : Nat} (hedge : hasEdge d.code = true) (hdiffer : (d.pair p).differ = some t) (hstate : (d.pair p).state < 2)
    (hdue : t + msTicks (d.cfg 0x7300 (p + 9)) ≤ d.tick) :
    siDiscrepancy p d = (d.modPair p (fun x => { x with state := 2, bothOff := false })).report 0x1205 p 0 := by
  have hall : t + msTicks (d.cfg 0x7300 (p + 9)) ≤ d.tick ∧ (d.pair p).state ≠ 2 ∧ (d.pair p).state ≠ 3 := ⟨hdue, by omega, by omega⟩
  refine (if_pos hedge).trans ?_
  simp only [show (kget InputPair.reset d.edge.pairs p).differ = some t from hdiffer]
  exact if_pos hall

/-! ## The test frame -/

/-- A pair passed a full frame, and leaves a test fault with it. -/
def InputPair.clears (x : InputPair) : Bool := decide (x.state = 3) && [0, 1, 2, 3].all (fun j => x.passed.contains j)

/-- What a new test frame does to one pair. -/
def Dev.framePair (d : Dev) (p : Nat) : Dev :=
  let e := d.modPair p (fun x => { x with passed := [], state := if (d.pair p).clears then 0 else x.state })
  if (d.pair p).clears then e.evalPairState p else e

theorem testFrame_begins {d : Dev} (hedge : hasEdge d.code = true) (hdue : d.edge.frameTick + msTicks 20 ≤ d.tick) :
    testFrame d = (List.range 8).foldl Dev.framePair (d.modEdge (fun e => { e with frameTick := d.tick, pulsed := [] })) :=
  (if_pos hedge).trans (if_pos hdue)

theorem Dev.framePair_other (d : Dev) {p q : Nat} (h : q ≠ p) : (d.framePair p).pair q = d.pair q := by
  unfold Dev.framePair
  refine ite_both (P := fun e : Dev => e.pair q = d.pair q) ?_ (Dev.modPair_pair_other _ _ _ h)
  exact (Dev.evalPairState_other _ _ h).trans (Dev.modPair_pair_other _ _ _ h)

theorem Dev.framePair_terminals (d : Dev) (p : Nat) : (d.framePair p).edge.terminals = d.edge.terminals := by
  unfold Dev.framePair
  exact ite_both (P := fun e : Dev => e.edge.terminals = d.edge.terminals) rfl rfl

theorem Dev.framePair_frameTick (d : Dev) (p : Nat) : (d.framePair p).edge.frameTick = d.edge.frameTick := by
  unfold Dev.framePair
  exact ite_both (P := fun e : Dev => e.edge.frameTick = d.edge.frameTick) rfl rfl

theorem Dev.framePair_fault {d : Dev} {p : Nat} (h : (d.pair p).state = 3) :
    ((d.framePair p).pair p).state = if [0, 1, 2, 3].all (fun j => (d.pair p).passed.contains j) = true
      then b2n (d.terminal (2 * p) && d.terminal (2 * p + 1)) else 3 := by
  have hclears : (d.pair p).clears = [0, 1, 2, 3].all (fun j => (d.pair p).passed.contains j) := by
    rw [InputPair.clears, h, decide_eq_true rfl, Bool.true_and]
  unfold Dev.framePair
  rw [hclears]
  by_cases hall : [0, 1, 2, 3].all (fun j => (d.pair p).passed.contains j) = true
  · rw [if_pos hall, if_pos hall]
    refine (Dev.evalPairState_state _ p).1 ?_
    rw [Dev.modPair_pair, if_pos hall]
    exact Nat.zero_lt_two
  · rw [if_neg hall, if_neg hall, Dev.modPair_pair, if_neg hall]
    exact h

/-- Settles O29. -/
theorem safetyInputs : Obligations.SafetyInputs := by
  refine ⟨fun s i on hedge hheld => ⟨_, rfl, ?_⟩, fun s p t hedge hdiffer hstate hdue => ⟨_, rfl, ?_⟩,
    fun s ch high raw hedge hch hpulsed hfresh hdue => ⟨_, rfl, fun p i hp hi hon hraw => ?_⟩,
    fun s hedge hdue => ⟨_, rfl, ?_, fun p hp hstate => ?_⟩⟩
  · beta_reduce
    rw [terminalStateChange_taken hedge hheld]
    exact ⟨s.dev.setTerminal_terminal i.isLt on, (s.dev.setTerminal i.val on).evalPairState_state (i.val / 2)⟩
  · beta_reduce
    rw [siDiscrepancy_due hedge hdiffer hstate hdue]
    refine ⟨?_, rfl⟩
    exact congrArg InputPair.state (Dev.modPair_pair s.dev p.val (fun x => { x with state := 2, bothOff := false }))
  · rw [darkPulseSample_source hedge hch hpulsed hfresh hdue]
    obtain ⟨e, hpair, -, hterm⟩ := foldl_at (f := fun d p => Dev.sourceSample d (ch.val - 8) p raw) (get := Dev.pair) (g := fun d => d.edge.terminals)
      (fun d n j h => d.sourceSample_other _ _ h) (fun d n => d.sourceSample_terminals _ _ _) (j := p) (List.range 8) List.nodup_range (List.mem_range.2 hp)
      (s.dev.modEdge (fun e => { e with pulsed := sins (ch.val + 8) e.pulsed }))
    refine (congrArg InputPair.state hpair).trans (Dev.sourceSample_misread hi ?_)
    have hterm' : e.terminal i = true := by
      rw [Dev.terminal, hterm]
      exact hon
    rw [Dev.misread, hterm', hraw]
    by_cases hj : i % 4 = ch.val - 8 <;> simp [hj]
  · rw [testFrame_begins hedge hdue]
    exact foldl_keeps (g := fun d : Dev => d.edge.frameTick) Dev.framePair_frameTick _ _
  · rw [testFrame_begins hedge hdue]
    obtain ⟨e, hpair, hsame, hterm⟩ := foldl_at (f := Dev.framePair) (get := Dev.pair) (g := fun d => d.edge.terminals)
      (fun d n j h => d.framePair_other h) (fun d n => d.framePair_terminals _) (j := p) (List.range 8) List.nodup_range (List.mem_range.2 hp)
      (s.dev.modEdge (fun e => { e with frameTick := s.dev.tick, pulsed := [] }))
    have hstate' : (e.pair p).state = 3 := by
      rw [hsame]
      exact hstate
    refine (congrArg InputPair.state hpair).trans ((Dev.framePair_fault hstate').trans ?_)
    rw [hsame, Dev.terminal, Dev.terminal, hterm]
    rfl

end Sys2Proof.Machine

/-! PROOF. Sensor supplies, and the voltages and temperature of the edge die (R541, R542, R547). -/

namespace Sys2Proof.Machine
open Sys2Proof

/-! ## The supplies' states -/

theorem Dev.spState_reported {d : Dev} {n cause : Nat} {from_ : List Nat} (hedge : hasEdge d.code = true) (hin : kget 0 d.edge.supplies n ∈ from_)
    (hcause : cause ≠ 0) (to_ : Nat) :
    kget 0 (d.spState n from_ to_ cause).edge.supplies n = to_ ∧
      (d.spState n from_ to_ cause).edge.reports = d.edge.reports ++ [(cause, n, 0)] := by
  rw [show d.spState n from_ to_ cause = _ from (if_pos hedge).trans ((if_pos (List.contains_iff_mem.2 hin)).trans (if_neg hcause))]
  exact ⟨kget_kset_same (m := d.edge.supplies), rfl⟩

theorem Dev.spState_ended {d : Dev} {n : Nat} {from_ : List Nat} (hedge : hasEdge d.code = true) (hin : kget 0 d.edge.supplies n ∈ from_) (to_ : Nat) :
    kget 0 (d.spState n from_ to_ 0).edge.supplies n = to_ := by
  rw [show d.spState n from_ to_ 0 = _ from (if_pos hedge).trans ((if_pos (List.contains_iff_mem.2 hin)).trans (if_pos rfl))]
  exact kget_kset_same (m := d.edge.supplies)

/-- The supplies that a short switched off. -/
def shorted (m : Store Nat) : Store Nat := m.filter (fun x => decide (x.2 = 2))

theorem shorted_cons (k v : Nat) (t : Store Nat) : shorted ((k, v) :: t) = if v = 2 then (k, v) :: shorted t else shorted t := by
  simp [shorted, List.filter_cons]

theorem shorted_states (n : Nat) : ∀ m : Store Nat, kget 0 (shorted m) n = 0 ∨ kget 0 (shorted m) n = 2
  | [] => .inl rfl
  | (k, v) :: t => by
    have ih := shorted_states n t
    rw [shorted_cons]
    split
    next hv =>
      rw [kget, hv]
      exact ite_both (P := fun x => x = 0 ∨ x = 2) (.inr rfl) ih
    next => exact ih

theorem shorted_keeps {n : Nat} : ∀ m : Store Nat, kget 0 m n = 2 → kget 0 (shorted m) n = 2
  | [], h => h
  | (k, v) :: t, h => by
    rw [kget] at h
    rw [shorted_cons]
    by_cases hk : k = n
    · rw [if_pos hk] at h
      rw [if_pos h, kget, if_pos hk]
      exact h
    · rw [if_neg hk] at h
      have ih := shorted_keeps t h
      split
      · rwa [kget, if_neg hk]
      · exact ih

/-! ## Switching channels off -/

/-- The edge die's state but for its switches and their turns. -/
def Edge.still (e : Edge) : Edge := { e with sq := [], turns := [], turnTick := 0 }

/-- The channels of a list are no longer commanded on. -/
def Dev.uncommand (d : Dev) (l : List Nat) : Dev := l.foldl (fun d c => d.modSq c (fun x => { x with cmd := false })) d

theorem Dev.uncommand_still (d : Dev) (l : List Nat) : (d.uncommand l).edge.still = d.edge.still :=
  foldl_keeps (g := fun e : Dev => e.edge.still) (by intros; rfl) _ _

theorem Dev.uncommand_turns (d : Dev) (l : List Nat) : (d.uncommand l).edge.turns = d.edge.turns :=
  foldl_keeps (g := fun e : Dev => e.edge.turns) (by intros; rfl) _ _

theorem Dev.uncommand_on (d : Dev) (l : List Nat) (c : Nat) : ((d.uncommand l).sq c).on = (d.sq c).on := by
  refine foldl_keeps (g := fun e : Dev => (e.sq c).on) (fun e k => ?_) _ _
  by_cases hc : c = k
  · rw [hc, Dev.modSq_sq]
  · rw [Dev.modSq_sq_other _ _ _ _ hc]

theorem Dev.switchOff_still (d : Dev) (l : List Nat) : (d.switchOff l).edge.still = d.edge.still := by
  unfold Dev.switchOff
  dsimp only
  split <;> exact d.uncommand_still _

/-- The first switch of a sequence opens; the others wait. -/
theorem Dev.openFirst_waits {d : Dev} {c k t : Nat} {rest : List Nat} (hwaits : (d.sq c).on = true → c ∈ k :: rest)
    (hon : (((d.openSwitch k).modEdge (fun e => { e with turns := rest, turnTick := t })).sq c).on = true) : c ∈ rest := by
  have hopen : ((d.openSwitch k).sq c).on = true := hon
  rw [Dev.openSwitch] at hopen
  by_cases hc : c = k
  · rw [hc, Dev.modSq_sq] at hopen
    exact absurd hopen Bool.false_ne_true
  · rw [Dev.modSq_sq_other _ _ _ _ hc] at hopen
    exact (List.mem_cons.1 (hwaits hopen)).resolve_left hc

/-- A channel of the list that is still on waits for its turn to open. -/
theorem Dev.switchOff_turns {d : Dev} {l : List Nat} {c : Nat} (hc : c < 8) (hl : c ∈ l) (hon : ((d.switchOff l).sq c).on = true) :
    c ∈ (d.switchOff l).edge.turns := by
  have hwaits : ((d.uncommand (l.filter (fun c => (d.sq c).on && !d.edge.turns.contains c))).sq c).on = true →
      c ∈ (List.range 8).filter (fun k => (l.filter (fun c => (d.sq c).on && !d.edge.turns.contains c)).contains k ||
        (d.uncommand (l.filter (fun c => (d.sq c).on && !d.edge.turns.contains c))).edge.turns.contains k) := by
    intro h
    rw [Dev.uncommand_on] at h
    rw [Dev.uncommand_turns]
    by_cases hturn : c ∈ d.edge.turns <;> simp [hc, hl, h, hturn]
  revert hon
  unfold Dev.switchOff
  dsimp only
  split
  next k rest hall hnone =>
    refine Dev.openFirst_waits (d := d.uncommand _) (fun h => ?_)
    rw [← hall]
    exact hwaits h
  next => exact hwaits

/-! ## The measurement -/

def Dev.vedgeChecked (d : Dev) (vedge : Nat) : Dev := if 32000 < vedge then d.allSqOff else d

def Dev.vsensChecked (d : Dev) (vsens : Nat) : Dev := if 32000 < vsens then d.suppliesOff.modEdge (fun e => { e with vsensOver := true }) else d

/-- Over-temperature switches every supply and every channel off, with its report. -/
def Dev.overheats (d : Dev) : Dev := ((d.suppliesOff.modEdge (fun e => { e with hot := true })).allSqOff).report 0x120D 0 0

def Dev.tempChecked (d : Dev) (temp : Int) : Dev := if 125 * 65536 ≤ temp ∧ d.edge.hot = false then d.overheats else d

/-- The edge die's own part of a measurement. -/
def Dev.checked (d : Dev) (vedge vsens : Nat) (temp : Int) : Dev :=
  (((d.measured vedge vsens temp).vedgeChecked vedge).vsensChecked vsens).tempChecked temp

theorem edgeSupplyMeasure_edge {d : Dev} (hedge : hasEdge d.code = true) (hdue : d.edge.measureTick + usTicks 100 ≤ d.tick) (vedge vsens : Nat) (temp : Int) :
    (edgeSupplyMeasure vedge vsens temp d).edge = (d.checked vedge vsens temp).edge := by
  rw [show edgeSupplyMeasure vedge vsens temp d = _ from (if_pos hedge).trans (if_pos hdue)]
  show Dev.edge (match (d.checked vedge vsens temp).edge.vedgeOk with
    | some u => if u + sTicks 1 ≤ (d.checked vedge vsens temp).tick ∧ kget 0 (d.checked vedge vsens temp).hull.demands srcVedge ≠ 0
      then (d.checked vedge vsens temp).demand srcVedge 0 0x120A else d.checked vedge vsens temp
    | none => d.checked vedge vsens temp) = _
  split
  · exact ite_both (P := fun e : Dev => e.edge = (d.checked vedge vsens temp).edge) (Dev.demand_edge _ _ _ _) rfl
  · rfl

theorem Dev.allSqOff_still (d : Dev) : d.allSqOff.edge.still = d.edge.still := d.switchOff_still _

theorem Dev.vedgeChecked_still (d : Dev) (vedge : Nat) : (d.vedgeChecked vedge).edge.still = d.edge.still :=
  ite_both (P := fun e : Dev => e.edge.still = d.edge.still) d.allSqOff_still rfl

/-- The fields of the edge die that its checks leave. -/
def Edge.taken (e : Edge) : Nat × Nat × Int := (e.vedge, e.vsens, e.temp)

theorem Edge.taken_of_still {a b : Edge} (h : a.still = b.still) : a.taken = b.taken := (congrArg Edge.taken h :)

/-- Over-temperature: every supply off but those of a short, every channel that is on in its turn, and the report. -/
theorem Dev.overheats_edge (d : Dev) :
    d.overheats.edge.still = { d.edge.still with supplies := shorted d.edge.supplies, hot := true, reports := d.edge.reports ++ [(0x120D, 0, 0)] } := by
  have h := Dev.allSqOff_still (d.suppliesOff.modEdge (fun e => { e with hot := true }))
  have hrep : (d.suppliesOff.modEdge (fun e => { e with hot := true })).allSqOff.edge.reports = d.edge.reports := (congrArg Edge.reports h :)
  exact (congrArg (fun e : Edge => { e with reports := (d.suppliesOff.modEdge (fun e => { e with hot := true })).allSqOff.edge.reports ++ [(0x120D, 0, 0)] }) h).trans
    (by rw [hrep])

theorem Dev.overheats_turns (d : Dev) {c : Nat} (hc : c < 8) (hon : (d.overheats.sq c).on = true) : c ∈ d.overheats.edge.turns :=
  Dev.switchOff_turns (d := d.suppliesOff.modEdge (fun e => { e with hot := true })) hc (List.mem_range.2 hc) hon

theorem Dev.overheats_supplies (d : Dev) : d.overheats.edge.supplies = shorted d.edge.supplies := (congrArg Edge.supplies d.overheats_edge :)

theorem Dev.tempChecked_taken (d : Dev) (temp : Int) : (d.tempChecked temp).edge.taken = d.edge.taken :=
  ite_both (P := fun e : Dev => e.edge.taken = d.edge.taken) (congrArg Edge.taken d.overheats_edge :) rfl

theorem Dev.tempChecked_over (d : Dev) (temp : Int) : (d.tempChecked temp).edge.vsensOver = d.edge.vsensOver :=
  ite_both (P := fun e : Dev => e.edge.vsensOver = d.edge.vsensOver) (congrArg Edge.vsensOver d.overheats_edge :) rfl

/-- The check of the temperature leaves each supply as it was, or all but those of a short off. -/
theorem Dev.tempChecked_supplies (d : Dev) (temp : Int) :
    (d.tempChecked temp).edge.supplies = d.edge.supplies ∨ (d.tempChecked temp).edge.supplies = shorted d.edge.supplies :=
  ite_both (P := fun e : Dev => e.edge.supplies = d.edge.supplies ∨ e.edge.supplies = shorted d.edge.supplies) (.inr d.overheats_supplies) (.inl rfl)

theorem Dev.vsensChecked_taken (d : Dev) (vsens : Nat) : (d.vsensChecked vsens).edge.taken = d.edge.taken :=
  ite_both (P := fun e : Dev => e.edge.taken = d.edge.taken) rfl rfl

theorem Dev.vsensChecked_hot (d : Dev) (vsens : Nat) : (d.vsensChecked vsens).edge.hot = d.edge.hot :=
  ite_both (P := fun e : Dev => e.edge.hot = d.edge.hot) rfl rfl

theorem Dev.vsensChecked_reports (d : Dev) (vsens : Nat) : (d.vsensChecked vsens).edge.reports = d.edge.reports :=
  ite_both (P := fun e : Dev => e.edge.reports = d.edge.reports) rfl rfl

theorem Dev.vsensChecked_over {d : Dev} {vsens : Nat} (h : 32000 < vsens) :
    (d.vsensChecked vsens).edge = { d.edge with supplies := shorted d.edge.supplies, vsensOver := true } := by
  rw [show d.vsensChecked vsens = _ from if_pos h]
  rfl

/-- VEDGE measured and checked. -/
def Dev.first (d : Dev) (vedge vsens : Nat) (temp : Int) : Dev := (d.measured vedge vsens temp).vedgeChecked vedge

theorem Dev.first_still (d : Dev) (vedge vsens : Nat) (temp : Int) : (d.first vedge vsens temp).edge.still = (d.measured vedge vsens temp).edge.still :=
  Dev.vedgeChecked_still _ _

theorem Dev.checked_taken (d : Dev) (vedge vsens : Nat) (temp : Int) : (d.checked vedge vsens temp).edge.taken = (vedge, vsens, temp) :=
  (Dev.tempChecked_taken _ _).trans ((Dev.vsensChecked_taken _ _).trans (Edge.taken_of_still (d.first_still vedge vsens temp)))

/-- Overvoltage of VSENS switches every supply off, but those of a short. -/
theorem Dev.checked_over (d : Dev) (vedge : Nat) {vsens : Nat} (temp : Int) (h : 32000 < vsens) :
    (d.checked vedge vsens temp).edge.vsensOver = true ∧
      (∀ n, kget 0 (d.checked vedge vsens temp).edge.supplies n = 0 ∨ kget 0 (d.checked vedge vsens temp).edge.supplies n = 2) ∧
      (∀ n, kget 0 d.edge.supplies n = 2 → kget 0 (d.checked vedge vsens temp).edge.supplies n = 2) := by
  have hsup : (d.first vedge vsens temp).edge.supplies = d.edge.supplies := (congrArg Edge.supplies (d.first_still vedge vsens temp) :)
  have hedge : ((d.first vedge vsens temp).vsensChecked vsens).edge.supplies = shorted d.edge.supplies := by
    rw [Dev.vsensChecked_over h, hsup]
  have hover : (d.checked vedge vsens temp).edge.vsensOver = true := by
    refine (Dev.tempChecked_over _ _).trans ?_
    rw [show ((d.measured vedge vsens temp).vedgeChecked vedge).vsensChecked vsens = (d.first vedge vsens temp).vsensChecked vsens from rfl,
      Dev.vsensChecked_over h]
  refine ⟨hover, ?_⟩
  rcases Dev.tempChecked_supplies ((d.first vedge vsens temp).vsensChecked vsens) temp with hs | hs
  · rw [show (d.checked vedge vsens temp).edge.supplies = shorted d.edge.supplies from hs.trans hedge]
    exact ⟨fun n => shorted_states n _, fun n => shorted_keeps _⟩
  · rw [show (d.checked vedge vsens temp).edge.supplies = shorted (shorted d.edge.supplies) from hs.trans (by rw [hedge])]
    exact ⟨fun n => shorted_states n _, fun n hn => shorted_keeps _ (shorted_keeps _ hn)⟩

/-- Over-temperature marks the edge die hot, is reported, and switches everything off. -/
theorem Dev.checked_hot (d : Dev) (vedge vsens : Nat) {temp : Int} (h : 125 * 65536 ≤ temp) (hcold : d.edge.hot = false) :
    (d.checked vedge vsens temp).edge.hot = true ∧ (d.checked vedge vsens temp).edge.reports = d.edge.reports ++ [(0x120D, 0, 0)] ∧
      (∀ n, kget 0 (d.checked vedge vsens temp).edge.supplies n = 0 ∨ kget 0 (d.checked vedge vsens temp).edge.supplies n = 2) ∧
      ∀ c, c < 8 → ((d.checked vedge vsens temp).sq c).on = true → c ∈ (d.checked vedge vsens temp).edge.turns := by
  have hhot : ((d.first vedge vsens temp).vsensChecked vsens).edge.hot = false := by
    rw [Dev.vsensChecked_hot]
    exact (congrArg Edge.hot (d.first_still vedge vsens temp) :).trans hcold
  have hrep : ((d.first vedge vsens temp).vsensChecked vsens).edge.reports = d.edge.reports := by
    rw [Dev.vsensChecked_reports]
    exact (congrArg Edge.reports (d.first_still vedge vsens temp) :)
  rw [show d.checked vedge vsens temp = ((d.first vedge vsens temp).vsensChecked vsens).overheats from if_pos ⟨h, hhot⟩]
  have hedge := Dev.overheats_edge ((d.first vedge vsens temp).vsensChecked vsens)
  rw [hrep] at hedge
  refine ⟨(congrArg Edge.hot hedge :), (congrArg Edge.reports hedge :), fun n => ?_, fun c hc => Dev.overheats_turns _ hc⟩
  rw [Dev.overheats_supplies]
  exact shorted_states n _

theorem vedgeOutOfRange_due {d : Dev} {u : Nat} (hedge : hasEdge d.code = true) (hbad : d.edge.vedgeBad = some u) (hdue : u + msTicks 1 ≤ d.tick)
    (hnone : kget 0 d.hull.demands srcVedge = 0) (hfresh : d.edge.reports.any (fun r => r.1 == 0x120A) = false) :
    vedgeOutOfRange d = d.report 0x120A 0 0 := by
  refine (if_pos hedge).trans ?_
  simp only [hbad]
  exact if_pos ⟨hdue, hnone, hfresh⟩

theorem vsensRecovery_due {d : Dev} {u : Nat} (hedge : hasEdge d.code = true) (hok : d.edge.vsensOk = some u) (hover : d.edge.vsensOver = true)
    (hdue : u + msTicks 100 ≤ d.tick) : vsensRecovery d = d.modEdge (fun e => { e with vsensOver := false }) := by
  refine (if_pos hedge).trans ?_
  simp only [hok]
  exact if_pos ⟨hover, hdue⟩

theorem edgeTemperatureResume_due {d : Dev} {u : Nat} (hedge : hasEdge d.code = true) (hcool : d.edge.coolSince = some u) (hhot : d.edge.hot = true)
    (hdue : u + sTicks 10 ≤ d.tick) : edgeTemperatureResume d = (d.modEdge (fun e => { e with hot := false })).demand srcEdgeHot 0 0x120D := by
  refine (if_pos hedge).trans ?_
  simp only [hcool]
  exact if_pos ⟨hhot, hdue⟩

/-- Settles O30. -/
theorem sensorSupplies : Obligations.SensorSupplies := by
  refine ⟨fun s n hedge hstate => ⟨_, rfl, Dev.spState_reported hedge (by simpa using hstate) (by decide) 2⟩,
    fun s n hedge hstate => ⟨_, rfl, Dev.spState_reported hedge (by simpa using hstate) (by decide) 3⟩,
    fun s n hedge hstate => ⟨_, rfl, Dev.spState_reported hedge (by simpa using hstate) (by decide) 4⟩,
    fun s n hedge hstate => ⟨_, rfl, Dev.spState_ended hedge (by simpa using hstate) 1⟩,
    fun s n hedge hstate => ⟨_, rfl, Dev.spState_ended hedge (by simpa using hstate) 1⟩,
    fun s vedge vsens temp hedge hdue => ⟨_, rfl, ?_⟩, fun s u hedge hbad hdue hnone hfresh => ⟨_, rfl, ?_⟩,
    fun s u hedge hok hover hdue => ⟨_, rfl, ?_⟩, fun s u hedge hcool hhot hdue => ⟨_, rfl, ?_⟩⟩
  · have hmeasured := edgeSupplyMeasure_edge hedge hdue vedge vsens temp
    have htaken := s.dev.checked_taken vedge vsens temp
    simp only [Edge.taken, Prod.mk.injEq] at htaken
    obtain ⟨hvedge, hvsens, htemp⟩ := htaken
    simp only [Dev.sq, hmeasured]
    exact ⟨hvedge, hvsens, htemp, s.dev.checked_over vedge temp, s.dev.checked_hot vedge vsens⟩
  · beta_reduce
    rw [vedgeOutOfRange_due hedge hbad hdue hnone hfresh]
    rfl
  · beta_reduce
    rw [vsensRecovery_due hedge hok hover hdue]
    rfl
  · beta_reduce
    rw [edgeTemperatureResume_due hedge hcool hhot hdue, Dev.demand_edge, Dev.demand_demands, kget_kset_same]
    exact ⟨rfl, rfl⟩

end Sys2Proof.Machine

/-! PROOF. The Twin link: frames, training, discovery and loss (R353, R355 to R357, R476, R478). -/

namespace Sys2Proof.Machine
open Sys2Proof

/-! ## What a demand leaves of the Twin link -/

/-- The Twin link but for the SEQ it sends. -/
def Twin.unsent (t : Twin) : Twin := { t with txSeq := 0 }

theorem Twin.fields_of_unsent {a b : Twin} (h : a.unsent = b.unsent) :
    a.partner = b.partner ∧ a.discovering = b.discovering ∧ a.seen = b.seen ∧ a.tolBad = b.tolBad ∧ a.tolGood = b.tolGood ∧
      a.discrepant = b.discrepant :=
  ⟨(congrArg Twin.partner h :), (congrArg Twin.discovering h :), (congrArg Twin.seen h :), (congrArg Twin.tolBad h :), (congrArg Twin.tolGood h :),
    (congrArg Twin.discrepant h :)⟩

theorem Dev.sendTwin_unsent (d : Dev) (type : Nat) (payload : List Word) : (d.sendTwin type payload).twin.unsent = d.twin.unsent := by
  unfold Dev.sendTwin
  exact ite_both (P := fun e : Dev => e.twin.unsent = d.twin.unsent) rfl rfl

theorem Dev.sendDecision_unsent (d : Dev) : d.sendDecision.twin.unsent = d.twin.unsent :=
  ite_both (P := fun e : Dev => e.twin.unsent = d.twin.unsent) (Dev.sendTwin_unsent _ _ _) rfl

theorem Dev.showTier_unsent (d : Dev) : d.showTier.twin.unsent = d.twin.unsent := by
  unfold Dev.showTier
  rw [(Dev.sendStatus_frame _).twin (by decide), Dev.sendDecision_unsent, (Dev.sendCommand_frame _).twin (by decide)]

theorem Dev.retier_unsent (d : Dev) (cause : Nat) (cat0 : Bool) : (d.retier cause cat0).twin.unsent = d.twin.unsent := by
  unfold Dev.retier
  refine ite_both (P := fun e : Dev => e.twin.unsent = d.twin.unsent) ?_ (ite_both (P := fun e : Dev => e.twin.unsent = d.twin.unsent) ?_ rfl)
  · rw [Dev.showTier_unsent]
    refine ite_both (P := fun e : Dev => e.twin.unsent = d.twin.unsent) ?_ rfl
    rw [(Dev.enterStop_frame _ _ _).twin (by decide)]
  · rw [(Dev.sendCommand_frame _).twin (by decide)]

theorem Dev.demand_unsent (d : Dev) (src tier cause : Nat) : (d.demand src tier cause).twin.unsent = d.twin.unsent := Dev.retier_unsent _ _ _

theorem Dev.single_unsent (d : Dev) : d.single.twin.unsent = d.twin.unsent := by
  unfold Dev.single
  rw [Dev.demand_unsent, Dev.raise_twin]

/-- Going on alone is reported, and demands the tier of [7100.09]. -/
theorem Dev.single_demands (d : Dev) : d.single.hull.demands = kset 0 d.hull.demands srcLinkLoss (d.cfg 0x7100 9) := by
  unfold Dev.single
  rw [Dev.demand_demands, Dev.raise_hull]

theorem Dev.single_reports {d : Dev} (hup : d.up = true) : d.single.Reports 0x0C02 0 :=
  (Dev.demand_reports _ _ _ _ _ _).2 (Dev.raise_reports hup _ _ _)

theorem Dev.up_of_pairEnabled {d : Dev} (h : d.pairEnabled = true) : d.up = true := (Bool.and_eq_true _ _ ▸ h).2

/-! ## Frames -/

/-- A safety frame leaves: SEQ rises by 1 and the frame is the newest output. -/
theorem Dev.sendTwin_sent {d : Dev} {type : Nat} (htype : type < 5) (payload : List Word) :
    (d.sendTwin type payload).twin.txSeq = d.twin.txSeq + 1 ∧ (d.sendTwin type payload).out.length = d.out.length + 1 ∧
      (d.sendTwin type payload).out.head?.map (fun o => (o.kind, o.unit)) = some (.twinFrame, type) := by
  unfold Dev.sendTwin
  rw [if_pos htype]
  exact ⟨rfl, rfl, rfl⟩

/-- A usable frame is used: its SEQ is the newest, and it is the last one used. -/
theorem Dev.useFrame_usable {d : Dev} {f : TwinFrame} (h : d.Usable f) :
    (d.useFrame f).2 = true ∧ (d.useFrame f).1.twin = { d.twin with rxSeq := some f.seq, lastUsed := d.tick } ∧ (d.useFrame f).1.time = d.time := by
  obtain ⟨hon, hup, hlanes, hseq⟩ := h
  have hlinked : ¬ (!d.pairEnabled || !d.twin.up) = true := by simp [hon, hup]
  have hagree : ¬ f.lanes ≠ .agree := not_not.2 hlanes
  unfold Dev.useFrame
  rw [if_neg hlinked, if_neg hagree]
  rcases hseq with hnone | ⟨l, hsome, hlow, hhigh⟩
  · rw [hnone]
    exact ⟨rfl, rfl, rfl⟩
  · rw [hsome]
    dsimp only
    rw [if_pos ⟨hlow, hhigh⟩]
    exact ⟨rfl, (Dev.raiseIf_frame _ _ _ _ _).twin (by decide), Dev.raiseIf_time _ _ _ _ _⟩

/-- A frame whose lanes do not agree is reported and not used. -/
theorem Dev.useFrame_differs {d : Dev} {f : TwinFrame} (hon : d.pairEnabled = true) (hup : d.twin.up = true) (hlanes : f.lanes ≠ .agree) :
    d.useFrame f = (d.raise 0x0C07 0 0, false) := by
  have hlinked : ¬ (!d.pairEnabled || !d.twin.up) = true := by simp [hon, hup]
  unfold Dev.useFrame
  rw [if_neg hlinked, if_pos hlanes]

/-! ## The commands -/

theorem heartbeat_used {d : Dev} {f : TwinFrame} (h : (d.useFrame f).2 = true) :
    (heartbeat f d).twin = { (d.useFrame f).1.twin with
      offset := (f.stamp.toNat : Int) + (d.useFrame f).1.freeNat 300 300000 - (d.useFrame f).1.now } := by
  unfold heartbeat
  dsimp only
  rw [if_pos h]
  rfl

theorem heartbeat_unused {d : Dev} {f : TwinFrame} (h : (d.useFrame f).2 = false) : heartbeat f d = (d.useFrame f).1 := by
  have hno : ¬ (d.useFrame f).2 = true := by rw [h]; decide
  unfold heartbeat
  dsimp only
  rw [if_neg hno]

/-- The device with no partner. -/
def Dev.alone (d : Dev) : Dev := { d with twin := { d.twin with partner := 0 } }

theorem partnerDiscovery_ends {d : Dev} (hstep : d.start.step = some 10) (hon : d.pairEnabled = true) (hpaired : d.paired = false)
    (hdue : d.start.stepTick + msTicks 200 ≤ d.tick) (hnone : kget 0 d.hull.demands srcLinkLoss = 0) :
    partnerDiscovery d = (d.alone.raise 0x0F0A 0 0).single := if_pos ⟨hstep, hon, hpaired, hdue, hnone⟩

/-- The link once its partner is lost. -/
def Dev.unpaired (d : Dev) : Dev :=
  { d with twin := { d.twin with partner := 2, rxSeq := none, up := false, seen := false, discovering := true, own := [],
                                 theirs := [], theirVals := [], since := none } }

theorem twinLinkLost_due {d : Dev} (hpaired : d.paired = true) (hdue : d.twin.lastUsed + usTicks 300 ≤ d.tick) :
    twinLinkLost d = (d.unpaired.demand srcPartner 0 0).single := if_pos ⟨hpaired, hdue⟩

theorem Dev.demand_cfg (d : Dev) (src tier cause i j : Nat) : (d.demand src tier cause).cfg i j = d.cfg i j :=
  Dev.cfg_of_vals (Dev.demand_vals _ _ _ _) (Dev.demand_code _ _ _ _) i j

/-- Settles O31. -/
theorem twinLink : Obligations.TwinLink := by
  refine ⟨fun s hon hpaired hdue => ⟨_, rfl, ?_⟩, fun s f hf => ⟨_, rfl, ?_⟩, fun s f hon hup hlanes => ⟨_, rfl, ?_⟩,
    fun s hon hup hpaired hdisc hdue => ⟨_, rfl, ?_⟩, fun s hon hup => ⟨_, rfl, ?_⟩, fun s hon hup => ⟨_, rfl, ?_⟩,
    fun s hon hup hpaired hdue => ⟨_, rfl, ?_⟩, fun s f hon hup hlanes => ⟨_, rfl, ?_⟩, fun s f hlanes => ⟨_, rfl, ?_⟩,
    fun s hstep hon hpaired hdue hnone => ⟨_, rfl, ?_⟩, fun s hup hpaired hdue => ⟨_, rfl, ?_⟩⟩
  · have hsend : (s.dev.pairEnabled && s.dev.paired && decide (s.dev.twin.beatTick + usTicks 100 ≤ s.dev.tick)) = true := by
      simp [hon, hpaired, hdue]
    beta_reduce
    rw [show twinHeartbeatSend s.dev = _ from if_pos hsend]
    exact Dev.sendTwin_sent (d := { s.dev with twin := { s.dev.twin with beatTick := s.dev.tick } }) (by decide) _
  · obtain ⟨hused, htwin, htime⟩ := Dev.useFrame_usable hf
    have hnow : (s.dev.useFrame f).1.now = s.dev.now := by rw [Dev.now, htime, Dev.now]
    rw [heartbeat_used hused, htwin, hnow]
    exact ⟨rfl, rfl, (s.dev.useFrame f).1.freeNat 300 300000, Int.ofNat_lt.2 (Nat.mod_lt _ (by decide : 0 < 300000)), rfl⟩
  · beta_reduce
    have huse := Dev.useFrame_differs hon hup hlanes
    rw [heartbeat_unused (by rw [huse]), huse]
    exact ⟨Dev.raise_reports (Dev.up_of_pairEnabled hon) _ _ _, Dev.raise_twin _ _ _ _⟩
  · have hsend : (s.dev.pairEnabled && s.dev.twin.up && !s.dev.paired && s.dev.twin.discovering &&
        decide (s.dev.twin.idTick + msTicks 10 ≤ s.dev.tick)) = true := by
      simp [hon, hup, hpaired, hdisc, hdue]
    beta_reduce
    rw [show identitySend s.dev = _ from if_pos hsend]
    obtain ⟨hseq, -, hout⟩ := Dev.sendTwin_sent (d := { s.dev with twin := { s.dev.twin with idTick := s.dev.tick } }) (type := 4) (by decide)
      s.dev.identityWords
    exact ⟨hseq, hout⟩
  · beta_reduce
    rw [show twinLanesUp s.dev = _ from if_pos (by simp [hon, hup])]
    exact ⟨rfl, rfl, rfl⟩
  · beta_reduce
    rw [show twinLaneTraining true s.dev = _ from if_pos (by simp [hon, hup])]
  · have hpartner : s.dev.twin.partner ≠ 1 := by simpa [Dev.paired] using hpaired
    beta_reduce
    rw [show twinLaneTraining false s.dev = _ from if_pos (by simp [hon, hup, hpartner, hdue])]
    exact ⟨rfl, rfl⟩
  · beta_reduce
    rw [show bulk f s.dev = _ from if_pos (by simp [hon, hup, hlanes])]
    exact ⟨Dev.raise_reports (Dev.up_of_pairEnabled hon) _ _ _, Dev.raise_hull _ _ _ _⟩
  · exact if_neg (by simp [hlanes])
  · beta_reduce
    rw [partnerDiscovery_ends hstep hon hpaired hdue hnone]
    have hup : s.dev.alone.up = true := Dev.up_of_pairEnabled hon
    refine ⟨?_, Dev.single_reports (by rwa [Dev.raise_up]), ?_⟩
    · have h := Dev.single_unsent (s.dev.alone.raise 0x0F0A 0 0)
      rw [Dev.raise_twin] at h
      exact (Twin.fields_of_unsent h).1
    · rw [Dev.single_demands, kget_kset_same, Dev.raise_cfg]
      rfl
  · beta_reduce
    rw [twinLinkLost_due hpaired hdue]
    have h := Dev.single_unsent (s.dev.unpaired.demand srcPartner 0 0)
    rw [Dev.demand_unsent] at h
    obtain ⟨hpartner, hdisc, -⟩ := Twin.fields_of_unsent h
    refine ⟨hpartner, hdisc, Dev.single_reports ?_, ?_, ?_⟩
    · rw [Dev.up, Dev.demand_power]
      exact hup
    · rw [Dev.single_demands, kget_kset, if_neg (by decide), Dev.demand_demands, kget_kset_same]
    · rw [Dev.single_demands, kget_kset_same, Dev.demand_cfg]
      rfl

end Sys2Proof.Machine

/-! PROOF. What a used frame of the partner brings (R353, R356 to R360, R476, R477). -/

namespace Sys2Proof.Machine
open Sys2Proof

/-! ## A used frame -/

/-- The device with a safety frame taken as the newest. -/
def Dev.taking (d : Dev) (f : TwinFrame) : Dev := { d with twin := { d.twin with rxSeq := some f.seq, lastUsed := d.tick } }

/-- A usable frame is taken, with a report where frames before it were lost. -/
theorem Dev.useFrame_eq {d : Dev} {f : TwinFrame} (h : d.Usable f) : ∃ b, d.useFrame f = ((d.taking f).raiseIf b 0x0C07 0 0, true) := by
  obtain ⟨hon, hup, hlanes, hseq⟩ := h
  have hlinked : ¬ (!d.pairEnabled || !d.twin.up) = true := by simp [hon, hup]
  have hagree : ¬ f.lanes ≠ .agree := not_not.2 hlanes
  unfold Dev.useFrame
  rw [if_neg hlinked, if_neg hagree]
  rcases hseq with hnone | ⟨l, hsome, hlow, hhigh⟩
  · rw [hnone]
    exact ⟨false, rfl⟩
  · rw [hsome]
    dsimp only
    rw [if_pos ⟨hlow, hhigh⟩]
    exact ⟨decide (1 < (f.seq - l).toNat), rfl⟩

@[simp] theorem Dev.raiseIf_hull (d : Dev) (b : Bool) (c i x : Nat) : (d.raiseIf b c i x).hull = d.hull := (Dev.raiseIf_frame _ _ _ _ _).hull (by decide)

@[simp] theorem Dev.raiseIf_twin (d : Dev) (b : Bool) (c i x : Nat) : (d.raiseIf b c i x).twin = d.twin := (Dev.raiseIf_frame _ _ _ _ _).twin (by decide)

@[simp] theorem Dev.raiseIf_sec (d : Dev) (b : Bool) (c i x : Nat) : (d.raiseIf b c i x).sec = d.sec := (Dev.raiseIf_frame _ _ _ _ _).sec (by decide)

@[simp] theorem Dev.raiseIf_up (d : Dev) (b : Bool) (c i x : Nat) : (d.raiseIf b c i x).up = d.up := by
  cases b
  · rfl
  · exact Dev.raise_up _ _ _ _

@[simp] theorem Dev.raiseIf_inRun (d : Dev) (b : Bool) (c i x : Nat) : (d.raiseIf b c i x).inRun = d.inRun := by
  cases b
  · rfl
  · exact Dev.raise_inRun _ _ _ _

theorem Dev.raiseIf_inv {d : Dev} (h : d.Inv) (b : Bool) (c i x : Nat) : (d.raiseIf b c i x).Inv := ((Dev.raiseIf_frame _ _ _ _ _).inv (by decide)).2 h

/-! ## Demands that other demands leave -/

/-- The second device holds the first one's demand from a source, at no lower tier. -/
structure Dev.Holds (src : Nat) (a b : Dev) : Prop where
  demand : kget 0 b.hull.demands src = kget 0 a.hull.demands src
  tier : a.hull.tier ≤ b.hull.tier

theorem Dev.Holds.refl {src : Nat} (d : Dev) : Dev.Holds src d d := ⟨rfl, Nat.le_refl _⟩

theorem Dev.Holds.trans {src : Nat} {a b c : Dev} (h : Dev.Holds src a b) (k : Dev.Holds src b c) : Dev.Holds src a c :=
  ⟨k.demand.trans h.demand, Nat.le_trans h.tier k.tier⟩

theorem Dev.Holds.ite {src : Nat} {a b c : Dev} {q : Prop} [Decidable q] (hb : Dev.Holds src a b) (hc : Dev.Holds src a c) :
    Dev.Holds src a (if q then b else c) := ite_both (P := Dev.Holds src a) hb hc

theorem Dev.Holds.of_twin {src : Nat} {d c : Dev} {t : Twin} (h : Dev.Holds src { d with twin := t } c) : Dev.Holds src d c := ⟨h.demand, h.tier⟩

theorem Dev.Holds.to_twin {src : Nat} {d c : Dev} {t : Twin} (h : Dev.Holds src d c) : Dev.Holds src d { c with twin := t } := ⟨h.demand, h.tier⟩

theorem Dev.Holds.of_needReset {src : Nat} {d c : Dev} {b : Bool} (h : Dev.Holds src { d with hull := { d.hull with needReset := b } } c) :
    Dev.Holds src d c := ⟨h.demand, h.tier⟩

theorem Dev.Holds.of_hull {src : Nat} {a b : Dev} (h : b.hull = a.hull) : Dev.Holds src a b := by
  refine ⟨?_, ?_⟩ <;> rw [h]

theorem Dev.demand_holds {src other : Nat} (h : src ≠ other) (d : Dev) (tier cause : Nat) : Dev.Holds src d (d.demand other tier cause) :=
  ⟨by rw [Dev.demand_demands, kget_kset, if_neg h], Dev.tier_le_demand _ _ _ _⟩

theorem Dev.raiseDemand_holds {src other : Nat} (h : src ≠ other) (d : Dev) (tier cause : Nat) :
    Dev.Holds src d ((d.raise cause 0 0).demand other tier cause) :=
  (Dev.Holds.of_hull (Dev.raise_hull _ _ _ _)).trans (Dev.demand_holds h _ _ _)

theorem Dev.recordedDemand_holds {src other : Nat} (h : src ≠ other) (d : Dev) (tier cause : Nat) :
    Dev.Holds src d (((d.raise cause 0 0).recEvent cause).demand other tier cause) := by
  refine .trans (.of_hull ?_) (Dev.demand_holds h _ _ _)
  rw [(Dev.recEvent_frame _ _).hull (by decide), Dev.raise_hull]

theorem Dev.alignment_holds (d : Dev) (tv : Int) : Dev.Holds srcPartner d (d.alignment tv) := by
  unfold Dev.alignment
  refine .ite (.of_twin (.ite (.refl _) (Dev.demand_holds (by decide) _ _ _))) (.of_twin (.ite (Dev.raiseDemand_holds (by decide) _ _ _) (.refl _)))

theorem Dev.mismatch_holds (d : Dev) : Dev.Holds srcPartner d d.mismatch := by
  unfold Dev.mismatch
  exact .of_twin (.ite (.of_needReset (Dev.recordedDemand_holds (by decide) _ _ _)) (.refl _))

theorem Dev.agreed_holds (d : Dev) : Dev.Holds srcPartner d d.agreed := by
  unfold Dev.agreed
  exact .of_twin (.ite (.refl _) (Dev.demand_holds (by decide) _ _ _))

theorem Dev.crossCheck_holds (d : Dev) (t : Decided) : Dev.Holds srcPartner d (d.crossCheck t) := by
  unfold Dev.crossCheck
  split
  · exact (Dev.Holds.of_hull ((Dev.markCompared_frame d _).hull (by decide))).trans (.ite (.refl _) (.ite (Dev.agreed_holds _) (Dev.mismatch_holds _)))
  · exact .refl d

theorem Dev.alignmentIf_holds (d : Dev) (b : Bool) (tv : Int) : Dev.Holds srcPartner d (if b then d.alignment tv else d) :=
  .ite (Dev.alignment_holds _ _) (.refl _)

/-- A demanded tier of at most 3 is reached at once. -/
theorem Dev.demand_reaches (d : Dev) (src : Nat) {tier : Nat} (htier : tier ≤ 3) (cause : Nat) : tier ≤ (d.demand src tier cause).hull.tier := by
  by_cases hzero : tier = 0
  · rw [hzero]
    exact Nat.zero_le _
  · have hmax : tier ≤ Dev.standing { d with hull := { d.hull with demands := kset 0 d.hull.demands src tier } } :=
      kset_max src tier hzero d.hull.demands 0
    rw [Dev.demand, Dev.retier_tier]
    refine Nat.le_trans (Nat.le_min.2 ⟨htier, ?_⟩) (Nat.le_max_right _ _)
    exact Nat.le_trans hmax (Nat.le_trans (Nat.le_max_right _ _) (Nat.le_max_right _ _))

/-- A used DECISION of the partner: its output tier is a demand, and the tier reaches it. -/
theorem decision_used {d e : Dev} {f : TwinFrame} (huse : d.useFrame f = (e, true)) (hpaired : e.paired = true) :
    Dev.Holds srcPartner (e.demand srcPartner (wfld (wat f.payload 1) 15 8 % 4) 0) (decision f d) := by
  unfold decision
  rw [huse]
  dsimp only
  rw [if_pos (by rw [hpaired]; rfl)]
  exact .trans (.ite (.to_twin (Dev.alignmentIf_holds _ _ _)) (Dev.alignmentIf_holds _ _ _)) (Dev.crossCheck_holds _ _)

theorem values_paired {d e : Dev} {f : TwinFrame} {x : Decided} (huse : d.useFrame f = (e, true)) (hpaired : e.paired = true)
    (hown : e.twin.own.find? (fun x => e.pairsWith (wat f.payload 0).toInt x && !x.discarded) = some x) :
    values f d = e.tolerance (e.valuesAgree x.vals (valuesOf f.payload)) := by
  unfold values
  rw [huse]
  dsimp only
  rw [if_pos (by rw [hpaired]; rfl), hown]

/-- The device after one more cycle out of tolerance. -/
def Dev.intolerant (d : Dev) : Dev := { d with twin := { d.twin with tolBad := d.twin.tolBad + 1, tolGood := 0 } }

theorem Dev.tolerance_exceeded {d : Dev} (hbad : d.cfg 0x7100 7 ≤ d.twin.tolBad + 1) (hnone : kget 0 d.hull.demands srcTolerance = 0) :
    d.tolerance false = ((d.intolerant.raise 0x0C04 0 0).recEvent 0x0C04).demand srcTolerance (d.cfg 0x7100 8) 0x0C04 :=
  (if_neg Bool.false_ne_true).trans (if_pos ⟨hbad, hnone⟩)

theorem crossCheckWindowExpiry_missing {d : Dev} {c : Nat} {x : Decided} (hown : d.twin.own.find? (fun y => y.cycle == c) = some x)
    (hpaired : d.paired = true) (hfresh : x.compared = false) (hkept : x.discarded = false) (hdue : x.tick + usTicks (d.cfg 0x7100 0x0A) ≤ d.tick) :
    crossCheckWindowExpiry c d = (d.markCompared (fun y => y.cycle == c)).mismatch := by
  unfold crossCheckWindowExpiry
  rw [hown]
  exact if_pos ⟨hpaired, hfresh, hkept, hdue⟩

/-- The device with one more discrepant cycle. -/
def Dev.discrepant (d : Dev) : Dev := { d with twin := { d.twin with discrepant := d.twin.discrepant + 1 } }

/-- The device that only a reset brings back. -/
def Dev.needsReset (d : Dev) : Dev := { d with hull := { d.hull with needReset := true } }

theorem Dev.mismatch_eq (d : Dev) :
    d.mismatch = if d.cfg 0x7100 4 ≤ d.twin.discrepant + 1 ∧ kget 0 d.hull.demands srcMismatch = 0 then
      ((d.discrepant.needsReset.raise 0x0C03 0 0).recEvent 0x0C03).demand srcMismatch 3 0x0C03 else d.discrepant := rfl

/-- The device once its partner's IDENTITY has passed every check. -/
def Dev.meeting (d : Dev) : Dev := { d with twin := { d.twin with seen := true } }

/-- The device whose partner is absent, as a failed check of R476 leaves it. -/
def Dev.checkFailing (d : Dev) : Dev :=
  { d with twin := { d.twin with partner := 0, checkFailed := d.twin.checkFailed || decide (d.start.step = some 10) } }

theorem Dev.checkFails_eq (d : Dev) (cause : Nat) : d.checkFails cause = d.checkFailing.raise cause 0 0 := rfl

/-- The device that has used its partner's IDENTITY, and is paired. -/
def Dev.joined (d : Dev) : Dev :=
  { d with twin := { d.twin with seen := true, partner := 1, discovering := false, discrepant := 0, unpaired := 0, tolBad := 0, tolGood := 0,
                                 own := [], theirs := [], theirVals := [], since := none } }

theorem Dev.discovered_eq (d : Dev) :
    d.meeting.discovered =
      if (d.joined.demand srcConfig 0 0x0C05).inRun then d.joined.demand srcConfig 0 0x0C05
      else (d.joined.demand srcConfig 0 0x0C05).demand srcLinkLoss 0 0x0C02 := rfl

theorem Dev.demand_needReset (d : Dev) (src tier cause : Nat) : (d.demand src tier cause).hull.needReset = d.hull.needReset :=
  (congrArg Hull.needReset (d.demand_undecided src tier cause) :)

theorem Dev.valuesAgree_of_cfg {a b : Dev} (h : ∀ i j, b.cfg i j = a.cfg i j) : b.valuesAgree = a.valuesAgree := by
  have hon : b.pairOn = a.pairOn := by
    funext p
    simp only [Dev.pairOn, h]
  funext x y
  simp only [Dev.valuesAgree, Dev.pairsOn, hon, Dev.inTolerance, h]

theorem identity_eq {d e : Dev} {f : TwinFrame} (huse : d.useFrame f = (e, true)) (hpaired : e.paired = false) :
    identity f d =
      (if f.role = decide (e.cfg 0x7100 2 = 1) ∨ wfld (wat f.payload 4) 63 32 ≠ e.cfg 0x7000 1 ∨ wfld (wat f.payload 4) 31 0 ≠ e.cfg 0x5000 1 then
        (e.checkFails 0x0C05).demand srcConfig 3 0x0C05
      else if packN [(64, (wat f.payload 0).toNat), (64, (wat f.payload 1).toNat), (64, (wat f.payload 2).toNat), (64, (wat f.payload 3).toNat)] ≠
          e.sec.partner.toNat ∨
        packN [(64, (wat f.payload 0).toNat), (64, (wat f.payload 1).toNat), (64, (wat f.payload 2).toNat), (64, (wat f.payload 3).toNat)] = 0 then
        e.checkFails 0x1108
      else if wbit (wat f.payload 7) 0 then e.meeting.discovered else e.meeting) := by
  unfold identity
  rw [huse]
  dsimp only
  rw [if_pos (by rw [hpaired]; rfl)]
  rfl

/-- A missing partner frame counts one discrepant cycle; too many of them stop the device until a reset. -/
theorem Dev.mismatch_counts {d : Dev} (hup : d.up = true) (hinv : d.Inv) :
    d.mismatch.twin.discrepant = d.twin.discrepant + 1 ∧
      (d.cfg 0x7100 4 ≤ d.twin.discrepant + 1 → kget 0 d.hull.demands srcMismatch = 0 →
        d.mismatch.Stopped ∧ d.mismatch.hull.needReset = true ∧ d.mismatch.Reports 0x0C03 0) := by
  have hset : d.discrepant.needsReset.Inv := hinv
  have hrec : ((d.discrepant.needsReset.raise 0x0C03 0 0).recEvent 0x0C03).Inv :=
    ((Dev.recEvent_frame _ _).inv (by decide)).2 (((Dev.raise_frame _ _ _ _).inv (by decide)).2 hset)
  rw [Dev.mismatch_eq]
  by_cases hmany : d.cfg 0x7100 4 ≤ d.twin.discrepant + 1 ∧ kget 0 d.hull.demands srcMismatch = 0
  · have hunsent := Dev.demand_unsent ((d.discrepant.needsReset.raise 0x0C03 0 0).recEvent 0x0C03) srcMismatch 3 0x0C03
    rw [(Dev.recEvent_frame _ _).twin (by decide), Dev.raise_twin] at hunsent
    obtain ⟨-, -, -, -, -, hcount⟩ := Twin.fields_of_unsent hunsent
    rw [if_pos hmany]
    refine ⟨hcount, fun _ _ => ⟨Dev.demand_stopped hrec _ _, ?_, ?_⟩⟩
    · rw [Dev.demand_needReset, (Dev.recEvent_frame _ _).hull (by decide), Dev.raise_hull]
      rfl
    · exact (Dev.demand_reports _ _ _ _ _ _).2 ((Dev.recEvent_reports _ _ _ _).2 (Dev.raise_reports (by exact hup) _ _ _))
  · rw [if_neg hmany]
    exact ⟨rfl, fun h k => absurd ⟨h, k⟩ hmany⟩

theorem Dev.checkFails_stops {d : Dev} (hup : d.up = true) (hinv : d.Inv) :
    ((d.checkFails 0x0C05).demand srcConfig 3 0x0C05).paired = false ∧ ((d.checkFails 0x0C05).demand srcConfig 3 0x0C05).Stopped ∧
      ((d.checkFails 0x0C05).demand srcConfig 3 0x0C05).Reports 0x0C05 0 := by
  have hset : d.checkFailing.Inv := hinv
  have hunsent := Dev.demand_unsent (d.checkFails 0x0C05) srcConfig 3 0x0C05
  rw [Dev.checkFails_eq] at hunsent ⊢
  rw [Dev.raise_twin] at hunsent
  obtain ⟨hpartner, -⟩ := Twin.fields_of_unsent hunsent
  refine ⟨?_, Dev.demand_stopped (((Dev.raise_frame _ _ _ _).inv (by decide)).2 hset) _ _, ?_⟩
  · rw [Dev.paired, hpartner]
    rfl
  · exact (Dev.demand_reports _ _ _ _ _ _).2 (Dev.raise_reports (by exact hup) _ _ _)

/-- Discovery pairs the devices and takes the demands of a lone device back. -/
theorem Dev.discovered_pairs (d : Dev) :
    (d.meeting.discovered).twin.seen = true ∧
      (d.meeting.discovered).paired = true ∧
      kget 0 (d.meeting.discovered).hull.demands srcConfig = 0 ∧
      (d.inRun = false → kget 0 (d.meeting.discovered).hull.demands srcLinkLoss = 0) := by
  have hfirst := Dev.demand_unsent d.joined srcConfig 0 0x0C05
  have hsecond := Dev.demand_unsent (d.joined.demand srcConfig 0 0x0C05) srcLinkLoss 0 0x0C02
  rw [hfirst] at hsecond
  obtain ⟨hp, -, hs, -⟩ := Twin.fields_of_unsent hfirst
  obtain ⟨hp', -, hs', -⟩ := Twin.fields_of_unsent hsecond
  have hrun : (d.joined.demand srcConfig 0 0x0C05).inRun = d.inRun := by
    rw [Dev.inRun, Dev.demand_power]
    rfl
  rw [Dev.discovered_eq, hrun]
  by_cases h : d.inRun = true
  · rw [if_pos h, Dev.paired, hp, hs, Dev.demand_demands, kget_kset_same]
    exact ⟨rfl, rfl, rfl, fun k => absurd (h.symm.trans k) Bool.true_eq_false.mp⟩
  · rw [if_neg h, Dev.paired, hp', hs', Dev.demand_demands, Dev.demand_demands, kget_kset_same, kget_kset, if_neg (by decide), kget_kset_same]
    exact ⟨rfl, rfl, rfl, fun _ => rfl⟩

/-- Settles O32. -/
theorem twinPair : Obligations.TwinPair := by
  refine ⟨fun s f hf hpaired => ⟨_, rfl, ?_⟩, fun s f x hf hpaired hown hbad htol hnone => ⟨_, rfl, ?_⟩,
    fun s c x hup hinv hpaired hown hfresh hkept hdue => ⟨_, rfl, ?_⟩, fun s f hf hpaired hinv hwrong => ⟨_, rfl, ?_⟩,
    fun s f hf hpaired hrole hconf hper hnz hfp => ⟨_, rfl, ?_⟩⟩
  · obtain ⟨b, huse⟩ := Dev.useFrame_eq hf
    have hpaired' : ((s.dev.taking f).raiseIf b 0x0C07 0 0).paired = true := by
      rw [Dev.paired, Dev.raiseIf_twin]
      exact hpaired
    obtain ⟨hdemand, htier⟩ := decision_used huse hpaired'
    refine ⟨hdemand.trans ?_, Nat.le_trans (Dev.demand_reaches _ _ ?_ _) htier, Nat.le_trans (Nat.le_trans ?_ (Dev.tier_le_demand _ _ _ _)) htier⟩
    · rw [Dev.demand_demands, kget_kset_same]
    · exact Nat.le_of_lt_succ (Nat.mod_lt _ (by decide : 0 < 4))
    · rw [Dev.raiseIf_hull]
      exact Nat.le_refl _
  · obtain ⟨b, huse⟩ := Dev.useFrame_eq hf
    have hcfg : ∀ i j, ((s.dev.taking f).raiseIf b 0x0C07 0 0).cfg i j = s.dev.cfg i j := fun i j => Dev.raiseIf_cfg _ _ _ _ _ _ _
    have htwin : ((s.dev.taking f).raiseIf b 0x0C07 0 0).twin = (s.dev.taking f).twin := Dev.raiseIf_twin _ _ _ _ _
    have hpaired' : ((s.dev.taking f).raiseIf b 0x0C07 0 0).paired = true := by
      rw [Dev.paired, htwin]
      exact hpaired
    have hown' : ((s.dev.taking f).raiseIf b 0x0C07 0 0).twin.own.find?
        (fun x => ((s.dev.taking f).raiseIf b 0x0C07 0 0).pairsWith (wat f.payload 0).toInt x && !x.discarded) = some x := by
      simp only [Dev.pairsWith, Dev.period, hcfg, htwin]
      exact hown
    rw [values_paired huse hpaired' hown', Dev.valuesAgree_of_cfg hcfg, hbad,
      Dev.tolerance_exceeded (by rw [hcfg, htwin]; exact htol) (by rw [Dev.raiseIf_hull]; exact hnone)]
    generalize he : (s.dev.taking f).raiseIf b 0x0C07 0 0 = e at *
    have hup : e.intolerant.up = true := by
      show e.up = true
      rw [← he, Dev.raiseIf_up]
      exact Dev.up_of_pairEnabled hf.1
    have hunsent := Dev.demand_unsent ((e.intolerant.raise 0x0C04 0 0).recEvent 0x0C04) srcTolerance (e.cfg 0x7100 8) 0x0C04
    rw [(Dev.recEvent_frame _ _).twin (by decide), Dev.raise_twin] at hunsent
    obtain ⟨-, -, -, hbad, hgood, -⟩ := Twin.fields_of_unsent hunsent
    refine ⟨hbad.trans ?_, hgood, ?_, ?_⟩
    · show e.twin.tolBad + 1 = _
      rw [htwin]
      rfl
    · exact (Dev.demand_reports _ _ _ _ _ _).2 ((Dev.recEvent_reports _ _ _ _).2 (Dev.raise_reports hup _ _ _))
    · rw [Dev.demand_demands, kget_kset_same, hcfg]
  · beta_reduce
    rw [crossCheckWindowExpiry_missing hown hpaired hfresh hkept hdue]
    exact Dev.mismatch_counts (d := s.dev.markCompared (fun y => y.cycle == c.toNat)) hup hinv
  · obtain ⟨b, huse⟩ := Dev.useFrame_eq hf
    have hcfg : ∀ i j, ((s.dev.taking f).raiseIf b 0x0C07 0 0).cfg i j = s.dev.cfg i j := fun i j => Dev.raiseIf_cfg _ _ _ _ _ _ _
    have hpaired' : ((s.dev.taking f).raiseIf b 0x0C07 0 0).paired = false := by
      rw [Dev.paired, Dev.raiseIf_twin]
      exact hpaired
    have htaken : (s.dev.taking f).Inv := hinv
    have hup : ((s.dev.taking f).raiseIf b 0x0C07 0 0).up = true := by
      rw [Dev.raiseIf_up]
      exact Dev.up_of_pairEnabled hf.1
    rw [identity_eq huse hpaired', hcfg, hcfg, hcfg, if_pos hwrong]
    exact Dev.checkFails_stops hup (Dev.raiseIf_inv htaken _ _ _ _)
  · obtain ⟨b, huse⟩ := Dev.useFrame_eq hf
    have hcfg : ∀ i j, ((s.dev.taking f).raiseIf b 0x0C07 0 0).cfg i j = s.dev.cfg i j := fun i j => Dev.raiseIf_cfg _ _ _ _ _ _ _
    have hpaired' : ((s.dev.taking f).raiseIf b 0x0C07 0 0).paired = false := by
      rw [Dev.paired, Dev.raiseIf_twin]
      exact hpaired
    have hrun : ((s.dev.taking f).raiseIf b 0x0C07 0 0).inRun = s.dev.inRun := Dev.raiseIf_inRun _ _ _ _ _
    have hsec : ((s.dev.taking f).raiseIf b 0x0C07 0 0).sec = s.dev.sec := Dev.raiseIf_sec _ _ _ _ _
    rw [identity_eq huse hpaired', hcfg, hcfg, hcfg, if_neg (by simp [hrole, hconf, hper]), hsec, hfp, if_neg (by simp [hnz])]
    by_cases hflag : wbit (wat f.payload 7) 0 = true
    · rw [if_pos hflag, hflag]
      obtain ⟨hseen, hpair, hconfig, hloss⟩ := Dev.discovered_pairs ((s.dev.taking f).raiseIf b 0x0C07 0 0)
      exact ⟨hseen, hpair, fun _ => ⟨hconfig, fun h => hloss (hrun.trans h)⟩⟩
    · rw [if_neg hflag, Bool.eq_false_iff.2 hflag]
      exact ⟨rfl, hpaired', fun h => absurd h Bool.false_ne_true⟩

end Sys2Proof.Machine

/-! PROOF. The gate of every host request (R395, R398 to R401, R406, R470). -/

namespace Sys2Proof.Machine
open Sys2Proof

theorem Dev.count_counter (d : Dev) (idx sub : Nat) : (d.count idx sub).counter idx sub = satU 64 (d.counter idx sub + 1) := by
  unfold Dev.counter Dev.count
  rw [Dev.countN_dict, kget_kmod_same]

/-! ## The filters of a datagram -/

theorem Dev.datagram_filtered {d : Dev} {port : ReqPort} {addr : BitVec 128} {f : HostFrame} (hup : d.up = true)
    (htaken : d.datagramTaken port addr = true) (hport : port ≠ .spi) (g : Dev → Dev) :
    (d.hostFilter (portNo port) (mappedV4 addr) f = 2 → d.datagram port addr f g = d) ∧
      (d.hostFilter (portNo port) (mappedV4 addr) f = 1 → d.datagram port addr f g = d.count (0x1011 + portNo port) 0x0C) := by
  have hgate : d.datagram port addr f g = d.hostReceive (portNo port) (mappedV4 addr) f g := by
    unfold Dev.datagram
    rw [if_neg (by simp [hup, htaken]), if_neg hport]
  rw [hgate]
  unfold Dev.hostReceive
  exact ⟨fun h => by simp only [h], fun h => by simp only [h]⟩

/-- R399: of the frames that are whole, those of another VLAN are dropped uncounted, and no others. -/
theorem Dev.hostFilter_dropped {f : HostFrame} (hfcs : f.fcsOk = true) (hlen : f.bytes ≤ 1522) (d : Dev) (port : Nat) (v4 : Bool) :
    d.hostFilter port v4 f = 2 ↔ (match f.tci with
      | some t => t.toNat % 4096 ≠ d.cfg (0x1011 + port) 7
      | none => d.cfg (0x1011 + port) 7 ≠ 0) := by
  have hwhole : ¬ (f.fcsOk = false ∨ 1522 < f.bytes) := by
    rw [hfcs]
    simp only [Bool.true_eq_false, false_or]
    exact Nat.not_lt.2 hlen
  have hfilter (own : Bool) (q : Prop) [Decidable q] : (if own = false then 2 else if q then 1 else 0) = 2 ↔ own = false := by
    cases own <;> by_cases hq : q <;> simp [hq]
  unfold Dev.hostFilter
  dsimp only
  rw [if_neg hwhole, hfilter]
  cases f.tci with
  | none => exact decide_eq_false_iff_not
  | some t =>
    have hfld : fld t.toNat 11 0 = t.toNat % 4096 := by simp [fld]
    dsimp only
    rw [hfld]
    exact decide_eq_false_iff_not

/-! ## Requests that are taken but not run -/

section
variable {d : Dev} {r : Req} {op idx sub : Nat} {part : Bool} {off : Nat} {payload : List Byte} {f : Nat → Dev → Dev × Option Reply}

theorem Dev.serve_unframed (h : d.Takes r.port r.addr r.frame) (hframed : framed r = false) :
    d.serve r op idx sub part off payload f =
      (if r.port = .spi then d else d.count (0x1011 + portNo r.port) 0x0C).raise 0x0D01 (portNo r.port) 0 := by
  unfold Dev.serve
  rw [Dev.datagram_of_takes h, if_pos hframed]

theorem Dev.serve_unlisted (h : d.Takes r.port r.addr r.frame) (hframed : framed r = true) (hboot : d.start.bootRom = false)
    (hrights : d.rightsOf r.port r.addr = none) : d.serve r op idx sub part off payload f = d.raise 0x0D02 (portNo r.port) 0 := by
  unfold Dev.serve
  rw [Dev.datagram_of_takes h]
  simp only [hframed, hboot, hrights, Bool.false_eq_true, Bool.true_eq_false, if_false]

theorem Dev.serve_repeated {k : Kept} (h : d.Takes r.port r.addr r.frame) (hframed : framed r = true) (hboot : d.start.bootRom = false)
    (hrights : (d.rightsOf r.port r.addr).isSome = true) (hrepeat : d.repeatOf r ([op, idx, sub, b2n part, off] ++ byteNats payload) = some k) :
    d.serve r op idx sub part off payload f = d.reply r k.response := by
  obtain ⟨rt, hrt⟩ := Option.isSome_iff_exists.1 hrights
  unfold Dev.serve
  rw [Dev.datagram_of_takes h]
  simp only [hframed, hboot, hrt, hrepeat, Bool.false_eq_true, Bool.true_eq_false, if_false]

/-- R470: the boot ROM runs nothing but its own reads. -/
theorem Dev.serve_bootRom (h : d.Takes r.port r.addr r.frame) (hframed : framed r = true) (hboot : d.start.bootRom = true)
    (hrepeat : d.repeatOf r ([op, idx, sub, b2n part, off] ++ byteNats payload) = none)
    (hheld : d.heldOf r ([op, idx, sub, b2n part, off] ++ byteNats payload) = none) (hop : op ≠ 1) :
    d.serve r op idx sub part off payload f =
      d.answer r op idx sub ([op, idx, sub, b2n part, off] ++ byteNats payload) (responseBytes r op idx sub part off (.refuse 3)) d.recd.jseq := by
  unfold Dev.serve
  rw [Dev.datagram_of_takes h]
  simp only [hframed, hboot, hrepeat, hheld, hop, false_and, Bool.true_eq_false, if_true, if_false]

end

/-- A write that is not carried out resets nothing, whatever object it names. -/
theorem writeRequest_untaken {d : Dev} {r : Req} {idx sub : Nat} {part : Bool} {payload : List Byte}
    (h : ¬ d.takesWrite r 0x2000 5 part payload = true ∨ ¬ (idx = 0x2000 ∧ sub = 5)) :
    ∃ own, writeRequest r idx sub part payload d = d.writeWith r idx sub part payload own := by
  unfold writeRequest
  by_cases hreset : idx = 0x2000 ∧ sub = 5
  · obtain ⟨rfl, rfl⟩ := hreset
    rw [if_pos ⟨rfl, rfl⟩]
    exact ⟨_, if_neg (h.resolve_right (not_not.2 ⟨rfl, rfl⟩))⟩
  · exact ⟨_, if_neg hreset⟩

/-- Settles O33. -/
theorem serviceGate : Obligations.ServiceGate := by
  refine ⟨fun s r idx sub part off h hframed hport => ⟨_, rfl, ?_⟩, fun s r idx sub part off h hframed hboot hrights => ⟨_, rfl, ?_⟩,
    fun s r idx sub part payload k h hframed hboot hrights hrepeat => ⟨_, rfl, ?_⟩,
    fun s r idx sub part payload h hframed hboot hrepeat hheld => ⟨_, rfl, ?_⟩,
    fun s r idx sub part off hport hup htaken => ⟨fun h => ⟨_, rfl, ?_⟩, fun h => ⟨_, rfl, ?_⟩⟩,
    fun d port v4 f hfcs hlen => Dev.hostFilter_dropped hfcs hlen d port v4⟩
  · beta_reduce
    rw [readRequest, Dev.serve_unframed h hframed, if_neg hport]
    have hup : (s.dev.count (0x1011 + portNo r.port) 0x0C).up = true := h.1
    have hout : (s.dev.count (0x1011 + portNo r.port) 0x0C).out = s.dev.out := Dev.count_out _ _ _
    refine ⟨Dev.raise_reports hup _ _ _, by rw [Dev.raise_out, hout], ?_⟩
    rw [Dev.raise_counter, Dev.count_counter]
  · beta_reduce
    rw [readRequest, Dev.serve_unlisted h hframed hboot hrights]
    exact ⟨Dev.raise_reports h.1 _ _ _, Dev.raise_out _ _ _ _, Dev.raise_palca _ _ _ _⟩
  · beta_reduce
    have hreset : ¬ (idx.toNat = 0x2000 ∧ sub.toNat = 5) ∨ ¬ s.dev.takesWrite r 0x2000 5 part payload = true := by
      by_cases hi : idx.toNat = 0x2000 ∧ sub.toNat = 5
      · obtain ⟨h1, h2⟩ := hi
        rw [h1, h2] at hrepeat
        exact .inr (by
          simp only [Dev.takesWrite, hrepeat, Option.isNone_some, Bool.and_false, Bool.false_and, Bool.false_eq_true, not_false_eq_true])
      · exact .inl hi
    obtain ⟨own, hown⟩ := writeRequest_untaken hreset.symm
    rw [hown, Dev.writeWith, Dev.serve_repeated h hframed hboot hrights hrepeat]
    exact ⟨Dev.reply_answered _ _ _, Dev.reply_frame _ _ _⟩
  · beta_reduce
    obtain ⟨own, hown⟩ := writeRequest_untaken (idx := idx.toNat) (sub := sub.toNat)
      (.inl (by simp [Dev.takesWrite, hboot]) : ¬ s.dev.takesWrite r 0x2000 5 part payload = true ∨ _)
    rw [hown, Dev.writeWith, Dev.serve_bootRom h hframed hboot hrepeat hheld (by decide)]
    exact ⟨Dev.answer_answered _ _ _ _ _ _ _, Dev.answer_frame _ _ _ _ _ _ _ _⟩
  · exact (Dev.datagram_filtered hup htaken hport _).1 h
  · beta_reduce
    rw [readRequest, Dev.serve, (Dev.datagram_filtered hup htaken hport _).2 h]
    exact ⟨Dev.count_frame _ _ _, Dev.count_counter _ _ _⟩

end Sys2Proof.Machine

/-! PROOF. What a journal entry and the service of the LUNs leave of the recorder (R485, R495 to R497). -/

namespace Sys2Proof.Machine
open Sys2Proof

/-- A journal entry but for the places of its copies. -/
def JEntry.unplaced (e : JEntry) : JEntry := { e with a := none, b := none }

theorem JEntry.put_unplaced (e : JEntry) (copy : Nat) (p : Option (Nat × Nat)) : (e.put copy p).unplaced = e.unplaced := by
  unfold JEntry.put
  split <;> rfl

/-- The recorder but for where its data lies and what its LUNs still have to do. -/
def Recorder.logical (r : Recorder) : Recorder :=
  { r with
    blocks := [], pages := [], heads := [], work := [], running := [], wseq := 0
    store := r.store.map JEntry.unplaced
    control := r.control.map JEntry.unplaced }

theorem Recorder.fields_of_logical {a b : Recorder} (h : a.logical = b.logical) :
    a.jseq = b.jseq ∧ a.refresh = b.refresh ∧ a.segment = b.segment ∧ a.staged = b.staged ∧ a.sealing = b.sealing ∧
      a.control.map JEntry.unplaced = b.control.map JEntry.unplaced ∧ a.store.map JEntry.unplaced = b.store.map JEntry.unplaced :=
  ⟨(congrArg Recorder.jseq h :), (congrArg Recorder.refresh h :), (congrArg Recorder.segment h :), (congrArg Recorder.staged h :),
    (congrArg Recorder.sealing h :), (congrArg Recorder.control h :), (congrArg Recorder.store h :)⟩

theorem Dev.setHead_logical (d : Dev) (a : NandArea) (copy : Nat) (h : NandHead) : (d.setHead a copy h).recd.logical = d.recd.logical := rfl

theorem Dev.enqueueWork_logical (d : Dev) (w : NandWork) : (d.enqueueWork w).recd.logical = d.recd.logical := rfl

theorem Dev.eraseLater_logical (d : Dev) (cls : Nat) (a : NandArea) (copy : Fin 2) (b : Nat) :
    (d.eraseLater cls a copy b).recd.logical = d.recd.logical := rfl

theorem Dev.programPage_logical (d : Dev) (p : NandPlace) (pos : Nat) : (d.programPage p pos).recd.logical = d.recd.logical := rfl

theorem Dev.modJournal_logical (d : Dev) (a : NandArea) {f : List JEntry → List JEntry}
    (hf : ∀ l, (f l).map JEntry.unplaced = l.map JEntry.unplaced) : (d.modJournal a f).recd.logical = d.recd.logical := by
  unfold Dev.modJournal
  by_cases h : a = .control <;> simp [Dev.modRec, Recorder.logical, h, hf]

theorem Dev.programPages_logical (d : Dev) (p : Nat → NandPlace) (l : List Nat) :
    (l.foldl (fun (d : Dev) i => d.programPage (p i) 0) d).recd.logical = d.recd.logical :=
  foldl_keeps (g := fun e : Dev => e.recd.logical) (fun e i => e.programPage_logical (p i) 0) _ _

/-- A journal whose entries only change their places. -/
theorem map_unplaced {f : JEntry → JEntry} (hf : ∀ e, (f e).unplaced = e.unplaced) (l : List JEntry) :
    (l.map f).map JEntry.unplaced = l.map JEntry.unplaced := by
  rw [List.map_map]
  exact List.map_congr_left (fun e _ => hf e)

theorem Dev.snapshot_logical (d : Dev) (a : NandArea) (copy : Fin 2) (n : Nat) : (d.snapshot a copy n).recd.logical = d.recd.logical := by
  have hplaces : ∀ (seqs : List Nat) (o : Option Nat) (e : JEntry), (if seqs.contains e.seq then e.put copy (some (n, seqs.idxOf e.seq))
      else match e.place copy with
        | some p => if o = some p.1 then e.put copy none else e
        | none => e).unplaced = e.unplaced := by
    intro seqs o e
    split
    · exact JEntry.put_unplaced _ _ _
    · split
      · split
        · exact JEntry.put_unplaced _ _ _
        · rfl
      · rfl
  unfold Dev.snapshot
  dsimp only
  split
  · rw [Dev.eraseLater_logical, Dev.setHead_logical]
    exact (Dev.modJournal_logical _ _ (map_unplaced fun e => hplaces _ _ e)).trans (Dev.programPages_logical _ _ _)
  · rw [Dev.setHead_logical]
    exact (Dev.modJournal_logical _ _ (map_unplaced fun e => hplaces _ _ e)).trans (Dev.programPages_logical _ _ _)

theorem Dev.openPage_logical (d : Dev) (a : NandArea) (copy : Fin 2) : (d.openPage a copy).1.recd.logical = d.recd.logical := by
  unfold Dev.openPage
  dsimp only
  split
  · exact Dev.setHead_logical _ _ _ _
  · split
    · split
      · exact (Dev.setHead_logical _ _ _ _).trans (d.snapshot_logical a copy _)
      · exact (Dev.setHead_logical _ _ _ _).trans (Dev.setHead_logical _ _ _ _)
    · split
      · exact (Dev.setHead_logical _ _ _ _).trans ((Dev.setHead_logical _ _ _ _).trans (Dev.eraseLater_logical _ _ _ _ _))
      · exact Dev.setHead_logical _ _ _ _

theorem Dev.programLater_logical (d : Dev) (cls : Nat) (a : NandArea) (copy : Fin 2) (ticket bytes : Nat) :
    (d.programLater cls a copy ticket bytes).recd.logical = d.recd.logical := by
  unfold Dev.programLater
  exact (Dev.enqueueWork_logical _ _).trans (d.openPage_logical a copy)

theorem Dev.fillRing_logical (d : Dev) : d.fillRing.recd.logical = d.recd.logical := by
  unfold Dev.fillRing
  exact ite_both (P := fun e : Dev => e.recd.logical = d.recd.logical) rfl
    (ite_both (P := fun e : Dev => e.recd.logical = d.recd.logical) (Dev.programLater_logical _ _ _ _ _ _) rfl)

theorem Dev.startLun_logical (d : Dev) (lun : Nat) : (d.startLun lun).recd.logical = d.recd.logical := by
  unfold Dev.startLun
  split <;> rfl

theorem Dev.serveNand_logical (d : Dev) : d.serveNand.recd.logical = d.recd.logical := by
  unfold Dev.serveNand
  exact (foldl_keeps (g := fun e : Dev => e.recd.logical) Dev.startLun_logical _ _).trans d.fillRing_logical

/-- A recorder with one journal entry more. -/
def Recorder.entered (r : Recorder) (a : NandArea) (e : JEntry) : Recorder :=
  if a = .control then { r with jseq := e.seq, control := e :: r.control } else { r with jseq := e.seq, store := e :: r.store }

/-- The journal entry of a value, not yet placed. -/
def newEntry (key : Nat) (value : List Nat) (seq : Nat) : JEntry :=
  { key := key, value := value, seq := seq, crc := entryCrc key value seq, a := none, b := none }

theorem Dev.enter_logical (d : Dev) (a : NandArea) (key : Nat) (value : List Nat) (seq : Nat) :
    ((d.modRec (fun r => { r with jseq := seq })).modJournal a (fun l => newEntry key value seq :: l)).recd.logical =
      d.recd.logical.entered a (newEntry key value seq) := by
  unfold Dev.modJournal Recorder.entered
  by_cases h : a = .control
  · rw [if_pos h]
    simp only [Dev.modRec, h, if_true]
    rfl
  · rw [if_neg h]
    simp only [Dev.modRec, h, if_false]
    rfl

theorem Dev.journal_eq (d : Dev) (a : NandArea) (key : Nat) (value : List Nat) :
    d.journal a key value = ((((d.serveNand.modRec (fun r => { r with jseq := (d.serveNand.recd.jseq + 1) % 2 ^ 32 })).modJournal a
      (fun l => newEntry key value ((d.serveNand.recd.jseq + 1) % 2 ^ 32) :: l)).programLater 1 a 0 ((d.serveNand.recd.jseq + 1) % 2 ^ 32) 0)).serveNand :=
  rfl

/-- R497: a journal entry is the newest of its journal, under the next sequence number. -/
theorem Dev.journal_logical (d : Dev) (a : NandArea) (key : Nat) (value : List Nat) :
    (d.journal a key value).recd.logical = d.recd.logical.entered a (newEntry key value ((d.recd.jseq + 1) % 2 ^ 32)) := by
  have hjseq : d.serveNand.recd.jseq = d.recd.jseq := (Recorder.fields_of_logical d.serveNand_logical).1
  rw [Dev.journal_eq, Dev.serveNand_logical, Dev.programLater_logical, hjseq, ← d.serveNand_logical, Dev.enter_logical]

theorem Recorder.entered_jseq (r : Recorder) (a : NandArea) (e : JEntry) : (r.entered a e).jseq = e.seq := by
  unfold Recorder.entered
  split <;> rfl

theorem Dev.journal_jseq (d : Dev) (a : NandArea) (key : Nat) (value : List Nat) :
    (d.journal a key value).recd.jseq = (d.recd.jseq + 1) % 2 ^ 32 := by
  have h : (d.journal a key value).recd.jseq = _ := (congrArg Recorder.jseq (d.journal_logical a key value) :)
  rw [h, Recorder.entered_jseq]
  unfold newEntry
  rfl

/-- A new journal entry has another sequence number than the newest one before it. -/
theorem succ_jseq_ne (n : Nat) : (n + 1) % 2 ^ 32 ≠ n := by
  intro h
  have hlt : (n + 1) % 2 ^ 32 < 2 ^ 32 := Nat.mod_lt _ (Nat.two_pow_pos _)
  omega

end Sys2Proof.Machine

/-! PROOF. READ, WRITE and the configuration lock (R354, R402 to R405, R408). -/

namespace Sys2Proof.Machine
open Sys2Proof

/-! ## What a served write does -/

/-- The object is kept in the persisted store (R405). -/
def rwpObj (code idx sub : Nat) : Bool := match objRow code idx sub with | some x => decide (x.acc = .rwp) | none => false

theorem Dev.answer_now {d : Dev} {r : Req} {op idx sub : Nat} {content bytes : List Nat} {before : Nat}
    (h : rwpObj d.code idx sub = false ∨ d.recd.jseq = before) :
    d.answer r op idx sub content bytes before = (d.reply r bytes).keepResponse r content bytes := by
  refine if_neg ?_
  rintro ⟨-, hrwp, hseq⟩
  rcases h with h | h
  · exact Bool.false_ne_true (h.symm.trans hrwp)
  · exact hseq h

theorem Dev.answer_waits {d : Dev} {r : Req} {idx sub : Nat} {content bytes : List Nat} {before : Nat} (hrwp : rwpObj d.code idx sub = true)
    (hseq : d.recd.jseq ≠ before) :
    d.answer r 2 idx sub content bytes before = { d with palca := { d.palca with
      held := d.palca.held ++ [{ req := r, content := content, bytes := bytes, ticket := d.recd.jseq }] } } :=
  if_pos ⟨rfl, hrwp, hseq⟩

section
variable {d e : Dev} {r : Req} {idx sub rt : Nat} {part stays : Bool} {payload : List Byte} {x : Reply} {own : List Nat → Dev → Dev × Reply}

/-- A served write that a check of R404 refuses changes no object. -/
theorem Dev.writeWith_refused (h : d.Serves r 2 idx sub part 0 payload rt) (hev : isEv d.code idx sub = false)
    (hcheck : d.checkWrite r.port rt idx sub payload = some x) :
    (d.writeWith r idx sub part payload own stays).Answered r (responseBytes r 2 idx sub part 0 x) ∧
      Dev.Frame [.palca, .out] d (d.writeWith r idx sub part payload own stays) := by
  unfold Dev.writeWith
  exact Dev.serve_of_unchanged h (by simp only [hev, hcheck, Bool.false_eq_true, if_false])

/-- A served write that passes the checks of R404 does what its own rule says. -/
theorem Dev.writeWith_own (h : d.Serves r 2 idx sub part 0 payload rt) (hev : isEv d.code idx sub = false)
    (hcheck : d.checkWrite r.port rt idx sub payload = none) (hown : own (wireValue d.code idx sub payload) d = (e, x)) :
    d.writeWith r idx sub part payload own stays =
      e.answer r 2 idx sub (contentOf 2 idx sub part 0 payload) (responseBytes r 2 idx sub part 0 x) d.recd.jseq := by
  unfold Dev.writeWith
  exact Dev.serve_of_serves h (by simp only [hev, hcheck, hown, Bool.false_eq_true, if_false])

/-- The response to an object that is not persisted goes at once. -/
theorem Dev.writeWith_answered (h : d.Serves r 2 idx sub part 0 payload rt) (hev : isEv d.code idx sub = false)
    (hcheck : d.checkWrite r.port rt idx sub payload = none) (hown : own (wireValue d.code idx sub payload) d = (e, x))
    (hnow : rwpObj e.code idx sub = false ∨ e.recd.jseq = d.recd.jseq) :
    (d.writeWith r idx sub part payload own stays).Answered r (responseBytes r 2 idx sub part 0 x) ∧
      Dev.Frame [.palca, .out] e (d.writeWith r idx sub part payload own stays) := by
  rw [Dev.writeWith_own h hev hcheck hown, Dev.answer_now hnow]
  exact ⟨Dev.keepResponse_answered (Dev.reply_answered _ _ _) _ _,
    ((Dev.reply_frame _ _ _).trans ((Dev.keepResponse_frame _ _ _ _).mono (by decide)))⟩

/-- The response to a persisted object waits for its journal entry. -/
theorem Dev.writeWith_awaits (h : d.Serves r 2 idx sub part 0 payload rt) (hev : isEv d.code idx sub = false)
    (hcheck : d.checkWrite r.port rt idx sub payload = none) (hown : own (wireValue d.code idx sub payload) d = (e, x))
    (hrwp : rwpObj e.code idx sub = true) (hseq : e.recd.jseq ≠ d.recd.jseq) :
    (d.writeWith r idx sub part payload own stays).Awaits r (contentOf 2 idx sub part 0 payload) (responseBytes r 2 idx sub part 0 x) ∧
      Dev.Frame [.palca] e (d.writeWith r idx sub part payload own stays) := by
  rw [Dev.writeWith_own h hev hcheck hown, Dev.answer_waits hrwp hseq]
  exact ⟨List.getLast?_concat, (Dev.frame_palca (by decide)).2 (Dev.Frame.refl _)⟩

end

/-! ## Values -/

theorem Dev.setObj_cfgList (d : Dev) (idx sub : Nat) {v : List Nat} (hv : v ≠ []) : (d.setObj idx sub v).cfgList idx sub = v := by
  unfold Dev.cfgList Dev.setObj
  dsimp only
  rw [kget_kset_same, if_neg hv]

theorem Dev.setObj_cfgList_other (d : Dev) {idx sub i j : Nat} (v : List Nat) (h : okey i j ≠ okey idx sub) :
    (d.setObj idx sub v).cfgList i j = d.cfgList i j := by
  unfold Dev.cfgList Dev.setObj
  dsimp only
  rw [kget_kset, if_neg h]

/-- Two devices of one code with the same values of every covered object have the same configuration bytes. -/
theorem Dev.coveredBytes_of_covered {a b : Dev} (hcode : b.code = a.code)
    (h : ∀ idx, ∀ r ∈ rowsSafety, r.ilo ≤ idx → ∀ sub, r.slo ≤ sub → sub ≤ r.shi → covered idx sub r = true → b.cfgList idx sub = a.cfgList idx sub) :
    b.coveredBytes = a.coveredBytes := by
  unfold Dev.coveredBytes
  dsimp only
  refine List.flatMap_congr (fun idx _ => List.flatMap_congr (fun r hr => List.flatMap_congr (fun sub hsub => ?_)))
  obtain ⟨hr, hin⟩ := List.mem_filter.1 hr
  rw [hcode]
  by_cases hc : r.slo ≤ sub ∧ covered idx sub r = true ∧ onCode a.code idx sub = true
  · rw [if_pos hc, if_pos hc, h idx r hr ?_ sub hc.1 ?_ hc.2.1]
    · simp only [Bool.and_eq_true, decide_eq_true_eq] at hin
      exact hin.1
    · exact Nat.le_of_lt_succ (List.mem_range.1 hsub)
  · rw [if_neg hc, if_neg hc]

theorem rowsSafety_sub : ∀ r ∈ rowsSafety, r.shi < 256 := by decide +kernel

/-- The CRC itself is not one of the objects it covers. -/
theorem rowsSafety_crc : ∀ r ∈ rowsSafety, r.ilo ≤ 0x7000 → r.slo ≤ 1 → 1 ≤ r.shi → covered 0x7000 1 r = false := by decide +kernel

/-- [7000.01] holds the CRC of the covered objects once it is recomputed, and no other object changes. -/
theorem Dev.recomputeCrc_cfg (d : Dev) : d.recomputeCrc.cfg 0x7000 1 = (crc32c d.recomputeCrc.coveredBytes).toNat := by
  have hsame : d.recomputeCrc.coveredBytes = d.coveredBytes := by
    refine Dev.coveredBytes_of_covered rfl (fun idx r hr hlo sub hslo hshi hc => ?_)
    refine Dev.setObj_cfgList_other _ _ (fun hkey => ?_)
    have hsub := rowsSafety_sub r hr
    obtain ⟨rfl, rfl⟩ : idx = 0x7000 ∧ sub = 1 := by
      unfold okey at hkey
      omega
    exact Bool.false_ne_true ((rowsSafety_crc r hr hlo hslo hshi).symm.trans hc)
  rw [hsame, Dev.cfg, Dev.recomputeCrc, Dev.setObj_cfgList _ _ _ (List.cons_ne_nil _ _)]
  rfl

/-! ## Zones -/

/-- The row of a zone's clearance bound. -/
def zoneRow : DRow := dn 0x7010 0x704F 4 4 2 .rwr 1 (.between 1 1024)

theorem rowOf_zone : ∀ z < 64, rowOf (0x7010 + z) 4 = some zoneRow := by decide +kernel

theorem objRow_zone {idx : Nat} (hlo : 0x7010 ≤ idx) (hhi : idx ≤ 0x704F) (code : Nat) : objRow code idx 4 = some zoneRow := by
  have hon : onCode code idx 4 = true := by
    unfold onCode
    repeat rw [if_neg (by omega)]
  have hrow := rowOf_zone (idx - 0x7010) (by omega)
  rw [Nat.add_sub_cancel' hlo] at hrow
  rw [objRow, if_pos hon, if_neg (by decide), hrow]

/-- The stored value of a zone's clearance bound, with the CRC recomputed. -/
def Dev.putZone (d : Dev) (idx : Nat) (v : List Nat) : Dev := (d.setObj idx 4 v).recomputeCrc

theorem covered_zone {idx : Nat} (hlo : 0x7010 ≤ idx) (hhi : idx ≤ 0x704F) : covered idx 4 zoneRow = true := by
  have hne : (idx == 0x7000) = false := by simpa using (by omega : idx ≠ 0x7000)
  have hin : coveredIdx idx = true := by
    unfold coveredIdx
    rw [decide_eq_true hlo, decide_eq_true hhi]
    simp
  unfold covered
  rw [hin, hne]
  rfl

theorem ownWrite_zone {idx : Nat} (hlo : 0x7010 ≤ idx) (hhi : idx ≤ 0x704F) (v : List Nat) (d : Dev) :
    ownWrite idx 4 v d = (d.putZone idx v, .good []) := by
  have hput : d.put idx 4 v = d.putZone idx v := by
    unfold Dev.put
    rw [objRow_zone hlo hhi]
    exact if_pos (covered_zone hlo hhi)
  have hwrote : (d.putZone idx v).wrote idx 4 = d.putZone idx v := by
    unfold Dev.wrote
    repeat rw [if_neg (by omega)]
  have hout : d.outOfRange idx 4 v = false := by
    unfold Dev.outOfRange
    dsimp only
    repeat rw [if_neg (by omega)]
  unfold ownWrite
  repeat rw [if_neg (by omega)]
  unfold writePlain
  rw [if_neg (by rw [hout]; decide), if_neg (by omega), if_neg (by omega), hput, hwrote]
  exact Prod.ext (if_neg (by omega)) rfl

theorem wireValue_zone {d : Dev} {idx rt : Nat} {port : ReqPort} {payload : List Byte} (hlo : 0x7010 ≤ idx) (hhi : idx ≤ 0x704F)
    (h : d.checkWrite port rt idx 4 payload = none) : wireValue d.code idx 4 payload = [beNat payload] := by
  obtain ⟨hlen, -⟩ := Dev.checkWrite_passed (objRow_zone hlo hhi d.code) h
  simp only [wireValue, objRow_zone hlo hhi]
  exact fromWire_one hlen

/-! ## The configuration lock -/

theorem objRow_lock (code : Nat) : objRow code 0x2001 1 = some (dn 0x2001 0x2001 1 1 1 .rwp 0 (.upTo 1)) := by
  have hon : onCode code 0x2001 1 = true := by simp [onCode]
  rw [objRow, if_pos hon]
  rfl

theorem isEv_lock (code : Nat) : isEv code 0x2001 1 = false := by
  unfold isEv
  rw [objRow_lock]
  rfl

theorem rwpObj_lock (code : Nat) : rwpObj code 0x2001 1 = true := by
  unfold rwpObj
  rw [objRow_lock]
  rfl

theorem Dev.checkWrite_lock {d : Dev} {port : ReqPort} {rt : Nat} (hrt : nbit rt 1 = true) (b : Byte) (hb : b = 0 ∨ b = 1) :
    d.checkWrite port rt 0x2001 1 [b] = if d.lockRefuses port 0x2001 1 [b] then some (.cause 0x0D03) else none := by
  unfold Dev.checkWrite
  rw [if_neg (by rw [hrt]; decide), objRow_lock]
  rcases hb with rfl | rfl <;> rfl

/-- The device with the configuration lock written. -/
def Dev.putLock (d : Dev) (v : List Nat) : Dev := (d.setObj 0x2001 1 v).persist (okey 0x2001 1) v

theorem ownWrite_lock (v : List Nat) (d : Dev) : ownWrite 0x2001 1 v d = (d.putLock v, .good []) := by
  have hput : d.put 0x2001 1 v = d.putLock v := by
    unfold Dev.put
    rw [objRow_lock]
    rfl
  have hplain : writePlain 0x2001 1 v d = ((d.put 0x2001 1 v).wrote 0x2001 1, .good []) := rfl
  have hown : ownWrite 0x2001 1 v d = writePlain 0x2001 1 v d := rfl
  rw [hown, hplain, hput]
  rfl

theorem Dev.putLock_locked (d : Dev) (n : Nat) : (d.putLock [n]).locked = decide (n = 1) := by
  have hcfg : (d.putLock [n]).cfg 0x2001 1 = n := by
    unfold Dev.putLock
    rw [Dev.Frame.cfg (Dev.persist_frame _ _ _) (by decide), Dev.cfg, Dev.setObj_cfgList _ _ _ (List.cons_ne_nil _ _)]
    rfl
  unfold Dev.locked
  rw [hcfg]

theorem Dev.putLock_jseq (d : Dev) (v : List Nat) : (d.putLock v).recd.jseq ≠ d.recd.jseq := by
  unfold Dev.putLock Dev.persist
  rw [Dev.journal_jseq]
  exact succ_jseq_ne d.recd.jseq

theorem Dev.locked_of_frame {l : List Part} {a b : Dev} (h : Dev.Frame l a b) (hs : Part.dict ∉ l ∧ Part.code ∉ l) : b.locked = a.locked := by
  unfold Dev.locked
  rw [h.cfg hs]

/-- The lock never refuses to be set. -/
theorem Dev.lockRefuses_set (d : Dev) (port : ReqPort) : d.lockRefuses port 0x2001 1 [1] = false := by
  unfold Dev.lockRefuses
  rw [if_neg (by decide), show lockExempt 0x2001 1 [1] = true from rfl, Bool.not_true, Bool.and_false]

theorem Dev.lockRefuses_clear (d : Dev) (port : ReqPort) :
    d.lockRefuses port 0x2001 1 [0] = !(decide (port = .spi) && (d.inReady || decide (d.power.state = .standby))) :=
  if_pos ⟨rfl, rfl, rfl⟩

/-- A write of the lock that it does not refuse is stored, and its response waits for the journal entry. -/
theorem configurationLock_taken {d : Dev} {r : Req} {rt : Nat} {b : Byte} (h : d.Serves r 2 0x2001 1 false 0 [b] rt) (hrt : nbit rt 1 = true)
    (hb : b = 0 ∨ b = 1) (hfree : d.lockRefuses r.port 0x2001 1 [b] = false) :
    (configurationLock r b d).Awaits r [2, 0x2001, 1, 0, 0, b.toNat] (responseBytes r 2 0x2001 1 false 0 (.good [])) ∧
      (configurationLock r b d).locked = decide (b.toNat = 1) := by
  have hcheck : d.checkWrite r.port rt 0x2001 1 [b] = none := by
    rw [Dev.checkWrite_lock hrt b hb, hfree]
    rfl
  have hvalue : wireValue d.code 0x2001 1 [b] = [b.toNat] := by
    simp only [wireValue, objRow_lock]
    rcases hb with rfl | rfl <;> rfl
  obtain ⟨hawaits, hframe⟩ := Dev.writeWith_awaits (stays := false) h (isEv_lock _) hcheck (ownWrite_lock _ d) (rwpObj_lock _) (d.putLock_jseq _)
  refine ⟨hawaits, ?_⟩
  rw [configurationLock, Dev.locked_of_frame hframe (by decide), hvalue, Dev.putLock_locked]

/-- Settles O34. -/
theorem readWrite : Obligations.ReadWrite := by
  refine ⟨fun s r idx sub part off rt h => ⟨_, rfl, readRequest_answered h, ?_⟩,
    fun s r idx sub part payload rt x h hev hcheck => ⟨_, rfl, ?_⟩, fun s r idx part payload hlo hhi ⟨rt, h, hev, hcheck⟩ => ⟨_, rfl, ?_⟩,
    fun s r rt h hrt => ⟨_, rfl, ?_⟩, fun s r rt h hrt hport => ⟨_, rfl, ?_⟩, fun s r rt h hrt hport hready => ⟨_, rfl, ?_⟩⟩
  · have hfree : Dev.Frame [.palca, .out, .free] s.dev
        (if (idx.toNat = 0x1011 ∨ idx.toNat = 0x1012) ∧ sub.toNat = 9 then s.dev.bumpFree else s.dev) :=
      ite_both (P := Dev.Frame [.palca, .out, .free] s.dev) ((Dev.bumpFree_frame _).mono (by decide)) (Dev.Frame.refl _)
    exact hfree.trans ((Dev.serve_of_recd_eq h rfl (by split <;> rfl)).2.mono (by decide))
  · beta_reduce
    have hkept : ¬ s.dev.takesWrite r 0x2000 5 part payload = true ∨ ¬ (idx.toNat = 0x2000 ∧ sub.toNat = 5) := by
      by_cases hi : idx.toNat = 0x2000 ∧ sub.toNat = 5
      · obtain ⟨h1, h2⟩ := hi
        rw [h1, h2] at hcheck
        obtain ⟨-, -, -, -, -, hrights⟩ := h
        exact .inl (by simp only [Dev.takesWrite, hrights, hcheck, Option.isNone_some, Bool.and_false, Bool.false_eq_true, not_false_eq_true])
      · exact .inr hi
    obtain ⟨own, hown⟩ := writeRequest_untaken hkept
    rw [hown]
    exact Dev.writeWith_refused h hev hcheck
  · beta_reduce
    rw [show (4 : Byte).toNat = 4 from rfl, show writeRequest r idx.toNat 4 part payload s.dev = _ from if_neg (by omega)]
    have hrow : rwpObj (s.dev.putZone idx.toNat (wireValue s.dev.code idx.toNat 4 payload)).code idx.toNat 4 = false := by
      unfold rwpObj
      rw [objRow_zone hlo hhi]
      rfl
    obtain ⟨hanswered, hframe⟩ := Dev.writeWith_answered (stays := false) h hev hcheck (ownWrite_zone hlo hhi _ s.dev) (.inl hrow)
    refine ⟨hanswered, ?_, ?_⟩
    · rw [hframe.cfgList (by decide), wireValue_zone hlo hhi hcheck]
      unfold Dev.putZone Dev.recomputeCrc
      rw [Dev.setObj_cfgList_other _ _ (by unfold okey; omega), Dev.setObj_cfgList _ _ _ (List.cons_ne_nil _ _)]
    · rw [hframe.cfg (by decide), Dev.coveredBytes_of_covered (hframe.code (by decide)) (fun i _ _ _ j _ _ _ => hframe.cfgList (by decide) i j)]
      exact Dev.recomputeCrc_cfg _
  · exact configurationLock_taken h hrt (.inr rfl) (s.dev.lockRefuses_set r.port)
  · have hcheck : s.dev.checkWrite r.port rt 0x2001 1 [0] = some (.cause 0x0D03) := by
      rw [Dev.checkWrite_lock hrt 0 (.inl rfl), Dev.lockRefuses_clear, decide_eq_false hport]
      rfl
    obtain ⟨hanswered, hframe⟩ := Dev.writeWith_refused (own := ownWrite 0x2001 1) (stays := false) h (isEv_lock _) hcheck
    exact ⟨hanswered, Dev.locked_of_frame hframe (by decide)⟩
  · refine configurationLock_taken h hrt (.inl rfl) ?_
    rw [Dev.lockRefuses_clear, decide_eq_true hport, hready]
    rfl

end Sys2Proof.Machine

/-! PROOF. Block transfers (R409, R410, R515). -/

namespace Sys2Proof.Machine
open Sys2Proof

/-! ## Replies and the host link -/

/-- The host link but for the responses it has sent or keeps to send. -/
def Palca.quiet (p : Palca) : Palca := { p with kept := [], waitingOut := [], spiQueue := [], spiOverflow := false }

theorem Palca.fields_of_quiet {a b : Palca} (h : a.quiet = b.quiet) :
    a.transfers = b.transfers ∧ a.subs = b.subs ∧ a.held = b.held ∧ a.inForce = b.inForce ∧ a.waiting = b.waiting ∧ a.up = b.up :=
  ⟨(congrArg Palca.transfers h :), (congrArg Palca.subs h :), (congrArg Palca.held h :), (congrArg Palca.inForce h :), (congrArg Palca.waiting h :),
    (congrArg Palca.up h :)⟩

theorem Dev.sendService_quiet (d : Dev) (k : OutKind) (port : Nat) (data : List Nat) : (d.sendService k port data).palca.quiet = d.palca.quiet := by
  unfold Dev.sendService
  exact ite_both (P := fun e : Dev => e.palca.quiet = d.palca.quiet) rfl rfl

theorem Dev.reply_quiet (d : Dev) (r : Req) (bytes : List Nat) : (d.reply r bytes).palca.quiet = d.palca.quiet := by
  unfold Dev.reply
  exact ite_both (P := fun e : Dev => e.palca.quiet = d.palca.quiet) (ite_both (P := fun e : Dev => e.palca.quiet = d.palca.quiet) rfl rfl)
    (Dev.sendService_quiet _ _ _ _)

section
variable {d e : Dev} {r : Req} {op idx sub off rt : Nat} {part : Bool} {payload : List Byte} {x : Reply} {f : Nat → Dev → Dev × Option Reply}

/-- A served request that is no write is answered at once, and what its service left of the host link stays. -/
theorem Dev.serve_answered (h : d.Serves r op idx sub part off payload rt) (hf : f rt d = (e, some x)) (hop : op ≠ 2) :
    (d.serve r op idx sub part off payload f).Answered r (responseBytes r op idx sub part off x) ∧
      (d.serve r op idx sub part off payload f).palca.quiet = e.palca.quiet ∧ Dev.Frame [.palca, .out] e (d.serve r op idx sub part off payload f) := by
  have hnow : e.answer r op idx sub (contentOf op idx sub part off payload) (responseBytes r op idx sub part off x) d.recd.jseq =
      (e.reply r (responseBytes r op idx sub part off x)).keepResponse r (contentOf op idx sub part off payload) (responseBytes r op idx sub part off x) :=
    if_neg (fun hw => hop hw.1)
  rw [Dev.serve_of_serves h hf, hnow]
  refine ⟨Dev.keepResponse_answered (Dev.reply_answered _ _ _) _ _, Dev.reply_quiet _ _ _, ?_⟩
  exact (Dev.reply_frame _ _ _).trans ((Dev.keepResponse_frame _ _ _ _).mono (by decide))

/-- A served request with no response of its own yet leaves what its service left. -/
theorem Dev.serve_silent (h : d.Serves r op idx sub part off payload rt) (hf : f rt d = (e, none)) : d.serve r op idx sub part off payload f = e := by
  obtain ⟨htakes, hframed, hboot, hrepeat, hheld, hrights⟩ := h
  unfold contentOf at hrepeat hheld
  unfold Dev.serve
  rw [Dev.datagram_of_takes htakes]
  simp only [hframed, hboot, hrepeat, hheld, hrights, hf, Bool.false_eq_true, Bool.true_eq_false, if_false]

end

/-! ## Transfers -/

/-- The first transfer of an object in a list. -/
def transferIn (idx sub : Nat) (l : List Transfer) : Option Transfer := l.find? (fun x => x.idx == idx && x.sub == sub)

theorem Dev.transferOf_eq (d : Dev) (idx sub : Nat) : d.transferOf idx sub = transferIn idx sub d.palca.transfers := rfl

theorem Dev.transferOf_of_quiet {a b : Dev} (h : b.palca.quiet = a.palca.quiet) (idx sub : Nat) : b.transferOf idx sub = a.transferOf idx sub := by
  obtain ⟨htransfers, -⟩ := Palca.fields_of_quiet h
  rw [Dev.transferOf_eq, htransfers, ← Dev.transferOf_eq]

theorem transferIn_append {idx sub : Nat} {l : List Transfer} (h : transferIn idx sub l = none) {x : Transfer} (hi : x.idx = idx) (hs : x.sub = sub) :
    transferIn idx sub (l ++ [x]) = some x := by
  unfold transferIn at h ⊢
  rw [List.find?_append, h, Option.none_or]
  simp [hi, hs]

theorem transferIn_replaced {idx sub : Nat} {y : Transfer} (hi : y.idx = idx) (hs : y.sub = sub) :
    ∀ {l : List Transfer} {x : Transfer}, transferIn idx sub l = some x →
      transferIn idx sub (l.map (fun z => if z.idx = idx ∧ z.sub = sub then y else z)) = some y
  | [], _, h => by simp [transferIn] at h
  | z :: t, x, h => by
    by_cases hz : z.idx = idx ∧ z.sub = sub
    · simp [transferIn, hz, hi, hs]
    · have hmiss : (z.idx == idx && z.sub == sub) = false := by simpa using hz
      have ht : transferIn idx sub t = some x := by
        unfold transferIn at h ⊢
        rwa [List.find?_cons_of_neg (by rw [hmiss]; decide)] at h
      have ih := transferIn_replaced hi hs ht
      unfold transferIn at ih ⊢
      rw [List.map_cons, if_neg hz, List.find?_cons_of_neg (by rw [hmiss]; decide)]
      exact ih

theorem transferIn_key {idx sub : Nat} {l : List Transfer} {x : Transfer} (h : transferIn idx sub l = some x) : x.idx = idx ∧ x.sub = sub := by
  have hkey := List.find?_some h
  simpa using hkey

theorem transferIn_removed (idx sub : Nat) (l : List Transfer) : transferIn idx sub (l.filter (fun y => !(y.idx == idx && y.sub == sub))) = none := by
  unfold transferIn
  rw [List.find?_eq_none]
  intro x hx
  have h := (List.mem_filter.1 hx).2
  rw [Bool.not_eq_true'] at h
  rw [h]
  exact Bool.false_ne_true

/-! ## The services -/

section
variable {d : Dev} {r : Req} {rt idx sub : Nat}

/-- The device with a transfer more. -/
def Dev.withTransfer (d : Dev) (x : Transfer) : Dev := { d with palca := { d.palca with transfers := d.palca.transfers ++ [x] } }

theorem Dev.blockStartChecked_opens {total : Nat} {row : DRow} (hrt : nbit rt 1 = true) (hrow : objRow d.code idx sub = some row) (hty : row.ty = .blobVar)
    (hacc : row.acc ≠ .ro) (hlock : d.locked = false) (hlen : r.length = 8) (hpkg : ¬ (idx = 0xC010 ∧ sub = 2)) (htotal : total ≠ 0)
    (hnone : d.transferOf idx sub = none) :
    d.blockStartChecked r rt idx sub total =
      (d.withTransfer { idx := idx, sub := sub, port := r.port, total := total, got := [], tick := d.tick }, .good []) := by
  have hend : d.endSame idx sub = d := by
    unfold Dev.endSame
    rw [hnone]
  have hplain : (idx == 0xC010 && sub == 2) = false := by simpa using hpkg
  have hstart : d.startTransfer r idx sub total =
      d.withTransfer { idx := idx, sub := sub, port := r.port, total := total, got := [], tick := d.tick } := by
    unfold Dev.startTransfer
    rw [hend, hplain]
    exact if_neg htotal
  unfold Dev.blockStartChecked
  rw [if_neg (by rw [hrt]; decide), hrow]
  dsimp only
  rw [if_neg (by simp [hty, hacc]), if_neg (by rw [hlock]; decide), if_neg (not_not.2 hlen), hnone, if_neg (by simp),
    if_neg (fun h => hpkg ⟨h.1, h.2.1⟩), hstart]

variable {off : Nat} {seg : List Byte} {x : Transfer} (pkg : Option PkgContent)

/-- The transfer with a segment more. -/
def Transfer.grown (x : Transfer) (seg : List Byte) (tick : Nat) : Transfer := { x with got := x.got ++ seg, tick := tick }

/-- The device with a segment kept. -/
def Dev.withSegment (d : Dev) (idx sub : Nat) (y : Transfer) : Dev :=
  { d with palca := { d.palca with transfers := d.palca.transfers.map (fun z => if z.idx = idx ∧ z.sub = sub then y else z) } }

theorem Dev.blockDataChecked_eq (hrt : nbit rt 1 = true) (hlock : d.locked = false) (hx : d.transferOf idx sub = some x) (hseg : seg ≠ [])
    (hmax : seg.length ≤ 1408) :
    d.blockDataChecked r rt idx sub off seg pkg =
      if off ≠ x.got.length ∨ x.total < x.got.length + seg.length then (d, some (refuseBlock 7 x.got.length))
      else if x.got.length + seg.length = x.total then
        (d.withSegment idx sub (x.grown seg d.tick)).lastSegment r idx sub off seg (x.got ++ seg) pkg
      else (d.withSegment idx sub (x.grown seg d.tick), some { status := 0, reason := 0, expect := x.got.length + seg.length, data := [] }) := by
  unfold Dev.blockDataChecked
  rw [if_neg (by rw [hrt]; decide), if_neg (by rw [hlock]; decide), hx]
  dsimp only
  rw [if_neg (by simp [hseg, Nat.not_lt.2 hmax])]
  rfl

theorem Dev.withSegment_transferOf (hx : d.transferOf idx sub = some x) (tick : Nat) :
    (d.withSegment idx sub (x.grown seg tick)).transferOf idx sub = some (x.grown seg tick) := by
  obtain ⟨hi, hs⟩ := transferIn_key hx
  exact transferIn_replaced (y := x.grown seg tick) hi hs hx

end

/-- An unfinished transfer that is aborted is gone, with its report. -/
theorem Dev.abortTransfer_gone {d : Dev} {x : Transfer} (hup : d.up = true) (hopen : x.got.length < x.total) :
    (d.abortTransfer x).transferOf x.idx x.sub = none ∧ (d.abortTransfer x).Reports 0x0D07 0 := by
  rw [show d.abortTransfer x = _ from if_neg (Nat.ne_of_lt hopen)]
  refine ⟨?_, Dev.raise_reports ?_ _ _ _⟩
  · rw [Dev.transferOf_eq, Dev.raise_palca]
    refine ite_both (P := fun e : Dev => transferIn x.idx x.sub e.palca.transfers = none) ?_ (transferIn_removed _ _ _)
    rw [(Dev.dropLoad_frame _).palca (by decide)]
    exact transferIn_removed _ _ _
  · refine ite_both (P := fun e : Dev => e.up = true) ?_ hup
    rw [Dev.up, (Dev.dropLoad_frame _).power (by decide)]
    exact hup

theorem Dev.lastSegment_act (d : Dev) (r : Req) (sub off : Nat) (seg image : List Byte) (pkg : Option PkgContent) :
    d.lastSegment r 0xA000 sub off seg image pkg = ({ d with palca := { d.palca with held := d.palca.held ++
      [{ req := r, content := [4, 0xA000, sub, 0, off] ++ byteNats seg, bytes := [], ticket := actTicket sub }] } }, none) := by
  have hact : ¬ (0xA000 = 0xC010) := by decide
  unfold Dev.lastSegment
  dsimp only
  rw [if_neg hact]

theorem transferAborted_due {d : Dev} {idx sub : Nat} {x : Transfer} (hx : d.transferOf idx sub = some x) (hopen : x.got.length < x.total)
    (hdue : x.tick + sTicks 5 ≤ d.tick) : transferAborted idx sub d = d.abortTransfer x := by
  unfold transferAborted
  rw [hx]
  exact if_pos ⟨hopen, hdue⟩

/-- Settles O37. -/
theorem blockTransfer : Obligations.BlockTransfer := by
  refine ⟨fun s r idx sub total rt row h hrt hrow hty hacc hlock hlen hpkg htotal hnone => ⟨_, rfl, ?_⟩,
    fun s r idx sub off seg pkg rt x h hrt hlock hx hseg hmax hoff hmore => ⟨_, rfl, ?_⟩,
    fun s r idx sub off seg pkg rt x h hrt hlock hx hseg hmax hoff => ⟨_, rfl, ?_⟩,
    fun s r sub off seg pkg rt x h hrt hlock hx hseg hmax hoff hlast => ⟨_, rfl, ?_⟩,
    fun s idx sub x hup hx hopen hdue => ⟨_, rfl, ?_⟩⟩
  · beta_reduce
    have htotal' : total.toNat ≠ 0 := fun h0 => htotal (BitVec.eq_of_toNat_eq h0)
    have hpkg' : ¬ (idx.toNat = 0xC010 ∧ sub.toNat = 2) := fun ⟨h1, h2⟩ => hpkg ⟨BitVec.eq_of_toNat_eq h1, BitVec.eq_of_toNat_eq h2⟩
    have hserve := Dev.blockStartChecked_opens hrt hrow hty hacc hlock hlen hpkg' htotal' hnone
    obtain ⟨hanswered, hquiet, -⟩ := Dev.serve_answered (f := fun rt d => ((d.blockStartChecked r rt idx.toNat sub.toNat total.toNat).1,
      some (d.blockStartChecked r rt idx.toNat sub.toNat total.toNat).2)) h (by rw [hserve]) (by decide)
    exact ⟨hanswered, (Dev.transferOf_of_quiet hquiet _ _).trans (transferIn_append hnone rfl rfl)⟩
  · beta_reduce
    have hserve := Dev.blockDataChecked_eq (r := r) (off := off.toNat) pkg hrt hlock hx hseg hmax
    rw [if_neg (by omega), if_neg (by omega)] at hserve
    obtain ⟨hanswered, hquiet, -⟩ := Dev.serve_answered (f := fun rt d => d.blockDataChecked r rt idx.toNat sub.toNat off.toNat seg pkg) h hserve (by decide)
    exact ⟨hanswered, (Dev.transferOf_of_quiet hquiet _ _).trans (Dev.withSegment_transferOf hx _)⟩
  · beta_reduce
    have hserve := Dev.blockDataChecked_eq (r := r) (off := off.toNat) pkg hrt hlock hx hseg hmax
    rw [if_pos (.inl hoff)] at hserve
    obtain ⟨hanswered, hquiet, -⟩ := Dev.serve_answered (f := fun rt d => d.blockDataChecked r rt idx.toNat sub.toNat off.toNat seg pkg) h hserve (by decide)
    exact ⟨hanswered, (Dev.transferOf_of_quiet hquiet _ _).trans hx⟩
  · beta_reduce
    have hserve := Dev.blockDataChecked_eq (r := r) (off := off.toNat) pkg hrt hlock hx hseg hmax
    rw [if_neg (by omega), if_pos hlast, Dev.lastSegment_act] at hserve
    have hsilent : blockData r 0xA000 sub.toNat off.toNat seg pkg s.dev = _ := Dev.serve_silent h hserve
    rw [show (0xA000 : BitVec 16).toNat = 0xA000 from rfl, hsilent]
    exact ⟨rfl, List.getLast?_concat, Dev.withSegment_transferOf hx _⟩
  · beta_reduce
    obtain ⟨hi, hs⟩ := transferIn_key hx
    rw [transferAborted_due hx hopen hdue, ← hi, ← hs]
    exact Dev.abortTransfer_gone hup hopen

end Sys2Proof.Machine

/-! PROOF. Subscriptions to events (R411). -/

namespace Sys2Proof.Machine
open Sys2Proof

/-- A frame of the service queue joins the port's queue, or leaves at once. -/
theorem Dev.sendService_queues (d : Dev) (k : OutKind) (port : Nat) (data : List Nat) : d.Queues (d.sendService k port data) k port data := by
  unfold Dev.Queues Dev.sendService
  dsimp only
  by_cases h : d.palca.sending.any (fun x => x.port == port) = true
  · rw [if_pos h, if_pos h]
    exact ⟨rfl, rfl⟩
  · rw [if_neg h, if_neg h]
    rfl

/-- The port a subscription's events go to. -/
def destPort (r : Req) (dport : BitVec 16) : BitVec 16 := if dport = 0 then r.udp else dport

theorem Dev.subscribeChecked_adds {d : Dev} {r : Req} {rt idx sub : Nat} {dport : BitVec 16} (hrt : nbit rt 1 = true) (hev : isEv d.code idx sub = true)
    (hport : r.port ≠ .spi) (hlen : r.length = 2) (hroom : d.palca.subs.length < 64)
    (hnew : d.palca.subs.any (fun x => x.isFor r.addr (destPort r dport) (okey idx sub)) = false) :
    d.subscribeChecked r rt idx sub dport = ({ d with palca := { d.palca with subs := d.palca.subs ++
      [{ port := r.port, addr := r.addr, dport := destPort r dport, key := okey idx sub, renewed := d.tick, sentCount := (d.ev idx sub).count,
         sentTick := 0 }] } }, .good []) := by
  obtain ⟨row, hrow, hty, -⟩ := objRow_of_isEv hev
  have hnew' : ¬ d.palca.subs.any (fun x => x.isFor r.addr (destPort r dport) (okey idx sub)) = true := by
    rw [hnew]
    decide
  unfold Dev.subscribeChecked
  rw [if_neg (by rw [hrt]; decide), hrow]
  dsimp only
  rw [if_neg (by simp [hty, hport]), if_neg (not_not.2 hlen)]
  exact (if_neg hnew').trans (if_pos hroom)

theorem Dev.mem_unsubscribed (d : Dev) (r : Req) (idx sub : Nat) (x : Sub) :
    x ∈ (d.unsubscribed r idx sub).palca.subs ↔ x ∈ d.palca.subs ∧ ¬ (x.addr = r.addr ∧ x.key = okey idx sub) := by
  simp [Dev.unsubscribed, List.mem_filter, ← not_and_or]

/-- The device with a subscription's event marked as sent. -/
def Dev.markSent (d : Dev) (i : Nat) (x : Sub) : Dev :=
  { d with palca := { d.palca with subs := d.palca.subs.zipIdx.map (fun y =>
      if y.2 = i then { y.1 with sentCount := (d.ev (x.key / 256) (x.key % 256)).count, sentTick := d.tick } else y.1) } }

theorem Dev.markSent_sub {d : Dev} {i : Nat} {x : Sub} (hx : d.palca.subs[i]? = some x) :
    (d.markSent i x).palca.subs[i]? = some { x with sentCount := (d.ev (x.key / 256) (x.key % 256)).count, sentTick := d.tick } := by
  unfold Dev.markSent
  simp [hx]

theorem Dev.sendEvent_up {d : Dev} {i : Nat} {x : Sub} (hup : d.palca.up.contains (portNo x.port) = true) :
    d.sendEvent i x = (d.markSent i x).sendService .eventFrame (portNo x.port) ([x.addr.toNat, x.dport.toNat] ++ d.eventBytes x.key) :=
  if_pos hup

theorem event_due {d : Dev} {i : Nat} {x : Sub} (hx : d.palca.subs[i]? = some x) (hup : d.up = true) (hdue : d.eventDue x = true) :
    event i d = d.sendEvent i x := by
  unfold event
  rw [hx]
  exact if_pos ⟨hup, hdue⟩

theorem subscriptionLeaseExpiry_due {d : Dev} {i : Nat} {x : Sub} (hx : d.palca.subs[i]? = some x) (hdue : x.renewed + sTicks (d.cfg 0x1030 2) ≤ d.tick) :
    subscriptionLeaseExpiry i d = { d with palca := { d.palca with subs := d.palca.subs.eraseIdx i } } := by
  unfold subscriptionLeaseExpiry
  rw [hx]
  exact if_pos hdue

/-- Settles O38. -/
theorem subscriptions : Obligations.Subscriptions := by
  refine ⟨fun s r idx sub dport rt h hrt hev hport hlen hroom hnew => ⟨_, rfl, ?_⟩, fun s r idx sub rt h hport => ⟨_, rfl, ?_⟩,
    fun s i x hup hx hdue hlink => ⟨_, rfl, ?_⟩, fun s i x hx hdue => ⟨_, rfl, ?_⟩⟩
  · beta_reduce
    have hserve := Dev.subscribeChecked_adds hrt hev hport hlen hroom hnew
    obtain ⟨hanswered, hquiet, -⟩ := Dev.serve_answered (f := fun rt d => ((d.subscribeChecked r rt idx.toNat sub.toNat dport).1,
      some (d.subscribeChecked r rt idx.toNat sub.toNat dport).2)) h (by rw [hserve]) (by decide)
    exact ⟨hanswered, (Palca.fields_of_quiet hquiet).2.1⟩
  · beta_reduce
    obtain ⟨hanswered, hquiet, -⟩ := Dev.serve_answered (f := fun _ d => (if r.port = .spi then d else d.unsubscribed r idx.toNat sub.toNat, some (.good [])))
      h rfl (by decide)
    obtain ⟨-, hsubs, -⟩ := Palca.fields_of_quiet hquiet
    rw [if_neg hport] at hsubs
    refine ⟨hanswered, fun x => ?_⟩
    rw [← Dev.mem_unsubscribed]
    exact Iff.of_eq (congrArg (x ∈ ·) hsubs)
  · beta_reduce
    rw [event_due hx hup hdue, Dev.sendEvent_up hlink]
    obtain ⟨-, hsubs, -⟩ := Palca.fields_of_quiet (Dev.sendService_quiet (s.dev.markSent i x) .eventFrame (portNo x.port)
      ([x.addr.toNat, x.dport.toNat] ++ s.dev.eventBytes x.key))
    exact ⟨by rw [hsubs, Dev.markSent_sub hx], Dev.sendService_queues (s.dev.markSent i x) _ _ _⟩
  · beta_reduce
    rw [subscriptionLeaseExpiry_due hx hdue]

end Sys2Proof.Machine

/-! PROOF. Commands of the host safety channel (R362, R417 to R420). -/

namespace Sys2Proof.Machine
open Sys2Proof

/-! ## What a reset leaves of the Hull -/

/-- The Hull but for what a demand or a reset decides. -/
def Hull.unreset (h : Hull) : Hull := { h.undecided with needReset := false }

theorem Hull.fields_of_unreset {a b : Hull} (h : a.unreset = b.unreset) :
    a.demands = b.demands ∧ a.cmdTick = b.cmdTick ∧ a.cmdSeq = b.cmdSeq ∧ a.watchdog = b.watchdog :=
  ⟨(congrArg Hull.demands h :), (congrArg Hull.cmdTick h :), (congrArg Hull.cmdSeq h :), (congrArg Hull.watchdog h :)⟩

theorem Hull.unreset_of_undecided {a b : Hull} (h : a.undecided = b.undecided) : a.unreset = b.unreset := by
  unfold Hull.unreset
  rw [h]

theorem Dev.setTier_unreset (d : Dev) (t : Nat) : ({ d with hull := { d.hull with tier := t } } : Dev).showTier.hull.unreset = d.hull.unreset :=
  (Hull.unreset_of_undecided (Dev.showTier_undecided _)).trans rfl

theorem Dev.restoreOutputs_unreset (d : Dev) : d.restoreOutputs.hull.unreset = d.hull.unreset :=
  ite_both (P := fun e : Dev => e.hull.unreset = d.hull.unreset) rfl rfl

theorem Dev.acceptReset_unreset (d : Dev) : d.acceptReset.hull.unreset = d.hull.unreset := by
  unfold Dev.acceptReset
  refine ite_both (P := fun e : Dev => e.hull.unreset = d.hull.unreset) (by rw [Dev.raise_hull]) ?_
  rw [(Dev.sendCommand_frame _).hull (by decide), Dev.restoreOutputs_unreset, (Dev.clearChannels_frame _).hull (by decide)]
  exact ite_both (P := fun e : Dev => e.hull.unreset = d.hull.unreset) ((Dev.setTier_unreset _ _).trans rfl) rfl

/-- While tier 3 is demanded, a reset is refused and stops nothing from being stopped. -/
theorem Dev.acceptReset_refused {d : Dev} (h : d.demanded = 3) : d.acceptReset = d.raise 0x0B08 0 0 := by
  refine if_pos ?_
  unfold Dev.resetRefused
  rw [decide_eq_true h, Bool.true_or]

/-- A demand of tier 3 stands. -/
theorem Dev.demand_demanded (d : Dev) (src cause : Nat) : (d.demand src 3 cause).demanded = 3 := by
  have hmax : 3 ≤ (d.demand src 3 cause).standing := by
    unfold Dev.standing
    rw [Dev.demand_demands]
    exact kset_max src 3 (by decide) d.hull.demands 0
  exact Nat.min_eq_left (Nat.le_trans hmax (Nat.le_trans (Nat.le_max_right _ _) (Nat.le_max_right _ _)))

/-! ## A command -/

/-- The device that has taken a command's SEQ: the watchdog restarts. -/
def Dev.heeding (d : Dev) (pdu : List Byte) : Dev :=
  { d with hull := { d.hull with cmdSeq := some (BitVec.ofNat 16 (wfld (beWord pdu 0) 31 16)), cmdTick := d.tick, watchdog := false,
                                 sawClear := !wbit (beWord pdu 2) 6 } }

/-- The watchdog's own demand ends. -/
def Dev.unwatched (d : Dev) : Dev := if kget 0 d.hull.demands srcWatchdog = 0 then d else d.demand srcWatchdog 0 0x0B09

/-- The tier that a command demands. -/
def commandTier (pdu : List Byte) : Nat := if wbit (beWord pdu 2) 7 then 3 else min 3 (wfld (beWord pdu 2) 15 8)

/-- The device under the host's demand. -/
def Dev.commanded (d : Dev) (pdu : List Byte) : Dev := (d.heeding pdu).unwatched.demand srcHost (commandTier pdu) 0

theorem Dev.useCommand_eq (d : Dev) (pdu : List Byte) :
    d.useCommand pdu = if wbit (beWord pdu 2) 6 && d.hull.sawClear then (d.commanded pdu).acceptReset else d.commanded pdu := rfl

/-- A demand leaves the Hull's record of the command. -/
theorem Dev.demand_command (d : Dev) (src tier cause : Nat) :
    (d.demand src tier cause).hull.cmdTick = d.hull.cmdTick ∧ (d.demand src tier cause).hull.watchdog = d.hull.watchdog ∧
      (d.demand src tier cause).hull.cmdSeq = d.hull.cmdSeq :=
  have h := d.demand_undecided src tier cause
  ⟨(congrArg Hull.cmdTick h :), (congrArg Hull.watchdog h :), (congrArg Hull.cmdSeq h :)⟩

/-- What the demands leave of the Hull's record of the command. -/
theorem Dev.commanded_hull (d : Dev) (pdu : List Byte) :
    (d.commanded pdu).hull.cmdTick = d.tick ∧ (d.commanded pdu).hull.watchdog = false ∧
      (d.commanded pdu).hull.cmdSeq = some (BitVec.ofNat 16 (wfld (beWord pdu 0) 31 16)) ∧
      kget 0 (d.commanded pdu).hull.demands srcWatchdog = 0 ∧ kget 0 (d.commanded pdu).hull.demands srcHost = commandTier pdu := by
  have hrecord : (d.heeding pdu).unwatched.hull.cmdTick = d.tick ∧ (d.heeding pdu).unwatched.hull.watchdog = false ∧
      (d.heeding pdu).unwatched.hull.cmdSeq = some (BitVec.ofNat 16 (wfld (beWord pdu 0) 31 16)) := by
    unfold Dev.unwatched
    split
    · exact ⟨rfl, rfl, rfl⟩
    · exact Dev.demand_command (d.heeding pdu) srcWatchdog 0 0x0B09
  have hwatch : kget 0 (d.heeding pdu).unwatched.hull.demands srcWatchdog = 0 := by
    unfold Dev.unwatched
    split
    next h => exact h
    next => rw [Dev.demand_demands, kget_kset_same]
  unfold Dev.commanded
  obtain ⟨htick, hdog, hseq⟩ := Dev.demand_command (d.heeding pdu).unwatched srcHost (commandTier pdu) 0
  rw [htick, hdog, hseq, Dev.demand_demands, kget_kset, if_neg (by decide), hwatch, kget_kset_same]
  obtain ⟨htick, hdog, hseq⟩ := hrecord
  exact ⟨htick, hdog, hseq, rfl, rfl⟩

theorem Dev.commanded_stops {d : Dev} {pdu : List Byte} (hinv : d.Inv) (hstop : wbit (beWord pdu 2) 7 = true) :
    (d.commanded pdu).Stopped ∧ (d.commanded pdu).demanded = 3 := by
  have htier : commandTier pdu = 3 := if_pos hstop
  have hheed : (d.heeding pdu).Inv := hinv
  have hwatch : (d.heeding pdu).unwatched.Inv := ite_both (P := Dev.Inv) hheed (Dev.demand_inv _ _ _ _ hheed)
  rw [Dev.commanded, htier]
  exact ⟨Dev.demand_stopped hwatch _ _, Dev.demand_demanded _ _ _⟩

section
variable {d : Dev} {port : ReqPort} {f : HostFrame} {addr : BitVec 128} {pdu : List Byte} {rt : Nat}

/-- A command of a listed sender, in RUN and with the channel on, is judged. -/
theorem safetyCommand_judged (h : d.Takes port addr f) (hrights : d.rightsOf port addr = some rt) (hrun : d.inRun = true) (hon : d.cfg 0x7000 0x13 ≠ 0) :
    safetyCommand port f addr pdu d =
      if nbit rt 2 = false ∨ d.commandGood pdu = false then d.raise 0x0B0A 0 0
      else match (generalizing := false) d.seqCheck (BitVec.ofNat 16 (wfld (beWord pdu 0) 31 16)) with
        | 0 => if d.hullCycle ≤ wfld (beWord pdu 2) 63 16 + 3 then d.useCommand pdu else d.raise 0x0B0A 0 0
        | 1 => d
        | _ => d.raise 0x0B0A 0 0 := by
  have hserved : ¬ (d.inRun = false ∨ d.cfg 0x7000 0x13 = 0) := by simp [hrun, hon]
  unfold safetyCommand
  rw [Dev.datagram_of_takes h]
  simp only [hrights]
  exact (if_neg hserved).trans rfl

theorem safetyCommand_good (h : d.Takes port addr f) (hrights : d.rightsOf port addr = some rt) (hrun : d.inRun = true) (hon : d.cfg 0x7000 0x13 ≠ 0)
    (hbit : nbit rt 2 = true) (hgood : d.commandGood pdu = true) :
    (d.seqCheck (BitVec.ofNat 16 (wfld (beWord pdu 0) 31 16)) = 0 → d.hullCycle ≤ wfld (beWord pdu 2) 63 16 + 3 →
      safetyCommand port f addr pdu d = d.useCommand pdu) ∧
    (d.seqCheck (BitVec.ofNat 16 (wfld (beWord pdu 0) 31 16)) = 1 → safetyCommand port f addr pdu d = d) := by
  have hok : ¬ (nbit rt 2 = false ∨ d.commandGood pdu = false) := by simp [hbit, hgood]
  rw [safetyCommand_judged h hrights hrun hon, if_neg hok]
  refine ⟨fun hseq hcycle => ?_, fun hseq => ?_⟩
  · simp only [hseq]
    exact if_pos hcycle
  · simp only [hseq]

end

/-- Settles O39. -/
theorem safetyChannel : Obligations.SafetyChannel := by
  refine ⟨fun s port f addr pdu rt h hrights hrun hon hbit hgood hseq hcycle => ⟨_, rfl, ?_⟩,
    fun s port f addr pdu rt h hrights hrun hon hbit hgood hseq => ⟨_, rfl, (safetyCommand_good h hrights hrun hon hbit hgood).2 hseq⟩,
    fun s port f addr pdu rt h hrights hrun hon hbad => ⟨_, rfl, ?_⟩⟩
  · beta_reduce
    rw [(safetyCommand_good h hrights hrun hon hbit hgood).1 hseq hcycle, Dev.useCommand_eq]
    obtain ⟨htick, hdog, hcmd, hwatch, hhost⟩ := s.dev.commanded_hull pdu
    by_cases htaken : (wbit (beWord pdu 2) 6 && s.dev.hull.sawClear) = true
    · rw [if_pos htaken]
      obtain ⟨hdemands, htick', hcmd', hdog'⟩ := Hull.fields_of_unreset (s.dev.commanded pdu).acceptReset_unreset
      rw [hdemands, htick', hcmd', hdog']
      refine ⟨htick, hdog, hcmd, hwatch, hhost, fun hinv hstop => ?_⟩
      obtain ⟨hstopped, hdemanded⟩ := Dev.commanded_stops hinv hstop
      rw [Dev.acceptReset_refused hdemanded]
      unfold Dev.Stopped
      rwa [Dev.raise_hull]
    · rw [if_neg htaken]
      exact ⟨htick, hdog, hcmd, hwatch, hhost, fun hinv hstop => (Dev.commanded_stops hinv hstop).1⟩
  · beta_reduce
    rw [safetyCommand_judged h hrights hrun hon, if_pos hbad]
    exact ⟨Dev.raise_reports h.1 _ _ _, Dev.raise_hull _ _ _ _⟩

end Sys2Proof.Machine

/-! PROOF. The host ports: addresses, ARP, neighbour discovery, echo, links, cable test (R396 to R399, R410, R414, R544). -/

namespace Sys2Proof.Machine
open Sys2Proof

/-- Each written address of a list takes its place, whatever else is in the list. -/
theorem Dev.inForce_forced (k : Nat) : ∀ (l : List (Nat × Nat)) (d : Dev),
    kget [] (l.foldl (fun (d : Dev) w => d.forceAddress w.1) d).palca.inForce k =
      if ∃ w ∈ l, w.1 = k then d.cfgList (k / 256) (k % 256) else kget [] d.palca.inForce k
  | [], _ => rfl
  | w :: l, d => by
    have hstep : kget [] (d.forceAddress w.1).palca.inForce k =
        if k = w.1 then d.cfgList (w.1 / 256) (w.1 % 256) else kget [] d.palca.inForce k := kget_kset
    have hcfg : (d.forceAddress w.1).cfgList (k / 256) (k % 256) = d.cfgList (k / 256) (k % 256) := rfl
    rw [List.foldl_cons, Dev.inForce_forced k l, hstep, hcfg]
    by_cases hk : k = w.1
    · simp [hk]
    · simp only [if_neg hk, List.mem_cons, exists_eq_or_imp, Ne.symm hk, false_or]

theorem Dev.waiting_forced (l : List (Nat × Nat)) (d : Dev) :
    (l.foldl (fun (d : Dev) w => d.forceAddress w.1) d).palca.waiting = d.palca.waiting :=
  foldl_keeps (f := fun (d : Dev) (w : Nat × Nat) => d.forceAddress w.1) (g := fun d : Dev => d.palca.waiting) (fun _ _ => rfl) l d

theorem addressChangeEffect_forces {d : Dev} {port : Nat} {w : Nat × Nat} (hw : w ∈ d.palca.waiting) (hport : w.1 / 256 = 0x1011 + port)
    (hdue : w.2 ≤ d.tick) : kget [] (addressChangeEffect port d).palca.inForce w.1 = d.cfgList (w.1 / 256) (w.1 % 256) ∧
      w ∉ (addressChangeEffect port d).palca.waiting := by
  have hmem : w ∈ d.palca.waiting.filter (fun w => w.1 / 256 == 0x1011 + port && decide (w.2 ≤ d.tick)) := by simp [hw, hport, hdue]
  unfold addressChangeEffect
  dsimp only
  rw [Dev.inForce_forced, Dev.waiting_forced]
  constructor
  · exact if_pos ⟨w, hmem, rfl⟩
  · intro h
    exact absurd (List.mem_filter.1 h).2 (by simp [hport, hdue])

theorem Dev.hostReceive_passes {d : Dev} {port : Nat} {v4 : Bool} {f : HostFrame} (h : d.hostFilter port v4 f = 0) (g : Dev → Dev) :
    d.hostReceive port v4 f g = g d := by
  unfold Dev.hostReceive
  simp only [h]

theorem arpRequest_passes {d : Dev} {port : Nat} {f : HostFrame} (hserved : d.portServed port = true) (haddr : d.ipv4 port ≠ 0)
    (hfilter : d.hostFilter port false (HostFrame.toAll f) = 0) (target sender : Nat) :
    arpRequest port f target sender d = if target = d.ipv4 port then d.sendService .arpReply port [target, d.mac port, sender] else d := by
  unfold arpRequest
  rw [if_pos hserved, Dev.hostReceive_passes hfilter]
  simp only [haddr, ne_eq, not_false_eq_true, true_and]

theorem neighbourDiscovery_passes {d : Dev} {port : Nat} {f : HostFrame} (hserved : d.portServed port = true)
    (hfilter : d.hostFilter port false (HostFrame.toAll f) = 0) (target sender : Nat) :
    neighbourDiscovery port f target sender d = if target = linkLocal (d.mac port) ∨ d.ipv6 port ≠ 0 ∧ target = d.ipv6 port
      then d.sendService .ndReply port [target, d.mac port, sender] else d := by
  unfold neighbourDiscovery
  rw [if_pos hserved, Dev.hostReceive_passes hfilter]

/-- One more echo in the second that runs on the port. -/
def Dev.echoed (d : Dev) (port : Nat) : Dev :=
  { d with palca := { d.palca with echoes := kset [] d.palca.echoes port [(d.echoWindow port).1 + 1, (d.echoWindow port).2] } }

theorem echoRequest_passes {d : Dev} {port : Nat} {f : HostFrame} {v6 : Bool} (hserved : d.portServed port = true) (haddr : v6 = true ∨ d.ipv4 port ≠ 0)
    (hfilter : d.hostFilter port (!v6) f = 0) (sender : Nat) (data : List Byte) :
    echoRequest port f v6 sender data d = if (d.echoWindow port).1 < 100
      then (d.echoed port).sendService .echoReply port ([b2n v6, sender] ++ byteNats data) else d := by
  unfold echoRequest
  rw [if_pos (by simpa [hserved] using haddr), Dev.hostReceive_passes hfilter]
  rfl

theorem Dev.queues_echoed (d e : Dev) (p port : Nat) (k : OutKind) (data : List Nat) :
    (d.echoed p).Queues e k port data = d.Queues e k port data := rfl

/-- What an aborted transfer's end leaves: no other transfer comes, and this one is complete or gone. -/
theorem Dev.mem_abortTransfer {d : Dev} {x y : Transfer} (h : y ∈ (d.abortTransfer x).palca.transfers) :
    y ∈ d.palca.transfers ∧ (y = x → y.got.length = y.total) := by
  unfold Dev.abortTransfer at h
  by_cases hall : x.got.length = x.total
  · rw [if_pos hall] at h
    exact ⟨h, fun e => e ▸ hall⟩
  · rw [if_neg hall, Dev.raise_palca, apply_ite Dev.palca, (Dev.dropLoad_frame _).palca (by decide), ite_self] at h
    obtain ⟨hy, hne⟩ := List.mem_filter.1 h
    exact ⟨hy, fun e => absurd hne (by simp [e])⟩

theorem Dev.mem_abortAll {y : Transfer} : ∀ (l : List Transfer) (d : Dev), y ∈ (l.foldl Dev.abortTransfer d).palca.transfers →
    y ∈ d.palca.transfers ∧ (y ∈ l → y.got.length = y.total)
  | [], _, h => ⟨h, fun hl => absurd hl List.not_mem_nil⟩
  | x :: l, d, h => by
    obtain ⟨hstep, hrest⟩ := Dev.mem_abortAll l (d.abortTransfer x) h
    obtain ⟨hy, hx⟩ := Dev.mem_abortTransfer hstep
    exact ⟨hy, fun hl => (List.mem_cons.1 hl).elim hx hrest⟩

theorem Dev.mem_abortPort {d : Dev} {port : Nat} {y : Transfer} (h : y ∈ (d.abortPort port).palca.transfers) (hy : portNo y.port = port) :
    y.got.length = y.total := by
  obtain ⟨hin, hdone⟩ := Dev.mem_abortAll _ d h
  exact hdone (List.mem_filter.2 ⟨hin, decide_eq_true hy⟩)

theorem Dev.abortTransfer_up (d : Dev) (x : Transfer) : (d.abortTransfer x).palca.up = d.palca.up := by
  refine ite_both (P := fun e : Dev => e.palca.up = d.palca.up) rfl ?_
  rw [Dev.raise_palca, apply_ite Dev.palca, (Dev.dropLoad_frame _).palca (by decide), ite_self]

theorem Dev.abortPort_up (d : Dev) (port : Nat) : (d.abortPort port).palca.up = d.palca.up :=
  foldl_keeps (g := fun d : Dev => d.palca.up) (fun d x => d.abortTransfer_up x) _ d

/-- Nothing of a port that went down is sent or waits any more. -/
theorem Dev.dropPort_palca (d : Dev) (port : Nat) : (d.dropPort port).palca = { d.palca with
    sending := d.palca.sending.filter (fun x => x.port != port), waitingOut := d.palca.waitingOut.filter (fun x => x.unit != port) } := by
  unfold Dev.dropPort
  dsimp only
  rw [(Dev.closeIfSent_frame _).palca (by decide)]
  exact foldl_keeps (g := Dev.palca) (fun d x => (Dev.occur_frame _ _ _).palca (by decide)) _ _

/-- The device once the loss of a host port's link is reported. -/
def Dev.unlinked (d : Dev) (port : Nat) : Dev :=
  let e := (d.raise 0x0D05 port 0).occur (0x1011 + port) 0x0B
  { e with palca := { e.palca with up := sdel port e.palca.up } }

theorem hostLinkDown_served {d : Dev} {port : Nat} (h : d.portServed port = true) :
    hostLinkDown port d = ((d.unlinked port).abortPort port).dropPort port := if_pos h

/-- The port's entry of the newest fault takes the cable test's result. -/
theorem cableTest_details {d : Dev} {port : Nat} {e : LogEntry} {t : List LogEntry} (hlog : d.log.entries = e :: t) (hdown : d.portDown port = true)
    (hcause : e.cause = if port < 2 then 0x0D05 else 0x0204) (hinst : e.inst = if port < 2 then port else port - 2) (code distance : Nat) :
    (cableTest port code distance d).log.entries = { e with detail := packN [(8, code), (24, 0), (16, distance)] } :: t := by
  unfold cableTest
  dsimp only
  rw [if_neg (by simp [hdown]), hlog]
  exact if_pos (by split <;> simp_all)

/-- Settles O40, each command by its equation. -/
theorem hostPorts : Obligations.HostPorts := by
  unfold Obligations.HostPorts
  refine ⟨?_, ?_, ?_, ?_, ?_, ?_, ?_⟩
  case refine_1 =>
    exact fun s p => ⟨_, rfl, fun w hw hport hdue => addressChangeEffect_forces hw hport hdue⟩
  case refine_2 =>
    intro s p f target sender hserved haddr hfilter
    refine ⟨_, rfl, ?_⟩
    beta_reduce
    rw [arpRequest_passes hserved haddr hfilter]
    split
    · exact Dev.sendService_queues _ _ _ _
    · rfl
  case refine_3 =>
    intro s p f target sender hserved hfilter
    refine ⟨_, rfl, ?_⟩
    beta_reduce
    rw [neighbourDiscovery_passes hserved hfilter]
    split
    · exact Dev.sendService_queues _ _ _ _
    · rfl
  case refine_4 =>
    intro s p f v6 sender data hserved haddr hfilter
    refine ⟨_, rfl, ?_⟩
    beta_reduce
    rw [echoRequest_passes hserved haddr hfilter]
    split
    · rw [← Dev.queues_echoed _ _ p.val]
      exact Dev.sendService_queues _ _ _ _
    · rfl
  case refine_5 =>
    intro s p hup
    refine ⟨_, rfl, ?_⟩
    beta_reduce
    rw [show hostLinkUp p.val s.dev = _ from if_pos hup]
    exact mem_sins.2 (Or.inl rfl)
  case refine_6 =>
    intro s p hserved
    refine ⟨_, rfl, ?_⟩
    beta_reduce
    rw [hostLinkDown_served hserved, Dev.dropPort_palca]
    refine ⟨?_, fun x hx => by simpa using (List.mem_filter.1 hx).2, fun x hx hport => Dev.mem_abortPort hx hport⟩
    show p.val ∉ ((s.dev.unlinked p.val).abortPort p.val).palca.up
    rw [Dev.abortPort_up]
    exact fun h => (mem_sdel.1 h).2 rfl
  case refine_7 =>
    exact fun s p code distance e t hlog hdown hcause hinst => ⟨_, rfl, cableTest_details hlog hdown hcause hinst _ _⟩

end Sys2Proof.Machine

/-! PROOF. The SPI target port and the output streams (R250, R399, R413, R414, R421 to R423). -/

namespace Sys2Proof.Machine
open Sys2Proof

theorem wfld_lt (w : Word) (hi lo : Nat) : wfld w hi lo < 2 ^ (hi + 1 - lo) := Nat.mod_lt _ (Nat.two_pow_pos _)

theorem Dev.recordIf_vals (d : Dev) (kind : Nat) (payload : List Byte) : (d.recordIf kind payload).1.dict.vals = d.dict.vals := by
  unfold Dev.recordIf
  split
  · rfl
  · split
    · exact Dev.raise_vals _ _ _ _
    · rfl

theorem Dev.bufferContext_vals (d : Dev) (x : Context) : (d.bufferContext x).dict.vals = d.dict.vals := by
  unfold Dev.bufferContext
  dsimp only
  split
  · split
    · split
      · rfl
      · exact Dev.raise_vals _ _ _ _
    · rfl
  · split
    · split <;> rfl
    · rfl

theorem Dev.closeCycle_vals (d : Dev) (h : HeldCycle) : (d.closeCycle h).dict.vals = d.dict.vals := by
  unfold Dev.closeCycle
  dsimp only
  refine ite_both (P := fun e : Dev => e.dict.vals = d.dict.vals) ?_ ((Dev.bufferContext_vals _ _).trans ?_)
  all_goals exact ite_both (P := fun e : Dev => e.dict.vals = d.dict.vals) rfl (Dev.recordIf_vals _ _ _)

theorem Dev.closeIfSent_vals (d : Dev) : d.closeIfSent.dict.vals = d.dict.vals :=
  foldl_keeps (g := fun d : Dev => d.dict.vals) (fun d h => d.closeCycle_vals h) _ d

/-! ## Fragments -/

/-- The records of a port and a stream once a fragment of theirs has gone. -/
def Dev.advanced (d : Dev) (r : OutRecord) : List OutRecord :=
  d.palca.sending.filter (fun x => !(x.stream == r.stream && x.port == r.port)) ++
    if r.next + 1 < fragCount r.data.length then [{ r with next := r.next + 1 }] else []

theorem Dev.advanceRecord_palca (d : Dev) (r : OutRecord) : (d.advanceRecord r).palca = { d.palca with sending := d.advanced r } := by
  unfold Dev.advanceRecord Dev.advanced
  dsimp only
  by_cases h : r.next + 1 < fragCount r.data.length
  · rw [if_pos h, if_pos h]
  · rw [if_neg h, if_neg h, List.append_nil]
    exact ite_both (P := fun e : Dev => e.palca = _) rfl rfl

theorem Dev.advanceRecord_out (d : Dev) (r : OutRecord) : (d.advanceRecord r).out = d.out :=
  ite_both (P := fun e : Dev => e.out = d.out) rfl (ite_both (P := fun e : Dev => e.out = d.out) rfl rfl)

theorem Dev.advanceRecord_vals (d : Dev) (r : OutRecord) : (d.advanceRecord r).dict.vals = d.dict.vals :=
  ite_both (P := fun e : Dev => e.dict.vals = d.dict.vals) rfl (ite_both (P := fun e : Dev => e.dict.vals = d.dict.vals) rfl rfl)

theorem Dev.advanceRecord_code (d : Dev) (r : OutRecord) : (d.advanceRecord r).code = d.code :=
  ite_both (P := fun e : Dev => e.code = d.code) rfl (ite_both (P := fun e : Dev => e.code = d.code) rfl rfl)

/-- A stream is still sent on a port as long as its record has fragments left. -/
theorem Dev.any_advanced (d : Dev) (r : OutRecord) :
    (d.advanced r).any (fun x => x.stream == r.stream && x.port == r.port) = decide (r.next + 1 < fragCount r.data.length) := by
  unfold Dev.advanced
  rw [List.any_append, List.any_filter]
  by_cases h : r.next + 1 < fragCount r.data.length
  · simp [h]
  · simp only [h, if_false, List.any_nil, Bool.or_false, decide_false, List.any_eq_false]
    intro x _
    cases (x.stream == r.stream && x.port == r.port) <;> decide

/-- The device once a fragment of a stamped record has gone. -/
def Dev.fragmentGone (d : Dev) (r : OutRecord) : Dev := (d.advanceRecord r).closeIfSent

theorem Dev.fragmentGone_palca (d : Dev) (r : OutRecord) : (d.fragmentGone r).palca = { d.palca with sending := d.advanced r } :=
  ((Dev.closeIfSent_frame _).palca (by decide)).trans (d.advanceRecord_palca r)

theorem Dev.fragmentGone_out (d : Dev) (r : OutRecord) : (d.fragmentGone r).out = d.out :=
  ((Dev.closeIfSent_frame _).out (by decide)).trans (d.advanceRecord_out r)

theorem Dev.fragmentGone_cfgList (d : Dev) (r : OutRecord) (i j : Nat) : (d.fragmentGone r).cfgList i j = d.cfgList i j :=
  Dev.cfgList_of_vals ((Dev.closeIfSent_vals _).trans (d.advanceRecord_vals r))
    (((Dev.closeIfSent_frame _).code (by decide)).trans (d.advanceRecord_code r)) i j

theorem Dev.hostTag_of_cfgList {a b : Dev} (h : ∀ i j, b.cfgList i j = a.cfgList i j) (port cls : Nat) : b.hostTag port cls = a.hostTag port cls := by
  unfold Dev.hostTag Dev.cfg
  simp only [h]

theorem Dev.takeFragment_stamped {d : Dev} {r : OutRecord} (hr : r.stamped = true)
    (hfind : d.palca.sending.find? (fun x => x.stream == r.stream && x.port == r.port) = some r) : d.takeFragment r = (d.fragmentGone r, r) := by
  have hstamp : d.stampStream r = d := if_pos hr
  unfold Dev.takeFragment
  dsimp only
  rw [hstamp, hfind]
  rfl

theorem readStream_found {d : Dev} {n : Nat} {r : OutRecord} (hup : d.up = true)
    (hfind : d.palca.sending.find? (fun x => x.stream == n && x.port == 2) = some r) (hr : r.stamped = true) :
    readStream n d = (d.fragmentGone r).emit .spiReply 2 (spiFrame r.fragment) := by
  have hkey := List.find?_some hfind
  simp only [Bool.and_eq_true, beq_iff_eq] at hkey
  obtain ⟨rfl, hport⟩ := hkey
  unfold readStream
  rw [if_pos hup, hfind]
  dsimp only
  rw [Dev.takeFragment_stamped hr (by rw [hport]; exact hfind)]

theorem readStream_none {d : Dev} {n : Nat} (hup : d.up = true) (hfind : d.palca.sending.find? (fun x => x.stream == n && x.port == 2) = none) :
    readStream n d = d.emit .spiReply 2 (spiFrame []) := by
  unfold readStream
  rw [if_pos hup, hfind]

/-- What a fragment's frame holds: its stream's destination and port, then header and data. -/
def Dev.fragmentFrame (d : Dev) (r : OutRecord) : Output :=
  { kind := .fragment, unit := r.port, tag := d.hostTag r.port 2,
    data := d.cfgList (0x1100 + r.stream) 4 ++ [d.cfg (0x1100 + r.stream) 5] ++ byteNats r.fragment }

theorem fragmentTransmit_stamped {d : Dev} {r : OutRecord} (hport : r.port < 2) (hnext : d.nextRecord r.port = some r) (hr : r.stamped = true)
    (hfind : d.palca.sending.find? (fun x => x.stream == r.stream && x.port == r.port) = some r) :
    fragmentTransmit r.port d =
      ({ d.fragmentGone r with out := d.fragmentFrame r :: (d.fragmentGone r).out } : Dev).flushService r.port := by
  have hsend : d.sendFragment r = { d.fragmentGone r with out := d.fragmentFrame r :: (d.fragmentGone r).out } := by
    unfold Dev.sendFragment Dev.emitHost
    rw [Dev.takeFragment_stamped hr hfind]
    dsimp only
    rw [Dev.hostTag_of_cfgList (d.fragmentGone_cfgList r)]
    rfl
  unfold fragmentTransmit
  rw [if_pos hport, hnext]
  dsimp only
  rw [hsend]

/-- Once the port sends no record, the service frames that waited for it go, in their order. -/
theorem Dev.flushService_out (d : Dev) (port : Nat) : (d.flushService port).out =
    (if d.palca.sending.any (fun x => x.port == port) then [] else (d.palca.waitingOut.filter (fun x => x.unit == port)).reverse) ++ d.out ∧
      (d.flushService port).palca.sending = d.palca.sending := by
  unfold Dev.flushService
  by_cases h : d.palca.sending.any (fun x => x.port == port) = true
  · rw [if_pos h, if_pos h]
    exact ⟨rfl, rfl⟩
  · rw [if_neg h, if_neg h]
    exact ⟨rfl, rfl⟩

/-! ## Frames of the SPI target port -/

theorem writeFrame_bad {d : Dev} {bytes : List Byte} {pkg : Option PkgContent} {known : Bool} (hup : d.up = true)
    (hbad : known = false ∨ spiPayload bytes = none) : writeFrame bytes pkg known d = d.raise 0x0D08 0 0 := by
  have hnone : (if known then spiPayload bytes else none) = none := by
    rcases hbad with h | h <;> simp [h]
  unfold writeFrame
  rw [if_neg (by simp [hup]), hnone]

section
variable {d : Dev} {bytes frame : List Byte} {pkg : Option PkgContent} (hup : d.up = true) (hbytes : spiPayload bytes = some frame)
include hup hbytes

theorem writeFrame_safety (hmagic : beNat (frame.take 2) = 0x5346) : writeFrame bytes pkg true d = safetyCommand .spi .plain 0 frame d := by
  unfold writeFrame
  rw [if_neg (by simp [hup]), if_pos rfl, hbytes]
  exact if_pos hmagic

theorem writeFrame_service (hmagic : beNat (frame.take 2) ≠ 0x5346) (hlen : 24 ≤ frame.length) :
    writeFrame bytes pkg true d = d.serviceFrame frame pkg := by
  unfold writeFrame
  rw [if_neg (by simp [hup]), if_pos rfl, hbytes]
  exact (if_neg hmagic).trans (if_neg (by omega))
end

/-- A field that fits is itself as an operand of its width. -/
theorem ofNat_wfld (w : Word) {n hi lo : Nat} (h : hi + 1 - lo = n) : (BitVec.ofNat n (wfld w hi lo)).toNat = wfld w hi lo := by
  rw [BitVec.toNat_ofNat]
  exact Nat.mod_eq_of_lt (h ▸ wfld_lt w hi lo)

theorem Dev.serviceFrame_read {frame : List Byte} (hop : wfld (beWord frame 0) 39 32 = 1) (d : Dev) (pkg : Option PkgContent) :
    d.serviceFrame frame pkg = readRequest (spiReq frame) (BitVec.ofNat 16 (wfld (beWord frame 1) 63 48)).toNat
      (BitVec.ofNat 8 (wfld (beWord frame 1) 47 40)).toNat (wbit (beWord frame 1) 32) (BitVec.ofNat 32 (wfld (beWord frame 1) 31 0)).toNat d := by
  rw [ofNat_wfld (n := 16) _ rfl, ofNat_wfld (n := 8) _ rfl, ofNat_wfld (n := 32) _ rfl]
  unfold Dev.serviceFrame
  simp only [hop]

theorem Dev.serviceFrame_write {frame : List Byte} (hop : wfld (beWord frame 0) 39 32 = 2) (d : Dev) (pkg : Option PkgContent) :
    d.serviceFrame frame pkg = writeRequest (spiReq frame) (BitVec.ofNat 16 (wfld (beWord frame 1) 63 48)).toNat
      (BitVec.ofNat 8 (wfld (beWord frame 1) 47 40)).toNat (wbit (beWord frame 1) 32) (frame.drop 24) d := by
  rw [ofNat_wfld (n := 16) _ rfl, ofNat_wfld (n := 8) _ rfl]
  unfold Dev.serviceFrame
  simp only [hop]

theorem readFrame_status {d : Dev} {x : List Nat} (hup : d.up = true) (hx : d.palca.spiStatus = some x) :
    readFrame d = { d with palca := { d.palca with spiStatus := none } }.emit .spiReply 1 (spiFrame (natBytes x)) := by
  unfold readFrame
  rw [if_pos hup, hx]

theorem readFrame_response {d : Dev} {x : List Nat} {t : List (List Nat)} (hup : d.up = true) (hs : d.palca.spiStatus = none)
    (hx : d.palca.spiQueue = x :: t) :
    readFrame d = { d with palca := { d.palca with spiQueue := t } }.emit .spiReply 1 (spiFrame (natBytes x)) := by
  unfold readFrame
  rw [if_pos hup, hs, hx]

/-- Every listed event's count is taken, whatever stood for it before. -/
theorem kget_counts (f : Nat → Nat) {k : Nat} : ∀ (l : List Nat) (m : Store Nat), (k ∈ l ∨ kget 0 m k = f k) →
    kget 0 (l.foldl (fun m k => kset 0 m k (f k)) m) k = f k
  | [], _, h => h.resolve_left List.not_mem_nil
  | j :: l, m, h => by
    refine kget_counts f l _ ?_
    by_cases hj : k = j
    · exact Or.inr (by rw [hj, kget_kset_same])
    · rw [kget_kset_other hj]
      exact h.imp_left (fun h => (List.mem_cons.1 h).resolve_left hj)

/-- Settles O41, each command by its equation. -/
theorem spiAndStreams : Obligations.SpiAndStreams := by
  unfold Obligations.SpiAndStreams
  refine ⟨?_, ?_, ?_, ?_, ?_, ?_, ?_, ?_, ?_, ?_⟩
  case refine_1 =>
    intro s hup
    refine ⟨_, rfl, ?_⟩
    beta_reduce
    rw [show status s.dev = _ from if_pos hup]
    exact ⟨rfl, rfl⟩
  case refine_2 =>
    intro s bytes pkg known hup hbad
    refine ⟨_, rfl, ?_⟩
    beta_reduce
    rw [writeFrame_bad hup hbad]
    exact ⟨Dev.raise_reports hup _ _ _, Dev.raise_palca _ _ _ _⟩
  case refine_3 =>
    intro s bytes frame pkg hup hbytes hmagic
    refine ⟨_, rfl, ?_⟩
    beta_reduce
    rw [writeFrame_safety hup hbytes hmagic]
    rfl
  case refine_4 =>
    intro s bytes frame pkg hup hbytes hmagic hlen
    refine ⟨_, rfl, ?_⟩
    beta_reduce
    rw [writeFrame_service hup hbytes hmagic hlen]
    refine ⟨fun hop => ?_, fun hop => ?_⟩
    · rw [Dev.serviceFrame_read hop]
      rfl
    · rw [Dev.serviceFrame_write hop]
      rfl
  case refine_5 =>
    intro s x hup hx
    refine ⟨_, rfl, ?_⟩
    beta_reduce
    rw [readFrame_status hup hx]
    exact ⟨rfl, rfl, rfl⟩
  case refine_6 =>
    intro s x t hup hs hx
    refine ⟨_, rfl, ?_⟩
    beta_reduce
    rw [readFrame_response hup hs hx]
    exact ⟨rfl, rfl⟩
  case refine_7 =>
    intro s n r hup hfind hr
    refine ⟨_, rfl, ?_⟩
    beta_reduce
    have hkey := List.find?_some hfind
    simp only [Bool.and_eq_true, beq_iff_eq] at hkey
    rw [readStream_found hup hfind hr, ← hkey.1, ← hkey.2]
    refine ⟨congrArg (List.cons _) (s.dev.fragmentGone_out r), ?_⟩
    show (s.dev.fragmentGone r).palca.sending.any _ = _
    rw [Dev.fragmentGone_palca]
    exact s.dev.any_advanced r
  case refine_8 =>
    intro s n hup hfind
    refine ⟨_, rfl, ?_⟩
    beta_reduce
    rw [readStream_none hup hfind]
    rfl
  case refine_9 =>
    intro s p r hp hnext hr hport hfind
    refine ⟨_, rfl, ?_⟩
    beta_reduce
    rw [← hport] at hp hnext ⊢
    rw [fragmentTransmit_stamped hp hnext hr hfind, (Dev.flushService_out _ _).1, (Dev.flushService_out _ _).2]
    dsimp only
    rw [Dev.fragmentGone_palca, Dev.fragmentGone_out]
    rfl
  case refine_10 =>
    intro s hup
    refine ⟨_, rfl, ?_⟩
    beta_reduce
    rw [show readEvents s.dev = _ from if_pos hup]
    exact ⟨rfl, fun k hk => kget_counts (fun k => (s.dev.ev (k / 256) (k % 256)).count) _ _ (Or.inl hk)⟩

end Sys2Proof.Machine

/-! PROOF. Requests for a power state (R436, R445, R446). -/

namespace Sys2Proof.Machine
open Sys2Proof

/-- A write that is taken and does not wait for the journal is answered as its own rule says. -/
theorem Dev.TakesWrite.answered {d e : Dev} {r : Req} {idx sub : Nat} {part : Bool} {payload : List Byte} {own : List Nat → Dev → Dev × Reply}
    {x : Reply} (h : d.TakesWrite r idx sub part payload) (hown : own (wireValue d.code idx sub payload) d = (e, x))
    (hnow : rwpObj e.code idx sub = false ∨ e.recd.jseq = d.recd.jseq) (stays : Bool := false) :
    (d.writeWith r idx sub part payload own stays).Answered r (responseBytes r 2 idx sub part 0 x) ∧
      Dev.Frame [.palca, .out] e (d.writeWith r idx sub part payload own stays) := by
  obtain ⟨rt, hserves, hev, hcheck⟩ := h
  exact Dev.writeWith_answered hserves hev hcheck hown hnow

theorem Dev.TakesWrite.up {d : Dev} {r : Req} {idx sub : Nat} {part : Bool} {payload : List Byte} (h : d.TakesWrite r idx sub part payload) :
    d.up = true := by
  obtain ⟨rt, ⟨⟨hup, -⟩, -⟩, -⟩ := h
  exact hup

theorem objRow_state (code : Nat) : objRow code 0x2000 2 = some (dn 0x2000 0x2000 2 2 1 .wo 0 (.between 1 4)) := by
  have hon : onCode code 0x2000 2 = true := by simp [onCode]
  rw [objRow, if_pos hon]
  rfl

theorem rwpObj_state (code : Nat) : rwpObj code 0x2000 2 = false := by
  unfold rwpObj
  rw [objRow_state]
  rfl

theorem wireValue_state (code : Nat) (b : Byte) : wireValue code 0x2000 2 [b] = [b.toNat] := by
  have hvalue : beNat [b] = b.toNat := by simp [beNat, leNat]
  simp only [wireValue, objRow_state]
  rw [← hvalue]
  exact fromWire_one rfl

theorem stateRequest_answered {d e : Dev} {r : Req} {b : Byte} {x : Reply} (h : d.TakesWrite r 0x2000 2 false [b]) (hx : writeState [b.toNat] d = (e, x)) :
    (stateRequest r b d).Answered r (responseBytes r 2 0x2000 2 false 0 x) ∧ Dev.Frame [.palca, .out] e (stateRequest r b d) :=
  h.answered (by rw [wireValue_state, hx]) (Or.inl (rwpObj_state _))

/-- The device with a target; out of RUN no further instant comes. -/
def Dev.targeting (d : Dev) (st : PowerState) : Dev :=
  let e := d.modPower (fun p => { p with target := some st })
  if e.inRun then { e with cyc := { e.cyc with next := none } } else e

theorem Dev.targeting_power (d : Dev) (st : PowerState) : (d.targeting st).power = { d.power with target := some st } :=
  ite_both (P := fun e : Dev => e.power = _) rfl rfl

theorem Dev.targeting_next {d : Dev} (st : PowerState) (hrun : d.inRun = true) : (d.targeting st).cyc.next = none := by
  have h : d.targeting st = _ := if_pos hrun
  rw [h]

section
variable {d : Dev} (hpast : d.pastStep8 = true) (hfree : d.power.target = none)
include hpast hfree

theorem writeState_free (v : Nat) : writeState [v] d =
    if stateOfCode v = d.power.state then (d, .good [])
    else if stateOfCode v = .run then
      match d.runRefusal with
      | some c => (d.raiseRefusal c, .cause c)
      | none => (d.modPower (fun p => { p with target := some .run }), .good [])
    else (d.targeting (stateOfCode v), .good []) := by
  have hfirst : ¬ (d.pastStep8 = false ∨ d.power.target ≠ none) := by simp [hpast, hfree]
  unfold writeState
  exact (if_neg hfirst).trans rfl

theorem writeState_target {v : Nat} {st : PowerState} (hst : stateOfCode v = st) (hrun : st ≠ .run) (hnew : d.power.state ≠ st) :
    writeState [v] d = (d.targeting st, .good []) := by
  rw [writeState_free hpast hfree, hst, if_neg (Ne.symm hnew), if_neg hrun]

theorem writeState_run (hrun : d.inRun = false) : writeState [4] d =
    match d.runRefusal with
    | some c => (d.raiseRefusal c, .cause c)
    | none => (d.modPower (fun p => { p with target := some .run }), .good []) := by
  have hnew : ¬ (PowerState.run = d.power.state) := fun h => by simp [Dev.inRun, ← h] at hrun
  rw [writeState_free hpast hfree]
  exact (if_neg hnew).trans (if_pos rfl)
end

theorem writeState_refused {d : Dev} (h : d.pastStep8 = false ∨ d.power.target ≠ none) (v : Nat) : writeState [v] d = (d, .refuse 6) := if_pos h

theorem Dev.raiseRefusal_target {d : Dev} (hup : d.up = true) (c : Nat) : (d.raiseRefusal c).power = d.power := by
  unfold Dev.raiseRefusal Dev.raiseIf
  split
  · exact Dev.raise_power hup _ _ _
  · rfl

theorem stateRequest_targets {d : Dev} {r : Req} {b : Byte} {st : PowerState} (h : d.TakesWrite r 0x2000 2 false [b]) (hpast : d.pastStep8 = true)
    (hfree : d.power.target = none) (hst : stateOfCode b.toNat = st) (hrun : st ≠ .run) (hnew : d.power.state ≠ st) :
    (stateRequest r b d).power.target = some st ∧ (stateRequest r b d).power.state = d.power.state ∧
      (d.inRun = true → (stateRequest r b d).cyc.next = none) ∧
      (stateRequest r b d).Answered r (responseBytes r 2 0x2000 2 false 0 (.good [])) := by
  obtain ⟨hanswer, hframe⟩ := stateRequest_answered h (writeState_target hpast hfree hst hrun hnew)
  rw [hframe.power (by decide), hframe.cyc (by decide), Dev.targeting_power]
  exact ⟨rfl, rfl, fun h => Dev.targeting_next st h, hanswer⟩

/-- Settles O42, by what `writeState` makes of each request. -/
theorem stateRequests : Obligations.StateRequests := by
  unfold Obligations.StateRequests
  refine ⟨?_, ?_, ?_, ?_⟩
  case refine_1 =>
    rintro s r v c st (⟨rfl, rfl, rfl⟩ | ⟨rfl, rfl, rfl⟩ | ⟨rfl, rfl, rfl⟩) h hpast hfree hnew
    all_goals exact ⟨_, rfl, stateRequest_targets h hpast hfree rfl (by decide) hnew⟩
  case refine_2 =>
    intro s r h hpast hfree hrun hgood
    have hown := writeState_run hpast hfree hrun
    rw [hgood] at hown
    obtain ⟨hanswer, hframe⟩ := stateRequest_answered h hown
    refine ⟨_, rfl, ?_⟩
    beta_reduce
    rw [hframe.power (by decide)]
    exact ⟨rfl, rfl, hanswer⟩
  case refine_3 =>
    intro s r x h hpast hfree hrun hbad
    have hown := writeState_run hpast hfree hrun
    rw [hbad] at hown
    obtain ⟨hanswer, hframe⟩ := stateRequest_answered h hown
    refine ⟨_, rfl, ?_⟩
    beta_reduce
    rw [hframe.power (by decide), Dev.raiseRefusal_target h.up]
    refine ⟨hfree, hanswer, fun hx => (hframe.reports (by decide) _ _).2 ?_⟩
    have hraise : s.dev.raiseRefusal x = s.dev.raise x 0 0 := if_pos (decide_eq_true hx)
    rw [hraise]
    exact Dev.raise_reports h.up _ _ _
  case refine_4 =>
    intro s r h hnot
    obtain ⟨hanswer, hframe⟩ := stateRequest_answered h (writeState_refused hnot 4)
    exact ⟨_, rfl, hframe.power (by decide), hanswer⟩

end Sys2Proof.Machine

/-! PROOF. The legs of a state transition (R91, R162, R187, R378, R444, R446). -/

namespace Sys2Proof.Machine
open Sys2Proof

theorem Power.fields_of_unretained {p q : Power} (h : p.unretained = q.unretained) :
    p.state = q.state ∧ p.target = q.target ∧ p.enCore = q.enCore :=
  ⟨(congrArg Power.state h :), (congrArg Power.target h :), (congrArg Power.enCore h :)⟩

theorem Dev.repairRow_unretained (d : Dev) (row : Nat) : (d.repairRow row).power.unretained = d.power.unretained :=
  ite_both (P := fun e : Dev => e.power.unretained = d.power.unretained) rfl (Dev.raise_unretained _ _ _ _)

theorem Dev.repairRow_selfRefresh (d : Dev) (row : Nat) : (d.repairRow row).ddr.selfRefresh = d.ddr.selfRefresh :=
  ite_both (P := fun e : Dev => e.ddr.selfRefresh = d.ddr.selfRefresh) rfl (congrArg (·.selfRefresh) (Dev.raise_ddr _ _ _ _))

theorem Dev.repairRows_unretained (d : Dev) : d.repairRows.power.unretained = d.power.unretained :=
  foldl_keeps (g := fun d : Dev => d.power.unretained) (fun d row => d.repairRow_unretained row) _ d

theorem Dev.repairRows_selfRefresh (d : Dev) : d.repairRows.ddr.selfRefresh = d.ddr.selfRefresh :=
  foldl_keeps (g := fun d : Dev => d.ddr.selfRefresh) (fun d row => d.repairRow_selfRefresh row) _ d

theorem Dev.abortTransfer_unretained (d : Dev) (x : Transfer) : (d.abortTransfer x).power.unretained = d.power.unretained := by
  refine ite_both (P := fun e : Dev => e.power.unretained = d.power.unretained) rfl ?_
  rw [Dev.raise_unretained, apply_ite Dev.power, (Dev.dropLoad_frame _).power (by decide), ite_self]

theorem Dev.endTransfers_unretained (d : Dev) : d.endTransfers.power.unretained = d.power.unretained :=
  foldl_keeps (g := fun d : Dev => d.power.unretained) (fun d x => d.abortTransfer_unretained x) _ d

/-- A leg that reaches its target ends the transition. -/
theorem Dev.reach_arrived {d : Dev} {st : PowerState} (h : d.power.target = some st) :
    (d.reach st).arrived.power.unretained = { d.power with state := st, target := none }.unretained ∧
      Dev.Frame [.log, .dict, .prog, .palca, .power, .recd] d (d.reach st).arrived := by
  have hkeep : (d.reach st).power.unretained = { d.power with state := st }.unretained :=
    congrArg (fun p : Power => { p with state := st }) d.endTransfers_unretained
  obtain ⟨hstate, htarget, -⟩ := Power.fields_of_unretained hkeep
  have harrived : (d.reach st).arrived = (d.reach st).modPower (fun p => { p with target := none }) :=
    if_pos (by rw [htarget, hstate]; exact h)
  rw [harrived]
  exact ⟨congrArg (fun p : Power => { p with target := none }) hkeep, (d.reach_frame st).trans ((Dev.modPower_frame _ _).mono (by decide))⟩

/-- The core die powered, before its rows are repaired. -/
def Dev.coreBack (d : Dev) : Dev :=
  let good := d.enabledPods.filter (fun p => (d.pod p).state != .out)
  let d := d.modPower (fun p => { p with enCore := true })
  let d : Dev := { d with mem := d.mem.clearCore, ddr := { d.ddr with selfRefresh := false } }
  let d := d.restoreResident.placePods good
  match d.prog.prog with | some p => d.loadWindows p | none => d

theorem Dev.coreBack_power (d : Dev) : d.coreBack.power = { d.power with enCore := true } ∧ d.coreBack.ddr.selfRefresh = false := by
  unfold Dev.coreBack
  dsimp only
  split
  · rw [(Dev.loadWindows_frame _ _).power (by decide), (Dev.loadWindows_frame _ _).ddr (by decide), (Dev.placePods_frame _ _).power (by decide),
      (Dev.placePods_frame _ _).ddr (by decide), (Dev.restoreResident_frame _).power (by decide), (Dev.restoreResident_frame _).ddr (by decide)]
    exact ⟨rfl, rfl⟩
  · rw [(Dev.placePods_frame _ _).power (by decide), (Dev.placePods_frame _ _).ddr (by decide), (Dev.restoreResident_frame _).power (by decide),
      (Dev.restoreResident_frame _).ddr (by decide)]
    exact ⟨rfl, rfl⟩

theorem Dev.coreOn_power (d : Dev) : d.coreOn.power.unretained = { d.power with enCore := true }.unretained ∧ d.coreOn.ddr.selfRefresh = false := by
  obtain ⟨hpower, hddr⟩ := d.coreBack_power
  have h : d.coreOn = d.coreBack.repairRows := rfl
  rw [h, Dev.repairRows_unretained, Dev.repairRows_selfRefresh, hpower]
  exact ⟨rfl, hddr⟩

/-- The device with what outlives the core die's power saved. -/
def Dev.coreSaved (d : Dev) : Dev := d.saveCalib.journalReads.saveResident

/-- The core die's units as they lose their power. -/
def Dev.coreDark (d : Dev) : Dev := { d with
    pods := { d.pods with pods := d.enabledPods.foldl (fun m p => kmod Pod.reset m p Pod.unpowered) d.pods.pods, replace := none, due := none },
    movers := [], solvers := d.solvers.filterMap (fun x => if x.2.out then some (x.1, { Solver.reset with out := true }) else none),
    ddr := { d.ddr with selfRefresh := true } }

/-- The core rails go off, and what was granted to the core's units with them. -/
def Dev.coreRailsOff (d : Dev) : Dev :=
  d.modPower (fun p => { p with enCore := false, grants := [], clocks := [], droops := [], droopEpoch := false })

theorem Dev.coreOff_eq (d : Dev) : d.coreOff = d.coreSaved.coreDark.coreRailsOff := by
  unfold Dev.coreOff Dev.coreRailsOff Dev.coreDark Dev.coreSaved
  with_reducible rfl

theorem Dev.coreSaved_power (d : Dev) : d.coreSaved.power = d.power := by
  unfold Dev.coreSaved
  rw [(Dev.saveResident_frame _).power (by decide), (Dev.journalReads_frame _).power (by decide), (Dev.saveCalib_frame _).power (by decide)]

theorem Dev.coreDark_power (d : Dev) : d.coreDark.power = d.power := rfl

theorem Dev.coreDark_selfRefresh (d : Dev) : d.coreDark.ddr.selfRefresh = true := rfl

theorem Dev.coreOff_power (d : Dev) : d.coreOff.power =
    { d.power with enCore := false, grants := [], clocks := [], droops := [], droopEpoch := false } ∧ d.coreOff.ddr.selfRefresh = true := by
  rw [Dev.coreOff_eq]
  unfold Dev.coreRailsOff Dev.modPower
  dsimp only
  rw [Dev.coreDark_power, Dev.coreSaved_power]
  exact ⟨rfl, Dev.coreDark_selfRefresh _⟩

/-! ## Into and out of RUN -/

/-- What rescheduling a trigger leaves of a device that is up. -/
theorem Dev.scheduleTrig_power {d : Dev} (hup : d.up = true) (pin start : Nat) : (d.scheduleTrig pin start).power = d.power := by
  unfold Dev.scheduleTrig
  dsimp only
  split
  · exact ite_both (P := fun e : Dev => e.power = d.power) (Dev.raise_power hup _ _ _) rfl
  · rfl

theorem Dev.rescheduleTrigs_power {d : Dev} (hup : d.up = true) : d.rescheduleTrigs.power = d.power := by
  refine List.foldlRecOn (motive := fun e : Dev => e.power = d.power) _ _ rfl ?_
  intro e he pin _
  have hup' : e.up = true := by rw [Dev.up, he]; exact hup
  exact ite_both (P := fun e : Dev => e.power = d.power) ((Dev.scheduleTrig_power hup' _ _).trans he) he

/-- The device with its first instant set, before the trigger pins follow it. -/
def Dev.runBegun (d : Dev) : Dev :=
  let d := d.resetFusion.resetHull
  { d with
    cyc := { d.cyc with flight := [], next := some d.firstInstant, first := d.cyc.number.toNat + 1, stretch := none },
    sched := { d.sched with passes := [], idle := [], claims := [] },
    intake := { d.intake with deliv := [] } }

theorem Dev.firstInstant_kept {l : List Part} {a b : Dev} (h : Dev.Frame l a b) (htime : Part.time ∉ l) (hcfg : Part.dict ∉ l ∧ Part.code ∉ l) :
    b.firstInstant = a.firstInstant := by
  unfold Dev.firstInstant Dev.now Dev.period
  rw [h.time htime, h.cfg hcfg]

theorem Dev.runBegun_sets (d : Dev) : d.runBegun.cyc.next = some d.firstInstant ∧ d.runBegun.hull.g = 0 ∧ d.runBegun.hull.zones = 0 ∧
    d.runBegun.hull.pairTiers = [] ∧ d.runBegun.power = d.power := by
  have hframe : Dev.Frame [.fus, .kv, .hull] d d.resetFusion.resetHull :=
    (d.resetFusion_frame.mono (by decide)).trans (d.resetFusion.resetHull_frame.mono (by decide))
  exact ⟨congrArg some (Dev.firstInstant_kept hframe (by decide) (by decide)), rfl, rfl, rfl, hframe.power (by decide)⟩

theorem Dev.enterRun_sets {d : Dev} (hup : d.up = true) : d.enterRun.cyc.next = some d.firstInstant ∧ d.enterRun.hull.g = 0 ∧ d.enterRun.hull.zones = 0 ∧
    d.enterRun.hull.pairTiers = [] ∧ d.enterRun.power = d.power := by
  obtain ⟨hnext, hg, hzones, htiers, hpower⟩ := d.runBegun_sets
  have hup' : d.runBegun.up = true := by rw [Dev.up, hpower]; exact hup
  have h : d.enterRun = d.runBegun.rescheduleTrigs := rfl
  rw [h, Dev.rescheduleTrigs_power hup', d.runBegun.rescheduleTrigs_frame.cyc (by decide), d.runBegun.rescheduleTrigs_frame.hull (by decide)]
  exact ⟨hnext, hg, hzones, htiers, hpower⟩

/-- The Hull but for the status PDU's counting. -/
def Hull.shown (h : Hull) : Hull := { h with statusSeq := 0, statusTick := 0 }

theorem Dev.sendStatus_shown (d : Dev) : d.sendStatus.hull.shown = d.hull.shown := by
  unfold Dev.sendStatus
  split
  · rfl
  · refine (foldl_keeps (g := fun d : Dev => d.hull.shown) (fun d e => ?_) _ _).trans rfl
    exact foldl_keeps (g := fun d : Dev => d.hull.shown) (by intros; rfl) _ _

/-- The device as it leaves RUN: its outputs stopped. -/
def Dev.runLeft (d : Dev) (st : PowerState) : Dev := { d with
    power := { d.power with state := st },
    cyc := { d.cyc with next := none, flight := [] },
    hull := { d.hull with
      tier := 3, latch := true, stopCause := 0, rel := [0, 0, 0], pinA := false, pinB := false, offDone := [0, 1, 2, 3], offDelay := [] } }

theorem Dev.leaveRun_eq (d : Dev) (st : PowerState) : d.leaveRun st = if decide (d.hull.tier < 3) = true
    then (((d.runLeft st).sendCommand.occur 0x7000 0x10).sendDecision).sendStatus else (d.runLeft st).sendCommand := rfl

theorem Dev.leaveRun_shown (d : Dev) (st : PowerState) : (d.leaveRun st).hull.shown = (d.runLeft st).hull.shown := by
  rw [Dev.leaveRun_eq]
  refine ite_both (P := fun e : Dev => e.hull.shown = (d.runLeft st).hull.shown) ?_ (congrArg Hull.shown ((Dev.sendCommand_frame _).hull (by decide)))
  rw [Dev.sendStatus_shown, (Dev.sendDecision_frame _).hull (by decide), (Dev.occur_frame _ _ _).hull (by decide),
    (Dev.sendCommand_frame _).hull (by decide)]

theorem Dev.leaveRun_power (d : Dev) (st : PowerState) : (d.leaveRun st).power = { d.power with state := st } := by
  rw [Dev.leaveRun_eq]
  refine ite_both (P := fun e : Dev => e.power = { d.power with state := st }) ?_ ((Dev.sendCommand_frame _).power (by decide))
  rw [(Dev.sendStatus_frame _).power (by decide), (Dev.sendDecision_frame _).power (by decide), (Dev.occur_frame _ _ _).power (by decide),
    (Dev.sendCommand_frame _).power (by decide)]
  rfl

theorem Dev.leaveRun_stopped (d : Dev) (st : PowerState) : (d.leaveRun st).Stopped ∧ (d.leaveRun st).hull.stopCause = 0 := by
  have h := d.leaveRun_shown st
  exact ⟨⟨(congrArg Hull.tier h :), (congrArg Hull.latch h :), (congrArg Hull.pinA h :), (congrArg Hull.pinB h :)⟩, (congrArg Hull.stopCause h :)⟩

theorem Dev.toHusk_state (d : Dev) (causes : List Nat) (clean flush : Bool) : (d.toHusk causes clean flush).power.state = .husk := rfl

/-! ## The legs -/

section
variable {d : Dev} {t : PowerState} (htarget : d.power.target = some t) (hact : d.prog.activating = none)
include htarget hact

theorem stateTransitionComplete_standby (hstate : d.power.state = .standby) :
    stateTransitionComplete d = if t = .husk then d.toHusk [] true false else (d.coreOn.reach .ready).arrived := by
  unfold stateTransitionComplete
  simp only [htarget, hact, hstate]

theorem stateTransitionComplete_ready (hstate : d.power.state = .ready) :
    stateTransitionComplete d = if t = .run then d.legRun else if d.anyBusy then d else (d.coreOff.reach .standby).arrived := by
  unfold stateTransitionComplete
  simp only [htarget, hact, hstate]

theorem stateTransitionComplete_run (hstate : d.power.state = .run) : stateTransitionComplete d = d.legOutOfRun := by
  unfold stateTransitionComplete
  simp only [htarget, hact, hstate]
end

theorem stateTransitionComplete_idle {d : Dev} (h : d.power.target = none ∨ d.prog.activating.isSome = true) : stateTransitionComplete d = d := by
  unfold stateTransitionComplete
  split
  · rfl
  · rfl
  · rename_i htarget hact
    simp [htarget, hact] at h

theorem Dev.legRun_enters {d : Dev} (hnext : d.cyc.next = none) (hstep : d.start.step ≠ some 11) (hgood : d.runRefusal = none) :
    d.legRun = d.enterRun := by
  unfold Dev.legRun
  rw [if_neg (by simp [hnext, hstep]), hgood]

/-- The device out of RUN, its transition not ended yet. -/
def Dev.outOfRun (d : Dev) : Dev :=
  ((d.endTransfers).leaveRun .ready).repairRows.modStart (fun s => { s with step := if s.step = some 11 then none else s.step })

theorem Dev.legOutOfRun_idle {d : Dev} (hflight : d.cyc.flight = []) (hidle : d.anyBusy = false) : d.legOutOfRun = d.outOfRun.arrived :=
  if_pos ⟨hflight, hidle⟩

theorem Dev.outOfRun_power (d : Dev) : d.outOfRun.power.unretained = { d.power with state := .ready }.unretained := by
  have h : d.outOfRun.power.unretained = (d.endTransfers.leaveRun .ready).repairRows.power.unretained := rfl
  rw [h, Dev.repairRows_unretained, Dev.leaveRun_power]
  exact congrArg (fun p : Power => { p with state := .ready }) d.endTransfers_unretained

theorem Dev.outOfRun_hull (d : Dev) : d.outOfRun.hull = (d.endTransfers.leaveRun .ready).hull :=
  (Dev.repairRows_frame _).hull (by decide)

theorem Dev.arrived_ends {d : Dev} (h : d.power.target = some d.power.state) : d.arrived = d.modPower (fun p => { p with target := none }) := if_pos h

/-- Settles O43, leg by leg. -/
theorem stateTransitions : Obligations.StateTransitions := by
  unfold Obligations.StateTransitions
  refine ⟨?_, ?_, ?_, ?_, ?_, ?_⟩
  case refine_1 =>
    intro s hstate htarget hact
    refine ⟨_, rfl, ?_⟩
    beta_reduce
    rw [stateTransitionComplete_standby htarget hact hstate, if_pos rfl]
    exact Dev.toHusk_state _ _ _ _
  case refine_2 =>
    intro s hstate htarget hact
    refine ⟨_, rfl, ?_⟩
    beta_reduce
    rw [stateTransitionComplete_standby htarget hact hstate, if_neg (by decide)]
    obtain ⟨hpower, hddr⟩ := s.dev.coreOn_power
    obtain ⟨-, hkept, hcore⟩ := Power.fields_of_unretained hpower
    obtain ⟨hleg, hframe⟩ := Dev.reach_arrived (st := .ready) (hkept.trans htarget)
    obtain ⟨hst, htgt, hen⟩ := Power.fields_of_unretained hleg
    exact ⟨hst, htgt, hen.trans hcore, (congrArg (·.selfRefresh) (hframe.ddr (by decide))).trans hddr⟩
  case refine_3 =>
    intro s hstate htarget hact hidle
    refine ⟨_, rfl, ?_⟩
    beta_reduce
    rw [stateTransitionComplete_ready htarget hact hstate, if_neg (by decide), if_neg (by simp [hidle])]
    obtain ⟨hpower, hddr⟩ := s.dev.coreOff_power
    obtain ⟨hleg, hframe⟩ := Dev.reach_arrived (st := .standby) ((congrArg Power.target hpower).trans htarget)
    obtain ⟨hst, htgt, hen⟩ := Power.fields_of_unretained hleg
    exact ⟨hst, htgt, hen.trans (congrArg Power.enCore hpower), (congrArg (·.selfRefresh) (hframe.ddr (by decide))).trans hddr⟩
  case refine_4 =>
    intro s hstate htarget hnext hstep hgood hact
    refine ⟨_, rfl, ?_⟩
    beta_reduce
    rw [stateTransitionComplete_ready htarget hact hstate, if_pos rfl, Dev.legRun_enters hnext hstep hgood]
    exact Dev.enterRun_sets (by simp [Dev.up, hstate, PowerState.code])
  case refine_5 =>
    intro s hstate htarget hflight hact hidle
    refine ⟨_, rfl, ?_⟩
    beta_reduce
    obtain ⟨hst, htgt, -⟩ := Power.fields_of_unretained s.dev.outOfRun_power
    rw [stateTransitionComplete_run htarget hact hstate, Dev.legOutOfRun_idle hflight hidle,
      Dev.arrived_ends (htgt.trans (htarget.trans (congrArg some hst.symm)))]
    obtain ⟨hstopped, hcause⟩ := s.dev.endTransfers.leaveRun_stopped .ready
    rw [← Dev.outOfRun_hull] at hcause
    rw [Dev.Stopped, ← Dev.outOfRun_hull] at hstopped
    exact ⟨hst, rfl, hstopped, hcause⟩
  case refine_6 =>
    intro s h
    exact ⟨_, rfl, stateTransitionComplete_idle h⟩

end Sys2Proof.Machine

/-! PROOF. Writes with an effect of their own (R225, R237, R242, R405, R432, R433, R437). -/

namespace Sys2Proof.Machine
open Sys2Proof

/-! ## The rows of written objects -/

theorem rowOf_of_objRow {code idx sub : Nat} {row : DRow} (h : objRow code idx sub = some row) (hsub : sub ≠ 0) : rowOf idx sub = some row := by
  unfold objRow at h
  split at h
  · exact h
  · cases h

/-- A write that is taken names an object of the table. -/
theorem Dev.TakesWrite.row {d : Dev} {r : Req} {idx sub : Nat} {part : Bool} {payload : List Byte} {row : DRow}
    (h : d.TakesWrite r idx sub part payload) (hsub : sub ≠ 0) (hrow : rowOf idx sub = some row) : objRow d.code idx sub = some row := by
  obtain ⟨rt, -, -, hcheck⟩ := h
  unfold Dev.checkWrite at hcheck
  split at hcheck
  · cases hcheck
  · cases hobj : objRow d.code idx sub with
    | none => simp [hobj] at hcheck
    | some row' => exact (rowOf_of_objRow hobj hsub).symm.trans hrow

theorem rwpObj_of_row {code idx sub : Nat} {row : DRow} (h : objRow code idx sub = some row) : rwpObj code idx sub = decide (row.acc = .rwp) := by
  unfold rwpObj
  rw [h]

theorem wireValue_of_row {code idx sub : Nat} {row : DRow} (h : objRow code idx sub = some row) (payload : List Byte) :
    wireValue code idx sub payload = fromWire row.ty.count row.ty.width payload := by
  unfold wireValue
  rw [h]

theorem fromWire_byte (b : Byte) : fromWire 1 1 [b] = [b.toNat] := by
  have hvalue : beNat [b] = b.toNat := by simp [beNat, leNat]
  rw [← hvalue]
  exact fromWire_one rfl

/-- A taken write whose response waits for its journal entry. -/
theorem Dev.TakesWrite.awaits {d e : Dev} {r : Req} {idx sub : Nat} {part : Bool} {payload : List Byte} {own : List Nat → Dev → Dev × Reply}
    {x : Reply} (h : d.TakesWrite r idx sub part payload) (hown : own (wireValue d.code idx sub payload) d = (e, x))
    (hrwp : rwpObj e.code idx sub = true) (hseq : e.recd.jseq ≠ d.recd.jseq) (stays : Bool := false) :
    (d.writeWith r idx sub part payload own stays).Awaits r (contentOf 2 idx sub part 0 payload) (responseBytes r 2 idx sub part 0 x) ∧
      Dev.Frame [.palca] e (d.writeWith r idx sub part payload own stays) := by
  obtain ⟨rt, hserves, hev, hcheck⟩ := h
  exact Dev.writeWith_awaits hserves hev hcheck hown hrwp hseq

/-! ## Storing a value -/

/-- The device with a value stored, and journaled where its object persists. -/
def Dev.storedAs (d : Dev) (row : DRow) (idx sub : Nat) (v : List Nat) : Dev :=
  if row.acc = .rwp then (d.setObj idx sub v).persist (okey idx sub) v else d.setObj idx sub v

theorem Dev.put_of_row {d : Dev} {idx sub : Nat} {row : DRow} (hrow : objRow d.code idx sub = some row) (v : List Nat) :
    d.put idx sub v = if covered idx sub row then (d.storedAs row idx sub v).recomputeCrc else d.storedAs row idx sub v := by
  unfold Dev.put
  rw [hrow]
  rfl

theorem Dev.storedAs_cfgList (d : Dev) (row : DRow) (idx sub : Nat) {v : List Nat} (hv : v ≠ []) : (d.storedAs row idx sub v).cfgList idx sub = v := by
  have hset : (d.setObj idx sub v).cfgList idx sub = v := Dev.setObj_cfgList _ _ _ hv
  exact ite_both (P := fun e : Dev => e.cfgList idx sub = v) (((Dev.persist_frame _ _ _).cfgList (by decide) _ _).trans hset) hset

/-- A stored value is read back; the configuration CRC's own entry alone is computed. -/
theorem Dev.put_cfgList {d : Dev} {idx sub : Nat} {row : DRow} {v : List Nat} (hrow : objRow d.code idx sub = some row) (hv : v ≠ [])
    (hcrc : okey idx sub ≠ okey 0x7000 1) : (d.put idx sub v).cfgList idx sub = v := by
  rw [Dev.put_of_row hrow]
  refine ite_both (P := fun e : Dev => e.cfgList idx sub = v) ?_ (d.storedAs_cfgList row idx sub hv)
  exact (Dev.setObj_cfgList_other _ _ hcrc).trans (d.storedAs_cfgList row idx sub hv)

theorem Dev.storedAs_jseq (d : Dev) {row : DRow} (idx sub : Nat) (v : List Nat) (hacc : row.acc = .rwp) :
    (d.storedAs row idx sub v).recd.jseq ≠ d.recd.jseq := by
  have h : d.storedAs row idx sub v = (d.setObj idx sub v).journal .store (okey idx sub) v := if_pos hacc
  rw [h, Dev.journal_jseq]
  exact succ_jseq_ne d.recd.jseq

theorem Dev.put_jseq {d : Dev} {idx sub : Nat} {row : DRow} (hrow : objRow d.code idx sub = some row) (hacc : row.acc = .rwp) (v : List Nat) :
    (d.put idx sub v).recd.jseq ≠ d.recd.jseq := by
  rw [Dev.put_of_row hrow]
  exact ite_both (P := fun e : Dev => e.recd.jseq ≠ d.recd.jseq) (d.storedAs_jseq idx sub v hacc) (d.storedAs_jseq idx sub v hacc)

/-! ## Restoring the defaults -/

theorem kget_of_not_mem {α : Type} {z : α} {k : Nat} : ∀ {m : Store α}, k ∉ m.map Prod.fst → kget z m k = z
  | [], _ => rfl
  | e :: m, h => by
    obtain ⟨hne, hm⟩ := not_or.1 (fun hm => h (List.mem_cons.2 hm))
    exact (if_neg (Ne.symm hne)).trans (kget_of_not_mem hm)

theorem Dev.restoreObj_code (d : Dev) (k : Nat) : (d.restoreObj k).code = d.code := by
  unfold Dev.restoreObj
  split
  · refine ite_both (P := fun e : Dev => e.code = d.code) ?_ rfl
    exact ite_both (P := fun e : Dev => e.code = d.code) ((Dev.persist_frame _ _ _).code (by decide)) rfl
  · rfl

theorem Dev.restoreObj_other (d : Dev) {j k : Nat} (h : k ≠ j) : kget [] (d.restoreObj j).dict.vals k = kget [] d.dict.vals k := by
  unfold Dev.restoreObj
  split
  · refine ite_both (P := fun e : Dev => kget [] e.dict.vals k = _) ?_ rfl
    refine ite_both (P := fun e : Dev => kget [] e.dict.vals k = _) ?_ (kget_kset_other h)
    rw [(Dev.persist_frame _ _ _).dict (by decide)]
    exact kget_kset_other h
  · rfl

/-- The objects that a restore of the defaults empties. -/
def restorable (code k : Nat) : Prop :=
  ∃ row, objRow code (k / 256) (k % 256) = some row ∧ (row.acc = .rwr ∨ row.acc = .rwp) ∧ row.dflt ≠ .package ∧ keepsValue (k / 256) (k % 256) = false

theorem Dev.restoreObj_empty {d : Dev} {k : Nat} (h : restorable d.code k) : kget [] (d.restoreObj k).dict.vals k = [] := by
  obtain ⟨row, hrow, hacc, hdflt, hkeeps⟩ := h
  unfold Dev.restoreObj
  simp only [hrow]
  rw [if_pos ⟨hacc, hkeeps⟩]
  refine ite_both (P := fun e : Dev => kget [] e.dict.vals k = []) ?_ ?_
  · rw [(Dev.persist_frame _ _ _).dict (by decide), kget_kset_same, if_neg hdflt]
  · rw [kget_kset_same, if_neg hdflt]

theorem Dev.restored_empty {k : Nat} : ∀ (l : List Nat) (d : Dev), restorable d.code k → (k ∈ l ∨ kget [] d.dict.vals k = []) →
    kget [] (l.foldl Dev.restoreObj d).dict.vals k = []
  | [], _, _, h => h.resolve_left List.not_mem_nil
  | j :: l, d, hk, h => by
    refine Dev.restored_empty l (d.restoreObj j) (by rw [Dev.restoreObj_code]; exact hk) ?_
    by_cases hj : k = j
    · exact Or.inr (hj ▸ Dev.restoreObj_empty hk)
    · rw [Dev.restoreObj_other d hj]
      exact h.imp_left (fun h => (List.mem_cons.1 h).resolve_left hj)

theorem Dev.slotFault_vals (d : Dev) (n cause : Nat) : (d.slotFault n cause).dict.vals = d.dict.vals := by
  refine ite_both (P := fun e : Dev => e.dict.vals = d.dict.vals) rfl ?_
  exact ite_both (P := fun e : Dev => e.dict.vals = d.dict.vals) (q := (d.slot n).state = .fault) rfl rfl

theorem Dev.syncSlot_vals (d : Dev) (n : Nat) : (d.syncSlot n).dict.vals = d.dict.vals := by
  refine ite_both (P := fun e : Dev => e.dict.vals = d.dict.vals) rfl ?_
  refine ite_both (P := fun e : Dev => e.dict.vals = d.dict.vals) ?_ rfl
  exact ite_both (P := fun e : Dev => e.dict.vals = d.dict.vals) (Dev.slotFault_vals _ _ _) rfl

theorem Dev.scheduleTrig_vals (d : Dev) (pin start : Nat) : (d.scheduleTrig pin start).dict.vals = d.dict.vals := by
  unfold Dev.scheduleTrig
  dsimp only
  split
  · exact ite_both (P := fun e : Dev => e.dict.vals = d.dict.vals) (Dev.raise_vals _ _ _ _) rfl
  · rfl

theorem Dev.adoptTrigs_vals (d : Dev) : d.adoptTrigs.dict.vals = d.dict.vals := by
  refine ite_both (P := fun e : Dev => e.dict.vals = d.dict.vals) ?_ rfl
  refine foldl_keeps (g := fun d : Dev => d.dict.vals) (fun d pin => ?_) _ d
  refine ite_both (P := fun e : Dev => e.dict.vals = d.dict.vals) rfl ?_
  exact ite_both (P := fun e : Dev => e.dict.vals = d.dict.vals) (Dev.scheduleTrig_vals _ _ _) rfl

theorem Dev.enterAbsent_vals (d : Dev) (x : Dom) : (d.enterAbsent x).dict.vals = d.dict.vals := by
  unfold Dev.enterAbsent
  rw [Dev.raise_vals, Dev.occur_vals, Dev.setDom_dict]

theorem Dev.syncDomain_vals (d : Dev) (x : Dom) : (d.syncDomain x).dict.vals = d.dict.vals := by
  refine ite_both (P := fun e : Dev => e.dict.vals = d.dict.vals) (congrArg Dict.vals (Dev.setDom_dict _ _ _)) ?_
  exact ite_both (P := fun e : Dev => e.dict.vals = d.dict.vals) (Dev.enterAbsent_vals _ _) rfl

/-- What follows a written value changes no value. -/
theorem Dev.wrote_vals (d : Dev) (idx sub : Nat) : (d.wrote idx sub).dict.vals = d.dict.vals := by
  unfold Dev.wrote
  split_ifs
  · exact Dev.syncSlot_vals _ _
  · rfl
  · exact Dev.adoptTrigs_vals _
  · exact Dev.syncDomain_vals _ _
  · exact Dev.syncDomain_vals _ _
  · rfl
  · rfl
  · rfl
  · rfl

theorem Dev.wrote_code (d : Dev) (idx sub : Nat) : (d.wrote idx sub).code = d.code := by
  unfold Dev.wrote
  split_ifs
  · exact (Dev.syncSlot_frame _ _).code (by decide)
  · rfl
  · exact (Dev.adoptTrigs_frame _).code (by decide)
  · exact (Dev.syncDomain_frame _ _).code (by decide)
  · exact (Dev.syncDomain_frame _ _).code (by decide)
  · rfl
  · rfl
  · rfl
  · rfl

/-- The keys whose objects a restore visits. -/
def Dev.restoreKeys (d : Dev) : List Nat :=
  (d.dict.vals.map Prod.fst ++ d.persistedAll.map Prod.fst ++
    match d.prog.prog with | some p => (p.defaults ++ p.streamMap).map Prod.fst | none => []).eraseDups

/-- The device with its slots on their restored values. -/
def Dev.slotsRestored (d : Dev) : Dev :=
  (List.range (slotsOf (d.restoreKeys.foldl Dev.restoreObj d).code)).foldl (fun (d : Dev) n => d.wrote (0x3000 + n) 1)
    (d.restoreKeys.foldl Dev.restoreObj d)

/-- The device just before the configuration CRC is computed anew. -/
def Dev.beforeCrc (d : Dev) : Dev := ((((d.slotsRestored.wrote 0x5010 2).syncDomain .a).syncDomain .b).adoptTrigs).sendCommand

/-- The device with all that follows the restored values. -/
def Dev.restored (d : Dev) : Dev := d.beforeCrc.recomputeCrc

theorem Dev.recomputeCrc_code (d : Dev) : d.recomputeCrc.code = d.code := rfl

theorem Dev.slotsRestored_vals (d : Dev) : d.slotsRestored.dict.vals = (d.restoreKeys.foldl Dev.restoreObj d).dict.vals :=
  foldl_keeps (f := fun (d : Dev) n => d.wrote (0x3000 + n) 1) (g := fun d : Dev => d.dict.vals) (fun d _ => d.wrote_vals _ _) _ _

theorem Dev.slotsRestored_code (d : Dev) : d.slotsRestored.code = d.code :=
  (foldl_keeps (f := fun (d : Dev) n => d.wrote (0x3000 + n) 1) (g := Dev.code) (fun d _ => d.wrote_code _ _) _ _).trans
    (foldl_keeps (g := Dev.code) (fun d k => d.restoreObj_code k) _ d)

theorem Dev.beforeCrc_code (d : Dev) : d.beforeCrc.code = d.code := by
  unfold Dev.beforeCrc
  rw [(Dev.sendCommand_frame _).code (by decide), (Dev.adoptTrigs_frame _).code (by decide), (Dev.syncDomain_frame _ _).code (by decide),
    (Dev.syncDomain_frame _ _).code (by decide), Dev.wrote_code, Dev.slotsRestored_code]

theorem Dev.beforeCrc_cfgList (d : Dev) (i j : Nat) : d.beforeCrc.cfgList i j = d.slotsRestored.cfgList i j := by
  refine Dev.cfgList_of_vals ?_ (d.beforeCrc_code.trans d.slotsRestored_code.symm) i j
  unfold Dev.beforeCrc
  rw [(Dev.sendCommand_frame _).dict (by decide), Dev.adoptTrigs_vals, Dev.syncDomain_vals, Dev.syncDomain_vals, Dev.wrote_vals]

theorem Dev.restored_code (d : Dev) : d.restored.code = d.code := by
  unfold Dev.restored
  rw [Dev.recomputeCrc_code, Dev.beforeCrc_code]

/-- The device that a restore leaves, where a conflict of sources is reported. -/
def Dev.restoredReported (d : Dev) : Dev := d.restored.raiseIf d.restored.sourceConflict 0x0201 0 0

theorem Dev.restoredReported_code (d : Dev) : d.restoredReported.code = d.code := by
  unfold Dev.restoredReported
  rw [(Dev.raiseIf_frame _ _ _ _ _).code (by decide), Dev.restored_code]

theorem Dev.restoredReported_cfgList (d : Dev) (i j : Nat) : d.restoredReported.cfgList i j = d.restored.cfgList i j := by
  unfold Dev.restoredReported Dev.raiseIf
  split
  · exact Dev.cfgList_of_vals (Dev.raise_vals _ _ _ _) (Dev.raise_code _ _ _ _) i j
  · rfl

theorem writeRestore_ready {d : Dev} (hready : d.inReady = true) (v : List Nat) :
    writeRestore v d = (d.restoredReported, .good []) := by
  unfold writeRestore
  rw [if_neg (by simp [hready])]
  rfl

theorem okey_places (idx : Nat) {sub : Nat} (h : sub < 256) : okey idx sub / 256 = idx ∧ okey idx sub % 256 = sub := by
  unfold okey
  omega

theorem Dev.restored_default {d : Dev} {idx sub : Nat} {row : DRow} (hsub : sub < 256) (hrow : objRow d.code idx sub = some row)
    (hacc : row.acc = .rwr ∨ row.acc = .rwp) (hdflt : row.dflt ≠ .package) (hkeeps : keepsValue idx sub = false) :
    d.restored.cfgList idx sub = dfltVal d.code idx sub := by
  obtain ⟨hidx, hrest⟩ := okey_places idx hsub
  have hcrc : okey idx sub ≠ okey 0x7000 1 := by
    intro h
    obtain ⟨hidx', hsub'⟩ := okey_places 0x7000 (sub := 1) (by decide)
    obtain ⟨rfl, rfl⟩ : idx = 0x7000 ∧ sub = 1 := ⟨hidx.symm.trans (h ▸ hidx'), hrest.symm.trans (h ▸ hsub')⟩
    have hro : rowOf 0x7000 1 = some (dc 0x7000 0x7000 1 1 4 .ro) := by decide +kernel
    obtain rfl := Option.some.inj ((rowOf_of_objRow hrow (by decide)).symm.trans hro)
    exact hacc.elim (by decide) (by decide)
  have hk : restorable d.code (okey idx sub) := ⟨row, by rw [hidx, hrest]; exact hrow, hacc, hdflt, by rw [hidx, hrest]; exact hkeeps⟩
  have hempty : kget [] (d.restoreKeys.foldl Dev.restoreObj d).dict.vals (okey idx sub) = [] := by
    refine Dev.restored_empty _ d hk ?_
    by_cases hmem : okey idx sub ∈ d.dict.vals.map Prod.fst
    · exact Or.inl (List.mem_eraseDups.2 (List.mem_append_left _ (List.mem_append_left _ hmem)))
    · exact Or.inr (kget_of_not_mem hmem)
  rw [Dev.restored, Dev.recomputeCrc, Dev.setObj_cfgList_other _ _ hcrc, Dev.beforeCrc_cfgList, Dev.cfgList, Dev.slotsRestored_vals, hempty, if_pos rfl,
    Dev.slotsRestored_code]

/-! ## The other writes -/

theorem rowOf_restore : rowOf 0x2000 6 = some (dn 0x2000 0x2000 6 6 1 .wo 0 (.oneOf [1])) := by decide +kernel

theorem rowOf_unmask : ∀ n : Fin 16, rowOf 0x5203 (n.val + 1) = some (dn 0x5203 0x5203 1 0x10 1 .wo 0 (.oneOf [1])) := by decide +kernel

theorem rowOf_supply : ∀ n : Fin 16, rowOf 0x3300 (n.val + 1) = some (dn 0x3300 0x3300 1 0x10 1 .rwp 0 (.upTo 1)) := by decide +kernel

theorem rowOf_zero : ∀ n : Fin 16, rowOf (0x5100 + n.val) 0x0E = some (dn 0x5100 0x510F 0x0E 0x0E 1 .wo 0 (.oneOf [1])) := by decide +kernel

theorem rowOf_reference : ∀ n : Fin 16, ∀ sub ∈ [1, 2],
    rowOf (0x5100 + n.val) sub = some ⟨0x5100, 0x510F, 1, 2, .arr 3 4, .rwp, .list [0, 0, 0], .any⟩ := by decide +kernel

theorem rowOf_geometry : ∀ sub ∈ [2, 5, 6], ∃ row, rowOf 0x5010 sub = some row ∧ row.acc = .rwr ∧ row.ty.count ≠ 0 := by decide +kernel

theorem Dev.TakesWrite.wo {d : Dev} {r : Req} {idx sub : Nat} {part : Bool} {payload : List Byte} {row : DRow}
    (h : d.TakesWrite r idx sub part payload) (hsub : sub ≠ 0) (hrow : rowOf idx sub = some row) (hacc : row.acc ≠ .rwp) :
    rwpObj d.code idx sub = false := by
  rw [rwpObj_of_row (h.row hsub hrow), decide_eq_false hacc]

theorem fromWire_ne_nil {n : Nat} (hn : n ≠ 0) (w : Nat) (l : List Byte) : fromWire n w l ≠ [] := by
  cases n with
  | zero => exact absurd rfl hn
  | succ n => exact List.cons_ne_nil _ _

theorem okey_ne_crc {idx sub : Nat} (hsub : sub < 256) (hidx : idx ≠ 0x7000) : okey idx sub ≠ okey 0x7000 1 := by
  unfold okey
  omega

/-- The device with a slot's correction to be zero at the next commit. -/
def Dev.zeroAsked (d : Dev) (n : Nat) : Dev := { d with fus := { d.fus with zeroReq := sins n d.fus.zeroReq } }

/-- The device whose grid follows a new geometry at the next commit. -/
def Dev.geometryAsked (d : Dev) : Dev := { d with fus := { d.fus with geometry := true } }

theorem writeReference_zero (n : Nat) (v : List Nat) (d : Dev) : writeReference n 0x0E v d = (d.zeroAsked n, .good []) := rfl

theorem writeReference_put {sub : Nat} (h : sub ≠ 0x0E) (n : Nat) (v : List Nat) (d : Dev) :
    writeReference n sub v d = ((d.put (0x5100 + n) sub v).zeroAsked n, .good []) := by
  unfold writeReference
  rw [if_neg h]
  rfl

theorem Dev.put_code (d : Dev) (idx sub : Nat) (v : List Nat) : (d.put idx sub v).code = d.code := (Dev.put_frame _ _ _ _).code (by decide)

theorem Dev.zeroAsked_kept (d : Dev) (n : Nat) : (d.zeroAsked n).code = d.code ∧ (d.zeroAsked n).recd = d.recd ∧
    ∀ i j, (d.zeroAsked n).cfgList i j = d.cfgList i j := ⟨rfl, rfl, fun _ _ => rfl⟩

/-- A new reference is stored and journaled, and zeroes the correction. -/
theorem resetCorrection_reference {d : Dev} {r : Req} {n : Fin 16} {sub : Nat} {payload : List Byte} (hsub : sub = 1 ∨ sub = 2)
    (h : d.TakesWrite r (0x5100 + n.val) sub false payload) : n.val ∈ (resetCorrection r n.val sub payload d).fus.zeroReq ∧
      (resetCorrection r n.val sub payload d).cfgList (0x5100 + n.val) sub = wireValue d.code (0x5100 + n.val) sub payload ∧
      (resetCorrection r n.val sub payload d).Awaits r ([2, 0x5100 + n.val, sub, 0, 0] ++ byteNats payload)
        (responseBytes r 2 (0x5100 + n.val) sub false 0 (.good [])) := by
  have hrow := h.row (by omega) (rowOf_reference n sub (by simpa using hsub))
  have hv : wireValue d.code (0x5100 + n.val) sub payload ≠ [] := by
    rw [wireValue_of_row hrow]
    exact fromWire_ne_nil (by decide) _ _
  have hown := writeReference_put (sub := sub) (by omega) n.val (wireValue d.code (0x5100 + n.val) sub payload) d
  have hcmd : resetCorrection r n.val sub payload d = d.writeWith r (0x5100 + n.val) sub false payload (writeReference n.val sub) :=
    if_pos (by omega)
  obtain ⟨hcode, hrecd, hcfg⟩ := (d.put (0x5100 + n.val) sub (wireValue d.code (0x5100 + n.val) sub payload)).zeroAsked_kept n.val
  obtain ⟨hawaits, hframe⟩ := h.awaits (own := writeReference n.val sub) hown
    (by rw [hcode, Dev.put_code, rwpObj_of_row hrow]; rfl) (by rw [hrecd]; exact Dev.put_jseq hrow rfl _)
  rw [hcmd]
  refine ⟨?_, ?_, hawaits⟩
  · rw [hframe.fus (by decide)]
    exact mem_sins.2 (Or.inl rfl)
  · rw [hframe.cfgList (by decide), hcfg]
    exact Dev.put_cfgList hrow hv (okey_ne_crc (by omega) (by omega))

theorem resetCorrection_zero {d : Dev} {r : Req} {n : Fin 16} {payload : List Byte} (h : d.TakesWrite r (0x5100 + n.val) 0x0E false payload) :
    n.val ∈ (resetCorrection r n.val 0x0E payload d).fus.zeroReq ∧
      (resetCorrection r n.val 0x0E payload d).Answered r (responseBytes r 2 (0x5100 + n.val) 0x0E false 0 (.good [])) := by
  have hcmd : resetCorrection r n.val 0x0E payload d = d.writeWith r (0x5100 + n.val) 0x0E false payload (writeReference n.val 0x0E) :=
    if_pos (by decide)
  obtain ⟨hanswer, hframe⟩ := h.answered (own := writeReference n.val 0x0E) (writeReference_zero _ _ _)
    (Or.inl (h.wo (by decide) (rowOf_zero n) (by decide)))
  rw [hcmd]
  refine ⟨?_, hanswer⟩
  rw [hframe.fus (by decide)]
  exact mem_sins.2 (Or.inl rfl)

theorem gridGeometryWrite_taken {d : Dev} {r : Req} {sub : Nat} {payload : List Byte} (hsub : sub = 2 ∨ sub = 5 ∨ sub = 6)
    (h : d.TakesWrite r 0x5010 sub false payload) : (gridGeometryWrite r sub payload d).fus.geometry = true ∧
      (gridGeometryWrite r sub payload d).cfgList 0x5010 sub = wireValue d.code 0x5010 sub payload ∧
      (gridGeometryWrite r sub payload d).Answered r (responseBytes r 2 0x5010 sub false 0 (.good [])) := by
  obtain ⟨row, htable, hacc, hcount⟩ := rowOf_geometry sub (by simpa using hsub)
  have hrow := h.row (by omega) htable
  have hv : wireValue d.code 0x5010 sub payload ≠ [] := by
    rw [wireValue_of_row hrow]
    exact fromWire_ne_nil hcount _ _
  have hown : writeGeometry sub (wireValue d.code 0x5010 sub payload) d =
    ((d.put 0x5010 sub (wireValue d.code 0x5010 sub payload)).geometryAsked, .good []) := rfl
  have hcmd : gridGeometryWrite r sub payload d = d.writeWith r 0x5010 sub false payload (writeGeometry sub) := if_pos hsub
  have hnow : rwpObj (d.put 0x5010 sub (wireValue d.code 0x5010 sub payload)).geometryAsked.code 0x5010 sub = false := by
    rw [show (d.put 0x5010 sub (wireValue d.code 0x5010 sub payload)).geometryAsked.code = _ from Dev.put_code _ _ _ _, rwpObj_of_row hrow, hacc]
    rfl
  obtain ⟨hanswer, hframe⟩ := h.answered (own := writeGeometry sub) hown (Or.inl hnow)
  rw [hcmd]
  refine ⟨by rw [hframe.fus (by decide)]; rfl, ?_, hanswer⟩
  rw [hframe.cfgList (by decide)]
  exact Dev.put_cfgList hrow hv (okey_ne_crc (by omega) (by decide))

theorem supplyEnable_taken {d : Dev} {r : Req} {n : Fin 16} {v : Byte} (h : d.TakesWrite r 0x3300 (n.val + 1) false [v]) :
    (supplyEnable r n.val v d).cfg 0x3300 (n.val + 1) = v.toNat ∧ (supplyEnable r n.val v d).Awaits r [2, 0x3300, n.val + 1, 0, 0, v.toNat]
      (responseBytes r 2 0x3300 (n.val + 1) false 0 (.good [])) := by
  have hrow := h.row (by omega) (rowOf_supply n)
  have hvalue : wireValue d.code 0x3300 (n.val + 1) [v] = [v.toNat] := (wireValue_of_row hrow _).trans (fromWire_byte v)
  have hown : writeSupply n.val (wireValue d.code 0x3300 (n.val + 1) [v]) d = ((d.put 0x3300 (n.val + 1) [v.toNat]).sendCommand, .good []) := by
    rw [hvalue]
    rfl
  have hsent := (d.put 0x3300 (n.val + 1) [v.toNat]).sendCommand_frame
  obtain ⟨hawaits, hframe⟩ := h.awaits (own := writeSupply n.val) hown
    (by rw [hsent.code (by decide), Dev.put_code, rwpObj_of_row hrow]; rfl) (by rw [hsent.recd (by decide)]; exact Dev.put_jseq hrow rfl _)
  refine ⟨?_, hawaits⟩
  rw [supplyEnable, Dev.cfg, hframe.cfgList (by decide), hsent.cfgList (by decide),
    Dev.put_cfgList hrow (List.cons_ne_nil _ _) (okey_ne_crc (by omega) (by decide))]
  rfl

theorem unmaskRequest_answered {d e : Dev} {r : Req} {n : Fin 16} {v : Byte} {x : Reply} (h : d.TakesWrite r 0x5203 (n.val + 1) false [v])
    (hx : writeUnmask n.val d = (e, x)) (hcode : e.code = d.code) :
    (unmaskRequest r n.val v d).Answered r (responseBytes r 2 0x5203 (n.val + 1) false 0 x) ∧
      Dev.Frame [.palca, .out] e (unmaskRequest r n.val v d) :=
  h.answered (own := fun _ => writeUnmask n.val) hx (Or.inl (hcode ▸ h.wo (by omega) (rowOf_unmask n) (by decide)))

/-- Settles O44, write by write. -/
theorem ownWrites : Obligations.OwnWrites := by
  unfold Obligations.OwnWrites
  refine ⟨?_, ?_, ?_, ?_, ?_, ?_, ?_⟩
  case refine_1 =>
    intro s r v h
    refine ⟨_, rfl, ?_⟩
    beta_reduce
    rw [show resetRequest r false [v] s.dev = _ from if_pos h]
    exact ⟨rfl, rfl, rfl⟩
  case refine_2 =>
    intro s r v h hready
    obtain ⟨hanswer, hframe⟩ := h.answered (own := writeRestore) (writeRestore_ready hready _) 
      (Or.inl (by rw [Dev.restoredReported_code]; exact h.wo (by decide) rowOf_restore (by decide)))
    refine ⟨_, rfl, hanswer, fun idx sub row hsub hrow hacc hdflt hkeeps => ?_⟩
    rw [restoreDefaults, hframe.cfgList (by decide), Dev.restoredReported_cfgList]
    exact Dev.restored_default hsub hrow hacc hdflt hkeeps
  case refine_3 =>
    intro s r n v h
    refine ⟨_, rfl, ?_⟩
    beta_reduce
    split
    · rename_i hearned
      obtain ⟨hanswer, hframe⟩ := unmaskRequest_answered h (show writeUnmask n.val s.dev = _ from if_pos hearned) rfl
      refine ⟨?_, hanswer⟩
      rw [hframe.fus (by decide)]
      exact mem_sins.2 (Or.inl rfl)
    · rename_i hnot
      obtain ⟨hanswer, hframe⟩ := unmaskRequest_answered h (show writeUnmask n.val s.dev = _ from if_neg hnot) (Dev.raise_code _ _ _ _)
      refine ⟨?_, (hframe.reports (by decide) _ _).2 (Dev.raise_reports h.up _ _ _), hanswer⟩
      rw [hframe.fus (by decide), Dev.raise_fus]
  case refine_4 =>
    intro s r n sub payload hsub h
    refine ⟨_, rfl, ?_⟩
    beta_reduce
    by_cases hzero : sub = 0x0E
    · subst hzero
      obtain ⟨hreq, hanswer⟩ := resetCorrection_zero h
      exact ⟨hreq, fun _ => hanswer, fun hne => absurd rfl hne⟩
    · have hnat : sub.toNat = 1 ∨ sub.toNat = 2 := by
        rcases hsub with rfl | rfl | rfl
        · exact Or.inl rfl
        · exact Or.inr rfl
        · exact absurd rfl hzero
      obtain ⟨hreq, hcfg, hawaits⟩ := resetCorrection_reference hnat h
      exact ⟨hreq, fun h => absurd h hzero, fun _ => ⟨hcfg, hawaits⟩⟩
  case refine_5 =>
    intro s r sub payload hsub h
    refine ⟨_, rfl, gridGeometryWrite_taken ?_ h⟩
    rcases hsub with rfl | rfl | rfl <;> decide
  case refine_6 =>
    intro s hup hdue
    refine ⟨_, rfl, ?_⟩
    beta_reduce
    rw [show calibrationPersist s.dev = _ from if_pos ⟨hup, hdue⟩]
    exact ⟨rfl, rfl⟩
  case refine_7 =>
    exact fun s r n v h => ⟨_, rfl, supplyEnable_taken h⟩

end Sys2Proof.Machine

/-! PROOF. Program packages (R183, R186 to R190). -/

namespace Sys2Proof.Machine
open Sys2Proof

/-- A raised cause starts no journal entry. -/
theorem Dev.raise_jseq (d : Dev) (c i x : Nat) : (d.raise c i x).recd.jseq = d.recd.jseq := by
  have hlog : (d.logFault c i x).recd.jseq = d.recd.jseq := by
    unfold Dev.logFault
    dsimp only
    split
    · exact ite_both (P := fun e : Dev => e.recd.jseq = d.recd.jseq) rfl rfl
    · rfl
  unfold Dev.raise
  split
  · rw [(Dev.occurAll_frame _ _).recd (by decide), hlog]
  · rfl

theorem leNat_leBytes : ∀ n v : Nat, leNat (leBytes n v) = v % 256 ^ n
  | 0, v => by simp [leBytes, leNat, Nat.mod_one]
  | n + 1, v => by
    rw [leBytes, leNat, leNat_leBytes n, BitVec.toNat_ofNat, Nat.pow_succ' (m := 256), Nat.mod_mul]

theorem length_leBytes : ∀ n v : Nat, (leBytes n v).length = n
  | 0, _ => rfl
  | n + 1, _ => congrArg Nat.succ (length_leBytes n _)

theorem beNat_beBytes (n v : Nat) : beNat (beBytes n v) = v % 256 ^ n := by
  rw [beNat, beBytes, List.reverse_reverse, leNat_leBytes]

theorem length_beBytes (n v : Nat) : (beBytes n v).length = n := by
  rw [beBytes, List.length_reverse, length_leBytes]

theorem rowOf_loadSlot : rowOf 0xC010 1 = some (dn 0xC010 0xC010 1 1 1 .wo 0) := by decide +kernel

theorem rowOf_activate : rowOf 0xC000 4 = some (dn 0xC000 0xC000 4 4 1 .wo 0) := by decide +kernel

theorem rowOf_confirm : rowOf 0xC000 5 = some (dn 0xC000 0xC000 5 5 1 .wo 0) := by decide +kernel

theorem rowOf_secVersion : rowOf 0xC000 7 = some (dn 0xC000 0xC000 7 7 4 .rwp 0) := by decide +kernel

/-- A taken write of one byte into an object that cannot be read: answered as its own rule says, of the byte itself. -/
theorem Dev.TakesWrite.byte {d e : Dev} {r : Req} {idx sub : Nat} {part : Bool} {b : Byte} {own : List Nat → Dev → Dev × Reply} {x : Reply} {row : DRow}
    (h : d.TakesWrite r idx sub part [b]) (hsub : sub ≠ 0) (hrow : rowOf idx sub = some row) (hty : row.ty = .num 1) (hacc : row.acc ≠ .rwp)
    (hown : own [b.toNat] d = (e, x)) (hcode : e.code = d.code) :
    (d.writeWith r idx sub part [b] own).Answered r (responseBytes r 2 idx sub part 0 x) ∧
      Dev.Frame [.palca, .out] e (d.writeWith r idx sub part [b] own) := by
  have hvalue : wireValue d.code idx sub [b] = [b.toNat] := by
    rw [wireValue_of_row (h.row hsub hrow), hty]
    exact fromWire_byte b
  exact h.answered (by rw [hvalue, hown]) (Or.inl (hcode ▸ h.wo hsub hrow hacc))

theorem Dev.pkgRefused_of_write {d e : Dev} {r : Req} {idx sub : Nat} {part : Bool} (hup : d.up = true)
    (h : e.Answered r (responseBytes r 2 idx sub part 0 (.cause 0x0F4B)) ∧ Dev.Frame [.palca, .out] (d.raise 0x0F4B 0 0) e) :
    e.prog = d.prog ∧ e.Reports 0x0F4B 0 ∧ e.Answered r (responseBytes r 2 idx sub part 0 (.cause 0x0F4B)) := by
  obtain ⟨hanswer, hframe⟩ := h
  exact ⟨(hframe.prog (by decide)).trans (Dev.raise_prog _ _ _ _), (hframe.reports (by decide) _ _).2 (Dev.raise_reports hup _ _ _), hanswer⟩

theorem Dev.pkgSlot_modPkgSlot (d : Dev) (s : Nat) (f : PkgSlot → PkgSlot) : (d.modPkgSlot s f).pkgSlot s = f (d.pkgSlot s) := kget_kmod_same

/-! ## Loading -/

theorem loadSlot_answered {d e : Dev} {r : Req} {v : Byte} {x : Reply} (h : d.TakesWrite r 0xC010 1 false [v])
    (hx : writeLoadSlot [v.toNat] d = (e, x)) (hcode : e.code = d.code) :
    (loadSlot r v d).Answered r (responseBytes r 2 0xC010 1 false 0 x) ∧ Dev.Frame [.palca, .out] e (loadSlot r v d) :=
  h.byte (by decide) rowOf_loadSlot rfl (by decide) hx hcode

/-! ## Activating -/

/-- The device with an activation begun: no instant comes, and no transition to RUN is asked any more (R187). -/
def Dev.activationBegun (d : Dev) (s : Nat) : Dev :=
  ({ d with prog := { d.prog with activating := some s }, cyc := { d.cyc with next := none } } : Dev).modPower
    (fun p => { p with target := if p.target = some .run then none else p.target })

theorem activate_answered {d e : Dev} {r : Req} {v : Byte} {x : Reply} (h : d.TakesWrite r 0xC000 4 false [v])
    (hx : writeActivate [v.toNat] d = (e, x)) (hcode : e.code = d.code) :
    (activate r v d).Answered r (responseBytes r 2 0xC000 4 false 0 x) ∧ Dev.Frame [.palca, .out] e (activate r v d) :=
  h.byte (by decide) rowOf_activate rfl (by decide) hx hcode

/-- The device whose activation has come to its end, before the slot is looked at. -/
def Dev.activationEnded (d : Dev) : Dev := { d with prog := { d.prog with activating := none } }

theorem activationComplete_ready {d : Dev} {s : Nat} (hact : d.prog.activating = some s) (hready : d.inReady = true) :
    activationComplete d = if (d.activationEnded.activateSlot s).2 then (d.activationEnded.activateSlot s).1.markTrial s d.prog.active
      else (d.activationEnded.activateSlot s).1 := by
  have hend : ¬ d.activationEnded.inReady = false := by simp [show d.activationEnded.inReady = true from hready]
  unfold activationComplete
  rw [hact]
  exact if_neg hend

/-- The device once a package's sections and defaults are in force. -/
def Dev.inForceBy (d : Dev) (s : Nat) (p : Package) : Dev :=
  let e := p.defaults.foldl (fun (e : Dev) x => e.storeDefault (decide (d.prog.lastDigest ≠ some p.digest)) x) (d.loadPackage p)
  { e with prog := { e.prog with active := some s, lastDigest := some p.digest, committed := false } }

theorem Dev.activateSlot_passes {d : Dev} {s : Nat} {p : Package} (hpkg : (d.pkgSlot s).pkg = some p) (hcheck : d.pkgCheck p 9 = none) :
    d.activateSlot s = ((d.inForceBy s p).recomputeCrc.raiseIf (d.inForceBy s p).recomputeCrc.sourceConflict 0x0201 0 0, true) := by
  unfold Dev.activateSlot
  rw [hpkg]
  dsimp only
  rw [hcheck]
  rfl

theorem Dev.activateSlot_refuses {d : Dev} {s x : Nat} {p : Package} (hpkg : (d.pkgSlot s).pkg = some p) (hcheck : d.pkgCheck p 9 = some x) :
    d.activateSlot s = (d.refusePkg s x, false) := by
  unfold Dev.activateSlot
  rw [hpkg]
  dsimp only
  rw [hcheck]

/-- The device with a package's memory, tables and sync objects in place of what stood there. -/
def Dev.sectionsLoaded (d : Dev) (p : Package) : Dev :=
  let e := p.loads.foldl (fun e x => e.storeA none x.1 x.2) { d with prog := { d.prog with prog := some p } }
  { e with
    sched := { tables := p.tables.foldl (fun (m : Store (List (List Word))) (t : TableId × List (List Word)) => kset [] m (tableNo t.1) t.2) [], passes := [], idle := [], claims := [] },
    sync := { objs := [], waiters := [] },
    fus := { e.fus with copy0 := { e.fus.copy0 with bank := [], sols := [] }, copy1 := { e.fus.copy1 with bank := [], sols := [] } } }

/-- The device with what a package reports, and with its stream map. -/
def Dev.streamsMapped (d : Dev) (p : Package) : Dev :=
  p.streamMap.foldl (fun (e : Dev) x => e.setObj (x.1 / 256) (x.1 % 256) x.2) (((d.sectionsLoaded p).loadWindows p).reportPackage p)

theorem Dev.loadPackage_eq (d : Dev) (p : Package) : d.loadPackage p =
    if (d.streamsMapped p).prog.lastDigest = some p.digest then d.streamsMapped p else (d.streamsMapped p).emptyRings := rfl

theorem Dev.sectionsLoaded_prog (d : Dev) (p : Package) : (d.sectionsLoaded p).prog = { d.prog with prog := some p } :=
  foldl_keeps (f := fun (e : Dev) (x : Nat × List Byte) => e.storeA none x.1 x.2) (g := Dev.prog)
    (fun e x => (e.storeA_frame none x.1 x.2).prog (by decide)) p.loads { d with prog := { d.prog with prog := some p } }

theorem Dev.streamsMapped_prog (d : Dev) (p : Package) : (d.streamsMapped p).prog = { d.prog with prog := some p } := by
  refine (foldl_keeps (f := fun (e : Dev) (x : Nat × List Nat) => e.setObj (x.1 / 256) (x.1 % 256) x.2) (g := Dev.prog) (fun _ _ => rfl) _ _).trans ?_
  rw [(Dev.reportPackage_frame _ _).prog (by decide), (Dev.loadWindows_frame _ _).prog (by decide), Dev.sectionsLoaded_prog]

theorem Dev.loadPackage_prog (d : Dev) (p : Package) : (d.loadPackage p).prog = { d.prog with prog := some p } := by
  rw [Dev.loadPackage_eq]
  refine ite_both (P := fun e : Dev => e.prog = _) (d.streamsMapped_prog p) ?_
  rw [(Dev.emptyRings_frame _).prog (by decide), Dev.streamsMapped_prog]

theorem Dev.inForceBy_prog (d : Dev) (s : Nat) (p : Package) : (d.inForceBy s p).prog =
    { d.prog with prog := some p, active := some s, lastDigest := some p.digest, committed := false } := by
  have h := (foldl_keeps (f := fun (e : Dev) (x : Nat × List Nat) => e.storeDefault (decide (d.prog.lastDigest ≠ some p.digest)) x) (g := Dev.prog)
    (fun e x => (Dev.storeDefault_frame _ _ _).prog (by decide)) p.defaults (d.loadPackage p)).trans (d.loadPackage_prog p)
  exact congrArg (fun g : Programs => { g with active := some s, lastDigest := some p.digest, committed := false }) h

/-- A package's program unit with its new state: TRIAL, the one before it FALLBACK (R187). -/
theorem Dev.markTrial_sets (d : Dev) (s : Nat) (prev : Option Nat) : ((d.markTrial s prev).pkgSlot s).state = .trial ∧
    (d.markTrial s prev).prog.selTrial = some s ∧ (d.markTrial s prev).prog.activating = d.prog.activating ∧
    (d.markTrial s prev).prog.active = d.prog.active ∧ (d.markTrial s prev).prog.prog = d.prog.prog := by
  refine ⟨?_, rfl, rfl, rfl, rfl⟩
  exact congrArg PkgSlot.state (Dev.pkgSlot_modPkgSlot _ s (fun x => { x with state := .trial, cause := 0 }))

theorem activationComplete_passes {d : Dev} {s : Nat} {p : Package} (hact : d.prog.activating = some s) (hready : d.inReady = true)
    (hpkg : (d.pkgSlot s).pkg = some p) (hcheck : d.pkgCheck p 9 = none) :
    (activationComplete d).prog.activating = none ∧ (activationComplete d).prog.active = some s ∧ (activationComplete d).prog.prog = some p ∧
      ((activationComplete d).pkgSlot s).state = .trial ∧ (activationComplete d).prog.selTrial = some s := by
  have hslot := d.activationEnded.activateSlot_passes (s := s) (p := p) hpkg hcheck
  have hprog : (d.activationEnded.activateSlot s).1.prog =
      { d.activationEnded.prog with prog := some p, active := some s, lastDigest := some p.digest, committed := false } := by
    rw [hslot]
    exact ((Dev.raiseIf_frame _ _ _ _ _).prog (by decide)).trans (d.activationEnded.inForceBy_prog s p)
  obtain ⟨hstate, hsel, hended, hactive, hp⟩ := (d.activationEnded.activateSlot s).1.markTrial_sets s d.prog.active
  rw [activationComplete_ready hact hready, if_pos (by rw [hslot]), hended, hactive, hp, hprog]
  exact ⟨rfl, rfl, rfl, hstate, hsel⟩

/-- The device with a package refused, before the cause is reported. -/
def Dev.slotRefused (d : Dev) (s x : Nat) : Dev :=
  (d.modPkgSlot s (fun y => { y with state := .refused, cause := x })).raiseIf
    (match (d.pkgSlot s).pkg with | some p => x == 0x0F41 && !d.keyValid p.keySlot | none => false) 0x1102 s 0

theorem Dev.slotRefused_prog (d : Dev) (s x : Nat) :
    (d.slotRefused s x).prog = (d.modPkgSlot s (fun y => { y with state := .refused, cause := x })).prog :=
  (Dev.raiseIf_frame _ _ _ _ _).prog (by decide)

theorem Dev.refusePkg_prog (d : Dev) (s x : Nat) : (d.refusePkg s x).prog =
    (d.modPkgSlot s (fun y => { y with state := .refused, cause := x })).prog :=
  (Dev.raise_prog (d.slotRefused s x) _ _ _).trans (d.slotRefused_prog s x)

theorem Dev.refusePkg_reports {d : Dev} (hup : d.up = true) (s x : Nat) : (d.refusePkg s x).Reports x s := by
  have hup' : (d.slotRefused s x).up = true := (Dev.raiseIf_up _ _ _ _ _).trans hup
  exact Dev.raise_reports hup' x s 0

theorem Dev.up_of_inReady {d : Dev} (h : d.inReady = true) : d.up = true := by
  have hstate : d.power.state = .ready := of_decide_eq_true h
  simp [Dev.up, hstate, PowerState.code]

theorem activationComplete_refuses {d : Dev} {s x : Nat} {p : Package} (hact : d.prog.activating = some s) (hready : d.inReady = true)
    (hpkg : (d.pkgSlot s).pkg = some p) (hcheck : d.pkgCheck p 9 = some x) :
    (activationComplete d).prog.activating = none ∧ (activationComplete d).prog.active = d.prog.active ∧
      (activationComplete d).prog.prog = d.prog.prog ∧ ((activationComplete d).pkgSlot s).state = .refused ∧
      ((activationComplete d).pkgSlot s).cause = x ∧ (activationComplete d).Reports x s := by
  have hslot := d.activationEnded.activateSlot_refuses (s := s) (p := p) hpkg hcheck
  rw [activationComplete_ready hact hready, hslot, if_neg Bool.false_ne_true]
  have hprog := d.activationEnded.refusePkg_prog s x
  have hmark : (d.activationEnded.refusePkg s x).pkgSlot s = { d.activationEnded.pkgSlot s with state := .refused, cause := x } := by
    have h := Dev.pkgSlot_modPkgSlot d.activationEnded s (fun y => { y with state := .refused, cause := x })
    rwa [Dev.pkgSlot, ← hprog] at h
  dsimp only
  rw [hprog, hmark]
  exact ⟨rfl, rfl, rfl, rfl, rfl, Dev.refusePkg_reports (d := d.activationEnded) (Dev.up_of_inReady hready) s x⟩

/-! ## Confirming -/

/-- The device with the trial package confirmed. -/
def Dev.confirmed (d : Dev) (k : Nat) : Dev :=
  let e := d.modPkgSlot k (fun x => { x with state := .active })
  { e with prog := { e.prog with selActive := some k, selTrial := none } }

theorem writeConfirm_trial {d : Dev} {k : Nat} (htrial : d.prog.selTrial = some k) (hstate : (d.pkgSlot k).state = .trial)
    (hdone : d.prog.committed = true) : writeConfirm [1] d = (d.confirmed k, .good []) := by
  unfold writeConfirm
  rw [htrial]
  exact if_pos ⟨rfl, hstate, hdone⟩

theorem writeConfirm_refused {d : Dev} {v : Nat} (h : d.prog.committed = false ∨ v ≠ 1) : writeConfirm [v] d = d.pkgRefused := by
  unfold writeConfirm
  split
  · refine if_neg ?_
    rintro ⟨hv, -, hdone⟩
    rcases h with h | h
    · simp [h] at hdone
    · exact h hv
  · rfl

theorem confirm_answered {d e : Dev} {r : Req} {v : Byte} {x : Reply} (h : d.TakesWrite r 0xC000 5 false [v])
    (hx : writeConfirm [v.toNat] d = (e, x)) (hcode : e.code = d.code) :
    (confirm r v d).Answered r (responseBytes r 2 0xC000 5 false 0 x) ∧ Dev.Frame [.palca, .out] e (confirm r v d) :=
  h.byte (by decide) rowOf_confirm rfl (by decide) hx hcode

/-! ## The minimum security version -/

theorem wireValue_secVersion {d : Dev} {r : Req} {n : Nat} (hn : n < 2 ^ 32) (h : d.TakesWrite r 0xC000 7 false (beBytes 4 n)) :
    wireValue d.code 0xC000 7 (beBytes 4 n) = [n] := by
  have hvalue : beNat (beBytes 4 n) = n := (beNat_beBytes 4 n).trans (Nat.mod_eq_of_lt hn)
  rw [wireValue_of_row (h.row (by decide) rowOf_secVersion)]
  exact (fromWire_one (length_beBytes 4 n)).trans (congrArg (fun m => [m]) hvalue)

theorem minimumSecurityVersion_lower {d : Dev} {r : Req} {n : Nat} (hn : n < 2 ^ 32) (h : d.TakesWrite r 0xC000 7 false (beBytes 4 n))
    (hlow : n < d.cfg 0xC000 7) : (minimumSecurityVersion r n d).cfg 0xC000 7 = d.cfg 0xC000 7 ∧ (minimumSecurityVersion r n d).Reports 0x0F4B 0 ∧
      (minimumSecurityVersion r n d).Answered r (responseBytes r 2 0xC000 7 false 0 (.cause 0x0F4B)) := by
  have hown : writeSecVersion (wireValue d.code 0xC000 7 (beBytes 4 n)) d = (d.raise 0x0F4B 0 0, .cause 0x0F4B) := by
    rw [wireValue_secVersion hn h]
    exact if_pos hlow
  obtain ⟨hanswer, hframe⟩ := h.answered (own := writeSecVersion) hown (Or.inr (Dev.raise_jseq _ _ _ _))
  exact ⟨(hframe.cfg (by decide) _ _).trans (Dev.raise_cfg _ _ _ _ _ _), (hframe.reports (by decide) _ _).2 (Dev.raise_reports h.up _ _ _), hanswer⟩

theorem minimumSecurityVersion_raised {d : Dev} {r : Req} {n : Nat} (hn : n < 2 ^ 32) (h : d.TakesWrite r 0xC000 7 false (beBytes 4 n))
    (hhigh : ¬ n < d.cfg 0xC000 7) : (minimumSecurityVersion r n d).cfg 0xC000 7 = n ∧
      (minimumSecurityVersion r n d).Awaits r ([2, 0xC000, 7, 0, 0] ++ byteNats (beBytes 4 n)) (responseBytes r 2 0xC000 7 false 0 (.good [])) := by
  have hrow := h.row (by decide) rowOf_secVersion
  have hown : writeSecVersion (wireValue d.code 0xC000 7 (beBytes 4 n)) d = (d.put 0xC000 7 [n], .good []) := by
    rw [wireValue_secVersion hn h]
    exact if_neg hhigh
  obtain ⟨hawaits, hframe⟩ := h.awaits (own := writeSecVersion) hown (by rw [Dev.put_code, rwpObj_of_row hrow]; rfl) (Dev.put_jseq hrow rfl _)
  refine ⟨?_, hawaits⟩
  rw [minimumSecurityVersion, Dev.cfg, hframe.cfgList (by decide), Dev.put_cfgList hrow (List.cons_ne_nil _ _) (by decide)]
  rfl

/-- Settles O45, command by command. -/
theorem packages : Obligations.Packages := by
  unfold Obligations.Packages
  refine ⟨?_, ?_, ?_, ?_, ?_, ?_, ?_⟩
  case refine_1 =>
    intro s r v h
    refine ⟨_, rfl, ?_⟩
    beta_reduce
    split
    · rename_i hfits
      obtain ⟨hanswer, hframe⟩ := loadSlot_answered h (show writeLoadSlot [v.toNat] s.dev = _ from if_pos hfits) rfl
      exact ⟨congrArg Programs.loadSlot (hframe.prog (by decide)), hanswer⟩
    · rename_i hnot
      exact Dev.pkgRefused_of_write h.up (loadSlot_answered h (show writeLoadSlot [v.toNat] s.dev = _ from if_neg hnot) (Dev.raise_code _ _ _ _))
  case refine_2 =>
    intro s r v h
    refine ⟨_, rfl, ?_⟩
    beta_reduce
    split
    · rename_i hgood
      have hown : writeActivate [v.toNat] s.dev = (s.dev.activationBegun v.toNat, .good []) := if_pos hgood
      obtain ⟨hanswer, hframe⟩ := activate_answered h hown rfl
      exact ⟨congrArg Programs.activating (hframe.prog (by decide)), congrArg Cycles.next (hframe.cyc (by decide)),
        congrArg Power.target (hframe.power (by decide)), hanswer⟩
    · rename_i hnot
      have hown : writeActivate [v.toNat] s.dev = s.dev.pkgRefused := if_neg hnot
      exact Dev.pkgRefused_of_write h.up (activate_answered h hown (Dev.raise_code _ _ _ _))
  case refine_3 =>
    exact fun s k p hact hready hpkg hcheck => ⟨_, rfl, activationComplete_passes hact hready hpkg hcheck⟩
  case refine_4 =>
    exact fun s k x p hact hready hpkg hcheck => ⟨_, rfl, activationComplete_refuses hact hready hpkg hcheck⟩
  case refine_5 =>
    intro s r k h htrial hstate hdone
    obtain ⟨hanswer, hframe⟩ := confirm_answered h (writeConfirm_trial htrial hstate hdone) rfl
    refine ⟨_, rfl, ?_⟩
    beta_reduce
    rw [Dev.pkgSlot, hframe.prog (by decide)]
    exact ⟨congrArg PkgSlot.state (Dev.pkgSlot_modPkgSlot s.dev k (fun x => { x with state := .active })), rfl, rfl, hanswer⟩
  case refine_6 =>
    intro s r v h hnot
    have hbad : s.dev.prog.committed = false ∨ v.toNat ≠ 1 := hnot.imp_right (fun hv e => hv (BitVec.eq_of_toNat_eq e))
    exact ⟨_, rfl, Dev.pkgRefused_of_write h.up (confirm_answered h (writeConfirm_refused hbad) (Dev.raise_code _ _ _ _))⟩
  case refine_7 =>
    intro s r v h
    refine ⟨_, rfl, ?_⟩
    beta_reduce
    split
    · rename_i hlow
      exact minimumSecurityVersion_lower v.isLt h hlow
    · rename_i hhigh
      exact minimumSecurityVersion_raised v.isLt h hhigh

end Sys2Proof.Machine

/-! PROOF. The attestation key and its leaves (R442, R507, R515 to R520). -/

namespace Sys2Proof.Machine
open Sys2Proof

theorem rowOf_nonce : rowOf 0xA000 2 = some ⟨0xA000, 0xA000, 2, 2, .blob 32, .wo, .none, .any⟩ := by decide +kernel

theorem attestationNonce_answered {d e : Dev} {r : Req} {nonce : List Byte} {x : Reply} (h : d.TakesWrite r 0xA000 2 false nonce)
    (hx : writeNonce (wireValue d.code 0xA000 2 nonce) d = (e, x)) (hcode : e.code = d.code) :
    (attestationNonce r nonce d).Answered r (responseBytes r 2 0xA000 2 false 0 x) ∧ Dev.Frame [.palca, .out] e (attestationNonce r nonce d) :=
  h.answered hx (Or.inl (hcode ▸ h.wo (by decide) rowOf_nonce (by decide)))

/-- The device with a nonce taken, before its signature starts. -/
def Dev.nonceTaken (d : Dev) (n : BitVec 256) : Dev := d.modSec (fun s => { s with nonce := some n, nonceTick := some d.tick })

theorem Dev.startAttestation_sealing {d : Dev} (h : d.recd.sealing.isSome = true) (n : BitVec 256) :
    d.startAttestation n = d.modSec (fun s => { s with waiting := some (beBytes 32 n.toNat) }) := if_pos h

theorem Dev.startAttestation_free {d : Dev} (h : d.recd.sealing = none) (n : BitVec 256) :
    d.startAttestation n = d.modSec (fun s => { s with waiting := none, signing := some (false, wordsBe (d.attestationBody n)) }) :=
  if_neg (by simp [h])

theorem Dev.startAttestation_code (d : Dev) (n : BitVec 256) : (d.startAttestation n).code = d.code :=
  ite_both (P := fun e : Dev => e.code = d.code) rfl rfl

/-- What starting a signature keeps of the security unit. -/
theorem Dev.startAttestation_kept (d : Dev) (n : BitVec 256) : (d.startAttestation n).sec.nonce = d.sec.nonce ∧
    (d.startAttestation n).sec.nonceTick = d.sec.nonceTick ∧ (d.startAttestation n).sec.traversal = d.sec.traversal :=
  ite_both (P := fun e : Dev => e.sec.nonce = d.sec.nonce ∧ e.sec.nonceTick = d.sec.nonceTick ∧ e.sec.traversal = d.sec.traversal)
    ⟨rfl, rfl, rfl⟩ ⟨rfl, rfl, rfl⟩

theorem Dev.resumeAttestation_traversal (d : Dev) : d.resumeAttestation.sec.traversal = d.sec.traversal := by
  unfold Dev.resumeAttestation
  split
  · obtain ⟨-, -, h⟩ := d.startAttestation_kept (BitVec.ofNat 256 (beNat ‹List Byte›))
    exact ite_both (P := fun e : Dev => e.sec.traversal = d.sec.traversal) h rfl
  · rfl

/-! ## Reserving blocks of leaves -/

theorem Dev.burnEpochs_sec (d : Dev) (n : Nat) : (d.burnEpochs n).sec = { d.sec with epochs := (d.burnEpochs n).sec.epochs } := by
  unfold Dev.burnEpochs
  split
  · rw [(Dev.raiseIf_frame _ _ _ _ _).sec (by decide)]
    rfl
  · rfl

theorem Dev.burnEpochs_jseq (d : Dev) (n : Nat) : (d.burnEpochs n).recd.jseq = d.recd.jseq := by
  unfold Dev.burnEpochs Dev.raiseIf
  split
  · split
    · exact Dev.raise_jseq _ _ _ _
    · rfl
  · rfl

/-- The device with a block's reservation under way, its record not written yet. -/
def Dev.reserving (d : Dev) (b : Nat) : Dev := (d.burnEpochs (b / 2 ^ 20 + 1)).modSec (fun s => { s with reserving := some b, failed := false })

theorem Dev.reserve_eq (d : Dev) (b : Nat) : d.reserve b = if 2 ^ 28 ≤ max b d.lowestBlock then d
    else (d.reserving (max b d.lowestBlock)).journal .control ctlReservation [max b d.lowestBlock] := rfl

theorem Dev.reserving_sec (d : Dev) (b : Nat) : (d.reserving b).sec =
    { d.sec with epochs := (d.reserving b).sec.epochs, reserving := some b, failed := false } := by
  have h := congrArg (fun s : Security => { s with reserving := some b, failed := false }) (d.burnEpochs_sec (b / 2 ^ 20 + 1))
  exact h

/-- A reservation changes of the security unit what it reserves and the fuses it burns. -/
theorem Dev.reserve_kept (d : Dev) (b : Nat) : (d.reserve b).sec.leaf = d.sec.leaf ∧ (d.reserve b).sec.message = d.sec.message := by
  rw [Dev.reserve_eq]
  refine ite_both (P := fun e : Dev => e.sec.leaf = d.sec.leaf ∧ e.sec.message = d.sec.message) ⟨rfl, rfl⟩ ?_
  rw [(Dev.journal_frame _ _ _ _).sec (by decide), Dev.reserving_sec]
  exact ⟨rfl, rfl⟩

/-- The device that has counted a leaf as used. -/
def Dev.leafUsed (d : Dev) (l : Nat) : Dev := d.modSec (fun s =>
  { s with block := some (l / blockLeaves), leaf := l + 1, reserved := if s.reserved = some (l / blockLeaves) then none else s.reserved })

theorem Dev.useLeaf_kept (d : Dev) (l : Nat) : (d.useLeaf l).sec.leaf = l + 1 ∧ (d.useLeaf l).sec.message = d.sec.message := by
  have h : d.useLeaf l = if l + 1 + 256 = blockLeaves * (l / blockLeaves + 1) ∧ (d.leafUsed l).sec.reserved = none ∧ (d.leafUsed l).sec.reserving = none
      then (d.leafUsed l).reserve (l / blockLeaves + 1) else d.leafUsed l := rfl
  rw [h]
  exact ite_both (P := fun e : Dev => e.sec.leaf = l + 1 ∧ e.sec.message = d.sec.message) ((d.leafUsed l).reserve_kept _) ⟨rfl, rfl⟩

theorem attestationSignatureComplete_good {d : Dev} {body : List Byte} {l : Nat} (hsign : d.sec.signing = some (false, body))
    (hleaf : d.usableLeaf = some l) : attestationSignatureComplete true d =
      (d.useLeaf l).modSec (fun s => { s with message := body ++ d.signature body l, signing := none }) := by
  unfold attestationSignatureComplete
  rw [hsign, hleaf]
  rfl

theorem attestationSignatureComplete_bad {d : Dev} {body : List Byte} {l : Nat} (hsign : d.sec.signing = some (false, body))
    (hleaf : d.usableLeaf = some l) : attestationSignatureComplete false d =
      (d.useLeaf l).modSec (fun s => { s with signing := none, traversal := true, waiting := s.nonce.map (fun n => beBytes 32 n.toNat) }) := by
  unfold attestationSignatureComplete
  rw [hsign, hleaf]
  rfl

theorem Dev.usableLeaf_traversal {d : Dev} (h : d.sec.traversal = true) : d.usableLeaf = none := if_pos (by simp [h])

/-! ## A lost reservation -/

/-- The device at a new try of a reservation. -/
def Dev.retried (d : Dev) : Dev := { d with sec := { d.sec with retryTick := d.tick } }

section
variable {d : Dev} (hfailed : d.sec.failed = true) (hdue : d.sec.retryTick + sTicks 1 ≤ d.tick)
include hfailed hdue

theorem leafReservationRetry_lost : leafReservationRetry false d = d.retried.raise 0x1104 0 1 := by
  unfold leafReservationRetry
  rw [if_neg (by simp [hfailed]; omega)]
  exact if_pos rfl

theorem leafReservationRetry_written {b : Nat} (hres : d.sec.reserving = some b) : leafReservationRetry true d = d.retried.reserve b := by
  have hres' : d.retried.sec.reserving = some b := hres
  unfold leafReservationRetry
  rw [if_neg (by simp [hfailed]; omega), if_neg (by decide)]
  show d.retried.reserve (match d.retried.sec.reserving, d.retried.sec.block with
      | some b, _ => b
      | none, some b => b + 1
      | none, none => d.retried.lowestBlock) = _
  rw [hres']
end

theorem Recorder.entered_control (r : Recorder) (e : JEntry) : (r.entered .control e).control = e :: r.control := by
  unfold Recorder.entered
  rw [if_pos rfl]

theorem Recorder.logical_control (r : Recorder) : r.logical.control = r.control.map JEntry.unplaced := rfl

/-- The newest record of the control area is the one just written. -/
theorem Dev.journal_control (d : Dev) (key : Nat) (value : List Nat) :
    (d.journal .control key value).recd.control.head?.map (fun e => (e.key, e.value)) = some (key, value) := by
  have h := congrArg Recorder.control (d.journal_logical .control key value)
  rw [Recorder.entered_control, Recorder.logical_control] at h
  cases hl : (d.journal .control key value).recd.control with
  | nil => simp [hl] at h
  | cons e t =>
    rw [hl, List.map_cons] at h
    have he : e.unplaced = newEntry key value ((d.recd.jseq + 1) % 2 ^ 32) := List.head_eq_of_cons_eq h
    have hkey : e.key = key := congrArg JEntry.key he
    have hvalue : e.value = value := congrArg JEntry.value he
    simp [hkey, hvalue]

theorem Dev.reserve_written {d : Dev} {b : Nat} (hlow : d.lowestBlock ≤ b) (hlast : b < 2 ^ 28) :
    (d.reserve b).sec.failed = false ∧ (d.reserve b).sec.reserving = some b ∧ (d.reserve b).sec.retryTick = d.sec.retryTick ∧
      (d.reserve b).recd.jseq = (d.recd.jseq + 1) % 2 ^ 32 ∧
      (d.reserve b).recd.control.head?.map (fun e => (e.key, e.value)) = some (ctlReservation, [b]) := by
  have h : d.reserve b = (d.reserving b).journal .control ctlReservation [b] := by
    rw [Dev.reserve_eq, Nat.max_eq_left hlow]
    exact if_neg (Nat.not_le.2 hlast)
  have hseq : (d.reserving b).recd.jseq = d.recd.jseq := d.burnEpochs_jseq _
  rw [h, (Dev.journal_frame _ _ _ _).sec (by decide), Dev.journal_jseq, hseq, Dev.reserving_sec]
  exact ⟨rfl, rfl, rfl, rfl, Dev.journal_control _ _ _⟩

/-- Settles O46, command by command. -/
theorem attestation : Obligations.Attestation := by
  unfold Obligations.Attestation
  refine ⟨?_, ?_, ?_, ?_, ?_, ?_, ?_⟩
  case refine_1 =>
    intro s r nonce h hbad
    obtain ⟨hanswer, hframe⟩ := attestationNonce_answered h (show writeNonce _ s.dev = _ from if_pos hbad) rfl
    exact ⟨_, rfl, hframe.sec (by decide), hanswer⟩
  case refine_2 =>
    intro s r nonce h hgood
    have hown : writeNonce (wireValue s.dev.code 0xA000 2 nonce) s.dev =
        ((s.dev.nonceTaken (BitVec.ofNat 256 (beNat (natBytes (wireValue s.dev.code 0xA000 2 nonce))))).startAttestation
          (BitVec.ofNat 256 (beNat (natBytes (wireValue s.dev.code 0xA000 2 nonce)))), .good []) := if_neg (by simp [hgood])
    generalize BitVec.ofNat 256 (beNat (natBytes (wireValue s.dev.code 0xA000 2 nonce))) = n at hown ⊢
    obtain ⟨hanswer, hframe⟩ := attestationNonce_answered h hown (Dev.startAttestation_code _ _)
    obtain ⟨hnonce, htick, -⟩ := (s.dev.nonceTaken n).startAttestation_kept n
    refine ⟨_, rfl, ?_⟩
    beta_reduce
    rw [hframe.sec (by decide)]
    refine ⟨htick, hnonce, fun hseal => ?_, fun hseal => ?_, hanswer⟩
    · rw [Dev.startAttestation_free (d := s.dev.nonceTaken n) hseal]
      rfl
    · rw [Dev.startAttestation_sealing (d := s.dev.nonceTaken n) hseal]
      rfl
  case refine_3 =>
    intro s body l hsign hleaf
    refine ⟨_, rfl, ?_⟩
    beta_reduce
    rw [attestationSignatureComplete_good hsign hleaf]
    obtain ⟨hused, -⟩ := s.dev.useLeaf_kept l
    exact ⟨rfl, rfl, hused⟩
  case refine_4 =>
    intro s body l hsign hleaf
    refine ⟨_, rfl, ?_⟩
    beta_reduce
    rw [attestationSignatureComplete_bad hsign hleaf]
    obtain ⟨hused, hmessage⟩ := s.dev.useLeaf_kept l
    exact ⟨hmessage, rfl, Dev.usableLeaf_traversal rfl, hused⟩
  case refine_5 =>
    intro s
    exact ⟨_, rfl, Dev.resumeAttestation_traversal (s.dev.modSec _)⟩
  case refine_6 =>
    intro s b hfailed hdue hres hlow hlast
    refine ⟨_, rfl, ?_⟩
    beta_reduce
    rw [leafReservationRetry_written hfailed hdue hres]
    exact Dev.reserve_written (d := s.dev.retried) hlow hlast
  case refine_7 =>
    intro s hfailed hdue hup
    refine ⟨_, rfl, ?_⟩
    beta_reduce
    rw [leafReservationRetry_lost hfailed hdue]
    exact ⟨Dev.raise_reports (d := s.dev.retried) hup _ _ _, Dev.raise_sec _ _ _ _⟩

end Sys2Proof.Machine

/-! PROOF. Signed acts and the debug unlock token (R405, R513 to R515, R521, R522, R551). -/

namespace Sys2Proof.Machine
open Sys2Proof

/-! ## The responses that wait for an act -/

theorem Dev.Answered.keepResponse {d : Dev} {r : Req} {bytes : List Nat} (h : d.Answered r bytes) (q : Req) (content kept : List Nat) :
    (d.keepResponse q content kept).Answered r bytes := h

theorem Dev.releaseHeld_single {d : Dev} {ticket : Nat} {h : HeldReply} (hl : d.palca.held.filter (fun h => h.ticket == ticket) = [h])
    (hrepeat : d.repeatOf h.req h.content = none) : (d.releaseHeld ticket).Answered h.req h.bytes := by
  have hrepeat' : ({ d with palca := { d.palca with held := d.palca.held.filter (fun h => h.ticket != ticket) } } : Dev).repeatOf h.req h.content = none :=
    hrepeat
  unfold Dev.releaseHeld
  rw [hl, List.foldl_cons, List.foldl_nil, hrepeat']
  exact (Dev.reply_answered _ _ _).keepResponse _ _ _

theorem Dev.releaseHeld_transfers (d : Dev) (ticket : Nat) : (d.releaseHeld ticket).palca.transfers = d.palca.transfers := by
  refine (foldl_keeps (g := fun d : Dev => d.palca.transfers) (fun e h => ?_) _ _).trans rfl
  split
  · exact (Palca.fields_of_quiet (Dev.reply_quiet _ _ _)).1
  · exact (Palca.fields_of_quiet (Dev.reply_quiet _ _ _)).1

/-- A held response that waits for an act, with the act's answer in it. -/
def HeldReply.answered (h : HeldReply) (sub : Nat) (x : Reply) (ticket : Nat) : HeldReply :=
  { h with bytes := responseBytes h.req 4 0xA000 sub false (h.content.getD 4 0) x, ticket := ticket }

/-- The device with an act's answer in the responses that wait for it. -/
def Dev.actAnswered (d : Dev) (sub : Nat) (x : Reply) (ticket : Nat) : Dev :=
  { d with palca := { d.palca with held := d.palca.held.map (fun h => if h.ticket = actTicket sub then h.answered sub x ticket else h) } }

theorem Dev.answerAct_some (d : Dev) (sub : Nat) (x : Reply) (n : Nat) : d.answerAct sub x (some n) = d.actAnswered sub x n := rfl

theorem Dev.answerAct_none (d : Dev) (sub : Nat) (x : Reply) :
    d.answerAct sub x none = (d.actAnswered sub x (actTicket sub)).releaseHeld (actTicket sub) := rfl

theorem Dev.actAnswered_held {d : Dev} {sub : Nat} {x : Reply} {h : HeldReply}
    (hl : d.palca.held.filter (fun h => h.ticket == actTicket sub) = [h]) :
    (d.actAnswered sub x (actTicket sub)).palca.held.filter (fun h => h.ticket == actTicket sub) = [h.answered sub x (actTicket sub)] := by
  have hticket : h.ticket = actTicket sub := by
    have hmem : h ∈ d.palca.held.filter (fun h => h.ticket == actTicket sub) := hl ▸ List.mem_singleton_self h
    exact beq_iff_eq.1 (List.mem_filter.1 hmem).2
  have hsame : ((fun h : HeldReply => h.ticket == actTicket sub) ∘
      fun h => if h.ticket = actTicket sub then h.answered sub x (actTicket sub) else h) = fun h => h.ticket == actTicket sub := by
    funext g
    by_cases hg : g.ticket = actTicket sub
    · simp [hg, HeldReply.answered]
    · simp [hg]
  unfold Dev.actAnswered
  rw [List.filter_map, hsame, hl, List.map_singleton, if_pos hticket]

/-- The response to an act's last segment goes at once where nothing of the act is journaled. -/
theorem Dev.answerAct_now {d : Dev} {sub : Nat} {h : HeldReply} (x : Reply)
    (hl : d.palca.held.filter (fun h => h.ticket == actTicket sub) = [h]) (hrepeat : d.repeatOf h.req h.content = none) :
    (d.answerAct sub x none).Answered h.req (responseBytes h.req 4 0xA000 sub false (h.content.getD 4 0) x) := by
  have hrepeat' : (d.actAnswered sub x (actTicket sub)).repeatOf h.req h.content = none := hrepeat
  rw [Dev.answerAct_none]
  exact Dev.releaseHeld_single (h := h.answered sub x (actTicket sub)) (Dev.actAnswered_held hl) hrepeat'

theorem Dev.answerAct_transfers (d : Dev) (sub : Nat) (x : Reply) (n : Option Nat) : (d.answerAct sub x n).palca.transfers = d.palca.transfers := by
  cases n with
  | some n => rfl
  | none => exact Dev.releaseHeld_transfers _ _

theorem Dev.actTransfer_of_transfers {a b : Dev} (h : b.palca.transfers = a.palca.transfers) (sub : Nat) : b.actTransfer sub = a.actTransfer sub := by
  unfold Dev.actTransfer
  rw [h]

/-- A response that waits for an act whose effect is journaled waits for the entry that holds it. -/
theorem Dev.answerAct_waits {d : Dev} {sub : Nat} {h : HeldReply} (x : Reply) (n : Nat) (hmem : h ∈ d.palca.held) (hticket : h.ticket = actTicket sub) :
    h.answered sub x n ∈ (d.answerAct sub x (some n)).palca.held := by
  rw [Dev.answerAct_some]
  exact List.mem_map.2 ⟨h, hmem, if_pos hticket⟩

/-! ## Acts -/

/-- The device once an act's transfer is taken. -/
def Dev.actTaken (d : Dev) (sub : Nat) : Dev :=
  { d with palca := { d.palca with transfers := d.palca.transfers.filter (fun t => !(t.idx == 0xA000 && t.sub == sub)) } }

/-- The device once an act has passed, its nonce used up, before it has its effect. -/
def Dev.actPassed (d : Dev) (sub : Nat) : Dev := (d.actTaken sub).modSec (fun s => { s with nonce := none })

theorem Dev.actTaken_none (d : Dev) (sub : Nat) : (d.actTaken sub).actTransfer sub = none := by
  refine List.find?_eq_none.2 (fun t ht => ?_)
  have hne := (List.mem_filter.1 ht).2
  simp only [Bool.not_eq_true', Bool.and_eq_false_iff] at hne
  rcases hne with hne | hne <;> simp [hne]

section
variable {d : Dev} {sub kind : Nat} {t : Transfer} {sig : Bool} (ht : d.actTransfer sub = some t)
include ht

theorem Dev.act_other (hkind : otherKind sub kind (actBody t.got) = true) (effect : List Word → Dev → Dev × Option Nat) :
    d.act sub kind sig effect = d := by
  unfold Dev.act
  rw [ht]
  exact if_pos hkind

theorem Dev.act_refused {x : Reply} (hkind : otherKind sub kind (actBody t.got) = false) (hbad : d.actCheck kind (actBody t.got) t.total sig = some x)
    (effect : List Word → Dev → Dev × Option Nat) :
    d.act sub kind sig effect = ((d.actTaken sub).raiseIf (decide (x.status / 256 = 0x11)) x.status 0 0).answerAct sub x none := by
  have hbad' : (d.actTaken sub).actCheck kind (actBody t.got) t.total sig = some x := hbad
  unfold Dev.act
  rw [ht]
  dsimp only
  rw [if_neg (by simp [hkind])]
  show (match (d.actTaken sub).actCheck kind (actBody t.got) t.total sig with | some x => _ | none => _) = _
  rw [hbad']
  rfl

theorem Dev.act_passed {e : Dev} {n : Option Nat} {effect : List Word → Dev → Dev × Option Nat} (hkind : otherKind sub kind (actBody t.got) = false)
    (hgood : d.actCheck kind (actBody t.got) t.total sig = none) (heffect : effect (actBody t.got) (d.actPassed sub) = (e, n)) :
    d.act sub kind sig effect = e.answerAct sub (.good []) n := by
  have hgood' : (d.actTaken sub).actCheck kind (actBody t.got) t.total sig = none := hgood
  unfold Dev.act
  rw [ht]
  dsimp only
  rw [if_neg (by simp [hkind])]
  show (match (d.actTaken sub).actCheck kind (actBody t.got) t.total sig with | some x => _ | none => _) = _
  rw [hgood']
  exact congrArg (fun y : Dev × Option Nat => y.1.answerAct sub (.good []) y.2) heffect

end

theorem Dev.answerAct_actTransfer {d e : Dev} {sub : Nat} (hpalca : e.palca = (d.actTaken sub).palca) (x : Reply) (n : Option Nat) :
    (e.answerAct sub x n).actTransfer sub = none := by
  have htransfers : (e.answerAct sub x n).palca.transfers = (d.actTaken sub).palca.transfers :=
    (e.answerAct_transfers sub x n).trans (congrArg Palca.transfers hpalca)
  rw [Dev.actTransfer_of_transfers htransfers]
  exact d.actTaken_none sub

/-- An act whose effect is journaled: it stands, and the responses wait for its entry. -/
theorem Dev.act_journaled {d e : Dev} {sub kind : Nat} {t : Transfer} {sig : Bool} {effect : List Word → Dev → Dev × Option Nat}
    (ht : d.actTransfer sub = some t) (hkind : otherKind sub kind (actBody t.got) = false)
    (hgood : d.actCheck kind (actBody t.got) t.total sig = none) (heffect : effect (actBody t.got) (d.actPassed sub) = (e, some e.recd.jseq))
    (hpalca : e.palca = (d.actTaken sub).palca) :
    (d.act sub kind sig effect).sec = e.sec ∧ (d.act sub kind sig effect).actTransfer sub = none ∧
      ∀ h, h ∈ d.palca.held → h.ticket = actTicket sub →
        h.answered sub (.good []) (d.act sub kind sig effect).recd.jseq ∈ (d.act sub kind sig effect).palca.held := by
  have hdone := e.answerAct_frame sub (.good []) (some e.recd.jseq)
  have hheld : e.palca.held = d.palca.held := (congrArg Palca.held hpalca).trans rfl
  rw [Dev.act_passed ht hkind hgood heffect, hdone.recd (by decide)]
  exact ⟨hdone.sec (by decide), Dev.answerAct_actTransfer hpalca _ _, fun h hmem hticket => Dev.answerAct_waits _ _ (hheld ▸ hmem) hticket⟩

theorem Dev.repeatOf_of_kept {a b : Dev} (hkept : b.palca.kept = a.palca.kept) (htime : b.time = a.time) (r : Req) (content : List Nat) :
    b.repeatOf r content = a.repeatOf r content := by
  unfold Dev.repeatOf Dev.tick
  rw [hkept, htime]

/-- An act whose effect is not journaled: it stands, and the response to the last segment goes at once. -/
theorem Dev.answerAct_atOnce {d e : Dev} {sub : Nat} (hpalca : e.palca = (d.actTaken sub).palca) (htime : e.time = d.time) (x : Reply) :
    (e.answerAct sub x none).actTransfer sub = none ∧
      ∀ h, d.palca.held.filter (fun h => h.ticket == actTicket sub) = [h] → d.repeatOf h.req h.content = none →
        (e.answerAct sub x none).Answered h.req (responseBytes h.req 4 0xA000 sub false (h.content.getD 4 0) x) := by
  have hheld : e.palca.held = d.palca.held := (congrArg Palca.held hpalca).trans rfl
  have hkept : e.palca.kept = d.palca.kept := (congrArg Palca.kept hpalca).trans rfl
  refine ⟨Dev.answerAct_actTransfer hpalca _ _, fun h hl hrepeat => Dev.answerAct_now x (hheld ▸ hl) ?_⟩
  rw [Dev.repeatOf_of_kept hkept htime, hrepeat]

/-! ## What each act does -/

/-- The device with a security unit's change on both copies of the control area. -/
def Dev.controlled (d : Dev) (key : Nat) (v : BitVec 256) (f : Security → Security) : Dev :=
  ((d.actPassed 7).modSec f).journal .control key ((words256 v).map BitVec.toNat)

theorem Dev.controlled_parts (d : Dev) (key : Nat) (v : BitVec 256) (f : Security → Security) :
    (d.controlled key v f).palca = (d.actTaken 7).palca ∧ (d.controlled key v f).sec = f { d.sec with nonce := none } := by
  have h := ((d.actPassed 7).modSec f).journal_frame .control key ((words256 v).map BitVec.toNat)
  exact ⟨h.palca (by decide), h.sec (by decide)⟩

theorem Dev.controlWord_passed (d : Dev) (key : Nat) (v : BitVec 256) (f : Security → Security) :
    ((d.actPassed 7).modSec f).controlWord key v = (d.controlled key v f, some (d.controlled key v f).recd.jseq) := by
  unfold Dev.controlWord Dev.controlled
  rfl

theorem Dev.actPassed_fingerprint (d : Dev) (sub : Nat) : (d.actPassed sub).sec.fingerprint = d.sec.fingerprint := rfl

/-- What the two journaled acts write: the device's own fingerprint, and the partner's. -/
def commissioned (s : Security) : Security := { s with commissioned := s.fingerprint }

def bound (v : BitVec 256) (s : Security) : Security := { s with partner := v }

theorem commissioningAct_passes (d : Dev) (sig : Bool) : commissioningAct sig d =
    d.act 7 1 sig (fun _ d => (d.modSec commissioned).controlWord ctlCommissioned d.sec.fingerprint) := rfl

theorem partnerBindingAct_passes (d : Dev) (sig : Bool) : partnerBindingAct sig d =
    d.act 7 2 sig (fun ws d => (d.modSec (bound (val256 ws 10))).controlWord ctlPartner (val256 ws 10)) := rfl

/-- The device with a key slot revoked. -/
def Dev.keyRevoked (d : Dev) (slot : Nat) : Dev := (d.actPassed 7).modSec (fun s => { s with revoked := sins slot s.revoked })

/-- The device with debug unlocked in a scope. -/
def Dev.unlocked (d : Dev) (scope : Nat) : Dev := (d.actPassed 0x0B).modSec (fun s => { s with debug := true, scope := scope })

theorem Dev.keyValid_revoked {d : Dev} {k : Nat} (h : k ∈ d.sec.revoked) : d.keyValid k = false := by
  unfold Dev.keyValid
  simp [h]

/-- The four acts with the object and the kind they are of. -/
inductive ActOf (sig : Bool) : Nat → Nat → (Dev → Dev) → Prop
  | commissioning : ActOf sig 7 1 (commissioningAct sig)
  | binding : ActOf sig 7 2 (partnerBindingAct sig)
  | revocation : ActOf sig 7 3 (keyRevocationAct sig)
  | unlock : ActOf sig 0x0B 4 (debugUnlockToken sig)

theorem ActOf.act {sig : Bool} {sub kind : Nat} {f : Dev → Dev} (h : ActOf sig sub kind f) : ∃ effect, ∀ d : Dev, f d = d.act sub kind sig effect := by
  cases h <;> exact ⟨_, fun _ => rfl⟩

theorem ActOf.other {sig : Bool} {sub kind : Nat} {f : Dev → Dev} {d : Dev} {t : Transfer} (h : ActOf sig sub kind f)
    (ht : d.actTransfer sub = some t) (hkind : otherKind sub kind (actBody t.got) = true) : f d = d := by
  obtain ⟨effect, hf⟩ := h.act
  exact (hf d).trans (Dev.act_other ht hkind effect)

theorem ActOf.refused {sig : Bool} {sub kind : Nat} {f : Dev → Dev} {d : Dev} {t : Transfer} {x : Reply} (h : ActOf sig sub kind f)
    (ht : d.actTransfer sub = some t) (hkind : otherKind sub kind (actBody t.got) = false) (hbad : d.actCheck kind (actBody t.got) t.total sig = some x) :
    (f d).sec = d.sec ∧ (f d).actTransfer sub = none ∧ (x.status / 256 = 0x11 → d.up = true → (f d).Reports x.status 0) ∧
      ∀ h, d.palca.held.filter (fun h => h.ticket == actTicket sub) = [h] → d.repeatOf h.req h.content = none →
        (f d).Answered h.req (responseBytes h.req 4 0xA000 sub false (h.content.getD 4 0) x) := by
  obtain ⟨effect, hf⟩ := h.act
  have hraised := (d.actTaken sub).raiseIf_frame (decide (x.status / 256 = 0x11)) x.status 0 0
  obtain ⟨hnone, hanswer⟩ := Dev.answerAct_atOnce (hraised.palca (by decide)) (hraised.time (by decide)) x
  have hdone := ((d.actTaken sub).raiseIf (decide (x.status / 256 = 0x11)) x.status 0 0).answerAct_frame sub x none
  rw [hf d, Dev.act_refused ht hkind hbad]
  refine ⟨(hdone.sec (by decide)).trans (hraised.sec (by decide)), hnone, fun hx hup => (hdone.reports (by decide) _ _).2 ?_, hanswer⟩
  rw [show (d.actTaken sub).raiseIf (decide (x.status / 256 = 0x11)) x.status 0 0 = _ from if_pos (decide_eq_true hx)]
  exact Dev.raise_reports (d := d.actTaken sub) hup _ _ _

/-- Settles O47, act by act. -/
theorem signedActs : Obligations.SignedActs := by
  unfold Obligations.SignedActs
  refine ⟨?_, ?_, ?_, ?_, ?_⟩
  case refine_1 =>
    intro s t sig ht hkind hgood
    obtain ⟨hpalca, hsec⟩ := s.dev.controlled_parts ctlCommissioned s.dev.sec.fingerprint commissioned
    obtain ⟨hact, hnone, hheld⟩ := Dev.act_journaled (sig := sig) ht hkind hgood (effect := fun _ d =>
      (d.modSec commissioned).controlWord ctlCommissioned d.sec.fingerprint)
      (by rw [Dev.actPassed_fingerprint]; exact Dev.controlWord_passed _ _ _ _) hpalca
    rw [hsec] at hact
    refine ⟨_, rfl, ?_⟩
    beta_reduce
    rw [commissioningAct_passes]
    exact ⟨congrArg Security.commissioned hact, congrArg Security.nonce hact, hnone, hheld⟩
  case refine_2 =>
    intro s t sig ht hkind hgood
    obtain ⟨hpalca, hsec⟩ := s.dev.controlled_parts ctlPartner (val256 (actBody t.got) 10) (bound (val256 (actBody t.got) 10))
    obtain ⟨hact, hnone, hheld⟩ := Dev.act_journaled (sig := sig) ht hkind hgood (effect := fun ws d =>
      (d.modSec (bound (val256 ws 10))).controlWord ctlPartner (val256 ws 10)) (Dev.controlWord_passed _ _ _ _) hpalca
    rw [hsec] at hact
    refine ⟨_, rfl, ?_⟩
    beta_reduce
    rw [partnerBindingAct_passes]
    exact ⟨congrArg Security.partner hact, congrArg Security.nonce hact, hnone, hheld⟩
  case refine_3 =>
    intro s t sig ht hkind hgood
    have hact : keyRevocationAct sig s.dev = (s.dev.keyRevoked (wfld (wat (actBody t.got) 10) 7 0)).answerAct 7 (.good []) none :=
      Dev.act_passed ht hkind hgood rfl
    obtain ⟨hnone, hanswer⟩ := Dev.answerAct_atOnce (d := s.dev) (e := s.dev.keyRevoked (wfld (wat (actBody t.got) 10) 7 0)) rfl rfl (.good [])
    have hdone := (s.dev.keyRevoked (wfld (wat (actBody t.got) 10) 7 0)).answerAct_frame 7 (.good []) none
    refine ⟨_, rfl, ?_⟩
    beta_reduce
    rw [hact]
    refine ⟨Dev.keyValid_revoked ?_, congrArg Security.nonce (hdone.sec (by decide)), hnone, hanswer⟩
    rw [hdone.sec (by decide)]
    exact mem_sins.2 (Or.inl rfl)
  case refine_4 =>
    intro s t sig hup ht hkind hgood
    have hact : debugUnlockToken sig s.dev = ((s.dev.unlocked (wfld (wat (actBody t.got) 10) 3 0)).raise 0x1106 0 0).answerAct 0x0B (.good []) none :=
      Dev.act_passed ht hkind hgood rfl
    have hup' : (s.dev.unlocked (wfld (wat (actBody t.got) 10) 3 0)).up = true := hup
    have hraised := (s.dev.unlocked (wfld (wat (actBody t.got) 10) 3 0)).raise_frame 0x1106 0 0
    obtain ⟨hnone, hanswer⟩ := Dev.answerAct_atOnce (d := s.dev) (hraised.palca (by decide)) (hraised.time (by decide)) (.good [])
    have hdone := ((s.dev.unlocked (wfld (wat (actBody t.got) 10) 3 0)).raise 0x1106 0 0).answerAct_frame 0x0B (.good []) none
    have hsec := (hdone.sec (by decide)).trans (hraised.sec (by decide))
    refine ⟨_, rfl, ?_⟩
    beta_reduce
    rw [hact]
    exact ⟨congrArg Security.debug hsec, congrArg Security.scope hsec, congrArg Security.nonce hsec,
      (hdone.reports (by decide) _ _).2 (Dev.raise_reports hup' _ _ _), hnone, hanswer⟩
  case refine_5 =>
    intro s c sub kind t sig hc ht
    obtain ⟨f, hexec, hact⟩ : ∃ f, exec c s = .next { s with dev := f s.dev } ∧ ActOf sig sub kind f := by
      rcases hc with ⟨rfl, rfl, rfl⟩ | ⟨rfl, rfl, rfl⟩ | ⟨rfl, rfl, rfl⟩ | ⟨rfl, rfl, rfl⟩
      · exact ⟨_, rfl, .commissioning⟩
      · exact ⟨_, rfl, .binding⟩
      · exact ⟨_, rfl, .revocation⟩
      · exact ⟨_, rfl, .unlock⟩
    exact ⟨fun hkind => ⟨_, hexec, hact.other ht hkind⟩, fun x hkind hbad => ⟨_, hexec, hact.refused ht hkind hbad⟩⟩

end Sys2Proof.Machine

/-! PROOF. JTAG: keys, closing, EXTEST and debug reset (R388, R465, R510, R522). -/

namespace Sys2Proof.Machine
open Sys2Proof

/-- The device with a key in an empty slot. -/
def Dev.keyed (d : Dev) (slot : Nat) (key : List Byte) : Dev :=
  d.modSec (fun s => { s with keys := kset [] s.keys slot key, valid := sins slot s.valid })

theorem otpProgram_empty {d : Dev} {slot : Nat} (hup : d.up = true) (hopen : d.sec.field = false) (hfree : d.sec.valid.contains slot = false)
    (key : List Byte) : otpProgram slot key d = d.keyed slot key := by
  unfold otpProgram
  exact if_neg (by simp only [hup, hopen, hfree]; decide)

theorem otpProgram_kept {d : Dev} {slot : Nat} (h : d.sec.field = true ∨ d.sec.valid.contains slot = true) (key : List Byte) :
    otpProgram slot key d = d := if_pos (Or.inr h)

theorem Dev.huskStop_pins (d : Dev) : d.huskStop.hull.override = true ∧ ∀ b, d.huskStop.pinHigh b = false := by
  have h : d.huskStop.hull.override = true := congrArg Hull.override d.huskStop_override
  refine ⟨h, fun b => ?_⟩
  unfold Dev.pinHigh
  rw [h, Bool.not_true, Bool.and_false]

/-- Settles O48, instruction by instruction. -/
theorem jtagInstructions : Obligations.JtagInstructions := by
  unfold Obligations.JtagInstructions
  refine ⟨?_, ?_, ?_, ?_, ?_, ?_⟩
  case refine_1 =>
    intro s k key hup hopen hfree
    refine ⟨_, rfl, ?_⟩
    beta_reduce
    rw [otpProgram_empty hup hopen hfree]
    exact ⟨kget_kset_same, mem_sins.2 (Or.inl rfl)⟩
  case refine_2 =>
    exact fun s k key h => ⟨_, rfl, otpProgram_kept h key⟩
  case refine_3 =>
    intro s hup hvalid
    refine ⟨_, rfl, ?_⟩
    beta_reduce
    rw [show otpClose s.dev = _ from if_neg (by simp [hup, hvalid])]
    rfl
  case refine_4 =>
    exact fun s h => ⟨_, rfl, if_pos (Or.inr h)⟩
  case refine_5 =>
    intro s i hup hdebug hscope
    refine ⟨_, rfl, ?_⟩
    beta_reduce
    rw [show extest s.dev = _ from if_pos (by simp [hup, hdebug, hscope])]
    obtain ⟨hover, hpins⟩ := s.dev.huskStop_pins
    exact ⟨hover, hpins false, hpins true⟩
  case refine_6 =>
    intro s hup hdebug
    refine ⟨_, rfl, ?_⟩
    beta_reduce
    rw [show debugReset s.dev = _ from if_pos (by simp [hup, hdebug])]
    exact ⟨rfl, rfl, rfl, rfl⟩

end Sys2Proof.Machine

/-! PROOF. The recorder's segments and seals (R503, R504, R517 to R519). -/

namespace Sys2Proof.Machine
open Sys2Proof

/-- The recorder but for what a fault record adds to the running segment. -/
def Recorder.unrecorded (r : Recorder) : Recorder := { r with data := [], records := 0, staged := 0 }

theorem Dev.raise_unrecorded (d : Dev) (c i x : Nat) : (d.raise c i x).recd.unrecorded = d.recd.unrecorded := by
  have hlog : (d.logFault c i x).recd.unrecorded = d.recd.unrecorded := by
    unfold Dev.logFault
    dsimp only
    split
    · exact ite_both (P := fun e : Dev => e.recd.unrecorded = d.recd.unrecorded) rfl rfl
    · rfl
  unfold Dev.raise
  split
  · rw [(Dev.occurAll_frame _ _).recd (by decide), hlog]
  · rfl

/-- What the ring's room depends on. -/
def Recorder.room (r : Recorder) : Store (List Byte) × Nat × Nat := (r.sealed, r.ringBlocks, r.blockMiB)

theorem Dev.raise_room (d : Dev) (c i x : Nat) : (d.raise c i x).recd.room = d.recd.room :=
  (congrArg Recorder.room (d.raise_unrecorded c i x) :)

theorem Recorder.entered_room (r : Recorder) (a : NandArea) (e : JEntry) : (r.entered a e).room = r.room :=
  ite_both (P := fun x : Recorder => x.room = r.room) rfl rfl

theorem Recorder.logical_room (r : Recorder) : r.logical.room = r.room := rfl

theorem Dev.journal_room (d : Dev) (a : NandArea) (key : Nat) (value : List Nat) : (d.journal a key value).recd.room = d.recd.room := by
  rw [← Recorder.logical_room, Dev.journal_logical, Recorder.entered_room, Recorder.logical_room]

theorem Dev.burnEpochs_room (d : Dev) (n : Nat) : (d.burnEpochs n).recd.room = d.recd.room := by
  unfold Dev.burnEpochs Dev.raiseIf
  split
  · split
    · exact Dev.raise_room _ _ _ _
    · rfl
  · rfl

theorem Dev.reserving_room (d : Dev) (b : Nat) : (d.reserving b).recd.room = d.recd.room := d.burnEpochs_room _

theorem Dev.reserve_room (d : Dev) (b : Nat) : (d.reserve b).recd.room = d.recd.room := by
  rw [Dev.reserve_eq]
  refine ite_both (P := fun e : Dev => e.recd.room = d.recd.room) rfl ?_
  rw [Dev.journal_room, Dev.reserving_room]

theorem Dev.useLeaf_room (d : Dev) (l : Nat) : (d.useLeaf l).recd.room = d.recd.room :=
  ite_both (P := fun e : Dev => e.recd.room = d.recd.room) ((d.leafUsed l).reserve_room _) rfl

theorem ringTrim_fits {cap : Nat} {m : Store (List Byte)} (h : (m.map (fun y => y.2.length)).sum ≤ cap) : ringTrim cap m = m := by
  cases m with
  | nil => rfl
  | cons x t => exact if_pos h

/-- The device with a seal behind its segment's records. -/
def Dev.sealedBy (d : Dev) (k n : Nat) (sealed : List Byte) : Dev :=
  d.modRec (fun r => { r with sealing := none, sealed := kset [] r.sealed k sealed, staged := r.staged + 8 + n, flush := true })

/-- A signed seal joins the sealed segments, and a waiting attestation goes on. -/
def Dev.sealedAll (d : Dev) (k n : Nat) (sealed : List Byte) : Dev := (d.sealedBy k n sealed).trimRing.resumeAttestation.serveNand

theorem Dev.resumeAttestation_leaf (d : Dev) : d.resumeAttestation.sec.leaf = d.sec.leaf := by
  unfold Dev.resumeAttestation
  split
  · refine ite_both (P := fun e : Dev => e.sec.leaf = d.sec.leaf) ?_ rfl
    exact ite_both (P := fun e : Dev => e.sec.leaf = d.sec.leaf) rfl rfl
  · rfl

/-- What a seal leaves where the sealed segments fit the ring. -/
theorem Dev.sealedAll_leaves {d : Dev} {k n : Nat} {sealed : List Byte}
    (hfits : ((kset [] d.recd.sealed k sealed).map (fun y => y.2.length)).sum ≤ d.ringBytes) :
    (d.sealedAll k n sealed).recd.sealing = none ∧ (d.sealedAll k n sealed).recd.flush = true ∧ (d.sealedAll k n sealed).sec.leaf = d.sec.leaf ∧
      (d.sealedAll k n sealed).recd.staged = d.recd.staged + 8 + n ∧ kget [] (d.sealedAll k n sealed).recd.sealed k = sealed := by
  have htrim : (d.sealedBy k n sealed).trimRing.recd.sealed = kset [] d.recd.sealed k sealed := ringTrim_fits hfits
  have hresumed : (d.sealedBy k n sealed).trimRing.resumeAttestation.recd = (d.sealedBy k n sealed).trimRing.recd :=
    (Dev.resumeAttestation_frame _).recd (by decide)
  have hlogical : (d.sealedAll k n sealed).recd.logical = (d.sealedBy k n sealed).trimRing.recd.logical := by
    rw [← hresumed]
    exact Dev.serveNand_logical _
  have hsealed : (d.sealedAll k n sealed).recd.sealed = kset [] d.recd.sealed k sealed :=
    (congrArg Recorder.sealed hlogical :).trans htrim
  refine ⟨(congrArg Recorder.sealing hlogical :), (congrArg Recorder.flush hlogical :), ?_, (congrArg Recorder.staged hlogical :), ?_⟩
  · have hsec : (d.sealedAll k n sealed).sec = (d.sealedBy k n sealed).trimRing.resumeAttestation.sec := (Dev.serveNand_frame _).sec (by decide)
    rw [hsec]
    exact Dev.resumeAttestation_leaf _
  · rw [hsealed, kget_kset_same]

/-- A segment as it is kept: its records, the seal record's header, and body and signature. -/
def sealedBytes (recs payload : List Byte) : List Byte := recs ++ leBytes 8 (packN [(8, 8), (24, 0), (32, payload.length)]) ++ payload

/-- The end of SEAL, of a seal's body and signature. -/
theorem sealSegment_of {d e : Dev} {k : Nat} {body recs sig : List Byte} (hseal : d.recd.sealing = some (k, body, recs)) (hsign : d.sec.signing = none)
    (hx : d.signSeal body = (e, sig)) : sealSegment d = e.sealedAll k (body ++ sig).length (sealedBytes recs (body ++ sig)) := by
  unfold sealSegment
  rw [hseal, hsign]
  dsimp only
  rw [hx]
  rfl

theorem Dev.signSeal_some {d : Dev} {l : Nat} (hleaf : d.usableLeaf = some l) (body : List Byte) : d.signSeal body = (d.useLeaf l, d.signature body l) := by
  unfold Dev.signSeal
  rw [hleaf]

theorem Dev.signSeal_none {d : Dev} (hleaf : d.usableLeaf = none) (body : List Byte) : d.signSeal body = (d, List.replicate 5605 0) := by
  unfold Dev.signSeal
  rw [hleaf]

/-- A seal with the next leaf. -/
theorem sealSegment_signed {d : Dev} {k l : Nat} {body recs : List Byte} (hseal : d.recd.sealing = some (k, body, recs)) (hsign : d.sec.signing = none)
    (hleaf : d.usableLeaf = some l) (hfits : ((kset [] d.recd.sealed k (sealedBytes recs (body ++ d.signature body l))).map (fun y => y.2.length)).sum ≤ d.ringBytes) :
    (sealSegment d).recd.sealing = none ∧ (sealSegment d).recd.flush = true ∧ (sealSegment d).sec.leaf = l + 1 ∧
      kget [] (sealSegment d).recd.sealed k = sealedBytes recs (body ++ d.signature body l) := by
  have hroom := d.useLeaf_room l
  simp only [Recorder.room, Prod.mk.injEq] at hroom
  obtain ⟨hsealed, hblocks, hmib⟩ := hroom
  have hbytes : (d.useLeaf l).ringBytes = d.ringBytes := by
    unfold Dev.ringBytes
    rw [hblocks, hmib]
  rw [← hsealed, ← hbytes] at hfits
  obtain ⟨hsealing, hflush, hleaf', -, hkept⟩ := Dev.sealedAll_leaves (n := (body ++ d.signature body l).length) hfits
  rw [sealSegment_of hseal hsign (Dev.signSeal_some hleaf body)]
  exact ⟨hsealing, hflush, hleaf'.trans (d.useLeaf_kept l).1, hkept⟩

/-- A seal where no leaf is usable: zeros in the signature's place. -/
theorem sealSegment_unsigned {d : Dev} {k : Nat} {body recs zeros : List Byte} (hseal : d.recd.sealing = some (k, body, recs))
    (hsign : d.sec.signing = none) (hleaf : d.usableLeaf = none) (hzeros : zeros = List.replicate 5605 0)
    (hfits : ((kset [] d.recd.sealed k (sealedBytes recs (body ++ zeros))).map (fun y => y.2.length)).sum ≤ d.ringBytes) :
    (sealSegment d).recd.sealing = none ∧ (sealSegment d).recd.flush = true ∧ (sealSegment d).sec.leaf = d.sec.leaf ∧
      (sealSegment d).recd.staged = d.recd.staged + 8 + (body ++ zeros).length ∧
      kget [] (sealSegment d).recd.sealed k = sealedBytes recs (body ++ zeros) := by
  rw [sealSegment_of hseal hsign (hzeros ▸ Dev.signSeal_none hleaf body)]
  exact Dev.sealedAll_leaves hfits

theorem sealSegment_idle {d : Dev} (h : d.recd.sealing = none ∨ d.sec.signing.isSome = true) : sealSegment d = d := by
  unfold sealSegment
  split
  · rename_i hseal hsign
    simp [hseal, hsign] at h
  · rfl

/-- Settles O50. -/
theorem segments : Obligations.Segments := by
  unfold Obligations.Segments
  refine ⟨?_, ?_, ?_, ?_⟩
  case refine_1 =>
    intro s hup hdue hseal
    refine ⟨_, rfl, ?_⟩
    beta_reduce
    rw [show segmentEnd s.dev = s.dev.endSegment false from if_pos ⟨hup, hdue, by rw [hseal]; rfl⟩]
    exact ⟨rfl, rfl, rfl, rfl, rfl, rfl⟩
  case refine_2 =>
    intro s k l body recs hseal hsign hleaf
    exact fun hfits => ⟨_, rfl, sealSegment_signed hseal hsign hleaf hfits⟩
  case refine_3 =>
    intro s k body recs hseal hsign hleaf
    exact fun hfits => ⟨_, rfl, sealSegment_unsigned hseal hsign hleaf rfl hfits⟩
  case refine_4 =>
    exact fun s h => ⟨_, rfl, sealSegment_idle h⟩

end Sys2Proof.Machine

/-! PROOF. The current budget and droop (R452 to R456, R460). -/

namespace Sys2Proof.Machine
open Sys2Proof

/-! ## Sharing a class's current -/

/-- What a list of grants gives a unit. -/
def grantOf (g : List (Nat × Nat)) (u : Nat) : Nat := ((g.find? (fun x => x.1 == u)).map Prod.snd).getD 0

theorem grantOf_cons (x : Nat × Nat) (g : List (Nat × Nat)) (u : Nat) : grantOf (x :: g) u = if x.1 = u then x.2 else grantOf g u := by
  unfold grantOf
  by_cases h : x.1 = u
  · simp [h]
  · simp [h]

theorem grantOf_le {g : List (Nat × Nat)} {u n : Nat} (h : ∀ x ∈ g, x.1 = u → x.2 ≤ n) : grantOf g u ≤ n := by
  unfold grantOf
  cases hx : g.find? (fun x => x.1 == u) with
  | none => exact Nat.zero_le _
  | some x => exact h x (List.mem_of_find?_eq_some hx) (beq_iff_eq.1 (List.find?_some (p := fun x : Nat × Nat => x.1 == u) hx))

/-- A unit that a list grants once alone has that grant, whatever follows. -/
theorem grantOf_of_mem {g t : List (Nat × Nat)} {x : Nat × Nat} (hx : x ∈ g) (honly : ∀ y ∈ g, y.1 = x.1 → y = x) :
    grantOf (g ++ t) x.1 = x.2 := by
  unfold grantOf
  cases hy : g.find? (fun y => y.1 == x.1) with
  | none => exact absurd (List.find?_eq_none.1 hy x hx) (by simp)
  | some y =>
    have he := honly y (List.mem_of_find?_eq_some hy) (beq_iff_eq.1 (List.find?_some (p := fun y : Nat × Nat => y.1 == x.1) hy))
    rw [List.find?_append, hy, he]
    rfl

theorem sum_one_key (a v : Nat) : ∀ {ks : List Nat}, ks.Nodup → (ks.map (fun u => if a = u then v else 0)).sum ≤ v
  | [], _ => Nat.zero_le _
  | k :: ks, h => by
    obtain ⟨hk, hks⟩ := List.nodup_cons.1 h
    by_cases hak : a = k
    · have hzero : ks.map (fun u => if a = u then v else 0) = ks.map (fun _ => 0) :=
        List.map_congr_left (fun u hu => if_neg (fun hau => hk (hak.symm.trans hau ▸ hu)))
      rw [List.map_cons, List.sum_cons, if_pos hak, hzero, List.map_const', List.sum_replicate]
      simp
    · rw [List.map_cons, List.sum_cons, if_neg hak, Nat.zero_add]
      exact sum_one_key a v hks

/-- No grant is counted for two units. -/
theorem sum_grantOf_le {ks : List Nat} (hks : ks.Nodup) : ∀ g : List (Nat × Nat), (ks.map (grantOf g)).sum ≤ (g.map Prod.snd).sum
  | [] => by
    have hzero : ks.map (grantOf []) = ks.map (fun _ => 0) := rfl
    rw [hzero, List.map_const', List.sum_replicate]
    simp
  | x :: g => by
    have hstep : (ks.map (grantOf (x :: g))).sum ≤ (ks.map (fun u => (if x.1 = u then x.2 else 0) + grantOf g u)).sum := by
      refine List.sum_le_sum (fun u _ => ?_)
      rw [grantOf_cons]
      split <;> omega
    rw [List.sum_map_add] at hstep
    have hone := sum_one_key x.1 x.2 hks
    have hrest := sum_grantOf_le hks g
    rw [List.map_cons, List.sum_cons]
    omega

theorem sum_shares_le (avail total : Nat) : ∀ l : List (Nat × Nat),
    (l.map (fun x => x.2 * avail / total)).sum * total ≤ (l.map Prod.snd).sum * avail
  | [] => by simp
  | x :: l => by
    have hx : x.2 * avail / total * total ≤ x.2 * avail := Nat.div_mul_le_self _ _
    have hl := sum_shares_le avail total l
    simp only [List.map_cons, List.sum_cons, Nat.add_mul]
    omega

theorem sum_indicator {α : Type} (p : α → Bool) : ∀ l : List α, (l.map (fun x => if p x then 1 else 0)).sum = (l.filter p).length
  | [] => rfl
  | x :: l => by
    rw [List.map_cons, List.sum_cons, sum_indicator p l]
    by_cases h : p x
    · rw [if_pos h, List.filter_cons_of_pos h, List.length_cons, Nat.add_comm]
    · rw [if_neg h, List.filter_cons_of_neg h, Nat.zero_add]

theorem sum_lucky_le {lucky : List Nat} {l : List (Nat × Nat)} (hl : (l.map Prod.fst).Nodup) :
    (l.map (fun x => if lucky.contains x.1 then x.2 + 1 else x.2)).sum ≤ (l.map Prod.snd).sum + lucky.length := by
  have hsplit : l.map (fun x => if lucky.contains x.1 then x.2 + 1 else x.2) =
      l.map (fun x => x.2 + if lucky.contains x.1 then 1 else 0) := by
    refine List.map_congr_left (fun x _ => ?_)
    split <;> rfl
  have hfew : (l.filter (fun x => lucky.contains x.1)).length ≤ lucky.length := by
    have hkeys : ((l.filter (fun x => lucky.contains x.1)).map Prod.fst).Nodup := hl.sublist (List.filter_sublist.map _)
    rw [← List.length_map (f := Prod.fst)]
    refine (hkeys.subperm (fun k hk => ?_)).length_le
    obtain ⟨x, hx, rfl⟩ := List.mem_map.1 hk
    simpa using (List.mem_filter.1 hx).2
  rw [hsplit, List.sum_map_add, sum_indicator]
  omega

theorem shareClass_sum {turn avail : Nat} {l : List (Nat × Nat)} (hl : (l.map Prod.fst).Nodup) : ((shareClass turn avail l).map Prod.snd).sum ≤ avail := by
  unfold shareClass
  dsimp only
  split
  · assumption
  · rename_i htotal
    have hpos : 0 < (l.map Prod.snd).sum := by omega
    have hbase : ((l.map (fun x => (x.1, x.2 * avail / (l.map Prod.snd).sum))).map Prod.snd).sum ≤ avail := by
      rw [List.map_map]
      exact Nat.le_of_mul_le_mul_right ((sum_shares_le avail _ l).trans_eq (Nat.mul_comm _ _)) hpos
    have hkeys : ((l.map (fun x => (x.1, x.2 * avail / (l.map Prod.snd).sum))).map Prod.fst).Nodup := by
      rw [List.map_map]
      exact hl
    have hlucky := sum_lucky_le (lucky := (turnFrom turn (l.map Prod.fst)).take
      (avail - ((l.map (fun x => (x.1, x.2 * avail / (l.map Prod.snd).sum))).map Prod.snd).sum)) hkeys
    rw [List.map_map]
    refine hlucky.trans ?_
    have hlen := List.length_take_le
      (avail - ((l.map (fun x => (x.1, x.2 * avail / (l.map Prod.snd).sum))).map Prod.snd).sum) (turnFrom turn (l.map Prod.fst))
    omega

theorem shareClass_full {turn avail : Nat} {l : List (Nat × Nat)} (h : (l.map Prod.snd).sum ≤ avail) : shareClass turn avail l = l := if_pos h

/-- A share that is rounded down and given one ampere more is still no more than the request. -/
theorem shareClass_le {turn avail : Nat} {l : List (Nat × Nat)} (hpos : ∀ x ∈ l, 0 < x.2) {y : Nat × Nat} (hy : y ∈ shareClass turn avail l) :
    ∃ x ∈ l, x.1 = y.1 ∧ y.2 ≤ x.2 := by
  unfold shareClass at hy
  dsimp only at hy
  split at hy
  · exact ⟨y, hy, rfl, Nat.le_refl _⟩
  · rename_i htotal
    rw [List.map_map] at hy
    obtain ⟨x, hx, rfl⟩ := List.mem_map.1 hy
    have hshare : x.2 * avail / (l.map Prod.snd).sum < x.2 := by
      refine Nat.div_lt_of_lt_mul ?_
      rw [Nat.mul_comm (l.map Prod.snd).sum]
      exact Nat.mul_lt_mul_of_pos_left (by omega) (hpos x hx)
    refine ⟨x, hx, rfl, ?_⟩
    dsimp only [Function.comp]
    split <;> omega

/-! ## All classes -/

/-- The requests of one class that ask for current. -/
def classRequests (reqs : List (Nat × Nat × Nat)) (c : Nat) : List (Nat × Nat) :=
  (reqs.filter (fun r => r.2.2 == c && 0 < r.2.1)).map (fun r => (r.1, r.2.1))

theorem grantAll_cons (turn avail : Nat) (reqs : List (Nat × Nat × Nat)) (c : Nat) (cs : List Nat) : grantAll turn avail reqs (c :: cs) =
    shareClass turn avail (classRequests reqs c) ++
      grantAll turn (avail - ((shareClass turn avail (classRequests reqs c)).map Prod.snd).sum) reqs cs := rfl

theorem mem_classRequests {reqs : List (Nat × Nat × Nat)} {c : Nat} {x : Nat × Nat} :
    x ∈ classRequests reqs c ↔ ∃ r ∈ reqs, r.2.2 = c ∧ 0 < r.2.1 ∧ (r.1, r.2.1) = x := by
  simp [classRequests, and_assoc]

section
variable {reqs : List (Nat × Nat × Nat)} (hkeys : (reqs.map Prod.fst).Nodup)
include hkeys

theorem classRequests_nodup (c : Nat) : ((classRequests reqs c).map Prod.fst).Nodup := by
  unfold classRequests
  rw [List.map_map]
  exact hkeys.sublist (List.filter_sublist.map _)

theorem grantAll_sum : ∀ (cs : List Nat) (turn avail : Nat), ((grantAll turn avail reqs cs).map Prod.snd).sum ≤ avail
  | [], _, _ => Nat.zero_le _
  | c :: cs, turn, avail => by
    have hclass := shareClass_sum (turn := turn) (avail := avail) (classRequests_nodup hkeys c)
    have hrest := grantAll_sum cs turn (avail - ((shareClass turn avail (classRequests reqs c)).map Prod.snd).sum)
    rw [grantAll_cons, List.map_append, List.sum_append]
    omega

theorem request_unique {r q : Nat × Nat × Nat} (hr : r ∈ reqs) (hq : q ∈ reqs) (h : q.1 = r.1) : q = r :=
  List.inj_on_of_nodup_map hkeys hq hr h

end

theorem mem_grantAll {reqs : List (Nat × Nat × Nat)} {y : Nat × Nat} : ∀ {cs : List Nat} {turn avail : Nat}, y ∈ grantAll turn avail reqs cs →
    ∃ r ∈ reqs, r.1 = y.1 ∧ y.2 ≤ r.2.1
  | [], _, _, h => absurd h List.not_mem_nil
  | c :: cs, turn, avail, h => by
    rw [grantAll_cons] at h
    rcases List.mem_append.1 h with h | h
    · obtain ⟨x, hx, hkey, hle⟩ := shareClass_le (fun x hx => by
        obtain ⟨r, -, -, hpos, rfl⟩ := mem_classRequests.1 hx
        exact hpos) h
      obtain ⟨r, hr, -, -, rfl⟩ := mem_classRequests.1 hx
      exact ⟨r, hr, hkey, hle⟩
    · exact mem_grantAll h

section
variable {reqs : List (Nat × Nat × Nat)} (hkeys : (reqs.map Prod.fst).Nodup) {r : Nat × Nat × Nat} (hr : r ∈ reqs)
include hkeys hr

/-- No unit is granted more than it asks for. -/
theorem grantAll_le (turn avail : Nat) (cs : List Nat) : grantOf (grantAll turn avail reqs cs) r.1 ≤ r.2.1 := by
  refine grantOf_le (fun y hy hyr => ?_)
  obtain ⟨q, hq, hqy, hle⟩ := mem_grantAll hy
  rw [request_unique hkeys hr hq (hqy.trans hyr)] at hle
  exact hle

/-- The S requests are granted in full where they fit. -/
theorem grantAll_full {turn avail : Nat} {cs : List Nat} (hs : r.2.2 = 0)
    (hfit : ((reqs.filter (fun r => r.2.2 == 0)).map (fun r => r.2.1)).sum ≤ avail) :
    grantOf (grantAll turn avail reqs (0 :: cs)) r.1 = r.2.1 := by
  by_cases hpos : 0 < r.2.1
  · have hsum : ((classRequests reqs 0).map Prod.snd).sum ≤ avail := by
      refine (List.Sublist.sum_le_sum ?_ (fun _ _ => Nat.zero_le _)).trans hfit
      unfold classRequests
      rw [List.map_map]
      exact (List.monotone_filter_right reqs (fun x hx => (Bool.and_eq_true_iff.1 hx).1)).map _
    have hmem : (r.1, r.2.1) ∈ classRequests reqs 0 := mem_classRequests.2 ⟨r, hr, hs, hpos, rfl⟩
    rw [grantAll_cons, shareClass_full hsum]
    refine grantOf_of_mem hmem (fun y hy hyr => ?_)
    obtain ⟨q, hq, -, -, rfl⟩ := mem_classRequests.1 hy
    rw [request_unique hkeys hr hq hyr]
  · have hle := grantAll_le hkeys hr turn avail (0 :: cs)
    omega

end

/-! ## The epoch -/

/-- A store filled from a list keeps each of its entries, where no key comes twice. -/
theorem kget_filled {α : Type} [DecidableEq α] {z : α} {β : Type} {key : β → Nat} {val : β → α} {b : β} : ∀ (l : List β) (m : Store α),
    (l.map key).Nodup → b ∈ l → kget z (l.foldl (fun m b => kset z m (key b) (val b)) m) (key b) = val b
  | [], _, _, h => absurd h List.not_mem_nil
  | a :: l, m, hl, h => by
    obtain ⟨ha, hl⟩ := List.nodup_cons.1 hl
    rcases List.mem_cons.1 h with rfl | h
    · refine (foldl_keeps_of_mem (g := fun m : Store α => kget z m (key b)) l (fun c hc m => ?_) _).trans kget_kset_same
      exact kget_kset_other (fun e => ha (List.mem_map.2 ⟨c, hc, e.symm⟩))
    · exact kget_filled l _ hl h

theorem podsOf_le (code : Nat) : podsOf code ≤ 25 := by
  unfold podsOf
  split
  · omega
  · split <;> omega

/-- Every unit asks once an epoch. -/
theorem Dev.requests_nodup (d : Dev) : (d.requests.map Prod.fst).Nodup := by
  have hpods : (d.enabledPods.map (fun p => (p, d.podRequest p))).map Prod.fst = List.range (podsOf d.code) := by
    rw [List.map_map]
    exact List.map_id _
  have hsolvers : ((List.range 4).map (fun e => (25 + e, d.solverRequest e))).map Prod.fst = [25, 26, 27, 28] := rfl
  unfold Dev.requests
  rw [List.map_append, hpods, hsolvers, List.nodup_append]
  refine ⟨List.nodup_range, by decide, fun a ha b hb => ?_⟩
  have hpod := (List.mem_range.1 ha).trans_le (podsOf_le d.code)
  simp only [List.mem_cons, List.not_mem_nil, or_false] at hb
  omega

/-- The grants of an epoch that begins. -/
def Dev.epochGrants (d : Dev) : List (Nat × Nat) := grantAll d.power.turn d.availableAmps d.requests [0, 1, 2, 3]

/-- Amperes that the S requests ask for. -/
def Dev.sAmps (d : Dev) : Nat := ((d.requests.filter (fun r => r.2.2 == 0)).map (fun r => r.2.1)).sum

/-- The power unit as an epoch begins. -/
def Dev.epochPower (d : Dev) : Power := { d.power with
  epochTick := d.tick, grants := d.requests.foldl (fun m r => kset 0 m r.1 (grantOf d.epochGrants r.1)) [],
  clocks := d.requests.foldl (fun m r => kset 0 m r.1 (if r.2.1 = 0 then 0 else clockOf r.2.1 (grantOf d.epochGrants r.1))) [],
  turn := (d.power.turn + 1) % 29, droopEpoch := !d.power.droops.isEmpty }

/-- The device as an epoch begins. -/
def Dev.epochBegun (d : Dev) : Dev := d.modPower (fun p => { p with epochTick := d.tick })

/-- The device with the epoch's grants and clocks. -/
def Dev.epochGranted (d : Dev) : Dev := d.epochBegun.modPower (fun p => { p with
  grants := d.requests.foldl (fun m r => kset 0 m r.1 (grantOf d.epochGrants r.1)) [],
  clocks := d.requests.foldl (fun m r => kset 0 m r.1 (if r.2.1 = 0 then 0 else clockOf r.2.1 (grantOf d.epochGrants r.1))) [],
  turn := (p.turn + 1) % 29, droopEpoch := !p.droops.isEmpty })

/-- The device with the epoch's grants, of which no Pod is gated yet. -/
def Dev.granted (d : Dev) : Dev := { d.epochGranted with
  pods := { d.epochGranted.pods with pods := d.epochGranted.pods.pods.map (fun x => (x.1, { x.2 with gatedNow := false })) } }

/-- An epoch that grants less than is asked is counted. -/
def Dev.shortCounted (d : Dev) (short : Bool) : Dev := if short then d.count 0x8000 6 else d

/-- A droop that lasts is reported anew in each epoch. -/
def Dev.droopReported (d : Dev) : Dev := if d.power.droops.isEmpty then d else d.raise 0x0E02 0 0

/-- A floor that the S requests do not fit is reported. -/
def Dev.floorReported (d : Dev) : Dev := (d.modPower (fun p => { p with floorOk := none })).raise 0x0E07 0 0

/-- The current floor's demand: taken once the S requests do not fit, released a second after they do. -/
def Dev.floorChecked (d : Dev) (av sAmps : Nat) : Dev :=
  if av < sAmps then (if kget 0 d.floorReported.hull.demands srcFloor = 0 then d.floorReported.protect srcFloor 3 0x0E07 else d.floorReported)
  else if kget 0 d.hull.demands srcFloor = 0 then d
  else match d.power.floorOk with
    | none => d.modPower (fun p => { p with floorOk := some d.tick })
    | some t => if t + sTicks 1 ≤ d.tick then (d.modPower (fun p => { p with floorOk := none })).demand srcFloor 0 0x0E07 else d

theorem budgetEpoch_due {d : Dev} (hcore : d.power.enCore = true) (hdue : d.power.epochTick + usTicks 1 ≤ d.tick) :
    budgetEpoch d = ((d.granted.shortCounted (d.requests.any (fun r => decide (grantOf d.epochGrants r.1 < r.2.1)))).droopReported).floorChecked
      d.availableAmps d.sAmps := by
  unfold budgetEpoch
  have hamps : d.epochBegun.availableAmps = d.availableAmps := rfl
  have hasked : d.epochBegun.requests = d.requests := rfl
  have hturn : d.epochBegun.power.turn = d.power.turn := rfl
  rw [if_neg (by simp [hcore]; omega)]
  unfold Dev.epochBegun at hamps hasked hturn
  dsimp only
  rw [hamps, hasked, hturn]
  unfold Dev.floorChecked Dev.floorReported Dev.droopReported Dev.shortCounted Dev.granted Dev.epochGranted Dev.epochBegun Dev.epochGrants Dev.sAmps grantOf
  refine ite_congr rfl (fun _ => by with_reducible rfl) (fun _ => ite_congr (by with_reducible rfl) (fun _ => by with_reducible rfl) (fun _ => ?_))
  split
  next h => rw [h]
  next h => rw [h]

/-- The power unit but for what is retained of causes and the time since which the floor holds. -/
def Power.granted (p : Power) : Power := { p with retained := [], floorOk := none }

theorem Dev.raise_granted (d : Dev) (c i x : Nat) : (d.raise c i x).power.granted = d.power.granted :=
  (congrArg (fun p : Power => { p with floorOk := none }) (d.raise_unretained c i x) :)

theorem Dev.shortCounted_power (d : Dev) (b : Bool) : (d.shortCounted b).power = d.power :=
  ite_both (P := fun e : Dev => e.power = d.power) rfl rfl

theorem Dev.droopReported_granted (d : Dev) : d.droopReported.power.granted = d.power.granted :=
  ite_both (P := fun e : Dev => e.power.granted = d.power.granted) rfl (d.raise_granted _ _ _)

theorem Dev.floorReported_granted (d : Dev) : d.floorReported.power.granted = d.power.granted := by
  unfold Dev.floorReported
  rw [Dev.raise_granted]
  rfl

theorem Dev.floorChecked_granted (d : Dev) (av n : Nat) : (d.floorChecked av n).power.granted = d.power.granted := by
  unfold Dev.floorChecked
  split
  · refine ite_both (P := fun e : Dev => e.power.granted = d.power.granted) ?_ d.floorReported_granted
    rw [Dev.protect_power]
    exact d.floorReported_granted
  · split
    · rfl
    · split
      · rfl
      · refine ite_both (P := fun e : Dev => e.power.granted = d.power.granted) ?_ rfl
        rw [Dev.demand_power]
        rfl

theorem budgetEpoch_power {d : Dev} (hcore : d.power.enCore = true) (hdue : d.power.epochTick + usTicks 1 ≤ d.tick) :
    (budgetEpoch d).power.granted = d.epochPower.granted := by
  rw [budgetEpoch_due hcore hdue, Dev.floorChecked_granted, Dev.droopReported_granted, Dev.shortCounted_power]
  rfl

theorem Dev.epochPower_grant {d : Dev} {r : Nat × Nat × Nat} (hr : r ∈ d.requests) :
    kget 0 d.epochPower.grants r.1 = grantOf d.epochGrants r.1 :=
  kget_filled (key := Prod.fst) (val := fun r => grantOf d.epochGrants r.1) d.requests [] d.requests_nodup hr

theorem Dev.epochPower_clock {d : Dev} {r : Nat × Nat × Nat} (hr : r ∈ d.requests) (hpos : 0 < r.2.1) :
    kget 0 d.epochPower.clocks r.1 = min 16 (16 * grantOf d.epochGrants r.1 / r.2.1) :=
  (kget_filled (key := Prod.fst) (val := fun r => if r.2.1 = 0 then 0 else clockOf r.2.1 (grantOf d.epochGrants r.1)) d.requests [] d.requests_nodup
    hr).trans (if_neg (by omega))

/-- What an epoch grants: no unit more than its request, the S requests in full where they fit, no more than is available in all. -/
theorem Dev.epochPower_shares (d : Dev) : (∀ r, r ∈ d.requests → kget 0 d.epochPower.grants r.1 ≤ r.2.1 ∧
      (0 < r.2.1 → kget 0 d.epochPower.clocks r.1 = min 16 (16 * kget 0 d.epochPower.grants r.1 / r.2.1)) ∧
      (r.2.2 = 0 → d.sAmps ≤ d.availableAmps → kget 0 d.epochPower.grants r.1 = r.2.1)) ∧
    (d.requests.map (fun r => kget 0 d.epochPower.grants r.1)).sum ≤ d.availableAmps := by
  refine ⟨fun r hr => ?_, ?_⟩
  · rw [Dev.epochPower_grant hr]
    exact ⟨grantAll_le d.requests_nodup hr _ _ _, Dev.epochPower_clock hr, fun hs hfit => grantAll_full d.requests_nodup hr hs hfit⟩
  · have hgrants : d.requests.map (fun r => kget 0 d.epochPower.grants r.1) = (d.requests.map Prod.fst).map (grantOf d.epochGrants) := by
      rw [List.map_map]
      exact List.map_congr_left (fun r hr => Dev.epochPower_grant hr)
    rw [hgrants]
    exact (sum_grantOf_le d.requests_nodup _).trans (grantAll_sum d.requests_nodup _ _ _)

/-! ## A floor that does not hold -/

theorem Dev.floorChecked_short {d : Dev} (hinv : d.Inv) (hup : d.up = true) (hfree : kget 0 d.hull.demands srcFloor = 0) {av n : Nat} (h : av < n) :
    (d.floorChecked av n).Stopped ∧ (d.floorChecked av n).Reports 0x0E07 0 ∧ kget 0 (d.floorChecked av n).hull.demands srcFloor = 3 := by
  have hup' : (d.modPower (fun p => { p with floorOk := none })).up = true := hup
  have hhull : d.floorReported.hull = d.hull := Dev.raise_hull _ _ _ _
  have hfloor : d.floorChecked av n = d.floorReported.protect srcFloor 3 0x0E07 :=
    (if_pos h).trans (if_pos (by rw [hhull]; exact hfree))
  have hinv' : d.floorReported.Inv := ((Dev.raise_frame _ _ _ _).inv (by decide)).2 hinv
  rw [hfloor]
  refine ⟨Dev.protect_stopped hinv' _ _, (Dev.protect_reports _ _ _ _ _ _).2 (Dev.raise_reports hup' _ _ _), ?_⟩
  rw [Dev.protect_demands, kget_kset_same]

theorem Dev.granted_inv {d : Dev} (h : d.Inv) : d.granted.Inv := h

theorem Dev.shortCounted_kept (d : Dev) (b : Bool) : (d.shortCounted b).Inv = d.Inv ∧ (d.shortCounted b).up = d.up ∧ (d.shortCounted b).hull = d.hull :=
  ite_both (P := fun e : Dev => e.Inv = d.Inv ∧ e.up = d.up ∧ e.hull = d.hull) ⟨rfl, rfl, rfl⟩ ⟨rfl, rfl, rfl⟩

theorem Dev.droopReported_kept {d : Dev} (h : d.Inv) : d.droopReported.Inv ∧ d.droopReported.up = d.up ∧ d.droopReported.hull = d.hull :=
  ite_both (P := fun e : Dev => e.Inv ∧ e.up = d.up ∧ e.hull = d.hull) ⟨h, rfl, rfl⟩
    ⟨((Dev.raise_frame _ _ _ _).inv (by decide)).2 h, Dev.raise_up _ _ _ _, Dev.raise_hull _ _ _ _⟩

theorem budgetEpoch_short {d : Dev} (hinv : d.Inv) (hup : d.up = true) (hcore : d.power.enCore = true)
    (hdue : d.power.epochTick + usTicks 1 ≤ d.tick) (hfree : kget 0 d.hull.demands srcFloor = 0) (h : d.availableAmps < d.sAmps) :
    (budgetEpoch d).Stopped ∧ (budgetEpoch d).Reports 0x0E07 0 ∧ kget 0 (budgetEpoch d).hull.demands srcFloor = 3 := by
  have hup' : d.granted.up = true := hup
  have hfree' : kget 0 d.granted.hull.demands srcFloor = 0 := hfree
  rw [budgetEpoch_due hcore hdue]
  generalize d.requests.any (fun r => decide (grantOf d.epochGrants r.1 < r.2.1)) = short
  obtain ⟨hinv1, hup1, hhull1⟩ := d.granted.shortCounted_kept short
  obtain ⟨hinv2, hup2, hhull2⟩ := Dev.droopReported_kept (hinv1.mpr (Dev.granted_inv hinv))
  exact Dev.floorChecked_short hinv2 (hup2.trans (hup1.trans hup')) (by rw [hhull2, hhull1]; exact hfree') h

/-! ## Droop -/

/-- The device with a unit's droop noted. -/
def Dev.drooping (d : Dev) (u : Nat) : Dev := d.modPower (fun p => { p with droops := sins u p.droops, droopEpoch := true })

theorem droop_core {d : Dev} (hcore : d.power.enCore = true) (u : Nat) : droop u d = (d.drooping u).raiseIf (!d.power.droopEpoch) 0x0E02 u 0 :=
  if_neg (by simp [hcore])

/-- Settles O51: the epoch by the shares of its grants, droop by its equation. -/
theorem currentBudget : Obligations.CurrentBudget := by
  unfold Obligations.CurrentBudget
  refine ⟨?_, ?_, ?_, ?_, ?_⟩
  case refine_1 =>
    intro s hcore hdue
    refine ⟨_, rfl, ?_⟩
    beta_reduce
    have h := budgetEpoch_power hcore hdue
    have hgrants : (budgetEpoch s.dev).power.grants = s.dev.epochPower.grants := (congrArg Power.grants h :)
    have hclocks : (budgetEpoch s.dev).power.clocks = s.dev.epochPower.clocks := (congrArg Power.clocks h :)
    rw [hgrants, hclocks]
    exact ⟨(congrArg Power.epochTick h :), (congrArg Power.turn h :), (congrArg Power.droopEpoch h :), s.dev.epochPower_shares⟩
  case refine_2 =>
    exact fun s hinv hup hcore hdue hfree hshort => ⟨_, rfl, budgetEpoch_short hinv hup hcore hdue hfree hshort⟩
  case refine_3 =>
    intro s u hup hcore hfirst
    refine ⟨_, rfl, ?_⟩
    beta_reduce
    have hup' : (s.dev.drooping u).up = true := hup
    rw [droop_core hcore, hfirst, show (s.dev.drooping u).raiseIf (!false) 0x0E02 u 0 = (s.dev.drooping u).raise 0x0E02 u 0 from rfl,
      Dev.raise_power hup']
    exact ⟨mem_sins.2 (Or.inl rfl), rfl, Dev.raise_reports hup' _ _ _⟩
  case refine_4 =>
    intro s u hcore hagain
    refine ⟨_, rfl, ?_⟩
    beta_reduce
    rw [droop_core hcore, hagain, show (s.dev.drooping u).raiseIf (!true) 0x0E02 u 0 = s.dev.drooping u from rfl]
    exact ⟨mem_sins.2 (Or.inl rfl), rfl⟩
  case refine_5 =>
    exact fun s u => ⟨_, rfl, fun h => (mem_sdel.1 h).2 rfl⟩

end Sys2Proof.Machine

/-! PROOF. Temperatures, regulators, rails and clocks (R448 to R450, R456 to R460). -/

namespace Sys2Proof.Machine
open Sys2Proof

/-! ## Temperatures -/

/-- A die's over-temperature report is armed below 95 °C and spent above 100 °C. -/
def armed (t : Int) (was : Bool) : Bool := if t < celsius 95 then true else if celsius 100 < t then false else was

/-- The device with new temperatures. -/
def Dev.warmed (d : Dev) (core iod : Int) : Dev := d.modPower (fun p => { p with
  tempTick := d.tick, coreTemp := core, iodTemp := iod, coolCore := armed core p.coolCore, coolIod := armed iod p.coolIod })

/-- A die newly above 100 °C. -/
def Dev.overTemp (d : Dev) (core iod : Int) : Bool :=
  (decide (celsius 100 < core) && d.power.coolCore) || (decide (celsius 100 < iod) && d.power.coolIod)

theorem temperatureRead_due {d : Dev} (hup : d.up = true) (hdue : d.power.tempTick + usTicks 100 ≤ d.tick) (core iod : Int) :
    temperatureRead core iod d = if celsius 112 ≤ core ∨ celsius 112 ≤ iod
      then ((d.warmed core iod).raiseIf (d.overTemp core iod) 0x0E05 0 0).toHusk [0x0E06] false false
      else (d.warmed core iod).raiseIf (d.overTemp core iod) 0x0E05 0 0 := by
  have hlate : ¬ (d.up = false ∨ d.tick < d.power.tempTick + usTicks 100) := by
    rw [hup]
    simpa using hdue
  unfold temperatureRead
  exact (if_neg hlate).trans rfl

theorem Dev.raiseIf_power {d : Dev} (hup : d.up = true) (b : Bool) (c i x : Nat) : (d.raiseIf b c i x).power = d.power := by
  unfold Dev.raiseIf
  split
  · exact Dev.raise_power hup _ _ _
  · rfl

theorem armed_spent {t : Int} (h : celsius 100 < t) (was : Bool) : armed t was = false := by
  unfold armed
  rw [if_neg (by simp only [celsius] at h ⊢; omega), if_pos h]

theorem Dev.toHusk_retains (d : Dev) (c : Nat) (clean flush : Bool) : c ∈ (d.toHusk [c] clean flush).power.retained :=
  List.mem_append_right _ (List.mem_singleton_self c)

/-! ## Regulators -/

/-- A voltage at most 10 mV nearer to a target. -/
def stepTo (set target : Nat) : Nat := if target ≤ set then max target (set - 10) else min target (set + 10)

theorem stepTo_near (set target : Nat) : stepTo set target ≤ set + 10 ∧ set ≤ stepTo set target + 10 ∧
    (set ≤ target + 10 → target ≤ set + 10 → stepTo set target = target) := by
  unfold stepTo
  split <;> omega

/-- The device with the regulators' set voltage stepped. -/
def Dev.stepped (d : Dev) (target : Nat) : Dev :=
  (d.modPower (fun p => { p with stepTick := d.tick, setMv := stepTo p.setMv (legalMv target) })).emit .avsWrite 0
    [stepTo d.power.setMv (legalMv target)]

theorem avsVoltageStep_due {d : Dev} (hup : d.up = true) (hdue : d.power.stepTick + usTicks 100 ≤ d.tick) (target : Nat) :
    avsVoltageStep target d = d.stepped target := by
  have hlate : ¬ (d.up = false ∨ d.tick < d.power.stepTick + usTicks 100) := by
    rw [hup]
    simpa using hdue
  unfold avsVoltageStep
  exact (if_neg hlate).trans rfl

/-- The device at a read-back of its regulators. -/
def Dev.readBack (d : Dev) : Dev := d.modPower (fun p => { p with avsTick := d.tick })

/-- The device with a read-back's answers taken in. -/
def Dev.answersTaken (d : Dev) (l : List Bool) : Dev := l.zipIdx.foldl (fun d x => d.avsRail x.2 x.1) d.readBack

theorem avsReadback_due {d : Dev} (hup : d.up = true) (hdue : d.power.avsTick + msTicks 1 ≤ d.tick) (l : List Bool) :
    avsReadback l d = if l.all (fun a => a) then
        match (d.answersTaken l).power.avsOk with
        | none => (d.answersTaken l).modPower (fun p => { p with avsOk := some (d.answersTaken l).tick })
        | some t => if t + sTicks 1 ≤ (d.answersTaken l).tick then (d.answersTaken l).modPower (fun p => { p with avsFault := [] }) else d.answersTaken l
      else (d.answersTaken l).modPower (fun p => { p with avsOk := none }) := by
  have hlate : ¬ (d.up = false ∨ d.tick < d.power.avsTick + msTicks 1) := by
    rw [hup]
    simpa using hdue
  unfold avsReadback
  exact (if_neg hlate).trans rfl

theorem Dev.avsRail_kept (d : Dev) (rail : Nat) (ok : Bool) : (d.avsRail rail ok).power.avsOk = d.power.avsOk ∧ (d.avsRail rail ok).time = d.time := by
  unfold Dev.avsRail
  dsimp only
  refine ite_both (P := fun e : Dev => e.power.avsOk = d.power.avsOk ∧ e.time = d.time) ⟨?_, Dev.raise_time _ _ _ _⟩ ⟨rfl, rfl⟩
  exact (congrArg Power.avsOk (Dev.raise_unretained _ _ _ _) :)

theorem Dev.answersTaken_kept (d : Dev) (l : List Bool) : (d.answersTaken l).power.avsOk = d.power.avsOk ∧ (d.answersTaken l).tick = d.tick := by
  have h := foldl_keeps (f := fun (d : Dev) (x : Bool × Nat) => d.avsRail x.2 x.1) (g := fun d : Dev => (d.power.avsOk, d.time))
    (fun d x => Prod.ext (d.avsRail_kept x.2 x.1).1 (d.avsRail_kept x.2 x.1).2) l.zipIdx d.readBack
  exact ⟨congrArg Prod.fst h, congrArg (fun x : Option Nat × TimeUnit => x.2.ticks.toNat) h⟩

/-- The device whose regulators have no fault any more. -/
def Dev.railsGood (d : Dev) : Dev := d.modPower (fun p => { p with avsFault := [] })

theorem avsReadback_good {d : Dev} {l : List Bool} {t : Nat} (hup : d.up = true) (hdue : d.power.avsTick + msTicks 1 ≤ d.tick)
    (hall : l.all (fun a => a) = true) (hok : d.power.avsOk = some t) (hlong : t + sTicks 1 ≤ d.tick) :
    avsReadback l d = (d.answersTaken l).railsGood := by
  obtain ⟨hkept, htick⟩ := d.answersTaken_kept l
  have hok' : (d.answersTaken l).power.avsOk = some t := hkept.trans hok
  have hlong' : t + sTicks 1 ≤ (d.answersTaken l).tick := hlong.trans_eq htick.symm
  rw [avsReadback_due hup hdue, if_pos hall]
  generalize d.answersTaken l = e at hok' hlong'
  simp only [hok']
  exact if_pos hlong'

theorem Dev.railsGood_fault (d : Dev) : d.railsGood.power.avsFault = [] := rfl

/-- The device with a rail's third failure in a row. -/
def Dev.railFailed (d : Dev) (rail : Nat) : Dev := d.modPower (fun p => { p with avsFails := kset 0 p.avsFails rail 3, avsFault := sins rail p.avsFault })

theorem Dev.avsRail_third {d : Dev} {rail : Nat} (h : kget 0 d.power.avsFails rail = 2) : d.avsRail rail false = (d.railFailed rail).raise 0x0E03 rail 0 := by
  unfold Dev.avsRail
  simp only [h, Bool.false_eq_true, if_false]
  rfl

theorem Dev.answersTaken_third {d : Dev} (h : kget 0 d.power.avsFails 0 = 2) : d.answersTaken [false] = (d.readBack.railFailed 0).raise 0x0E03 0 0 :=
  Dev.avsRail_third (d := d.readBack) h

/-! ## Clocks -/

theorem Dev.refFault_power {d : Dev} (hup : d.up = true) (cause src : Nat) : (d.refFault cause src).power = d.power := by
  unfold Dev.refFault
  rw [Dev.protect_power, (Dev.huskStop_frame _).power (by decide), Dev.raise_power hup]

/-- The device once its crystal is lost. -/
def Dev.crystalLost (d : Dev) : Dev := d.modPower (fun p => { p with crystal := false })

section
variable {d : Dev} {pll : Nat} (hup : d.up = true)
include hup

theorem pllLossOfLock_pod (h : pll < 25) :
    pllLossOfLock pll d = if (d.pod pll).state = .out ∨ podsOf d.code ≤ pll then d else (d.raise 0x030A pll 0).takeOut pll := by
  unfold pllLossOfLock
  rw [if_neg (by simp [hup]), if_pos h]

theorem pllLossOfLock_engine (hlo : 25 ≤ pll) (hhi : pll ≤ 28) : pllLossOfLock pll d = d.engineOut (pll - 25) := by
  unfold pllLossOfLock
  rw [if_neg (by simp [hup]), if_neg (by omega), if_pos (by omega)]

theorem pllLossOfLock_hull (h : pll = 29 ∨ pll = 30) : pllLossOfLock pll d = hullLockstep d := by
  unfold pllLossOfLock
  rw [if_neg (by simp [hup]), if_neg (by omega), if_neg (by omega), if_pos (by omega)]

theorem pllLossOfLock_reference (h : pll = 31) : pllLossOfLock pll d = d.refFault 0x0109 srcRefClock := by
  unfold pllLossOfLock
  rw [if_neg (by simp [hup]), if_neg (by omega), if_neg (by omega), if_neg (by omega)]

theorem pllLossOfLock_out (h : pll < 25) (hp : pll < podsOf d.code) : ((pllLossOfLock pll d).pod pll).state = .out := by
  rw [pllLossOfLock_pod hup h]
  split
  · rename_i hout
    exact hout.resolve_right (Nat.not_le.2 hp)
  · exact Dev.takeOut_state (by rw [Dev.raise_code]; exact hp)

end

theorem Dev.resetDevice_power (d : Dev) (kind c : Nat) (due : Bool) : (d.resetDevice kind [c] due).power.state = .husk ∧
    (d.resetDevice kind [c] due).power.resetKind = kind ∧ c ∈ (d.resetDevice kind [c] due).power.retained :=
  ⟨rfl, rfl, List.mem_append_right _ (List.mem_singleton_self c)⟩

theorem huskBrownout_supplied {d : Dev} (h : d.power.vhusk = true) : huskBrownout d = (d.resetDevice 4 [0x0E01] true).crystalLost := by
  unfold huskBrownout
  rw [if_neg (by simp [h])]
  rfl

theorem Dev.crystalLost_kept (d : Dev) : d.crystalLost.power.state = d.power.state ∧ d.crystalLost.power.resetKind = d.power.resetKind ∧
    d.crystalLost.power.retained = d.power.retained ∧ d.crystalLost.power.crystal = false := ⟨rfl, rfl, rfl, rfl⟩

theorem temperatureRead_warm {d : Dev} {core iod : Int} (hup : d.up = true) (hdue : d.power.tempTick + usTicks 100 ≤ d.tick)
    (hcore : core < celsius 112) (hiod : iod < celsius 112) :
    temperatureRead core iod d = (d.warmed core iod).raiseIf (d.overTemp core iod) 0x0E05 0 0 := by
  rw [temperatureRead_due hup hdue]
  exact if_neg (fun h => h.elim (Int.not_le.2 hcore) (Int.not_le.2 hiod))

/-- Settles O52, command by command. -/
theorem supplyFaults : Obligations.SupplyFaults := by
  unfold Obligations.SupplyFaults
  refine ⟨?_, ?_, ?_, ?_, ?_, ?_, ?_, ?_, ?_, ?_, ?_, ?_, ?_⟩
  case refine_1 =>
    intro s core iod hup hdue hcore hiod
    refine ⟨_, rfl, ?_⟩
    beta_reduce
    have hup' : (s.dev.warmed core iod).up = true := hup
    rw [temperatureRead_warm hup hdue hcore hiod, Dev.raiseIf_power hup']
    refine ⟨rfl, rfl, rfl, fun hhot hcool => ⟨armed_spent hhot _, ?_⟩⟩
    have hover : s.dev.overTemp core iod = true := by simp [Dev.overTemp, hhot, hcool]
    rw [hover]
    exact Dev.raise_reports hup' _ _ _
  case refine_2 =>
    intro s core iod hup hdue hhot
    refine ⟨_, rfl, ?_⟩
    beta_reduce
    rw [temperatureRead_due hup hdue, if_pos hhot]
    exact ⟨Dev.toHusk_state _ _ _ _, Dev.toHusk_retains _ _ _ _⟩
  case refine_3 =>
    intro s t hup hdue
    refine ⟨_, rfl, ?_⟩
    beta_reduce
    rw [avsVoltageStep_due hup hdue]
    obtain ⟨hhi, hlo, hnear⟩ := stepTo_near s.dev.power.setMv (legalMv t)
    exact ⟨hhi, hlo, hnear, rfl⟩
  case refine_4 =>
    intro s hup hdue hfails
    refine ⟨_, rfl, ?_⟩
    beta_reduce
    have hup' : (s.dev.readBack.railFailed 0).up = true := hup
    rw [avsReadback_due hup hdue, if_neg (by decide), Dev.answersTaken_third hfails]
    refine ⟨?_, Dev.raise_reports hup' 0x0E03 0 0, rfl⟩
    show 0 ∈ ((s.dev.readBack.railFailed 0).raise 0x0E03 0 0).power.avsFault
    rw [Dev.raise_power hup']
    exact mem_sins.2 (Or.inl rfl)
  case refine_5 =>
    intro s l t hup hdue hall hok hlong
    refine ⟨_, rfl, ?_⟩
    beta_reduce
    rw [avsReadback_good hup hdue hall hok hlong]
    exact Dev.railsGood_fault _
  case refine_6 =>
    intro s r hinv hon
    have hup : s.dev.up = true := (Bool.and_eq_true_iff.1 hon).1
    refine ⟨_, rfl, ?_⟩
    beta_reduce
    rw [show railOutOfRange r.val s.dev = _ from if_neg (by simp [hon])]
    refine ⟨Dev.protect_stopped (((Dev.raise_frame _ _ _ _).inv (by decide)).2 hinv) _ _,
      (Dev.protect_reports _ _ _ _ _ _).2 (Dev.raise_reports hup _ _ _), ?_⟩
    rw [Dev.protect_demands, kget_kset_same]
  case refine_7 =>
    intro s hv
    refine ⟨_, rfl, ?_⟩
    beta_reduce
    rw [show crystalStable s.dev = _ from if_pos hv]
    rfl
  case refine_8 =>
    intro s hinv hup hcrystal
    refine ⟨_, rfl, ?_⟩
    beta_reduce
    have hup' : s.dev.crystalLost.up = true := hup
    have hinv' : s.dev.crystalLost.Inv := hinv
    rw [show crystalFault s.dev = s.dev.crystalLost.refFault 0x0E08 srcRefClock from if_pos hcrystal, Dev.refFault_power hup']
    obtain ⟨hstop, hover, hreport⟩ := Dev.refFault_stops hinv' hup' 0x0E08 srcRefClock
    exact ⟨hstop, hover, rfl, hreport⟩
  case refine_9 =>
    intro s hv
    refine ⟨_, rfl, ?_⟩
    beta_reduce
    obtain ⟨hstate, hkind, hcause⟩ := s.dev.resetDevice_power 4 0x0E01 true
    obtain ⟨hstate', hkind', hcause', hcrystal⟩ := (s.dev.resetDevice 4 [0x0E01] true).crystalLost_kept
    rw [huskBrownout_supplied hv, hstate', hkind', hcause']
    exact ⟨hstate, hkind, hcause, hcrystal⟩
  case refine_10 =>
    exact fun s pll hup h hp => ⟨_, rfl, pllLossOfLock_out hup h hp⟩
  case refine_11 =>
    intro s pll hup hlo hhi
    refine ⟨_, rfl, ?_⟩
    beta_reduce
    rw [pllLossOfLock_engine hup hlo hhi]
    exact Dev.engineOut_out _ _
  case refine_12 =>
    intro s pll hup hinv h
    refine ⟨_, rfl, ?_⟩
    beta_reduce
    rw [pllLossOfLock_hull hup h]
    obtain ⟨hstop, hfault, -⟩ := Dev.lowerPins_stops (d := s.dev.hullFault srcLockstep 0x0B01 0) (Dev.hullFault_stops hinv hup srcLockstep 0x0B01 0)
    exact ⟨hstop, hfault⟩
  case refine_13 =>
    intro s pll hup hinv h
    refine ⟨_, rfl, ?_⟩
    beta_reduce
    rw [pllLossOfLock_reference hup h]
    exact Dev.refFault_stops hinv hup _ _

end Sys2Proof.Machine

/-! PROOF. Power, pins and resets (O53). -/

namespace Sys2Proof.Machine

open Sys2Proof

/-! ## What stopping the NAND leaves of the power unit -/

theorem Dev.landEntry_unretained (d : Dev) (a : NandArea) (copy ticket : Nat) (p : NandPlace) :
    (d.landEntry a copy ticket p).power.unretained = d.power.unretained := by
  unfold Dev.landEntry
  dsimp only
  split
  · exact ite_both (P := fun e : Dev => e.power.unretained = d.power.unretained) rfl
      (ite_both (P := fun e : Dev => e.power.unretained = d.power.unretained) (Dev.raise_unretained _ _ _ _) rfl)
  · rfl

theorem Dev.landProgram_unretained (d : Dev) (w : NandWork) : (d.landProgram w).power.unretained = d.power.unretained := by
  have hpage : (if w.kind = .program then d.programPage w.place d.recd.ringPos else d).power = d.power :=
    ite_both (P := fun e : Dev => e.power = d.power) ((d.programPage_frame _ _).power (by decide)) rfl
  unfold Dev.landProgram
  dsimp only
  split
  · exact congrArg Power.unretained hpage
  · refine ite_both (P := fun e : Dev => e.power.unretained = d.power.unretained) (congrArg Power.unretained hpage) ?_
    exact (Dev.landEntry_unretained _ _ _ _ _).trans (congrArg Power.unretained hpage)

/-- Work that is stopped takes nothing from the power unit but causes for the retained record. -/
theorem Dev.stopNand_unretained (d : Dev) (flush : Bool) : (d.stopNand flush).power.unretained = d.power.unretained := by
  unfold Dev.stopNand
  refine foldl_keeps (g := fun e : Dev => e.power.unretained) (fun e w => ?_) _ d
  refine ite_both (P := fun x : Dev => x.power.unretained = e.power.unretained) rfl
    (ite_both (P := fun x : Dev => x.power.unretained = e.power.unretained) (e.landProgram_unretained w) ?_)
  exact congrArg Power.unretained ((e.cutPage_frame w).power (by decide))

/-- The device whose stop is forced and whose NAND is stopped. -/
def Dev.stoppedNand (d : Dev) (flush : Bool) : Dev := d.huskStop.stopNand flush

theorem Dev.powerDown_power (d : Dev) (st : PowerState) (clean flush : Bool) :
    (d.powerDown st clean flush).power = (d.stoppedNand flush).keptPower st := rfl

theorem Dev.stoppedNand_unretained (d : Dev) (flush : Bool) : (d.stoppedNand flush).power.unretained = d.power.unretained :=
  (d.huskStop.stopNand_unretained flush).trans (congrArg Power.unretained (d.huskStop_frame.power (by decide)))

/-- A power-down keeps the record of the watchdog and the pins. -/
theorem Dev.powerDown_keeps (d : Dev) (st : PowerState) (clean flush : Bool) :
    (d.powerDown st clean flush).power.wdCount = d.power.wdCount ∧ (d.powerDown st clean flush).power.wdStep = d.power.wdStep ∧
      (d.powerDown st clean flush).power.pwrOk = d.power.pwrOk := by
  have h := d.stoppedNand_unretained flush
  rw [Dev.powerDown_power]
  exact ⟨(congrArg Power.wdCount h :), (congrArg Power.wdStep h :), (congrArg Power.pwrOk h :)⟩

theorem Dev.powerDown_state (d : Dev) (st : PowerState) (clean flush : Bool) : (d.powerDown st clean flush).power.state = st := rfl

/-! ## The commands -/

theorem powerOn_off {d : Dev} (h : d.power.vhusk = false) : powerOn d =
    (d.modPower (fun p => { p with vhusk := true, state := .husk, resetKind := 0, retained := [], wdCount := 0, wdStep := 0 })).modStart
      (fun s => { s with due := true }) := by
  unfold powerOn
  rw [if_neg (by simp [h])]

theorem vhuskRemoved_on {d : Dev} (h : d.power.vhusk = true) :
    vhuskRemoved d = (d.powerDown .off false false).modPower
      (fun p => { p with vhusk := false, crystal := false, retained := [], wdCount := 0, wdStep := 0 }) := by
  unfold vhuskRemoved
  rw [if_neg (by simp [h])]

theorem startMoment_due {d : Dev} (h : d.mayStart = true) (hdue : d.start.due = true) : startMoment d = d.beginStart := by
  unfold startMoment
  rw [if_pos (by simp [h, hdue])]

theorem wakeN_free {d : Dev} (h : d.mayStart = true) (hdue : d.start.due = false) : wakeN d = d.beginStart := by
  unfold wakeN
  rw [if_pos (by simp [h, hdue])]

theorem Dev.awaitStart_power (d : Dev) : d.awaitStart.power = d.power := ite_both (P := fun e : Dev => e.power = d.power) rfl rfl

theorem Dev.awaitStart_due {d : Dev} (h : d.power.state = .husk) (hstep : d.start.step = none) : d.awaitStart.start.due = true := by
  unfold Dev.awaitStart
  rw [if_pos ⟨h, hstep⟩]
  rfl

/-- The device with its supplies good. -/
def Dev.supplied (d : Dev) : Dev := d.modPower (fun p => { p with pwrOk := true })

/-- The device whose supplies are no longer good. -/
def Dev.unsupplied (d : Dev) : Dev := d.modPower (fun p => { p with pwrOk := false })

theorem pwrOkRising_eq (d : Dev) : pwrOkRising d = if d.power.resetN then d.supplied.awaitStart else d.supplied := rfl

theorem pwrOkFalling_up {d : Dev} (h : d.up = true) : pwrOkFalling d = d.unsupplied.toHusk [] false true := by
  unfold pwrOkFalling
  exact if_pos (.inl h)

theorem Dev.toHusk_pwrOk (d : Dev) (causes : List Nat) (clean flush : Bool) :
    (d.toHusk causes clean flush).power.pwrOk = (d.powerDown .husk clean flush).power.pwrOk := rfl

theorem resetNAssert_powered {d : Dev} (h : d.power.vhusk = true) :
    resetNAssert d = (d.resetDevice 1 [] false).modPower (fun p => { p with resetN := false, wdCount := 0 }) := by
  unfold resetNAssert
  rw [if_pos h]

theorem resetNRelease_eq (d : Dev) : resetNRelease d = (d.modPower (fun p => { p with resetN := true })).awaitStart := rfl

theorem Dev.resetDevice_state (d : Dev) (kind : Nat) (causes : List Nat) (due : Bool) :
    (d.resetDevice kind causes due).power.state = .husk ∧ (d.resetDevice kind causes due).power.resetKind = kind := ⟨rfl, rfl⟩

theorem Dev.resetDevice_watchdog (d : Dev) (kind : Nat) (causes : List Nat) (due : Bool) :
    (d.resetDevice kind causes due).power.wdCount = (d.powerDown .husk false false).power.wdCount ∧
      (d.resetDevice kind causes due).power.wdStep = (d.powerDown .husk false false).power.wdStep := ⟨rfl, rfl⟩

/-- The device that counts a step of which the watchdog has expired. -/
def Dev.expired (d : Dev) (n : Nat) : Dev := d.modPower (fun p => { p with wdCount := p.wdCount + 1, wdStep := n })

theorem watchdogReset_due {d : Dev} {n : Nat} (h : d.start.step = some n) (hdue : d.watchdogDue n = true) :
    watchdogReset d = (d.expired n).resetDevice 2 [0x0F0C] true := by
  unfold watchdogReset
  simp only [h]
  exact if_pos hdue

/-- Settles O53. -/
theorem powerPins : Obligations.PowerPins := by
  refine ⟨?_, ?_, ?_, ?_, ?_, ?_, ?_, ?_, ?_⟩
  case refine_1 =>
    intro s h
    refine ⟨_, rfl, ?_⟩
    beta_reduce
    rw [powerOn_off h]
    exact ⟨rfl, rfl, rfl, rfl, rfl⟩
  case refine_2 =>
    intro s h
    refine ⟨_, rfl, ?_⟩
    beta_reduce
    rw [vhuskRemoved_on h, Dev.modPower_power]
    exact ⟨s.dev.powerDown_state .off false false, rfl, rfl⟩
  case refine_3 =>
    intro s h hdue
    refine ⟨_, rfl, ?_⟩
    beta_reduce
    rw [startMoment_due h hdue]
    exact ⟨rfl, rfl, rfl⟩
  case refine_4 =>
    intro s h hdue
    refine ⟨_, rfl, ?_⟩
    beta_reduce
    rw [wakeN_free h hdue]
    exact ⟨rfl, rfl⟩
  case refine_5 =>
    intro s
    refine ⟨_, rfl, ?_⟩
    beta_reduce
    rw [pwrOkRising_eq]
    refine ⟨ite_both (P := fun e : Dev => e.power.pwrOk = true) (congrArg Power.pwrOk s.dev.supplied.awaitStart_power) rfl, fun hreset hhusk hstep => ?_⟩
    rw [if_pos hreset]
    exact Dev.awaitStart_due (d := s.dev.supplied) hhusk hstep
  case refine_6 =>
    intro s h
    refine ⟨_, rfl, ?_⟩
    beta_reduce
    rw [pwrOkFalling_up h, Dev.toHusk_pwrOk, (s.dev.unsupplied.powerDown_keeps .husk false true).2.2]
    exact ⟨rfl, Dev.toHusk_state _ _ _ _⟩
  case refine_7 =>
    intro s h
    refine ⟨_, rfl, ?_⟩
    beta_reduce
    rw [resetNAssert_powered h, Dev.modPower_power]
    obtain ⟨hstate, hkind⟩ := s.dev.resetDevice_state 1 [] false
    exact ⟨hstate, hkind, rfl⟩
  case refine_8 =>
    intro s hhusk hstep
    refine ⟨_, rfl, ?_⟩
    beta_reduce
    rw [resetNRelease_eq, Dev.awaitStart_power]
    exact ⟨rfl, Dev.awaitStart_due (d := s.dev.modPower (fun p => { p with resetN := true })) hhusk hstep⟩
  case refine_9 =>
    intro s n h hdue
    refine ⟨_, rfl, ?_⟩
    beta_reduce
    obtain ⟨hstate, hkind, hcause⟩ := (s.dev.expired n).resetDevice_power 2 0x0F0C true
    obtain ⟨hcount, hstep⟩ := (s.dev.expired n).resetDevice_watchdog 2 [0x0F0C] true
    obtain ⟨hcount', hstep', -⟩ := (s.dev.expired n).powerDown_keeps .husk false false
    rw [watchdogReset_due h hdue, hstate, hkind, hcount, hcount', hstep, hstep']
    exact ⟨rfl, rfl, rfl, rfl, hcause⟩

end Sys2Proof.Machine

/-! PROOF. The start-up steps (O54). -/

namespace Sys2Proof.Machine

open Sys2Proof

/-! ## The sequencer -/

/-- Step `n` is complete and the next one runs. -/
def Dev.StepsOn (d : Dev) (n : Nat) : Prop := d.start.last = n ∧ d.start.step = some (n + 1)

theorem Dev.stepDone_stepsOn (d : Dev) (n : Nat) : (d.stepDone n).StepsOn n := ⟨rfl, rfl⟩

theorem Dev.StepsOn.kept {l : List Part} {a b : Dev} {n : Nat} (h : a.StepsOn n) (hframe : Dev.Frame l a b) (hstart : Part.start ∉ l) : b.StepsOn n := by
  unfold Dev.StepsOn
  rw [hframe.start hstart]
  exact h

theorem Dev.stopStart_reports {d : Dev} {c i : Nat} (h : d.Reports c i) : d.stopStart.start.step = none ∧ d.stopStart.Reports c i := ⟨rfl, h⟩

theorem Dev.up_of_standby {d : Dev} (h : d.power.state = .standby) : d.up = true := by simp [Dev.up, h, PowerState.code]

section
variable {d : Dev} {r : StepResult}

/-! ## Steps 1 to 3 -/

theorem step1_passed (h : d.start.step = some 1) (hok : r.ok = true) :
    startupStepComplete r d = (d.modPower (fun p => { p with ldoNormal := true })).stepDone 1 := by
  unfold startupStepComplete step1
  simp only [h]
  exact if_pos hok

theorem step1_failed (h : d.start.step = some 1) (hok : r.ok = false) : startupStepComplete r d = (d.retain 0x0F01).stopStart := by
  unfold startupStepComplete step1
  simp only [h]
  exact if_neg (by simp [hok])

/-- The I/O die is up: the stop is no longer forced, and step 3 runs. -/
def Dev.ioDieUp (d : Dev) : Dev :=
  let d := d.modPower (fun p => { p with state := .standby, enIod := true })
  let d := { d with hull := { d.hull with override := false } }
  (d.modStart (fun s => { s with attempts := 0 })).stepDone 2

theorem step2_passed (h : d.start.step = some 2) (hok : r.ok = true) : startupStepComplete r d =
    if 3 ≤ d.ioDieUp.reportRetained.power.wdCount then (d.ioDieUp.reportRetained.modStart (fun s => { s with held := true })).stopStart
    else d.ioDieUp.reportRetained := by
  unfold startupStepComplete step2
  simp only [h]
  exact if_pos hok

/-- A device past step 2 reports its retained causes, which leaves its power unit alone but for them. -/
theorem Dev.reportRetained_power {d : Dev} (hup : d.up = true) : d.reportRetained.power = { d.power with retained := [] } := by
  unfold Dev.reportRetained
  refine List.foldlRecOn (motive := fun e : Dev => e.power = { d.power with retained := [] }) _ _ rfl (fun e he c hc => ?_)
  have hup' : e.up = true := by rw [Dev.up, he]; exact hup
  rw [Dev.raise_power hup', he]

theorem Dev.ioDieUp_power (d : Dev) : d.ioDieUp.reportRetained.power = { d.power with state := .standby, enIod := true, retained := [] } :=
  Dev.reportRetained_power (d := d.ioDieUp) (Dev.up_of_standby rfl)

theorem Dev.ioDieUp_hull (d : Dev) : d.ioDieUp.reportRetained.hull = { d.hull with override := false } :=
  d.ioDieUp.reportRetained_frame.hull (by decide)

theorem Dev.ioDieUp_stepsOn (d : Dev) : d.ioDieUp.reportRetained.StepsOn 2 :=
  Dev.StepsOn.kept ⟨rfl, rfl⟩ d.ioDieUp.reportRetained_frame (by decide)

/-- Step 3 always leads to step 4: an edge die that is missing only bars RUN. -/
theorem step3_done (h : d.start.step = some 3) : ∃ e : Dev, startupStepComplete r d = e.stepDone 3 := by
  unfold startupStepComplete step3
  simp only [h]
  split
  · exact ⟨_, rfl⟩
  · split <;> exact ⟨_, rfl⟩

/-! ## Steps 4 to 6 -/

theorem step4_passed (h : d.start.step = some 4) (hok : r.ok = true) (hunits : r.units = []) :
    ∃ e : Dev, startupStepComplete r d = e.stepDone 4 := by
  unfold startupStepComplete step4
  simp only [h]
  rw [if_neg (by simp [hok, hunits])]
  exact ⟨_, rfl⟩

theorem step4_failed (h : d.start.step = some 4) (hok : r.ok = false) : startupStepComplete r d = (d.raise 0x0F04 0 0).stopStart := by
  unfold startupStepComplete step4
  simp only [h]
  exact if_pos (.inl hok)

/-- Step 5 always leads to step 6: Pods that fail are OUT. -/
theorem step5_done (h : d.start.step = some 5) : ∃ e : Dev, startupStepComplete r d = e.stepDone 5 := by
  unfold startupStepComplete step5
  simp only [h]
  exact ⟨_, rfl⟩

theorem step6_passed (h : d.start.step = some 6) (hok : r.ok = true) : ∃ e : Dev, startupStepComplete r d = e.stepDone 6 := by
  unfold startupStepComplete step6
  simp only [h]
  rw [if_pos hok]
  exact ⟨_, rfl⟩

theorem step6_failed (h : d.start.step = some 6) (hok : r.ok = false) :
    startupStepComplete r d = ((d.raise 0x0508 0 0).raise 0x0F06 0 0).stopStart := by
  unfold startupStepComplete step6
  simp only [h]
  exact if_neg (by simp [hok])

/-! ## Step 7 -/

theorem Dev.nandUnfit_of_unrecorded {d e : Dev} (h : e.recd.unrecorded = d.recd.unrecorded) (r : StepResult) : e.nandUnfit r = d.nandUnfit r := by
  have hformat : e.recd.formatted = d.recd.formatted := (congrArg Recorder.formatted h :)
  have hring : e.recd.ringBlocks = d.recd.ringBlocks := (congrArg Recorder.ringBlocks h :)
  have hblock : e.recd.blockMiB = d.recd.blockMiB := (congrArg Recorder.blockMiB h :)
  unfold Dev.nandUnfit
  rw [hformat, hring, hblock]

/-- Firmware copies that fail are reported. -/
def Dev.badCopies (d : Dev) (l : List Nat) : Dev := l.foldl Dev.badStage d

theorem Dev.badCopies_unrecorded (d : Dev) (l : List Nat) : (d.badCopies l).recd.unrecorded = d.recd.unrecorded :=
  foldl_keeps (g := fun e : Dev => e.recd.unrecorded) (fun e _ => ((e.raise _ _ _).raise_unrecorded _ _ _).trans (e.raise_unrecorded _ _ _)) l d

theorem step7_passed (h : d.start.step = some 7) (htwo : r.twoBad = []) (hfit : d.nandUnfit r = false) :
    ∃ e : Dev, startupStepComplete r d = e.stepDone 7 := by
  have hfit' : (d.badCopies r.oneBad).nandUnfit r = false := (Dev.nandUnfit_of_unrecorded (d.badCopies_unrecorded _) r).trans hfit
  unfold Dev.badCopies at hfit'
  unfold startupStepComplete step7
  simp only [h]
  rw [if_neg (by simp [hfit']), if_neg (by simp [htwo])]
  exact ⟨_, rfl⟩

/-! ## Steps 8 to 11 -/

/-- The device that has reached READY. -/
def Dev.readied (d : Dev) : Dev := (d.reach .ready).repairRows.stepDone 8

theorem Dev.readied_state (d : Dev) : d.readied.power.state = .ready ∧ d.readied.start.last = 8 := by
  have hrows := (d.reach .ready).repairRows_unretained
  exact ⟨((congrArg Power.state hrows :) : (d.reach .ready).repairRows.power.state = _), rfl⟩

theorem step8_done (h : d.start.step = some 8) :
    startupStepComplete r d = if d.bootPackage.2 then d.bootPackage.1.readied else d.bootPackage.1.readied.stopStart := by
  unfold startupStepComplete step8
  simp only [h]
  rfl

/-- The FIFO pointers are compared, the enabled slots wait for their links, and discovery begins. -/
def Dev.slotsOpened (d : Dev) : Dev :=
  let d : Dev := (List.range (slotsOf d.code)).foldl (fun (d : Dev) n => d.syncSlot n) d.comparePointers
  { d with twin := { d.twin with discovering := d.twin.discovering || d.pairEnabled } }

theorem Dev.slotsOpened_start (d : Dev) : d.slotsOpened.start = d.start := by
  have hsync : ((List.range (slotsOf d.code)).foldl (fun (d : Dev) n => d.syncSlot n) d.comparePointers).start = d.comparePointers.start :=
    foldl_keeps (g := Dev.start) (fun e n => (e.syncSlot_frame n).start (by decide)) _ _
  exact hsync.trans (d.comparePointers_frame.start (by decide))

theorem step9_done (h : d.start.step = some 9) : ∃ e : Dev, startupStepComplete r d = (e.stepDone 9).slotsOpened := by
  unfold startupStepComplete step9
  simp only [h]
  exact ⟨_, rfl⟩

theorem step9_stepsOn (h : d.start.step = some 9) : (startupStepComplete r d).StepsOn 9 := by
  obtain ⟨e, he⟩ := step9_done (r := r) h
  rw [he, Dev.StepsOn, Dev.slotsOpened_start]
  exact e.stepDone_stepsOn 9

theorem step10_done (h : d.start.step = some 10) (hover : d.step10Over = true) :
    (startupStepComplete r d).power.wdCount = 0 ∧ (startupStepComplete r d).start.last = 10 := by
  unfold startupStepComplete step10
  simp only [h]
  rw [if_pos hover]
  exact ite_both (P := fun e : Dev => e.power.wdCount = 0 ∧ e.start.last = 10) ⟨rfl, rfl⟩ ⟨rfl, rfl⟩

theorem step11_eq (h : d.start.step = some 11) (hnext : d.cyc.next = none) (hact : d.prog.activating = none) (hrun : d.power.target = some .run) :
    startupStepComplete r d = match (generalizing := false) d.runRefusal with
      | some c => ((d.raise c 0 0).modPower (fun p => { p with target := none })).stopStart
      | none => d.enterRun := by
  unfold startupStepComplete step11
  simp only [h]
  rw [if_neg (by simp [hnext, hact])]
  exact (if_neg (by simp [hrun])).trans rfl

/-- The first instant of RUN is set. -/
theorem Dev.enterRun_next (d : Dev) : d.enterRun.cyc.next = some d.firstInstant := by
  have h : d.enterRun = d.runBegun.rescheduleTrigs := rfl
  rw [h, d.runBegun.rescheduleTrigs_frame.cyc (by decide)]
  exact d.runBegun_sets.1

/-! ## Sensor supplies -/

/-- The next supply is no longer held back. -/
def Dev.supplyTaken (d : Dev) (t : List Nat) : Dev := d.modStart (fun s => { s with supplies := t, supplyTick := d.tick })

theorem supplySwitchOn_due {n : Nat} {t : List Nat} (h : d.start.supplies = n :: t) (hdue : d.start.supplyTick + msTicks 1 ≤ d.tick) :
    supplySwitchOn d = (d.supplyTaken t).sendCommand := by
  unfold supplySwitchOn
  simp only [h]
  exact if_pos hdue

theorem Dev.sendCommand_edge (h : hasEdge d.code = true) : d.sendCommand = d.emit .edgeCommand 0 [d.sqMask, d.spMask] := if_pos h

end

/-- Settles O54. -/
theorem startupSteps : Obligations.StartupSteps := by
  refine ⟨?_, ?_, ?_, ?_, ?_, ?_, ?_, ?_, ?_, ?_⟩
  case refine_1 =>
    intro s r n hstep hok hunits hn
    refine ⟨_, rfl, ?_⟩
    beta_reduce
    suffices h : (startupStepComplete r s.dev).StepsOn n from h
    have done : (∃ e : Dev, startupStepComplete r s.dev = e.stepDone n) → (startupStepComplete r s.dev).StepsOn n := by
      rintro ⟨e, he⟩
      rw [he]
      exact e.stepDone_stepsOn n
    rcases hn with rfl | rfl | rfl | rfl | rfl | ⟨rfl, hcount⟩ | ⟨rfl, htwo, hfit⟩ | rfl
    · exact done ⟨_, step1_passed hstep hok⟩
    · exact done (step3_done hstep)
    · exact done (step4_passed hstep hok hunits)
    · exact done (step5_done hstep)
    · exact done (step6_passed hstep hok)
    · rw [step2_passed hstep hok, if_neg (by rw [Dev.ioDieUp_power]; exact Nat.not_le.2 hcount)]
      exact s.dev.ioDieUp_stepsOn
    · exact done (step7_passed hstep htwo hfit)
    · exact step9_stepsOn hstep
  case refine_2 =>
    intro s r hstep hok
    refine ⟨_, rfl, ?_⟩
    beta_reduce
    rw [step1_failed hstep hok]
    exact ⟨rfl, List.mem_append_right _ (List.mem_singleton_self _)⟩
  case refine_3 =>
    intro s r hstep hok
    refine ⟨_, rfl, ?_⟩
    beta_reduce
    have hup : s.dev.ioDieUp.reportRetained.power.state = .standby ∧ s.dev.ioDieUp.reportRetained.power.enIod = true ∧
        s.dev.ioDieUp.reportRetained.hull.override = false ∧ s.dev.ioDieUp.reportRetained.power.retained = [] := by
      rw [Dev.ioDieUp_power, Dev.ioDieUp_hull]
      exact ⟨rfl, rfl, rfl, rfl⟩
    rw [step2_passed hstep hok]
    exact ite_both (P := fun e : Dev => e.power.state = .standby ∧ e.power.enIod = true ∧ e.hull.override = false ∧ e.power.retained = []) hup hup
  case refine_4 =>
    intro s r hup hstep hok
    refine ⟨_, rfl, ?_⟩
    beta_reduce
    rw [step4_failed hstep hok]
    exact Dev.stopStart_reports (Dev.raise_reports hup _ _ _)
  case refine_5 =>
    intro s r hup hstep hok
    refine ⟨_, rfl, ?_⟩
    beta_reduce
    rw [step6_failed hstep hok]
    exact Dev.stopStart_reports (Dev.raise_reports ((s.dev.raise_up _ _ _).trans hup) _ _ _)
  case refine_6 =>
    intro s r hstep
    refine ⟨_, rfl, ?_⟩
    beta_reduce
    rw [step8_done hstep]
    exact ite_both (P := fun e : Dev => e.power.state = .ready ∧ e.start.last = 8) (Dev.readied_state _) (Dev.readied_state _)
  case refine_7 => exact fun s r hstep hover => ⟨_, rfl, step10_done hstep hover⟩
  case refine_8 =>
    intro s r hstep hnext hact hrun hgood
    refine ⟨_, rfl, ?_⟩
    beta_reduce
    rw [step11_eq hstep hnext hact hrun]
    simp only [hgood]
    rw [s.dev.enterRun_frame.start (by decide)]
    exact ⟨s.dev.enterRun_next, hstep⟩
  case refine_9 =>
    intro s r x hup hstep hnext hact hrun hbad
    refine ⟨_, rfl, ?_⟩
    beta_reduce
    rw [step11_eq hstep hnext hact hrun]
    simp only [hbad]
    exact ⟨rfl, (congrArg Cycles.next ((s.dev.raise_frame x 0 0).cyc (by decide))).trans hnext, Dev.raise_reports hup x 0 0⟩
  case refine_10 =>
    intro s n t hlist hedge hdue
    refine ⟨_, rfl, ?_⟩
    beta_reduce
    rw [supplySwitchOn_due hlist hdue, Dev.sendCommand_edge (d := s.dev.supplyTaken t) hedge]
    exact ⟨rfl, rfl⟩

end Sys2Proof.Machine

/-! PROOF. Memory byte by byte (O55). -/

namespace Sys2Proof.Machine

open Sys2Proof

/-! ## Reads of a run -/

theorem Memory.length_readN (m : Memory) : ∀ k n, (m.readN k n).length = n
  | _, 0 => rfl
  | k, n + 1 => congrArg (· + 1) (m.length_readN (k + 1) n)

theorem Memory.getElem_readN (m : Memory) : ∀ (k n i : Nat) (h : i < (m.readN k n).length), (m.readN k n)[i] = m.read (k + i)
  | _, 0, _, h => absurd h (Nat.not_lt_zero _)
  | _, _ + 1, 0, _ => rfl
  | k, n + 1, i + 1, h => by
    have hrest := m.getElem_readN (k + 1) n i (Nat.lt_of_succ_lt_succ h)
    rw [Nat.add_right_comm k 1 i] at hrest
    exact hrest

/-- A run that is copied reads as its source, and every other byte as before. -/
theorem Memory.read_copy (m : Memory) (src dst n : Nat) :
    (∀ i, i < n → (m.store dst (m.readN src n)).read (dst + i) = m.read (src + i)) ∧
      ∀ j, j < dst ∨ dst + n ≤ j → (m.store dst (m.readN src n)).read j = m.read j := by
  have hlen := m.length_readN src n
  refine ⟨fun i hi => ?_, fun j hj => m.read_store_out _ dst j (by rwa [hlen])⟩
  rw [m.read_store_in _ dst i (by rwa [hlen]), m.getElem_readN]

/-! ## Patrol and region tests -/

theorem Memory.read_of_bytes {m n : Memory} (h : n.bytes = m.bytes) (j : Nat) : n.read j = m.read j := by
  unfold Memory.read
  rw [h]

theorem Dev.patrolBad_bytes (d : Dev) (k : Nat) : (d.patrolBad k).mem.bytes = d.mem.bytes := by
  unfold Dev.patrolBad
  dsimp only
  split
  · rw [Dev.raise_mem, (Dev.badRow_frame _ _).mem (by decide)]
  · split
    · rw [(Dev.sweepRuns_frame _).mem (by decide), (Dev.retirePage_frame _ _ _).mem (by decide), Dev.raise_mem, (Dev.badRow_frame _ _).mem (by decide)]
    · rw [Dev.raise_mem, (Dev.badRow_frame _ _).mem (by decide)]

theorem Dev.patrolNext_mem (d : Dev) (addr : Nat) : (d.patrolNext addr).mem = d.mem := ite_both (P := fun e : Dev => e.mem = d.mem) rfl rfl

theorem patrolRead_bytes (addr : Nat) (r : BurstResult) (wp : Bool) (d : Dev) : (patrolRead addr r wp d).mem.bytes = d.mem.bytes := by
  unfold patrolRead
  refine ite_both (P := fun e : Dev => e.mem.bytes = d.mem.bytes) ?_ rfl
  dsimp only
  rw [Dev.patrolNext_mem]
  cases r with
  | good => rfl
  | corrected => rfl
  | uncorrectable => exact d.patrolBad_bytes _

theorem memtestRegionComplete_bytes (b : Bank) (region : Nat) (ecc : List EccEvent) (d : Dev) :
    (memtestRegionComplete b region false ecc d).mem.bytes = d.mem.bytes := by
  unfold memtestRegionComplete Dev.testRegion
  refine ite_both (P := fun e : Dev => e.mem.bytes = d.mem.bytes) rfl ?_
  obtain ⟨-, hbytes, -⟩ := d.readRegion_mem ((bankInfo b).1 * 4096 + region) ecc
  exact (congrArg Memory.bytes (d.endTest_mem _ _ _ _ _)).trans hbytes

/-! ## Attention write-backs -/

/-- The write-back of a region is no longer under way. -/
def Dev.unbacked (d : Dev) (x : Nat × Nat × Nat) : Dev := d.modKv (fun v => { v with backs := v.backs.erase x })

section
variable {d : Dev} {g c run : Nat} (hback : d.kv.backs.find? (fun b => b.1 == g) = some (g, c, run))

include hback

theorem kvWriteBackComplete_good (hcycle : (d.kvRec g (d.kvPos c)).cycle = c) (hpresent : (d.kvRec g (d.kvPos c)).state = .present)
    (hhot : (d.kvRec g (d.kvPos c)).hot = true) :
    kvWriteBackComplete g false d = ((d.unbacked (g, c, run)).copyPages (d.kvRec g (d.kvPos c)).hotRun run).modRecord g (d.kvPos c)
      (fun r => { r with pool := true, poolRun := run }) := by
  unfold kvWriteBackComplete
  simp only [hback]
  exact if_pos ⟨trivial, hcycle, hpresent, hhot⟩

theorem kvWriteBackComplete_faulted : kvWriteBackComplete g true d = (d.unbacked (g, c, run)).freePoolRun run := by
  unfold kvWriteBackComplete
  simp only [hback]
  exact if_neg (by simp)

end

theorem Dev.kvRec_modRecord (d : Dev) (g k : Nat) (f : KvRecord → KvRecord) :
    (d.modRecord g k f).kvRec g k = { f (d.kvRec g k) with crc := recordCrc (f (d.kvRec g k)) } := kget_kset_same

theorem Dev.copyPages_mem {d : Dev} {h p : Nat} (hhot : d.kvBase 15 = some h) (hpool : d.kvBase 16 = some p) (hot pool : Nat) :
    (d.copyPages hot pool).mem = d.mem.store (p + pool * d.att 1) (d.mem.readN (h + hot * d.att 1) (d.kvPe * d.att 1)) := by
  unfold Dev.copyPages
  simp only [hhot, hpool]
  rfl

theorem Dev.unbacked_kept (d : Dev) (x : Nat × Nat × Nat) : (d.unbacked x).mem = d.mem ∧ (d.unbacked x).att 1 = d.att 1 ∧
    (d.unbacked x).kvPe = d.kvPe ∧ (d.unbacked x).kvBase 15 = d.kvBase 15 ∧ (d.unbacked x).kvBase 16 = d.kvBase 16 := ⟨rfl, rfl, rfl, rfl, rfl⟩

/-- Settles O55. -/
theorem memoryBytes : Obligations.MemoryBytes := by
  refine ⟨?_, fun s w j => ⟨_, rfl, rfl⟩, fun s a j r wp => ⟨_, rfl, Memory.read_of_bytes (patrolRead_bytes a r wp s.dev) j⟩,
    fun s b region j ecc => ⟨_, rfl, Memory.read_of_bytes (memtestRegionComplete_bytes b region ecc s.dev) j⟩, ?_, ?_⟩
  · exact fun m k l h => ⟨Memory.store_wf h k l, fun i hi => m.read_store_in l k i hi, fun j hj => m.read_store_out l k j hj⟩
  · intro s g c run h p hback hcycle hpresent hhot hhbase hpbase
    refine ⟨_, rfl, ?_⟩
    beta_reduce
    obtain ⟨hmem, hatt, hpe, hbase15, hbase16⟩ := s.dev.unbacked_kept (g, c, run)
    rw [kvWriteBackComplete_good hback hcycle hpresent hhot, Dev.kvRec_modRecord, Dev.modRecord_mem,
      Dev.copyPages_mem (hbase15.trans hhbase) (hbase16.trans hpbase), hmem, hatt, hpe]
    obtain ⟨hin, hout⟩ := s.dev.mem.read_copy (h + (s.dev.kvRec g (s.dev.kvPos c)).hotRun * s.dev.att 1) (p + run * s.dev.att 1) (s.dev.kvPe * s.dev.att 1)
    exact ⟨rfl, rfl, hin, hout⟩
  · intro s g c run hback
    refine ⟨_, rfl, ?_⟩
    beta_reduce
    rw [kvWriteBackComplete_faulted hback]
    refine ⟨rfl, rfl, fun r hr => ?_⟩
    have hkept := (List.mem_filter.1 hr).2
    exact bne_iff_ne.1 hkept

end Sys2Proof.Machine

/-! PROOF. What the service of the LUNs leaves of the recorder, and which work it keeps (R485, R496, R502). -/

namespace Sys2Proof.Machine

open Sys2Proof

/-! ## The recorder but for its work -/

/-- The recorder but for what its LUNs do, will do and where the next page goes. -/
def Recorder.unserved (r : Recorder) : Recorder := { r with heads := [], work := [], running := [] }

/-- Work is added, and nothing but the next pages' places changes with it. -/
def Dev.AddsWork (d e : Dev) : Prop :=
  e.recd.unserved = d.recd.unserved ∧ e.recd.running = d.recd.running ∧ ∀ x, x ∈ d.recd.work → x ∈ e.recd.work

theorem Dev.AddsWork.refl (d : Dev) : d.AddsWork d := ⟨rfl, rfl, fun _ h => h⟩

theorem Dev.AddsWork.trans {a b c : Dev} (h : a.AddsWork b) (h' : b.AddsWork c) : a.AddsWork c :=
  ⟨h'.1.trans h.1, h'.2.1.trans h.2.1, fun x hx => h'.2.2 x (h.2.2 x hx)⟩

theorem Dev.setHead_addsWork (d : Dev) (a : NandArea) (copy : Nat) (h : NandHead) : d.AddsWork (d.setHead a copy h) := ⟨rfl, rfl, fun _ hx => hx⟩

theorem Dev.enqueueWork_addsWork (d : Dev) (w : NandWork) : d.AddsWork (d.enqueueWork w) := ⟨rfl, rfl, fun _ hx => List.mem_append_left _ hx⟩

theorem Dev.eraseLater_addsWork (d : Dev) (cls : Nat) (a : NandArea) (copy : Fin 2) (b : Nat) : d.AddsWork (d.eraseLater cls a copy b) :=
  d.enqueueWork_addsWork _

/-- The ring opens its pages without a snapshot. -/
theorem Dev.openRing_addsWork (d : Dev) (copy : Fin 2) : d.AddsWork (d.openPage .ring copy).1 := by
  unfold Dev.openPage
  dsimp only
  split
  · exact Dev.setHead_addsWork _ _ _ _
  · split
    · split
      next h => exact absurd rfl h.2
      next => exact (Dev.setHead_addsWork _ _ _ _).trans (Dev.setHead_addsWork _ _ _ _)
    · split
      · exact (Dev.eraseLater_addsWork _ _ _ _ _).trans ((Dev.setHead_addsWork _ _ _ _).trans (Dev.setHead_addsWork _ _ _ _))
      · exact Dev.setHead_addsWork _ _ _ _

theorem Dev.fillRing_addsWork (d : Dev) : d.AddsWork d.fillRing := by
  have hring : ∀ bytes, d.AddsWork (d.programLater 3 .ring 0 0 bytes) := by
    intro bytes
    unfold Dev.programLater
    exact (d.openRing_addsWork 0).trans (Dev.enqueueWork_addsWork _ _)
  unfold Dev.fillRing
  exact ite_both (P := d.AddsWork) (.refl d) (ite_both (P := d.AddsWork) (hring _) (.refl d))

/-! ## Serving the LUNs -/

theorem Dev.startLun_unserved (d : Dev) (lun : Nat) : (d.startLun lun).recd.unserved = d.recd.unserved := by
  unfold Dev.startLun
  split <;> rfl

theorem Dev.serveNand_unserved (d : Dev) : d.serveNand.recd.unserved = d.recd.unserved := by
  unfold Dev.serveNand
  exact (foldl_keeps (g := fun e : Dev => e.recd.unserved) Dev.startLun_unserved _ _).trans d.fillRing_addsWork.1

theorem Recorder.fields_of_unserved {a b : Recorder} (h : a.unserved = b.unserved) :
    a.blocks = b.blocks ∧ a.pages = b.pages ∧ a.refresh = b.refresh ∧ a.pageKiB = b.pageKiB ∧ a.staged = b.staged ∧ a.bad = b.bad ∧
      a.lateReads = b.lateReads ∧ a.readRetry = b.readRetry :=
  ⟨(congrArg Recorder.blocks h :), (congrArg Recorder.pages h :), (congrArg Recorder.refresh h :), (congrArg Recorder.pageKiB h :),
    (congrArg Recorder.staged h :), (congrArg Recorder.bad h :), (congrArg Recorder.lateReads h :), (congrArg Recorder.readRetry h :)⟩

/-- Which LUN a block lies in does not change. -/
theorem Dev.lunOf_of_shape {d e : Dev} (hcap : e.recd.capacity = d.recd.capacity) (hblock : e.recd.blockMiB = d.recd.blockMiB)
    (hchips : e.recd.chips = d.recd.chips) (hluns : e.recd.luns = d.recd.luns) (b : Nat) : e.lunOf b = d.lunOf b := by
  unfold Dev.lunOf Dev.lunBlocks Dev.luns
  rw [hcap, hblock, hchips, hluns]

theorem Dev.lunOf_of_unserved {d e : Dev} (h : e.recd.unserved = d.recd.unserved) (b : Nat) : e.lunOf b = d.lunOf b :=
  Dev.lunOf_of_shape (congrArg Recorder.capacity h :) (congrArg Recorder.blockMiB h :) (congrArg Recorder.chips h :) (congrArg Recorder.luns h :) b

theorem Dev.serveNand_block (d : Dev) (b : Nat) : d.serveNand.block b = d.block b := by
  unfold Dev.block
  rw [(Recorder.fields_of_unserved d.serveNand_unserved).1]

theorem Dev.runningOn_of_running {d e : Dev} (h : e.recd.running = d.recd.running) (lun : Nat) : e.runningOn lun = d.runningOn lun := by
  unfold Dev.runningOn
  rw [h]

/-- What runs on a LUN. -/
def Dev.setRunning (d : Dev) (lun : Nat) (o : Option NandWork) : Dev := d.modRec (fun r => { r with running := kset none r.running lun o })

theorem Dev.setRunning_runningOn (d : Dev) (lun : Nat) (o : Option NandWork) : (d.setRunning lun o).runningOn lun = o := kget_kset_same

theorem Dev.setRunning_runningOn_other (d : Dev) {lun l : Nat} (h : l ≠ lun) (o : Option NandWork) : (d.setRunning lun o).runningOn l = d.runningOn l :=
  kget_kset_other h

theorem Dev.setRunning_pages (d : Dev) (lun : Nat) (o : Option NandWork) : (d.setRunning lun o).recd.pages = d.recd.pages := rfl

theorem Dev.setRunning_block (d : Dev) (lun : Nat) (o : Option NandWork) (b : Nat) : (d.setRunning lun o).block b = d.block b := rfl

/-- Work that leaves the queue. -/
def Dev.takeWork (d : Dev) (w : NandWork) : Dev := d.modRec (fun r => { r with work := r.work.erase w })

/-- A LUN that takes work is idle, and the work leaves the queue. -/
theorem Dev.startLun_cases (d : Dev) (lun : Nat) : d.startLun lun = d ∨ ∃ w, d.runningOn lun = none ∧
    d.startLun lun = (d.takeWork w).setRunning lun (some w) := by
  unfold Dev.startLun
  split
  next w hidle _ => exact .inr ⟨w, hidle, rfl⟩
  next => exact .inl rfl

/-- Nothing that has started is pre-empted. -/
theorem Dev.startLun_running {d : Dev} {l : Nat} {w : NandWork} (h : d.runningOn l = some w) (lun : Nat) : (d.startLun lun).runningOn l = some w := by
  rcases d.startLun_cases lun with he | ⟨v, hidle, he⟩
  · rwa [he]
  · have hl : l ≠ lun := by
      rintro rfl
      rw [h] at hidle
      exact Option.some_ne_none _ hidle
    rw [he]
    exact (Dev.setRunning_runningOn_other _ hl _).trans h

theorem Dev.serveNand_running {d : Dev} {l : Nat} {w : NandWork} (h : d.runningOn l = some w) : d.serveNand.runningOn l = some w := by
  unfold Dev.serveNand
  refine List.foldlRecOn (motive := fun e : Dev => e.runningOn l = some w) _ _ ?_ (fun e he lun _ => Dev.startLun_running he lun)
  exact (Dev.runningOn_of_running d.fillRing_addsWork.2.1 l).trans h

/-- Work waits or is in progress. -/
def Dev.Pending (d : Dev) (x : NandWork) : Prop := x ∈ d.recd.work ∨ ∃ lun, d.runningOn lun = some x

theorem Dev.startLun_pending {d : Dev} {x : NandWork} (h : d.Pending x) (lun : Nat) : (d.startLun lun).Pending x := by
  rcases h with hwaits | ⟨l, hruns⟩
  · rcases d.startLun_cases lun with he | ⟨v, -, he⟩
    · rw [he]
      exact .inl hwaits
    · rw [he]
      by_cases hx : x = v
      · exact .inr ⟨lun, by rw [hx]; exact Dev.setRunning_runningOn _ _ _⟩
      · exact .inl ((List.mem_erase_of_ne hx).2 hwaits)
  · exact .inr ⟨l, Dev.startLun_running hruns lun⟩

/-- No work is lost as the LUNs are served. -/
theorem Dev.serveNand_pending {d : Dev} {x : NandWork} (h : d.Pending x) : d.serveNand.Pending x := by
  obtain ⟨-, hrunning, hwork⟩ := d.fillRing_addsWork
  unfold Dev.serveNand
  refine List.foldlRecOn (motive := fun e : Dev => e.Pending x) _ _ ?_ (fun e he lun _ => Dev.startLun_pending he lun)
  exact h.imp (hwork x) (fun ⟨l, hl⟩ => ⟨l, (Dev.runningOn_of_running hrunning l).trans hl⟩)

theorem Dev.serveNand_reports (d : Dev) (c i : Nat) : d.serveNand.Reports c i ↔ d.Reports c i := d.serveNand_frame.reports (by decide) c i

theorem Dev.serveNand_up (d : Dev) : d.serveNand.up = d.up := by
  unfold Dev.up
  rw [d.serveNand_frame.power (by decide)]

end Sys2Proof.Machine

/-! PROOF. Upkeep of the NAND (O49). -/

namespace Sys2Proof.Machine

open Sys2Proof

/-! ## Blocks and stores -/

theorem mem_kput {α : Type} {k : Nat} {v : α} {x : Nat × α} : ∀ {m : Store α}, x ∈ kput m k v → x.1 = k ∨ x ∈ m
  | [], h => .inl (congrArg Prod.fst (List.mem_singleton.1 h))
  | (k', v') :: t, h => by
    unfold kput at h
    split at h
    · exact (List.mem_cons.1 h).imp (congrArg Prod.fst) id
    · split at h
      · exact (List.mem_cons.1 h).imp (congrArg Prod.fst) (List.mem_cons_of_mem _)
      · rcases List.mem_cons.1 h with hx | ht
        · exact .inr (hx ▸ List.mem_cons_self)
        · exact (mem_kput ht).imp_right (List.mem_cons_of_mem _)

theorem mem_kset {α : Type} [DecidableEq α] {z v : α} {m : Store α} {k : Nat} {x : Nat × α} (h : x ∈ kset z m k v) : x.1 = k ∨ x ∈ m := by
  unfold kset at h
  split at h
  · exact .inr (List.mem_filter.1 h).1
  · exact mem_kput h

theorem Dev.block_of_blocks {d e : Dev} (h : e.recd.blocks = d.recd.blocks) (b : Nat) : e.block b = d.block b := by
  unfold Dev.block
  rw [h]

theorem Dev.raise_block (d : Dev) (c i x b : Nat) : (d.raise c i x).block b = d.block b :=
  Dev.block_of_blocks (congrArg Recorder.blocks (d.raise_unrecorded c i x) :) b

/-- A fold over a list that is not empty ends with what each of its steps brings about. -/
theorem foldl_brings {α β : Type} {f : α → β → α} {P Q : α → Prop} {l : List β} (hstep : ∀ a x, x ∈ l → P a → P (f a x) ∧ Q (f a x)) {a : α} (ha : P a)
    (hl : l ≠ []) : Q (l.foldl f a) := by
  have h : P (l.foldl f a) ∧ (l ≠ [] → Q (l.foldl f a)) := by
    clear hl
    induction l generalizing a with
    | nil => exact ⟨ha, fun h => absurd rfl h⟩
    | cons x t ih =>
      obtain ⟨hP, hQ⟩ := hstep a x List.mem_cons_self ha
      obtain ⟨hP', hQ'⟩ := ih (fun a y hy => hstep a y (List.mem_cons_of_mem _ hy)) hP
      refine ⟨hP', fun _ => ?_⟩
      cases t with
      | nil => exact hQ
      | cons y t => exact hQ' (List.cons_ne_nil _ _)
  exact h.2 hl

/-! ## The refresh queue -/

/-- The recorder but for its refresh queue. -/
def Recorder.unqueued (r : Recorder) : Recorder := { r with refresh := [], bootAged := [] }

/-- What start-up finds aged is remembered for the first commit. -/
def Dev.agedNoted (d : Dev) (b : Nat) : Dev :=
  if d.start.step = some 7 ∨ d.start.step = some 8 then d.modRec (fun r => { r with bootAged := sins b r.bootAged }) else d

/-- A block joins the queue, ahead of the others or behind them. -/
def Dev.queued (d : Dev) (b reason : Nat) (first : Bool) : Dev := d.modRec (fun r => { r with
  refresh := if first then (b, reason) :: d.recd.refresh.filter (fun q => !(q.1 == b)) else d.recd.refresh.filter (fun q => !(q.1 == b)) ++ [(b, reason)] })

theorem Dev.queueRefresh_eq (d : Dev) (b reason : Nat) (first : Bool) : d.queueRefresh b reason first =
    if (d.agedNoted b).recd.refresh.any (fun q => q.1 == b) && !first then d.agedNoted b else (d.agedNoted b).queued b reason first := rfl

theorem Dev.agedNoted_kept (d : Dev) (b : Nat) : (d.agedNoted b).recd.unqueued = d.recd.unqueued ∧ (d.agedNoted b).recd.refresh = d.recd.refresh :=
  ite_both (P := fun e : Dev => e.recd.unqueued = d.recd.unqueued ∧ e.recd.refresh = d.recd.refresh) ⟨rfl, rfl⟩ ⟨rfl, rfl⟩

theorem Dev.queueRefresh_unqueued (d : Dev) (b reason : Nat) (first : Bool) : (d.queueRefresh b reason first).recd.unqueued = d.recd.unqueued := by
  have h := (d.agedNoted_kept b).1
  rw [Dev.queueRefresh_eq]
  exact ite_both (P := fun e : Dev => e.recd.unqueued = d.recd.unqueued) h h

theorem Dev.queueRefresh_first (d : Dev) (b reason : Nat) : (d.queueRefresh b reason true).recd.refresh.head? = some (b, reason) := by
  rw [Dev.queueRefresh_eq, if_neg (by simp)]
  rfl

/-- A block awaits its refresh. -/
def Dev.Aged (d : Dev) (b : Nat) : Prop := ∃ x, x ∈ d.recd.refresh ∧ x.1 = b

theorem Dev.queued_aged (d : Dev) (b reason : Nat) (first : Bool) : (d.queued b reason first).Aged b := by
  cases first with
  | true => exact ⟨(b, reason), List.mem_cons_self, rfl⟩
  | false => exact ⟨(b, reason), List.mem_append_right _ (List.mem_singleton_self _), rfl⟩

theorem Dev.queued_keeps {d : Dev} {a : Nat} (h : d.Aged a) (b reason : Nat) (first : Bool) : (d.queued b reason first).Aged a := by
  by_cases hab : a = b
  · rw [hab]
    exact d.queued_aged b reason first
  · obtain ⟨x, hx, rfl⟩ := h
    have hrest : x ∈ d.recd.refresh.filter (fun q => !(q.1 == b)) := List.mem_filter.2 ⟨hx, by simp [hab]⟩
    cases first with
    | true => exact ⟨x, List.mem_cons_of_mem _ hrest, rfl⟩
    | false => exact ⟨x, List.mem_append_left _ hrest, rfl⟩

theorem Dev.Aged.of_refresh {d e : Dev} {a : Nat} (h : d.Aged a) (hr : e.recd.refresh = d.recd.refresh) : e.Aged a := by
  unfold Dev.Aged
  rwa [hr]

theorem Dev.queueRefresh_aged (d : Dev) (b reason : Nat) (first : Bool) : (d.queueRefresh b reason first).Aged b := by
  rw [Dev.queueRefresh_eq]
  split
  next h =>
    obtain ⟨x, hx, hb⟩ := List.any_eq_true.1 (Bool.and_eq_true_iff.1 h).1
    exact ⟨x, hx, beq_iff_eq.1 hb⟩
  next => exact Dev.queued_aged _ _ _ _

theorem Dev.queueRefresh_keeps {d : Dev} {a : Nat} (h : d.Aged a) (b reason : Nat) (first : Bool) : (d.queueRefresh b reason first).Aged a := by
  have h' := h.of_refresh (d.agedNoted_kept b).2
  rw [Dev.queueRefresh_eq]
  exact ite_both (P := fun e : Dev => e.Aged a) h' (Dev.queued_keeps h' _ _ _)

/-! ## Reads -/

/-- A read is counted. -/
def Dev.readCounted (d : Dev) (b : Nat) : Dev := d.modBlock b (fun x => { x with reads := x.reads + 1 })

theorem Dev.countRead_eq (d : Dev) (b : Nat) : d.countRead b =
    if 100000 ≤ ((d.readCounted b).block b).reads then (d.readCounted b).queueRefresh b 2 false else d.readCounted b := rfl

theorem Dev.countRead_few {d : Dev} {b : Nat} (h : (d.block b).reads + 1 < 100000) : d.countRead b = d.readCounted b := by
  have hreads : ((d.readCounted b).block b).reads = (d.block b).reads + 1 := congrArg NandBlock.reads (d.modBlock_block b _)
  rw [Dev.countRead_eq, if_neg (by omega)]

/-- The recorder but for its refresh queue and its blocks' counts. -/
def Recorder.uncounted (r : Recorder) : Recorder := { r.unqueued with blocks := [] }

theorem Dev.countRead_uncounted (d : Dev) (b : Nat) : (d.countRead b).recd.uncounted = d.recd.uncounted := by
  rw [Dev.countRead_eq]
  refine ite_both (P := fun e : Dev => e.recd.uncounted = d.recd.uncounted) ?_ rfl
  exact (congrArg (fun r : Recorder => { r with blocks := [] }) ((d.readCounted b).queueRefresh_unqueued b 2 false) :)

theorem Dev.countRead_up (d : Dev) (b : Nat) : (d.countRead b).up = d.up := by
  rw [Dev.countRead_eq]
  refine ite_both (P := fun e : Dev => e.up = d.up) ?_ rfl
  unfold Dev.up
  rw [(Dev.queueRefresh_frame _ _ _ _).power (by decide)]
  rfl

section
variable {d : Dev} {p : NandPlace} {ok : Bool}

/-- A codeword that decodes hard asks for a refresh at most. -/
theorem Dev.cwOutcome_hard (d : Dev) (p : NandPlace) (ok : Bool) (bits i : Nat) :
    d.cwOutcome p ok (.hard bits, i) = if 60 < bits then d.queueRefresh p.block 1 false else d := rfl

/-- What a codeword reports that is decoded soft. -/
def Dev.softReported (d : Dev) (p : NandPlace) : Dev := d.raise 0x1002 0 (nandDetail p.area (d.blockPages * d.logicalBlock p.block + p.page))

theorem Dev.cwOutcome_soft (hretry : d.recd.readRetry = true) (i : Nat) :
    d.cwOutcome p ok (.soft, i) = (d.softReported p).queueRefresh p.block 1 true := by
  unfold Dev.cwOutcome
  exact if_neg (by simp [hretry])

theorem Dev.cwOutcome_missing (d : Dev) (p : NandPlace) (ok : Bool) (i : Nat) : d.cwOutcome p ok (.missing, i) = d.missing p i ok := rfl

/-- The report of a missing codeword, whose place no longer reads. -/
def Dev.missed (d : Dev) (p : NandPlace) (i : Nat) : Dev :=
  (d.raise 0x1001 0 (nandDetail p.area (d.blockPages * d.logicalBlock p.block + p.page))).spoilPage p.block p.page (fun k => k == i)

theorem Dev.missed_reports (hup : d.up = true) (i : Nat) : (d.missed p i).up = true ∧ (d.missed p i).Reports 0x1001 0 :=
  ⟨(Dev.raise_up _ _ _ _).trans hup, ((Dev.spoilPage_frame _ _ _ _).reports (by decide) _ _).2 (Dev.raise_reports hup _ _ _)⟩

theorem Dev.missing_reports (hup : d.up = true) (i : Nat) : (d.missing p i ok).up = true ∧ (d.missing p i ok).Reports 0x1001 0 := by
  have h : (d.missed p i).up = true ∧ (d.missed p i).Reports 0x1001 0 := Dev.missed_reports hup i
  unfold Dev.missed at h
  unfold Dev.missing
  dsimp only
  split
  · exact h
  · split
    · exact h
    · exact h
  · exact ite_both (P := fun e : Dev => e.up = true ∧ e.Reports 0x1001 0) h h

theorem Dev.readDone_one (hsize : 4 ≤ d.recd.pageKiB) (x : CwOutcome) : d.readDone p [x] ok = (d.countRead p.block).cwOutcome p ok (x, 0) := by
  obtain ⟨n, hn⟩ : ∃ n, d.recd.pageKiB / 4 = n + 1 := ⟨d.recd.pageKiB / 4 - 1, by omega⟩
  unfold Dev.readDone
  rw [hn, List.take_succ_cons, List.take_nil]
  rfl

/-- One codeword that decodes hard with few bits corrected leaves nothing but its count. -/
theorem Dev.readDone_clean {bits : Nat} (hbits : bits ≤ 60) : d.readDone p [.hard bits] ok = d.countRead p.block := by
  have hnone : ∀ e : Dev, e.cwOutcome p ok (.hard bits, 0) = e := fun e => by rw [Dev.cwOutcome_hard, if_neg (Nat.not_lt.2 hbits)]
  unfold Dev.readDone
  cases d.recd.pageKiB / 4 with
  | zero => rfl
  | succ n =>
    rw [List.take_succ_cons, List.take_nil]
    exact hnone _

/-- A page none of whose codewords reads is reported. -/
theorem Dev.readDone_lost (hup : d.up = true) (hsize : 4 ≤ d.recd.pageKiB) :
    (d.readDone p (List.replicate (d.recd.pageKiB / 4) .missing) ok).Reports 0x1001 0 := by
  unfold Dev.readDone
  rw [List.take_replicate, Nat.min_self]
  refine foldl_brings (P := fun e : Dev => e.up = true) (Q := fun e : Dev => e.Reports 0x1001 0) (fun e x hx he => ?_)
    ((d.countRead_up _).trans hup) ?_
  · obtain ⟨y, i⟩ := x
    have hy : y = .missing := List.eq_of_mem_replicate (List.fst_mem_of_mem_zipIdx hx)
    rw [hy, Dev.cwOutcome_missing]
    exact Dev.missing_reports he i
  · intro h
    have hlen := congrArg List.length h
    rw [List.length_zipIdx, List.length_replicate, List.length_nil] at hlen
    omega

end

/-! ## The operation in progress -/

section
variable {d : Dev} {p : NandPlace} {w : NandWork} {ok : Bool} {o : NandOutcome}

theorem nandOperationComplete_running (hup : d.up = true) (h : d.serveNand.runningOn (d.lunOf p.block) = some w) (hp : w.place = p) :
    nandOperationComplete p o ok d = (d.serveNand.endWork w o).serveNand := by
  unfold nandOperationComplete
  rw [if_neg (by simp [hup])]
  dsimp only
  rw [Dev.lunOf_of_unserved d.serveNand_unserved, h]
  exact if_pos hp

theorem nandOperationComplete_read (hup : d.up = true) (h : d.serveNand.runningOn (d.lunOf p.block) = none) (l : List CwOutcome) :
    nandOperationComplete p (.read l) ok d = (d.serveNand.readDone p l ok).serveNand := by
  unfold nandOperationComplete
  rw [if_neg (by simp [hup])]
  dsimp only
  rw [Dev.lunOf_of_unserved d.serveNand_unserved, h]

/-- The LUN whose operation has ended is idle. -/
def Dev.idled (d : Dev) (w : NandWork) : Dev := d.setRunning (d.lunOf w.place.block) none

theorem Dev.endWork_erased (hkind : w.kind = .erase) : d.endWork w .erased = (d.idled w).eraseBlock w.place.block := by
  unfold Dev.endWork
  simp only [hkind]
  rfl

theorem Dev.endWork_done (hkind : w.kind = .program) :
    d.endWork w .done = (d.programPage w.place d.recd.ringPos).setRunning (d.lunOf w.place.block) (some { w with kind := .readBack }) := by
  unfold Dev.endWork
  simp only [hkind]
  rfl

theorem Dev.endWork_failed (hkind : w.kind = .program ∨ w.kind = .erase) : d.endWork w .failed = (d.idled w).failWork w := by
  unfold Dev.endWork
  rcases hkind with hkind | hkind <;> simp only [hkind] <;> rfl

/-- The read-back of a page is counted, and its codewords' outcomes taken in turn. -/
def Dev.pageReadBack (d : Dev) (w : NandWork) (l : List CwOutcome) : Dev :=
  l.zipIdx.foldl (fun d x => d.cwOutcome w.place true x) ((d.idled w).countRead w.place.block)

theorem Dev.endWork_readBack (hkind : w.kind = .readBack) {l : List CwOutcome} (hl : allHard l = true) :
    d.endWork w (.read l) = (d.pageReadBack w l).verified w := by
  unfold Dev.endWork
  simp only [hkind]
  exact if_pos hl

end

/-! ## Programs, erases and failures -/

theorem Dev.eraseBlock_block (d : Dev) (b : Nat) :
    (d.eraseBlock b).block b = { d.block b with held := false, reads := 0, erases := (d.block b).erases + 1 } := kget_kset_same

theorem Dev.codewords_of_pages {d e : Dev} (h : e.recd.pages = d.recd.pages) (b p : Nat) : e.codewords b p = d.codewords b p := by
  unfold Dev.codewords
  rw [h]

/-- A fresh page has all its codewords, and each of them reads. -/
theorem Dev.programPage_reads {d : Dev} (hsize : 4 ≤ d.recd.pageKiB) (p : NandPlace) (pos : Nat) {e : Dev}
    (he : e.recd.pages = (d.programPage p pos).recd.pages) : e.pageReads p.block p.page = true := by
  obtain ⟨cw, hgood, hcw⟩ : ∃ cw : Nat → Codeword, (∀ i, (cw i).good = true) ∧
      (d.programPage p pos).codewords p.block p.page = (List.range (d.recd.pageKiB / 4)).map cw := by
    refine ⟨_, fun i => ?_, kget_kset_same⟩
    rfl
  obtain ⟨n, hn⟩ : ∃ n, d.recd.pageKiB / 4 = n + 1 := ⟨d.recd.pageKiB / 4 - 1, by omega⟩
  unfold Dev.pageReads
  rw [Dev.codewords_of_pages he, hcw, hn]
  simp [hgood]

/-- A block is retired, and the count of bad blocks is `n`. -/
def Dev.Retired (d : Dev) (b n : Nat) : Prop := (d.block b).bad = true ∧ d.recd.bad = n

theorem Dev.Retired.of_unserved {d e : Dev} {b n : Nat} (h : d.Retired b n) (hr : e.recd.unserved = d.recd.unserved) : e.Retired b n := by
  obtain ⟨hblocks, -, -, -, -, hbad, -⟩ := Recorder.fields_of_unserved hr
  exact ⟨by rw [Dev.block_of_blocks hblocks]; exact h.1, hbad.trans h.2⟩

theorem Dev.Retired.of_unrecorded {d e : Dev} {b n : Nat} (h : d.Retired b n) (hr : e.recd.unrecorded = d.recd.unrecorded) : e.Retired b n :=
  ⟨by rw [Dev.block_of_blocks (congrArg Recorder.blocks hr :)]; exact h.1, (congrArg Recorder.bad hr :).trans h.2⟩

/-- Finding a spare retires nothing. -/
theorem Dev.takeSpare_bad (d : Dev) (b : Nat) : (d.takeSpare b).1.recd.bad = d.recd.bad := by
  unfold Dev.takeSpare
  split
  · dsimp only
    split <;> rfl
  · dsimp only
    split
    · exact (congrArg Recorder.bad (Dev.raise_unrecorded _ _ _ _) :)
    · rfl

/-- The spare that takes a block's place takes its data. -/
def Dev.replaced (d : Dev) (b : Nat) (n : Option Nat) : Dev := match n with | some n => d.relocate b n | none => d

theorem Dev.replaced_bad (d : Dev) (b : Nat) (n : Option Nat) : (d.replaced b n).recd.bad = d.recd.bad := by cases n <;> rfl

/-- A retirement that is reported and counted. -/
def Dev.retiring (d : Dev) (b : Nat) : Dev := (d.modRec (fun r => { r with bad := r.bad + 1 })).raise 0x1003 0 b

theorem Dev.retiring_bad (d : Dev) (b : Nat) : (d.retiring b).recd.bad = d.recd.bad + 1 :=
  (congrArg Recorder.bad ((d.modRec (fun r => { r with bad := r.bad + 1 })).raise_unrecorded 0x1003 0 b) :)

theorem Dev.retireBlock_retired {d : Dev} {b : Nat} (h : (d.block b).bad = false) : (d.retireBlock b).1.Retired b (d.recd.bad + 1) := by
  have heq : (d.retireBlock b).1 = (((d.retiring b).takeSpare b).1.replaced b ((d.retiring b).takeSpare b).2).modBlock b
      (fun y => { y with bad := true, held := false }) := by
    unfold Dev.retireBlock
    rw [if_neg (by simp [h])]
    rfl
  rw [heq]
  refine ⟨congrArg NandBlock.bad (Dev.modBlock_block _ _ _), ?_⟩
  exact (Dev.replaced_bad _ _ _).trans ((Dev.takeSpare_bad _ _).trans (d.retiring_bad b))

theorem Dev.reservationLost_retired {d : Dev} {b n : Nat} (h : d.Retired b n) (a : NandArea) : (d.reservationLost a).Retired b n := by
  unfold Dev.reservationLost
  refine ite_both (P := fun e : Dev => e.Retired b n) ?_ h
  exact Dev.Retired.of_unrecorded (d := d.modSec (fun s => { s with failed := true })) h (Dev.raise_unrecorded _ _ _ _)

theorem Dev.failWork_retired {d : Dev} {w : NandWork} (h : (d.block w.place.block).bad = false) :
    (d.failWork w).Retired w.place.block (d.recd.bad + 1) := by
  have hretired := Dev.retireBlock_retired h
  unfold Dev.failWork
  dsimp only
  split
  · exact Dev.reservationLost_retired hretired _
  · exact Dev.reservationLost_retired (Dev.Retired.of_unserved hretired (Dev.enqueueWork_addsWork _ _).1) _
  · exact Dev.reservationLost_retired hretired _

/-! ## A page read back -/

section
variable {d : Dev} {w : NandWork} {l : List CwOutcome}

theorem Dev.pageReadBack_uncounted (d : Dev) (w : NandWork) (hl : allHard l = true) : (d.pageReadBack w l).recd.uncounted = (d.idled w).recd.uncounted := by
  unfold Dev.pageReadBack
  refine List.foldlRecOn (motive := fun e : Dev => e.recd.uncounted = (d.idled w).recd.uncounted) _ _ (Dev.countRead_uncounted _ _) (fun e he x hx => ?_)
  obtain ⟨y, i⟩ := x
  have hy := List.all_eq_true.1 hl y (List.fst_mem_of_mem_zipIdx hx)
  cases y with
  | hard bits =>
    rw [Dev.cwOutcome_hard]
    refine ite_both (P := fun e : Dev => e.recd.uncounted = (d.idled w).recd.uncounted) ?_ he
    exact (congrArg (fun r : Recorder => { r with blocks := [] }) (e.queueRefresh_unqueued w.place.block 1 false) :).trans he
  | soft => exact absurd hy (by decide)
  | missing => exact absurd hy (by decide)

theorem Dev.verified_ring (hkind : w.kind = .readBack) (harea : w.place.area = .ring) (hticket : w.ticket = 0) :
    (d.verified w).recd.staged = d.recd.staged - w.bytes := by
  unfold Dev.verified
  dsimp only
  rw [if_pos hticket]
  unfold Dev.landProgram
  dsimp only
  rw [if_neg (by simp [hkind]), harea]
  rfl

theorem Dev.verified_copyA (hticket : w.ticket ≠ 0) (hcopy : w.place.copy = 0) :
    d.verified w = (d.landProgram w).programLater 1 w.place.area 1 w.ticket 0 := by
  unfold Dev.verified
  exact (if_neg hticket).trans (if_pos hcopy)

theorem Dev.verified_copyB (hticket : w.ticket ≠ 0) (hcopy : w.place.copy = 1) : d.verified w = (d.landProgram w).releaseHeld w.ticket := by
  unfold Dev.verified
  exact (if_neg hticket).trans (if_neg (by rw [hcopy]; decide))

theorem Dev.openPage_place (d : Dev) (a : NandArea) (copy : Fin 2) : (d.openPage a copy).2.area = a ∧ (d.openPage a copy).2.copy = copy := by
  unfold Dev.openPage
  dsimp only
  split
  · exact ⟨rfl, rfl⟩
  · split
    · split <;> exact ⟨rfl, rfl⟩
    · split <;> exact ⟨rfl, rfl⟩

theorem Dev.enqueueWork_pending (d : Dev) (w : NandWork) : (d.enqueueWork w).Pending w :=
  .inl (List.mem_append_right _ (List.mem_singleton_self _))

/-- A program that is asked for waits. -/
theorem Dev.programLater_pending (d : Dev) (cls : Nat) (a : NandArea) (copy : Fin 2) (ticket bytes : Nat) : ∃ x : NandWork,
    (d.programLater cls a copy ticket bytes).Pending x ∧ x.kind = .program ∧ x.ticket = ticket ∧ x.place.area = a ∧ x.place.copy = copy := by
  obtain ⟨harea, hcopy⟩ := d.openPage_place a copy
  unfold Dev.programLater
  exact ⟨_, Dev.enqueueWork_pending _ _, rfl, rfl, harea, hcopy⟩

theorem Dev.releaseHeld_held (d : Dev) (ticket : Nat) : (d.releaseHeld ticket).palca.held = d.palca.held.filter (fun h => h.ticket != ticket) := by
  refine (foldl_keeps (g := fun d : Dev => d.palca.held) (fun e h => ?_) _ _).trans rfl
  split
  · exact (Palca.fields_of_quiet (Dev.reply_quiet _ _ _)).2.2.1
  · exact (Palca.fields_of_quiet (Dev.reply_quiet _ _ _)).2.2.1

end

/-! ## Time-outs -/

/-- A time-out is reported. -/
def Dev.timedOut (d : Dev) : Dev := d.serveNand.raise 0x1007 0 0

theorem Dev.timedOut_reports {d : Dev} (hup : d.up = true) : d.timedOut.up = true ∧ d.timedOut.Reports 0x1007 0 := by
  have hup' : d.serveNand.up = true := d.serveNand_up.trans hup
  exact ⟨(Dev.raise_up _ _ _ _).trans hup', Dev.raise_reports hup' _ _ _⟩

theorem Dev.timedOut_recd (d : Dev) : d.timedOut.recd.unrecorded = d.serveNand.recd.unrecorded := d.serveNand.raise_unrecorded _ _ _

theorem Recorder.fields_of_unrecorded {a b : Recorder} (h : a.unrecorded = b.unrecorded) :
    a.blocks = b.blocks ∧ a.lateReads = b.lateReads ∧ a.pageKiB = b.pageKiB ∧ a.bad = b.bad ∧ a.running = b.running :=
  ⟨(congrArg Recorder.blocks h :), (congrArg Recorder.lateReads h :), (congrArg Recorder.pageKiB h :), (congrArg Recorder.bad h :),
    (congrArg Recorder.running h :)⟩

theorem Dev.lunOf_of_unrecorded {d e : Dev} (h : e.recd.unrecorded = d.recd.unrecorded) (b : Nat) : e.lunOf b = d.lunOf b :=
  Dev.lunOf_of_shape (congrArg Recorder.capacity h :) (congrArg Recorder.blockMiB h :) (congrArg Recorder.chips h :) (congrArg Recorder.luns h :) b

theorem Dev.timedOut_kept (d : Dev) : d.timedOut.recd.blocks = d.recd.blocks ∧ d.timedOut.recd.lateReads = d.recd.lateReads ∧
    d.timedOut.recd.pageKiB = d.recd.pageKiB ∧ d.timedOut.recd.bad = d.recd.bad := by
  obtain ⟨hblocks, hlate, hpage, hbad, -⟩ := Recorder.fields_of_unrecorded d.timedOut_recd
  obtain ⟨hblocks', -, -, hpage', -, hbad', hlate', -⟩ := Recorder.fields_of_unserved d.serveNand_unserved
  exact ⟨hblocks.trans hblocks', hlate.trans hlate', hpage.trans hpage', hbad.trans hbad'⟩

theorem Dev.timedOut_lunOf (d : Dev) (b : Nat) : d.timedOut.lunOf b = d.lunOf b :=
  (Dev.lunOf_of_unrecorded d.timedOut_recd b).trans (Dev.lunOf_of_unserved d.serveNand_unserved b)

theorem Dev.timedOut_runningOn (d : Dev) (lun : Nat) : d.timedOut.runningOn lun = d.serveNand.runningOn lun :=
  Dev.runningOn_of_running (Recorder.fields_of_unrecorded d.timedOut_recd).2.2.2.2 lun

section
variable {d : Dev} {p : NandPlace} {w : NandWork} {ok : Bool}

theorem nandTimeout_idle (hup : d.up = true) (h : d.serveNand.runningOn (d.lunOf p.block) = none) :
    nandTimeout p ok d = (d.timedOut.readTimeout p ok).serveNand := by
  have hidle : d.timedOut.runningOn (d.timedOut.lunOf p.block) = none := by rw [Dev.timedOut_lunOf, Dev.timedOut_runningOn, h]
  unfold Dev.timedOut at hidle ⊢
  unfold nandTimeout
  rw [if_neg (by simp [hup])]
  dsimp only
  rw [hidle]

theorem nandTimeout_busy (hup : d.up = true) (h : d.serveNand.runningOn (d.lunOf p.block) = some w) (hp : w.place = p) :
    nandTimeout p ok d = if w.retried then ((d.timedOut.setRunning (d.lunOf p.block) none).failWork w).serveNand
      else d.timedOut.setRunning (d.lunOf p.block) (some { w with retried := true }) := by
  have hbusy : d.timedOut.runningOn (d.timedOut.lunOf p.block) = some w := by rw [Dev.timedOut_lunOf, Dev.timedOut_runningOn, h]
  rw [← d.timedOut_lunOf p.block]
  unfold Dev.timedOut at hbusy ⊢
  unfold nandTimeout
  rw [if_neg (by simp [hup])]
  dsimp only
  rw [hbusy]
  exact if_neg (not_not.2 hp)

end

/-- A read that timed out once is to be done again. -/
def Dev.readLater (d : Dev) (p : NandPlace) : Dev := d.modRec (fun r => { r with lateReads := r.lateReads ++ [p] })

/-- A read that timed out twice is not done again. -/
def Dev.readOver (d : Dev) (p : NandPlace) : Dev := d.modRec (fun r => { r with lateReads := r.lateReads.erase p })

theorem Dev.readTimeout_first {d : Dev} {p : NandPlace} {ok : Bool} (h : d.recd.lateReads.contains p = false) : d.readTimeout p ok = d.readLater p := by
  unfold Dev.readTimeout
  exact if_neg (by simp only [h]; decide)

theorem Dev.readTimeout_second {d : Dev} {p : NandPlace} {ok : Bool} (h : d.recd.lateReads.contains p = true) :
    d.readTimeout p ok = (d.readOver p).readDone p (List.replicate ((d.readOver p).recd.pageKiB / 4) .missing) ok := by
  unfold Dev.readTimeout
  exact if_pos h

/-! ## Refresh and upkeep at intervals -/

theorem Dev.leastWorn_mem {d : Dev} {l : List Nat} {n : Nat} (h : d.leastWorn l = some n) : n ∈ l := by
  unfold Dev.leastWorn at h
  split at h
  · exact absurd h (by simp)
  next b t hl =>
    have hsub : ∀ x ∈ b :: t, x ∈ l := fun x hx => (List.mem_filter.1 (hl ▸ hx)).1
    have hfold : t.foldl (fun m x => if (d.block x).erases < (d.block m).erases then x else m) b ∈ b :: t :=
      List.foldlRecOn (motive := fun m => m ∈ b :: t) _ _ List.mem_cons_self
        (fun m hm x hx => ite_both (P := fun y => y ∈ b :: t) (List.mem_cons_of_mem _ hx) hm)
    rw [← Option.some.inj h]
    exact hsub _ hfold

theorem Dev.targets_ne {d : Dev} {b n : Nat} (h : n ∈ d.targets b) : n ≠ b := by
  have hn := (List.mem_filter.1 h).2
  simp only [Bool.and_eq_true, bne_iff_ne] at hn
  exact hn.1.1

/-- A page's key names its block. -/
theorem pageKey_block (n i : Nat) : pageKey n (i % 2 ^ 16) / 2 ^ 16 = n := by
  unfold pageKey
  omega

theorem Dev.relocate_pages (d : Dev) {b n : Nat} (hn : n ≠ b) : ∀ x ∈ (d.relocate b n).recd.pages, x.1 / 2 ^ 16 ≠ b := by
  obtain ⟨l, f, h⟩ : ∃ (l : Store (List Codeword)) (f : Nat × List Codeword → List Codeword), (d.relocate b n).recd.pages =
      l.foldl (fun m x => kset [] m (pageKey n (x.1 % 2 ^ 16)) (f x)) (d.recd.pages.filter (fun x => x.1 / 2 ^ 16 != b)) := ⟨_, _, rfl⟩
  rw [h]
  refine List.foldlRecOn (motive := fun m : Store (List Codeword) => ∀ x ∈ m, x.1 / 2 ^ 16 ≠ b) _ _ (fun x hx => ?_) (fun m hm x _ y hy => ?_)
  · exact bne_iff_ne.1 (List.mem_filter.1 hx).2
  · rcases mem_kset hy with hkey | hy
    · rw [hkey, pageKey_block]
      exact hn
    · exact hm y hy

theorem Dev.relocate_held (d : Dev) (b n : Nat) : ((d.relocate b n).block n).held = (d.block b).held := by
  unfold Dev.relocate
  dsimp only
  rw [Dev.modBlock_block]

theorem Dev.relocate_refresh (d : Dev) (b n : Nat) : (d.relocate b n).recd.refresh = d.recd.refresh := rfl

/-- A move changes what the relocation changes, and asks for the old block's erase. -/
theorem Dev.moveBlock_unserved (d : Dev) (b n : Nat) : (d.moveBlock b n).recd.unserved = (d.relocate b n).recd.unserved := by
  unfold Dev.moveBlock
  exact (Dev.serveNand_unserved _).trans (Dev.eraseLater_addsWork _ _ _ _ _).1

/-- A block leaves the refresh queue. -/
def Dev.dequeued (d : Dev) (b : Nat) : Dev :=
  d.modRec (fun r => { r with refresh := r.refresh.filter (fun q => !(q.1 == b)), bootAged := sdel b r.bootAged })

theorem blockRefresh_due {d : Dev} {b n : Nat} {q : Nat × Nat} (hq : d.serveNand.refreshTurn b = some q)
    (hn : d.serveNand.leastWorn (d.serveNand.targets b) = some n) :
    blockRefresh b d = ((d.serveNand.dequeued b).raise 0x1005 0 q.2).moveBlock b n := by
  unfold blockRefresh
  dsimp only
  rw [hq, hn]
  rfl

theorem retentionScan_due {d : Dev} (hup : d.up = true) (hdue : d.recd.lastScan + sTicks (168 * 3600) ≤ d.tick) (aged soft : List Nat) :
    retentionScan aged soft d = soft.foldl (fun d b => (d.raise 0x1002 0 b).queueRefresh b 3 true)
      (aged.foldl (fun d b => d.queueRefresh b 3 false) (d.modRec (fun r => { r with lastScan := d.tick }))) := by
  unfold retentionScan
  exact if_pos ⟨hup, hdue⟩

/-- Every block of a list joins the queue, and those that wait stay. -/
theorem foldl_aged {f : Dev → Nat → Dev} (hadd : ∀ d b, (f d b).Aged b) (hkeep : ∀ d a b, d.Aged a → (f d b).Aged a) {a : Nat} :
    ∀ (l : List Nat) (d : Dev), a ∈ l ∨ d.Aged a → (l.foldl f d).Aged a
  | [], _, h => h.resolve_left List.not_mem_nil
  | b :: l, d, h => by
    refine foldl_aged hadd hkeep l (f d b) ?_
    rcases h with hmem | haged
    · rcases List.mem_cons.1 hmem with rfl | hmem
      · exact .inr (hadd d a)
      · exact .inl hmem
    · exact .inr (hkeep d a b haged)

theorem Dev.softAged_lastScan (d : Dev) (b : Nat) : ((d.raise 0x1002 0 b).queueRefresh b 3 true).recd.lastScan = d.recd.lastScan := by
  have hqueue := (d.raise 0x1002 0 b).queueRefresh_unqueued b 3 true
  have hraise := d.raise_unrecorded 0x1002 0 b
  exact (congrArg Recorder.lastScan hqueue :).trans (congrArg Recorder.lastScan hraise :)

theorem wearLevelling_due {d : Dev} (hup : d.up = true) (hdue : d.recd.lastWear + sTicks (24 * 3600) ≤ d.tick) :
    (wearLevelling d).recd.lastWear = d.tick := by
  have hmove : ∀ (e : Dev) (b n : Nat), (e.moveBlock b n).recd.lastWear = e.recd.lastWear := fun e b n =>
    (congrArg Recorder.lastWear (e.moveBlock_unserved b n) :)
  unfold wearLevelling
  rw [if_pos ⟨hup, hdue⟩]
  dsimp only
  split
  · rfl
  · split
    · split
      · rfl
      · exact hmove _ _ _
    · rfl

theorem Dev.journal_lastJournal (d : Dev) (a : NandArea) (key : Nat) (value : List Nat) :
    (d.journal a key value).recd.lastJournal = d.recd.lastJournal := by
  have h : (d.journal a key value).recd.lastJournal = _ := (congrArg Recorder.lastJournal (d.journal_logical a key value) :)
  rw [h]
  unfold Recorder.entered
  split <;> rfl

theorem readCountJournal_due {d : Dev} (hup : d.up = true) (hdue : d.recd.lastJournal + sTicks 600 ≤ d.tick) : readCountJournal d =
    (d.modRec (fun r => { r with lastJournal := d.tick })).journal .control ctlReads (d.recd.blocks.flatMap (fun x => [x.1, x.2.reads])) := by
  unfold readCountJournal
  exact if_pos ⟨hup, hdue⟩

end Sys2Proof.Machine

/-! PROOF. Upkeep of the NAND, settled: what a command does between the two services of the LUNs, which leave all but the work itself (O49). -/

namespace Sys2Proof.Machine

open Sys2Proof

section
variable {d : Dev} {p : NandPlace} {w : NandWork} {ok : Bool}

/-! ## Reads -/

theorem Dev.countRead_readRetry (d : Dev) (b : Nat) : (d.countRead b).recd.readRetry = d.recd.readRetry := by
  have h := d.countRead_uncounted b
  exact (congrArg Recorder.readRetry h :)

theorem nandRead_clean {bits : Nat} (hup : d.up = true) (hidle : d.serveNand.runningOn (d.lunOf p.block) = none) (hbits : bits ≤ 60)
    (hfew : (d.block p.block).reads + 1 < 100000) :
    ((nandOperationComplete p (.read [.hard bits]) ok d).block p.block).reads = (d.block p.block).reads + 1 ∧
      (nandOperationComplete p (.read [.hard bits]) ok d).recd.refresh = d.recd.refresh := by
  have hblock := d.serveNand_block p.block
  obtain ⟨-, -, hrefresh, -⟩ := Recorder.fields_of_unserved d.serveNand_unserved
  obtain ⟨-, -, hrefresh', -⟩ := Recorder.fields_of_unserved (d.serveNand.readCounted p.block).serveNand_unserved
  rw [nandOperationComplete_read hup hidle, Dev.readDone_clean hbits, Dev.countRead_few (by rw [hblock]; exact hfew), Dev.serveNand_block]
  refine ⟨?_, hrefresh'.trans hrefresh⟩
  rw [Dev.readCounted, Dev.modBlock_block, hblock]

theorem Dev.softReported_reports (hup : d.up = true) : (d.softReported p).Reports 0x1002 0 := Dev.raise_reports hup _ _ _

theorem nandRead_soft (hup : d.up = true) (hidle : d.serveNand.runningOn (d.lunOf p.block) = none) (hsize : 4 ≤ d.recd.pageKiB)
    (hretry : d.recd.readRetry = true) :
    (nandOperationComplete p (.read [.soft]) ok d).recd.refresh.head? = some (p.block, 1) ∧
      (nandOperationComplete p (.read [.soft]) ok d).Reports 0x1002 0 := by
  obtain ⟨-, -, -, hpage, -, -, -, hread⟩ := Recorder.fields_of_unserved d.serveNand_unserved
  have hretry' : (d.serveNand.countRead p.block).recd.readRetry = true := by rw [Dev.countRead_readRetry, hread, hretry]
  have hup' : (d.serveNand.countRead p.block).up = true := by rw [Dev.countRead_up, d.serveNand_up, hup]
  rw [nandOperationComplete_read hup hidle, Dev.readDone_one (by rw [hpage]; exact hsize), Dev.cwOutcome_soft hretry', Dev.serveNand_reports]
  obtain ⟨-, -, hrefresh, -⟩ := Recorder.fields_of_unserved
    (((d.serveNand.countRead p.block).softReported p).queueRefresh p.block 1 true).serveNand_unserved
  rw [hrefresh, (Dev.queueRefresh_frame _ _ _ _).reports (by decide)]
  exact ⟨Dev.queueRefresh_first _ _ _, Dev.softReported_reports hup'⟩

theorem nandRead_missing (hup : d.up = true) (hidle : d.serveNand.runningOn (d.lunOf p.block) = none) (hsize : 4 ≤ d.recd.pageKiB) :
    (nandOperationComplete p (.read [.missing]) ok d).Reports 0x1001 0 := by
  obtain ⟨-, -, -, hpage, -⟩ := Recorder.fields_of_unserved d.serveNand_unserved
  have hup' : (d.serveNand.countRead p.block).up = true := by rw [Dev.countRead_up, d.serveNand_up, hup]
  rw [nandOperationComplete_read hup hidle, Dev.readDone_one (by rw [hpage]; exact hsize), Dev.cwOutcome_missing, Dev.serveNand_reports]
  exact (Dev.missing_reports hup' 0).2

/-! ## The operation in progress -/

theorem Dev.idled_block (d : Dev) (w : NandWork) (b : Nat) : (d.serveNand.idled w).block b = d.block b := d.serveNand_block b

section
variable (hup : d.up = true) (hrun : d.serveNand.runningOn (d.lunOf p.block) = some w) (hp : w.place = p)

include hup hrun hp

theorem nandErased (hkind : w.kind = .erase) : (nandOperationComplete p .erased ok d).block p.block =
    { d.block p.block with held := false, reads := 0, erases := (d.block p.block).erases + 1 } := by
  rw [nandOperationComplete_running hup hrun hp, Dev.endWork_erased hkind, Dev.serveNand_block, hp, Dev.eraseBlock_block, Dev.idled_block]

theorem nandProgrammed (hkind : w.kind = .program) (hsize : 4 ≤ d.recd.pageKiB) :
    (nandOperationComplete p .done ok d).runningOn (d.lunOf p.block) = some { w with kind := .readBack } ∧
      (nandOperationComplete p .done ok d).pageReads p.block p.page = true := by
  subst hp
  obtain ⟨-, -, -, hpage, -⟩ := Recorder.fields_of_unserved d.serveNand_unserved
  rw [nandOperationComplete_running hup hrun rfl, Dev.endWork_done hkind, Dev.lunOf_of_unserved d.serveNand_unserved]
  obtain ⟨-, hpages, -⟩ := Recorder.fields_of_unserved ((d.serveNand.programPage w.place d.serveNand.recd.ringPos).setRunning (d.lunOf w.place.block)
    (some { w with kind := .readBack })).serveNand_unserved
  rw [Dev.setRunning_pages] at hpages
  exact ⟨Dev.serveNand_running (Dev.setRunning_runningOn _ _ _),
    Dev.programPage_reads (d := d.serveNand) (hsize.trans_eq hpage.symm) w.place _ hpages⟩

theorem nandFailed (hkind : w.kind = .program ∨ w.kind = .erase) (hgood : (d.block p.block).bad = false) :
    (nandOperationComplete p .failed ok d).Retired p.block (d.recd.bad + 1) := by
  have hgood' : ((d.serveNand.idled w).block w.place.block).bad = false := by rw [Dev.idled_block, hp, hgood]
  obtain ⟨-, -, -, -, -, hbad, -⟩ := Recorder.fields_of_unserved d.serveNand_unserved
  have hbad' : (d.serveNand.idled w).recd.bad = d.recd.bad := hbad
  have hretired := Dev.failWork_retired hgood'
  rw [nandOperationComplete_running hup hrun hp, Dev.endWork_failed hkind]
  rw [hbad', hp] at hretired
  exact hretired.of_unserved (Dev.serveNand_unserved _)

section
variable {l : List CwOutcome} (hkind : w.kind = .readBack) (hl : allHard l = true)

include hkind hl

theorem nandReadBack : nandOperationComplete p (.read l) ok d = ((d.serveNand.pageReadBack w l).verified w).serveNand := by
  rw [nandOperationComplete_running hup hrun hp, Dev.endWork_readBack hkind hl]

omit hup hrun hp hkind in
theorem Dev.pageReadBack_staged : (d.serveNand.pageReadBack w l).recd.staged = d.recd.staged := by
  have h := d.serveNand.pageReadBack_uncounted w hl
  obtain ⟨-, -, -, -, hstaged, -⟩ := Recorder.fields_of_unserved d.serveNand_unserved
  have hread : (d.serveNand.pageReadBack w l).recd.staged = (d.serveNand.idled w).recd.staged := (congrArg Recorder.staged h :)
  exact hread.trans hstaged

theorem nandReadBack_ring (harea : p.area = .ring) (hticket : w.ticket = 0) :
    (nandOperationComplete p (.read l) ok d).recd.staged = d.recd.staged - w.bytes := by
  obtain ⟨-, -, -, -, hstaged, -⟩ := Recorder.fields_of_unserved ((d.serveNand.pageReadBack w l).verified w).serveNand_unserved
  rw [nandReadBack hup hrun hp hkind hl, hstaged, Dev.verified_ring hkind (by rw [hp]; exact harea) hticket, Dev.pageReadBack_staged hl]

theorem nandReadBack_copyA (hticket : w.ticket ≠ 0) (hcopy : p.copy = 0) : ∃ x : NandWork, (nandOperationComplete p (.read l) ok d).Pending x ∧
    x.kind = .program ∧ x.ticket = w.ticket ∧ x.place.area = p.area ∧ x.place.copy = 1 := by
  rw [nandReadBack hup hrun hp hkind hl, Dev.verified_copyA hticket (by rw [hp]; exact hcopy), hp]
  obtain ⟨x, hpending, hx⟩ := ((d.serveNand.pageReadBack w l).landProgram w).programLater_pending 1 p.area 1 w.ticket 0
  exact ⟨x, Dev.serveNand_pending hpending, hx⟩

theorem nandReadBack_copyB (hticket : w.ticket ≠ 0) (hcopy : p.copy = 1) :
    ∀ h, h ∈ (nandOperationComplete p (.read l) ok d).palca.held → h.ticket ≠ w.ticket := by
  rw [nandReadBack hup hrun hp hkind hl, Dev.verified_copyB hticket (by rw [hp]; exact hcopy), (Dev.serveNand_frame _).palca (by decide),
    Dev.releaseHeld_held]
  exact fun h hh => bne_iff_ne.1 (List.mem_filter.1 hh).2

end

/-! ## Time-outs -/

theorem nandTimeout_retries (hfirst : w.retried = false) : (nandTimeout p ok d).Reports 0x1007 0 ∧
    (nandTimeout p ok d).runningOn (d.lunOf p.block) = some { w with retried := true } := by
  rw [nandTimeout_busy hup hrun hp, if_neg (by simp [hfirst])]
  exact ⟨(Dev.timedOut_reports hup).2, Dev.setRunning_runningOn _ _ _⟩

theorem nandTimeout_fails (hsecond : w.retried = true) (hgood : (d.block p.block).bad = false) : ((nandTimeout p ok d).block p.block).bad = true := by
  obtain ⟨hblocks, -⟩ := d.timedOut_kept
  have hgood' : ((d.timedOut.setRunning (d.lunOf p.block) none).block w.place.block).bad = false := by
    rw [Dev.setRunning_block, Dev.block_of_blocks hblocks, hp, hgood]
  obtain ⟨hbad, -⟩ := Dev.failWork_retired hgood'
  rw [hp] at hbad
  rw [nandTimeout_busy hup hrun hp, if_pos hsecond, Dev.serveNand_block, hbad]

end

section
variable (hup : d.up = true) (hidle : d.serveNand.runningOn (d.lunOf p.block) = none)

include hup hidle

theorem nandTimeout_late (hfirst : d.recd.lateReads.contains p = false) :
    (nandTimeout p ok d).Reports 0x1007 0 ∧ p ∈ (nandTimeout p ok d).recd.lateReads ∧ (nandTimeout p ok d).recd.blocks = d.recd.blocks := by
  obtain ⟨hblocks, hlate, -⟩ := d.timedOut_kept
  obtain ⟨hblocks', -, -, -, -, -, hlate', -⟩ := Recorder.fields_of_unserved (d.timedOut.readLater p).serveNand_unserved
  rw [nandTimeout_idle hup hidle, Dev.readTimeout_first (by rw [hlate]; exact hfirst), Dev.serveNand_reports, hlate', hblocks']
  exact ⟨(Dev.timedOut_reports hup).2, List.mem_append_right _ (List.mem_singleton_self _), hblocks⟩

theorem nandTimeout_lost (hsecond : d.recd.lateReads.contains p = true) (hsize : 4 ≤ d.recd.pageKiB) : (nandTimeout p ok d).Reports 0x1001 0 := by
  obtain ⟨-, hlate, hpage, -⟩ := d.timedOut_kept
  have hup' : (d.timedOut.readOver p).up = true := (Dev.timedOut_reports hup).1
  have hsize' : 4 ≤ (d.timedOut.readOver p).recd.pageKiB := hsize.trans_eq hpage.symm
  rw [nandTimeout_idle hup hidle, Dev.readTimeout_second (by rw [hlate]; exact hsecond), Dev.serveNand_reports]
  exact Dev.readDone_lost hup' hsize'

end

/-! ## Refresh and scan -/

/-- A block that leaves the queue is reported. -/
def Dev.refreshing (d : Dev) (b reason : Nat) : Dev := (d.serveNand.dequeued b).raise 0x1005 0 reason

theorem Dev.refreshing_kept (d : Dev) (b reason : Nat) : (∀ x ∈ (d.refreshing b reason).recd.refresh, x.1 ≠ b) ∧
    (d.refreshing b reason).block b = d.block b := by
  have h := (d.serveNand.dequeued b).raise_unrecorded 0x1005 0 reason
  have hrefresh : (d.refreshing b reason).recd.refresh = (d.serveNand.dequeued b).recd.refresh := (congrArg Recorder.refresh h :)
  refine ⟨fun x hx => ?_, (Dev.raise_block _ _ _ _ _).trans (d.serveNand_block b)⟩
  rw [hrefresh] at hx
  simpa using (List.mem_filter.1 hx).2

theorem Dev.refreshing_reports (hup : d.up = true) (b reason : Nat) : (d.refreshing b reason).Reports 0x1005 0 := by
  have hup' : (d.serveNand.dequeued b).up = true := d.serveNand_up.trans hup
  exact Dev.raise_reports hup' _ _ _

theorem blockRefresh_moves {b n : Nat} {q : Nat × Nat} (hup : d.up = true) (hq : d.serveNand.refreshTurn b = some q)
    (hn : d.serveNand.leastWorn (d.serveNand.targets b) = some n) :
    (∀ x, x ∈ (blockRefresh b d).recd.refresh → x.1 ≠ b) ∧ (∀ x, x ∈ (blockRefresh b d).recd.pages → x.1 / 2 ^ 16 ≠ b) ∧
      ((blockRefresh b d).block n).held = (d.block b).held ∧ (blockRefresh b d).Reports 0x1005 0 := by
  have heq : blockRefresh b d = (d.refreshing b q.2).moveBlock b n := blockRefresh_due hq hn
  obtain ⟨hrefresh, hblock⟩ := d.refreshing_kept b q.2
  obtain ⟨hblocks, hpages, hqueue, -⟩ := Recorder.fields_of_unserved ((d.refreshing b q.2).moveBlock_unserved b n)
  rw [heq, hpages, hqueue, Dev.block_of_blocks hblocks, Dev.relocate_held, hblock, Dev.relocate_refresh,
    (Dev.moveBlock_frame _ _ _).reports (by decide)]
  exact ⟨hrefresh, Dev.relocate_pages _ (Dev.targets_ne (Dev.leastWorn_mem hn)), rfl, Dev.refreshing_reports hup _ _⟩

theorem Dev.queueRefresh_lastScan (d : Dev) (b reason : Nat) (first : Bool) : (d.queueRefresh b reason first).recd.lastScan = d.recd.lastScan := by
  have h := d.queueRefresh_unqueued b reason first
  exact (congrArg Recorder.lastScan h :)

theorem Dev.raise_refresh (d : Dev) (c i x : Nat) : (d.raise c i x).recd.refresh = d.recd.refresh := by
  have h := d.raise_unrecorded c i x
  exact (congrArg Recorder.refresh h :)

theorem retentionScan_queues (hup : d.up = true) (hdue : d.recd.lastScan + sTicks (168 * 3600) ≤ d.tick) (aged soft : List Nat) :
    (retentionScan aged soft d).recd.lastScan = d.tick ∧ ∀ b, (b ∈ aged ∨ b ∈ soft) → (retentionScan aged soft d).Aged b := by
  rw [retentionScan_due hup hdue]
  refine ⟨?_, fun b hb => ?_⟩
  · exact (foldl_keeps (g := fun e : Dev => e.recd.lastScan) Dev.softAged_lastScan _ _).trans
      (foldl_keeps (g := fun e : Dev => e.recd.lastScan) (fun e b => e.queueRefresh_lastScan b 3 false) _ _)
  · refine foldl_aged (fun e a => Dev.queueRefresh_aged _ _ _ _)
      (fun e a c ha => Dev.queueRefresh_keeps (ha.of_refresh (e.raise_refresh _ _ _)) _ _ _) soft _ (hb.symm.imp_right (fun haged => ?_))
    exact foldl_aged (fun e a => Dev.queueRefresh_aged _ _ _ _) (fun e a c ha => Dev.queueRefresh_keeps ha _ _ _) aged _ (.inl haged)

theorem readCountJournal_enters (hup : d.up = true) (hdue : d.recd.lastJournal + sTicks 600 ≤ d.tick) :
    (readCountJournal d).recd.lastJournal = d.tick ∧ (readCountJournal d).recd.jseq = (d.recd.jseq + 1) % 2 ^ 32 ∧
      (readCountJournal d).recd.control.head?.map (fun e => (e.key, e.value)) = some (ctlReads, d.recd.blocks.flatMap (fun x => [x.1, x.2.reads])) := by
  rw [readCountJournal_due hup hdue, Dev.journal_jseq, Dev.journal_control, Dev.journal_lastJournal]
  exact ⟨rfl, rfl, rfl⟩

end

/-- Settles O49. -/
theorem nandUpkeep : Obligations.NandUpkeep := by
  refine ⟨?_, ?_, ?_, ?_, ?_, ?_, ?_, ?_, ?_, ?_, ?_, ?_, ?_, ?_⟩
  case refine_1 => exact fun s p bits ok hup hidle hbits hfew => ⟨_, rfl, nandRead_clean hup hidle hbits hfew⟩
  case refine_2 => exact fun s p ok hup hidle hsize hretry => ⟨_, rfl, nandRead_soft hup hidle hsize hretry⟩
  case refine_3 => exact fun s p ok hup hidle hsize => ⟨_, rfl, nandRead_missing hup hidle hsize⟩
  case refine_4 =>
    intro s p w ok hup hrun hp hkind
    refine ⟨_, rfl, ?_⟩
    beta_reduce
    rw [nandErased hup hrun hp hkind]
    exact ⟨rfl, rfl, rfl⟩
  case refine_5 => exact fun s p w ok hup hrun hp hkind hsize => ⟨_, rfl, nandProgrammed hup hrun hp hkind hsize⟩
  case refine_6 =>
    exact fun s p w l ok hup hrun hp hkind hl =>
      ⟨fun harea hticket => ⟨_, rfl, nandReadBack_ring hup hrun hp hkind hl harea hticket⟩,
        fun _ hticket hcopy => ⟨_, rfl, nandReadBack_copyA hup hrun hp hkind hl hticket hcopy⟩,
        fun _ hticket hcopy => ⟨_, rfl, nandReadBack_copyB hup hrun hp hkind hl hticket hcopy⟩⟩
  case refine_7 => exact fun s p w ok hup hrun hp hkind hgood => ⟨_, rfl, nandFailed hup hrun hp hkind hgood⟩
  case refine_8 =>
    exact fun s p ok hup hidle => ⟨fun hfirst => ⟨_, rfl, nandTimeout_late hup hidle hfirst⟩,
      fun hsecond hsize => ⟨_, rfl, nandTimeout_lost hup hidle hsecond hsize⟩⟩
  case refine_9 =>
    exact fun s p w ok hup hrun hp => ⟨fun hfirst => ⟨_, rfl, nandTimeout_retries hup hrun hp hfirst⟩,
      fun hsecond hgood => ⟨_, rfl, nandTimeout_fails hup hrun hp hsecond hgood⟩⟩
  case refine_10 => exact fun s b n q hup hq hn => ⟨_, rfl, blockRefresh_moves hup hq hn⟩
  case refine_11 => exact fun s hup hdue => ⟨_, rfl, readCountJournal_enters hup hdue⟩
  case refine_12 => exact fun s aged soft hup hdue => ⟨_, rfl, retentionScan_queues hup hdue aged soft⟩
  case refine_13 => exact fun s hup hdue => ⟨_, rfl, wearLevelling_due hup hdue⟩
  case refine_14 =>
    intro s k hfirst
    refine ⟨_, rfl, ?_⟩
    beta_reduce
    rw [firmwareCopyRepair, if_pos hfirst]
    exact fun h => (mem_sdel.1 h).2 rfl

end Sys2Proof.Machine
